-- ==== Sys2Proof/Word.lean ====
section
/-! DEFINITION. The word types of the KL9640 model: bytes, 16-, 32- and 64-bit words, byte strings, and tables
keyed by a number. -/

namespace Sys2Proof

abbrev Byte := BitVec 8
abbrev Word16 := BitVec 16
abbrev Word32 := BitVec 32
abbrev Word64 := BitVec 64

/-- A string of bytes, byte 0 first. -/
abbrev Bytes := List (BitVec 8)

/-- A sparse table keyed by a number: a key that is not listed holds the table's default. -/
abbrev Tab (α : Type) := List (Nat × α)

/-- A PCIe function of the chip: the port, and the function number on it (0 is PF0). -/
structure FnId where
  port : Fin 2
  fn   : BitVec 8
  deriving DecidableEq, Repr

/-- A queue pair as host software addresses it: its function and its function-local index. -/
structure QKey where
  f   : FnId
  idx : BitVec 16
  deriving DecidableEq, Repr

/-- Severity of an event record (R394). -/
inductive Sev where
  | info | notice | fault | critical
  deriving DecidableEq, Repr

/-- The source blocks of the control space, in the order of the table of R13. -/
inductive Blk where
  | glb | clk | hep | hqe | ing | bal | sec | med | par | drc | peer | rdm | mch | evr | svc | nvc | wch
  deriving DecidableEq, Repr

/-- Head roles (R334). -/
inductive Role where
  | active | sole | service
  deriving DecidableEq, Repr

/-- Service states (R58). -/
inductive Service where
  | startUp | normal | test | recovery | romService
  deriving DecidableEq, Repr

/-- Pace modes (R430). -/
inductive Pace where
  | thrift | even | sprint
  deriving DecidableEq, Repr

/-- Engine classes that are self-tested one engine at a time (R141, R164, R188). -/
inductive EngClass where
  | chunker | fingerprint | compressor | decompressor | xts
  deriving DecidableEq, Repr

/-- The streams of R208: the ordinary temperature classes 0 to 3, the archive stream and the metadata stream,
and the reclamation destination of each. -/
structure StreamId where
  kind    : Fin 6     -- 0 to 3 ordinary class, 4 archive, 5 metadata
  reclaim : Bool
  deriving DecidableEq, Repr

end Sys2Proof
end

