-- ==== Sys2Proof/Config.lean ====
section
/-! DEFINITION. What one implementation or its surroundings fix, and every value that the spec leaves open. Each is an
opaque constant without a body: nothing can evaluate it, and a statement that holds, holds for every value of it. -/

namespace Sys2Proof.Config

/-- A fresh free value: State's `freeCtr` is the argument (DRBG output of R196, choices the spec does not make). -/
opaque freeValue : Nat → BitVec 256

/-- A free choice below 2^64, applied to the counter. -/
opaque freeNat : Nat → Nat

/-- The CODE of an event that the spec requires and does not number (R457): by rule number and ordinal within the rule,
the low ten bits less one. -/
opaque eventCode : Nat → Nat → Nat

/-- The payload of such an event (R457), applied to the rule, the ordinal and what the rule says the event names. -/
opaque eventPayload : Nat → Nat → List Nat → Bytes

/-- The keyed hash that places a block in a set of the staging index (R117): key, namespace, logical block. -/
opaque stagingHash : BitVec 256 → Nat → Nat → Nat

/-- The boot ROM's digest of the signing key pair of one index (R416, detail 4). -/
opaque romKeyDigest : Nat → Bytes

/-- The boot ROM contents that MEAS0 is extended with (R54), by stepping. -/
opaque bootRomImage : Bool → Bytes

/-- ML-DSA-87 verification (R416, detail 6): public key, message, signature. -/
opaque mlDsaVerify : Bytes → Bytes → Bytes → Bool

/-- ECDSA P-384 verification (R416, detail 7): public key, message, signature. -/
opaque ecdsaVerify : Bytes → Bytes → Bytes → Bool

/-- The length-limited code lengths that the DENSE and AUTO encoders build from token counts (R159): the limit and the
counts of the symbols. -/
opaque codeLengths : Nat → List Nat → List Nat

/-- The description by which the encoder sends its main and distance code lengths (R153): the spec fixes what a reader
accepts, and not which counts and repeats a writer uses. -/
opaque tableBits : List Nat → List Nat → List Bool

/-- The 512-byte information page (R243) of the module that is fitted on a lane, until it has been reported. -/
opaque modulePage : Nat → Bytes

/-- The LFSR of a channel's row-hammer source while UNSEEDED (R200): how the unit serial and the channel number make its seed, and its
feedback. -/
opaque lfsrSeed : Word64 → Nat → Word64
opaque lfsrStep : Word64 → Word64

/-- The next value of a channel's row-hammer generator while SEEDED (R200, R388): channel and value before. -/
opaque rowHammerDraw : Nat → Nat → Nat

/-- The bank and row of a DRAM line (R385 to R388); the address map of a channel is not in the spec. -/
opaque dramBank : Nat → Nat
opaque dramRow : Nat → Nat

/-- The rate of a QP after an update that the formula of R358 does not round: numerator over denominator. -/
opaque rateRound : Nat → Nat → Nat

/-- The vendor firmware's image handling: what the firmware puts into auxiliary fields that the spec leaves to it. -/
opaque firmwareField : Nat → Nat → Nat

/-- The hook table that a lost head left on flash (R129), which the surviving head loads after a fail-over: the number of
the load gives its entries, in the form of `Ing.hooks`. -/
opaque lostHooks : Nat → List (Nat × Bytes × Nat × Nat)

/-- What the newest checkpoint of a head holds when another head loads it from flash (R339, R344): the number of the load and of the
table (0 namespaces, 1 map entries, 2 chunk table, 3 segment table) give its rows, as numbers and byte strings. -/
opaque loadedRows : Nat → Nat → List (List Nat × Bytes × Bytes)

end Sys2Proof.Config
end

