-- ==== Sys2Proof/Syntax.lean ====
section
/-! DEFINITION. The commands of the KL9640: one constructor of `Instr` for each row of the table of operations and
events, and the operands that they carry. An operand is what comes from outside the chip with the event: the address and
data of an access, the bytes of a frame, the outcome of a measurement on the analogue side. -/

namespace Sys2Proof

/-! ### Operands of control-space and PCIe accesses -/

/-- Who makes a register access: host software through PF0 of a port, the processors on the fabric (boot ROM, control
and task cores), or DEBUG ACCESS. -/
inductive Requester where
  | host (port : Fin 2)
  | core
  | debug
  deriving DecidableEq, Repr

/-- The space that a register access addresses: the control space (BAR0, R29), a doorbell slot of BAR2 (R65), the MSI-X
table of BAR4 (R65, R78), or the configuration-space controls of a function (SR-IOV VF Enable, MSI-X Function Mask). -/
inductive RegSpace where
  | control
  | bar2 (f : FnId)
  | bar4 (f : FnId)
  | config (f : FnId)
  deriving DecidableEq, Repr

/-- A register write: requester, space, byte offset, width in bits and value. -/
structure RegWrite where
  req    : Requester
  space  : RegSpace
  offset : Nat
  width  : Nat
  value  : Word64
  deriving DecidableEq, Repr

/-- A control-space read: requester, byte offset and width in bits. -/
structure RegRead where
  req    : Requester
  offset : Nat
  width  : Nat
  deriving DecidableEq, Repr

/-- What a received poisoned TLP carries (R72). -/
inductive PoisonKind where
  | writeData (cmd : Nat)
  | command (q : QKey) (head : Bytes)
  | descriptorList (q : QKey) (head : Bytes)
  | bar2Write
  | bar0Write
  deriving DecidableEq, Repr

/-- One descriptor of a descriptor list (R90). -/
structure Desc where
  addr : Word64
  len  : Word32
  rsv  : Word32
  deriving DecidableEq, Repr

/-- A 64-byte command entry as it was fetched, the queue it was fetched from, and what the device reads from host memory
for it: the descriptor list, the buffer at DPTR0 or at 0x30. -/
structure HostCmd where
  q        : QKey
  opcode   : Byte
  flags    : Byte
  cid      : Word16
  nsid     : Word16
  fed      : Byte
  rsv7     : Byte
  hostTag  : Word64
  lba      : Word64
  nblk     : Word32
  cdw7     : Word32
  dptr0    : Word64
  dlistLen : Word32
  rsv2c    : Word32
  cdw12    : Word32
  cdw13    : Word32
  cdw14    : Word32
  cdw15    : Word32
  dlist    : List Desc
  buf      : Bytes
  buf2     : Bytes
  deriving DecidableEq, Repr

/-! ### Operands of the cache and the DRAM -/

/-- What a cache read addresses: a cacheable line, with what the array's parity shows, or a scratchpad word, with what
SECDED shows (0 good, 1 single-bit, 2 double-bit) and the host command that depends on it. -/
inductive CacheTarget where
  | line (addr : Nat) (parityError : Bool)
  | scratch (addr : Nat) (bits : Fin 3) (cmd : Option Nat)
  deriving DecidableEq, Repr

/-- The SPD of one RDIMM slot (R379), for the slots that hold an RDIMM. -/
structure Spd where
  channel : Fin 12
  slot    : Fin 2
  gib     : Nat
  ranks   : Nat
  x4      : Bool
  eccRdimm : Bool
  rated6400 : Bool
  drfm    : Bool
  timing  : Nat
  deriving DecidableEq, Repr

/-- A DRAM request of R385: channel, subchannel, 64-byte line, direction, and what the ECC finds when a read line
arrives (0 good, 1 corrected, 2 uncorrectable), the time in µs since the request before it on its subchannel, whether its
requester holds another copy (R390), the command that depends on it and the block of a read that the line holds a part of, and the
staging slot that the line belongs to (R73), or the namespace, block and generation of the mirror copy that it belongs to (R393). -/
structure DramReq where
  channel : Fin 12
  sub     : Fin 2
  line    : Nat
  write   : Bool
  data    : Bytes
  ecc     : Fin 3
  waitedUs : Nat
  copyElsewhere : Bool
  cmd     : Option Nat
  block   : Option Nat := none
  slot    : Option Nat := none
  copy    : Option (Nat × Nat × Word16) := none
  deriving DecidableEq, Repr

/-! ### Operands of the media side -/

/-- A command frame as the bridge of a lane's module receives it, with the module port it arrived on (0 A, 1 B). -/
structure FarFrame where
  lane    : Fin 96
  port    : Fin 2
  slc     : Bool
  all     : Bool
  claim   : Word32
  tag     : BitVec 10
  die     : BitVec 9
  block   : BitVec 24
  page    : Word16
  planes  : BitVec 4
  offset  : Word16
  count   : Word16
  payload : Bytes
  deriving DecidableEq, Repr

/-- What the receiver of a Farium lane finds of a frame (R239, R241): its sequence number, and whether its header CRC and its payload
CRC are good. -/
structure FrameLink where
  seq         : Word16
  headerGood  : Bool
  payloadGood : Bool
  deriving DecidableEq, Repr

/-- A completion header as the KL9640 receives it (frame type 0x80), with its payload. -/
structure FarCompletion where
  link    : FrameLink
  lane    : Fin 96
  op      : Byte
  claim   : Word32
  tag     : BitVec 10
  die     : BitVec 9
  status  : Word16
  corr    : Word16
  busyUs  : Word32
  aux     : Word32
  payload : Bytes
  nowMs   : Nat
  deriving DecidableEq, Repr

/-- A die status record of R249 as the KL9640 reads it. -/
structure DieStatus where
  state  : Byte
  op     : Byte
  status : Word16
  tag    : Word16
  page   : Word16
  block  : Word32
  claim  : Word32
  deriving DecidableEq, Repr

/-- A LINK frame (R239, R240): whether its header CRC is good, acknowledged sequence number, NAK, freed credits. -/
structure LinkFrame where
  headerGood : Bool
  ackSeq     : Word16
  nak        : Bool
  cmdCredits : Word16
  dataCredits : Word16
  deriving DecidableEq, Repr

/-- The head of a notice frame (R239, R259): how it was received, and its code. -/
structure NoticeHead where
  link : FrameLink
  code : Byte
  deriving DecidableEq, Repr

/-- The strips of a stripe as they were read, by member position, and the Waybill of the Bale that is rebuilt (R269). -/
structure StripeRead where
  sources : List (Nat × Option Bytes)
  waybill : Bytes
  deriving DecidableEq, Repr

/-- What is found in a module's root blocks (R294): the block of the pair that holds the newest root record, the page after that
record, and the record, empty when there is none. -/
structure RootFound where
  block : Fin 2
  next  : Nat
  root  : Bytes
  deriving DecidableEq, Repr

/-- How an operation on a die ended, as the die reports it. -/
structure DieOutcome where
  status : Word16
  corr   : Word16
  busyUs : Word32
  data   : Bytes
  deriving DecidableEq, Repr

/-- The kinds of victim that MED chooses (R216 to R220). -/
inductive VictimKind where
  | ordinary | slc | metadata | archive | wear (lane : Fin 96) | refresh (seg : Nat)
  deriving DecidableEq, Repr

/-- One stripe as patrol read it (R277): which Bales failed their check, whether the parity agrees, the members whose
pages were uncorrectable, whether the rebuild of each failed Bale passed, and each member's corrected-bit count. -/
structure PatrolFinding where
  seg           : Nat
  stripe        : Nat
  failed        : List Nat
  rebuilt       : List Nat
  parityAgrees  : Bool
  badMembers    : List Nat
  corr          : List Nat     -- by position, the highest corrected-bit count of the member's pages
  deriving DecidableEq, Repr

/-- A job checkpoint record of R273. -/
structure JobCkpt where
  kind     : Byte
  phase    : Byte
  epoch    : Word16
  sequence : Nat
  leader   : Bool
  slot     : Byte
  layoutFrom : Word16
  layoutTo : Word16
  die      : Word16
  lanes    : List Nat
  cursor   : Nat
  done     : Nat
  granules : Nat
  seconds  : Nat
  deriving DecidableEq, Repr

/-! ### Operands of the links between chips -/

/-- The header of a peer message (R332, R333): the sender's epoch and whether CRC and CMAC tag check. -/
structure PeerHdr where
  epoch   : Word16
  tagged  : Bool
  tagGood : Bool
  deriving DecidableEq, Repr

/-- A replication message header, with whether its CRC checks. -/
structure ReplHdr where
  version : Byte
  epoch   : Word16
  session : Word64
  snapSeq : Word32
  batch   : Word32
  count   : Word16
  last    : Bool
  crcGood : Bool
  srcAddr : Nat
  deriving DecidableEq, Repr

/-- A chunk record of an OFFER (R323). -/
structure ChunkRec where
  fp      : Bytes
  origLen : Nat
  serial  : Bytes
  deriving DecidableEq, Repr

/-- A block record of an OFFER (R323). -/
structure BlockRec where
  lba  : Nat
  idxA : Nat
  offA : Nat
  idxB : Nat
  zero : Bool
  deriving DecidableEq, Repr

/-- A Waybill as it travels in a BALES message or stands on media, 128 bytes, with the stored granules. -/
structure BaleItem where
  index   : Nat
  waybill : Bytes
  stored  : Bytes
  deriving DecidableEq, Repr

/-- A RoCEv2 packet as it arrives (R346, R348, R349). -/
structure Packet where
  port      : Fin 4
  qpn       : Nat
  psn       : Nat
  supported : Bool
  tver      : Bool
  srcTenant : Nat
  dstTenant : Nat
  epoch     : Word16
  targetEpoch : Word16
  ts        : Word32
  bytes     : Bytes
  lastOfMsg : Bool
  deriving DecidableEq, Repr

/-- A CONNECT, ACCEPT or REJECT datagram (R354). -/
structure ConnMsg where
  purpose : Byte
  epoch   : Word16
  qpn     : Nat
  psn     : Nat
  mtu     : Nat
  tenant  : Nat
  session : Word64
  arrayId : Bytes
  serial  : Word64
  srcAddr : Nat
  port    : Fin 4
  tagGood : Bool
  deriving DecidableEq, Repr

/-- An announce frame (R359), with when it arrived after the first of its round, in microseconds. -/
structure Announce where
  port     : Fin 4
  sendPort : Fin 4
  version  : Byte
  fedId    : Bytes
  address  : BitVec 6
  role     : Role
  service  : Service
  epoch    : Word16
  round    : Word32
  serial   : Word64
  tagGood  : Bool
  lateUs   : Nat
  deriving DecidableEq, Repr

/-- A rule change of R353. -/
inductive RdmaRule where
  | invalidateRegion (region : Nat)
  | permissions (region : Nat) (read write atomic : Bool)
  | deleteDomain (pd : Nat)
  | enterNormal
  deriving DecidableEq, Repr

/-- A chain frame's header as it arrives on a port (R367). -/
structure ChainHdr where
  port   : Fin 2
  hops   : Nat
  src    : Byte
  dst    : Byte
  epoch  : Word16
  origin : Word64
  deriving DecidableEq, Repr

/-- A Dweuno frame (R411): its fields, its tag bytes when KEYED, and whether MAGIC, LEN and CRC pass. -/
structure DwFrame where
  type    : Byte
  flags   : Byte
  seq     : Word16
  payload : Bytes
  tag     : Bytes
  good    : Bool
  deriving DecidableEq, Repr

/-- What a federated tenant message asks (R362). -/
inductive TenantMsg where
  | store (tenant g c : Nat)
  | delete (tenant : Nat)
  deriving DecidableEq, Repr

/-- What a SYNC carries (R336): a slot fill, a slot erase, a tenant context or its deletion. -/
inductive SyncItem where
  | slotFill (slot : BitVec 13) (type : BitVec 3) (owner : Nat) (exportable : Bool) (material : Bytes)
  | slotErase (slot : BitVec 13)
  | tenantSet (tenant g c domain : Nat) (relay shared : Bool)
  | tenantDelete (tenant : Nat)
  deriving DecidableEq, Repr

/-- A write of the watch domain's own registers other than RESTORE (R28, R56, R193): the failed-start count, and the
tamper latch. -/
inductive WchWrite where
  | failedStarts (n : Nat)
  | clearTamper
  | clearWrLost
  deriving DecidableEq, Repr

/-- The operations of the vault engine (R175). -/
inductive VaultOp where
  | wrap | unwrap | cmac
  deriving DecidableEq, Repr

/-- A vault request (R176): class, operation, slot, how many blocks it takes, and the queue and CID of the key command that
raised it, if one did. -/
structure VaultReq where
  urgent : Bool
  op     : VaultOp
  slot   : BitVec 13
  blocks : Nat
  key    : Option (QKey × Word16) := none
  deriving DecidableEq, Repr

/-- An event record as a block offers it to EVR (R394, R401): source block, severity, code, payload, and the FAB order
of its arrival among the records of the same cycle. -/
structure OfferedEvent where
  blk     : Blk
  sev     : Sev
  code    : Word16
  payload : Bytes
  deriving DecidableEq, Repr

/-- The commands of the KL9640. -/
inductive Instr where
  -- Registers
  | registerWrite (w : RegWrite)
  | outsideSubsetAccess (port : Fin 2) (offset : BitVec 25) (width : Nat) (write : Bool)
  | sramErrRead (r : RegRead)
  | portLogRead (n : Fin 2) (r : RegRead)
  | decErrRead (r : RegRead)
  | decCrcRead (r : RegRead)
  | sealErrRead (r : RegRead)
  | svcStatusRead (r : RegRead)
  | evrLowWordRead (r : RegRead)
  | dgResultRead (n : Fin 12) (r : RegRead)
  -- Shared cache
  | cacheWrite (slice : Fin 16) (line : Nat) (off : Fin 128) (data : Bytes)
  | lineWaitExpiry (slice : Fin 16) (line : Nat)
  | cacheRead (slice : Fin 16) (stream : Nat) (t : CacheTarget)
  | lineFill (slice : Fin 16) (line : Nat) (parityError : Bool) (displaced : List Nat)
  -- Resets and start-up
  | powerOnReset (vwatchHeld : Bool) (sysResetHigh : Bool)
  | sysResetAssert (lowNs : Nat)
  | testModeAssert
  | chipCommandReset
  | startUpWatchdogExpiry
  | sysResetRelease (headId : Bool) (profileSel : BitVec 2)
  | norRstRelease
  | pllLock
  | bootRomStart
  | listenWindowClose
  | bootHeaderRead
  | norOctalSwitch
  | profileRead
  | pcieDetectExit
  | dramInit (slots : List Spd) (temps : List Int)
  | dramCheckDone (match_ : Bool)
  | firmwareReadDone
  | signatureVerifyDone
  | coreRelease
  | firmwareReady
  | recoveryDone
  -- Configuration NOR and watch domain
  | norReadRequest (addr len : Nat)
  | nvcMinRunExpiry
  | nvcTsusExpiry
  | nvcSuspendLimitExpiry
  | norProgramRequest (addr : Nat) (data : Bytes)
  | norEraseRequest (sector : Nat)
  | norOperationDone
  | wchRegisterWrite (w : WchWrite)
  | wchRestoreWrite (upper : Word32)
  | wchWriteTaken
  | opSecondsTick
  -- PCIe ports
  | pcieReceiverDetect (port : Fin 2) (partnerRate : Fin 4) (width : Fin 6) (flit : Bool)
  | perstAssert (port : Fin 2) (lowNs : Nat)
  | perstRelease (port : Fin 2)
  | hotReset (port : Fin 2)
  | pcieLinkDown (port : Fin 2)
  | pf0Flr (port : Fin 2)
  | vfFlr (f : FnId)
  | resetCleanupDone (port : Fin 2)
  | poisonedTlp (port : Fin 2) (k : PoisonKind)
  | tlpReceiveError (port : Fin 2) (cause : Fin 6)
  | pcieCompletionTimeout (port : Fin 2)
  | portRelease (port : Fin 2)
  | msixUnmask (f : FnId) (vec : BitVec 11)
  | d3hotEntry (f : FnId)
  | d0Return (f : FnId)
  -- Queues
  | adminQueueEnable (f : FnId) (cfg : Word32)
  | adminQueueDisable (f : FnId) (cfg : Word32)
  | adminQueueRestart (f : FnId) (cfg : Word32) (entries : Bytes)
  | sqTailDoorbell (q : QKey) (value : Word32)
  | cqHeadDoorbell (q : QKey) (value : Word32)
  | cqInterruptTimer (q : QKey)
  | createQp (c : HostCmd)
  | deleteQp (c : HostCmd)
  | deleteQpSettled (q : QKey)
  | restartQp (c : HostCmd)
  | identify (c : HostCmd)
  | getLog (c : HostCmd)
  | setPower (c : HostCmd)
  | powerStateReached
  | setPace (c : HostCmd)
  | paceInForce
  | selectProfile (c : HostCmd)
  | chipReset (c : HostCmd)
  | createTenant (c : HostCmd)
  | deleteTenant (c : HostCmd)
  | assignFunction (c : HostCmd)
  | createNamespace (c : HostCmd)
  | deleteNamespace (c : HostCmd)
  | deleteNamespaceDone (nsid : BitVec 14)
  | read (c : HostCmd)
  | write (c : HostCmd)
  | deallocate (c : HostCmd)
  | stateQuery (c : HostCmd)
  | stateQueryWaitEnd (cmd : Nat) (timedOut : Bool)
  | creditGrant
  | creditWaitTimeout (cmd : Nat)
  | writeDataArrived (cmd : Nat) (block : Nat) (data : Bytes)
  | mapPageReadDone (nsid : BitVec 14) (page : Nat)
  -- Flush, chunking and de-duplication
  | flushIdleExpiry (nsid : BitVec 14) (lba : Nat)
  | flushAgeExpiry (nsid : BitVec 14) (lba : Nat)
  | flushRunChosen
  | chunkCut (run : Nat)
  | fingerprintDone (chunk : Nat)
  | lookupSearchDone (chunk : Nat)
  | containerPullDone (container : Nat) (entries : List (Bytes × Nat × Nat)) (domain : Nat)
  | containerIdleExpiry (nsid : BitVec 14)
  | verifyCompareDone (chunk : Nat) (stored : Option Bytes)
  | engineSelftestDue (k : EngClass) (n : Fin 32)
  | engineSelftestDone (k : EngClass) (n : Fin 32) (pass : Bool)
  | engineRetestExpiry (k : EngClass) (n : Fin 32)
  | baleEncodeDone (chunk : Nat)
  | xtsSealDone (chunk : Nat)
  | sealCheckDone (job : Nat) (stored : Bytes) (waybill : Bytes)
  | baleDecodeDone (job : Nat)
  | decodeOutputFragment (engine : Fin 32) (len : Nat)
  | decodeInputFragment (engine : Fin 32) (data : Bytes)
  | decodeSuspendTimeout (engine : Fin 32)
  -- Keys and the vault
  | keyImport (c : HostCmd)
  | keyGenerate (c : HostCmd)
  | keyExport (c : HostCmd)
  | keyErase (c : HostCmd)
  | keyInfo (c : HostCmd)
  | keyAttach (c : HostCmd)
  | keyCmac (c : HostCmd)
  | vaultRequest (r : VaultReq)
  | vaultRequestDone
  | vaultSelftestDue
  | vaultSelftestDone (pass : Bool)
  | vaultRetestExpiry
  | dgStart (ctl : Word32)
  | dgAbort (ctl : Word32)
  | dgCmp (ctl : Word32)
  | dgDataWrite (w : Word32)
  | dgLastWrite (w : Word32)
  | digestDone
  | digestCompareDone
  | tamperPin (lowUs : Nat)
  | voltAlarm (outUs : Nat)
  | clockAlarm (offUs : Nat)
  | tempAlarm (celsius : Int)
  | vwatchLost
  | trngStartTestsDone (pass : Bool)
  | drbgInstantiated
  | healthTestFail
  | trngRestartExpiry
  | drbgReseedTimer
  | drbgReseedDone
  | drbgGenerate (bytes : Nat)
  | rowhammerReseed
  -- Maps, placement and reclamation
  | mapUpdatePublish (run : Nat)
  | baleAppend (chunk : Nat)
  | stripeIdleExpiry (stream : StreamId)
  | stripeProgrammed (seg stripe : Nat) (failed : List Nat)
  | slcFractionEval (lane : Fin 96) (valid capacity : Nat)
  | blockVerifyDone (seg member : Nat) (maxCorr : Nat) (uncorrectable : List Nat)
  | reclaimVictimChosen (k : VictimKind)
  | relocationDone (chunk : Nat)
  | segmentDrained (seg : Nat)
  | segmentAllocate (stream : StreamId)
  | segmentScanDue (seg : Nat) (corr : List Nat) (uncorrectable : Bool)
  | nandSuspend (lane : Fin 96) (die : BitVec 9)
  | nandMinRunExpiry (lane : Fin 96) (die : BitVec 9)
  | nandSuspendExpiry (lane : Fin 96) (die : BitVec 9)
  | holdupBudgetEval
  | pwrFailAssert (lowNs : Nat)
  | quiesceDone
  | flushClassDone
  | flushComplete
  | pwrFailDeassert
  | flushReplay
  -- Farium lanes
  | laneSignalDetect (lane : Fin 96)
  | ts1Received (lane : Fin 96) (set : Bytes)
  | ts2Received (lane : Fin 96) (set : Bytes)
  | laneTrainTimeout (lane : Fin 96)
  | laneRetryExpiry (lane : Fin 96)
  | syncReceived (lane : Fin 96)
  | skipReceived (lane : Fin 96)
  | skipInterval (lane : Fin 96)
  | quietReceived (lane : Fin 96)
  | mediaClockLaneLoss (lane : Fin 96)
  | fariumLinkFrame (lane : Fin 96) (f : LinkFrame)
  | fariumLinkTimer (lane : Fin 96)
  | fariumReplayTimeout (lane : Fin 96)
  | fariumRxSilence (lane : Fin 96)
  | fariumRead (f : FarFrame)
  | fariumProgram (f : FarFrame)
  | partialProgram (f : FarFrame)
  | fariumErase (f : FarFrame)
  | fariumSuspend (f : FarFrame)
  | fariumResume (f : FarFrame)
  | fariumStatus (f : FarFrame)
  | dieReset (f : FarFrame)
  | paramPush (f : FarFrame)
  | getInfo (f : FarFrame)
  | claim (f : FarFrame) (rival : Option FarFrame)
  | dieOperationDone (lane : Fin 96) (die : BitVec 9) (o : DieOutcome)
  | fariumCompletion (c : FarCompletion)
  | fariumNotice (lane : Fin 96) (h : NoticeHead) (aux : Word32)
  | fariumCommandTimeout (lane : Fin 96) (tag : BitVec 10) (st : DieStatus)
  | dieStatusPoll (lane : Fin 96) (die : BitVec 9) (st : DieStatus)
  | claimResendTimer
  | takeoverClaimDeadline
  -- Parity, jobs and patrol
  | moduleLostExpiry (lane : Fin 96)
  | reconstructReadDone (job : Nat) (sources : List (Nat × Option Bytes))
  | baleRebuildDone (job : Nat) (r : StripeRead)
  | jobSegmentStep
  | jobCheckpointTimer
  | pair3PauseDeadline
  | buildBesideStart
  | buildBesideDailyNotice
  | patrolStep (f : PatrolFinding)
  | patrolDailyNotice
  -- On-media format
  | superblockRead (lane : Fin 96) (page : Bytes) (r : RootFound)
  | rootRecorded (lanes : List Nat)
  | checkpointDue
  | checkpointComplete
  | archiveObjectWrite
  | archiveGranuleWrite
  | archiveGranuleDone (good : Bool)
  -- Snapshots and replication
  | cgSet (c : HostCmd)
  | snapCreate (c : HostCmd)
  | snapCut (cmd : Nat)
  | snapComplete (cmd : Nat)
  | snapDelete (c : HostCmd)
  | snapDeleteWalkEnd (nsid : BitVec 14) (seq : Nat)
  | snapList (c : HostCmd)
  | snapExpose (c : HostCmd)
  | replPair (c : HostCmd) (remoteIds : List Word64) (remoteSealed : Bool)
  | replSend (c : HostCmd)
  | replStop (c : HostCmd)
  | replStatus (c : HostCmd)
  | ingest (c : HostCmd)
  | offer (h : ReplHdr) (firstLba nextLba : Nat) (chunks : List ChunkRec) (blocks : List BlockRec)
  | need (h : ReplHdr) (bits : List Nat)
  | bales (h : ReplHdr) (items : List BaleItem)
  | commit (h : ReplHdr)
  | end_ (h : ReplHdr) (label : Bytes) (seconds : Word32)
  | endAck (h : ReplHdr) (targetSeq : Word32)
  | resume (h : ReplHdr)
  | resumeAt (h : ReplHdr) (nextBatch : Nat) (nextLba : Nat)
  | replRefuse (h : ReplHdr) (reason : Word16)
  | replSessionTimeout (session : Word64)
  | replRetryTimer (session : Word64)
  -- Peer link and fail-over
  | peerLaneLoss (lanesLeft : Nat)
  | peerReplayTimeout
  | beatTimer
  | beat (h : PeerHdr) (role : Role) (service : Service) (fwVersion : Word32) (occupancy seconds : Nat)
  | hello (h : PeerHdr) (serial : Word64) (headId : Bool) (fwVersion : Word32) (stagingBlocks : Nat)
      (pairKeyId : Word64) (peerRole : Role)
  | helloTimeout (peerPresent peerLost peerSole : Bool)
  | mirror (h : PeerHdr) (nsid : BitVec 14) (lba : Nat) (gen : Word16) (tenant : Nat) (tag : Option Word64)
      (block nblk : Nat) (data : Bytes)
  | mirrorAck (h : PeerHdr) (nsid : BitVec 14) (lba : Nat) (gen : Word16)
  | release (h : PeerHdr) (nsid : BitVec 14) (lba : Nat) (gen : Word16)
  | settle (h : PeerHdr) (tenant : Nat) (tag : Word64) (nsid : BitVec 14) (outcome : Fin 5) (count : Nat)
  | relay (h : PeerHdr) (c : HostCmd) (tenant : Option Nat) (result : Option (Word16 × Nat × Nat × Bytes))
  | granule (h : PeerHdr) (lane : Fin 96) (die : BitVec 9) (block page gran count : Nat)
  | ref (h : PeerHdr) (chunk : Nat) (delta : Int)
  | jobcopy (h : PeerHdr) (j : JobCkpt) (isAck : Bool)
  | sync (h : PeerHdr) (item : SyncItem)
  | pairFault (h : PeerHdr) (pair : Fin 4)
  | handover (h : PeerHdr)
  | powerLoss (h : PeerHdr) (tNeed : Nat)
  | flushDone (h : PeerHdr)
  | powerLossClaimDeadline
  | returnReq (h : PeerHdr) (fwVersion : Word32)
  | returnReqTimer
  | returnGrant (h : PeerHdr)
  | moduleRelease (h : PeerHdr) (lane : Fin 96)
  | handbackDone (h : PeerHdr)
  | stale (h : PeerHdr) (peerEpoch : Word16)
  | heartbeatLoss
  | confirmDeadline (chainAnswer : Option Bool)
  | splitYield
  | splitLossDeadline
  | peerAliveInFall (lowNs : Nat)
  | lockstepMismatch (pair : Fin 4)
  | pairRestart (pair : Fin 4)
  | pairReturnDeadline (pair : Fin 4)
  | wdogWrite (value : Word32)
  | wdogLapse
  | roleSwapDue
  -- RDMA and federation
  | roceSendReceived (p : Packet)
  | roceAckReceived (qpn psn : Nat) (sampleNs : Nat) (tsEcho : Word32)
  | rnrNakReceived (qpn : Nat)
  | ackTimeout (qpn : Nat)
  | roceReadWriteRequest (p : Packet)
  | atomicRequest (p : Packet) (region addr : Nat) (compareSwap : Bool) (operand compare : Word64)
  | rdmaRuleChange (r : RdmaRule)
  | ruleChangeTimeout
  | rateIdleReset (qpn : Nat)
  | connect (m : ConnMsg)
  | accept (m : ConnMsg)
  | reject (m : ConnMsg)
  | caravanRelease (caravan qpn : Nat) (gate : List Nat) (error : Bool)
  | caravanElementDone (caravan element : Nat) (failed : Option Nat)
  | caravanCancel (caravan : Nat)
  | announceTimer
  | announceReceived (a : Announce)
  | pathExpiry (addr : BitVec 6) (port : Fin 4)
  | relayReq (srcAddr : Nat) (epoch targetEpoch : Word16) (relayId : Nat) (tenant : Nat) (c : HostCmd) (data : Bytes)
  | relayRsp (epoch : Word16) (relayId : Nat) (status : Word16) (partial_ : Bool) (count result : Word32) (data : Bytes)
  | relayRefuse (relayId : Nat) (reason : Word16) (epoch : Word16) (serving : BitVec 6)
  | relayTimeout (relayId : Nat)
  -- Management chain
  | chainLinkSilent (port : Fin 2)
  | chainBreak (port : Fin 2)
  | chainBreakTimer (port : Fin 2)
  | chainPortQualify (port : Fin 2)
  | chainLinkOk (port : Fin 2)
  | elect (h : ChainHdr) (gen : Word16) (headId : Bool)
  | electTimer
  | masterTimeout
  | enum (h : ChainHdr) (next : Byte) (lastHead : Bool) (gen : Word16) (fedId : Bytes) (lastSerial : Word64)
  | enumTimeout
  | table (h : ChainHdr) (gen : Word16) (group : Fin 8) (present : Byte) (fedId : Bytes) (serials : List Word64)
  | tableRebroadcastTimer
  | join (h : ChainHdr) (headId : Bool) (peerSerial : Word64)
  | joinTimer
  | joinAck (h : ChainHdr) (address : Byte) (serial : Word64)
  | duplicate (h : ChainHdr) (address : Byte) (serialA serialB : Word64)
  | reenumDelayExpiry
  | query (h : ChainHdr) (reply : Bytes) (target : Word64)
  | time (h : ChainHdr) (fedTime : Word64) (gen : Word16) (masterHead : Bool) (sameTable : Bool)
  | timeTimer (fedTime : Word64)
  | fedTimeInfoTimer
  | epoch (h : ChainHdr) (address : Byte) (role : Role) (service : Service) (e : Word16)
  | epochTimer
  -- DRAM, events, service
  | dramTempReading (temps : List (Option Int))
  | dramRequest (r : DramReq)
  | refreshDue (channel : Fin 12) (rank : Fin 4) (readsWaiting : Bool)
  | scrubStep (line : Nat) (ecc : Fin 3)
  | eventOffered (e : OfferedEvent)
  | secondBoundary
  | sequenceBaseSet
  | norRecordProgramDone
  | evrReadRequest (n : Fin 2) (upper : Word32)
  | dweunoHello (f : DwFrame)
  | svcReset (f : DwFrame)
  | profileSelect (f : DwFrame)
  | profileWrite (f : DwFrame)
  | stageBegin (f : DwFrame)
  | stageData (f : DwFrame)
  | stageEnd (f : DwFrame)
  | activate (f : DwFrame)
  | eventRead (f : DwFrame) (media : List Bytes)
  | keyset (f : DwFrame)
  | tamperClear (f : DwFrame)
  | reshape (f : DwFrame)
  | reEnumerate (f : DwFrame)
  | testEntry (f : DwFrame)
  | debugAccess (f : DwFrame)
  | dramSweep (f : DwFrame) (maps : List Bytes)
  | fuse (f : DwFrame)
  | junctionSensorRead (temps : List Int)
  | thermtripDeadline
  | supplyFall
  | ethernetLinkChange (port : Fin 4) (up : Bool)
  | chainBadFrame (port : Fin 2) (nowUs : Nat)
  | dweunoUnlistedFrame (f : DwFrame)
  | svcRxLockChange (locked : Bool)
  | peerStagingLimit (h : PeerHdr) (sLim : Option Nat)
  | federatedTenantMessage (srcAddr : Nat) (epoch : Word16) (tagGood : Bool) (m : TenantMsg)
  | fetchUrCaCompletion (q : QKey) (isList : Bool) (head : Bytes)
  deriving DecidableEq, Repr

end Sys2Proof
end

