-- ==== Sys2Proof/Machine/State.lean ====
section
/-! DEFINITION. The state of the KL9640, as plain data: one structure for each block of R13, the watch domain, the
configuration NOR and the DRAM behind the chip, what the last command drove outward, and the queue of waiting commands.
Every field's default value is its value at reset. -/

namespace Sys2Proof.Machine

/-! ### Outputs -/

/-- A completion entry (16 bytes in host memory; the CQ index and PHASE are set when it is written). -/
structure Cqe where
  cid     : Word16
  status  : Word16
  partial_ : Bool
  count   : Nat
  result  : Word32
  deriving DecidableEq, Repr

/-- What answers a configuration request: it took effect, the value read, Request Retry Status (R69), or Unsupported Request for a
function that is not implemented (R75). -/
inductive CfgAnswer where
  | done
  | data (v : Nat)
  | retry
  | unsupported
  deriving DecidableEq, Repr

/-- What a command makes the chip drive outward, in order. -/
inductive Output where
  /-- Data returned to a register read: requester and value. -/
  | readData (req : Requester) (value : Word64)
  /-- A completion entry written to the CQ of a queue pair: index, PHASE, SQ_HEAD. -/
  | completion (q : QKey) (index : Nat) (phase : Bool) (sqHead : Nat) (e : Cqe)
  /-- An MSI-X message of a function's vector. -/
  | msix (f : FnId) (vec : Nat)
  /-- A write of data into host memory at a buffer of a command. -/
  | hostWrite (port : Fin 2) (addr : Word64) (data : Bytes)
  /-- Data sent toward the host with the poison mark (R73). -/
  | hostPoison (port : Fin 2) (addr : Word64) (data : Bytes)
  /-- A block is read again from the peer's mirror area (R73): namespace, block, generation. -/
  | mirrorRead (nsid lba : Nat) (gen : Word16)
  /-- A read request for the data of an admitted WRITE, or for command entries. -/
  | hostRead (port : Fin 2) (addr : Word64) (len : Nat)
  /-- The answer to a configuration request of a function. -/
  | config (f : FnId) (a : CfgAnswer)
  /-- An error message of AER: port, fatal, and the cause bit of R75 (8 for an advisory Poisoned TLP, R72). -/
  | aer (port : Fin 2) (fatal : Bool) (cause : Nat)
  /-- Data delivered to a requester of the shared cache, or to a DRAM requester with its poison mark. -/
  | cacheData (stream : Nat) (line : Nat) (data : Bytes)
  | dramData (channel : Fin 12) (line : Nat) (poisoned : Bool) (data : Bytes)
  /-- A DRAM command: a write of a line, a refresh of a rank, a DRFM of a row, a band's delay set loaded. -/
  | dramWrite (line : Nat) (data : Bytes)
  | dramRefresh (channel : Fin 12) (rank : Nat)
  | dramDrfm (channel : Fin 12) (bank row : Nat)
  | dramBand (channel : Nat) (band : Nat)
  /-- Data read from the NOR for a requester, and the commands to the NOR device. -/
  | norData (addr : Nat) (data : Bytes)
  | norSuspend
  | norResume
  | norIssue (erase : Bool) (addr : Nat)
  /-- A frame, or an ordered set, on a Farium lane toward the bridge: TYPE and claim, tag, die, data. -/
  | farium (lane : Nat) (type : Byte) (claim : Word32) (tag : Nat) (die : Nat) (payload : Bytes)
  | fariumLink (lane : Nat) (ack : Word16) (nak : Bool)
  | fariumSet (lane : Nat) (bytes : Bytes)
  /-- A LINK frame of a bridge on one of its ports: freed command and data credits (R240). -/
  | bridgeLink (lane : Nat) (port : Fin 2) (cmdCredits dataCredits : Nat)
  /-- A completion or notice that a bridge sends on one of its module's ports. -/
  | bridge (lane : Nat) (port : Fin 2) (op : Byte) (tag : Nat) (status : Word16) (claim : Word32) (aux corr busyUs : Nat)
    (data : Bytes)
  | bridgeNotice (lane : Nat) (port : Fin 2) (code : Byte) (aux : Nat)
  /-- A message on the peer link: TYPE, role epoch, numbers and data of its body. -/
  | peerMsg (type : Byte) (epoch : Word16) (args : List Nat) (data : Bytes)
  /-- A frame on an output of the chain: port, TYPE, HOPS, ORIGIN, numbers of its payload. -/
  | chain (port : Fin 2) (type : Byte) (hops : Nat) (origin : Word64) (args : List Nat)
  /-- A packet, datagram or frame on an Ethernet port: kind, destination address or QP, numbers, data. Kinds: 0
  retransmission, 1 ACKNOWLEDGE (PSN, TS_ECHO), 2 NAK (PSN, 0 sequence error, 1 Invalid Request, 2 Remote Access Error),
  3 RNR NAK (PSN, timer code), 4 tenant message, 5 announce, 6 CONNECT, ACCEPT or REJECT, 7 ATOMIC ACKNOWLEDGE, 8 SEND,
  9 answer to a tenant message. -/
  | ether (port : Nat) (kind : Nat) (dst : Nat) (args : List Nat) (data : Bytes)
  /-- A replication message: TYPE, session, numbers, data. -/
  | repl (type : Byte) (session : Word64) (args : List Nat) (data : Bytes)
  /-- A Dweuno response: TYPE, SEQ, STATUS, payload. -/
  | dweuno (type : Byte) (seq : Word16) (status : Word16) (payload : Bytes)
  /-- A digest-unit or vault result handed to firmware; random bytes handed to a requester, or 0x7002 (none). -/
  | vaultDone (r : VaultReq)
  | random (data : Option Bytes)
  /-- The report of a Caravan to its owner: Caravan, failing index and cause, or none for its end. -/
  | caravan (id : Nat) (failed : Option (Nat × Nat))
  /-- The answer to a cancel: the state that it finds (0 IDLE, 2 RUNNING, R357). -/
  | caravanState (id state : Nat)
  /-- A rule change reports completion (R353). -/
  | ruleDone (r : RdmaRule)
  | refused
  deriving DecidableEq, Repr

/-! ### Global block, clocks, cache, NOR controller, watch domain -/

/-- What the last chip-wide reset was (R37). -/
inductive ResetCause where
  | powerOn | pin | chipCmd | lockstep0 | startWdog
  deriving DecidableEq, Repr

/-- The boot header in use (R46). -/
structure BootHeader where
  bankB    : Bool
  freq     : Nat
  dummy    : Nat
  supply   : Nat
  tsus     : Nat
  sequence : Nat
  deriving DecidableEq, Repr

/-- One setting record of a profile (R47). -/
structure ProfRec where
  tag     : Word16
  version : Byte
  value   : Bytes
  deriving DecidableEq, Repr

/-- GLB: identity, fuses, reset and start-up, service state, profile, straps and status pins. -/
structure Glb where
  powered      : Bool := true
  resetHeld    : Bool := true
  testMode     : Bool := false
  resetPending : Bool := false
  steppingB0   : Bool := false
  unitSerial   : Word64 := 0
  debugOff     : Bool := false
  revoked      : BitVec 4 := 0
  cause        : ResetCause := .powerOn
  service      : Service := .startUp
  romCause     : Byte := 0
  step         : Nat := 0
  headId       : Bool := false
  pinSel       : BitVec 2 := 0
  ovrValid     : Bool := false
  ovrSel       : BitVec 2 := 0
  activeSel    : BitVec 2 := 0
  failedRead   : Nat := 0
  defaulted    : Nat := 0
  ignored      : Nat := 0
  bankB        : Bool := false
  headerSecond : Bool := false
  unfinishedA  : Bool := false     -- a staging of bank A began and none has ended OK since (R418)
  unfinishedB  : Bool := false     -- the same of bank B
  header       : Option BootHeader := none
  profile      : List ProfRec := []
  deriving DecidableEq, Repr

/-- The rest of the start-up and power state: the listening window, the pins, the flush hold, THERMTRIP_L and STAT. -/
structure Pins where
  listening    : Bool := false
  svcRequest   : Bool := false
  pllLocked    : Bool := false
  dramReady    : Bool := false
  fwRead       : Bool := false
  secondBank   : Bool := false
  verified     : Bool := false
  coresOut     : Bool := false
  holdup       : Option (Nat × Nat × Nat) := none
  watchdogS    : Nat := 60
  pwrFail      : Bool := false
  startHold    : Bool := false
  flushing     : Bool := false
  flushHold    : Bool := false
  thermal      : Bool := false
  thermTrip    : Bool := false
  stat         : BitVec 4 := 0
  norRstLow    : Bool := true
  sysResetLow  : Bool := true
  chainDriven  : Bool := false
  lanesIdle    : Bool := true
  hiZ          : Bool := false
  laneMask     : List Nat := List.range 96
  lane32       : Bool := true
  deriving DecidableEq, Repr

/-- CLK: pace, power state, throttle, sensors, rails. -/
structure Clk where
  pace       : Pace := .even
  changing   : Bool := false
  newPace    : Option (Pace × Nat) := none
  pstate     : Fin 4 := 0
  newPower   : Option (Fin 4 × Nat) := none
  wakeAfter  : Bool := false
  throttled  : Bool := false
  throttleC  : Int := 105
  shutdownC  : Int := 115
  tjNow      : Int := 0
  tjSensor   : Nat := 0
  tjPeak     : Int := 0
  tjSeen     : Bool := false
  rails      : BitVec 10 := 0
  deriving DecidableEq, Repr

/-- A stride tracker of a cache slice (R21). -/
structure Tracker where
  stream : Nat
  last   : Nat
  stride : Int
  run    : Nat
  deriving DecidableEq, Repr

/-- One slice of the shared cache (R20 to R23). -/
structure Slice where
  lines    : List Nat := []
  merging  : List (Nat × List (Nat × Byte)) := []
  misses   : List Nat := []
  waiting  : List (Nat × Nat) := []
  queued   : List (Nat × Nat) := []
  trackers : List Tracker := []
  refetch  : Tab Nat := []
  retired  : Nat := 0
  deriving DecidableEq, Repr

/-- The shared cache and its registers (R20 to R25). `scratch` holds the words of the locked scratchpad that have been read. -/
structure Cache where
  slices     : Tab Slice := []
  scratch    : Tab Bytes := []
  lockSteps  : Nat := 0
  parRefetch : Nat := 0
  scrCe      : Nat := 0
  scrUe      : Nat := 0
  deriving DecidableEq, Repr

/-- A program or erase of the NOR; `drain` marks a program of recorder slots (R403). -/
structure NorOp where
  erase : Bool
  addr  : Nat
  data  : Bytes
  drain : Bool := false
  deriving DecidableEq, Repr

/-- NVC (R35, R40 to R44). -/
structure Nvc where
  supBand    : Bool := false
  dummy      : Nat := 8
  freqMhz    : Nat := 25
  octal      : Bool := false
  maxSusp    : Byte := 100
  minRun     : Byte := 50
  tsus       : Byte := 40
  wrRefused  : Bool := false
  sectorBusy : Bool := false
  running    : Option NorOp := none
  ranMin     : Bool := false
  suspended  : Option NorOp := none
  readable   : Bool := true
  limitHit   : Bool := false
  reads      : List (Nat × Nat) := []
  work       : List NorOp := []
  halted     : Bool := false
  deriving DecidableEq, Repr

/-- A write that is crossing into the watch domain (R28, R399). -/
inductive WchPending where
  | restore (cycles seconds : Word32)
  | other (w : WchWrite)
  deriving DecidableEq, Repr

/-- The watch domain and its FAB-side crossing (R28, R56, R193, R397 to R399). -/
structure Wch where
  opSeconds    : Nat := 0
  powerCycles  : Nat := 1
  valid        : Bool := true
  pending      : Option WchPending := none
  wrLost       : Bool := false
  restoreLow   : Word32 := 0
  failedStarts : Nat := 0
  swk          : Option Bytes := none
  latched      : Bool := false
  causes       : BitVec 5 := 0
  deriving DecidableEq, Repr

/-! ### Host endpoint -/

/-- One PCIe port (R61 to R80). -/
structure Port where
  width      : Fin 6 := 0
  rate       : Fin 4 := 0
  flit       : Bool := false
  dlUp       : Bool := false
  frozen     : Bool := false
  cleanup    : Bool := false
  numVf      : Nat := 0
  totalVfs   : Nat := 0
  rateCap    : Fin 4 := 3
  first      : Nat := 0
  cause      : BitVec 6 := 0
  droppedDb  : Nat := 0
  subsetViol : Nat := 0
  violWrite  : Bool := false
  violOffset : BitVec 25 := 0
  perstLow   : Bool := false
  mayTrain   : Bool := false
  inDetect   : Bool := true
  cleanFns   : List Nat := []
  aer        : BitVec 16 := 0
  aerMask    : BitVec 16 := 0
  aerFatal   : BitVec 16 := 0x3C
  aerCorr    : BitVec 16 := 0
  corrMask   : BitVec 16 := 0
  aerHeader  : Bytes := []
  deriving DecidableEq, Repr

/-- The host-written controls of one function's configuration space (R64): the base addresses of its three BARs, Max Payload Size
and Max Read Request Size as powers of 2 above 128 bytes, the Completion Timeout value (5 is 16 ms to 55 ms) and its disable,
Relaxed and ID-Based Ordering, ASPM L1, and the two ACS controls. -/
structure FnCfg where
  f       : FnId
  bar0    : Word64 := 0
  bar2    : Word64 := 0
  bar4    : Word64 := 0
  mps     : Nat := 0
  mrrs    : Nat := 2
  cto     : BitVec 4 := 5
  ctoOff  : Bool := false
  relaxed : Bool := true
  ido     : Bool := false
  aspmL1  : Bool := false
  acsSv   : Bool := false
  acsRr   : Bool := false
  deriving DecidableEq, Repr

/-- One MSI-X vector of a function (R78). -/
structure Vector_ where
  f       : FnId
  vec     : Nat
  addr    : Word64
  data    : Word32
  masked  : Bool
  pending : Bool
  deriving DecidableEq, Repr

/-- HEP. -/
structure Hep where
  port0  : Port := {}
  port1  : Port := {}
  msix   : List Vector_ := []
  fnMask : List FnId := []
  d3     : List FnId := []
  cfg    : List FnCfg := []
  deriving DecidableEq, Repr

/-! ### Host queue engine -/

/-- A queue pair (R81 to R89, R110, R111). -/
structure Qp where
  key       : QKey
  id        : Nat
  admin     : Bool
  tenant    : Option Nat
  sqBase    : Word64
  cqBase    : Word64
  sqLog2    : Nat
  cqLog2    : Nat
  vec       : Nat
  agg       : Nat
  timeUs    : Nat
  tail      : Nat
  fetch     : Nat
  cqHead    : Nat
  cqTail    : Nat
  phase     : Bool
  waiting   : List Cqe
  unsig     : Nat
  frozen    : Option Nat
  freezeIdx : Nat
  deleting  : Option Nat
  ordered   : Option Nat
  deriving DecidableEq, Repr

/-- The slot-0 administrative registers of a function (R85). -/
structure AdminRegs where
  f      : FnId
  asq    : Word64 := 0
  asqLow : Word32 := 0
  acq    : Word64 := 0
  acqLow : Word32 := 0
  enable : Bool := false
  mode   : Bool := false
  asqLog2 : BitVec 4 := 0
  acqLog2 : BitVec 4 := 0
  cfgErr : Bool := false
  deriving DecidableEq, Repr

/-- Where a command came from: this head's own queue, the peer over the peer link (R94), or another chip (R363). -/
inductive Origin where
  | host
  | peer
  | fed (src relayId : Nat)
  deriving DecidableEq, Repr

/-- A command that is fetched and held back before admission (R95, R313, R338, R344, R93). -/
structure Waiter where
  c      : HostCmd
  tenant : Option Nat
  origin : Origin
  deriving DecidableEq, Repr

/-- How far an outstanding command has got. -/
inductive CmdStage where
  | waitTag       -- WRITE at the host-tag check, every settlement entry PENDING (R106)
  | waitMap       -- READ, WRITE or DEALLOCATE, for a map page (R205)
  | waitCredit    -- WRITE, for credits (R103)
  | waitSet       -- WRITE or DEALLOCATE, for a way of a staging set (R120)
  | waitGen       -- WRITE or DEALLOCATE, for the generation window (R118)
  | filling       -- WRITE with data arriving (R118)
  | mirroring     -- every block STAGED, awaiting mirror acknowledgements (R31)
  | reading       -- READ with chunks outstanding
  | query (tags : List Word64) (tenant : Option Nat) (release : Bool) (addr : Nat)
  | power
  | pace
  | deleteNs
  | deleteQp (target : QKey)
  | snap (label : Bytes) (group : Option Nat)
  | relayed (dst : Nat)
  deriving DecidableEq, Repr

/-- An outstanding command. -/
structure Cmd where
  id       : Nat
  q        : QKey
  cid      : Word16
  op       : Byte
  tenant   : Option Nat
  nsid     : Nat
  lba      : Nat
  nblk     : Nat
  tag      : Option Word64
  bufs     : List (Nat × Nat)          -- host buffers: address and length
  stage    : CmdStage
  origin   : Origin
  ordered  : Bool
  silent   : Bool                      -- settled under R68: no completion entry is posted
  arrived  : List Nat                  -- blocks whose data has arrived
  gens     : List Word16               -- generation of each block, once slots are taken
  acked    : List Nat                  -- blocks whose mirror acknowledgement has arrived
  status   : Word16                    -- status that a read or a cut-short write will carry
  good     : Nat                       -- blocks before the first failing one
  gathered : List (Nat × Bytes)        -- data of a relayed command, by byte offset
  poisoned : List Nat := []            -- blocks of a read that go to the host with the poison mark (R73)
  deriving DecidableEq, Repr

/-- A tenant context (R83, R102, R127, R362). -/
structure Tenant where
  id      : Nat
  g       : Nat
  c       : Nat
  relay   : Bool
  shared  : Bool
  domain  : Nat
  gHeld   : Nat := 0
  pHeld   : Nat := 0
  n5001   : Nat := 0
  deriving DecidableEq, Repr

/-- A dedup domain (R127, R184, R185). -/
structure Domain where
  id        : Nat
  sealFixed : Bool := false
  seals     : Bool := false
  deriving DecidableEq, Repr

/-- A namespace (R428, R318, R459). -/
structure Ns where
  id       : Nat
  tenant   : Nat
  size     : Nat
  mode     : Word32
  owner    : Bool
  keySlot  : Option Nat := none
  exposed  : Option (Nat × Nat) := none
  target   : Bool := false
  deleting : Option Nat := none
  hold     : Bool := false
  deriving DecidableEq, Repr

/-- One settlement log entry (R105 to R107). Outcome: 0 ABSENT, 1 COMMITTED, 2 NOT COMMITTED, 3 PARTIAL, 4 PENDING. -/
structure Settle where
  tenant  : Nat
  tag     : Word64
  nsid    : Nat
  outcome : Fin 5
  count   : Nat
  pinned  : Bool
  qp      : Nat
  at_     : Nat
  order   : Nat
  ofPeer  : Bool
  deriving DecidableEq, Repr

/-- One record of a function's queue error log (R110). -/
structure QErr where
  f       : FnId
  seq     : Nat
  qpId    : Nat
  idx     : Nat
  cause   : Nat
  sqIdx   : Nat
  seconds : Nat
  cycles  : Nat
  head    : Bytes
  deriving DecidableEq, Repr

/-- HQE. -/
structure Hqe where
  qps       : List Qp := []
  admin     : List AdminRegs := []
  cmds      : List Cmd := []
  behind    : List Waiter := []
  nextCmd   : Nat := 1
  tenants   : List Tenant := []
  domains   : List Domain := []
  nss       : List Ns := []
  fnTenant  : List (FnId × Nat) := []
  errLog    : List QErr := []
  errSeq    : List (FnId × Nat) := []
  settle    : List Settle := []
  order     : Nat := 0
  deriving DecidableEq, Repr

/-! ### Ingest -/

/-- The states of a staging entry that is not FREE (R118). -/
inductive StState where
  | filling | staged | flushing
  deriving DecidableEq, Repr

/-- A staging index entry that is not FREE (R117 to R119). -/
structure StEntry where
  slot     : Nat
  nsid     : Nat
  lba      : Nat
  gen      : Word16
  st       : StState
  mirrored : Bool
  data     : Bytes
  dealloc  : Bool
  cmd      : Nat
  block    : Nat
  tenant   : Option Nat
  tag      : Option Word64
  nblk     : Nat
  order    : Nat
  idle     : Bool       -- STAGED for IDLE_US or longer
  aged     : Bool       -- STAGED for MAX_AGE_MS or longer
  run      : Option Nat
  old      : Option (Bytes × Bool × Word16)   -- content and generation of the STAGED entry it superseded, while its command runs (R72)
  void     : Option Bool := none     -- a FLUSHING entry taken back (R72): does it hold the content it had superseded?
  bad      : Bool := false           -- its DRAM copy is uncorrectable, and so is the peer's (R73, R390)
  deriving DecidableEq, Repr

/-- An entry of the mirror area (R116, R122, R339). -/
structure MirEntry where
  nsid   : Nat
  lba    : Nat
  gen    : Word16
  data   : Bytes
  tenant : Nat
  tag    : Option Word64
  block  : Nat
  nblk   : Nat
  bad    : Bool := false   -- a read of it from DRAM was uncorrectable (R73, R393)
  deriving DecidableEq, Repr

/-- A flush run under way (R123). Its blocks' generations and, for data, its bytes are those of the moment it was chosen. -/
structure Run where
  id         : Nat
  nsid       : Nat
  lba        : Nat
  n          : Nat
  pos        : Nat          -- bytes that the chunker has cut
  dealloc    : Bool
  drop       : Bool         -- its namespace is being deleted (R459): never published
  fromMirror : Bool         -- flushed from the mirror area, in role SOLE (R339)
  gens       : List Word16
  data       : Bytes
  chunker    : Option Nat := none   -- the chunker that cuts it (R125)
  deriving DecidableEq, Repr

/-- Where a chunk of a flush run stands. -/
inductive ChunkStage where
  | cut                       -- handed to a fingerprint engine
  | fingerprinted             -- not a hook: waits for its window to close (R132)
  | searching                 -- container-cache search
  | hookSearch                -- hook-table search
  | pulling (container : Nat) -- waits for a pull
  | again                     -- container-cache search repeated after a pull
  | verifying                 -- verify-on-match (R134)
  | unique                    -- to be encoded
  | encoded                   -- to be padded, encrypted and sealed
  | stored                    -- to be packed
  | placing                   -- in a stripe buffer
  | live                      -- placed, or matched with a stored chunk
  deriving DecidableEq, Repr

/-- A chunk of a flush run on its way to a place. -/
structure Chunk where
  id      : Nat
  run     : Nat
  nsid    : Nat
  off     : Nat
  data    : Bytes
  fp      : Bytes
  stage   : ChunkStage
  window  : Nat
  started : Bool       -- its own hook hit started a pull (DUP_HOOK)
  no      : Nat        -- chunk number once matched or unique, 0 before
  matched : Bool
  bale    : Bytes
  enc     : Bool
  sealed_ : Bool
  serial  : Bytes
  waybill : Bytes
  stored  : Bytes
  source  : Nat := 0   -- while its match is compared, the segment in which the matched Bale was looked up (R214)
  deriving DecidableEq, Repr

/-- A container entry (R130). -/
structure CEntry where
  fp      : Bytes
  chunk   : Nat
  keyInfo : Nat
  dead    : Bool
  deriving DecidableEq, Repr

/-- A container, cached or open (R130, R135). -/
structure Container where
  no      : Nat
  domain  : Nat
  nsid    : Nat
  entries : List CEntry
  isOpen  : Bool
  cached  : Bool
  touched : Nat
  deriving DecidableEq, Repr

/-- A hook table entry with its bucket (R130, R137). -/
structure Hook where
  bucket    : Nat
  fpPart    : Bytes
  domain    : Nat
  container : Nat
  deriving DecidableEq, Repr

/-- A lookup window of a namespace stream (R132). -/
structure Window where
  id     : Nat
  nsid   : Nat
  count  : Nat
  closed : Bool
  deriving DecidableEq, Repr

/-- The service of one engine (R141, R142, R164, R188). -/
structure Engine where
  k       : EngClass
  n       : Nat
  out     : Bool
  failed  : Nat
  due     : Bool       -- due for test, with a job to complete first
  testing : Bool
  deriving DecidableEq, Repr

/-- ING. -/
structure Ing where
  blocks     : Nat := 0
  sLim       : Option Nat := none
  peerSLim   : Option Nat := none
  hashKey    : BitVec 256 := 0
  staging    : List StEntry := []
  mirror     : List MirEntry := []
  lowPct     : Nat := 50
  highPct    : Nat := 75
  maxAgeMs   : Nat := 50
  idleUs     : Nat := 200
  oldest     : Bool := false
  runs       : List Run := []
  chunks     : List Chunk := []
  windows    : List Window := []
  containers : List Container := []
  hooks      : List Hook := []
  hookCap    : Nat := 0
  buckets    : Nat := 0
  ccSlots    : Nat := 0
  contNext   : Nat := 1
  clock      : Nat := 0
  nextId     : Nat := 1
  chunksIn   : Nat := 0
  dupCache   : Nat := 0
  dupHook    : Nat := 0
  unique     : Nat := 0
  pulls      : Nat := 0
  verifyMiss : Nat := 0
  hookHour   : Option Nat := none
  deriving DecidableEq, Repr

/-! ### Bale engines -/

/-- The step that a decompressor is in (R161). -/
inductive DecStep where
  | table | token | match_ | run | done
  deriving DecidableEq, Repr

/-- The position within a table description (R153, R161): the three counts, the code-length-code lengths and the code lengths read so far. -/
structure TblState where
  nm   : Option Nat := none
  nd   : Option Nat := none
  nc   : Option Nat := none
  sent : List Nat := []
  lens : List Nat := []
  deriving DecidableEq, Repr

/-- The resume state of a decompressor (R161): `tbl` is the position within a table description, `mainLen` and `distLen` the tables once
decoded, `acc` the bits fetched and not yet consumed, 64 at most. -/
structure DecState where
  step    : DecStep := .table
  out     : Nat := 0
  inBit   : Nat := 0
  rem     : Nat := 0
  dist    : Nat := 0
  runByte : Byte := 0
  crc     : Word32 := 0xFFFFFFFF
  history : Bytes := []     -- the output so far, newest byte first
  mainLen : List Nat := []
  distLen : List Nat := []
  acc     : Word64 := 0
  accBits : Nat := 0
  tbl     : TblState := {}
  result  : Option Word16 := none
  deriving DecidableEq, Repr

/-- A decode for a verify-on-match comparison (R134, R161): the engine, the length of the Bale, what has arrived of it,
the output space granted, and the chunk that is compared. -/
structure Decoder where
  engine  : Nat
  chunk   : Nat
  lb      : Nat
  input   : Bytes
  space   : Nat
  d       : DecState
  deriving DecidableEq, Repr

/-- A read of one chunk for a host command, from the seal check to the delivery. -/
structure ReadJob where
  id       : Nat
  cmd      : Nat
  chunk    : Nat
  found    : Bytes      -- stored granules that parity gave (R267, R269), in place of those read
  waybill  : Bytes
  bale     : Bytes      -- the Bale once the seal check and the decryption have passed
  rebuilt  : Bool       -- its one rebuild has been made (R186, R267, R269)
  wanted   : Option Word16   -- it waits for a rebuild, after this failure
  sealOk   : Bool
  seg      : Nat
  parts    : List (Nat × Nat × Nat × Nat)   -- block, offset within it, offset within the chunk, length
  deriving DecidableEq, Repr

/-- BAL. -/
structure Bal where
  encStatic  : Nat := 0
  encDynamic : Nat := 0
  encRaw     : Nat := 0
  bytesIn    : Nat := 0
  bytesOut   : Nat := 0
  decBales   : Nat := 0
  decRestart : Nat := 0
  illegal    : Nat := 0
  distance   : Nat := 0
  length     : Nat := 0
  runErr     : Nat := 0
  crcErr     : Nat := 0
  decoders   : List Decoder := []
  readJobs   : List ReadJob := []
  engines    : List Engine := []
  deriving DecidableEq, Repr

/-! ### Security block -/

/-- States of a key slot (R168). -/
inductive SlotState where
  | empty | active | lost
  deriving DecidableEq, Repr

/-- A key slot with its descriptor (R165 to R169, KEY INFO). -/
structure Slot where
  type       : BitVec 3 := 0
  state      : SlotState := .empty
  owner      : Nat := 0
  exportable : Bool := false
  material   : Bytes := []
  idA        : Word64 := 0
  idSeal     : Word64 := 0
  idData     : Word64 := 0
  deriving DecidableEq, Repr

/-- What a suspended CMAC has saved (R177): the chaining value, the subkeys, and the byte position. -/
structure VaultSave where
  chain : Bytes
  k1    : Bytes
  k2    : Bytes
  pos   : Nat
  deriving DecidableEq, Repr

/-- The vault engine (R175 to R179). -/
structure Vault where
  urgent    : List VaultReq := []
  normal    : List VaultReq := []
  outside   : List VaultReq := []
  running   : Option VaultReq := none
  suspended : Option VaultReq := none
  saved     : Option VaultSave := none
  testing   : Bool := false
  testHeld  : Bool := false
  testDue   : Bool := false
  out       : Bool := false
  fails     : Nat := 0
  deriving DecidableEq, Repr

/-- The general digest unit (R189 to R192). -/
structure Dg where
  alg       : BitVec 2 := 0
  keySlot   : BitVec 13 := 0
  busy      : Bool := false
  done      : Bool := false
  keyErr    : Bool := false
  seqErr    : Bool := false
  earlyRead : Bool := false
  earlyCmp  : Bool := false
  matched   : Bool := false
  cmpDone   : Bool := false
  comparing : Bool := false
  lastValid : BitVec 3 := 0
  lastGiven : Bool := false
  message   : Bytes := []
  expect    : Bytes := List.replicate 48 0
  result    : Bytes := []
  deriving DecidableEq, Repr

/-- TRNG states (R197). -/
inductive RngState where
  | unseeded | seeded | failed | disabled
  deriving DecidableEq, Repr

/-- The TRNG, the DRBG and the row-hammer source (R196 to R200). -/
structure Rng where
  st        : RngState := .unseeded
  noise     : Bool := false
  tested    : Bool := false
  restart   : Bool := false
  retry     : Nat := 0
  fails     : Nat := 0
  requests  : Nat := 0
  reseeding : Bool := false
  waiting   : List Nat := []
  sampler   : Fin 3 := 0
  deriving DecidableEq, Repr

/-- SEC. -/
structure Sec where
  slots     : Tab Slot := []
  persisted : Tab Bytes := []
  vault     : Vault := {}
  dg        : Dg := {}
  rng       : Rng := {}
  meas      : Tab Bytes := []
  measCount : Tab Nat := []
  repaired  : Nat := 0
  failed    : Nat := 0
  serialNext : Nat := 0
  serialTop : Nat := 0
  serialNew : Option Nat := none
  deriving DecidableEq, Repr

/-! ### Media manager -/

/-- A logical-to-chunk map entry (R202). -/
structure MapEntry where
  nsid   : Nat
  lba    : Nat
  chunkA : Nat
  offA   : Nat
  chunkB : Nat
  gen    : Word16
  deriving DecidableEq, Repr

/-- A stored map page object (R310): the page of a namespace's live tree, and the number of the object that it names. -/
structure PageObj where
  nsid  : Nat
  page  : Nat
  obj   : Nat
  level : Nat := 0         -- 0 a map page, above it the directory pages (R297)
  deriving DecidableEq, Repr

/-- A metadata object on media (R205, R291, R297, R311): which page it is, its Bale serial and bytes, and its place. -/
structure ObjRec where
  obj      : Nat
  nsid     : Nat
  level    : Nat
  page     : Nat
  serial   : Bytes
  body     : Bytes
  seconds  : Nat           -- operating seconds when it was first stored
  seg      : Nat
  stripe   : Nat
  gran     : Nat           -- linear granule within the stripe
  granules : Nat
  stale    : Bool          -- moved, or its stripe failed: kept only until the next checkpoint is complete
  deriving DecidableEq, Repr

/-- A Bale's copy on its way out of a segment (R213): where it comes from and where it is placed. -/
structure Copy where
  no     : Nat
  source : Nat × Nat × Nat -- segment, stripe, linear granule
  seg    : Nat
  stripe : Nat
  gran   : Nat
  done   : Bool            -- programmed
  deriving DecidableEq, Repr

/-- States of a chunk-table entry (R203). -/
inductive ChunkSt where
  | placing | live | dead
  deriving DecidableEq, Repr

/-- A chunk table entry that is not FREE (R203), with its Waybill fields that reads need. -/
structure ChunkEnt where
  no       : Nat
  refs     : Nat
  seg      : Nat
  stripe   : Nat
  strip    : Nat
  gran     : Nat
  granules : Nat
  len      : Nat
  st       : ChunkSt
  keyInfo  : Nat
  domain   : Nat
  nsid     : Nat
  sealed_  : Bool
  waybill  : Bytes
  stored   : Bytes
  deriving DecidableEq, Repr

/-- Segment states (R213 to R216). -/
inductive SegState where
  | free | open_ | closing | closed | reclaiming | draining | dirty | retired
  deriving DecidableEq, Repr

/-- A member block of a segment (R287, the segment table entry). -/
structure Member where
  lane  : Nat
  die   : Nat
  plane : Nat
  block : Nat
  deriving DecidableEq, Repr

/-- A segment (R207, R260, R287): its members at positions 0 to W - 1, in ascending order of lane. -/
structure Seg where
  no       : Nat
  st       : SegState
  stream   : StreamId
  slc      : Bool
  d        : Nat
  q        : Bool
  layout   : Nat
  members  : List Member
  missing  : List Nat          -- positions that are missing (R265)
  stripes  : Nat               -- stripes programmed
  capacity : Nat               -- stripes that the segment holds
  verified : List Nat          -- positions whose read-back verify has passed (R212)
  erases   : Nat               -- mean erase count of its blocks
  writtenAt : Nat              -- operating seconds when its data was first written
  closedAt : Nat
  readers  : Nat               -- reads that looked up a location in it (R214)
  retired  : Nat               -- member blocks retired
  oldVer   : Bool              -- written in Tilask version 1 or 2
  badAt    : List Nat := []    -- positions whose block is retired and not yet replaced
  scanned  : Nat := 0          -- operating seconds of its last scan (R219)
  deriving DecidableEq, Repr

/-- The accumulators of an open dense block (R211): accumulator j at index j, empty until a page came to it. -/
structure Acc where
  block : Member
  pages : List Bytes
  deriving DecidableEq, Repr

/-- The MED areas in DRAM (R201): the map pages that the cache holds, stripe buffers, and the bytes of the other areas. -/
structure MedAreas where
  cachePages : Nat := 0
  dirBytes   : Nat := 0
  journal    : Nat := 536870912
  parity     : Nat := 134217728
  buffers    : Nat := 64
  readBytes  : Nat := 4294967296
  deriving DecidableEq, Repr

/-- A stripe being assembled or programmed (R207, R208). -/
structure Stripe where
  stream  : StreamId
  seg     : Nat
  stripe  : Nat
  next    : Nat                -- next free linear granule
  bales   : List Nat           -- chunk numbers, in order
  closed  : Bool
  deriving DecidableEq, Repr

/-- A program or erase that runs on a die, for the suspend rules of R221. -/
structure DieRun where
  lane    : Nat
  die     : Nat
  erase   : Bool
  ranMin  : Bool
  count   : Nat
  waiting : Bool
  held    : Bool
  deriving DecidableEq, Repr

/-- A saved block with its CRC (R229). -/
structure Saved where
  m   : MirEntry
  crc : Nat
  deriving DecidableEq, Repr

/-- A power-loss flush record on the flush dies (R227, R229, R231). -/
structure FlushRec where
  marks   : Nat
  final   : Bool
  cls     : Fin 5
  events  : List Bytes
  settle  : List Settle
  journal : List MapEntry
  accs    : List Acc          -- die-parity accumulators (class 2)
  blocks  : List Saved
  lost    : List MirEntry     -- committed blocks that it does not hold (R230)
  active  : Bool              -- written in head role ACTIVE: the peer holds this head's blocks too
  deriving DecidableEq, Repr

/-- A power-loss flush under way. -/
structure Flush where
  quiesced : Bool
  cls      : Fin 5
  rec_     : FlushRec
  resetAfter : Bool
  deriving DecidableEq, Repr

/-- MED, its maps and its segments. -/
structure Med where
  maps       : List MapEntry := []
  cached     : List (Nat × Nat) := []
  dirty      : List (Nat × Nat) := []
  pages      : List PageObj := []
  nextObj    : Nat := 1
  chunks     : List ChunkEnt := []
  chunkNext  : Nat := 1
  journal    : List MapEntry := []
  oldJournal : List MapEntry := []
  frozenMaps : Bool := false
  segs       : List Seg := []
  segNext    : Nat := 0
  stripes    : List Stripe := []
  writeSeq   : Nat := 0
  slcPpm     : Tab Nat := []
  moduleRetired : List Nat := []
  maxErase   : Nat := 16
  maxProg    : Nat := 4
  maxSusp    : Nat := 100
  minRun     : Nat := 20
  dieRuns    : List DieRun := []
  relocated  : Nat := 0
  hostProg   : Nat := 0
  refreshed  : Nat := 0
  mapFaults  : Nat := 0
  blocksRet  : Nat := 0
  level      : Nat := 0
  scanned    : List Nat := []
  relocating : List (Nat × Nat) := []      -- chunks to relocate out of a segment that stays CLOSED
  areas      : MedAreas := {}
  writeBack  : List (Nat × Nat) := []      -- dirty pages that left the cache and are being written (R205)
  objs       : List ObjRec := []
  copies     : List Copy := []
  accs       : List Acc := []
  blocksOut  : List Member := []           -- retired blocks, which no segment takes again
  worn       : List Nat := []              -- modules whose mean erase count has reached 0.90 of the rated count
  scanAll    : Bool := false               -- the scans that follow a power-on are still to be listed (R220)
  scanList   : List Nat := []              -- segments whose scan after power-on is still to come, oldest first
  urgHost    : Nat := 0                    -- stripes programmed for host data, and by relocation, while relocation has half of the time
  urgReclaim : Nat := 0
  deriving DecidableEq, Repr

/-- The hold-up budget and the power-loss flush (R222 to R232). -/
structure Plf where
  tAvailNs  : Nat := 0
  tNeedNs   : Nat := 0
  short     : Bool := false
  lastClass : Fin 5 := 0
  marks     : Nat := 0
  flush     : Option Flush := none
  records   : List FlushRec := []
  replayStep : Nat := 0
  deriving DecidableEq, Repr

/-! ### Farium lanes and the bridges behind them -/

/-- Module states on the KL9640's side (R255), with the register's codes 0 to 6. -/
inductive LaneState where
  | absent | training | identified | held | peerHeld | lost | fault
  deriving DecidableEq, Repr

/-- The information page's figures of a module that the chip uses (R243). -/
structure ModInfo where
  channels : Nat := 0
  perChan  : Nat := 0
  planes   : Nat := 0
  bits     : Nat := 0
  blocks   : Nat := 0
  pagesD   : Nat := 0
  pagesS   : Nat := 0
  limit    : Nat := 0
  partials : Nat := 1
  rated    : Nat := 0
  tSlcUs   : Nat := 0
  u        : Nat := 0
  page     : Bytes := []
  deriving DecidableEq, Repr

/-- A command of the KL9640 to a module. -/
structure FarCmd where
  op      : Byte
  slc     : Bool
  die     : Nat
  block   : Nat
  page    : Nat
  planes  : Nat
  offset  : Nat
  count   : Nat
  payload : Bytes
  deriving DecidableEq, Repr

/-- A frame kept until it is acknowledged (R241): its sequence number, its size, and what it carried. -/
structure Sent where
  seq   : Word16
  size  : Nat
  tag   : Nat
  claim : Word32
  c     : FarCmd
  deriving DecidableEq, Repr

/-- A command without a completion yet (R259). -/
structure FarOut where
  tag      : Nat
  c        : FarCmd
  timeouts : Nat
  reissued : Bool
  polling  : Bool
  deriving DecidableEq, Repr

/-- A media lane on the KL9640's side (R234 to R259). -/
structure Lane where
  st        : LaneState := .absent
  cause     : Fin 8 := 0
  retrains  : Nat := 0
  rate      : Fin 3 := 0
  claim     : Word32 := 0
  signal    : Bool := false
  ts1       : Nat := 0
  ts2       : Nat := 0
  config    : Bool := false
  active    : Bool := false
  tries     : Nat := 0
  seqTx     : Word16 := 0
  seqRx     : Word16 := 0
  unacked   : List Sent := []        -- frames kept until acknowledged (R241)
  replays   : Nat := 0
  cmdCred   : Nat := 0
  dataCred  : Nat := 0
  lfsr      : BitVec 31 := 0x7FFFFFFF
  sinceSkip : Nat := 0
  quiet     : Nat := 0
  serial    : Word32 := 0
  out       : List FarOut := []
  waiting   : List FarCmd := []      -- for credits, or for a suspended erase
  again     : List FarOut := []      -- commands to be issued again under their tags, that wait for credits
  seen      : Nat := 0               -- the highest claim seen on its module (R250)
  pushing   : Bool := false          -- a claim is won, and the channel records are on their way (R255)
  ts2Sent   : Nat := 0               -- TS2 sets sent in this CONFIG (R236)
  discard   : Bool := false          -- after a bad header, blocks are discarded until the next SYNC (R241)
  sinceLink : Nat := 0               -- frames received since the last LINK frame was sent (R239)
  info      : ModInfo := {}
  diesOut   : List Nat := []
  faultMs   : List Nat := []
  longLost  : Bool := false
  released  : Bool := false
  claiming  : Bool := false
  deriving DecidableEq, Repr

/-- An operation that a bridge runs, holds suspended, or has queued on a die. -/
structure DieOp where
  op     : Byte
  f      : FarFrame
  silent : Bool          -- its result is kept in the die status only (R242, R254)
  deriving DecidableEq, Repr

/-- A NAND die behind a bridge, as its status record and queue show it (R245, R248, R249). -/
structure Die where
  st        : Fin 4 := 0
  op        : Byte := 0
  status    : Word16 := 0
  tag       : Word16 := 0
  page      : Word16 := 0
  block     : Word32 := 0
  claim     : Word32 := 0
  running   : Option DieOp := none
  suspended : Option DieOp := none
  queue     : List DieOp := []
  deriving DecidableEq, Repr

/-- An erase block as the bridge tracks it (R246, R247). -/
structure NandBlock where
  slc      : Bool := false
  next     : Nat := 0
  partials : Nat := 0
  written  : List Nat := []
  known    : Bool := false              -- it has been erased since the model follows it
  parts    : List (Nat × List Nat) := [] -- its earlier pages that partial programs wrote, with the granules written (R247)
  deriving DecidableEq, Repr

/-- A flash module's bridge (R243 to R254). -/
structure Module where
  curClaim : Word32 := 0
  owner    : Fin 3 := 0
  laneA    : Byte := 0xFF
  laneB    : Byte := 0xFF
  linkA    : Bool := false
  linkB    : Bool := false
  params   : Tab Bytes := []
  newParams : Tab Bytes := []    -- records that wait for the operations of their channel to end (R244)
  freedA   : Nat × Nat := (0, 0) -- command and data credits to be returned on port A, and on port B (R240)
  freedB   : Nat × Nat := (0, 0)
  dies     : Tab Die := []
  blocks   : Tab NandBlock := []
  page     : Bytes := []         -- its information page, once it has been reported
  deriving DecidableEq, Repr

/-- MED's Farium side: lanes, modules, the clock source of each lane group (R26), counters. -/
structure Far where
  lanes     : Tab Lane := []
  modules   : Tab Module := []
  clkSource : Tab Nat := []      -- by group: 0, or one above the lane that supplies the clock
  crc       : Nat := 0
  replays   : Nat := 0
  timeouts  : Nat := 0
  claims    : Nat := 0
  uncorr    : Nat := 0
  nextTag   : Nat := 0
  deriving DecidableEq, Repr

/-! ### Parity, on-media format, snapshots -/

/-- A layout slot (R260). -/
structure Layout where
  id     : Nat := 0
  d      : Nat := 0
  q      : Bool := false
  elig   : List Nat := []
  narrow : Bool := false      -- new segments use D' (R264)
  stopped : Bool := false     -- D' would fall below 2
  deriving DecidableEq, Repr

/-- Job kinds (R273). -/
inductive JobKind where
  | rebuild | reshape | buildBeside
  deriving DecidableEq, Repr

/-- A job (R270 to R283). -/
structure Job where
  id       : Nat
  kind     : JobKind
  phase    : Nat
  paused   : Bool
  leader   : Bool
  slot     : Nat
  from_    : Nat
  to_      : Layout
  lanes    : List Nat
  die      : Nat
  cursor   : Nat
  done     : Nat
  granules : Nat
  sinceCkpt : Nat
  unacked  : Nat
  deriving DecidableEq, Repr

/-- PAR. -/
structure Par where
  ordinary : Layout := {}
  archive  : Layout := {}
  metadata : Layout := {}
  nextLay  : Nat := 1
  jobs     : List Job := []
  nextJob  : Nat := 1
  ckptSeq  : Nat := 0
  ckpts    : List JobCkpt := []      -- the newest checkpoint on media of each job that has not ended
  mirrored : List JobCkpt := []      -- the peer's
  vacated  : List Nat := []
  days     : Nat := 28
  maxMbps  : Nat := 40
  cursor   : Nat × Nat := (0, 0)
  stripes  : Nat := 0
  mismatch : Nat := 0
  repaired : Nat := 0
  unrepair : Nat := 0
  degReads : Nat := 0
  rebuiltG : Nat := 0
  old      : Bool := false
  waiting  : Bool := false
  deriving DecidableEq, Repr

/-- The Tilask side: superblocks, roots, checkpoints, the event archive (R285 to R301). -/
structure Til where
  arrayId    : Bytes := []
  ckptSeq    : Nat := 0
  current    : Nat := 0              -- CKPT_SEQ of the current checkpoint
  due        : Bool := false         -- a checkpoint is due and waits for room on media
  writing    : Bool := false         -- checkpoint number ckptSeq is being written
  ckptPages  : List PageObj := []    -- the trees that the current checkpoint names
  newPages   : List PageObj := []    -- and those of the one being written
  rooted     : Bool := false         -- and its root is recorded
  rootSeq    : Nat := 0
  recorded   : List Nat := []        -- the modules that hold the newest root
  roots      : Tab (Nat × Nat) := [] -- by lane: which block of the root pair is in use, and the page of its next root record (R294)
  supers     : Tab Bytes := []       -- by lane: the module's superblock as it was read or made
  swaps      : Tab (List (Nat × Nat × Nat)) := [] -- by lane: reserved die, reserved block, and the block that takes its place (R293)
  rootOut    : Bool := false         -- a root record is on its way to the modules
  rootNames  : Bool := false         -- and it names the checkpoint being written
  headObj    : Nat := 0              -- the header object of the checkpoint being written
  currentObj : Nat := 0              -- and of the current one
  objOut     : Option Nat := none    -- the archive object whose stripe is not yet programmed (R406)
  bothHeads  : Bool := false
  rootEpoch  : Word16 := 0           -- the highest ROLE_EPOCH found in root records (R342)
  readFloor  : Tab Nat := []         -- READ_FLOOR by lane
  published  : Bool := false         -- a map update has been published since the last checkpoint
  hooks      : List Hook := []       -- the hook table of the newest complete checkpoint (R299)
  hooksNew   : List Hook := []       -- and of the one being written
  archived   : List Bytes := []      -- records in the recorder archive area that are in no archive object
  granule    : List Bytes := []      -- records of the granule being written
  area       : Tab (Nat × Nat) := [] -- by lane: which area block is filled (0 or 1), and granules written to it
  rotation   : Nat := 0
  chain      : Bytes := List.replicate 48 0
  objLast    : Nat := 0              -- LAST_SEQ of the newest archive object
  lastObject : Nat := 0              -- LAST_SEQ of the one that the current checkpoint names
  deriving DecidableEq, Repr

/-- Snapshot states (R309). -/
inductive SnapSt where
  | pending | complete | deleting
  deriving DecidableEq, Repr

/-- A snapshot that is not FREE. -/
structure Snap where
  nsid    : Nat
  seq     : Nat
  st      : SnapSt
  group   : Option Nat
  cgSeq   : Nat
  seconds : Nat
  cycles  : Nat
  label   : Bytes
  exposed : Option Nat
  replica : Bool
  base    : Bool
  srcSeq  : Nat
  srcNsid : Nat
  srcArray : Bytes
  cmd     : Option Nat
  tree    : List MapEntry
  pages   : List (Nat × Nat)          -- page and object that the tree names
  dirs    : List PageObj := []        -- its directory pages
  deriving DecidableEq, Repr

/-- Roles and states of a replication record. -/
inductive ReplRole where
  | source | target | ingest
  deriving DecidableEq, Repr

inductive ReplSt where
  | idle | sending | suspended | faulted
  deriving DecidableEq, Repr

/-- A batch of a session (R323 to R325): at the source one that is not committed, at the target one that is offered. -/
structure Batch where
  no      : Nat
  first   : Nat
  next    : Nat
  chunks  : List ChunkRec
  blocks  : List BlockRec
  held    : List (Nat × Nat)     -- target: chunk record, and the chunk that stands for it
  asked   : List Nat             -- chunk records that the NEED requests
  retried : List Nat
  deriving DecidableEq, Repr

/-- A replication session (R320 to R328). -/
structure Sess where
  nsid      : Nat
  role      : ReplRole
  st        : ReplSt
  session   : Word64
  pairing   : Bytes
  epoch     : Word16             -- the epoch held for the other side
  baseSeq   : Nat
  sendSeq   : Nat
  nextBatch : Nat
  nextLba   : Nat
  bytes     : Nat
  batches   : List Batch         -- uncommitted, in order
  walked    : Bool               -- source: the walk has ended
  ended     : Bool               -- source: END has been sent
  deriving DecidableEq, Repr

/-- Snapshots, consistency groups and sessions. -/
structure Snp where
  groups   : Tab (List Nat) := []
  snaps    : List Snap := []
  nextSeq  : Tab Nat := []
  cgSeq    : Nat := 0
  holds    : List (Nat × List Nat) := []     -- SNAP CREATE command and the members held before the cut
  sessions : List Sess := []
  deriving DecidableEq, Repr

/-! ### Peer link and fail-over -/

/-- Detection states (PEER.STATUS.DETECT, 0 to 4). -/
inductive Detect where
  | present | suspect | split | takeover | noPeer
  deriving DecidableEq, Repr

/-- One control-core pair (R19, R343). -/
structure CtrlPair where
  inReset : Bool := false
  faults  : Nat := 0
  lastAt  : Option Nat := none
  deriving DecidableEq, Repr

/-- PEER. -/
structure Peer where
  role       : Role := .service
  roleChosen : Bool := false
  peerRole   : Option Role := none
  lanes      : Nat := 0
  linkUp     : Bool := false
  aliveIn    : Bool := false
  aliveOut   : Bool := false
  detect     : Detect := .noPeer
  epoch      : Word16 := 0
  peerEpoch  : Word16 := 0
  lastCause  : Nat := 0
  changeAt   : Nat := 0
  swapDays   : Nat := 28
  swapLeft   : Nat := 28
  swapHead   : Bool := false
  wdog       : Word32 := 0
  wdogFresh  : Bool := false
  pair0      : CtrlPair := {}
  pair1      : CtrlPair := {}
  pair2      : CtrlPair := {}
  pair3      : CtrlPair := {}
  missed     : Nat := 0
  replays    : Nat := 0
  retrains   : Nat := 0
  stale      : Nat := 0
  takeovers  : Nat := 0
  noProgress : Nat := 0
  deriving DecidableEq, Repr

/-- The pairing of the heads, a takeover under way, the return of a repaired head, and a role swap under way. -/
structure Pairing where
  paired      : Bool := false
  serial      : Word64 := 0
  headId      : Bool := false
  fwVersion   : Word32 := 0
  ownFw       : Word32 := 0
  keysMatch   : Bool := false
  occupancy   : Nat := 0
  seconds     : Nat := 0
  service     : Service := .startUp
  sameHead    : Bool := false
  chainAnswer : Option Bool := none
  claimsWait  : Bool := false                -- the claims of a takeover wait for the peer's flush (R228)
  resends     : Nat := 0
  returning   : Bool := false                -- this head waits for its return to be granted
  handback    : Bool := false                -- this head hands back to one that has returned
  ckptAt      : Nat := 0                     -- CKPT_SEQ when the return was granted
  kept        : List Nat := []               -- namespaces not yet handed back, on either head
  swapWait    : Bool := false                -- a role swap waits for admitted commands, or for the peer (R344)
  resetAfter  : Bool := false                -- a reset follows the handover (R420)
  swapPeer    : Bool := false                -- the peer swaps: the takeover that follows is a role swap's (R344)
  hungOver    : Bool := false                -- handed over after a pair fault: SERVICE until a chip-wide reset (R343)
  granules    : List (Nat × Nat × Nat × Nat × Nat × Nat) := []   -- granules read for the peer (R345)
  deriving DecidableEq, Repr

/-! ### RDMA and federation -/

/-- States of an RC QP. -/
inductive RcSt where
  | connecting | ready | error
  deriving DecidableEq, Repr

/-- An RC QP (R349 to R358). Rate in bit/s, averages in ns. -/
structure RcQp where
  qpn      : Nat
  st       : RcSt
  pd       : Nat
  tenant   : Nat
  remote   : Nat
  remoteQp : Nat
  epoch    : Word16
  purpose  : Nat
  session  : Word64
  addr     : Nat
  port     : Nat
  psn      : Nat                               -- next PSN expected
  sendPsn  : Nat                               -- next PSN to send
  mtu      : Nat
  receives : List (Nat × Nat × Option Nat)     -- address, length, Caravan
  got      : Nat                               -- bytes of the message that is arriving
  unacked  : Nat
  rnr      : Nat
  retries  : Nat
  rate     : Nat
  avg      : Nat
  prevAvg  : Nat
  updated  : Nat                               -- next PSN to send at the last update of the rate
  deriving DecidableEq, Repr

/-- A memory region (R350). -/
structure Region where
  id     : Nat
  pd     : Nat
  base   : Nat
  len    : Nat
  read   : Bool
  write  : Bool
  atomic : Bool
  valid  : Bool
  deriving DecidableEq, Repr

/-- A Caravan element (R355), with how far it has got. -/
structure Element where
  kind     : Nat
  gated    : Bool
  fence    : Bool
  gateBit  : Nat
  first    : Nat
  last     : Nat
  target   : Nat
  len      : Nat
  addr     : Nat
  addr2    : Nat
  template : Bytes
  done     : Bool
  ran      : Bool
  started  : Bool
  deriving DecidableEq, Repr

/-- States of a Caravan that is not IDLE. -/
inductive CarSt where
  | armed | running
  deriving DecidableEq, Repr

/-- A Caravan that is not IDLE (R355 to R357). -/
structure Caravan where
  id       : Nat
  st       : CarSt
  owner    : Nat
  trigger  : Nat
  gate     : List Nat
  elements : List Element
  deriving DecidableEq, Repr

/-- What a chip holds of one federation address (R360, RDM.PATHa). -/
structure Path where
  state  : Fin 4 := 0
  role   : Fin 4 := 0
  ports  : List Nat := []
  epoch  : Word16 := 0
  round  : Nat := 0
  seen   : List Nat := []
  serial : Word64 := 0
  deriving DecidableEq, Repr

/-- A relay under way (R363 to R365). -/
structure Relay where
  id     : Nat
  cmd    : Nat
  target : Nat
  resent : Bool
  sent   : Bool
  epoch  : Word16
  entry  : HostCmd
  deriving DecidableEq, Repr

/-- RDM. -/
structure Rdm where
  links      : List Nat := []
  lanesEq    : List Bytes := []      -- equalisation record of each Ethernet and peer lane (setting 0x0501)
  fedState   : Fin 3 := 0
  paths      : Tab Path := []
  ccCfg0     : Word32 := 0x0C3C0A80
  ccCfg1     : Word32 := 0x08640500
  qps        : List RcQp := []
  regions    : List Region := []
  caravans   : List Caravan := []
  pdsGone    : List Nat := []        -- protection domains that have been deleted
  relays     : List Relay := []
  nextRelay  : Nat := 1
  round      : Nat := 0
  atomicsOff : Bool := false
  changes    : List RdmaRule := []   -- rule changes that wait for accesses under the old rules
  inFlight   : List Nat := []
  rxDiscard  : Nat := 0
  tenantRej  : Nat := 0
  carRun     : Nat := 0
  carMiss    : Nat := 0
  relayStale : Nat := 0
  annBad     : Nat := 0
  deriving DecidableEq, Repr

/-! ### Management chain -/

/-- A chain port (R369, R370). -/
structure ChainPort where
  link    : Fin 3 := 1
  wrapped : Bool := true
  breaks  : Nat := 0
  sentOk  : Bool := false
  gotOk   : Bool := false
  bad     : List Nat := []
  deriving DecidableEq, Repr

/-- MCH.ROLE. -/
inductive ChainRole where
  | none_ | member | master | candidate
  deriving DecidableEq, Repr

/-- MCH. -/
structure Mch where
  role      : ChainRole := .none_
  gen       : Word16 := 0
  addrValid : Bool := false
  address   : BitVec 6 := 0
  port0     : ChainPort := {}
  port1     : ChainPort := {}
  fedTime   : Word64 := 0
  crcErr    : Nat := 0
  hopsDrop  : Nat := 0
  enums     : Nat := 0
  table     : Tab Word64 := []
  groups    : List Nat := []
  fedId     : Bytes := List.replicate 5 0
  joining   : Bool := false
  enumOut   : Bool := false
  reenum    : Bool := false
  deriving DecidableEq, Repr

/-! ### DRAM controller -/

/-- The queues of one subchannel, oldest first (R385), its open rows by bank, and the banks that owe a DRFM (R388). -/
structure DramQ where
  reads    : List DramReq := []
  writes   : List DramReq := []
  draining : Bool := false
  openRows : List (Nat × Nat) := []
  drfm     : List Nat := []
  deriving DecidableEq, Repr

/-- DRC. -/
structure Drc where
  ranks     : Nat := 0
  rdimms    : Nat := 0
  sizeGib   : Nat := 0
  nbands    : Nat := 1
  hyst      : Nat := 1
  bounds    : List Nat := []
  bands     : Tab Nat := []
  temps     : Tab Int := []
  missed    : Tab Nat := []
  hot       : List Nat := []
  probLog2  : Nat := 9
  scrubH    : Nat := 24
  scrubLine : Nat := 0
  queues    : Tab DramQ := []
  owed      : Tab Nat := []
  selfRef   : Bool := false
  frozen    : Bool := false
  draws     : Tab Nat := []
  activates : Tab Nat := []
  poisoned  : List Nat := []
  pageCe    : List (Nat × Nat) := []
  ce        : Nat := 0
  ue        : Nat := 0
  nrIssued  : Nat := 0
  switches  : Nat := 0
  inorder   : Nat := 0
  deriving DecidableEq, Repr

/-! ### Event recorder -/

/-- The CODE of an event: listed by the spec, or left open (R457) and known by its rule and ordinal within the rule. -/
inductive EvCode where
  | listed (code : Word16)
  | byRule (rule n : Nat)
  deriving DecidableEq, Repr

/-- A record of the ring (R394). `seq` is none until the base is set; `args` are the numbers that the event names. -/
structure EvRec where
  seq     : Option Nat
  seconds : Word32
  cycles  : Word32
  sev     : Sev
  blk     : Blk
  code    : EvCode
  args    : List Nat
  payload : Bytes
  pending : Bool
  deriving DecidableEq, Repr

/-- A read channel of the recorder (R408). -/
structure RdChan where
  low    : Word32 := 0
  seq    : Word64 := 0
  done   : Bool := false
  result : Fin 3 := 0
  win    : Bytes := []
  deriving DecidableEq, Repr

/-- Counts by severity. -/
structure SevCount where
  info     : Nat := 0
  notice   : Nat := 0
  fault    : Nat := 0
  critical : Nat := 0
  deriving DecidableEq, Repr

/-- EVR. -/
structure Evr where
  accepts   : Bool := false
  baseSet   : Bool := false
  head      : Nat := 0
  ring      : List EvRec := []
  held      : List EvRec := []
  norSeq    : Nat := 0
  archSeq   : Nat := 0
  refused   : SevCount := {}
  lost      : SevCount := {}
  lostFirst : Nat := 0
  lostLast  : Nat := 0
  counts    : List (Blk × EvCode × Nat) := []
  suppr     : List (Blk × EvCode × Sev × Nat) := []
  supSecond : Word32 := 0
  limInfo   : Nat := 16
  limNotice : Nat := 64
  limFault  : Nat := 256
  drainStop : Bool := false
  sector    : Nat := 0
  slot      : Nat := 0
  sectorSeq : Nat := 0
  inFlight  : Nat := 0
  noSlots   : List Nat := []
  rd0       : RdChan := {}
  rd1       : RdChan := {}
  latch0    : List (Nat × Word32) := []
  latch1    : List (Nat × Word32) := []
  deriving DecidableEq, Repr

/-! ### Service port -/

/-- SVC (R411 to R427). -/
structure Svc where
  stage      : Fin 4 := 0
  stageBankB : Bool := false
  stageLen   : Nat := 0
  stagedOk   : Bool := false
  link       : Bool := false
  authFail   : Nat := 0
  authSecond : Nat := 0
  nonce      : Bytes := List.replicate 8 0
  keyedSeq   : Option Word16 := none
  stored     : Option (Word16 × Byte × Word16 × Bytes) := none
  busy       : Option (Word16 × Byte) := none   -- SEQ and TYPE of a request still being executed (R412)
  profile    : Bytes := []
  deriving DecidableEq, Repr

/-! ### The state -/

/-- The state of the KL9640 and what stands directly behind it. -/
structure State where
  glb     : Glb := {}
  pins    : Pins := {}
  clk     : Clk := {}
  cache   : Cache := {}
  nvc     : Nvc := {}
  wch     : Wch := {}
  hep     : Hep := {}
  hqe     : Hqe := {}
  ing     : Ing := {}
  bal     : Bal := {}
  sec     : Sec := {}
  med     : Med := {}
  plf     : Plf := {}
  far     : Far := {}
  par     : Par := {}
  til     : Til := {}
  snp     : Snp := {}
  peer    : Peer := {}
  pair    : Pairing := {}
  rdm     : Rdm := {}
  mch     : Mch := {}
  drc     : Drc := {}
  evr     : Evr := {}
  svc     : Svc := {}
  nor     : List Host.Cell := []
  dram    : List Host.Cell := []
  freeCtr : Nat := 0
  out     : List Output := []
  pending : List Instr := []
  deriving DecidableEq, Repr

/-- The machine right after a power-on reset, with SYS_RESET_L still low: every field at its reset value. -/
def State.reset : State := {}

/-- Why a command stops the model. -/
inductive Fault where
  /-- Raised by a meaning whose command is not well-formed (an operand outside the range that the spec gives the
  field, so that no such event can reach the chip). Safe: the model stops where the hardware is never put. -/
  | illFormed (what : String)
  deriving DecidableEq, Repr

/-- Why a command has no meaning. -/
inductive Refusal where
  /-- The command has no meaning in this model yet. Raised by the dispatch alone. Safe. -/
  | notModelled (mnemonic : String)
  deriving DecidableEq, Repr

end Sys2Proof.Machine
end

