-- ==== Sys2Proof/WellFormed.lean ====
section
/-! DEFINITION. Which operands of a command can reach the chip at all: each command's operands lie in the fields and
have the lengths that the spec gives them, and a row that is one register, opcode or frame type carries that one. -/

namespace Sys2Proof

/-! ### Register accesses -/

/-- Accesses are 8, 16, 32 or 64 bits wide (R6). -/
def widthOk (w : Nat) : Bool := w == 8 || w == 16 || w == 32 || w == 64

/-- An access stays inside the 32 MiB of BAR0 (R65), the control space of the fabric included. -/
def inBar0 (o w : Nat) : Bool := widthOk w && decide (o + w / 8 ≤ 0x2000000)

/-- Does an access of a width in bits reach the aligned word at an offset? -/
def reachesWord (o w a : Nat) : Bool := decide (o / 4 * 4 ≤ a) && decide (a < o + w / 8)

/-- A read of the word at an offset. -/
def RegRead.of (r : RegRead) (a : Nat) : Bool := inBar0 r.offset r.width && reachesWord r.offset r.width a

/-- The words of the 64-bit EVR registers (R409). -/
def evrPairs : List Nat := [0x1200000, 0x1200008, 0x1200010, 0x1200018, 0x1200040, 0x12000C0]

/-- A read that reaches a word of a 64-bit EVR register: its low word, or the upper word that the low word latched. -/
def RegRead.ofEvr (r : RegRead) : Bool :=
  inBar0 r.offset r.width
    && evrPairs.any fun a => reachesWord r.offset r.width a || reachesWord r.offset r.width (a + 4)

/-- The port of a host requester. -/
def Requester.isPort (q : Requester) (p : Fin 2) : Bool := q == .host p

/-- A doorbell slot's words whose 32-bit writes have rows of their own: HQE.DB_SQ_TAIL, HQE.DB_CQ_HEAD, and HQE.DB_ADMIN_CFG of slot 0. -/
def slotRowWord (a : Nat) : Bool := a % 64 == 0 || a % 64 == 4 || a == 0x20

/-- The size of a function's BAR2 and of its BAR4 (R65). -/
def bar2Size (f : FnId) : Nat := if f.fn = 0 then 0x100000 else 0x10000
def bar4Size (f : FnId) : Nat := if f.fn = 0 then 0x10000 else 0x1000

def RegWrite.ok (w : RegWrite) : Bool :=
  match w.space with
  | .control => inBar0 w.offset w.width
  | .bar2 f =>
    widthOk w.width && w.req.isPort f.port && decide (w.offset + w.width / 8 ≤ bar2Size f)
      && !(w.width == 32 && w.offset % 4 == 0 && slotRowWord w.offset)
  | .bar4 f => widthOk w.width && w.req.isPort f.port && decide (w.offset + w.width / 8 ≤ bar4Size f)
  | .config f => w.req.isPort f.port && decide (w.offset ≤ 0x50) && w.offset % 4 == 0

/-! ### Command entries (R90, R92) -/

/-- The opcodes of the tables of commands. -/
def listedOpcodes : List Nat :=
  [0x01, 0x02, 0x03, 0x04, 0x05, 0x06, 0x07, 0x08, 0x09, 0x10, 0x11, 0x12, 0x14, 0x15, 0x20, 0x21, 0x22, 0x23, 0x24, 0x25, 0x26]
    ++ [0x30, 0x31, 0x32, 0x33, 0x34, 0x38, 0x39, 0x3A, 0x3B, 0x3C, 0x80, 0x81, 0x82, 0x88]

/-- The descriptor list that the device reads: only when DLIST is set, and 1 to 256 descriptors. -/
def HostCmd.listOk (c : HostCmd) : Bool :=
  if c.flags.getLsbD 2 && decide (1 ≤ c.dlistLen.toNat) && decide (c.dlistLen.toNat ≤ 256) then c.dlist.length == c.dlistLen.toNat
  else c.dlist == []

/-- A command of a row: the row's opcode, or one that no table lists (R92). -/
def HostCmd.row (c : HostCmd) (op : Nat) : Bool :=
  (c.opcode.toNat == op || !listedOpcodes.contains c.opcode.toNat) && c.listOk

/-! ### Frames -/

/-- A Dweuno frame of a type (R411): at most 4,096 payload bytes, and a 16-byte tag exactly when KEYED. -/
def DwFrame.ok (f : DwFrame) : Bool :=
  decide (f.payload.length ≤ 4096) && (if f.flags.getLsbD 1 then f.tag.length == 16 else f.tag == [])

def DwFrame.row (f : DwFrame) (t : Nat) : Bool := f.ok && f.type.toNat == t

/-- The frame types of the table of R411. -/
def listedFrames : List Nat :=
  [0x01, 0x02, 0x03, 0x04, 0x10, 0x11, 0x12, 0x13, 0x20, 0x28, 0x29, 0x30, 0x31, 0x32, 0x33, 0x38, 0x3F]

/-- What LEN can give of a payload: whole units of 16 bytes, at most 4,096. A payload that does not suit its type is for the bridge to
refuse (BAD_FRAME). -/
def FarFrame.lenOk (f : FarFrame) : Bool := f.payload.length % 16 == 0 && decide (f.payload.length ≤ 65536)

/-- A replication message's body fits its bounds: at most 256 chunk records (R323). -/
def offerOk (chunks : List ChunkRec) (blocks : List BlockRec) : Bool :=
  decide (chunks.length ≤ 256) && decide (blocks.length < 2 ^ 32)
    && chunks.all fun c => c.fp.length == 32 && c.serial.length == 12 && decide (c.origLen < 2 ^ 32)

/-- A Bale as it travels: a Waybill of 128 bytes and whole granules of 512 bytes. -/
def BaleItem.ok (b : BaleItem) : Bool := b.waybill.length == 128 && b.stored.length % 512 == 0 && decide (b.index < 256)

/-- A PSN and a queue pair number have 24 bits (R347). -/
def num24 (n : Nat) : Bool := decide (n < 2 ^ 24)

def Packet.ok (p : Packet) : Bool := num24 p.qpn && num24 p.psn && decide (p.bytes.length ≤ 4096)

/-- Bales of reconstruction: one finding for each strip position, and at most 64 KiB of it (R265). -/
def sourcesOk (l : List (Nat × Option Bytes)) : Bool :=
  (l.map (·.1)).dedup.length == l.length && l.all fun p =>
    match p.2 with
    | some b => decide (b.length ≤ 65536)
    | none => true

/-- The engines of each class: eight chunkers, thirty-two of each other class (R125, R163, R188). -/
def engineOk (k : EngClass) (n : Fin 32) : Bool :=
  match k with
  | .chunker => decide (n.val < 8)
  | _ => true

/-! ### The commands -/

/-- The well-formed commands. -/
@[inline] def Instr.wf : Instr → Bool
  | .registerWrite w => w.ok
  | .outsideSubsetAccess _ o w _ => inBar0 o.toNat w
  | .sramErrRead r => r.of 0x204
  | .portLogRead n r => r.of (0x20000C + 0x10000 * n.val)
  | .decErrRead r => r.of 0x900040
  | .decCrcRead r => r.of 0x900044
  | .sealErrRead r => r.of 0xA00008
  | .svcStatusRead r => r.of 0x1300000
  | .evrLowWordRead r => r.ofEvr
  | .dgResultRead n r => r.of (0xA02080 + 4 * n.val)
  | .cacheWrite _ _ off data => data != [] && decide (off.val + data.length ≤ 128)
  | .lineWaitExpiry _ _ => true
  | .cacheRead _ _ _ => true
  | .lineFill _ _ _ d => decide (d.length ≤ 16)
  | .powerOnReset _ _ => true
  | .sysResetAssert _ => true
  | .testModeAssert => true
  | .chipCommandReset => true
  | .startUpWatchdogExpiry => true
  | .sysResetRelease _ _ => true
  | .norRstRelease => true
  | .pllLock => true
  | .bootRomStart => true
  | .listenWindowClose => true
  | .bootHeaderRead => true
  | .norOctalSwitch => true
  | .profileRead => true
  | .pcieDetectExit => true
  | .dramInit slots temps => decide (slots.length ≤ 24) && temps.length == 12 && temps.all fun t => decide (-128 ≤ t) && decide (t ≤ 127)
  | .dramCheckDone _ => true
  | .firmwareReadDone => true
  | .signatureVerifyDone => true
  | .coreRelease => true
  | .firmwareReady => true
  | .recoveryDone => true
  | .norReadRequest a n => decide (0 < n) && decide (a + n ≤ 2 ^ 32)
  | .nvcMinRunExpiry => true
  | .nvcTsusExpiry => true
  | .nvcSuspendLimitExpiry => true
  | .norProgramRequest a d => d != [] && decide (a + d.length ≤ 2 ^ 32)
  | .norEraseRequest k => decide (k < 65536)
  | .norOperationDone => true
  | .wchRegisterWrite w => match w with
    | .failedStarts n => decide (n < 256)
    | .clearTamper => true
    | .clearWrLost => true
  | .wchRestoreWrite _ => true
  | .wchWriteTaken => true
  | .opSecondsTick => true
  | .pcieReceiverDetect _ _ _ _ => true
  | .perstAssert _ _ => true
  | .perstRelease _ => true
  | .hotReset _ => true
  | .pcieLinkDown _ => true
  | .pf0Flr _ => true
  | .vfFlr _ => true
  | .resetCleanupDone _ => true
  | .poisonedTlp _ _ => true
  | .tlpReceiveError _ c => c != 0
  | .pcieCompletionTimeout _ => true
  | .portRelease _ => true
  | .msixUnmask _ _ => true
  | .d3hotEntry _ => true
  | .d0Return _ => true
  | .adminQueueEnable _ cfg => cfg.getLsbD 31 && !cfg.getLsbD 30
  | .adminQueueDisable _ cfg => !cfg.getLsbD 31
  | .adminQueueRestart _ cfg _ => cfg.getLsbD 31 && cfg.getLsbD 30
  | .sqTailDoorbell _ _ => true
  | .cqHeadDoorbell _ _ => true
  | .cqInterruptTimer _ => true
  | .createQp c => c.row 0x01
  | .deleteQp c => c.row 0x02
  | .deleteQpSettled _ => true
  | .restartQp c => c.row 0x03
  | .identify c => c.row 0x04
  | .getLog c => c.row 0x05
  | .setPower c => c.row 0x06
  | .powerStateReached => true
  | .setPace c => c.row 0x07
  | .paceInForce => true
  | .selectProfile c => c.row 0x08
  | .chipReset c => c.row 0x09
  | .createTenant c => c.row 0x10
  | .deleteTenant c => c.row 0x11
  | .assignFunction c => c.row 0x12
  | .createNamespace c => c.row 0x14
  | .deleteNamespace c => c.row 0x15
  | .deleteNamespaceDone _ => true
  | .read c => c.row 0x80
  | .write c => c.row 0x81
  | .deallocate c => c.row 0x82
  | .stateQuery c => c.row 0x88
  | .stateQueryWaitEnd _ _ => true
  | .creditGrant => true
  | .creditWaitTimeout _ => true
  | .writeDataArrived _ _ d => d.length == 4096
  | .mapPageReadDone _ _ => true
  | .flushIdleExpiry _ _ => true
  | .flushAgeExpiry _ _ => true
  | .flushRunChosen => true
  | .chunkCut _ => true
  | .fingerprintDone _ => true
  | .lookupSearchDone _ => true
  | .containerPullDone _ es _ => es.all fun e => e.1.length == 32
  | .containerIdleExpiry _ => true
  | .verifyCompareDone _ _ => true
  | .engineSelftestDue k n => engineOk k n
  | .engineSelftestDone k n _ => engineOk k n
  | .engineRetestExpiry k n => engineOk k n
  | .baleEncodeDone _ => true
  | .xtsSealDone _ => true
  | .sealCheckDone _ st wb => st.length % 512 == 0 && decide (st.length ≤ 66048) && wb.length == 128
  | .baleDecodeDone _ => true
  | .decodeOutputFragment _ _ => true
  | .decodeInputFragment _ _ => true
  | .decodeSuspendTimeout _ => true
  | .keyImport c => c.row 0x20
  | .keyGenerate c => c.row 0x21
  | .keyExport c => c.row 0x22
  | .keyErase c => c.row 0x23
  | .keyInfo c => c.row 0x24
  | .keyAttach c => c.row 0x25
  | .keyCmac c => c.row 0x26
  | .vaultRequest r => decide (0 < r.blocks) && r.key.isNone
  | .vaultRequestDone => true
  | .vaultSelftestDue => true
  | .vaultSelftestDone _ => true
  | .vaultRetestExpiry => true
  | .dgStart c => c.getLsbD 31
  | .dgAbort c => !c.getLsbD 31 && c.getLsbD 30
  | .dgCmp c => !c.getLsbD 31 && !c.getLsbD 30 && c.getLsbD 29
  | .dgDataWrite _ => true
  | .dgLastWrite _ => true
  | .digestDone => true
  | .digestCompareDone => true
  | .tamperPin _ => true
  | .voltAlarm _ => true
  | .clockAlarm _ => true
  | .tempAlarm _ => true
  | .vwatchLost => true
  | .trngStartTestsDone _ => true
  | .drbgInstantiated => true
  | .healthTestFail => true
  | .trngRestartExpiry => true
  | .drbgReseedTimer => true
  | .drbgReseedDone => true
  | .drbgGenerate n => decide (n ≤ 65536)
  | .rowhammerReseed => true
  | .mapUpdatePublish _ => true
  | .baleAppend _ => true
  | .stripeIdleExpiry _ => true
  | .stripeProgrammed _ _ _ => true
  | .slcFractionEval _ v c => decide (0 < c) && decide (v ≤ c)
  | .blockVerifyDone _ _ _ _ => true
  | .reclaimVictimChosen _ => true
  | .relocationDone _ => true
  | .segmentDrained _ => true
  | .segmentAllocate _ => true
  | .segmentScanDue _ _ _ => true
  | .nandSuspend _ _ => true
  | .nandMinRunExpiry _ _ => true
  | .nandSuspendExpiry _ _ => true
  | .holdupBudgetEval => true
  | .pwrFailAssert _ => true
  | .quiesceDone => true
  | .flushClassDone => true
  | .flushComplete => true
  | .pwrFailDeassert => true
  | .flushReplay => true
  | .laneSignalDetect _ => true
  | .ts1Received _ b => b.length == 16
  | .ts2Received _ b => b.length == 16
  | .laneTrainTimeout _ => true
  | .laneRetryExpiry _ => true
  | .syncReceived _ => true
  | .skipReceived _ => true
  | .skipInterval _ => true
  | .quietReceived _ => true
  | .mediaClockLaneLoss _ => true
  | .fariumLinkFrame _ _ => true
  | .fariumLinkTimer _ => true
  | .fariumReplayTimeout _ => true
  | .fariumRxSilence _ => true
  | .fariumRead f => f.lenOk
  | .fariumProgram f => f.lenOk
  | .partialProgram f => f.lenOk
  | .fariumErase f => f.lenOk
  | .fariumSuspend f => f.lenOk
  | .fariumResume f => f.lenOk
  | .fariumStatus f => f.lenOk
  | .dieReset f => f.lenOk
  | .paramPush f => f.lenOk
  | .getInfo f => f.lenOk
  | .claim f r => f.lenOk && r.all FarFrame.lenOk
  | .dieOperationDone _ _ _ => true
  | .fariumCompletion _ => true
  | .fariumNotice _ _ _ => true
  | .fariumCommandTimeout _ _ _ => true
  | .dieStatusPoll _ _ _ => true
  | .claimResendTimer => true
  | .takeoverClaimDeadline => true
  | .moduleLostExpiry _ => true
  | .reconstructReadDone _ l => sourcesOk l
  | .baleRebuildDone _ r => decide (r.waybill.length = 128)
  | .jobSegmentStep => true
  | .jobCheckpointTimer => true
  | .pair3PauseDeadline => true
  | .buildBesideStart => true
  | .buildBesideDailyNotice => true
  | .patrolStep _ => true
  | .patrolDailyNotice => true
  | .superblockRead _ p r => decide (512 ≤ p.length) && (r.root.isEmpty || r.root.length == 128)
  | .rootRecorded _ => true
  | .checkpointDue => true
  | .checkpointComplete => true
  | .archiveObjectWrite => true
  | .archiveGranuleWrite => true
  | .archiveGranuleDone _ => true
  | .cgSet c => c.row 0x30
  | .snapCreate c => c.row 0x31
  | .snapCut _ => true
  | .snapComplete _ => true
  | .snapDelete c => c.row 0x32
  | .snapDeleteWalkEnd _ _ => true
  | .snapList c => c.row 0x33
  | .snapExpose c => c.row 0x34
  | .replPair c _ _ => c.row 0x38
  | .replSend c => c.row 0x39
  | .replStop c => c.row 0x3A
  | .replStatus c => c.row 0x3B
  | .ingest c => c.row 0x3C
  | .offer _ a b chunks blocks => decide (a < 2 ^ 64) && decide (b < 2 ^ 64) && offerOk chunks blocks
  | .need _ bits => bits.all fun b => decide (b < 256)
  | .bales _ l => l.all BaleItem.ok
  | .commit _ => true
  | .end_ _ l _ => l.length == 32
  | .endAck _ _ => true
  | .resume _ => true
  | .resumeAt _ b l => decide (b < 2 ^ 32) && decide (l < 2 ^ 64)
  | .replRefuse _ _ => true
  | .replSessionTimeout _ => true
  | .replRetryTimer _ => true
  | .peerLaneLoss n => decide (n < 12)
  | .peerReplayTimeout => true
  | .beatTimer => true
  | .beat _ _ _ _ o sec => decide (o < 2 ^ 16) && decide (sec < 2 ^ 32)
  | .hello _ _ _ _ _ _ _ => true
  | .helloTimeout _ _ _ => true
  | .mirror _ _ lba _ tenant _ b n d => decide (lba < 2 ^ 64) && decide (tenant < 4096) && decide (b < n) && d.length == 4096
  | .mirrorAck _ _ lba _ => decide (lba < 2 ^ 64)
  | .release _ _ lba _ => decide (lba < 2 ^ 64)
  | .settle _ t _ _ _ c => decide (t < 4096) && decide (c < 2 ^ 16)
  | .relay _ _ _ _ => true
  | .granule _ _ _ _ _ _ _ => true
  | .ref _ _ _ => true
  | .jobcopy _ _ _ => true
  | .sync _ _ => true
  | .pairFault _ _ => true
  | .handover _ => true
  | .powerLoss _ _ => true
  | .flushDone _ => true
  | .powerLossClaimDeadline => true
  | .returnReq _ _ => true
  | .returnReqTimer => true
  | .returnGrant _ => true
  | .moduleRelease _ _ => true
  | .handbackDone _ => true
  | .stale _ _ => true
  | .heartbeatLoss => true
  | .confirmDeadline _ => true
  | .splitYield => true
  | .splitLossDeadline => true
  | .peerAliveInFall _ => true
  | .lockstepMismatch _ => true
  | .pairRestart _ => true
  | .pairReturnDeadline _ => true
  | .wdogWrite _ => true
  | .wdogLapse => true
  | .roleSwapDue => true
  | .roceSendReceived p => p.ok
  | .roceAckReceived q n _ _ => num24 q && num24 n
  | .rnrNakReceived q => num24 q
  | .ackTimeout q => num24 q
  | .roceReadWriteRequest p => p.ok
  | .atomicRequest p _ a _ _ _ => p.ok && decide (a < 2 ^ 64)
  | .rdmaRuleChange _ => true
  | .ruleChangeTimeout => true
  | .rateIdleReset q => num24 q
  | .connect m => num24 m.qpn && num24 m.psn && m.arrayId.length == 16
  | .accept m => num24 m.qpn && num24 m.psn && m.arrayId.length == 16
  | .reject m => num24 m.qpn && num24 m.psn && m.arrayId.length == 16
  | .caravanRelease _ q _ _ => num24 q
  | .caravanElementDone _ _ _ => true
  | .caravanCancel _ => true
  | .announceTimer => true
  | .announceReceived a => a.fedId.length == 5
  | .pathExpiry _ _ => true
  | .relayReq _ _ _ _ _ c _ => c.dlist == []
  | .relayRsp _ _ _ _ _ _ _ => true
  | .relayRefuse _ _ _ _ => true
  | .relayTimeout _ => true
  | .chainLinkSilent _ => true
  | .chainBreak _ => true
  | .chainBreakTimer _ => true
  | .chainPortQualify _ => true
  | .chainLinkOk _ => true
  | .elect _ _ _ => true
  | .electTimer => true
  | .masterTimeout => true
  | .enum _ _ _ _ f _ => f.length == 5
  | .enumTimeout => true
  | .table _ _ _ _ f l => f.length == 5 && l.length == 8
  | .tableRebroadcastTimer => true
  | .join _ _ _ => true
  | .joinTimer => true
  | .joinAck _ _ _ => true
  | .duplicate _ _ _ _ => true
  | .reenumDelayExpiry => true
  | .query _ r _ => r.length == 8
  | .time _ _ _ _ _ => true
  | .timeTimer _ => true
  | .fedTimeInfoTimer => true
  | .epoch _ _ _ _ _ => true
  | .epochTimer => true
  | .dramTempReading t => t.length == 12 && t.all fun x => match x with
    | some n => decide (-128 ≤ n) && decide (n ≤ 127)
    | none => true
  | .dramRequest r => r.line / 4 % 12 == r.channel.val && (!r.write || r.data.length == 64)
  | .refreshDue _ _ _ => true
  | .scrubStep _ _ => true
  | .eventOffered e => decide (e.payload.length ≤ 40)
  | .secondBoundary => true
  | .sequenceBaseSet => true
  | .norRecordProgramDone => true
  | .evrReadRequest _ _ => true
  | .dweunoHello f => f.row 0x01
  | .svcReset f => f.row 0x02
  | .profileSelect f => f.row 0x03
  | .profileWrite f => f.row 0x04
  | .stageBegin f => f.row 0x10
  | .stageData f => f.row 0x11
  | .stageEnd f => f.row 0x12
  | .activate f => f.row 0x13
  | .eventRead f media => f.row 0x20 && media.all fun m => m.length == 64
  | .keyset f => f.row 0x28
  | .tamperClear f => f.row 0x29
  | .reshape f => f.row 0x30
  | .reEnumerate f => f.row 0x31
  | .testEntry f => f.row 0x32
  | .debugAccess f => f.row 0x33
  | .dramSweep f maps => f.row 0x38 && maps.all fun m => m.length == 16
  | .fuse f => f.row 0x3F
  | .junctionSensorRead t => t.length == 16 && t.all fun n => decide (-128 ≤ n) && decide (n ≤ 127)
  | .thermtripDeadline => true
  | .supplyFall => true
  | .ethernetLinkChange _ _ => true
  | .chainBadFrame _ _ => true
  | .dweunoUnlistedFrame f => f.ok && !listedFrames.contains f.type.toNat
  | .svcRxLockChange _ => true
  | .peerStagingLimit _ _ => true
  | .federatedTenantMessage _ _ _ _ => true
  | .fetchUrCaCompletion _ _ _ => true

end Sys2Proof
end

