-- ==== Sys2Proof/Machine/Ops.lean ====
section
/-! DEFINITION. The named operations that every meaning is written over: how a command runs, sparse tables and memory
cells in canonical form, byte strings, outputs, free values and the time of the watch domain. -/

namespace Sys2Proof.Machine

/-- The outcome of a command. -/
abbrev Res := Host.Outcome State Fault Refusal

/-- A well-formed command clears what the last command drove outward and has its effect; an operand that no such
event can carry stops the model. -/
@[inline] def run (i : Instr) (f : State → State) (s : State) : Res :=
  if i.wf then .next (f { s with out := [] }) else .fault (.illFormed "operand outside its field")

/-- Apply an update for each element, first element first. -/
def forEach {α : Type} (xs : List α) (f : α → State → State) (s : State) : State :=
  xs.foldl (fun t x => f x t) s

/-- Apply an update when a condition holds. -/
def onlyIf (b : Bool) (f : State → State) (s : State) : State := if b then f s else s

/-- Apply an update for the value of an option, when there is one. -/
def forSome {α : Type} (o : Option α) (f : α → State → State) (s : State) : State :=
  match o with
  | some x => f x s
  | none => s

/-! ### Sparse tables and memory cells -/

/-- The value of key `n` in a table whose unlisted keys hold `d`. -/
def tabGet {α : Type} (d : α) (n : Nat) : Tab α → α
  | [] => d
  | (k, v) :: t => if k = n then v else tabGet d n t

/-- Set key `n`, keeping the keys rising and listing no default value. -/
def tabPut {α : Type} [DecidableEq α] (d : α) (n : Nat) (v : α) : Tab α → Tab α
  | [] => if v = d then [] else [(n, v)]
  | (k, w) :: t =>
    if k = n then (if v = d then t else (n, v) :: t)
    else if n < k then (if v = d then (k, w) :: t else (n, v) :: (k, w) :: t)
    else (k, w) :: tabPut d n v t

/-- Change key `n` by a function. -/
def tabMod {α : Type} [DecidableEq α] (d : α) (n : Nat) (f : α → α) (t : Tab α) : Tab α :=
  tabPut d n (f (tabGet d n t)) t

/-- The canonical form: keys strictly rising from `lo`, and no entry equal to the default. -/
def tabWfFrom {α : Type} [DecidableEq α] (d : α) (lo : Nat) : Tab α → Bool
  | [] => true
  | (k, v) :: t => decide (lo ≤ k) && decide (v ≠ d) && tabWfFrom d (k + 1) t

def tabWf {α : Type} [DecidableEq α] (d : α) (t : Tab α) : Bool := tabWfFrom d 0 t

/-- A NOR byte that nothing has programmed is erased (DESIGN CHOICE: the contents of the part as it is fitted). -/
def norDefault : Byte := 0xFF

/-- A DRAM byte that nothing has written (DESIGN CHOICE). -/
def dramDefault : Byte := 0

/-- The canonical form of a memory. -/
def Memory.wf (d : Byte) (m : List Host.Cell) : Bool := tabWf d m

/-- One byte of a memory. -/
def cellRead (d : Byte) (m : List Host.Cell) (a : Nat) : Byte := tabGet d a m

/-- `n` bytes of a memory from address `a`. -/
def cellsRead (d : Byte) (m : List Host.Cell) (a n : Nat) : Bytes :=
  (List.range n).map fun i => cellRead d m (a + i)

/-- Write a byte string at address `a`. -/
def cellsWrite (d : Byte) : Bytes → Nat → List Host.Cell → List Host.Cell
  | [], _, m => m
  | b :: bs, a, m => cellsWrite d bs (a + 1) (tabPut d a b m)

/-- Fill `n` bytes from address `a` with one value (the erase of a NOR sector leaves 0xFF). -/
def cellsClear (a n : Nat) (m : List Host.Cell) : List Host.Cell :=
  m.filter fun c => c.1 < a || a + n ≤ c.1

/-! ### Byte strings, little-endian (R11) -/

/-- The `k` bytes of a number, least significant first. -/
def leBytes (k n : Nat) : Bytes := (List.range k).map fun i => BitVec.ofNat 8 (n >>> (8 * i))

/-- The number that a little-endian byte string spells. -/
def leNat (b : Bytes) : Nat := b.foldr (fun x n => x.toNat + 256 * n) 0

/-- `n` bytes from offset `a`, with zeros past the end. -/
def bytesAt (b : Bytes) (a n : Nat) : Bytes := (b.drop a ++ List.replicate n 0).take n

/-- A byte string cut or zero-filled to `n` bytes. -/
def padTo (n : Nat) (b : Bytes) : Bytes := bytesAt b 0 n

/-- The little-endian number of `n` bytes at an offset. -/
def numAt (b : Bytes) (a n : Nat) : Nat := leNat (bytesAt b a n)

def zeros (n : Nat) : Bytes := List.replicate n 0

/-- A counter that stops at its highest value. -/
def satAdd (top n k : Nat) : Nat := if n + k ≤ top then n + k else top

/-- Bits `hi` to `lo` of a number. -/
def bitsOf (n hi lo : Nat) : Nat := (n >>> lo) % 2 ^ (hi + 1 - lo)

def bitOf (n i : Nat) : Bool := n.testBit i

/-- A field of a register word. -/
def field (n lo : Nat) : Nat := n <<< lo

/-- A flag of a register word. -/
def flag (b : Bool) (i : Nat) : Nat := if b then 2 ^ i else 0

/-! ### Lists -/

/-- The first element that meets a test, changed; the others as they are. -/
def modFirst {α : Type} (p : α → Bool) (f : α → α) : List α → List α
  | [] => []
  | x :: xs => if p x then f x :: xs else x :: modFirst p f xs

/-- Every element that meets a test, changed. -/
def modAll {α : Type} (p : α → Bool) (f : α → α) (xs : List α) : List α :=
  xs.map fun x => if p x then f x else x

/-- Without the elements that meet a test. -/
def without {α : Type} (p : α → Bool) (xs : List α) : List α := xs.filter fun x => !p x

/-- Add a number to a set held as a list without repeats. -/
def insertNat (n : Nat) (xs : List Nat) : List Nat := if n ∈ xs then xs else xs ++ [n]

/-- An element before the first that it may stand before. -/
def insertBy {α : Type} (le : α → α → Bool) (x : α) : List α → List α
  | [] => [x]
  | y :: ys => if le x y then x :: y :: ys else y :: insertBy le x ys

/-- A list in order, equal elements as they stood. -/
def sortBy {α : Type} (le : α → α → Bool) (l : List α) : List α := l.foldr (insertBy le) []

def sumBy {α : Type} (f : α → Nat) (xs : List α) : Nat := xs.foldl (fun n x => n + f x) 0

/-- The lowest number of `lo`, `lo + 1`, … (`fuel` of them) that is not listed. -/
def lowestFree (used : List Nat) : Nat → Nat → Option Nat
  | 0, _ => none
  | fuel + 1, lo => if lo ∈ used then lowestFree used fuel (lo + 1) else some lo

/-! ### Outputs, free values, time -/

/-- Drive something outward. -/
def emit (o : Output) (s : State) : State := { s with out := s.out ++ [o] }

/-- The next free value below `bound` (0 when `bound` is 0), for a choice that the spec does not make. -/
def freePick (bound : Nat) (s : State) : Nat := if bound ≤ 1 then 0 else Config.freeNat s.freeCtr % bound

/-- The next `n` (at most 32) free bytes. -/
def freeBytes (n : Nat) (s : State) : Bytes := leBytes n (Config.freeValue s.freeCtr).toNat

/-- `n` free bytes, 32 from each free value from the counter on. -/
def freeLong (n : Nat) (s : State) : Bytes :=
  (List.range n).map fun i => BitVec.ofNat 8 ((Config.freeValue (s.freeCtr + i / 32)).toNat >>> (8 * (i % 32)))

/-- Advance past the free values of `n` bytes. -/
def tickLong (n : Nat) (s : State) : State := { s with freeCtr := s.freeCtr + n / 32 + 1 }

/-- Advance past a free value. -/
def tick (s : State) : State := { s with freeCtr := s.freeCtr + 1 }

/-- Operating seconds and power cycles as a record takes them: all ones while WCH.STATUS.VALID is 0 (R398). -/
def stampSeconds (s : State) : Word32 := if s.wch.valid then BitVec.ofNat 32 s.wch.opSeconds else 0xFFFFFFFF
def stampCycles (s : State) : Word32 := if s.wch.valid then BitVec.ofNat 32 s.wch.powerCycles else 0xFFFFFFFF

/-- Operating seconds now. -/
def nowS (s : State) : Nat := s.wch.opSeconds

/-- The service states in which host commands are served at all (R58, R93). -/
def inService (s : State) : Bool :=
  s.glb.service == .normal || s.glb.service == .recovery || s.glb.service == .test

/-- A port's state, and its update. -/
def portOf (s : State) (p : Fin 2) : Port := if p = 0 then s.hep.port0 else s.hep.port1

def modPort (p : Fin 2) (f : Port → Port) (s : State) : State :=
  if p = 0 then { s with hep := { s.hep with port0 := f s.hep.port0 } }
  else { s with hep := { s.hep with port1 := f s.hep.port1 } }

/-- The number of a source block (R13). -/
def blkNo : Blk → Nat
  | .glb => 0 | .clk => 1 | .hep => 2 | .hqe => 3 | .ing => 4 | .bal => 5 | .sec => 6 | .med => 7 | .par => 8
  | .drc => 9 | .peer => 10 | .rdm => 11 | .mch => 12 | .evr => 13 | .svc => 14 | .nvc => 15 | .wch => 16

/-- The number of a severity (R394). -/
def sevNo : Sev → Nat
  | .info => 0 | .notice => 1 | .fault => 2 | .critical => 3

end Sys2Proof.Machine
end

