-- ==== Sys2Proof/Machine/Codes.lean ====
section
/-! DEFINITION. Check codes and field arithmetic: CRC-32C (R148), and GF(2^8) with the Q coefficients (R262). -/

namespace Sys2Proof.Machine

/-- One bit of a reflected CRC with polynomial `poly`. -/
def crcBit (poly c : Nat) : Nat := if c % 2 = 1 then (c >>> 1) ^^^ poly else c >>> 1

def iter (n : Nat) (f : Nat → Nat) (x : Nat) : Nat :=
  match n with
  | 0 => x
  | k + 1 => iter k f (f x)

/-- One byte into the CRC-32C register (reflected, polynomial 0x1EDC6F41, R148). -/
def crcByte (c : Nat) (b : Byte) : Nat := iter 8 (crcBit 0x82F63B78) (c ^^^ b.toNat)

/-- CRC-32C: initial value and final XOR 0xFFFF_FFFF (R148). -/
def crc32c (b : Bytes) : Nat := (b.foldl crcByte 0xFFFFFFFF) ^^^ 0xFFFFFFFF

/-- A byte string followed by its CRC-32C. -/
def withCrc (b : Bytes) : Bytes := b ++ leBytes 4 (crc32c b)

/-- The last four bytes of a string are the CRC-32C of the bytes before them. -/
def crcOk (b : Bytes) : Bool := 4 ≤ b.length && numAt b (b.length - 4) 4 == crc32c (b.take (b.length - 4))

/-- Multiplication by x in GF(2^8) with x^8 + x^4 + x^3 + x^2 + 1 (R262). -/
def gfX (a : Nat) : Nat := if a < 128 then 2 * a else (2 * a % 256) ^^^ 0x1D

/-- Product in GF(2^8), over the eight bits of the second factor. -/
def gfMulAux : Nat → Nat → Nat → Nat
  | 0, _, _ => 0
  | k + 1, a, b => (if b % 2 = 1 then a else 0) ^^^ gfMulAux k (gfX a) (b / 2)

def gfMul (a b : Nat) : Nat := gfMulAux 8 a b

/-- The power 0x02^e. -/
def gfPow (e : Nat) : Nat := iter e gfX 1

/-- The inverse of a non-zero element: its 254th power. -/
def gfInv (a : Nat) : Nat := iter 253 (fun x => gfMul x a) a

/-- XOR of two byte strings, the shorter taken as zero-filled. -/
def xorBytes : Bytes → Bytes → Bytes
  | [], b => b
  | a, [] => a
  | x :: xs, y :: ys => (x ^^^ y) :: xorBytes xs ys

/-- A byte string times a constant. -/
def gfScale (k : Nat) (b : Bytes) : Bytes := b.map fun x => BitVec.ofNat 8 (gfMul k x.toNat)

end Sys2Proof.Machine
end

