-- ==== Sys2Proof/Machine/BaleCode.lean ====
section
/-! DEFINITION. The Bale's alphabets, prefix codes and bit stream (R149, R151 to R154). -/

namespace Sys2Proof.Machine

/-! ### Alphabets (the tables of R149) -/

/-- Base length and number of extra bits of match length code `k`, symbol 257 + k. -/
def lenCode (k : Nat) : Nat × Nat :=
  if k < 4 then (4 + k, 0) else ((4 + k % 4) <<< (k / 4 - 1) + 4, k / 4 - 1)

/-- Base and extra bits of run length code `k`, symbol 293 + k. -/
def runCode (k : Nat) : Nat × Nat := if k < 14 then (2 ^ (k + 2), k + 2) else (65536, 0)

/-- Base and extra bits of distance code `c`. -/
def distCode (c : Nat) : Nat × Nat :=
  if c < 4 then (c + 1, 0) else (2 ^ (c / 2) + 1 + c % 2 * 2 ^ (c / 2 - 1), c / 2 - 1)

/-- The last of `n` codes whose base is at most a value. -/
def codeFor (base : Nat → Nat) (v : Nat) : Nat → Nat
  | 0 => 0
  | n + 1 => if base n ≤ v then n else codeFor base v n

/-! ### Prefix codes (R151, R152) -/

def staticMain : List Nat :=
  List.replicate 256 9 ++ [7] ++ List.replicate 12 6 ++ List.replicate 39 7

def staticDist : List Nat := List.replicate 32 5

/-- How many symbols have a length. -/
def countLen (l : Nat) (lens : List Nat) : Nat := (lens.filter fun x => x == l).length

/-- The first code word of length `l` (R151). -/
def firstWord (lens : List Nat) : Nat → Nat
  | 0 => 0
  | l + 1 => 2 * (firstWord lens l + if l = 0 then 0 else countLen l lens)

/-- The code word of a symbol. -/
def codeWord (lens : List Nat) (sym : Nat) : Nat :=
  firstWord lens (lens.getD sym 0) + countLen (lens.getD sym 0) (lens.take sym)

/-- The `k`-th symbol, from `sym` on, that has a length. -/
def symbolAt (l : Nat) : List Nat → Nat → Nat → Nat
  | [], sym, _ => sym
  | x :: xs, sym, k => if x = l then (if k = 0 then sym else symbolAt l xs (sym + 1) (k - 1)) else symbolAt l xs (sym + 1) k

/-- The sum of 2^(15 - L) over the symbols present. -/
def kraft (lens : List Nat) : Nat := sumBy (fun l => if l = 0 then 0 else 2 ^ (15 - l)) lens

def codeComplete (lens : List Nat) : Bool := kraft lens == 2 ^ 15

/-- A single code of length 1. -/
def codeSingle (lens : List Nat) : Bool := (lens.filter fun l => l != 0) == [1]

def codeEmpty (lens : List Nat) : Bool := lens.all fun l => l == 0

/-! ### Reading the bit stream (R149) -/

/-- The bits of a byte string, each byte from bit 0 upward. -/
def bitsOfBytes (b : Bytes) : List Bool := b.flatMap fun x => (List.range 8).map fun i => x.getLsbD i

/-- The answer of a reader: a value with the bits left, too few bits, or a pattern that the format does not allow. -/
inductive Rd (α : Type) where
  | ok (a : α) (rest : List Bool)
  | short
  | bad
  deriving DecidableEq, Repr

/-- Read on with what has been read. -/
def readThen {α β : Type} (r : Rd α) (f : α → List Bool → Rd β) : Rd β :=
  match r with
  | .ok a b => f a b
  | .short => .short
  | .bad => .bad

/-- A field of `n` bits, least significant bit first. -/
def readField : Nat → List Bool → Rd Nat
  | 0, b => .ok 0 b
  | _ + 1, [] => .short
  | n + 1, x :: b => readThen (readField n b) fun v r => .ok ((if x then 1 else 0) + 2 * v) r

/-- One symbol: a word of `len` bits so far holds `code`, and `first` is the first word of length `len + 1`. -/
def readSymAux (lens : List Nat) : Nat → Nat → Nat → Nat → List Bool → Rd Nat
  | 0, _, _, _, _ => .bad
  | _ + 1, _, _, _, [] => .short
  | f + 1, len, code, first, x :: b =>
    let c := 2 * code + if x then 1 else 0
    let n := countLen (len + 1) lens
    if c < first + n then .ok (symbolAt (len + 1) lens 0 (c - first)) b
    else readSymAux lens f (len + 1) c (2 * (first + n)) b

def readSym (lens : List Nat) (b : List Bool) : Rd Nat := readSymAux lens (lens.foldl max 0) 0 0 0 b

/-! ### The table description (R153, R154) -/

def clOrder : List Nat := [16, 17, 18, 0, 8, 7, 9, 6, 10, 5, 11, 4, 12, 3, 13, 2, 14, 1, 15]

/-- The code-length-code lengths by symbol. -/
def clLens (sent : List Nat) : List Nat :=
  (List.range 19).map fun s => sent.getD (clOrder.idxOf s) 0

/-- The code-length-code lengths that have been sent, refused once all are there and form no code (R154). -/
def tblSent (t : TblState) (nc v : Nat) : Option TblState :=
  let l := t.sent ++ [v]
  if l.length < nc + 4 || codeComplete (clLens l) || codeSingle (clLens l) then some { t with sent := l } else none

/-- `n` equal code lengths more; beyond `target` they are refused. -/
def tblAdd (target : Nat) (t : TblState) (n v : Nat) (r : List Bool) : Rd TblState :=
  if target < t.lens.length + n then .bad else .ok { t with lens := t.lens ++ List.replicate n v } r

/-- One symbol of the code-length alphabet with its extra bits. -/
def tblLen (target : Nat) (t : TblState) (b : List Bool) : Rd TblState :=
  readThen (readSym (clLens t.sent) b) fun y r =>
    if y < 16 then tblAdd target t 1 y r
    else if y = 16 then
      (match t.lens.getLast? with
        | none => .bad
        | some p => readThen (readField 2 r) fun v q => tblAdd target t (3 + v) p q)
    else if y = 17 then readThen (readField 3 r) fun v q => tblAdd target t (3 + v) 0 q
    else readThen (readField 7 r) fun v q => tblAdd target t (11 + v) 0 q

/-- How many code lengths a description sends. -/
def tblTarget (t : TblState) : Nat := t.nm.getD 0 + 257 + t.nd.getD 0 + 1

/-- The next field of a table description (R153), from the position that has been reached. -/
def tblStep (t : TblState) (b : List Bool) : Rd TblState :=
  match t.nm, t.nd, t.nc with
  | none, _, _ => readThen (readField 6 b) fun v r => if 51 < v then .bad else .ok { t with nm := some v } r
  | some _, none, _ => readThen (readField 5 b) fun v r => .ok { t with nd := some v } r
  | some _, some _, none => readThen (readField 4 b) fun v r => .ok { t with nc := some v } r
  | some _, some _, some nc =>
    if t.sent.length < nc + 4 then
      readThen (readField 3 b) fun v r => (match tblSent t nc v with
        | some u => .ok u r
        | none => .bad)
    else tblLen (tblTarget t) t b

/-- Has the whole description been read? -/
def tblDone (t : TblState) : Bool := t.nc.isSome && decide (tblTarget t ≤ t.lens.length)

/-- The main and distance code lengths of a description, unless R154 refuses them. -/
def tblCodes (t : TblState) : Option (List Nat × List Nat) :=
  let m := t.nm.getD 0 + 257
  let main := t.lens.take m ++ List.replicate (308 - m) 0
  let dist := t.lens.drop m ++ List.replicate (31 - t.nd.getD 0) 0
  if main.getD 256 0 = 0 || !codeComplete main || !(codeComplete dist || codeSingle dist || codeEmpty dist) then none
  else some (main, dist)

/-- A description from a position on; `n` bounds its fields. -/
def tblLoop : Nat → TblState → List Bool → Rd (List Nat × List Nat)
  | 0, _, _ => .bad
  | n + 1, t, b =>
    if tblDone t then
      (match tblCodes t with
        | some l => .ok l b
        | none => .bad)
    else readThen (tblStep t b) fun u r => tblLoop n u r

/-- The main and distance code lengths of a DYNAMIC Bale: three counts, 19 lengths and 340 code lengths at most. -/
def readTables (b : List Bool) : Rd (List Nat × List Nat) := tblLoop 364 {} b

/-! ### Tokens -/

inductive Token where
  | lit (b : Byte)
  | copy (n d : Nat)
  | run (n : Nat) (b : Byte)
  | stop
  deriving DecidableEq, Repr

/-- A base with its extra bits. -/
def readExtra (c : Nat × Nat) (b : List Bool) : Rd Nat := readThen (readField c.2 b) fun v r => .ok (c.1 + v) r

/-- One token; a match symbol is refused when the distance code is empty (R155). -/
def readToken (main dist : List Nat) (b : List Bool) : Rd Token :=
  readThen (readSym main b) fun y r =>
    if y < 256 then .ok (.lit (BitVec.ofNat 8 y)) r
    else if y = 256 then .ok .stop r
    else if y < 293 then
      (if codeEmpty dist then .bad
       else readThen (readExtra (lenCode (y - 257)) r) fun n r =>
        readThen (readSym dist r) fun c r => readThen (readExtra (distCode c) r) fun d r => .ok (.copy n d) r)
    else readThen (readExtra (runCode (y - 293)) r) fun n r =>
      readThen (readField 8 r) fun v r => .ok (.run n (BitVec.ofNat 8 v)) r

/-! ### Writing the bit stream -/

/-- A field, least significant bit first. -/
def fieldBits (n v : Nat) : List Bool := (List.range n).map fun i => v.testBit i

/-- A code word, most significant bit first. -/
def wordBits (n v : Nat) : List Bool := (fieldBits n v).reverse

def symBits (lens : List Nat) (s : Nat) : List Bool := wordBits (lens.getD s 0) (codeWord lens s)

/-- A value as its extra bits over a base. -/
def extraBits (c : Nat × Nat) (v : Nat) : List Bool := fieldBits c.2 (v - c.1)

def lenIndex (n : Nat) : Nat := codeFor (fun k => (lenCode k).1) n 36
def runIndex (n : Nat) : Nat := codeFor (fun k => (runCode k).1) n 15
def distIndex (d : Nat) : Nat := codeFor (fun k => (distCode k).1) d 32

def mainSym : Token → Nat
  | .lit b => b.toNat
  | .stop => 256
  | .copy n _ => 257 + lenIndex n
  | .run n _ => 293 + runIndex n

def distSym : Token → Option Nat
  | .copy _ d => some (distIndex d)
  | _ => none

def tokenBits (main dist : List Nat) (t : Token) : List Bool :=
  symBits main (mainSym t) ++ (match t with
    | .copy n d => extraBits (lenCode (lenIndex n)) n ++ symBits dist (distIndex d) ++ extraBits (distCode (distIndex d)) d
    | .run n b => extraBits (runCode (runIndex n)) n ++ fieldBits 8 b.toNat
    | _ => [])

/-- A bit stream padded with 0 bits to whole bytes. -/
def packBits : Nat → List Bool → Bytes
  | 0, _ => []
  | n + 1, b =>
    BitVec.ofNat 8 ((List.range 8).foldl (fun v i => if b.getD i false then v + 2 ^ i else v) 0) :: packBits n (b.drop 8)

def streamBytes (b : List Bool) : Bytes := packBits ((b.length + 7) / 8) b

end Sys2Proof.Machine
end

