-- ==== Sys2Proof/Machine/BaleDec.lean ====
section
/-! DEFINITION. The decompressor: decoding with suspension and resume (R145 to R150, R155, R161). A decoder holds its
output newest byte first. -/

namespace Sys2Proof.Machine

/-- Fail with a status. -/
def decFail (st : Word16) (d : DecState) : DecState := { d with step := .done, result := some st }

/-- Append one byte. -/
def decPush (b : Byte) (d : DecState) : DecState :=
  { d with out := d.out + 1, history := b :: d.history, crc := BitVec.ofNat 32 (crcByte d.crc.toNat b) }

/-- The check of R148 against the trailer and, for a stored chunk, against the Waybill's value. -/
def decCrc (trailer : Nat) (wcrc : Option Nat) (d : DecState) : DecState :=
  let c := d.crc.toNat ^^^ 0xFFFFFFFF
  if c = trailer ∧ (∀ w ∈ wcrc, c = w) then { d with step := .done, result := some 0 } else decFail 0x3003 d

/-- What a decode step needs beside the state: original length, whether every body bit has arrived, whether the trailer
has, its value, the Waybill's CRC, and the output space granted so far. -/
structure DecInput where
  orig    : Nat
  bodyIn  : Bool
  allIn   : Bool
  trailer : Nat
  wcrc    : Option Nat
  space   : Nat
  deriving DecidableEq, Repr

/-- What follows one step of decoding: on with the bits left, or a stop (finished, or suspended). -/
inductive DecGo where
  | on (rest : List Bool) (d : DecState)
  | halt (d : DecState)
  deriving DecidableEq, Repr

/-- The end of the token stream: padding, the place of its end, and the CRC (R149, R155). -/
def decEnd (c : DecInput) (rest : List Bool) (d e : DecState) : DecGo :=
  let pad := (8 - e.inBit % 8) % 8
  if d.out < c.orig then .halt (decFail 0x3012 d)
  else if (rest.take pad).any id then .halt (decFail 0x3010 d)
  else if !c.bodyIn || !(rest.drop pad).isEmpty then .halt (decFail 0x3010 d)
  else if !c.allIn then .halt d
  else .halt (decCrc c.trailer c.wcrc { e with inBit := e.inBit + pad })

/-- One token, with the checks of R155 in their order; a missing bit is an error only at the end of the Bale. -/
def decToken (c : DecInput) (bits : List Bool) (d : DecState) : DecGo :=
  match readToken d.mainLen d.distLen bits with
  | .bad => .halt (decFail 0x3010 d)
  | .short => .halt (if c.bodyIn then decFail 0x3010 d else d)
  | .ok t rest =>
    let e := { d with inBit := d.inBit + (bits.length - rest.length) }
    match t with
    | .lit b =>
      if d.out = c.orig then .halt (decFail 0x3012 d)
      else if c.space ≤ d.out then .halt d
      else .on rest (decPush b e)
    | .copy n k =>
      if d.out < k then .halt (decFail 0x3011 d)
      else if c.orig - d.out < n then .halt (decFail 0x3012 d)
      else .on rest { e with step := .match_, rem := n, dist := k }
    | .run n b =>
      if c.orig - d.out < n then .halt (decFail 0x3013 d)
      else .on rest { e with step := .run, rem := n, runByte := b }
    | .stop => decEnd c rest d e

/-- One byte of a match or a run, or its end. -/
def decByte (c : DecInput) (bits : List Bool) (b : Byte) (d : DecState) : DecGo :=
  if d.rem = 0 then .on bits { d with step := .token }
  else if c.space ≤ d.out then .halt d
  else .on bits (decPush b { d with rem := d.rem - 1 })

/-- A field of the table description has been read: on with the next, or, when it was the last, with the tokens. -/
def tblNext (t : TblState) (rest : List Bool) (d : DecState) : DecGo :=
  if !tblDone t then .on rest d
  else
    match tblCodes t with
    | some l => .on rest { d with step := .token, mainLen := l.1, distLen := l.2 }
    | none => .halt (decFail 0x3010 d)

/-- What a stopped decoder keeps of the bits it has fetched: those after the last one consumed (R161); nothing once it has a result. -/
def keepFetched (bits : List Bool) (d : DecState) : DecState :=
  if d.result.isSome then { d with acc := 0, accBits := 0 }
  else
    let l := bits.take 64
    { d with acc := BitVec.ofNat 64 ((List.range l.length).foldl (fun v i => if l.getD i false then v + 2 ^ i else v) 0), accBits := l.length }

def decStep (c : DecInput) (bits : List Bool) (d : DecState) : DecGo :=
  match d.step with
  | .done => .halt d
  | .table =>
    match tblStep d.tbl bits with
    | .bad => .halt (decFail 0x3010 d)
    | .short => .halt (if c.bodyIn then decFail 0x3010 d else d)
    | .ok t rest => tblNext t rest { d with tbl := t, inBit := d.inBit + (bits.length - rest.length) }
  | .token => decToken c bits d
  | .match_ => decByte c bits (d.history.getD (d.dist - 1) 0) d
  | .run => decByte c bits d.runByte d

def decLoop (c : DecInput) : Nat → List Bool → DecState → DecState
  | 0, _, d => d
  | f + 1, bits, d =>
    match decStep c bits d with
    | .halt e => keepFetched bits e
    | .on rest e => decLoop c f rest e

/-- RAW (R147): bytes are copied as they arrive and as space allows. -/
def decRaw (c : DecInput) (body : Bytes) (d : DecState) : DecState :=
  let e := ((body.drop d.out).take (c.space - d.out)).foldl (fun x b => decPush b x) d
  if e.out = c.orig && c.allIn then decCrc c.trailer c.wcrc e else e

/-- The header fault of R146 in the first eight bytes, with the length from outside. -/
def headerFault (b : Bytes) (lb : Nat) : Bool :=
  numAt b 0 1 != 0xBA || numAt b 1 1 != 1 || decide (2 < numAt b 2 1) || numAt b 3 1 != 0 || numAt b 4 4 == 0
    || decide (65536 < numAt b 4 4) || decide (lb < 13)

/-- Decode as far as the input that has arrived and the space granted allow. -/
def decRun (lb space : Nat) (input : Bytes) (wcrc : Option Nat) (d : DecState) : DecState :=
  if d.result.isSome then d
  else if lb < 13 then decFail 0x3010 d
  else if input.length < 8 then d
  else if headerFault input lb then decFail 0x3010 d
  else
    let orig := numAt input 4 4
    let mode := numAt input 2 1
    let body := (input.take (lb - 4)).drop 8
    let c : DecInput := ⟨orig, decide (lb - 4 ≤ input.length), decide (lb ≤ input.length), numAt input (lb - 4) 4, wcrc, space⟩
    if mode = 0 then (if lb = orig + 12 then decRaw c body d else decFail 0x3012 d)
    else
      let bits := (bitsOfBytes body).drop d.inBit
      let d := if mode = 1 && d.step == .table then { d with step := .token, mainLen := staticMain, distLen := staticDist } else d
      decLoop c (2 * bits.length + orig + 2) bits d

/-- A whole Bale decoded: its status and its original. -/
def decodeBale (bale : Bytes) (wcrc : Option Nat) : Word16 × Bytes :=
  let d := decRun bale.length 65536 bale wcrc {}
  (d.result.getD 0x3010, d.history.reverse)

end Sys2Proof.Machine
end

