-- ==== Sys2Proof/Machine/BaleEnc.lean ====
section
/-! DEFINITION. The Bale encoder (R145 to R149, R158 to R160). -/

namespace Sys2Proof.Machine

/-! ### Runs and candidates (R159) -/

/-- The number of leading bytes equal to `b`. -/
def sameAs (b : Byte) : Bytes → Nat
  | [] => 0
  | x :: xs => if x = b then 1 + sameAs b xs else 0

/-- The run at the head of the rest of the original: at least 16 equal bytes, 65,536 at most. -/
def runAt (r : Bytes) : Option (Nat × Byte) :=
  match r with
  | [] => none
  | b :: _ => if 16 ≤ sameAs b r then some (min (sameAs b r) 65536, b) else none

/-- Equal leading bytes of two strings, `n` at most. -/
def commonLen : Nat → Bytes → Bytes → Nat
  | 0, _, _ => 0
  | n + 1, x :: xs, y :: ys => if x = y then 1 + commonLen n xs ys else 0
  | _ + 1, _, _ => 0

/-- Earlier positions as candidates, the most recent first: position, and the original from there on. -/
abbrev Earlier := List (Nat × Bytes)

/-- The `k` most recent candidates for the rest `r`: those whose four bytes are equal. -/
def candidates (r : Bytes) : Nat → Earlier → Earlier
  | 0, _ => []
  | _ + 1, [] => []
  | k + 1, p :: ps => if commonLen 4 p.2 r = 4 then p :: candidates r k ps else candidates r (k + 1) ps

/-- The best match: length and distance, the longest, and the one examined first among equals. -/
def bestMatch (k i : Nat) (r : Bytes) (prev : Earlier) : Option (Nat × Nat) :=
  if r.length < 4 then none
  else (candidates r k prev).foldl (fun best p =>
    let n := commonLen 1027 p.2 r
    match best with
    | none => some (n, i - p.1)
    | some b => if b.1 < n then some (n, i - p.1) else best) none

/-- `n` bytes are coded: their positions become candidates, while four bytes are left. -/
def advance : Nat → Nat → Bytes → Earlier → Nat × Bytes × Earlier
  | 0, i, r, prev => (i, r, prev)
  | _ + 1, i, [], prev => (i, [], prev)
  | n + 1, i, b :: r, prev => advance n (i + 1) r (if 3 ≤ r.length then (i, b :: r) :: prev else prev)

/-- The length of the run at a position, 0 when there is none. -/
def runLen (r : Bytes) : Nat :=
  match runAt r with
  | some x => x.1
  | none => 0

def matchLen (m : Option (Nat × Nat)) : Nat :=
  match m with
  | some x => x.1
  | none => 0

/-- What is emitted at a position: token and its length. `lazy_` looks one byte ahead. -/
def tokenAt (lazy_ : Bool) (k i : Nat) (r : Bytes) (prev : Earlier) : Token × Nat :=
  let lit : Token × Nat := (.lit (r.headD 0), 1)
  match runAt r with
  | some x => (.run x.1 x.2, x.1)
  | none =>
    match bestMatch k i r prev with
    | none => lit
    | some m =>
      let a := advance 1 i r prev
      if lazy_ && (decide (m.1 < runLen a.2.1) || decide (m.1 < matchLen (bestMatch k a.1 a.2.1 a.2.2))) then lit
      else (.copy m.1 m.2, m.1)

/-- The tokens of an original, END last. -/
def tokensFrom (lazy_ : Bool) (k : Nat) : Nat → Nat → Bytes → Earlier → List Token
  | 0, _, _, _ => [.stop]
  | _ + 1, _, [], _ => [.stop]
  | f + 1, i, b :: r, prev =>
    let t := tokenAt lazy_ k i (b :: r) prev
    let a := advance t.2 i (b :: r) prev
    t.1 :: tokensFrom lazy_ k f a.1 a.2.1 a.2.2

def tokensOf (lazy_ : Bool) (k : Nat) (d : Bytes) : List Token := tokensFrom lazy_ k (d.length + 1) 0 d []

/-! ### Bales -/

def baleHeader (mode n : Nat) : Bytes := [0xBA, 1, BitVec.ofNat 8 mode, 0] ++ leBytes 4 n

def baleOf (mode : Nat) (d body : Bytes) : Bytes := baleHeader mode d.length ++ body ++ leBytes 4 (crc32c d)

def rawBale (d : Bytes) : Bytes := baleOf 0 d d

/-- Counts of the symbols of an alphabet. -/
def symCounts (n : Nat) (l : List Nat) : List Nat := (List.range n).map fun s => (l.filter fun x => x == s).length

/-- Are these lengths a code for the counted symbols: one each, of at most `limit` bits, complete, or, with fewer than two symbols, what
R154 allows a distance code to be? -/
def lensFit (limit : Nat) (counts lens : List Nat) : Bool :=
  lens.length == counts.length && lens.all (fun l => decide (l ≤ limit))
    && (List.range counts.length).all (fun s => counts.getD s 0 == 0 || lens.getD s 0 != 0)
    && (codeComplete lens || (decide ((counts.filter (· != 0)).length < 2) && (codeSingle lens || codeEmpty lens)))

/-- A complete code for `k` symbols in which the lengths differ by 1 at most: `short` of them have the shorter length. -/
def evenLens (k : Nat) : List Nat → Nat → List Nat
  | [], _ => []
  | c :: cs, i =>
    let m := Nat.log2 k
    (if c = 0 then 0 else if k = 1 then 1 else if i < 2 ^ (m + 1) - k then m else m + 1) :: evenLens k cs (if c = 0 then i else i + 1)

/-- The length-limited code that the encoder builds from counts: its own choice (Config.codeLengths) where that is such a code. -/
def limitedLens (limit : Nat) (counts : List Nat) : List Nat :=
  if lensFit limit counts (Config.codeLengths limit counts) then Config.codeLengths limit counts
  else evenLens (counts.filter (· != 0)).length counts 0

/-- The lengths that DENSE and AUTO build (R154, R159), of at most 15 bits. -/
def dynamicMain (ts : List Token) : List Nat := limitedLens 15 (symCounts 308 (ts.map mainSym))
def dynamicDist (ts : List Token) : List Nat := limitedLens 15 (symCounts 32 (ts.filterMap distSym))

/-- A description with every length sent as a four-bit symbol of its own. -/
def plainTable (main dist : List Nat) : List Bool :=
  fieldBits 6 51 ++ fieldBits 5 31 ++ fieldBits 4 15 ++ clOrder.flatMap (fun s => fieldBits 3 (if s < 16 then 4 else 0))
    ++ (main ++ dist).flatMap fun l => wordBits 4 l

/-- The description of two codes (R153): the encoder's own choice (Config.tableBits) where it describes them. -/
def tableOf (main dist : List Nat) : List Bool :=
  if readTables (Config.tableBits main dist) = .ok (main, dist) [] then Config.tableBits main dist else plainTable main dist

def staticStream (ts : List Token) : List Bool := ts.flatMap (tokenBits staticMain staticDist)

def dynamicStream (ts : List Token) : List Bool :=
  tableOf (dynamicMain ts) (dynamicDist ts) ++ ts.flatMap (tokenBits (dynamicMain ts) (dynamicDist ts))

/-- R160: RAW when the coded Bale would be n + 12 bytes or longer. -/
def orRaw (mode : Nat) (d : Bytes) (stream : List Bool) : Bytes :=
  let b := baleOf mode d (streamBytes stream)
  if d.length + 12 ≤ b.length then rawBale d else b

/-- R158: one chunk under an effort (0 OFF, 1 FAST, 2 DENSE, 3 AUTO). -/
def encodeBale (effort : Nat) (d : Bytes) : Bytes :=
  if effort = 0 then rawBale d
  else if effort = 1 then orRaw 1 d (staticStream (tokensOf false 8 d))
  else
    let ts := tokensOf true 64 d
    let dyn := dynamicStream ts
    let st := staticStream ts
    if effort = 3 ∧ st.length ≤ dyn.length then orRaw 1 d st else orRaw 2 d dyn

end Sys2Proof.Machine
end

