-- ==== Sys2Proof/Machine/Aes.lean ====
section
/-! DEFINITION. AES-256 and the modes that R14 names: CMAC, key wrap, XTS and GMAC (PRESUMED: FIPS 197, SP 800-38B,
RFC 3394, RFC 5649, IEEE 1619 and SP 800-38D, the published standards). -/

namespace Sys2Proof.Machine

/-- The S-box. -/
def aesSbox : List Nat :=
  [0x63, 0x7C, 0x77, 0x7B, 0xF2, 0x6B, 0x6F, 0xC5, 0x30, 0x01, 0x67, 0x2B, 0xFE, 0xD7, 0xAB, 0x76,
     0xCA, 0x82, 0xC9, 0x7D, 0xFA, 0x59, 0x47, 0xF0, 0xAD, 0xD4, 0xA2, 0xAF, 0x9C, 0xA4, 0x72, 0xC0,
     0xB7, 0xFD, 0x93, 0x26, 0x36, 0x3F, 0xF7, 0xCC, 0x34, 0xA5, 0xE5, 0xF1, 0x71, 0xD8, 0x31, 0x15,
     0x04, 0xC7, 0x23, 0xC3, 0x18, 0x96, 0x05, 0x9A, 0x07, 0x12, 0x80, 0xE2, 0xEB, 0x27, 0xB2, 0x75]
    ++ [0x09, 0x83, 0x2C, 0x1A, 0x1B, 0x6E, 0x5A, 0xA0, 0x52, 0x3B, 0xD6, 0xB3, 0x29, 0xE3, 0x2F, 0x84,
     0x53, 0xD1, 0x00, 0xED, 0x20, 0xFC, 0xB1, 0x5B, 0x6A, 0xCB, 0xBE, 0x39, 0x4A, 0x4C, 0x58, 0xCF,
     0xD0, 0xEF, 0xAA, 0xFB, 0x43, 0x4D, 0x33, 0x85, 0x45, 0xF9, 0x02, 0x7F, 0x50, 0x3C, 0x9F, 0xA8,
     0x51, 0xA3, 0x40, 0x8F, 0x92, 0x9D, 0x38, 0xF5, 0xBC, 0xB6, 0xDA, 0x21, 0x10, 0xFF, 0xF3, 0xD2]
    ++ [0xCD, 0x0C, 0x13, 0xEC, 0x5F, 0x97, 0x44, 0x17, 0xC4, 0xA7, 0x7E, 0x3D, 0x64, 0x5D, 0x19, 0x73,
     0x60, 0x81, 0x4F, 0xDC, 0x22, 0x2A, 0x90, 0x88, 0x46, 0xEE, 0xB8, 0x14, 0xDE, 0x5E, 0x0B, 0xDB,
     0xE0, 0x32, 0x3A, 0x0A, 0x49, 0x06, 0x24, 0x5C, 0xC2, 0xD3, 0xAC, 0x62, 0x91, 0x95, 0xE4, 0x79,
     0xE7, 0xC8, 0x37, 0x6D, 0x8D, 0xD5, 0x4E, 0xA9, 0x6C, 0x56, 0xF4, 0xEA, 0x65, 0x7A, 0xAE, 0x08]
    ++ [0xBA, 0x78, 0x25, 0x2E, 0x1C, 0xA6, 0xB4, 0xC6, 0xE8, 0xDD, 0x74, 0x1F, 0x4B, 0xBD, 0x8B, 0x8A,
     0x70, 0x3E, 0xB5, 0x66, 0x48, 0x03, 0xF6, 0x0E, 0x61, 0x35, 0x57, 0xB9, 0x86, 0xC1, 0x1D, 0x9E,
     0xE1, 0xF8, 0x98, 0x11, 0x69, 0xD9, 0x8E, 0x94, 0x9B, 0x1E, 0x87, 0xE9, 0xCE, 0x55, 0x28, 0xDF,
     0x8C, 0xA1, 0x89, 0x0D, 0xBF, 0xE6, 0x42, 0x68, 0x41, 0x99, 0x2D, 0x0F, 0xB0, 0x54, 0xBB, 0x16]

def subByte (x : Nat) : Nat := aesSbox.getD x 0

/-- The inverse of the S-box. -/
def invSubByte (x : Nat) : Nat := aesSbox.idxOf x

/-- Multiplication by x modulo 0x11B. -/
def aesX (a : Nat) : Nat := if a < 128 then 2 * a else (2 * a % 256) ^^^ 0x1B

def aesMul (k a : Nat) : Nat :=
  (if k.testBit 0 then a else 0) ^^^ (if k.testBit 1 then aesX a else 0)
    ^^^ (if k.testBit 2 then aesX (aesX a) else 0) ^^^ (if k.testBit 3 then aesX (aesX (aesX a)) else 0)

def xorList (a b : List Nat) : List Nat := List.zipWith (· ^^^ ·) a b

def toNats (b : Bytes) : List Nat := b.map (·.toNat)
def toBytes (l : List Nat) : Bytes := l.map (BitVec.ofNat 8)

/-- The words of the key schedule of AES-256, newest first; `i` is the index of the next word. -/
def aesExpand : Nat → Nat → Nat → List (List Nat) → List (List Nat)
  | 0, _, _, ws => ws
  | n + 1, i, rc, ws =>
    let p := ws.headD []
    let t :=
      if i % 8 = 0 then
        match p.map subByte with
        | [a, b, c, d] => [b ^^^ rc, c, d, a]
        | l => l
      else if i % 8 = 4 then p.map subByte else p
    aesExpand n (i + 1) (if i % 8 = 0 then aesX rc else rc) (xorList (ws.getD 7 []) t :: ws)

/-- The 15 round keys of AES-256. -/
def aesKeys (key : Bytes) : List (List Nat) :=
  let w0 := (pieces 4 8 (padTo 32 key)).map toNats
  let ws := (aesExpand 52 8 1 w0.reverse).reverse
  (List.range 15).map fun r => (ws.drop (4 * r)).take 4 |>.flatten

/-- Column-wise byte positions of ShiftRows and its inverse. -/
def shiftRows (s : List Nat) : List Nat := (List.range 16).map fun i => nth s ((i + 4 * (i % 4)) % 16)
def invShiftRows (s : List Nat) : List Nat := (List.range 16).map fun i => nth s ((i + 16 - 4 * (i % 4)) % 16)

/-- A column multiplied by a circulant of coefficients. -/
def mixWith (k : List Nat) (s : List Nat) : List Nat :=
  (List.range 16).map fun i =>
    let c := i / 4 * 4
    (List.range 4).foldl (fun x j => x ^^^ aesMul (nth k ((j + 4 - i % 4) % 4)) (nth s (c + j))) 0

def mixColumns (s : List Nat) : List Nat := mixWith [2, 3, 1, 1] s
def invMixColumns (s : List Nat) : List Nat := mixWith [14, 11, 13, 9] s

/-- One 16-byte block, encrypted under the round keys. -/
def aesEncNats (rk : List (List Nat)) (b : List Nat) : List Nat :=
  let s := ((rk.drop 1).take 13).foldl (fun s k => xorList (mixColumns (shiftRows (s.map subByte))) k)
    (xorList b (rk.headD []))
  xorList (shiftRows (s.map subByte)) (rk.getD 14 [])

/-- One 16-byte block, decrypted. -/
def aesDecNats (rk : List (List Nat)) (b : List Nat) : List Nat :=
  let s := (((rk.drop 1).take 13).reverse).foldl
    (fun s k => invMixColumns (xorList ((invShiftRows s).map invSubByte) k)) (xorList b (rk.getD 14 []))
  xorList ((invShiftRows s).map invSubByte) (rk.headD [])

/-- AES-256 of one block. -/
def aesEnc (key block : Bytes) : Bytes := toBytes (aesEncNats (aesKeys key) (toNats (padTo 16 block)))

/-- One block deciphered. -/
def aesDec (key block : Bytes) : Bytes := toBytes (aesDecNats (aesKeys key) (toNats (padTo 16 block)))

/-! ### CMAC -/

/-- Doubling in GF(2^128), big-endian. -/
def cmacDbl (n : Nat) : Nat := (2 * n) % 2 ^ 128 ^^^ (if 2 ^ 127 ≤ n then 0x87 else 0)

/-- AES-256-CMAC. -/
def cmac (key m : Bytes) : Bytes :=
  let rk := aesKeys key
  let enc := fun (b : Bytes) => toBytes (aesEncNats rk (toNats b))
  let k1 := cmacDbl (beNat (enc (zeros 16)))
  let n := if m.length = 0 then 1 else (m.length + 15) / 16
  let bs := pieces 16 n m
  let lastB := bs.getLastD []
  let lastX :=
    if lastB.length = 16 then xorBytes lastB (beBytes 16 k1)
    else xorBytes (padTo 16 (lastB ++ [0x80])) (beBytes 16 (cmacDbl k1))
  enc (xorBytes ((bs.dropLast).foldl (fun x b => enc (xorBytes x b)) (zeros 16)) lastX)

/-- The subkeys of a CMAC, and its chaining value after the first `n` blocks. -/
def cmacSubkeys (key : Bytes) : Bytes × Bytes :=
  let k1 := cmacDbl (beNat (aesEnc key (zeros 16)))
  (beBytes 16 k1, beBytes 16 (cmacDbl k1))

def cmacChain (key m : Bytes) (n : Nat) : Bytes :=
  (pieces 16 n m).foldl (fun x b => aesEnc key (xorBytes x b)) (zeros 16)

/-! ### Key wrap -/

/-- The six passes of RFC 3394 over the 8-byte pieces. -/
def kwPass (rk : List (List Nat)) (n : Nat) (st : Bytes × List Bytes) (t : Nat) : Bytes × List Bytes :=
  let i := t % n
  let b := toBytes (aesEncNats rk (toNats (st.1 ++ st.2.getD i [])))
  (xorBytes (b.take 8) (beBytes 8 (t + 1)), st.2.set i (b.drop 8))

def kwUnpass (rk : List (List Nat)) (n : Nat) (st : Bytes × List Bytes) (t : Nat) : Bytes × List Bytes :=
  let i := t % n
  let b := toBytes (aesDecNats rk (toNats (xorBytes st.1 (beBytes 8 (t + 1)) ++ st.2.getD i [])))
  (b.take 8, st.2.set i (b.drop 8))

/-- The initial value of RFC 3394, and the alternative one of RFC 5649 for a plaintext of `n` bytes. -/
def kwIv : Bytes := List.replicate 8 0xA6
def kwpIv (n : Nat) : Bytes := [0xA6, 0x59, 0x59, 0xA6] ++ beBytes 4 n

/-- Wrap whole 8-byte pieces (two or more) under an initial value. -/
def kwWrapIv (key iv p : Bytes) : Bytes :=
  let n := p.length / 8
  let r := (List.range (6 * n)).foldl (kwPass (aesKeys key) n) (iv, pieces 8 n p)
  r.1 ++ r.2.flatten

/-- Unwrap, with the recovered initial value. -/
def kwUnwrapIv (key c : Bytes) : Bytes × Bytes :=
  let n := c.length / 8 - 1
  let r := ((List.range (6 * n)).reverse).foldl (kwUnpass (aesKeys key) n) (c.take 8, pieces 8 n (c.drop 8))
  (r.1, r.2.flatten)

/-- RFC 3394. -/
def kwWrap (key p : Bytes) : Bytes := kwWrapIv key kwIv p
def kwUnwrap (key c : Bytes) : Option Bytes :=
  let r := kwUnwrapIv key c
  if r.1 = kwIv then some r.2 else none

/-- RFC 5649: a plaintext of at most 8 bytes takes one block, a longer one the passes of RFC 3394. -/
def kwpWrap (key p : Bytes) : Bytes :=
  let q := p ++ zeros ((8 - p.length % 8) % 8)
  if q.length ≤ 8 then aesEnc key (kwpIv p.length ++ q) else kwWrapIv key (kwpIv p.length) q

def kwpUnwrap (key c : Bytes) : Option Bytes :=
  let d := aesDec key c
  let r := if c.length = 16 then (d.take 8, d.drop 8) else kwUnwrapIv key c
  let n := beNat (r.1.drop 4)
  if r.1.take 4 = [0xA6, 0x59, 0x59, 0xA6] ∧ n ≤ r.2.length ∧ r.2.length < n + 8 ∧ (r.2.drop n).all (· == 0) then
    some (r.2.take n)
  else none

/-! ### XTS -/

/-- The next tweak: doubling in GF(2^128), little-endian. -/
def xtsDbl (t : Bytes) : Bytes :=
  let n := leNat t
  leBytes 16 ((2 * n) % 2 ^ 128 ^^^ (if 2 ^ 127 ≤ n then 0x87 else 0))

/-- XTS over whole 16-byte blocks of one unit, with the first tweak given. -/
def xtsBlocks (enc : Bool) (rk : List (List Nat)) : List Bytes → Bytes → Bytes
  | [], _ => []
  | b :: bs, t =>
    let f := if enc then aesEncNats rk else aesDecNats rk
    xorBytes t (toBytes (f (toNats (xorBytes t b)))) ++ xtsBlocks enc rk bs (xtsDbl t)

/-- XTS-AES-256 of one unit whose length is a multiple of 16: data key, tweak key, 16-byte tweak value. -/
def xts (enc : Bool) (k1 k2 tweak data : Bytes) : Bytes :=
  xtsBlocks enc (aesKeys k1) (pieces 16 (data.length / 16) data) (aesEnc k2 tweak)

/-! ### GMAC -/

/-- Multiplication in the field of GCM: bit 127 of the number is the coefficient of x^0. -/
def gcmMulAux : Nat → Nat → Nat → Nat → Nat
  | 0, _, _, z => z
  | n + 1, x, v, z =>
    gcmMulAux n x (if v % 2 = 1 then (v / 2) ^^^ (0xE1 <<< 120) else v / 2) (if x.testBit n then z ^^^ v else z)

def gcmMul (x y : Nat) : Nat := gcmMulAux 128 x y 0

/-- AES-256-GMAC with a 96-bit IV. -/
def gmac (key iv aad : Bytes) : Bytes :=
  let rk := aesKeys key
  let enc := fun (b : Bytes) => toBytes (aesEncNats rk (toNats b))
  let h := beNat (enc (zeros 16))
  let bs := pieces 16 ((aad.length + 15) / 16) aad
  let g := bs.foldl (fun y b => gcmMul (y ^^^ beNat (padTo 16 b)) h) 0
  let g := gcmMul (g ^^^ (8 * aad.length) * 2 ^ 64) h
  xorBytes (enc (iv ++ [0, 0, 0, 1])) (beBytes 16 g)

end Sys2Proof.Machine
end

