-- ==== Sys2Proof/Machine/Events.lean ====
section
/-! DEFINITION. Offering an event record to the recorder: suppression (R401), admission (R400), numbering (R395), the
hold before the ring accepts records (R396), and the 64 bytes of a record (R394). -/

namespace Sys2Proof.Machine

/-- The CODE of an event: the listed number, or for an event without one (R457) a code of its block's range (R410). -/
def EvCode.num (b : Blk) : EvCode → Nat
  | .listed c => c.toNat
  | .byRule r n => 0x400 * blkNo b + 1 + Config.eventCode r n % 1023

/-- The 40 payload bytes. -/
def EvRec.payloadBytes (e : EvRec) : Bytes :=
  match e.code with
  | .listed _ => padTo 40 e.payload
  | .byRule r n => padTo 40 (Config.eventPayload r n e.args)

/-- Bytes 0x00 to 0x3B of a record (R394). -/
def EvRec.body (e : EvRec) : Bytes :=
  leBytes 8 (e.seq.getD 0) ++ leBytes 4 e.seconds.toNat ++ leBytes 4 e.cycles.toNat
    ++ leBytes 1 (sevNo e.sev + 4 * blkNo e.blk) ++ [0] ++ leBytes 2 (e.code.num e.blk) ++ e.payloadBytes

/-- The 64 bytes of a record (R394). -/
def EvRec.bytes (e : EvRec) : Bytes := withCrc e.body

/-- Pending records of the ring. -/
def pendingCount (r : List EvRec) : Nat := (r.filter (·.pending)).length

/-- The number of pending records below which a record of a severity enters the ring (R400). -/
def ringLimit : Sev → Nat
  | .info => 768
  | .notice => 896
  | .fault => 992
  | .critical => 1024

/-- The limit that admits a record now: while the base is unset one slot stays free for SESSION (R396). -/
def admitLimit (ev : Evr) (v : Sev) : Nat := if ev.baseSet then ringLimit v else min (ringLimit v) 1023

/-- Remove the oldest record that is not pending. -/
def dropOldest : List EvRec → List EvRec
  | [] => []
  | e :: r => if e.pending then e :: dropOldest r else r

/-- The ring with room for one more record: a full ring gives up the slot of its oldest record that is not pending. -/
def makeRoom (r : List EvRec) : List EvRec := if r.length < 1024 then r else dropOldest r

/-- A record enters the ring and takes the next number, once the base is set (R395). -/
def ringEnter (e : EvRec) (ev : Evr) : Evr :=
  if ev.baseSet then
    { ev with ring := makeRoom ev.ring ++ [{ e with seq := some ev.head, pending := true }], head := ev.head + 1 }
  else { ev with ring := makeRoom ev.ring ++ [{ e with seq := none, pending := true }] }

def SevCount.add (v : Sev) (top : Nat) (c : SevCount) : SevCount :=
  match v with
  | .info => { c with info := satAdd top c.info 1 }
  | .notice => { c with notice := satAdd top c.notice 1 }
  | .fault => { c with fault := satAdd top c.fault 1 }
  | .critical => { c with critical := satAdd top c.critical 1 }

def SevCount.isZero (c : SevCount) : Bool := c.info == 0 && c.notice == 0 && c.fault == 0 && c.critical == 0

/-- The ring refuses a record: it is counted by severity, and its time noted for the LOST record (R400). -/
def ringRefuse (e : EvRec) (ev : Evr) : Evr :=
  { ev with refused := ev.refused.add e.sev 0xFF, lost := ev.lost.add e.sev 0xFFFFFFFF,
            lostFirst := if ev.lost.isZero then e.seconds.toNat else ev.lostFirst,
            lostLast := e.seconds.toNat }

/-- R400: a record enters the ring, or is refused. -/
def ringAdmit (e : EvRec) (ev : Evr) : Evr :=
  if pendingCount ev.ring < admitLimit ev e.sev then ringEnter e ev else ringRefuse e ev

/-- The operating-second limit of a severity; 0 is no limit (R401). -/
def secondLimit (ev : Evr) : Sev → Nat
  | .info => ev.limInfo
  | .notice => ev.limNotice
  | .fault => ev.limFault
  | .critical => 0

/-- How many records of a pair of block and code were counted in this second. -/
def pairCount (ev : Evr) (b : Blk) (c : EvCode) : Nat :=
  match ev.counts.find? (fun p => p.1 == b && p.2.1 == c) with
  | some p => p.2.2
  | none => 0

def countPair (b : Blk) (c : EvCode) (l : List (Blk × EvCode × Nat)) : List (Blk × EvCode × Nat) :=
  if l.any (fun p => p.1 == b && p.2.1 == c) then
    modFirst (fun p => p.1 == b && p.2.1 == c) (fun p => (p.1, p.2.1, p.2.2 + 1)) l
  else l ++ [(b, c, 1)]

def countSuppressed (e : EvRec) (l : List (Blk × EvCode × Sev × Nat)) : List (Blk × EvCode × Sev × Nat) :=
  if l.any (fun p => p.1 == e.blk && p.2.1 == e.code) then
    modFirst (fun p => p.1 == e.blk && p.2.1 == e.code) (fun p => (p.1, p.2.1, p.2.2.1, p.2.2.2 + 1)) l
  else l ++ [(e.blk, e.code, e.sev, 1)]

/-- R401 before R400: a record beyond its pair's limit is suppressed, and any other counts and is offered to the ring. -/
def limited (e : EvRec) (ev : Evr) : Evr :=
  if secondLimit ev e.sev ≠ 0 ∧ secondLimit ev e.sev ≤ pairCount ev e.blk e.code then
    { ev with suppr := countSuppressed e ev.suppr,
              supSecond := if ev.suppr = [] then e.seconds else ev.supSecond }
  else ringAdmit e { ev with counts := countPair e.blk e.code ev.counts }

/-- The record of a new event at this state's time. -/
def newRec (b : Blk) (v : Sev) (c : EvCode) (args : List Nat) (payload : Bytes) (s : State) : EvRec :=
  { seq := none, seconds := stampSeconds s, cycles := stampCycles s, sev := v, blk := b, code := c,
    args := args, payload := payload, pending := true }

/-- R400: with pending below 768, what was refused is reported in one LOST record, Fault if any Fault or Critical record
was refused. -/
def lostCheck (s : State) : State :=
  if s.evr.accepts && decide (pendingCount s.evr.ring < 768) && !s.evr.lost.isZero then
    let l := s.evr.lost
    let v : Sev := if l.fault = 0 ∧ l.critical = 0 then .info else .fault
    let p := leBytes 4 l.info ++ leBytes 4 l.notice ++ leBytes 4 l.fault ++ leBytes 4 l.critical
      ++ leBytes 4 s.evr.lostFirst ++ leBytes 4 s.evr.lostLast
    let ev := { s.evr with lost := {}, lostFirst := 0, lostLast := 0 }
    { s with evr := ringAdmit (newRec .evr v (.listed 0x3402) [] p s) ev }
  else s

/-- A record is offered: held by its block before the ring accepts records, four for each block (R396); afterwards
suppressed, refused or entered. -/
def offerRec (e : EvRec) (s : State) : State :=
  if s.evr.accepts then lostCheck { s with evr := limited e s.evr }
  else if (s.evr.held.filter (fun h => h.blk == e.blk)).length < 4 then
    { s with evr := { s.evr with held := s.evr.held ++ [e] } }
  else { s with evr := ringRefuse e s.evr }

/-- An event that a rule requires and whose code is left open (R457): rule number, ordinal within the rule, and what the
rule says it names. -/
def raise (b : Blk) (v : Sev) (rule n : Nat) (args : List Nat) (s : State) : State :=
  offerRec (newRec b v (.byRule rule n) args [] s) s

/-- An event with a listed code. -/
def raiseListed (b : Blk) (v : Sev) (code : Nat) (payload : Bytes) (s : State) : State :=
  offerRec (newRec b v (.listed (BitVec.ofNat 16 code)) [] payload s) s

/-- Raise an event when a condition holds. -/
def raiseIf (c : Bool) (b : Blk) (v : Sev) (rule n : Nat) (args : List Nat) (s : State) : State :=
  if c then raise b v rule n args s else s

/-- EVR.OLDEST: the lowest SEQ in the ring, the value of HEAD while it holds no numbered record (R408). -/
def Evr.oldest (ev : Evr) : Nat :=
  if ev.baseSet then
    (ev.ring.filterMap (·.seq)).foldl min ev.head
  else 0

end Sys2Proof.Machine
end

