-- ==== Sys2Proof/Machine/Nvc.lean ====
section
/-! DEFINITION. The configuration NOR controller: wait states (R40), suspension (R41, R42), programs (R43), power loss
(R44), and what a reset leaves (R35). -/

namespace Sys2Proof.Machine

/-- Bytes of the NOR. -/
def norRead (s : State) (a n : Nat) : Bytes := cellsRead norDefault s.nor a n

/-! ### Wait states (R40) -/

/-- The wait states of the table of R40 for a clock in MHz and a supply band. -/
def waitStates (mhz : Nat) (high : Bool) : Nat :=
  if mhz ≤ 66 then (if high then 6 else 8)
  else if mhz ≤ 100 then (if high then 10 else 12)
  else if mhz ≤ 133 then (if high then 12 else 14)
  else if mhz ≤ 166 then (if high then 14 else 16)
  else (if high then 16 else 20)

/-! ### Suspension (R41, R42) -/

/-- The 64 KiB sector that an address lies in. -/
def norSector (a : Nat) : Nat := a / 0x10000

/-- Does a range of addresses touch a sector? -/
def touchesSector (a n k : Nat) : Bool := decide (norSector a ≤ k) && decide (k ≤ norSector (a + (n - 1)))

/-- The sector of a suspended erase. -/
def suspendedErase (v : Nvc) : Option Nat :=
  match v.suspended with
  | some o => if o.erase then some (norSector o.addr) else none
  | none => none

/-- A read falls inside the sector being erased (R42). -/
def inErasedSector (v : Nvc) (a n : Nat) : Bool :=
  match suspendedErase v with
  | some k => touchesSector a n k
  | none => false

/-- The NVC answers a read, or refuses it inside the sector of a suspended erase (R42). -/
def norServe (r : Nat × Nat) (s : State) : State :=
  if inErasedSector s.nvc r.1 r.2 then { s with nvc := { s.nvc with sectorBusy := true } }
  else emit (.norData r.1 (norRead s r.1 r.2)) s

/-- Answer every waiting read. -/
def norServeAll (s : State) : State :=
  forEach s.nvc.reads norServe { s with nvc := { s.nvc with reads := [] } }

/-- May the running operation be suspended now? After MIN_RUN, and never a program while an erase is suspended (R41). -/
def maySuspend (v : Nvc) : Bool := v.running.isSome && v.ranMin && v.suspended.isNone

/-- Suspend the running operation for a waiting read. -/
def norSuspendNow (s : State) : State :=
  emit .norSuspend { s with nvc := { s.nvc with
    suspended := s.nvc.running, running := none, readable := false, limitHit := false, ranMin := false } }

/-- Suspend when a read waits and R41 allows it. -/
def norTrySuspend (s : State) : State :=
  if !s.nvc.reads.isEmpty && maySuspend s.nvc then norSuspendNow s else s

/-- R43: a program is refused if any bit would go from 0 to 1. -/
def wouldSet : Bytes → Bytes → Bool
  | d :: ds, o :: os => (d &&& ~~~o != 0) || wouldSet ds os
  | _, _ => false

/-- Issue a program or an erase to the NOR; the word is read back before a program (R43). A refused program of recorder slots leaves its
records pending (R403). -/
def norIssueOp (o : NorOp) (s : State) : State :=
  if !o.erase && wouldSet o.data (norRead s o.addr o.data.length) then
    { s with nvc := { s.nvc with wrRefused := true }, evr := if o.drain then { s.evr with inFlight := 0 } else s.evr }
  else emit (.norIssue o.erase o.addr) { s with nvc := { s.nvc with running := some o, ranMin := false } }

/-- May an operation start now? With nothing running; and while an erase is suspended, only a program outside its sector,
once the device has suspended (R41, R42). -/
def mayIssue (v : Nvc) (o : NorOp) : Bool :=
  v.running.isNone &&
    (v.suspended.isNone || (v.readable && !o.erase && suspendedErase v != none && !inErasedSector v o.addr o.data.length))

/-- Start the oldest waiting operation that may start. -/
def norStartOne (s : State) : State :=
  match s.nvc.work.find? (mayIssue s.nvc) with
  | some o => norIssueOp o { s with nvc := { s.nvc with work := s.nvc.work.erase o } }
  | none => s

/-- Start the oldest waiting operation that may start and is not refused. -/
def norStartNext (s : State) : State := forEach s.nvc.work (fun _ => norStartOne) s

/-- May the suspended operation resume? After PWR_FAIL_L no erase is issued again (R44). -/
def mayResume (v : Nvc) : Bool := !(v.halted && (suspendedErase v).isSome)

/-- Resume the suspended operation: it runs again, and reads wait for the next allowed suspension (R41). -/
def norResumeNow (s : State) : State :=
  if !mayResume s.nvc then { s with nvc := { s.nvc with limitHit := false } }
  else emit .norResume { s with nvc := { s.nvc with
    running := s.nvc.suspended, suspended := none, readable := true, limitHit := false, ranMin := false } }

/-- An operation's effect on the contents. -/
def norApply (o : NorOp) (m : List Host.Cell) : List Host.Cell :=
  if o.erase then cellsClear (0x10000 * norSector o.addr) 0x10000 m else cellsWrite norDefault o.data o.addr m

/-- R35: what a reset interrupts is left undefined: a program's words, an erase's sector. -/
def norInterrupt (o : NorOp) (s : State) : State :=
  let a := if o.erase then 0x10000 * norSector o.addr else o.addr / 4 * 4
  let n := if o.erase then 0x10000 else (o.addr + o.data.length + 3) / 4 * 4 - a
  tickLong n { s with nor := cellsWrite norDefault (freeLong n s) a s.nor }

/-- R35 for everything under way when a reset comes. -/
def norReset (s : State) : State := forSome s.nvc.suspended norInterrupt (forSome s.nvc.running norInterrupt s)

/-- Does the NVC take commands? Not while it holds NOR_RST_L low, and not before the first boot-header read (R35). -/
def norOpen (s : State) : Bool := !s.pins.norRstLow && !(s.glb.service == .startUp && decide (s.glb.step < 5))

/-! ### The steps -/

/-- NOR_READ_REQUEST (R41, R42). -/
def norReadRequestEffect (a n : Nat) (s : State) : State :=
  if !norOpen s then s
  else if inErasedSector s.nvc a n then { s with nvc := { s.nvc with sectorBusy := true } }
  else if s.nvc.running.isNone && s.nvc.readable then norServe (a, n) s
  else norTrySuspend { s with nvc := { s.nvc with reads := s.nvc.reads ++ [(a, n)] } }

def execNorReadRequest (addr len : Nat) (s : State) : Res :=
  run (.norReadRequest addr len) (norReadRequestEffect addr len) s

/-- NVC_MIN_RUN_EXPIRY (R41): from now on a waiting read may suspend the operation. -/
def nvcMinRunExpiryEffect (s : State) : State :=
  if s.nvc.running.isSome then norTrySuspend { s with nvc := { s.nvc with ranMin := true } } else s

def execNvcMinRunExpiry (s : State) : Res := run .nvcMinRunExpiry nvcMinRunExpiryEffect s

/-- NVC_TSUS_EXPIRY (R41): the device has suspended, and the waiting reads are issued. -/
def nvcTsusExpiryEffect (s : State) : State :=
  if s.nvc.suspended.isSome && !s.nvc.readable then
    norStartNext (norServeAll { s with nvc := { s.nvc with readable := true } })
  else s

def execNvcTsusExpiry (s : State) : Res := run .nvcTsusExpiry nvcTsusExpiryEffect s

/-- NVC_SUSPEND_LIMIT_EXPIRY (R41): the operation resumes, after a program that runs meanwhile has completed. -/
def nvcSuspendLimitExpiryEffect (s : State) : State :=
  if s.nvc.suspended.isNone then s
  else if s.nvc.running.isSome then { s with nvc := { s.nvc with limitHit := true } }
  else norResumeNow s

def execNvcSuspendLimitExpiry (s : State) : Res := run .nvcSuspendLimitExpiry nvcSuspendLimitExpiryEffect s

/-- A program or erase request: issued, or queued behind the running operation; after PWR_FAIL_L none is issued (R44). -/
def norRequest (o : NorOp) (s : State) : State :=
  if !norOpen s || s.nvc.halted then (if o.drain then { s with evr := { s.evr with inFlight := 0 } } else s)
  else if mayIssue s.nvc o then norIssueOp o s
  else { s with nvc := { s.nvc with work := s.nvc.work ++ [o] } }

/-- NOR_PROGRAM_REQUEST (R43). -/
def execNorProgramRequest (addr : Nat) (data : Bytes) (s : State) : Res :=
  run (.norProgramRequest addr data) (norRequest { erase := false, addr := addr, data := data }) s

/-- NOR_ERASE_REQUEST (R41). -/
def execNorEraseRequest (sector : Nat) (s : State) : Res :=
  run (.norEraseRequest sector) (norRequest { erase := true, addr := 0x10000 * sector, data := [] }) s

/-- An operation completes (R41): the contents change; a suspended erase whose limit has passed resumes, and otherwise waiting reads are
served and the next work starts. -/
def norComplete (o : NorOp) (s : State) : State :=
  let t := { s with nor := norApply o s.nor, nvc := { s.nvc with running := none, ranMin := false } }
  if t.nvc.limitHit then norResumeNow t
  else
    let t := if t.nvc.suspended.isNone || t.nvc.readable then norServeAll t else t
    if t.nvc.halted then t else norStartNext t

/-- R44: what is left of a program at a power failure: its words up to a free one, the current word. -/
def cutProgram (k : Nat) (o : NorOp) : NorOp := if o.erase then o else { o with data := o.data.take (4 * (k + 1) - o.addr % 4) }

/-- The words that a program spans. -/
def programWords (o : Option NorOp) : Nat := (o.map fun p => (p.addr % 4 + p.data.length + 3) / 4).getD 0

/-- R44: PWR_FAIL_L lets the program of the current word complete and abandons the queued work; nothing further is issued. -/
def norPowerFail (s : State) : State :=
  let k := freePick (programWords s.nvc.running) s
  let j := freePick (programWords s.nvc.suspended) s
  tick { s with
    nvc := { s.nvc with
      work := [], halted := true, running := s.nvc.running.map (cutProgram k), suspended := s.nvc.suspended.map (cutProgram j) },
    evr := if s.nvc.work.any (·.drain) then { s.evr with inFlight := 0 } else s.evr }

end Sys2Proof.Machine
end

