-- ==== Sys2Proof/Machine/Recorder.lean ====
section
/-! DEFINITION. The event recorder's steps (R394 to R409): offered events, second boundaries, the sequence base, the
drain into the NOR recorder region, and the read channels. -/

namespace Sys2Proof.Machine

/-! ### The NOR recorder region (R402 to R405) -/

def recBase : Nat := 0x06100000
def sectorAddr (k : Nat) : Nat := recBase + 0x10000 * k
def slotAddr (k i : Nat) : Nat := sectorAddr k + 0x1000 + 64 * i
def markAddr (k i : Nat) : Nat := sectorAddr k + 0x40 + 4 * i

/-- A sector holds nothing: every byte of it reads 0xFF. -/
def sectorErased (m : List Host.Cell) (k : Nat) : Bool :=
  m.all fun c => c.1 < sectorAddr k || sectorAddr k + 0x10000 ≤ c.1

/-- The 64 header bytes of a sector (R402). -/
def sectorHeader (serial : Word64) (n : Nat) : Bytes :=
  withCrc (leBytes 4 0x9640E7A1 ++ leBytes 2 1 ++ [0, 0] ++ leBytes 8 n ++ leBytes 4 serial.toNat ++ zeros 40)

/-- SECTOR_SEQ of a sector whose header is valid. -/
def sectorSeqOf (s : State) (k : Nat) : Option Nat :=
  let h := norRead s (sectorAddr k) 64
  if crcOk h && numAt h 0 4 == 0x9640E7A1 && numAt h 4 2 == 1 then some (numAt h 8 8) else none

/-- The slots of the region in which some byte is programmed, as (sector, slot), in order of address. -/
def usedSlots (m : List Host.Cell) : List (Nat × Nat) :=
  let inSlots := m.filter fun c =>
    decide (recBase ≤ c.1) && decide (c.1 < recBase + 0x1000000) && decide (0x1000 ≤ (c.1 - recBase) % 0x10000)
  inSlots.foldl (fun acc c =>
    let p := ((c.1 - recBase) / 0x10000, ((c.1 - recBase) % 0x10000 - 0x1000) / 64)
    if acc.getLast? = some p then acc else acc ++ [p]) []

/-- A slot whose record passes its CRC: SEQ and severity. -/
def slotRecord (s : State) (k i : Nat) : Option (Nat × Nat) :=
  let b := norRead s (slotAddr k i) 64
  if crcOk b then some (numAt b 0 8, numAt b 16 1 % 4) else none

/-- The highest SEQ of the region; 0 when it holds no valid record. -/
def norHighest (s : State) : Nat :=
  ((usedSlots s.nor).filterMap fun p => slotRecord s p.1 p.2).foldl (fun m r => max m r.1) 0

/-- The mark of a slot (R403): 0 not archived, 1 in the area, 2 in an object, 3 decided from the media. -/
def markOf (s : State) (k i : Nat) : Nat :=
  let w := numAt (norRead s (markAddr k i) 4) 0 4
  if w = 0xFFFFFFFF then 0 else if w = 0xFFFF0000 then 1 else if w = 0 then 2 else 3

/-- R405: the record of a slot is in an archive object, by its mark or by EVENT_LAST of the current checkpoint. -/
def slotArchived (s : State) (k i seq : Nat) : Bool :=
  markOf s k i == 2 || (markOf s k i == 3 && decide (seq ≤ s.til.lastObject))

/-- SEQ and severity of a sector's records that are not in an archive object. -/
def unarchived (s : State) (k : Nat) : List (Nat × Nat) :=
  ((usedSlots s.nor).filter fun p => p.1 == k).filterMap fun p =>
    match slotRecord s p.1 p.2 with
    | some r => if slotArchived s p.1 p.2 r.1 then none else some r
    | none => none

/-- The erased sectors of the region. -/
def erasedSectors (s : State) : List Nat := (List.range 256).filter fun k => sectorErased s.nor k

/-- The sectors that may be erased, oldest SECTOR_SEQ first: written, with a header, and not the one being filled. -/
def oldSectors (s : State) : List Nat :=
  let l := (List.range 256).filterMap fun k =>
    if k = s.evr.sector then none else (sectorSeqOf s k).map fun n => (n, k)
  (sortBy (fun a b => decide (a.1 ≤ b.1)) l).map (·.2)

/-- Which sector R405 erases: the oldest reclaimable one; failing that the oldest whose records outside archive objects
are all Info or Notice; failing that all below Critical; failing that none. -/
def eraseVictim (s : State) : Option Nat :=
  let l := oldSectors s
  match l.find? fun k => (unarchived s k).isEmpty with
  | some k => some k
  | none =>
    match l.find? fun k => (unarchived s k).all fun r => decide (r.2 ≤ 1) with
    | some k => some k
    | none => l.find? fun k => (unarchived s k).all fun r => decide (r.2 ≤ 2)

/-- ERASED, code 0x3404: lowest and highest SEQ lost, and counts by severity. -/
def erasedPayload (l : List (Nat × Nat)) : Bytes :=
  let q := l.map (·.1)
  let count := fun v => (l.filter fun r => r.2 == v).length
  leBytes 8 (q.foldl min (q.headD 0)) ++ leBytes 8 (q.foldl max 0)
    ++ leBytes 4 (count 0) ++ leBytes 4 (count 1) ++ leBytes 4 (count 2) ++ leBytes 4 (count 3)

/-- Is an operation an erase in the recorder region? -/
def recorderErase (o : NorOp) : Bool := o.erase && decide (recBase ≤ o.addr) && decide (o.addr < recBase + 0x1000000)

/-- Is an erase of the recorder region under way or waiting? -/
def reclaiming (v : Nvc) : Bool := v.running.any recorderErase || v.suspended.any recorderErase || v.work.any recorderErase

/-- R405: with fewer than 2 erased sectors, a sector is erased under the rules of R41, after ERASED when records are lost; when none
may be, drains stop. -/
def recorderReclaim (s : State) : State :=
  if reclaiming s.nvc || s.nvc.halted || !norOpen s then s
  else if (erasedSectors s).length < 2 then
    match eraseVictim s with
    | some k =>
      let l := unarchived s k
      let t := if l.isEmpty then s else raiseListed .evr .fault 0x3404 (erasedPayload l) s
      norRequest { erase := true, addr := sectorAddr k, data := [] } t
    | none => { s with evr := { s.evr with drainStop := (erasedSectors s).isEmpty || s.evr.drainStop } }
  else { s with evr := { s.evr with drainStop := false } }

/-- An erase of the recorder region is over: drains go on, and R405 is weighed again. -/
def afterErase (s : State) : State :=
  recorderReclaim { s with evr := { s.evr with drainStop := s.evr.drainStop && (erasedSectors s).isEmpty } }

/-- NOR_OPERATION_DONE: a program of recorder slots ends by NOR_RECORD_PROGRAM_DONE instead. -/
def norOperationDoneEffect (s : State) : State :=
  match s.nvc.running with
  | none => s
  | some o => if o.drain then s else onlyIf (recorderErase o) afterErase (norComplete o s)

def execNorOperationDone (s : State) : Res := run .norOperationDone norOperationDoneEffect s

/-- Open the next sector: the first erased one after the sector just filled; its header takes the next SECTOR_SEQ. -/
def openSector (s : State) : State :=
  let l := erasedSectors s
  match (l.find? fun k => decide (s.evr.sector < k)).orElse fun _ => l.head? with
  | some k =>
    { s with
      nor := cellsWrite norDefault (sectorHeader s.glb.unitSerial (s.evr.sectorSeq + 1)) (sectorAddr k) s.nor,
      evr := { s.evr with sector := k, slot := 0, sectorSeq := s.evr.sectorSeq + 1, drainStop := false } }
  | none => { s with evr := { s.evr with drainStop := true } }

/-- The write point, in a sector with a header and a free slot. -/
def ensureSector (s : State) : State :=
  if s.evr.sectorSeq = 0 || decide (960 ≤ s.evr.slot) then openSector s else s

/-- The numbered pending records, in sequence order. -/
def pendingRecs (ev : Evr) : List EvRec := ev.ring.filter fun e => e.pending && e.seq.isSome

/-- May control pair 3, or the boot ROM in ROM-SERVICE, program the recorder region now (R403, R343)? -/
def drainAllowed (s : State) : Bool :=
  s.evr.baseSet && !s.evr.drainStop && !s.peer.pair3.inReset && norOpen s && !s.nvc.halted

/-- Start the next program, as NOR work (R41): up to 4 records that fall within one 256-byte page (R403). -/
def drainStart (s : State) : State :=
  if drainAllowed s && s.evr.inFlight == 0 && !(pendingRecs s.evr).isEmpty then
    let t := ensureSector s
    if t.evr.drainStop then t
    else
      let n := min (pendingRecs t.evr).length (min (4 - t.evr.slot % 4) (960 - t.evr.slot))
      norRequest { erase := false, addr := slotAddr t.evr.sector t.evr.slot, data := ((pendingRecs t.evr).take n).flatMap EvRec.bytes, drain := true }
        { t with evr := { t.evr with inFlight := n } }
  else s

/-- Mark the first `n` pending numbered records of the ring as programmed. -/
def markProgrammed : Nat → List EvRec → List EvRec
  | 0, r => r
  | _, [] => []
  | n + 1, e :: r =>
    if e.pending && e.seq.isSome then { e with pending := false } :: markProgrammed n r
    else e :: markProgrammed (n + 1) r

/-- The records of a program that completes are in NOR, from the write point on. -/
def drainMark (o : NorOp) (s : State) : State :=
  let n := min s.evr.inFlight (o.data.length / 64)
  let recs := (pendingRecs s.evr).take n
  { s with evr := { s.evr with
      ring := markProgrammed n s.evr.ring, inFlight := 0, slot := s.evr.slot + recs.length,
      norSeq := recs.foldl (fun m e => max m (e.seq.getD 0)) s.evr.norSeq } }

/-! ### The steps -/

/-- EVENT_OFFERED (R394, R395, R400, R401): a block's own record. -/
def offered (e : OfferedEvent) (s : State) : State :=
  offerRec (newRec e.blk e.sev (.listed e.code) [] e.payload s) s

def execEventOffered (e : OfferedEvent) (s : State) : Res := run (.eventOffered e) (offered e) s

/-- SUPPRESSED, code 0x3403: block, code, count, second. -/
def suppressedRec (s : State) (p : Blk × EvCode × Sev × Nat) : EvRec :=
  newRec .evr p.2.2.1 (.listed 0x3403) []
    (leBytes 1 (blkNo p.1) ++ leBytes 2 (p.2.1.num p.1) ++ leBytes 4 p.2.2.2 ++ leBytes 4 s.evr.supSecond.toNat) s

/-- AUTH BURST, code 0x3807: the AUTH answers of the last second. -/
def authBurst (s : State) : State :=
  if s.svc.authSecond = 0 then s
  else raiseListed .svc .fault 0x3807 (leBytes 4 s.svc.authSecond) { s with svc := { s.svc with authSecond := 0 } }

/-- SECOND_BOUNDARY (R401): one SUPPRESSED record for each pair with suppressions, and the counts begin again. -/
def secondBoundaryEffect (s : State) : State :=
  let t := { s with evr := { s.evr with counts := [], suppr := [], supSecond := 0 } }
  authBurst ((s.evr.suppr.map (suppressedRec s)).foldl (fun u e => { u with evr := ringAdmit e u.evr }) t)

def execSecondBoundary (s : State) : Res := run .secondBoundary secondBoundaryEffect s

/-- Number the records held since t0, in order of creation, from `n` on. -/
def numberHeld : Nat → List EvRec → List EvRec
  | _, [] => []
  | n, e :: r => { e with seq := some n } :: numberHeld (n + 1) r

/-- R404: the sector with the highest valid SECTOR_SEQ, its SECTOR_SEQ, and the slot after its last one that is not all
0xFF; sector 0 and SECTOR_SEQ 0 when no header is valid. -/
def newestSector (s : State) : Nat × Nat × Nat :=
  let l := (List.range 256).filterMap fun k => (sectorSeqOf s k).map fun n => (n, k)
  match l.foldl (fun (m : Option (Nat × Nat)) p => match m with
    | none => some p
    | some q => if q.1 < p.1 then some p else some q) none with
  | some (n, k) => (k, n, ((usedSlots s.nor).filter fun p => p.1 == k).foldl (fun m p => max m (p.2 + 1)) 0)
  | none => (255, 0, 0)

/-- R404: sectors that hold something and whose header fails are erased before use. -/
def eraseBadHeaders (s : State) : State :=
  let bad := (List.range 256).filter fun k => !sectorErased s.nor k && (sectorSeqOf s k).isNone
  forEach bad (fun k t => norRequest { erase := true, addr := sectorAddr k, data := [] } t) s

/-- R404: each slot whose record fails its CRC is skipped and counted by NOR SLOT BAD, code 0x3406. -/
def badSlots (s : State) : List Nat :=
  ((usedSlots s.nor).filter fun p => (slotRecord s p.1 p.2).isNone).map fun p => slotAddr p.1 p.2

/-- SEQUENCE_BASE_SET (R396, R404). Control pair 3 sets the base after the cores are released, the boot ROM on entry to
ROM-SERVICE; once set, it stays. -/
def sequenceBaseSetEffect (s : State) : State :=
  if s.evr.baseSet || !s.evr.accepts || !(s.pins.coresOut || s.glb.service == .romService) then s
  else
    let top := norHighest s
    let base := if top = 0 then 1 else top + 4096
    let bad := badSlots s
    let payload := leBytes 8 top ++ leBytes 8 base ++ leBytes 4 (resetCauseWord s.glb.cause)
    let sess := { newRec .evr .info (.listed 0x3401) [] payload s with seq := some base }
    let w := newestSector s
    let t := eraseBadHeaders s
    let t := { t with evr := { t.evr with
      baseSet := true, ring := makeRoom (sess :: numberHeld (base + 1) t.evr.ring),
      head := base + 1 + t.evr.ring.length, norSeq := top,
      sector := w.1, sectorSeq := w.2.1, slot := w.2.2, noSlots := bad } }
    bad.foldl (fun u a => raiseListed .evr .notice 0x3406 (leBytes 4 a) u) t
where
  resetCauseWord : ResetCause → Nat
    | .powerOn => 1 | .pin => 2 | .chipCmd => 4 | .lockstep0 => 8 | .startWdog => 16

def execSequenceBaseSet (s : State) : Res := run .sequenceBaseSet sequenceBaseSetEffect s

/-- NOR_RECORD_PROGRAM_DONE (R403, R405, R400): the records are in NOR, a LOST record may follow, and the next program starts. The
program that completes holds the records fixed when it was asked for: at the completion before it, or, when none was pending then,
those pending now (DESIGN CHOICE). Where other NOR work runs, it waits. -/
def norRecordProgramDoneEffect (s : State) : State :=
  let t := drainStart s
  match t.nvc.running with
  | some o => if o.drain then drainStart (recorderReclaim (lostCheck (norComplete o (drainMark o t)))) else t
  | none => t

def execNorRecordProgramDone (s : State) : Res := run .norRecordProgramDone norRecordProgramDoneEffect s

/-! ### Read channels (R408) -/

def rdChan (ev : Evr) (n : Fin 2) : RdChan := if n = 0 then ev.rd0 else ev.rd1

def setRdChan (n : Fin 2) (c : RdChan) (s : State) : State :=
  if n = 0 then { s with evr := { s.evr with rd0 := c } } else { s with evr := { s.evr with rd1 := c } }

/-- R408: RESULT 0 copies the record with the SEQ; 1 when it is not issued yet; 2 when it is not in the ring. -/
def channelRead (ev : Evr) (low : Word32) (q : Nat) : RdChan :=
  if ev.head ≤ q then { low := low, seq := BitVec.ofNat 64 q, done := true, result := 1, win := zeros 64 }
  else
    match ev.ring.find? fun e => e.seq == some q with
    | some e => { low := low, seq := BitVec.ofNat 64 q, done := true, result := 0, win := e.bytes }
    | none => { low := low, seq := BitVec.ofNat 64 q, done := true, result := 2, win := zeros 64 }

/-- EVR_READ_REQUEST (R408): the write of the upper word through the port's own channel. -/
def evrReadRequestEffect (n : Fin 2) (upper : Word32) (s : State) : State :=
  let low := (rdChan s.evr n).low
  setRdChan n (channelRead s.evr low (upper.toNat * 2 ^ 32 + low.toNat)) s

def execEvrReadRequest (n : Fin 2) (upper : Word32) (s : State) : Res :=
  run (.evrReadRequest n upper) (evrReadRequestEffect n upper) s

end Sys2Proof.Machine
end

