-- ==== Sys2Proof/Machine/Flags.lean ====
section
/-! DEFINITION. The register view: the value of every register of the control space as the field maps give it, which
words exist, and which of them host software may read or write (R6, R8, R10, R29, R30, R66). -/

namespace Sys2Proof.Machine

/-- A word of a 64-bit value at a base offset. -/
def word64 (base o n : Nat) : Option Nat :=
  if o = base then some (n % 2 ^ 32) else if o = base + 4 then some (n >>> 32) else none

/-- A signed byte. -/
def signedByte (n : Int) : Nat := (BitVec.ofInt 8 n).toNat

/-- A bit mask of the lanes 32k to 32k + 31 of a list. -/
def laneMask (l : List Nat) (k : Nat) : Nat :=
  (List.range 32).foldl (fun m j => if 32 * k + j ∈ l then m + 2 ^ j else m) 0

/-! ### GLB and CLK -/

def causeWord : ResetCause → Nat
  | .powerOn => 1 | .pin => 2 | .chipCmd => 4 | .lockstep0 => 8 | .startWdog => 16

def serviceCode : Service → Nat
  | .startUp => 0 | .normal => 1 | .test => 2 | .recovery => 3 | .romService => 4

/-- GLB.PART_ID (R2). -/
def partIdWord (s : State) : Nat := 0x96400000 + (if s.glb.steppingB0 then 0xB000 else 0xA000)

/-- GLB.STATE. -/
def stateWord (s : State) : Nat := s.glb.romCause.toNat <<< 24 + s.glb.step <<< 16 + serviceCode s.glb.service

/-- GLB.PROFILE. -/
def profileWord (s : State) : Nat :=
  flag s.glb.ovrValid 7 + s.glb.ovrSel.toNat <<< 4 + s.glb.pinSel.toNat <<< 2 + s.glb.activeSel.toNat

/-- GLB.BOOT_STATUS. -/
def bootStatusWord (s : State) : Nat :=
  s.wch.failedStarts <<< 24 + s.glb.defaulted <<< 16 + s.glb.ignored <<< 8 + flag s.glb.bankB 7 + flag s.glb.headerSecond 6

/-- GLB.FUSE. -/
def fuseWord (s : State) : Nat := flag s.glb.debugOff 31 + s.glb.revoked.toNat

/-- Cache lines retired over all slices. -/
def retiredLines (s : State) : Nat := sumBy (fun p => p.2.retired) s.cache.slices

/-- GLB.SRAM_ERR. -/
def sramErrWord (s : State) : Nat := s.cache.parRefetch <<< 20 + s.cache.scrCe <<< 8 + s.cache.scrUe <<< 4

def glbReg (s : State) (o : Nat) : Option Nat :=
  if o = 0x0 then some (partIdWord s)
  else if o = 0x10 then some (stateWord s)
  else if o = 0x14 then some (causeWord s.glb.cause)
  else if o = 0x18 then some (profileWord s)
  else if o = 0x1C then some (bootStatusWord s)
  else if o = 0x20 then some (fuseWord s)
  else if o = 0x200 then some s.cache.lockSteps
  else if o = 0x204 then some (sramErrWord s)
  else if o = 0x208 then some (retiredLines s)
  else word64 0x8 o s.glb.unitSerial.toNat

def paceCode : Pace → Nat
  | .thrift => 0 | .even => 1 | .sprint => 2

/-- PSTATE: P1 whenever THRIFT or the throttle is in force and the chip is not in P2 or P3 (R438). -/
def pstateCode (s : State) : Nat :=
  if 2 ≤ s.clk.pstate.val then s.clk.pstate.val
  else if s.clk.throttled || s.clk.pace == .thrift then 1 else 0

def clkReg (s : State) (o : Nat) : Option Nat :=
  if o = 0 then some (flag s.clk.throttled 31 + flag s.clk.changing 30 + pstateCode s <<< 4 + paceCode s.clk.pace)
  else if o = 4 then some (signedByte s.clk.tjNow <<< 24 + s.clk.tjSensor <<< 20 + signedByte s.clk.tjPeak)
  else if o = 8 then some s.clk.rails.toNat
  else none

/-! ### HEP and HQE -/

def portStatusWord (p : Port) : Nat :=
  p.width.val <<< 16 + p.rate.val <<< 12 + flag p.flit 11 + flag p.dlUp 10 + flag p.frozen 9 + flag p.cleanup 8 + p.numVf

def portLogWord (p : Port) : Nat := p.droppedDb <<< 16 + p.subsetViol

def portReg (p : Port) (o : Nat) : Option Nat :=
  if o = 0 then some (portStatusWord p)
  else if o = 4 then some (p.first <<< 8 + p.cause.toNat)
  else if o = 8 then some 0
  else if o = 0xC then some (portLogWord p)
  else if o = 0x10 then some (flag p.violWrite 31 + p.violOffset.toNat)
  else none

def hepReg (s : State) (o : Nat) : Option Nat :=
  if o < 0x10000 then portReg s.hep.port0 o else portReg s.hep.port1 (o - 0x10000)

/-- HQE.DB_QSTATE of a queue pair, or of an index that holds none. -/
def qstateWord (q : Option Qp) : Nat :=
  match q with
  | some q =>
    flag true 31 + flag q.frozen.isSome 30 + (q.frozen.getD 0) <<< 24
      + q.fetch
  | none => 0

/-- HQE.DB_ADMIN_STATUS. -/
def adminStatusWord (a : AdminRegs) (q : Option Qp) : Nat :=
  flag a.cfgErr 2 + flag (q.any fun x => x.frozen.isSome) 1 + flag (q.any fun x => x.frozen.isNone) 0

/-! ### ING and BAL -/

/-- S in use: the exchanged size, or S_lim while it is lower (R116, R225). -/
def stagingLimit (s : State) : Nat :=
  let a := match s.ing.sLim with
    | some n => min n s.ing.blocks
    | none => s.ing.blocks
  match s.ing.peerSLim with
  | some n => min n a
  | none => a

/-- Slots of the staging index that are not FREE. -/
def occupied (s : State) : Nat := s.ing.staging.length

/-- Does any write wait for a set (R120)? -/
def setWaiting (s : State) : Bool := s.hqe.cmds.any fun c => c.stage == .waitSet

def enginesOut (s : State) (k : EngClass) : Nat := (s.bal.engines.filter fun e => e.k == k && e.out).length

def engineTesting (s : State) (k : EngClass) : Bool := s.bal.engines.any fun e => e.k == k && e.testing

def ingSelftestWord (s : State) : Nat :=
  enginesOut s .compressor <<< 24 + enginesOut s .fingerprint <<< 16
    + (s.bal.engines.foldl (fun m e => if e.k == .chunker && e.out then m + 2 ^ e.n else m) 0) <<< 8
    + flag (engineTesting s .chunker) 0 + flag (engineTesting s .fingerprint) 1 + flag (engineTesting s .compressor) 2

def ingReg (s : State) (o : Nat) : Option Nat :=
  if o = 0 then some (stagingLimit s)
  else if o = 4 then some (flag (setWaiting s) 31 + occupied s)
  else if o = 8 then some s.ing.mirror.length
  else if o = 0xC then some (s.ing.lowPct <<< 24 + s.ing.highPct <<< 16 + s.ing.maxAgeMs <<< 8 + s.ing.idleUs)
  else if o = 0x50 then some s.ing.ccSlots
  else if o = 0x60 then some (ingSelftestWord s)
  else (((((((word64 0x10 o s.ing.chunksIn).orElse fun _ => word64 0x18 o s.ing.dupCache).orElse fun _ =>
    word64 0x20 o s.ing.dupHook).orElse fun _ => word64 0x28 o s.ing.unique).orElse fun _ =>
    word64 0x30 o s.ing.pulls).orElse fun _ => word64 0x38 o s.ing.verifyMiss).orElse fun _ =>
    word64 0x40 o s.ing.hookCap).orElse fun _ => word64 0x48 o s.ing.hooks.length

/-- BAL.DEC_ERR. -/
def decErrWord (s : State) : Nat := s.bal.illegal <<< 24 + s.bal.distance <<< 16 + s.bal.length <<< 8 + s.bal.runErr

/-- A decompressor holds a suspended job: it has stopped for want of input or of output space (R161). -/
def decSuspended (d : Decoder) : Bool := d.d.result.isNone

def balReg (s : State) (o : Nat) : Option Nat :=
  if o = 0x40 then some (decErrWord s)
  else if o = 0x44 then some s.bal.crcErr
  else if o = 0x60 then some (flag (engineTesting s .decompressor) 8 + enginesOut s .decompressor)
  else if o = 0x64 then some (s.bal.decoders.filter decSuspended).length
  else ((((((word64 0x0 o s.bal.encStatic).orElse fun _ => word64 0x8 o s.bal.encDynamic).orElse fun _ =>
    word64 0x10 o s.bal.encRaw).orElse fun _ => word64 0x18 o s.bal.bytesIn).orElse fun _ =>
    word64 0x20 o s.bal.bytesOut).orElse fun _ => word64 0x28 o s.bal.decBales).orElse fun _ =>
    word64 0x30 o s.bal.decRestart

/-! ### SEC -/

/-- A measurement register (R54). -/
def measOf (s : State) (n : Nat) : Bytes := tabGet (zeros 48) n s.sec.meas

/-- SEC.MEAS_COUNT. -/
def measCountWord (s : State) : Nat :=
  (List.range 8).foldl (fun m n => m + (tabGet 0 n s.sec.measCount) <<< (4 * n)) 0

def slotOf (s : State) (n : Nat) : Slot := tabGet {} n s.sec.slots

/-- The DOMAIN type's code (R166). -/
def typeDomain : BitVec 3 := 1

def keyStatusWord (s : State) : Nat :=
  (s.sec.slots.filter fun p => p.2.state == .active && p.2.type == typeDomain).length <<< 16
    + (s.sec.slots.filter fun p => p.2.state == .lost).length

def tamperWord (s : State) : Nat := flag s.wch.latched 7 + s.wch.causes.toNat

def rngCode : RngState → Nat
  | .unseeded => 0 | .seeded => 1 | .failed => 2 | .disabled => 3

def rngWord (s : State) : Nat :=
  s.sec.rng.fails <<< 24 + s.sec.rng.retry <<< 8 + s.sec.rng.sampler.val <<< 2 + rngCode s.sec.rng.st

def dgStatusWord (d : Dg) : Nat :=
  flag d.cmpDone 7 + flag d.matched 6 + flag d.earlyCmp 5 + flag d.earlyRead 4 + flag d.seqErr 3 + flag d.keyErr 2
    + flag d.done 1 + flag d.busy 0

def vaultWord (v : Vault) : Nat :=
  flag v.out 10 + flag v.testing 9 + flag v.suspended.isSome 8 + (v.urgent.length + v.normal.length)

/-- SEC.SEAL_ERR. -/
def sealErrWord (s : State) : Nat := s.sec.repaired <<< 16 + s.sec.failed

/-- Digest word n: 0 unless the result is valid (R191). -/
def dgResultWord (s : State) (n : Nat) : Nat := if s.sec.dg.done then numAt s.sec.dg.result (4 * n) 4 else 0

def secReg (s : State) (o : Nat) : Option Nat :=
  if o = 0 then some (keyStatusWord s)
  else if o = 4 then some (flag (engineTesting s .xts) 8 + enginesOut s .xts)
  else if o = 8 then some (sealErrWord s)
  else if 0x1000 ≤ o ∧ o < 0x1200 then
    some (if o % 0x40 < 48 then numAt (measOf s ((o - 0x1000) / 0x40)) (o % 0x40) 4 else 0)
  else if o = 0x1200 then some (measCountWord s)
  else if o = 0x2000 then some (s.sec.dg.keySlot.toNat <<< 16 + s.sec.dg.alg.toNat)
  else if o = 0x2004 then some (dgStatusWord s.sec.dg)
  else if o = 0x2008 ∨ o = 0x2010 then some 0
  else if o = 0x200C then some s.sec.dg.lastValid.toNat
  else if 0x2040 ≤ o ∧ o < 0x2070 then some 0
  else if 0x2080 ≤ o ∧ o < 0x20B0 then some (dgResultWord s ((o - 0x2080) / 4))
  else if o = 0x3000 then some (rngWord s)
  else if o = 0x4000 then some (vaultWord s.sec.vault)
  else if o = 0x5000 then some (tamperWord s)
  else none

/-! ### MED and Farium -/

/-- The trees and objects beside the maps and the chunk table carry their kind above the namespace: kind · 16,384 + NSID. -/
def objKey (kind nsid : Nat) : Nat := 16384 * kind + nsid

/-- The kind of a key's objects at level 0 (the object kinds): 2 a map page, 3 a chunk-table page, otherwise as the key says. -/
def keyKind (key : Nat) : Nat := if key / 16384 ≠ 0 then key / 16384 else if key = 0 then 3 else 2

def laneOf (s : State) (n : Nat) : Lane := tabGet {} n s.far.lanes

/-- The lanes whose modules this head holds. -/
def heldLanes (s : State) : List Nat := (List.range 96).filter fun n => (laneOf s n).st == .held

/-- A chunk of the other head's chunk table, while both heads serve and no return is under way (R203, R345). -/
def foreignChunk (s : State) (no : Nat) : Bool :=
  s.peer.role == .active && s.peer.linkUp && !s.pair.handback && !s.par.old && no != 0 && (no / 2 ^ 47 % 2 == 1) != s.glb.headId

/-- Blocks of a module that segments may use: those of its dies that are not flush dies (R210). -/
def moduleBlocks (i : ModInfo) : Nat := (i.channels * i.perChan - 8) * i.planes * i.blocks

/-- Blocks of a module that are in no segment. -/
def freeBlocks (s : State) (n : Nat) : Nat :=
  moduleBlocks (laneOf s n).info - sumBy (fun g => (g.members.filter fun m => m.lane == n).length) s.med.segs

/-- Modules of a slot that new segments may use: held, with their superblock read (R285), eligible, below the rated erase count (R218),
and named by no job (R264, R272). -/
def healthyLanes (s : State) (l : Layout) : List Nat :=
  (heldLanes s).filter fun n =>
    decide (n ∈ l.elig) && tabGet 0 n s.til.readFloor != 0 && !decide (n ∈ s.med.moduleRetired) && !(laneOf s n).released
      && !(s.par.jobs.any fun j => j.kind == .rebuild && j.die == 0xFFFF && decide (n ∈ j.lanes))

def parityStrips (l : Layout) : Nat := if l.q then 2 else 1

/-- D, or D' while fewer than W modules are healthy (R264). -/
def dNow (s : State) (l : Layout) : Nat :=
  if (healthyLanes s l).length < l.d + parityStrips l then (healthyLanes s l).length - parityStrips l else l.d

/-- Segments that the blocks in no segment can still form, under the ORDINARY layout (DEDUCED: R215 counts the head's
segments, and the segments of a fresh array are not formed before R264 allocates them). -/
def unformed (s : State) : Nat :=
  let w := dNow s s.par.ordinary + parityStrips s.par.ordinary
  if w = 0 then 0 else sumBy (freeBlocks s) (healthyLanes s s.par.ordinary) / w

/-- F of R215 in units of 0.1 %: the fraction of the head's segments that are FREE or DIRTY. -/
def freePermille (s : State) : Nat :=
  let all := s.med.segs.length + unformed s
  if all = 0 then 0
  else 1000 * ((s.med.segs.filter fun g => g.st == .free || g.st == .dirty).length + unformed s) / all

/-- Open dense blocks: those of open segments that are not in SLC mode (R211). -/
def openDense (s : State) : Nat :=
  sumBy (fun g => if (g.st == .open_ || g.st == .closing) && !g.slc then g.members.length else 0) s.med.segs

def laneCode : LaneState → Nat
  | .absent => 0 | .training => 1 | .identified => 2 | .held => 3 | .peerHeld => 4 | .lost => 5 | .fault => 6

/-- MED.SLC_STATUS.B_PPM10K: B over the held modules, their mean. -/
def slcMean (s : State) : Nat :=
  let h := heldLanes s
  if h = [] then 0 else sumBy (fun n => tabGet 0 n s.med.slcPpm) h / h.length

def laneStateWord (l : Lane) : Nat :=
  flag (l.st == .fault) 31 + l.cause.val <<< 28 + l.retrains <<< 12 + l.rate.val <<< 10 + laneCode l.st

def medReg (s : State) (o : Nat) : Option Nat :=
  if o = 0 then some (s.med.level <<< 30 + freePermille s)
  else if o = 4 then some (slcMean s <<< 16 + openDense s)
  else if o = 8 then some (s.med.maxErase <<< 24 + s.med.maxProg <<< 20 + s.med.maxSusp <<< 10 + s.med.minRun)
  else if o = 0x10 then some ((s.plf.tAvailNs / 100000) <<< 16 + (s.plf.tNeedNs + 99999) / 100000)
  else if o = 0x14 then some (flag s.plf.short 31 + s.plf.lastClass.val <<< 28 + s.plf.marks)
  else if 0x10000 ≤ o ∧ o < 0x10180 then some (laneStateWord (laneOf s ((o - 0x10000) / 4)))
  else if 0x10200 ≤ o ∧ o < 0x10380 then some (laneOf s ((o - 0x10200) / 4)).claim.toNat
  else (((((((((word64 0x20 o s.med.relocated).orElse fun _ => word64 0x28 o s.med.hostProg).orElse fun _ =>
    word64 0x30 o s.med.refreshed).orElse fun _ => word64 0x38 o s.med.mapFaults).orElse fun _ =>
    word64 0x40 o s.med.blocksRet).orElse fun _ => word64 0x10400 o s.far.crc).orElse fun _ =>
    word64 0x10408 o s.far.replays).orElse fun _ => word64 0x10410 o s.far.timeouts).orElse fun _ =>
    word64 0x10418 o s.far.claims).orElse fun _ => word64 0x10420 o s.far.uncorr

/-! ### PAR, DRC, PEER -/

def layoutWord (s : State) (l : Layout) : Nat := l.id <<< 16 + flag l.q 8 + dNow s l

/-- The running job: the oldest that is neither done nor waiting behind another. -/
def runningJob (s : State) : Option Job := s.par.jobs.head?

def jobKindCode : JobKind → Nat
  | .rebuild => 1 | .reshape => 2 | .buildBeside => 3

def jobWord (s : State) (headBit : Bool → Bool) : Nat :=
  match runningJob s with
  | none => 0
  | some j =>
    jobKindCode j.kind <<< 30 + j.phase <<< 28 + flag j.paused 27 + flag (headBit j.leader) 26
      + (s.par.jobs.filter fun x => x.kind == .rebuild).length <<< 16

/-- HEAD_ID of the leading head: this head's own when it leads. -/
def leaderHead (s : State) (lead : Bool) : Bool := if lead then s.glb.headId else !s.glb.headId

/-- Segments that hold data. -/
def dataSegs (s : State) : List Seg :=
  s.med.segs.filter fun g => !(g.st == .free || g.st == .dirty || g.st == .retired)

def parReg (s : State) (o : Nat) : Option Nat :=
  if o = 0 then some (layoutWord s s.par.ordinary)
  else if o = 4 then some (layoutWord s s.par.archive)
  else if o = 8 then some (layoutWord s s.par.metadata)
  else if o = 0x20 then some (jobWord s (leaderHead s))
  else if o = 0x24 then some (match runningJob s with
    | some j => j.cursor
    | none => 0)
  else if o = 0x28 then
    some ((dataSegs s).filter fun g => decide ((if g.q then 2 else 1) ≤ g.missing.length)).length
  else if o = 0x2C then some ((dataSegs s).filter fun g => g.q && g.missing.length == 1).length
  else if 0x30 ≤ o ∧ o < 0x3C then
    some (laneMask (s.par.ordinary.elig ++ s.par.archive.elig ++ s.par.metadata.elig) ((o - 0x30) / 4))
  else if 0x40 ≤ o ∧ o < 0x4C then some (laneMask s.par.vacated ((o - 0x40) / 4))
  else if o = 0x50 then some (s.par.days <<< 24 + s.par.maxMbps)
  else (((((word64 0x60 o s.par.stripes).orElse fun _ => word64 0x68 o s.par.mismatch).orElse fun _ =>
    word64 0x70 o s.par.repaired).orElse fun _ => word64 0x78 o s.par.unrepair).orElse fun _ =>
    word64 0x80 o s.par.degReads).orElse fun _ => word64 0x88 o s.par.rebuiltG

def bandOf (s : State) (c : Nat) : Nat := tabGet 0 c s.drc.bands

/-- Lines of the installed DRAM. -/
def dramLines (s : State) : Nat := s.drc.sizeGib * 2 ^ 24

def drcReg (s : State) (o : Nat) : Option Nat :=
  if o = 0 then some (s.drc.ranks <<< 24 + s.drc.rdimms <<< 16 + s.drc.sizeGib)
  else if o = 4 then
    some ((s.drc.nbands - 1) <<< 28 + (List.range 12).foldl (fun m c => m + bandOf s c <<< (2 * c)) 0)
  else if o = 8 then some s.drc.probLog2
  else if o = 0xC then
    some (s.drc.scrubH <<< 24 + (if dramLines s = 0 then 0 else 256 * s.drc.scrubLine / dramLines s))
  else if 0x10 ≤ o ∧ o < 0x1C then
    some ((List.range 4).foldl
      (fun m j => m + signedByte (tabGet 0 (4 * ((o - 0x10) / 4) + j) s.drc.temps) <<< (8 * j)) 0)
  else ((((word64 0x20 o s.drc.ce).orElse fun _ => word64 0x28 o s.drc.ue).orElse fun _ =>
    word64 0x30 o s.drc.nrIssued).orElse fun _ => word64 0x38 o s.drc.switches).orElse fun _ =>
    word64 0x40 o s.drc.inorder

def roleCode : Role → Nat
  | .active => 0 | .sole => 1 | .service => 2

def detectCode : Detect → Nat
  | .present => 0 | .suspect => 1 | .split => 2 | .takeover => 3 | .noPeer => 4

def peerStatusWord (s : State) : Nat :=
  roleCode s.peer.role <<< 30 + (match s.peer.peerRole with
    | some r => roleCode r
    | none => 3) <<< 28 + s.peer.lanes <<< 24 + flag s.peer.linkUp 23 + flag s.peer.aliveIn 22
    + flag s.peer.aliveOut 21 + detectCode s.peer.detect <<< 18 + s.peer.epoch.toNat

def peerReg (s : State) (o : Nat) : Option Nat :=
  if o = 0 then some (peerStatusWord s)
  else if o = 4 then some (s.peer.lastCause <<< 28)
  else if o = 8 then some s.peer.changeAt
  else if o = 0xC then some (s.peer.swapDays <<< 24 + s.peer.swapLeft <<< 16 + flag s.peer.swapHead 0)
  else if o = 0x10 then
    some (s.peer.pair0.faults + s.peer.pair1.faults <<< 8 + s.peer.pair2.faults <<< 16 + s.peer.pair3.faults <<< 24)
  else if o = 0x14 then some s.peer.wdog.toNat
  else ((((word64 0x20 o s.peer.missed).orElse fun _ => word64 0x28 o s.peer.replays).orElse fun _ =>
    word64 0x30 o s.peer.retrains).orElse fun _ => word64 0x38 o s.peer.stale).orElse fun _ =>
    word64 0x40 o s.peer.takeovers

/-! ### RDM and MCH -/

def pathOf (s : State) (a : Nat) : Path := tabGet {} a s.rdm.paths

def portMask (l : List Nat) : Nat := (List.range 4).foldl (fun m p => if p ∈ l then m + 2 ^ p else m) 0

def rdmReg (s : State) (o : Nat) : Option Nat :=
  if o < 0x10 then
    some (flag (decide (o / 4 ∈ s.rdm.links)) 31
      + (s.rdm.paths.filter fun p => decide (o / 4 ∈ p.2.ports)).length <<< 16)
  else if o = 0x10 then some (s.rdm.fedState.val <<< 30 + s.mch.address.toNat)
  else if o = 0x20 then some s.rdm.ccCfg0.toNat
  else if o = 0x24 then some s.rdm.ccCfg1.toNat
  else if 0x100 ≤ o ∧ o < 0x200 then
    let p := pathOf s ((o - 0x100) / 4)
    some (p.state.val <<< 30 + p.role.val <<< 28 + portMask p.ports <<< 24 + p.epoch.toNat)
  else (((((word64 0x200 o s.rdm.rxDiscard).orElse fun _ => word64 0x208 o s.rdm.tenantRej).orElse fun _ =>
    word64 0x210 o s.rdm.carRun).orElse fun _ => word64 0x218 o s.rdm.carMiss).orElse fun _ =>
    word64 0x220 o s.rdm.relayStale).orElse fun _ => word64 0x228 o s.rdm.annBad

def chainRoleCode : ChainRole → Nat
  | .none_ => 0 | .member => 1 | .master => 2 | .candidate => 3

def chainPortWord (p : ChainPort) : Nat := p.link.val <<< 30 + flag p.wrapped 29 + p.breaks

def mchReg (s : State) (o : Nat) : Option Nat :=
  if o = 0 then
    some (chainRoleCode s.mch.role <<< 30 + s.mch.gen.toNat <<< 8 + flag s.mch.addrValid 7 + s.mch.address.toNat)
  else if o = 4 then some (chainPortWord s.mch.port0)
  else if o = 8 then some (chainPortWord s.mch.port1)
  else (((word64 0x10 o s.mch.fedTime.toNat).orElse fun _ => word64 0x18 o s.mch.crcErr).orElse fun _ =>
    word64 0x20 o s.mch.hopsDrop).orElse fun _ => word64 0x28 o s.mch.enums

/-! ### EVR, SVC, NVC, WCH -/

def evrStatusWord (s : State) : Nat :=
  flag s.evr.baseSet 31 + flag (s.evr.drainStop || s.peer.pair3.inReset) 30 + pendingCount s.evr.ring

def evrRefusedWord (c : SevCount) : Nat := c.critical <<< 24 + c.fault <<< 16 + c.notice <<< 8 + c.info

def rdReg (c : RdChan) (o : Nat) : Option Nat :=
  if o = 8 then some (flag c.done 31 + c.result.val)
  else if 0x10 ≤ o ∧ o < 0x50 then some (numAt c.win (o - 0x10) 4)
  else word64 0 o c.seq.toNat

def evrReg (s : State) (o : Nat) : Option Nat :=
  if o = 0x20 then some (evrStatusWord s)
  else if o = 0x24 then some (evrRefusedWord s.evr.refused)
  else if 0x40 ≤ o ∧ o < 0xC0 then rdReg s.evr.rd0 (o - 0x40)
  else if 0xC0 ≤ o ∧ o < 0x140 then rdReg s.evr.rd1 (o - 0xC0)
  else (((word64 0x0 o s.evr.head).orElse fun _ => word64 0x8 o s.evr.oldest).orElse fun _ =>
    word64 0x10 o s.evr.norSeq).orElse fun _ => word64 0x18 o s.evr.archSeq

/-- SVC.STATUS. -/
def svcStatusWord (s : State) : Nat :=
  s.svc.stage.val <<< 30 + flag s.svc.stageBankB 29 + flag ((slotOf s 0x1FF3).state == .active) 28
    + flag s.svc.link 27 + s.svc.authFail

def nvcReg (s : State) (o : Nat) : Option Nat :=
  if o = 0 then some (flag s.nvc.supBand 16 + s.nvc.dummy <<< 8 + s.nvc.freqMhz)
  else if o = 4 then some (s.nvc.maxSusp.toNat <<< 16 + s.nvc.minRun.toNat <<< 8 + s.nvc.tsus.toNat)
  else if o = 8 then
    some (flag s.nvc.wrRefused 7 + flag s.nvc.sectorBusy 6 + flag (suspendedKind true) 5 + flag (suspendedKind false) 4)
  else none
where
  suspendedKind (e : Bool) : Bool := s.nvc.suspended.any fun x => x.erase == e

def wchReg (s : State) (o : Nat) : Option Nat :=
  if o = 0 then some s.wch.opSeconds
  else if o = 4 then some s.wch.powerCycles
  else if o = 8 then some (flag s.wch.wrLost 2 + flag s.wch.pending.isSome 1 + flag s.wch.valid 0)
  else if o = 0x10 ∨ o = 0x14 then some 0
  else none

/-! ### The control space -/

/-- The value of the aligned word at an offset of the control space; none where no register is implemented (R10). -/
def regWord (s : State) (o : Nat) : Option Nat :=
  if o < 0x100000 then glbReg s o
  else if o < 0x200000 then clkReg s (o - 0x100000)
  else if o < 0x400000 then hepReg s (o - 0x200000)
  else if o < 0x800000 then none
  else if o < 0x900000 then ingReg s (o - 0x800000)
  else if o < 0xA00000 then balReg s (o - 0x900000)
  else if o < 0xC00000 then secReg s (o - 0xA00000)
  else if o < 0xD00000 then medReg s (o - 0xC00000)
  else if o < 0xE00000 then parReg s (o - 0xD00000)
  else if o < 0xF00000 then drcReg s (o - 0xE00000)
  else if o < 0x1000000 then peerReg s (o - 0xF00000)
  else if o < 0x1100000 then rdmReg s (o - 0x1000000)
  else if o < 0x1200000 then mchReg s (o - 0x1100000)
  else if o < 0x1300000 then evrReg s (o - 0x1200000)
  else if o < 0x1400000 then (if o = 0x1300000 then some (svcStatusWord s) else none)
  else if o < 0x1500000 then nvcReg s (o - 0x1400000)
  else if o < 0x1600000 then wchReg s (o - 0x1500000)
  else none

/-- Is a word one that host software may read through PF0 BAR0 (R29), outside START-UP and ROM-SERVICE? The field maps of
GLB.PART_ID, GLB.SRAM_CFG, GLB.SRAM_ERR and GLB.SRAM_RETIRED carry no host-readable mark (DEDUCED). -/
def hostReads (s : State) (o : Nat) : Bool :=
  (regWord s o).isSome &&
    ((decide (8 ≤ o) && decide (o < 0x24))
      || (decide (0x100000 ≤ o) && decide (o < 0xA00000))
      || (decide (0xA01000 ≤ o) && decide (o < 0xA01204))
      || (decide (0xA02080 ≤ o) && decide (o < 0xA020B0))
      || (decide (0xC00000 ≤ o) && decide (o < 0x1300000))
      || (decide (0x1500000 ≤ o) && decide (o < 0x1500008)))

/-- Is a word one that host software may write through PF0 BAR0 of a port (R29, R66)? -/
def hostWrites (p : Fin 2) (o : Nat) : Bool :=
  let h := 0x200000 + 0x10000 * p.val
  let e := 0x1200040 + 0x80 * p.val
  o == h + 4 || o == h + 8 || o == e || o == e + 4

/-- Is an access of a port to a word inside the host-permitted subset now (R29, R30)? In START-UP and ROM-SERVICE only
reads of GLB are. -/
def insideSubset (s : State) (p : Fin 2) (write : Bool) (o : Nat) : Bool :=
  if s.glb.service == .startUp || s.glb.service == .romService then !write && decide (o < 0x100000) && hostReads s o
  else if write then hostWrites p o else hostReads s o

/-- A requester's access to a word is inside what it may reach: any register for the processors and DEBUG ACCESS. -/
def reaches (s : State) (q : Requester) (write : Bool) (o : Nat) : Bool :=
  match q with
  | .host p => insideSubset s p write o
  | _ => true

/-- R6: 32 or 64 bits wide and aligned to 4 bytes. -/
def acceptedAccess (o w : Nat) : Bool := (w == 32 || w == 64) && o % 4 == 0

/-- The aligned words that an access reaches. -/
def accessWords (o w : Nat) : List Nat :=
  (List.range ((o % 4 + w / 8 + 3) / 4)).map fun i => o / 4 * 4 + 4 * i

/-- What an access returns, word by word, words outside the subset as 0 (R10). -/
def readWords (s : State) (q : Requester) (o w : Nat) : Nat :=
  (accessWords o w).foldr (fun a n => (if reaches s q false a then (regWord s a).getD 0 else 0) + n * 2 ^ 32) 0

/-- What a read of any width returns: each byte it addresses of its aligned word (R6). -/
def readValue (s : State) (q : Requester) (o w : Nat) : Nat := (readWords s q o w >>> (8 * (o % 4))) % 2 ^ w

end Sys2Proof.Machine
end

