-- ==== Sys2Proof/Machine/Operands.lean ====
section
/-! DEFINITION. The fields of a command entry and the checks of admission that need no stored state beyond the service
state: opcodes and functions (R92), fields, block counts and data pointers (R90, the table of opcode-specific fields),
service state (R93). -/

namespace Sys2Proof

/-! ### The fields of a command entry -/

def HostCmd.op (c : HostCmd) : Nat := c.opcode.toNat
def HostCmd.tagged (c : HostCmd) : Bool := c.flags.getLsbD 0
def HostCmd.ordered (c : HostCmd) : Bool := c.flags.getLsbD 1
def HostCmd.isList (c : HostCmd) : Bool := c.flags.getLsbD 2
def HostCmd.remote (c : HostCmd) : Bool := c.flags.getLsbD 3
def HostCmd.ns (c : HostCmd) : Nat := c.nsid.toNat
def HostCmd.blocks (c : HostCmd) : Nat := c.nblk.toNat
def HostCmd.start (c : HostCmd) : Nat := c.lba.toNat
def HostCmd.d7 (c : HostCmd) : Nat := c.cdw7.toNat
def HostCmd.d30 (c : HostCmd) : Nat := c.cdw12.toNat
def HostCmd.d34 (c : HostCmd) : Nat := c.cdw13.toNat
def HostCmd.d38 (c : HostCmd) : Nat := c.cdw14.toNat
def HostCmd.d3C (c : HostCmd) : Nat := c.cdw15.toNat
/-- The 8 bytes at 0x30. -/
def HostCmd.q30 (c : HostCmd) : Nat := c.d34 * 2 ^ 32 + c.d30
/-- The host write tag, when TAGGED is 1. -/
def HostCmd.tagOf (c : HostCmd) : Option Word64 := if c.tagged then some c.hostTag else none

/-- The buffers of a READ or WRITE in the order of use: address and length. -/
def HostCmd.bufs (c : HostCmd) : List (Nat × Nat) :=
  if c.isList then c.dlist.map fun d => (d.addr.toNat, d.len.toNat) else [(c.dptr0.toNat, c.blocks * 4096)]

end Sys2Proof

namespace Sys2Proof.Machine

/-! ### Opcodes (R92) -/

/-- The kinds of queue that an opcode may be issued on. -/
inductive QueueKind where
  | admin | io | either
  deriving DecidableEq, Repr

/-- The queue and the functions of a listed opcode: kind of queue, and whether only PF0 may issue it. -/
def opcodeRow (op : Nat) : Option (QueueKind × Bool) :=
  if op ∈ [0x01, 0x02, 0x03, 0x04, 0x05] then some (.admin, false)
  else if op ∈ [0x06, 0x07, 0x08, 0x09, 0x10, 0x11, 0x12, 0x14, 0x15] then some (.admin, true)
  else if 0x20 ≤ op ∧ op ≤ 0x26 then some (.admin, true)
  else if op ∈ [0x30, 0x31, 0x32, 0x33, 0x34, 0x38, 0x39, 0x3A, 0x3B, 0x3C] then some (.admin, true)
  else if op ∈ [0x80, 0x81, 0x82] then some (.io, false)
  else if op = 0x88 then some (.either, false)
  else none

def isPf (f : FnId) : Bool := f.fn == 0

/-- Step 1 of admission (R92): the status of an opcode that may not be issued here. -/
def opcodeCheck (op : Nat) (admin : Bool) (f : FnId) (tenant : Option Nat) : Option Word16 :=
  match opcodeRow op with
  | none => some 0x1001
  | some (k, pfOnly) =>
    if (admin && k == .io) || (!admin && k == .admin) then some 0x1001
    else if pfOnly && !isPf f then some 0x1006
    else if !isPf f && tenant.isNone && op != 0x04 && op != 0x05 then some 0x2003
    else none

/-! ### Flags and opcode-specific fields -/

/-- The bits of each field that an opcode uses: FLAGS, and the words from NSID on. -/
structure FieldMask where
  flags : Nat := 0x02
  nsid  : Nat := 0
  lba   : Bool := false
  nblk  : Bool := false
  d7    : Nat := 0
  dptr  : Bool := false
  d30   : Nat := 0
  d34   : Nat := 0
  d38   : Nat := 0
  d3C   : Nat := 0
  deriving DecidableEq, Repr

def all32 : Nat := 0xFFFFFFFF

/-- The fields that each opcode uses (the tables of opcode-specific fields, of R170 and of R316). -/
def fieldMask (op : Nat) : FieldMask :=
  if op = 0x01 then { d7 := 0x0F00FFFF, dptr := true, d30 := all32, d34 := all32, d38 := 0xFFFF07FF, d3C := 0xFFF }
  else if op = 0x02 then { d7 := 0xFFFF }
  else if op = 0x03 then { d7 := 0x8000FFFF }
  else if op = 0x04 then { d7 := 0xFF, dptr := true }
  else if op = 0x05 then { d7 := 0xFF, dptr := true, d3C := 0xFFF }
  else if op = 0x06 ∨ op = 0x07 then { d7 := 0x3 }
  else if op = 0x08 then { d7 := 0x80000003 }
  else if op = 0x09 then { d7 := all32 }
  else if op = 0x10 then { d7 := all32, d30 := all32, d34 := 0x3, d38 := 0xFFF }
  else if op = 0x11 then { d3C := 0xFFF }
  else if op = 0x12 then { d7 := 0x8FFF00FF }
  else if op = 0x14 then { lba := true, d7 := all32, d3C := 0xFFF }
  else if op = 0x15 then { nsid := 0x3FFF }
  else if op = 0x20 then { d7 := 0x03071FFF, dptr := true, d30 := 0x1FFF, d38 := all32, d3C := 0xFFF }
  else if op = 0x21 then { d7 := 0x02071FFF, d3C := 0xFFF }
  else if op = 0x22 then { d7 := 0x01001FFF, dptr := true, d30 := 0x1FFF, d38 := all32 }
  else if op = 0x23 then { d7 := 0x1FFF }
  else if op = 0x24 then { d7 := 0x1FFF, dptr := true }
  else if op = 0x25 then { nsid := 0x3FFF, d7 := 0x1FFF }
  else if op = 0x26 then { d7 := 0x80001FFF, dptr := true, d30 := all32, d34 := all32, d38 := all32 }
  else if op = 0x30 then { d7 := 0x80000FFF, dptr := true, d38 := all32 }
  else if op = 0x31 then { nsid := 0x3FFF, d7 := 0x80000FFF, dptr := true }
  else if op = 0x32 ∨ op = 0x34 ∨ op = 0x39 then { nsid := 0x3FFF, d7 := all32 }
  else if op = 0x33 then { nsid := 0x3FFF, dptr := true, d38 := all32 }
  else if op = 0x38 then { nsid := 0x3FFF, d7 := 0x3, dptr := true }
  else if op = 0x3A then { nsid := 0x3FFF }
  else if op = 0x3B ∨ op = 0x3C then { nsid := 0x3FFF, dptr := true }
  else if op = 0x80 then { flags := 0x0E, nsid := 0x3FFF, lba := true, nblk := true, dptr := true }
  else if op = 0x81 then { flags := 0x0F, nsid := 0x3FFF, lba := true, nblk := true, dptr := true }
  else if op = 0x82 then { flags := 0x0A, nsid := 0x3FFF, lba := true, nblk := true }
  else if op = 0x88 then
    { flags := 0x0A, dptr := true, d30 := all32, d34 := all32, d38 := all32,
      d3C := 0xC0000FFF }
  else {}

/-- No bit of a value outside a mask. -/
def within (n mask : Nat) : Bool := n &&& mask == n

/-- Are all the fields that the opcode does not use 0? HOST_TAG is ignored when TAGGED is 0. -/
def unusedZero (c : HostCmd) (m : FieldMask) : Bool :=
  within c.flags.toNat m.flags && within c.nsid.toNat m.nsid && (m.lba || c.lba == 0) && (m.nblk || c.nblk == 0)
    && (if c.remote then within c.fed.toNat 0x3F else c.fed == 0) && c.rsv7 == 0 && c.rsv2c == 0
    && within c.d7 m.d7 && (m.dptr || c.dptr0 == 0) && within c.d30 m.d30 && within c.d34 m.d34
    && within c.d38 m.d38 && within c.d3C m.d3C
    && (c.isList || (c.opcode == 0x80 || c.opcode == 0x81) || c.dlistLen == 0)

/-! ### Data pointers (R90) -/

def descOk (d : Desc) : Bool :=
  d.addr.toNat % 4 == 0 && d.len.toNat % 4 == 0 && decide (4 ≤ d.len.toNat) && decide (d.len.toNat ≤ 1048576) && d.rsv == 0

/-- R90. -/
def dataPtrOk (c : HostCmd) : Bool :=
  if c.isList then
    c.dptr0.toNat % 16 == 0 && decide (1 ≤ c.dlistLen.toNat) && decide (c.dlistLen.toNat ≤ 256)
      && c.dlist.all descOk && sumBy (fun d => d.len.toNat) c.dlist == c.blocks * 4096
  else c.dlistLen == 0 && c.dptr0.toNat % 4 == 0

/-- Data of a command at a byte offset, laid over its buffers: address and bytes of each piece. -/
def scatter : List (Nat × Nat) → Nat → Bytes → List (Nat × Bytes)
  | [], _, _ => []
  | (a, n) :: r, off, d =>
    if d.isEmpty then []
    else if n ≤ off then scatter r (off - n) d
    else (a + off, d.take (n - off)) :: scatter r 0 (d.drop (n - off))

/-! ### Field values -/

/-- A value within the meaning column, for the checks that need nothing but the entry (0x1002). -/
def fieldValues (op : Nat) (c : HostCmd) (pf : Bool) : Bool :=
  if op = 0x01 then
    decide (4 ≤ bitsOf c.d7 27 24) && decide (bitsOf c.d7 27 24 ≤ 14)
      && decide (1 ≤ bitsOf c.d38 10 0) && (pf || decide (bitsOf c.d38 10 0 ≤ 63))
  else if op = 0x02 then decide (1 ≤ c.d7)
  else if op = 0x04 then decide (c.d7 ≤ 1)
  else if op = 0x05 then c.d7 == 1 || c.d7 == 2
  else if op = 0x06 then c.d7 != 1
  else if op = 0x07 then decide (c.d7 ≤ 2)
  else if op = 0x09 then c.d7 == 0x96400001
  else if op = 0x10 then decide (256 ≤ c.d7)
  else if op = 0x12 then decide (1 ≤ bitsOf c.d7 7 0)
  else if op = 0x14 then within c.d7 0xFB && decide (1 ≤ c.start)
  else if op = 0x30 then decide (c.d38 ≤ 256) && (bitOf c.d7 31 || decide (1 ≤ c.d38))
  else if op = 0x33 then c.d38 % 128 == 0
  else if op = 0x26 then decide (c.d38 ≤ 1048576)
  else if op = 0x88 then decide (1 ≤ c.d38) && decide (c.d38 ≤ 256)
  else true

/-- The alignment of the buffers that an opcode names besides R90 (0x1005): the queue bases of CREATE QP to 4 KiB (R86),
a STATE QUERY's tag array to 8 and its result buffer to 16, KEY CMAC's tag to 16, and every other buffer to 4 (R90). -/
def buffersOk (op : Nat) (c : HostCmd) : Bool :=
  if op = 0x01 then c.dptr0.toNat % 4096 == 0 && c.q30 % 4096 == 0
  else if op = 0x80 ∨ op = 0x81 then dataPtrOk c
  else if op = 0x88 then c.dptr0.toNat % 8 == 0 && c.q30 % 16 == 0
  else if op = 0x26 then c.dptr0.toNat % 4 == 0 && c.q30 % 16 == 0
  else c.dptr0.toNat % 4 == 0

/-- Step 2 of admission: 0x1002, then 0x1004, then 0x1005. -/
def fieldCheck (c : HostCmd) : Option Word16 :=
  let op := c.op
  let pf := isPf c.q.f
  if !unusedZero c (fieldMask op) || !fieldValues op c pf then some 0x1002
  else if (fieldMask op).nblk && (c.blocks == 0 || decide (256 < c.blocks)) then some 0x1004
  else if !buffersOk op c then some 0x1005
  else none

/-! ### Service state (R93) -/

/-- Commands that R93 completes with 0x7001 outside NORMAL. -/
def needsNormal (op : Nat) : Bool := op == 0x80 || op == 0x81 || op == 0x82 || (decide (0x30 ≤ op) && decide (op ≤ 0x3F))

/-- Step 3 of admission. -/
def serviceCheck (op : Nat) (v : Service) : Option Word16 :=
  if needsNormal op && v != .normal then some 0x7001 else none

/-- The first of two checks that fails. -/
def firstOf (a : Option Word16) (b : Option Word16) : Option Word16 :=
  match a with
  | some x => some x
  | none => b

/-- Steps 1 to 3 of admission. -/
def entryCheck (c : HostCmd) (admin : Bool) (tenant : Option Nat) (v : Service) : Option Word16 :=
  firstOf (opcodeCheck c.op admin c.q.f tenant) (firstOf (fieldCheck c) (serviceCheck c.op v))

/-! ### Block ranges -/

/-- Do two block ranges share a block? -/
def overlap (a n b m : Nat) : Bool := decide (a < b + m) && decide (b < a + n)

end Sys2Proof.Machine
end

