-- ==== Sys2Proof/Machine/Queues.lean ====
section
/-! DEFINITION. Queue pairs: interrupts (R78, R89), completion entries (R88), freezes and the queue error log (R110), the
settlement log (R105 to R107), staging credits (R102, R103), and the end of a command. -/

namespace Sys2Proof.Machine

/-! ### Queue pairs and interrupts -/

def qpOf (s : State) (k : QKey) : Option Qp := s.hqe.qps.find? fun q => q.key == k

def modQp (k : QKey) (f : Qp → Qp) (s : State) : State :=
  { s with hqe := { s.hqe with qps := modFirst (fun q => q.key == k) f s.hqe.qps } }

/-- A vector of a function; an entry that nothing has written is masked (PRESUMED, the MSI-X default). -/
def vectorOf (s : State) (f : FnId) (v : Nat) : Vector_ :=
  (s.hep.msix.find? fun e => e.f == f && e.vec == v).getD ⟨f, v, 0, 0, true, false⟩

def putVector (e : Vector_) (s : State) : State :=
  { s with hep := { s.hep with msix := (s.hep.msix.filter fun x => !(x.f == e.f && x.vec == e.vec)) ++ [e] } }

/-- R78: a message, or the pending bit while the vector or the function is masked; nothing while the port is frozen. -/
def signal (f : FnId) (v : Nat) (s : State) : State :=
  if (portOf s f.port).frozen then s
  else if (vectorOf s f v).masked || f ∈ s.hep.fnMask then putVector { vectorOf s f v with pending := true } s
  else emit (.msix f v) s

/-! ### Completion entries (R88, R89) -/

def cqSize (q : Qp) : Nat := 2 ^ q.cqLog2
def sqSize (q : Qp) : Nat := 2 ^ q.sqLog2

/-- The last free slot, the one before the head, is never filled. -/
def cqFull (q : Qp) : Bool := (q.cqTail + 1) % cqSize q == q.cqHead

/-- The queue pair after one more entry is posted; the phase inverts at the end of a pass. -/
def cqAdvance (q : Qp) : Qp :=
  { q with cqTail := (q.cqTail + 1) % cqSize q, phase := if q.cqTail + 1 = cqSize q then !q.phase else q.phase }

/-- Write one completion entry and signal as R89 gives: vector 0 for every entry of the administrative CQ; the CQ's own
vector once AGG entries stand unsignalled. -/
def postOne (k : QKey) (e : Cqe) (s : State) : State :=
  match qpOf s k with
  | none => s
  | some q =>
    let t := modQp k cqAdvance (emit (.completion k q.cqTail q.phase q.fetch e) s)
    if q.admin then signal k.f 0 t
    else if q.agg ≤ q.unsig + 1 then signal k.f q.vec (modQp k (fun x => { x with unsig := 0 }) t)
    else modQp k (fun x => { x with unsig := x.unsig + 1 }) t

/-- A completion of a queue pair: posted, or waiting while the CQ is full; none on a frozen port. -/
def postCqe (k : QKey) (e : Cqe) (s : State) : State :=
  match qpOf s k with
  | none => s
  | some q =>
    if (portOf s k.f.port).frozen then s
    else if cqFull q || !q.waiting.isEmpty then modQp k (fun x => { x with waiting := x.waiting ++ [e] }) s
    else postOne k e s

/-- Post what waits while slots are free, at most `n` entries. -/
def postWaiting (k : QKey) : Nat → State → State
  | 0, s => s
  | n + 1, s =>
    match qpOf s k with
    | none => s
    | some q =>
      match q.waiting with
      | [] => s
      | e :: r =>
        if cqFull q then s else postWaiting k n (postOne k e (modQp k (fun x => { x with waiting := r }) s))

/-! ### The settlement log (R105 to R107) -/

def settleCap : Nat := 16777216
def pinCap : Nat := 1048576

/-- Is an entry this head's own for a tenant and tag? -/
def isTag (t : Nat) (g : Word64) (e : Settle) : Bool := !e.ofPeer && e.tenant == t && e.tag == g

def settleFind (s : State) (t : Nat) (g : Word64) : Option Settle := s.hqe.settle.find? (isTag t g)

/-- R107: the tag matches a PENDING or pinned entry. -/
def tagBusy (s : State) (t : Nat) (g : Word64) : Bool := s.hqe.settle.any fun e => isTag t g e && (e.outcome == 4 || e.pinned)

/-- A message to the peer while the link session stands. -/
def toPeer (type : Nat) (args : List Nat) (data : Bytes) (s : State) : State :=
  if s.peer.linkUp then emit (.peerMsg (BitVec.ofNat 8 type) s.peer.epoch args data) s else s

/-- The log entry's copy at the peer, while this head mirrors (R105). -/
def mirrorSettle (e : Settle) (s : State) : State :=
  if s.peer.role = .active then
    toPeer 0x13 [e.tenant, e.tag.toNat, e.nsid, e.outcome.val, e.count] [] s
  else s

def addSettle (e : Settle) (s : State) : State :=
  mirrorSettle e { s with hqe := { s.hqe with settle := s.hqe.settle ++ [{ e with order := s.hqe.order }], order := s.hqe.order + 1 } }

/-- Remove the first entry that meets a test. -/
def dropSettle (p : Settle → Bool) (s : State) : State := { s with hqe := { s.hqe with settle := s.hqe.settle.eraseP p } }

/-- The number of this head's own entries. -/
def ownEntries (s : State) : Nat := (s.hqe.settle.filter fun e => !e.ofPeer).length

/-- Room for one more entry when the log is full (R106): none when every entry is PENDING. -/
def settleRoom (s : State) : Option State :=
  if ownEntries s < settleCap then some s
  else if s.hqe.settle.any fun e => !e.ofPeer && e.outcome != 4 && !e.pinned then
    some (dropSettle (fun e => !e.ofPeer && e.outcome != 4 && !e.pinned) s)
  else
    match s.hqe.settle.find? fun e => !e.ofPeer && e.outcome != 4 with
    | some e => some (raise .hqe .fault 106 0 [e.tenant, e.tag.toNat]
        (dropSettle (fun x => !x.ofPeer && x.outcome != 4) s))
    | none => none

/-- R105: a PENDING entry; a match that is neither PENDING nor pinned is replaced (R107). -/
def settleCreate (t : Nat) (g : Word64) (nsid qp : Nat) (s : State) : Option State :=
  let u := dropSettle (isTag t g) s
  match settleRoom u with
  | some v => some (addSettle ⟨t, g, nsid, 4, 0, false, qp, 0, 0, false⟩ v)
  | none => none

/-- The outcome of a write of which the first `k` of `n` blocks are committed (R91, R105). -/
def outcomeOf (k n : Nat) : Fin 5 × Nat := if n ≤ k then (1, n) else if k = 0 then (2, 0) else (3, k)

/-- A PENDING entry settles. -/
def settleTag (t : Nat) (g : Word64) (k n : Nat) (s : State) : State :=
  match settleFind s t g with
  | none => s
  | some e =>
    let d := { e with outcome := (outcomeOf k n).1, count := (outcomeOf k n).2, at_ := nowS s }
    mirrorSettle d { s with hqe := { s.hqe with settle := modFirst (isTag t g) (fun _ => d) s.hqe.settle } }

/-- Unpin the oldest pinned entries beyond the limit, with a Fault event for each (R106). -/
def pinTrim : Nat → State → State
  | 0, s => s
  | n + 1, s =>
    if pinCap < (s.hqe.settle.filter fun e => e.pinned).length then
      match s.hqe.settle.find? fun e => e.pinned with
      | some e => pinTrim n (raise .hqe .fault 106 1 [e.tenant, e.tag.toNat]
          { s with hqe := { s.hqe with settle := modFirst (fun x => x.pinned) (fun x => { x with pinned := false }) s.hqe.settle } })
      | none => s
    else s

/-- R106: an event pins the entries of the affected queue pairs that are PENDING or settled within the second before. -/
def pinEntries (p : Settle → Bool) (s : State) : State :=
  let hit := fun e : Settle => p e && !e.pinned && (e.outcome == 4 || decide (nowS s ≤ e.at_ + 1))
  let n := (s.hqe.settle.filter hit).length
  pinTrim n { s with hqe := { s.hqe with settle := modAll hit (fun e => { e with pinned := true }) s.hqe.settle } }

/-- Pin what belongs to queue pair IDs of this head. -/
def pinQps (ids : List Nat) (s : State) : State := pinEntries (fun e => !e.ofPeer && decide (e.qp ∈ ids)) s

/-! ### Freezes (R110) -/

/-- The error records of a function, newest first, 64 at most. -/
def logError (r : QErr) (s : State) : State :=
  let mine := (r :: s.hqe.errLog.filter fun x => x.f == r.f).take 64
  let rest := s.hqe.errLog.filter fun x => !(x.f == r.f)
  { s with hqe := { s.hqe with
    errLog := mine ++ rest, errSeq := (s.hqe.errSeq.filter fun x => !(x.1 == r.f)) ++ [(r.f, r.seq)] } }

def nextErrSeq (s : State) (f : FnId) : Nat :=
  match s.hqe.errSeq.find? fun x => x.1 == f with
  | some x => x.2 + 1
  | none => 1

/-- A queue pair freezes: no further fetch, a record in the function's error log, and vector 0, except when the port
itself froze (cause 5); the queue's recent settlement entries are pinned (R106). -/
def freezeQueue (k : QKey) (cause idx : Nat) (head : Bytes) (s : State) : State :=
  match qpOf s k with
  | none => s
  | some q =>
    if q.frozen.isSome then s
    else
      let r : QErr := ⟨k.f, nextErrSeq s k.f, q.id, k.idx.toNat, cause, idx, (stampSeconds s).toNat,
        (stampCycles s).toNat, padTo 32 head⟩
      let t := logError r (pinQps [q.id] (modQp k (fun x => { x with frozen := some cause, freezeIdx := idx }) s))
      if cause = 5 then t else signal k.f 0 t

/-! ### Staging credits (R102, R103, R225) -/

def tenantOf (s : State) (t : Nat) : Option Tenant := s.hqe.tenants.find? fun x => x.id == t

def modTenant (t : Nat) (f : Tenant → Tenant) (s : State) : State :=
  { s with hqe := { s.hqe with tenants := modFirst (fun x => x.id == t) f s.hqe.tenants } }

def sumG (s : State) : Nat := sumBy (·.g) s.hqe.tenants

/-- P: what the guarantees leave of the staging blocks in force. -/
def poolSize (s : State) : Nat := stagingLimit s - sumG s

def poolHeld (s : State) : Nat := sumBy (·.pHeld) s.hqe.tenants

def capInForce (s : State) (t : Tenant) : Nat := min t.c (poolSize s)

/-- One credit comes back: the pool holding first. -/
def returnCredit (t : Option Nat) (s : State) : State :=
  match t with
  | none => s
  | some n => modTenant n (fun x =>
      if 0 < x.pHeld then { x with pHeld := x.pHeld - 1 } else { x with gHeld := x.gHeld - 1 }) s

/-- What a grant of `n` blocks takes from the guarantee. -/
def fromGuarantee (t : Tenant) (n : Nat) : Nat := min n (t.g - t.gHeld)

/-- How the credits of `n` blocks stand for a tenant. -/
inductive CreditState where
  | granted | capped | poolShort
  deriving DecidableEq, Repr

/-- Is a limit S_lim in force, with the occupied slots at or above it (R225)? -/
def limitReached (s : State) : Bool :=
  (s.ing.sLim.isSome || s.ing.peerSLim.isSome) && decide (stagingLimit s ≤ occupied s)

def creditState (s : State) (t : Tenant) (n : Nat) : CreditState :=
  let need := n - fromGuarantee t n
  if need = 0 then .granted
  else if capInForce s t < t.pHeld + need then .capped
  else if limitReached s || decide (poolSize s < poolHeld s + need) then .poolShort
  else .granted

/-- Take the credits of `n` blocks. -/
def takeCredits (t n : Nat) (s : State) : State :=
  modTenant t (fun x => { x with gHeld := x.gHeld + fromGuarantee x n, pHeld := x.pHeld + (n - fromGuarantee x n) }) s

/-! ### The end of a command -/

def cmdOf (s : State) (id : Nat) : Option Cmd := s.hqe.cmds.find? fun c => c.id == id

def modCmd (id : Nat) (f : Cmd → Cmd) (s : State) : State :=
  { s with hqe := { s.hqe with cmds := modFirst (fun c => c.id == id) f s.hqe.cmds } }

def dropCmd (id : Nat) (s : State) : State :=
  { s with hqe := { s.hqe with cmds := without (fun c => c.id == id) s.hqe.cmds } }

/-- R91: PARTIAL is set for a failing status with 1 to NBLK − 1 blocks done. -/
def isPartial (status : Word16) (k n : Nat) : Bool := status != 0 && decide (0 < k) && decide (k < n)

/-- The bytes that a relayed read hands back: what was gathered, in order of offset. -/
def gatheredBytes (g : List (Nat × Bytes)) : Bytes := (sortBy (fun a b => decide (a.1 ≤ b.1)) g).flatMap (·.2)

/-- Answer a command where it came from: a completion entry, a result over the peer link, or a RELAY_RSP. -/
def answerTo (o : Origin) (q : QKey) (cid : Word16) (status : Word16) (k n result : Nat) (data : Bytes) (s : State) : State :=
  let p := isPartial status k n
  let count := if p then k else 0
  match o with
  | .host => postCqe q ⟨cid, status, p, count, BitVec.ofNat 32 result⟩ s
  | .peer => toPeer 0x14 [1, q.f.port.val, q.f.fn.toNat, q.idx.toNat, cid.toNat, status.toNat, count, result] data s
  | .fed src id => if s.rdm.fedState = 2 then s else emit (.repl 0x42 (BitVec.ofNat 64 id) [src, status.toNat, if p then 0x4000 else 0, count, result] data) s

/-- Answer a command that never became outstanding. -/
def answerCmd (w : Waiter) (status : Word16) (result : Nat) (s : State) : State :=
  answerTo w.origin w.c.q w.c.cid status 0 0 result [] s

/-- A command ends: it leaves the outstanding commands, an ORDERED hold it kept ends (R97), and it is answered unless R68
settled it. -/
def finishCmd (id : Nat) (status : Word16) (k result : Nat) (s : State) : State :=
  match cmdOf s id with
  | none => s
  | some c =>
    let t := modQp c.q (fun q => if q.ordered = some id then { q with ordered := none } else q) (dropCmd id s)
    if c.silent then t else answerTo c.origin c.q c.cid status k c.nblk result (if c.op == 0x81 then [] else gatheredBytes c.gathered) t

/-! ### Fetching (R95, R97, R110, R112, R113) -/

/-- SET POWER waits for nothing more: the chip is entering P2 or P3 (R113). -/
def enteringSleep (s : State) : Bool :=
  match s.clk.newPower with
  | some (_, id) => (s.hqe.cmds.all fun c => c.id == id) && s.hqe.behind.all fun w => !decide (w.c.op < 0x80)
  | none => false

def asleep (s : State) : Bool := decide (2 ≤ s.clk.pstate.val)

/-- May the device fetch the next entry of a queue pair? -/
def fetchable (s : State) (q : Qp) : Bool :=
  q.fetch != q.tail && q.frozen.isNone && q.deleting.isNone && q.ordered.isNone
    && !(s.hqe.behind.any fun w => w.origin == .host && w.c.q == q.key && w.c.ordered)
    && !(portOf s q.key.f.port).frozen && !(q.key.f ∈ s.hep.d3) && !s.pins.pwrFail && !s.pins.flushing
    && inService s && !asleep s && !enteringSleep s

/-- Has every earlier command of the SQ completed (R97)? -/
def sqIdle (s : State) (k : QKey) : Bool :=
  (s.hqe.cmds.all fun c => !(c.q == k && c.origin == .host))
    && (s.hqe.behind.all fun w => !(w.c.q == k && w.origin == .host))

/-- Fetch one entry and handle it: the queue's FETCH advances, and steps 1 to 3 of admission answer a failing status.
An ORDERED entry stays at FETCH until the earlier commands of its SQ have completed; with nothing to fetch, nothing
happens. -/
def fetchRow (c : HostCmd) (f : Qp → State → State) (s : State) : State :=
  match qpOf s c.q with
  | none => s
  | some q =>
    if fetchable s q && (!c.ordered || sqIdle s c.q) then
      let t := modQp c.q (fun x => { x with fetch := (x.fetch + 1) % sqSize x }) s
      match entryCheck c q.admin q.tenant s.glb.service with
      | some st => answerCmd ⟨c, q.tenant, .host⟩ st 0 t
      | none => f q t
    else s

/-- A command becomes outstanding under the next number. -/
def newCmd (w : Waiter) (stage : CmdStage) (s : State) : Cmd :=
  { id := s.hqe.nextCmd, q := w.c.q, cid := w.c.cid, op := w.c.opcode, tenant := w.tenant, nsid := w.c.ns,
    lba := w.c.start, nblk := w.c.blocks, tag := w.c.tagOf, bufs := w.c.bufs, stage := stage, origin := w.origin,
    ordered := w.c.ordered, silent := false, arrived := [], gens := [], acked := [], status := 0,
    good := w.c.blocks, gathered := if w.origin != .host && w.c.opcode == 0x81 then [(0, w.c.buf)] else [] }

def addCmd (c : Cmd) (s : State) : State :=
  let t := { s with hqe := { s.hqe with cmds := s.hqe.cmds ++ [c], nextCmd := s.hqe.nextCmd + 1 } }
  if c.ordered && c.origin == .host then modQp c.q (fun q => { q with ordered := some c.id }) t else t

/-- Write bytes to a buffer of the host with the poison mark (R73). -/
def toHostPoison (q : QKey) (addr : Nat) (data : Bytes) (s : State) : State :=
  if (portOf s q.f.port).frozen then s else emit (.hostPoison q.f.port (BitVec.ofNat 64 addr) data) s

/-- Write bytes to a buffer of the host, unless the port has frozen or the command came over a link. -/
def toHost (q : QKey) (addr : Nat) (data : Bytes) (s : State) : State :=
  if (portOf s q.f.port).frozen then s else emit (.hostWrite q.f.port (BitVec.ofNat 64 addr) data) s

end Sys2Proof.Machine
end

