-- ==== Sys2Proof/Machine/Staging.lean ====
section
/-! DEFINITION. The staging index and the mirror (R117 to R122), where a read finds a block (R32, R202), map pages (R205),
the grant of slots and credits (R103, R118, R120), and how an admitted write goes on and ends (R31, R68, R98, R99). -/

namespace Sys2Proof.Machine

/-! ### Generations and entries of a block -/

/-- R118: a is higher than b modulo 65,536. -/
def genHigher (a b : Word16) : Bool := decide (1 ≤ (a - b).toNat) && decide ((a - b).toNat ≤ 32767)

def genAtOrBelow (a b : Word16) : Bool := a == b || genHigher b a

def entriesOf (s : State) (nsid lba : Nat) : List StEntry :=
  s.ing.staging.filter fun e => e.nsid == nsid && e.lba == lba

/-- The map entry that is published for a block. -/
def mapEntryOf (s : State) (nsid lba : Nat) : Option MapEntry :=
  s.med.maps.find? fun m => m.nsid == nsid && m.lba == lba

def publishedGen (s : State) (nsid lba : Nat) : Word16 :=
  match mapEntryOf s nsid lba with
  | some m => m.gen
  | none => 0

/-- The highest generation of a list, over a first one. -/
def highestGen (g : Word16) (l : List Word16) : Word16 := l.foldl (fun a b => if genHigher b a then b else a) g

/-- The generations of a block's staging entries, and in role SOLE of the unplaced mirror entries that the survivor serves
and flushes in their place (DEDUCED from R118: generations continue across fail-overs). -/
def liveGens (s : State) (nsid lba : Nat) : List Word16 :=
  (entriesOf s nsid lba).map (·.gen)
    ++ (if s.peer.role = .sole then
        ((s.ing.mirror.filter fun m =>
          m.nsid == nsid && m.lba == lba && genHigher m.gen (publishedGen s nsid lba)).map (·.gen))
      else [])

/-- R118: one above the newest staging entry of the block, or above the published generation. -/
def nextGen (s : State) (nsid lba : Nat) : Word16 :=
  match liveGens s nsid lba with
  | [] => publishedGen s nsid lba + 1
  | g :: r => highestGen g r + 1

/-- Every generation of the block that this chip holds. -/
def heldGens (s : State) (nsid lba : Nat) : List Word16 :=
  (entriesOf s nsid lba).map (·.gen) ++ ((s.ing.mirror.filter fun m => m.nsid == nsid && m.lba == lba).map (·.gen))
    ++ (match mapEntryOf s nsid lba with
      | some m => [m.gen]
      | none => [0])

/-- R118: the new generation would lie 32,768 or more from one that is held. -/
def genWindowFull (s : State) (nsid lba : Nat) : Bool :=
  (heldGens s nsid lba).any fun g => decide (32768 ≤ (nextGen s nsid lba - g).toNat)

/-! ### Sets and ways (R117, R120) -/

def setOf (s : State) (nsid lba : Nat) : Nat := Config.stagingHash s.ing.hashKey nsid lba % (s.ing.blocks / 8)

/-- The ways of a set that hold no entry, lowest first. -/
def freeWays (s : State) (set : Nat) : List Nat :=
  ((List.range 8).map fun w => 8 * set + w).filter fun n => !(s.ing.staging.any fun e => e.slot == n)

/-- Slots for the blocks `lba` to `lba + n - 1`, each the lowest free way of its set (DESIGN CHOICE); none when a set has
too few. -/
def pickSlots (s : State) (nsid : Nat) : Nat → Nat → List Nat → Option (List Nat)
  | 0, _, acc => some acc
  | n + 1, lba, acc =>
    match (freeWays s (setOf s nsid lba)).find? fun w => !(w ∈ acc) with
    | some w => pickSlots s nsid n (lba + 1) (acc ++ [w])
    | none => none

/-! ### Leaving the index -/

def modEntry (slot : Nat) (f : StEntry → StEntry) (s : State) : State :=
  { s with ing := { s.ing with staging := modFirst (fun e => e.slot == slot) f s.ing.staging } }

/-- R123: oldest-first flushing starts at HIGH_PCT of S and ends below LOW_PCT. -/
def noteOccupancy (s : State) : State :=
  let o := 100 * occupied s
  { s with ing := { s.ing with
    oldest := (s.ing.oldest || decide (s.ing.highPct * s.ing.blocks ≤ o)) && decide (s.ing.lowPct * s.ing.blocks ≤ o) } }

/-- An entry goes to FREE and its credit returns (R103). -/
def freeEntry (e : StEntry) (s : State) : State :=
  noteOccupancy (returnCredit e.tenant
    { s with ing := { s.ing with staging := s.ing.staging.filter fun x => !(x.slot == e.slot) } })

/-- The message that frees a block's mirror entries at the peer (R122). -/
def sendRelease (nsid lba : Nat) (g : Word16) (s : State) : State :=
  if s.peer.role = .active then toPeer 0x12 [nsid, lba, g.toNat] [] s else s

/-- An entry is released: placed on flash, or discarded with its namespace (R459). -/
def releaseEntry (e : StEntry) (s : State) : State := sendRelease e.nsid e.lba e.gen (freeEntry e s)

/-! ### Reaching STAGED (R119) -/

/-- A mirror copy goes to the peer, in role ACTIVE only (R31). -/
def sendMirror (e : StEntry) (tag : Option Word64) (nblk : Nat) (s : State) : State :=
  if s.peer.role = .active then
    toPeer 0x10 [e.nsid, e.lba, e.gen.toNat, e.tenant.getD 0, (if tag.isSome then 1 else 0), (tag.getD 0).toNat, e.block,
      nblk, if e.dealloc then 1 else 0] e.data s
  else s

/-- Is the entry already superseded when it reaches STAGED? By a STAGED or FLUSHING entry, or a published map entry, of
higher generation. -/
def supersededAtOnce (s : State) (e : StEntry) : Bool :=
  ((entriesOf s e.nsid e.lba).any fun x => x.st != .filling && genHigher x.gen e.gen)
    || (match mapEntryOf s e.nsid e.lba with
      | some m => genHigher m.gen e.gen
      | none => false)

/-- The STAGED entry of the block of lower generation. -/
def stagedBelow (s : State) (e : StEntry) : Option StEntry :=
  (entriesOf s e.nsid e.lba).find? fun x => x.st == .staged && genHigher e.gen x.gen

def reachStaged (e : StEntry) (tag : Option Word64) (nblk : Nat) (s : State) : State :=
  let t := sendMirror e tag nblk s
  if supersededAtOnce s e then freeEntry e t
  else
    let below := stagedBelow s e
    let old := match below with
      | some b => some (b.data, b.dealloc, b.gen)
      | none => none
    let u := modEntry e.slot (fun x => { x with st := .staged, old := old, idle := false, aged := false, order := t.ing.clock }) (forSome below freeEntry t)
    { u with ing := { u.ing with clock := u.ing.clock + 1 } }

/-! ### How a write goes on -/

/-- The number of leading blocks of a command whose data has arrived (R99). -/
def prefixLen (arrived : List Nat) : Nat → Nat → Nat
  | 0, k => k
  | n + 1, k => if k ∈ arrived then prefixLen arrived n (k + 1) else k

def arrivedBlocks (c : Cmd) : Nat := prefixLen c.arrived c.nblk 0

/-- The entry of a block of a command. -/
def entryOfBlock (s : State) (id b : Nat) : Option StEntry :=
  s.ing.staging.find? fun e => e.cmd == id && e.block == b

/-- Every block of the command whose predecessors have arrived becomes STAGED, lowest first. -/
def stagePrefix (c : Cmd) (s : State) : State :=
  forEach (List.range (arrivedBlocks c)) (fun b t =>
    match entryOfBlock t c.id b with
    | some e => if e.st == .filling then reachStaged e c.tag c.nblk t else t
    | none => t) s

/-- Are the blocks that the command commits acknowledged by the peer, where the role asks for that (R31)? -/
def mirrored (s : State) (c : Cmd) : Bool :=
  s.peer.role != .active || (List.range c.good).all fun b => decide (b ∈ c.acked)

/-- The tag's entry settles and the command ends: `k` leading blocks are committed. -/
def endWrite (c : Cmd) (k : Nat) (status : Word16) (s : State) : State :=
  let t := match c.tag, c.tenant with
    | some g, some n => if c.op == 0x81 then settleTag n g k c.nblk s else s
    | _, _ => s
  let u := { t with ing := { t.ing with staging := modAll (fun e => e.cmd == c.id) (fun e => { e with old := none }) t.ing.staging } }
  finishCmd c.id status k 0 u

/-- A command whose blocks are all STAGED completes once they are mirrored. -/
def completeWrite (id : Nat) (s : State) : State :=
  match cmdOf s id with
  | some c => if c.stage == .mirroring && mirrored s c then endWrite c c.good c.status s else s
  | none => s

/-- After data has arrived: stage what is complete, and complete the command when that is all of it. -/
def advanceWrite (id : Nat) (s : State) : State :=
  match cmdOf s id with
  | none => s
  | some c =>
    if c.stage != .filling then s
    else
      let t := stagePrefix c s
      if arrivedBlocks c = c.nblk then completeWrite id (modCmd id (fun x => { x with stage := .mirroring }) t) else t

/-- The entries of a command that still wait for data go to FREE, with their credits. -/
def freeFilling (id : Nat) (s : State) : State :=
  forEach (s.ing.staging.filter fun e => e.cmd == id && e.st == .filling) freeEntry s

/-- R68: an admitted write stops taking data; the blocks that have arrived stay STAGED and are committed once mirrored. -/
def cutWrite (id : Nat) (s : State) : State :=
  match cmdOf s id with
  | none => s
  | some c =>
    let t := freeFilling id s
    if arrivedBlocks c = 0 then endWrite c 0 c.status t
    else completeWrite id (modCmd id (fun x => { x with stage := .mirroring, good := arrivedBlocks c }) t)

/-- The RELEASE of a generation that commits nothing also frees the block's older mirror copies: they are sent again. -/
def withdrawMirror (nsid lba : Nat) (g : Word16) (s : State) : State :=
  forEach ((entriesOf s nsid lba).filter fun x => x.st != .filling && x.void != some false && genHigher g x.gen)
    (fun x => sendMirror x none 1) (sendRelease nsid lba g s)

/-- R72: a block of a command that commits nothing is taken back. Where it superseded a STAGED block, that content returns under its own
generation; otherwise the entry goes. An entry that is FLUSHING already stays until its flush ends, and is not published. -/
def takeBack (e : StEntry) (s : State) : State :=
  let t := match e.old, e.st with
    | some (d, z, g), st =>
      modEntry e.slot (fun x => { x with
        data := d, dealloc := z, gen := g, old := none, tag := none, void := if st == .flushing then some true else none }) s
    | none, .flushing => modEntry e.slot (fun x => { x with tag := none, void := some false }) s
    | none, _ => freeEntry e s
  withdrawMirror e.nsid e.lba e.gen t

/-- The flush of an entry that was taken back ends: the content it holds is STAGED again, unless a later write superseded it. -/
def endVoid (e : StEntry) (s : State) : State :=
  if e.void == some true && !((entriesOf s e.nsid e.lba).any fun x => x.st == .staged && genHigher x.gen e.gen) then
    modEntry e.slot (fun x => { x with st := .staged, run := none, void := none, idle := false, aged := false }) s
  else freeEntry e s

/-- R72: poisoned write data: no block is committed, and the write ends with 0x3001. -/
def poisonWrite (id : Nat) (s : State) : State :=
  match cmdOf s id with
  | none => s
  | some c =>
    let t := freeFilling id s
    endWrite c 0 0x3001 (forEach (t.ing.staging.filter fun e => e.cmd == id && e.st != .filling) takeBack t)

/-! ### Map pages (R205) -/

def pageOf (lba : Nat) : Nat := lba / 1024

/-- Is a page in the map cache, or still in DRAM on its way to media? -/
def pageHere (s : State) (p : Nat × Nat) : Bool := decide (p ∈ s.med.cached) || decide (p ∈ s.med.writeBack)

/-- The page of the chunk table that an entry lies in: it has namespace 0, and bit 37 of its number is the head (R203, R291). -/
def ctPage (no : Nat) : Nat × Nat := (0, no / 1024)

/-- The map pages that a namespace's published entries lie in and that are not in the map cache. -/
def missingMap (s : State) (nsid lba n : Nat) : List Nat :=
  ((List.range ((lba + n - 1) / 1024 + 1 - pageOf lba)).map fun i => pageOf lba + i).filter fun p =>
    (s.med.maps.any fun m => m.nsid == nsid && pageOf m.lba == p) && !pageHere s (nsid, p)

/-- The pages, map pages first and then chunk-table pages, that a read of blocks needs and that are not in the map cache. -/
def missingPages (s : State) (nsid lba n : Nat) : List (Nat × Nat) :=
  let l := missingMap s nsid lba n
  if l.isEmpty then
    ((((s.med.maps.filter fun m => m.nsid == nsid && decide (lba ≤ m.lba) && decide (m.lba < lba + n)).flatMap fun m =>
      [m.chunkA, m.chunkB]).filter (· ≠ 0)).map ctPage).eraseDups.filter fun p => !pageHere s p
  else l.map fun p => (nsid, p)

/-- A page is used, and becomes the most recent of the cache. With no room the least recently used clean page goes; where all are
dirty, the least recently used one leaves to be written back (R205). -/
def touchPage (p : Nat × Nat) (s : State) : State :=
  if p ∈ s.med.cached then { s with med := { s.med with cached := s.med.cached.erase p ++ [p] } }
  else if s.med.cached.length < s.med.areas.cachePages then { s with med := { s.med with cached := s.med.cached ++ [p] } }
  else
    match s.med.cached.find? (fun x => !(x ∈ s.med.dirty)), s.med.cached with
    | some c, _ => { s with med := { s.med with cached := s.med.cached.erase c ++ [p] } }
    | none, [] => { s with med := { s.med with cached := [p] } }
    | none, d :: r => { s with med := { s.med with
        cached := r ++ [p], dirty := s.med.dirty.erase d, writeBack := s.med.writeBack ++ [d] } }

/-- An entry of the chunk table changes: its page is in the cache, and dirty. -/
def dirtyChunk (no : Nat) (s : State) : State :=
  if ctPage no ∈ s.med.dirty then s
  else
    let t := touchPage (ctPage no) s
    { t with med := { t.med with dirty := t.med.dirty ++ [ctPage no] } }

/-- The namespace whose maps a namespace reads: an exposed snapshot's own tree has the number of the exposed one. -/
def touchRange (nsid lba n : Nat) (s : State) : State :=
  forEach (List.range ((lba + n - 1) / 1024 + 1 - pageOf lba)) (fun i t =>
    if t.med.maps.any fun m => m.nsid == nsid && pageOf m.lba == pageOf lba + i then touchPage (nsid, pageOf lba + i) t else t) s

/-! ### Where a read finds a block (R32, R96, R100, R118, R202, R339) -/

inductive BlockSource where
  | zero
  | data (b : Bytes)
  | chunk (m : MapEntry)
  deriving DecidableEq, Repr

/-- What a staged or mirrored copy reads as. -/
def copySource (d : Bytes) (dealloc : Bool) : BlockSource := if dealloc then .zero else .data d

/-- The STAGED and FLUSHING entries of a block, and in role SOLE the mirror entries above the published generation:
generation, data, whether it was deallocated. -/
def blockCopies (s : State) (nsid lba : Nat) : List (Word16 × Bytes × Bool) :=
  ((entriesOf s nsid lba).filter fun e => e.st != .filling && e.void != some false).map (fun e => (e.gen, e.data, e.dealloc))
    ++ (if s.peer.role = .sole then
        (s.ing.mirror.filter fun m =>
          m.nsid == nsid && m.lba == lba && genHigher m.gen (publishedGen s nsid lba)).map fun m => (m.gen, m.data, m.data.isEmpty)
      else [])

def newestCopy (l : List (Word16 × Bytes × Bool)) : Option (Word16 × Bytes × Bool) :=
  l.foldl (fun a x => match a with
    | none => some x
    | some y => if genHigher x.1 y.1 then some x else some y) none

def mapSource (m : Option MapEntry) : BlockSource :=
  match m with
  | some m => if m.chunkA = 0 then .zero else .chunk m
  | none => .zero

/-- The snapshot that a namespace exposes, with its tree (R318). -/
def exposedTree (s : State) (n : Ns) : Option (List MapEntry) :=
  match n.exposed with
  | some (o, q) => (s.snp.snaps.find? fun x => x.nsid == o && x.seq == q).map (·.tree)
  | none => none

def blockSource (s : State) (n : Ns) (lba : Nat) : BlockSource :=
  match exposedTree s n with
  | some tree => mapSource (tree.find? fun m => m.lba == lba)
  | none =>
    match newestCopy (blockCopies s n.id lba) with
    | some x => copySource x.2.1 x.2.2
    | none => mapSource (mapEntryOf s n.id lba)

/-- Is the copy that a read finds for a block lost to an uncorrectable error (R73)? -/
def badBlock (s : State) (n : Ns) (lba : Nat) : Bool :=
  (exposedTree s n).isNone &&
    match newestCopy (blockCopies s n.id lba) with
    | some x => (entriesOf s n.id lba).any (fun e => e.bad && e.st != .filling && e.gen == x.1)
        || (s.peer.role == .sole && s.ing.mirror.any fun m => m.bad && m.nsid == n.id && m.lba == lba && m.gen == x.1)
    | none => false

/-! ### Granting slots and credits (R103, R118, R120) -/

/-- Does a write still wait for more than its credits? A way of each block's set, or the generation window. -/
def slotStage (s : State) (c : Cmd) : Option CmdStage :=
  if (List.range c.nblk).any fun i => genWindowFull s c.nsid (c.lba + i) then some .waitGen
  else if (pickSlots s c.nsid c.nblk c.lba []).isNone then some .waitSet
  else none

/-- The new entries of a command: FILLING with a credit for a WRITE; a DEALLOCATE's hold no credit and need no data. -/
def newEntries (s : State) (c : Cmd) (slots : List Nat) : List StEntry :=
  (List.range c.nblk).map fun i =>
    { slot := slots.getD i 0, nsid := c.nsid, lba := c.lba + i, gen := nextGen s c.nsid (c.lba + i), st := .filling,
      mirrored := false, data := [], dealloc := c.op == 0x82, cmd := c.id, block := i,
      tenant := if c.op == 0x82 then none else c.tenant, tag := c.tag, nblk := c.nblk, order := s.ing.clock + i, idle := false, aged := false,
      run := none, old := none }

/-- The command takes its slots; the data of a WRITE is requested from its buffers, and is at hand for a relayed one. -/
def takeSlots (c : Cmd) (s : State) : State :=
  match pickSlots s c.nsid c.nblk c.lba [] with
  | none => s
  | some slots =>
    let es := newEntries s c slots
    let t := noteOccupancy { s with ing := { s.ing with staging := s.ing.staging ++ es, clock := s.ing.clock + c.nblk } }
    let t := modCmd c.id (fun x => { x with stage := .filling, gens := es.map (·.gen) }) t
    if c.op == 0x82 then
      advanceWrite c.id (modCmd c.id (fun x => { x with arrived := List.range x.nblk }) t)
    else if c.origin == .host then
      forEach c.bufs (fun b u => emit (.hostRead c.q.f.port (BitVec.ofNat 64 b.1) b.2) u) t
    else
      let d := gatheredBytes c.gathered
      let l := modAll (fun e => e.cmd == c.id) (fun e => { e with data := bytesAt d (4096 * e.block) 4096 }) t.ing.staging
      advanceWrite c.id (modCmd c.id (fun x => { x with arrived := List.range x.nblk, gathered := [] })
        { t with ing := { t.ing with staging := l } })

/-- Does a command wait at admission for credits, a set or the generation window? -/
def waitsAtAdmission (c : Cmd) : Bool := c.stage == .waitCredit || c.stage == .waitSet || c.stage == .waitGen

def nsOf (s : State) (n : Nat) : Option Ns := s.hqe.nss.find? fun x => x.id == n

/-- Admission is held for writes to the namespace: by a snapshot cut (R313) or a handback. -/
def writesHeld (s : State) (n : Nat) : Bool :=
  (s.snp.holds.any fun h => decide (n ∈ h.2)) || (match nsOf s n with
    | some x => x.hold
    | none => false)

/-- One waiting command in the grant order of R103. `held` says that an earlier write waits for the pool alone. -/
def grantOne (id : Nat) (p : Bool × State) : Bool × State :=
  match cmdOf p.2 id with
  | none => p
  | some c =>
    if writesHeld p.2 c.nsid then p
    else match slotStage p.2 c with
    | some st => (p.1, modCmd id (fun x => { x with stage := st }) p.2)
    | none =>
      if c.op == 0x82 then (p.1, takeSlots c p.2)
      else
        match c.tenant with
        | none => p
        | some tn =>
          match tenantOf p.2 tn with
          | none => p
          | some t =>
            let wait := modCmd id (fun x => { x with stage := .waitCredit }) p.2
            match creditState p.2 t c.nblk with
            | .capped => (p.1, wait)
            | .poolShort => (true, wait)
            | .granted =>
              if p.1 && decide (fromGuarantee t c.nblk < c.nblk) then (true, wait)
              else (p.1, takeSlots c (takeCredits tn c.nblk p.2))

/-- Between the loss of BEATs and the decision, no new write is admitted (R338). -/
def suspectNow (s : State) : Bool := s.peer.detect == .suspect || s.peer.detect == .split

/-- R103: the waiting writes are granted in admission order; none is once a power-loss flush has begun (R226). -/
def grantAll (s : State) : State :=
  if suspectNow s || s.pins.flushing then s
  else (((s.hqe.cmds.filter waitsAtAdmission).map (·.id)).foldl (fun p id => grantOne id p) (false, s)).2

end Sys2Proof.Machine
end

