-- ==== Sys2Proof/Machine/Lanes.lean ====
section
/-! DEFINITION. Sending commands to the modules: credits (R240), the frames kept until acknowledged (R241), the rule for a
suspended erase (R221), and the module figures of the information page (R243). -/

namespace Sys2Proof.Machine

def modLane (n : Nat) (f : Lane → Lane) (s : State) : State :=
  { s with far := { s.far with lanes := tabMod {} n f s.far.lanes } }

/-- The smallest claim of this head's own parity above every claim seen on the module; never 0. -/
def nextClaim (head : Bool) (seen : Nat) : Nat := seen + (if (seen % 2 == 1) == head then 2 else 1)

def isHome (s : State) (n : Nat) : Bool := decide (n % 2 = if s.glb.headId then 1 else 0)

/-- Bytes of a frame: header, payload and payload trailer. -/
def frameBytes (payload : Bytes) : Nat :=
  32 + (if payload.isEmpty then 0 else (payload.length + 15) / 16 * 16 + 16)

/-- Data credits of a payload. -/
def dataUnits (payload : Bytes) : Nat := (payload.length + 511) / 512

/-- Is the frame one that no credit is needed for? -/
def noCredit (op : Byte) : Bool := op == 0x30 || op == 0x01

/-- Has the die a suspended erase? -/
def eraseHeld (s : State) (lane die : Nat) : Bool :=
  s.med.dieRuns.any fun r => r.lane == lane && r.die == die && r.held && r.erase

/-- Bytes of read buffer that a command's completion needs. -/
def readBytes (c : FarCmd) : Nat :=
  if c.op != 0x10 then 0 else if c.count = 0 then 16384 * ((List.range 4).filter fun p => c.planes.testBit p).length else 512 * c.count

/-- Bytes of read buffer reserved for the reads that are out (R240). -/
def readReserved (s : State) : Nat :=
  sumBy (fun p : Nat × Lane => sumBy (fun o => readBytes o.c) p.2.out) s.far.lanes

/-- May a command go to a module now? -/
def maySend (s : State) (n : Nat) (c : FarCmd) : Bool :=
  let l := laneOf s n
  l.active && !s.pins.flushHold && !(l.st == .fault && !(c.op == 0x16 || c.op == 0x21))
    && (noCredit c.op || (decide (1 ≤ l.cmdCred) && decide (dataUnits c.payload ≤ l.dataCred)))
    && decide (l.unacked.length < 256) && decide (sumBy (·.size) l.unacked + frameBytes c.payload ≤ 262144)
    && (c.op != 0x10 || decide (readReserved s + readBytes c ≤ s.med.areas.readBytes))
    && !((c.op == 0x11 || c.op == 0x12) && eraseHeld s n c.die)

/-- An operation that occupies its die. -/
def occupies (op : Byte) : Bool := op == 0x11 || op == 0x12 || op == 0x13

/-- A program or erase begins on its die, as far as the suspend rules see it. -/
def noteDieRun (n : Nat) (c : FarCmd) (s : State) : State :=
  if occupies c.op && !(s.med.dieRuns.any fun r => r.lane == n && r.die == c.die) then
    { s with med := { s.med with dieRuns := s.med.dieRuns ++ [⟨n, c.die, c.op == 0x13, false, 0, false, false⟩] } }
  else s

/-- The claim in a frame's header: a CLAIM's own value, otherwise the module's current one. -/
def headerClaim (s : State) (n : Nat) (c : FarCmd) : Word32 := if c.op == 0x30 then BitVec.ofNat 32 c.count else (laneOf s n).claim

/-- A frame goes out under the next sequence number, and is kept until it is acknowledged; it takes its credits. -/
def putFrame (n tag : Nat) (c : FarCmd) (s : State) : State :=
  let free := noCredit c.op
  let v := headerClaim s n c
  emit (.farium n c.op v tag c.die c.payload) (modLane n (fun l =>
    { l with
      cmdCred := if free then l.cmdCred else l.cmdCred - 1, dataCred := l.dataCred - dataUnits c.payload,
      seqTx := l.seqTx + 1, unacked := l.unacked ++ [⟨l.seqTx, frameBytes c.payload, tag, v, c⟩] }) s)

/-- Put a command on the lane. -/
def sendNow (n : Nat) (c : FarCmd) (s : State) : State :=
  let tag := s.far.nextTag % 1024
  let t := modLane n (fun l => { l with out := l.out ++ [⟨tag, c, 0, false, false⟩] }) (putFrame n tag c s)
  noteDieRun n c { t with far := { t.far with nextTag := s.far.nextTag + 1 } }

/-- Send a command, or hold it until credits, acknowledgements or the die allow it. -/
def farSend (n : Nat) (c : FarCmd) (s : State) : State :=
  if (laneOf s n).waiting.isEmpty && (laneOf s n).again.isEmpty && maySend s n c then sendNow n c s
  else modLane n (fun l => { l with waiting := l.waiting ++ [c] }) s

/-- Send what waits on a lane, in order, `k` commands at most. -/
def sendWaiting (n : Nat) : Nat → State → State
  | 0, s => s
  | k + 1, s =>
    match (laneOf s n).waiting with
    | [] => s
    | c :: r => if maySend s n c then sendWaiting n k (sendNow n c (modLane n (fun l => { l with waiting := r }) s)) else s

/-- Commands to be issued again come first; `k` of them at most. -/
def sendAgain (n : Nat) : Nat → State → State
  | 0, s => s
  | k + 1, s =>
    match (laneOf s n).again with
    | [] => s
    | o :: r => if maySend s n o.c then sendAgain n k (putFrame n o.tag o.c (modLane n (fun l => { l with again := r }) s)) else s

def serveLane (n : Nat) (s : State) : State :=
  let t := sendAgain n (laneOf s n).again.length s
  if (laneOf t n).again.isEmpty then sendWaiting n (laneOf t n).waiting.length t else t

/-- A command is issued again under its tag, once it may be (R240). -/
def resend (n : Nat) (o : FarOut) (s : State) : State :=
  if maySend s n o.c then putFrame n o.tag o.c s else modLane n (fun l => { l with again := l.again ++ [o] }) s

/-- A command without payload for a die. -/
def dieCmd (op : Byte) (die : Nat) : FarCmd := ⟨op, false, die, 0, 0, 0, 0, 0, []⟩

/-- A command that addresses the module. -/
def modCmdOf (op : Byte) (payload : Bytes) : FarCmd := ⟨op, false, 0, 0, 0, 0, 0, 0, payload⟩

/-- Send at once, ahead of what waits: suspensions and resumptions, which free dies. -/
def farUrgent (n : Nat) (c : FarCmd) (s : State) : State :=
  if maySend s n c then sendNow n c s else modLane n (fun l => { l with waiting := c :: l.waiting }) s

/-- The figures that the chip uses of an information page (R243). -/
def infoOf (p : Bytes) : ModInfo :=
  { channels := numAt p 0x10 1, perChan := numAt p 0x11 1, planes := numAt p 0x12 1, bits := numAt p 0x13 1,
    blocks := numAt p 0x14 4, pagesD := numAt p 0x18 2, pagesS := numAt p 0x1A 2, limit := numAt p 0x20 2,
    partials := numAt p 0x22 1, rated := numAt p 0x24 4, tSlcUs := numAt p 0x2E 2, u := numAt p 0x38 4, page := p }

def flushDies (i : ModInfo) : List Nat := (List.range 8).map fun k => numAt i.page (0x44 + 2 * k) 2

def dieCount (i : ModInfo) : Nat := i.channels * i.perChan

/-! ### Places in a segment (R261, R288) -/

def segOf (s : State) (no : Nat) : Option Seg := s.med.segs.find? fun g => g.no == no

/-- Position of P in stripe `k` of `w` members (R261). -/
def posP (w k : Nat) : Nat := w - 1 - k % w

/-- Position of Q, and of data strip `d`. -/
def posQ (w k : Nat) : Nat := (posP w k + 1) % w
def posD (w k d : Nat) (q : Bool) : Nat := (posP w k + (if q then 2 else 1) + d) % w

/-! ### Suspending NAND work (R221) -/

def modDieRun (n d : Nat) (f : DieRun → DieRun) (s : State) : State :=
  { s with med := { s.med with dieRuns := modFirst (fun r => r.lane == n && r.die == d) f s.med.dieRuns } }

def dieRunOf (s : State) (n d : Nat) : Option DieRun := s.med.dieRuns.find? fun r => r.lane == n && r.die == d

def suspLimit (s : State) (r : DieRun) : Nat := if r.erase then s.med.maxErase else s.med.maxProg

/-- Suspend now if the two conditions hold; otherwise the read waits. -/
def trySuspend (n d : Nat) (s : State) : State :=
  match dieRunOf s n d with
  | none => s
  | some r =>
    if !r.held && r.ranMin && decide (r.count < suspLimit s r) then
      farUrgent n (dieCmd 0x14 d) (modDieRun n d (fun x => { x with held := true, waiting := false, count := x.count + 1 }) s)
    else modDieRun n d (fun x => { x with waiting := !x.held }) s

/-! ### Urgent reads (R205, R221) -/

/-- An urgent read on a die: a program or erase that runs there is suspended where the two conditions hold. -/
def urgentRead (m : Member) (slc : Bool) (page off count : Nat) (s : State) : State :=
  trySuspend m.lane m.die (farUrgent m.lane ⟨0x10, slc, m.die, m.block, page, 2 ^ m.plane, off, count, []⟩ s)

/-- The read of granules of a member: by GRANULE where the peer holds its module (R345). -/
def readMember (m : Member) (slc : Bool) (page off count : Nat) (s : State) : State :=
  if s.peer.role == .active && (laneOf s m.lane).st == .peerHeld then toPeer 0x15 [m.lane, m.die, m.block, page, off, count] [] s
  else urgentRead m slc page off count s

/-- The pieces of `n` linear granules from `g` on, each within one NAND page; `k` of them at most. -/
def readPieces : Nat → Nat → Nat → List (Nat × Nat)
  | 0, _, _ => []
  | k + 1, g, n => if n = 0 then [] else (g, min n (32 - g % 32)) :: readPieces k (g + min n (32 - g % 32)) (n - min n (32 - g % 32))

/-- The urgent reads of an object's granules (R288). -/
def readStored (g : Seg) (stripe gran n : Nat) (s : State) : State :=
  forEach (readPieces 6 gran n) (fun p t =>
    match g.members[posD g.members.length stripe (p.1 / 128) g.q]? with
    | some m => readMember m g.slc (4 * stripe + p.1 % 128 / 32) (p.1 % 32) p.2 t
    | none => t) s

/-- The urgent read of a map page or chunk-table page whose object is on media (R205). -/
def readPage (p : Nat × Nat) (s : State) : State :=
  let o := (s.med.pages.find? fun x => x.level == 0 && x.nsid == p.1 && x.page == p.2).bind fun x =>
    s.med.objs.find? fun r => r.obj == x.obj && !r.stale
  match o with
  | some r => forSome (segOf s r.seg) (fun g => readStored g r.stripe r.gran r.granules) s
  | none => s

end Sys2Proof.Machine
end

