-- ==== Sys2Proof/Machine/HqeIo.lean ====
section
/-! DEFINITION. The I/O commands READ, WRITE, DEALLOCATE and STATE QUERY, their relays (R94, R363), and the events that
carry them on: data arrival, credits, map pages, wait ends (R90 to R109). -/

namespace Sys2Proof.Machine

/-! ### Reads -/

/-- A fresh number for a chunk, a run, a window or a read job. -/
def freshId (s : State) : Nat := s.ing.nextId
def takeId (s : State) : State := { s with ing := { s.ing with nextId := s.ing.nextId + 1 } }

/-- Data of a read at a byte offset of the command, within one block: into its host buffers, with the poison mark where the block is
lost (R73), or gathered for a relayed command. -/
def deliver (c : Cmd) (off : Nat) (data : Bytes) (s : State) : State :=
  match c.origin with
  | .host => forEach (scatter c.bufs off data)
      (fun p t => if decide (off / 4096 ∈ c.poisoned) then toHostPoison c.q p.1 p.2 t else toHost c.q p.1 p.2 t) s
  | _ => modCmd c.id (fun x => { x with gathered := x.gathered ++ [(off, data)] }) s

def chunkOf (s : State) (no : Nat) : Option ChunkEnt := s.med.chunks.find? fun c => c.no == no

def chunkLen (s : State) (no : Nat) : Nat :=
  match chunkOf s no with
  | some c => c.len
  | none => 0

/-- The pieces of one block: the chunk, and the block, the offset within it, the offset within the chunk, the length
(R202). -/
def blockParts (s : State) (b : Nat) (m : MapEntry) : List (Nat × Nat × Nat × Nat × Nat) :=
  let n := min 4096 (chunkLen s m.chunkA - m.offA)
  (m.chunkA, b, 0, m.offA, n) :: (if n < 4096 then [(m.chunkB, b, n, 0, 4096 - n)] else [])

/-- Are the keys that a stored chunk needs loaded: its data key where it is encrypted, its domain's seal key where it is
sealed (R187)? -/
def keysLoaded (s : State) (c : ChunkEnt) : Bool :=
  (c.keyInfo == 0x1FFF || (slotOf s c.keyInfo).state == .active)
    && (!c.sealed_ || (slotOf s c.domain).state == .active)

def modSeg (no : Nat) (f : Seg → Seg) (s : State) : State :=
  { s with med := { s.med with segs := modFirst (fun g => g.no == no) f s.med.segs } }

/-- A read job for one chunk: the read holds the segment that it looked the location up in (R214). -/
def addJob (c : Cmd) (parts : List (Nat × Nat × Nat × Nat × Nat)) (chunk : Nat) (s : State) : State :=
  let e := chunkOf s chunk
  let seg := match e with
    | some x => x.seg
    | none => 0
  let j : ReadJob :=
    { id := freshId s, cmd := c.id, chunk := chunk, found := [], waybill := [], bale := [], rebuilt := false,
      wanted := none, sealOk := false, seg := seg, parts := (parts.filter fun p => p.1 == chunk).map (·.2) }
  modSeg seg (fun g => { g with readers := g.readers + 1 })
    (takeId { s with bal := { s.bal with readJobs := s.bal.readJobs ++ [j] } })

/-- R73: blocks of a read are lost: their data is poisoned, and the read ends with 0x3001 and the blocks before the first of them. -/
def lostBlocks (l : List Nat) (c : Cmd) : Cmd :=
  let first := l.foldl min c.nblk
  if first < c.good then { c with poisoned := c.poisoned ++ l, good := first, status := 0x3001 } else { c with poisoned := c.poisoned ++ l }

/-- A read completes: with its data up to the first failing block (R91). -/
def endRead (id : Nat) (s : State) : State :=
  match cmdOf s id with
  | none => s
  | some c =>
    finishCmd id c.status c.good 0 (modCmd id (fun x => { x with gathered := x.gathered.filter fun g => decide (g.1 < c.good * 4096) }) s)

/-- The read serves its blocks: staged and zero blocks at once, and a job for each chunk it needs. A key that is LOST or
EMPTY ends it before anything is delivered (R187). -/
def startRead (c : Cmd) (n : Ns) (s : State) : State :=
  let src := (List.range c.nblk).map fun b => (b, blockSource s n (c.lba + b))
  let parts := src.flatMap fun p => match p.2 with
    | .chunk m => blockParts s p.1 m
    | _ => []
  let chunks := (parts.map (·.1)).eraseDups
  if chunks.any fun k => match chunkOf s k with
    | some e => !keysLoaded s e
    | none => false then finishCmd c.id 0x7011 0 0 s
  else
    let c := lostBlocks ((src.filter fun p => badBlock s n (c.lba + p.1)).map (·.1)) c
    let t := touchRange n.id c.lba c.nblk (modCmd c.id (fun _ => { c with stage := .reading }) s)
    let t := forEach src (fun p u => match p.2 with
      | .zero => deliver c (p.1 * 4096) (zeros 4096) u
      | .data d => deliver c (p.1 * 4096) (padTo 4096 d) u
      | .chunk _ => u) t
    if chunks.isEmpty then endRead c.id t
    else forEach chunks (addJob c parts) t

/-- A read job ends; the read completes with its last one, with the status of its first failing block (R91). -/
def endJob (j : ReadJob) (status : Word16) (s : State) : State :=
  let t := modSeg j.seg (fun g => { g with readers := g.readers - 1 })
    { s with bal := { s.bal with readJobs := without (fun x => x.id == j.id) s.bal.readJobs } }
  let first := (j.parts.map (·.1)).foldl min 256
  let t := modCmd j.cmd (fun c =>
    if status != 0 && decide (first < c.good) then { c with good := first, status := status } else c) t
  if t.bal.readJobs.any fun x => x.cmd == j.cmd then t
  else endRead j.cmd t

/-! ### Relays (R94, R363) -/

/-- The mark of a relay to the peer. -/
def peerDst : Nat := 64

def qualifies (s : State) (a : Nat) : Bool :=
  let p := pathOf s a
  s.rdm.fedState != 2 && p.state == 1 && p.role != 2

/-- R363: the chip at FED_ADDR, else the one with bit 0 inverted. -/
def relayTarget (s : State) (a : Nat) : Option Nat :=
  if qualifies s a then some a else if qualifies s (a ^^^ 1) then some (a ^^^ 1) else none

/-- The numbers of a relayed command entry. -/
def relayArgs (c : Cmd) : List Nat :=
  [c.q.f.port.val, c.q.f.fn.toNat, c.q.idx.toNat, c.cid.toNat, c.op.toNat, c.nsid, c.lba, c.nblk, c.tenant.getD 0,
    if c.tag.isSome then 1 else 0, (c.tag.getD 0).toNat]

/-- A message of `len` bytes goes out on the first ready connection that meets a test: its packets await acknowledgement. -/
def sentOn (p : RcQp → Bool) (len : Nat) (s : State) : State :=
  let f := fun q : RcQp =>
    let n := (len + q.mtu - 1) / q.mtu
    { q with sendPsn := (q.sendPsn + n) % 2 ^ 24, unacked := q.unacked + n }
  { s with rdm := { s.rdm with qps := modFirst (fun q => q.st == .ready && p q) f s.rdm.qps } }

/-- Send a relayed command: over the peer link, or as a RELAY_REQ with the number of its relay. -/
def sendRelay (c : Cmd) (dst : Nat) (s : State) : State :=
  let data := gatheredBytes c.gathered
  if dst = peerDst then toPeer 0x14 (0 :: relayArgs c) data s
  else
    match s.rdm.relays.find? fun r => r.cmd == c.id with
    | some r =>
      let rs := modFirst (fun x => x.id == r.id) (fun x => { x with sent := true, epoch := (pathOf s dst).epoch }) s.rdm.relays
      emit (.repl 0x41 (BitVec.ofNat 64 r.id) ([dst, (pathOf s dst).epoch.toNat] ++ relayArgs c) data)
        (sentOn (fun q => q.purpose == 1 && q.addr == dst) (104 + data.length) { s with rdm := { s.rdm with relays := rs } })
    | none => s

/-- A command becomes a relay; a WRITE is sent once its data has come from the host. -/
def startRelay (w : Waiter) (dst : Nat) (s : State) : State :=
  let d := newCmd w (.relayed dst) s
  let c := { d with gathered := if w.c.op = 0x88 then [(0, padTo (8 * w.c.d38) w.c.buf)] else d.gathered }
  let t := addCmd c s
  let t := if dst = peerDst then t
    else { t with rdm := { t.rdm with
      relays := t.rdm.relays ++ [⟨t.rdm.nextRelay, c.id, dst, false, false, 0, w.c⟩], nextRelay := t.rdm.nextRelay + 1 } }
  if w.c.op = 0x81 && w.origin == .host then forEach c.bufs (fun b u => emit (.hostRead c.q.f.port (BitVec.ofNat 64 b.1) b.2) u) t
  else sendRelay c dst t

/-! ### Admission of READ, WRITE and DEALLOCATE -/

/-- Does the peer head own the namespace now? Its OWNER does, but for those that a return has not handed back yet (R344). -/
def peerOwns (s : State) (n : Ns) : Bool :=
  s.peer.role == .active && (if n.owner = s.glb.headId then decide (n.id ∈ s.pair.kept) else !decide (n.id ∈ s.pair.kept))

/-- Is a command waiting before its admission? -/
def notAdmitted (c : Cmd) : Bool := waitsAtAdmission c || c.stage == .waitTag || (c.stage == .waitMap && c.op != 0x80)

/-- Has the settlement log been replayed (R93)? -/
def logReplayed (s : State) : Bool := s.plf.records.isEmpty || decide (0 < s.plf.replayStep)

/-- Do two commands come from one SQ? -/
def sameSq (o p : Origin) (k m : QKey) : Bool :=
  k == m && match o, p with
    | .host, .host => true
    | .peer, .peer => true
    | .fed a _, .fed b _ => a == b
    | _, _ => false

/-- Must a command that is relayed wait behind an overlapping WRITE of its SQ that is still to be sent, or a command that waits (R95)? -/
def relayWaits (s : State) (w : Waiter) : Bool :=
  w.c.op != 0x88 &&
    ((s.hqe.cmds.any fun c => sameSq c.origin w.origin c.q w.c.q && c.op == 0x81 && decide (c.arrived.length < c.nblk) && c.nsid == w.c.ns
        && (match c.stage with
          | .relayed _ => true
          | _ => false) && overlap c.lba c.nblk w.c.start w.c.blocks)
      || s.hqe.behind.any fun x => sameSq x.origin w.origin x.c.q w.c.q && x.c.ns == w.c.ns
        && overlap x.c.start x.c.blocks w.c.start w.c.blocks)

/-- Must the command wait before admission: behind an overlapping command of its SQ (R95), for a held namespace, for the
decision on the peer (R338), a STATE QUERY in RECOVERY for the settlement log (R93), or an administrative command for
random numbers (R197), which only the DRBG's own events release? -/
def mustWait (s : State) (w : Waiter) : Bool :=
  let a := w.c.start
  let n := w.c.blocks
  if w.c.op < 0x80 then true
  else if w.c.op = 0x88 then s.glb.service == .recovery && !logReplayed s
  else
    (w.origin == .host && s.pair.swapWait) || (w.c.op != 0x80 && (suspectNow s || writesHeld s w.c.ns))
      || ((s.hqe.cmds.any fun c => sameSq c.origin w.origin c.q w.c.q && notAdmitted c && c.nsid == w.c.ns
            && overlap c.lba c.nblk a n)
          || s.hqe.behind.any fun x => sameSq x.origin w.origin x.c.q w.c.q && x.c.ns == w.c.ns
            && overlap x.c.start x.c.blocks a n)

/-- Steps 4 and 5 of admission with R94, R318 and R321: a status, or a relay to the peer, or the namespace. -/
inductive NsCheck where
  | fails (status : Word16)
  | toPeer
  | ok (n : Ns)
  deriving DecidableEq, Repr

def nsCheck (s : State) (w : Waiter) : NsCheck :=
  match nsOf s w.c.ns with
  | none => .fails 0x2001
  | some n =>
    if some n.tenant != w.tenant || n.deleting.isSome then .fails 0x2001
    else if peerOwns s n then
      (if (tenantOf s n.tenant).any (·.relay) && s.peer.linkUp && w.origin != .peer then .toPeer else .fails 0x6002)
    else if n.size < w.c.start + w.c.blocks then .fails 0x1003
    else if w.c.op != 0x80 && (n.exposed.isSome || n.target) then .fails 0x4002
    else .ok n

/-- A relay starts, or waits for its turn in the SQ. -/
def relayOrWait (w : Waiter) (dst : Nat) (s : State) : State :=
  if relayWaits s w then { s with hqe := { s.hqe with behind := s.hqe.behind ++ [w] } } else startRelay w dst s

/-- The pages that a command still needs: a READ those of its blocks' entries and chunks, the others their map pages. -/
def neededPages (s : State) (c : Cmd) : List (Nat × Nat) :=
  if c.op == 0x80 then missingPages s c.nsid c.lba c.nblk else (missingMap s c.nsid c.lba c.nblk).map fun p => (c.nsid, p)

/-- The pages that the commands waiting already read. -/
def awaitedPages (s : State) : List (Nat × Nat) :=
  (s.hqe.cmds.filter fun c => c.stage == .waitMap).flatMap fun c => neededPages s c

/-- A command that needs uncached pages waits for them, each read once, by an urgent read (R205, R221). -/
def waitPages (c : Cmd) (s : State) : State :=
  let need := (neededPages s c).filter fun p => !(p ∈ awaitedPages s)
  let t := modCmd c.id (fun x => { x with stage := .waitMap }) { s with med := { s.med with mapFaults := s.med.mapFaults + need.length } }
  forEach need readPage t

/-- The ID of the queue pair that a settlement entry belongs to; a command of another chip has none here. -/
def qpIdOf (s : State) (w : Waiter) : Nat :=
  match w.origin, qpOf s w.c.q with
  | .host, some q => q.id
  | _, _ => 65536

/-- An exposed snapshot's tree is read with its own pages, which the model holds with the snapshot. -/
def admitRead (w : Waiter) (n : Ns) (s : State) : State :=
  let c := newCmd w .reading s
  let t := addCmd c s
  if n.exposed.isNone && !(neededPages s c).isEmpty then waitPages c t else startRead c n t

/-- Past the host-tag check: map pages, then slots and credits. -/
def admitSlots (c : Cmd) (s : State) : State :=
  if (neededPages s c).isEmpty then
    grantAll (modCmd c.id (fun x => { x with stage := .waitCredit }) (touchRange c.nsid c.lba c.nblk s))
  else waitPages c s

/-- Steps 6 and 7 of a WRITE (R105 to R107, R103); a relayed write's data is at hand. -/
def admitWrite (w : Waiter) (s : State) : State :=
  let c := newCmd w .waitTag s
  match c.tag, w.tenant with
  | some g, some tn =>
    if tagBusy s tn g then answerCmd w 0x1008 0 s
    else
      match settleCreate tn g c.nsid (qpIdOf s w) s with
      | some t => admitSlots c (addCmd c t)
      | none => addCmd c s
  | _, _ => admitSlots c (addCmd c s)

/-- Steps 4 to 7 of admission. -/
def admitIo (w : Waiter) (s : State) : State :=
  match nsCheck s w with
  | .fails st => answerCmd w st 0 s
  | .toPeer => relayOrWait w peerDst s
  | .ok n =>
    if mustWait s w then { s with hqe := { s.hqe with behind := s.hqe.behind ++ [w] } }
    else if w.c.op = 0x80 then admitRead w n s
    else if w.c.op = 0x81 then admitWrite w s
    else
      let c := newCmd w .waitCredit s
      admitSlots c (addCmd c s)

/-- An I/O command after steps 1 to 3: to another chip (R363), to the peer in head role SERVICE, or admitted here. -/
def routeIo (w : Waiter) (s : State) : State :=
  if w.c.remote then
    match relayTarget s (w.c.fed.toNat % 64) with
    | some d => relayOrWait w d s
    | none => answerCmd w 0x6003 0 s
  else if w.origin == .host && s.pair.swapWait then { s with hqe := { s.hqe with behind := s.hqe.behind ++ [w] } }
  else if s.peer.role = .service then
    (if s.peer.linkUp && w.origin != .peer then relayOrWait w peerDst s else answerCmd w 0x6002 0 s)
  else admitIo w s

/-! ### STATE QUERY (R108) -/

def queryTags (c : HostCmd) : List Word64 :=
  (List.range c.d38).map fun i => BitVec.ofNat 64 (numAt c.buf (8 * i) 8)

/-- One result entry of 16 bytes. -/
def queryEntry (s : State) (tenant : Option Nat) (g : Word64) : Bytes :=
  match tenant.bind fun t => settleFind s t g with
  | some e => leBytes 8 g.toNat ++ [BitVec.ofNat 8 e.outcome.val, 0] ++ leBytes 2 e.nsid ++ leBytes 4 e.count
  | none => leBytes 8 g.toNat ++ [0, 0] ++ leBytes 2 0 ++ leBytes 4 0

/-- Is any queried tag PENDING? -/
def queryPending (s : State) (tenant : Option Nat) (tags : List Word64) : Bool :=
  tags.any fun g => match tenant.bind fun t => settleFind s t g with
    | some e => e.outcome == 4
    | none => false

/-- RELEASE unpins each entry that was read (R106). -/
def releaseTags (tenant : Option Nat) (tags : List Word64) (s : State) : State :=
  match tenant with
  | none => s
  | some t =>
    let l := modAll (fun e => tags.any fun g => isTag t g e) (fun e => { e with pinned := false }) s.hqe.settle
    { s with hqe := { s.hqe with settle := l } }

/-- The results go to the result buffer, or back over a link, and the command completes with the number of tags. -/
def answerQuery (id : Nat) (s : State) : State :=
  match cmdOf s id with
  | none => s
  | some c =>
    match c.stage with
    | .query tags tenant release addr =>
      let bytes := tags.flatMap (queryEntry s tenant)
      let t := if c.origin == .host then toHost c.q addr bytes s
        else modCmd id (fun x => { x with gathered := [(0, bytes)] }) s
      finishCmd id 0 0 tags.length (if release then releaseTags tenant tags t else t)
    | _ => s

/-- A STATE QUERY for the tenant of its queue pair, or the named tenant on the PF0 administrative queue. -/
def admitQuery (w : Waiter) (s : State) : State :=
  if mustWait s w then { s with hqe := { s.hqe with behind := s.hqe.behind ++ [w] } }
  else
    let c := { newCmd w (.query (queryTags w.c) w.tenant (bitOf w.c.d3C 31) w.c.q30) s with bufs := [], nblk := 0, good := 0 }
    let t := addCmd c s
    if bitOf w.c.d3C 30 && queryPending s w.tenant (queryTags w.c) then t else answerQuery c.id t

/-- The tenant that a query is about. -/
def queryTenant (c : HostCmd) (q : Qp) : Option Nat :=
  if q.admin && isPf c.q.f then some (c.d3C % 4096) else q.tenant

def routeQuery (q : Qp) (c : HostCmd) (s : State) : State :=
  let w : Waiter := ⟨c, queryTenant c q, .host⟩
  if c.remote then
    match relayTarget s (c.fed.toNat % 64) with
    | some d => startRelay w d s
    | none => answerCmd w 0x6003 0 s
  else if q.admin && isPf c.q.f && (tenantOf s (c.d3C % 4096)).isNone then answerCmd w 0x1002 0 s
  else admitQuery w s

/-! ### Waiting commands -/

/-- Admit a command that was held back, from step 4 on. -/
def admitWaiter (w : Waiter) (s : State) : State := if w.c.op = 0x88 then admitQuery w s else routeIo w s

/-- Each held command is looked at again, in order. -/
def wakeBehind (s : State) : State :=
  forEach s.hqe.behind (fun w t =>
    if mustWait t w then { t with hqe := { t.hqe with behind := t.hqe.behind ++ [w] } } else admitWaiter w t)
    { s with hqe := { s.hqe with behind := [] } }

/-- Writes that wait at the host-tag check try again (R106). -/
def retryTags (s : State) : State :=
  forEach (s.hqe.cmds.filter fun c => c.stage == .waitTag) (fun c t =>
    match c.tag, c.tenant with
    | some g, some tn =>
      let qp := match c.origin, qpOf t c.q with
        | .host, some q => q.id
        | _, _ => 65536
      match settleCreate tn g c.nsid qp t with
      | some u => admitSlots c u
      | none => t
    | _, _ => t) s

/-- Everything that waits at admission is looked at again. -/
def readmit (s : State) : State := wakeBehind (grantAll (retryTags s))

/-! ### The commands -/

/-- The queue handler of the I/O opcodes. -/
def ioRow (c : HostCmd) (s : State) : State := fetchRow c (fun q t => routeIo ⟨c, q.tenant, .host⟩ t) s

/-- READ (R90 to R100). -/
def execRead (c : HostCmd) (s : State) : Res := run (.read c) (ioRow c) s

/-- WRITE (R90 to R107). -/
def execWrite (c : HostCmd) (s : State) : Res := run (.write c) (fun t => ioRow c t) s

/-- DEALLOCATE (R92, R100). -/
def execDeallocate (c : HostCmd) (s : State) : Res := run (.deallocate c) (fun t => ioRow c t) s

/-- STATE_QUERY (R108). -/
def execStateQuery (c : HostCmd) (s : State) : Res := run (.stateQuery c) (fetchRow c (fun q t => routeQuery q c t)) s

/-- STATE_QUERY_WAIT_END (R108): no queried tag is PENDING any more, or 100 ms have passed. -/
def stateQueryWaitEndEffect (id : Nat) (timedOut : Bool) (s : State) : State :=
  match cmdOf s id with
  | none => s
  | some c =>
    match c.stage with
    | .query tags tenant _ _ => if timedOut || !queryPending s tenant tags then answerQuery id s else s
    | _ => s

def execStateQueryWaitEnd (cmd : Nat) (timedOut : Bool) (s : State) : Res :=
  run (.stateQueryWaitEnd cmd timedOut) (stateQueryWaitEndEffect cmd timedOut) s

/-- CREDIT_GRANT (R103, R95, R120): freed credits, sets and log entries go to the commands that wait. -/
def execCreditGrant (s : State) : Res := run .creditGrant readmit s

/-- CREDIT_WAIT_TIMEOUT (R103, R120, R106): 200 µs have passed: 0x5001, and nothing of the write is committed. The wait
does not count between the loss of BEATs and the decision (R338). -/
def creditWaitTimeoutEffect (id : Nat) (s : State) : State :=
  match cmdOf s id with
  | none => s
  | some c =>
    if (waitsAtAdmission c || c.stage == .waitTag) && !suspectNow s && !writesHeld s c.nsid then
      let t := match c.tenant with
        | some tn => modTenant tn (fun x => { x with n5001 := satAdd 0xFFFFFFFF x.n5001 1 }) s
        | none => s
      wakeBehind (if c.stage == .waitTag then finishCmd id 0x5001 0 0 t else endWrite c 0 0x5001 t)
    else s

def execCreditWaitTimeout (cmd : Nat) (s : State) : Res := run (.creditWaitTimeout cmd) (creditWaitTimeoutEffect cmd) s

/-- The data of one block of a WRITE has arrived. -/
def blockArrived (id b : Nat) (data : Bytes) (s : State) : State :=
  match cmdOf s id with
  | none => s
  | some c =>
    if b < c.nblk ∧ b ∉ c.arrived ∧ s.pins.flushing = false then
      match c.stage with
      | .filling =>
        let t := modCmd id (fun x => { x with arrived := x.arrived ++ [b] }) s
        let l := modFirst (fun e => e.cmd == id && e.block == b) (fun e => { e with data := padTo 4096 data }) t.ing.staging
        advanceWrite id { t with ing := { t.ing with staging := l } }
      | .relayed dst =>
        let t := modCmd id (fun x => { x with arrived := x.arrived ++ [b], gathered := x.gathered ++ [(4096 * b, padTo 4096 data)] }) s
        match cmdOf t id with
        | some d => if d.arrived.length = d.nblk then wakeBehind (sendRelay d dst t) else t
        | none => t
      | _ => s
    else s

/-- WRITE_DATA_ARRIVED (R99, R118, R119, R31). -/
def execWriteDataArrived (cmd block : Nat) (data : Bytes) (s : State) : Res :=
  run (.writeDataArrived cmd block data) (blockArrived cmd block data) s

/-- MAP_PAGE_READ_DONE (R205): the page is in the cache, and the commands that waited for it go on in order. Namespace 0 stands for the
chunk table. A READ whose map pages have come may need chunk-table pages now. -/
def mapPageReadDoneEffect (n : BitVec 14) (page : Nat) (s : State) : State :=
  let t := touchPage (n.toNat, page) s
  let go := t.hqe.cmds.filter fun c => c.stage == .waitMap
  wakeBehind (forEach go (fun c u =>
    if !(neededPages u c).isEmpty then
      (if (neededPages u c).all fun p => decide (p ∈ neededPages s c) then u else waitPages c (modCmd c.id (fun x => { x with stage := .waitCredit }) u))
    else if c.op == 0x80 then
      match nsOf u c.nsid with
      | some x => startRead c x u
      | none => finishCmd c.id 0x2001 0 0 u
    else admitSlots c u) t)

def execMapPageReadDone (nsid : BitVec 14) (page : Nat) (s : State) : Res :=
  run (.mapPageReadDone nsid page) (mapPageReadDoneEffect nsid page) s

/-! ### Settling the commands of a function (R68) -/

/-- Drop a read's jobs; the segments it looked up lose a reader. -/
def dropJobs (id : Nat) (s : State) : State :=
  forEach (s.bal.readJobs.filter fun j => j.cmd == id) (fun j t =>
    modSeg j.seg (fun g => { g with readers := g.readers - 1 })
      { t with bal := { t.bal with readJobs := without (fun x => x.id == j.id) t.bal.readJobs } }) s

/-- R68 for one outstanding command: what changes no stored data is abandoned, SET POWER, SET PACE and DELETE QP among it; a deletion or a
snapshot goes on without a completion. -/
def settleOne (id : Nat) (s : State) : State :=
  let t := modCmd id (fun c => { c with silent := true }) s
  match cmdOf t id with
  | none => t
  | some c =>
    match c.stage with
    | .waitTag => finishCmd id 0 0 0 t
    | .waitMap => if c.op == 0x80 then finishCmd id 0 0 0 t else endWrite c 0 0 t
    | .waitCredit | .waitSet | .waitGen => endWrite c 0 0 t
    | .filling => cutWrite id t
    | .reading => finishCmd id 0 0 0 (dropJobs id t)
    | .query _ _ _ _ => finishCmd id 0 0 0 t
    | .power => finishCmd id 0 0 0 { t with clk := { t.clk with newPower := t.clk.newPower.filter fun p => p.2 != id } }
    | .pace => finishCmd id 0 0 0 { t with clk := { t.clk with newPace := t.clk.newPace.filter fun p => p.2 != id } }
    | .deleteQp k => finishCmd id 0 0 0 (modQp k (fun q => { q with deleting := none }) t)
    | .relayed _ => finishCmd id 0 0 0 { t with rdm := { t.rdm with relays := without (fun r => r.cmd == id) t.rdm.relays } }
    | .mirroring | .deleteNs | .snap _ _ => t

/-- R68 for the queue pairs that meet a test: their recent log entries are pinned (R106), what is not admitted is
discarded, admitted writes keep the blocks that have arrived, reads are abandoned, and nothing is posted. -/
def settleQueues (p : Qp → Bool) (s : State) : State :=
  let qs := s.hqe.qps.filter p
  let keys := qs.map (·.key)
  let t := pinQps (qs.map (·.id)) s
  let t := { t with hqe := { t.hqe with behind := t.hqe.behind.filter fun w => !(w.origin == .host && decide (w.c.q ∈ keys)) } }
  forEach ((t.hqe.cmds.filter fun c => c.origin == .host && decide (c.q ∈ keys)).map (·.id)) settleOne t

end Sys2Proof.Machine
end

