-- ==== Sys2Proof/Machine/Drc.lean ====
section
/-! DEFINITION. The DRAM controller: delay sets by temperature (R380 to R383), the queues (R385, R386), refresh (R387), neighbour
refresh (R388), ECC and scrubbing (R389 to R391) and self-refresh (R392, R393). -/

namespace Sys2Proof.Machine

/-! ### Banks and rows -/

/-- The bank of a line within its channel, over the four rank slots of 32 banks each. -/
def bankOf (line : Nat) : Nat := Config.dramBank line % 128

def rankOfBank (b : Nat) : Nat := b / 32

def queueOf (s : State) (k : Nat) : DramQ := tabGet {} k s.drc.queues

def modQueue (k : Nat) (f : DramQ → DramQ) (s : State) : State :=
  { s with drc := { s.drc with queues := tabMod {} k f s.drc.queues } }

/-- The row that stands open in a bank. -/
def openRow (q : DramQ) (b : Nat) : Option Nat := (q.openRows.find? fun p => p.1 == b).map (·.2)

/-- A bank is precharged; a DRFM that it owes is issued for the row that was open (R388). -/
def precharge (k b : Nat) (s : State) : State :=
  let q := queueOf s k
  let t := modQueue k (fun x => { x with openRows := x.openRows.filter fun p => p.1 != b, drfm := x.drfm.filter (· != b) }) s
  match openRow q b with
  | some r =>
    if b ∈ q.drfm then
      emit (.dramDrfm (Fin.ofNat 12 (k / 2)) b r) { t with drc := { t.drc with nrIssued := (t.drc.nrIssued + 1) % 2 ^ 64 } }
    else t
  | none => t

/-- Every bank that meets a test is precharged, in both subchannels of a channel. -/
def prechargeAll (c : Nat) (p : Nat → Bool) (s : State) : State :=
  forEach [2 * c, 2 * c + 1] (fun k t => forEach (((queueOf t k).openRows.map (·.1)).filter p) (precharge k) t) s

/-- The next value of a channel's LFSR, whose seed is made of the unit serial and the channel number (R200); its feedback is open. -/
def lfsrNext (s : State) (c : Nat) : Nat :=
  let v := tabGet 0 c s.drc.draws
  (Config.lfsrStep (if v = 0 then Config.lfsrSeed s.glb.unitSerial c else BitVec.ofNat 64 v)).toNat

/-- Does this activate call for a DRFM (R388)? With the counter of R200, exactly every 2^L-th one does. -/
def drawDrfm (c : Nat) (s : State) : Bool × State :=
  let n := 2 ^ s.drc.probLog2
  if s.sec.rng.sampler = 2 then
    let a := tabGet 0 c s.drc.activates + 1
    (decide (n ≤ a), { s with drc := { s.drc with activates := tabPut 0 c (if n ≤ a then 0 else a) s.drc.activates } })
  else
    let v := if s.sec.rng.sampler = 0 then lfsrNext s c else Config.rowHammerDraw c (tabGet 0 c s.drc.draws)
    (decide (v % n = 0), { s with drc := { s.drc with draws := tabPut 0 c v s.drc.draws } })

/-- A row is activated for a request. -/
def activate (k b r : Nat) (s : State) : State :=
  let t := precharge k b s
  let d := drawDrfm (k / 2) t
  modQueue k (fun x => { x with openRows := x.openRows ++ [(b, r)], drfm := if d.1 then insertNat b x.drfm else x.drfm }) d.2

/-! ### ECC (R389, R390) -/

/-- A line was corrected: counted, written back unless a newer write waits, and a Fault event at a page's eighth in 24 h. -/
def correctLine (k line : Nat) (s : State) : State :=
  let t := { s with drc := { s.drc with ce := (s.drc.ce + 1) % 2 ^ 64 } }
  let t := onlyIf (!((queueOf s (k / 2 * 2)).writes ++ (queueOf s (k / 2 * 2 + 1)).writes).any fun r => r.line == line) (emit (.dramWrite line (cellsRead dramDefault s.dram (64 * line) 64))) t
  let page := line / 64
  let l := (t.drc.pageCe.filter fun p => decide (nowS s < p.2 + 86400)) ++ [(page, nowS s)]
  if 8 ≤ (l.filter fun p => p.1 == page).length then
    raise .drc .fault 389 0 [page] { t with drc := { t.drc with pageCe := l.filter fun p => p.1 != page } }
  else { t with drc := { t.drc with pageCe := l } }

def countUe (s : State) : State := { s with drc := { s.drc with ue := (s.drc.ue + 1) % 2 ^ 64 } }

/-- A command whose processing depends on lost data completes with 0x7010 (R24, R390); a write whose blocks are all staged needs
nothing more. -/
def loseCommand (id : Nat) (s : State) : State :=
  match cmdOf s id with
  | none => s
  | some c =>
    if c.op == 0x81 || c.op == 0x82 then
      (match c.stage with
      | .filling => cutWrite id (modCmd id (fun x => { x with status := 0x7010 }) s)
      | .mirroring => s
      | _ => endWrite c 0 0x7010 s)
    else finishCmd id 0x7010 0 0 s

/-- R73: a block that a read has in a read buffer is lost: it goes to the host with the poison mark, at once, with what the buffer holds,
which is open. -/
def loseBlock (id b : Nat) (s : State) : State :=
  match cmdOf s id with
  | none => s
  | some c =>
    if c.nblk ≤ b then s
    else
      let d := lostBlocks [b] c
      tickLong 4096 (deliver d (4096 * b) (freeLong 4096 s) (modCmd id (fun _ => d) s))

/-- Data that nobody else holds is lost: a Critical event, and the command that depends on it: a read poisons its block. -/
def dataLost (r : DramReq) (s : State) : State :=
  let t := raise .drc .critical 390 0 [r.line] s
  match r.cmd, r.block with
  | some id, some b => (match cmdOf t id with
    | some c => if c.stage == .reading then loseBlock id b t else loseCommand id t
    | none => t)
  | some id, none => loseCommand id t
  | none, _ => t

/-- An uncorrectable line of a staged block (R73): in role ACTIVE the block is read again from the peer's mirror area, which may have
failed too; a block that is lost so is poisoned when it is read. -/
def stagedLost (r : DramReq) (n : Nat) (s : State) : State :=
  match s.ing.staging.find? fun e => e.slot == n with
  | none => s
  | some e =>
    let ask := s.peer.role == .active && s.peer.linkUp && e.st != .filling
    let t := onlyIf ask (emit (.mirrorRead e.nsid e.lba e.gen)) s
    if ask && r.copyElsewhere then t
    else dataLost r (modEntry n (fun x => { x with bad := true }) t)

/-- An uncorrectable line of a mirror copy: nobody else holds it for this chip. -/
def copyLost (r : DramReq) (k : Nat × Nat × Word16) (s : State) : State :=
  let l := modFirst (fun m : MirEntry => m.nsid == k.1 && m.lba == k.2.1 && m.gen == k.2.2) (fun m => { m with bad := true }) s.ing.mirror
  dataLost r { s with ing := { s.ing with mirror := l } }

/-- A read line arrives. -/
def deliverLine (k : Nat) (r : DramReq) (s : State) : State :=
  let data := cellsRead dramDefault s.dram (64 * r.line) 64
  if r.ecc = 2 ∨ r.line ∈ s.drc.poisoned then
    let t := emit (.dramData r.channel r.line true data) (countUe s)
    match r.slot with
    | some n => stagedLost r n t
    | none => match r.copy with
      | some k => copyLost r k t
      | none => if r.copyElsewhere then t else dataLost r t
  else emit (.dramData r.channel r.line false data) (onlyIf (r.ecc == 1) (correctLine k r.line) s)

/-- A write reaches the DRAM. -/
def storeLine (r : DramReq) (s : State) : State :=
  let data := padTo 64 r.data
  emit (.dramWrite r.line data) { s with
    dram := cellsWrite dramDefault data (64 * r.line) s.dram,
    drc := { s.drc with poisoned := s.drc.poisoned.filter (· != r.line) } }

/-! ### Scheduling (R385, R386) -/

/-- The requests of a subchannel in order of arrival: reads wait for nothing between two commands, so queued writes are older. -/
def arrivals (q : DramQ) : List DramReq := q.writes ++ q.reads

/-- Is a bank in in-order mode: does it hold two requests to one line? -/
def hasTwo : List Nat → Bool
  | [] => false
  | x :: xs => xs.contains x || hasTwo xs

def inOrderMode (q : DramQ) (b : Nat) : Bool := hasTwo (((arrivals q).filter fun r => bankOf r.line == b).map (·.line))

/-- The oldest request to an open row, and otherwise the oldest. -/
def hitFirst (q : DramQ) (l : List DramReq) : Option DramReq :=
  (l.find? fun r => openRow q (bankOf r.line) == some (Config.dramRow r.line)).orElse fun _ => l.head?

/-- The request that is issued next: within its bank none passes an older one in in-order mode, nor one that has waited 1 µs. -/
def nextRequest (q : DramQ) : Option DramReq :=
  match hitFirst q (if q.draining then q.writes else q.reads) with
  | none => none
  | some r =>
    let b := bankOf r.line
    let same := (arrivals q).filter fun x => bankOf x.line == b
    let older := same.takeWhile fun x => x != r
    if inOrderMode q b then same.head? else some ((older.find? fun x => decide (1 ≤ x.waitedUs)).getD r)

/-- Remove the first occurrence. -/
def removeOne (r : DramReq) : List DramReq → List DramReq
  | [] => []
  | x :: xs => if x = r then xs else x :: removeOne r xs

/-- One request is issued. -/
def issueOne (k : Nat) (r : DramReq) (s : State) : State :=
  let q := queueOf s k
  let b := bankOf r.line
  let row := Config.dramRow r.line
  let t := if openRow q b = some row then s else activate k b row s
  let t := modQueue k (fun x => if r.write then { x with writes := removeOne r x.writes } else { x with reads := removeOne r x.reads }) t
  if r.write then storeLine r t else deliverLine k r t

/-- The queues of a subchannel are worked until no read waits and, in a drain, at most `low` writes. -/
def serveQueue (k low : Nat) : Nat → State → State
  | 0, s => s
  | n + 1, s =>
    let q := queueOf s k
    let q := { q with draining := q.draining && decide (low < q.writes.length) }
    let s := modQueue k (fun x => { x with draining := q.draining }) s
    match nextRequest q with
    | none => s
    | some r => serveQueue k low n (issueOne k r s)

/-- Refreshes postponed to the limit go ahead of every request (R387). -/
def issueOwed (c : Nat) (s : State) : State :=
  forEach [4 * c, 4 * c + 1, 4 * c + 2, 4 * c + 3] (fun i t =>
    if tabGet 0 i t.drc.owed = 4 then
      forEach (List.range 4) (fun _ => emit (.dramRefresh (Fin.ofNat 12 c) (i % 4)))
        (prechargeAll c (fun b => rankOfBank b == i % 4) { t with drc := { t.drc with owed := tabPut 0 i 0 t.drc.owed } })
    else t) s

/-- A request enters its queue; the channel then works on. -/
def requestEffect (r : DramReq) (s : State) : State :=
  if !s.pins.dramReady || s.drc.selfRef || dramLines s ≤ r.line then s
  else
    let k := 2 * r.channel.val + r.sub.val
    let age := fun x : DramReq => { x with waitedUs := x.waitedUs + r.waitedUs }
    let was := inOrderMode (queueOf s k) (bankOf r.line)
    let new := { r with waitedUs := 0 }
    let t := modQueue k (fun x =>
      let w := x.writes.map age
      let y := if r.write then { x with writes := w ++ [new] } else { x with writes := w, reads := x.reads ++ [new] }
      { y with draining := y.draining || decide (48 ≤ y.writes.length) }) (issueOwed r.channel.val s)
    let enters := !was && inOrderMode (queueOf t k) (bankOf r.line)
    let t := onlyIf enters (fun u => { u with drc := { u.drc with inorder := (u.drc.inorder + 1) % 2 ^ 64 } }) t
    serveQueue k 16 128 t

/-- DRAM_REQUEST. -/
def execDramRequest (r : DramReq) (s : State) : Res := run (.dramRequest r) (requestEffect r) s

/-! ### Refresh (R387) -/

/-- Is a rank slot of a channel filled? -/
def rankPresent (s : State) (r : Nat) : Bool := decide (r % 2 < s.drc.ranks) && decide (12 * (r / 2) < s.drc.rdimms)

/-- A refresh falls due: postponed while reads wait and fewer than four are outstanding, otherwise issued with those outstanding. -/
def refreshEffect (c r : Nat) (readsWaiting : Bool) (s : State) : State :=
  let i := 4 * c + r
  let n := tabGet 0 i s.drc.owed
  if !s.pins.dramReady || s.drc.selfRef || !rankPresent s r then s
  else if readsWaiting && decide (n < 4) then { s with drc := { s.drc with owed := tabPut 0 i (n + 1) s.drc.owed } }
  else
    forEach (List.range (n + 1)) (fun _ => emit (.dramRefresh (Fin.ofNat 12 c) r))
      (prechargeAll c (fun b => rankOfBank b == r) { s with drc := { s.drc with owed := tabPut 0 i 0 s.drc.owed } })

/-- REFRESH_DUE. -/
def execRefreshDue (channel : Fin 12) (rank : Fin 4) (readsWaiting : Bool) (s : State) : Res :=
  run (.refreshDue channel rank readsWaiting) (refreshEffect channel.val rank.val readsWaiting) s

/-! ### Temperature bands (R381 to R383) -/

/-- The lower bound of band k. -/
def lowerBound (d : Drc) (k : Nat) : Int := Int.ofNat (d.bounds.getD (k - 1) 0)

/-- The highest of the first n bands whose lower bound, less a margin, the reading reaches; band 0 always qualifies. -/
def highestBand (d : Drc) (t : Int) (margin : Nat) (n : Nat) : Nat :=
  (List.range n).foldl (fun a k => if k = 0 ∨ lowerBound d k - Int.ofNat margin ≤ t then k else a) 0

/-- The band after a reading. -/
def bandAfter (d : Drc) (k : Nat) (t : Int) : Nat :=
  let up := highestBand d t 0 d.nbands
  if k < up then up
  else if 0 < k ∧ t < lowerBound d k - Int.ofNat d.hyst then highestBand d t d.hyst k
  else k

/-- A channel changes its band: every bank is precharged and the new set is loaded, in self-refresh on its exit. -/
def changeBand (c k : Nat) (s : State) : State :=
  if s.drc.frozen || bandOf s c == k then s
  else
    let t := { s with drc := { s.drc with bands := tabPut 0 c k s.drc.bands, switches := (s.drc.switches + 1) % 2 ^ 64 } }
    if s.drc.selfRef then t else emit (.dramBand c k) (prechargeAll c (fun _ => true) t)

/-- Does a channel cross 95 °C? -/
def noteHot (c : Nat) (t : Int) (s : State) : State :=
  if 95 < t then
    (if c ∈ s.drc.hot then s else raise .drc .fault 387 0 [c] { s with drc := { s.drc with hot := s.drc.hot ++ [c] } })
  else { s with drc := { s.drc with hot := s.drc.hot.filter (· != c) } }

/-- The reading of one channel. -/
def channelReading (c : Nat) (t : Option Int) (s : State) : State :=
  match t with
  | some t =>
    let u := noteHot c t { s with drc := { s.drc with temps := tabPut 0 c t s.drc.temps, missed := tabPut 0 c 0 s.drc.missed } }
    changeBand c (bandAfter u.drc (bandOf u c) t) u
  | none =>
    let m := tabGet 0 c s.drc.missed + 1
    let u := { s with drc := { s.drc with missed := tabPut 0 c (min m 3) s.drc.missed } }
    if m = 3 then raise .drc .fault 383 0 [c] (changeBand c (s.drc.nbands - 1) u) else u

/-- The readings of all twelve channels, channel 0 first. -/
def tempEffect (l : List (Option Int)) (s : State) : State :=
  if !s.pins.dramReady then s else forEach (List.range 12) (fun c t => channelReading c (l.getD c none) t) s

/-- DRAM_TEMP_READING. -/
def execDramTempReading (temps : List (Option Int)) (s : State) : Res := run (.dramTempReading temps) (tempEffect temps) s

/-! ### Scrub (R391) -/

/-- The scrub's next line, in a power state that runs background work (R433): corrected, or rewritten with inverted check bits so that it stays poisoned. -/
def scrubEffect (line : Nat) (ecc : Fin 3) (s : State) : State :=
  if !s.pins.dramReady || s.drc.selfRef || s.pins.pwrFail || asleep s || line != s.drc.scrubLine || dramLines s ≤ line then s
  else
    let k := 2 * (line / 4 % 12)
    let t := { s with drc := { s.drc with scrubLine := (line + 1) % dramLines s } }
    if ecc = 2 ∨ line ∈ s.drc.poisoned then
      emit (.dramWrite line (cellsRead dramDefault s.dram (64 * line) 64))
        (countUe { t with drc := { t.drc with poisoned := insertNat line t.drc.poisoned } })
    else onlyIf (ecc == 1) (correctLine k line) t

/-- SCRUB_STEP. -/
def execScrubStep (line : Nat) (ecc : Fin 3) (s : State) : Res := run (.scrubStep line ecc) (scrubEffect line ecc) s

/-! ### Self-refresh (R392, R393) -/

/-- Every channel completes its queued requests, precharges, and enters self-refresh. -/
def enterSelfRefresh (s : State) : State :=
  let t := forEach (List.range 24) (fun k u => serveQueue k 0 128 (modQueue k (fun x => { x with draining := true }) u)) s
  let t := forEach (List.range 12) (fun c u => prechargeAll c (fun _ => true) u) t
  { t with drc := { t.drc with selfRef := true } }

/-- On exit each channel loads the set of its band before its first command. -/
def leaveSelfRefresh (s : State) : State :=
  if s.drc.selfRef then
    forEach (List.range 12) (fun c t => emit (.dramBand c (bandOf t c)) t) { s with drc := { s.drc with selfRef := false } }
  else s

end Sys2Proof.Machine
end

