-- ==== Sys2Proof/Machine/HqeQueues.lean ====
section
/-! DEFINITION. Doorbells, administrative queues, interrupts by time, restarts and failed fetches (R59, R85 to R89, R110 to
R113), and waking from P2 and P3. -/

namespace Sys2Proof.Machine

/-! ### Clock and power state -/

/-- R438: a change of pace, power state or throttle is recorded as an Info event. -/
def noteClk (before : State) (s : State) : State :=
  raiseIf (pstateCode before != pstateCode s || before.clk.pace != s.clk.pace || before.clk.throttled != s.clk.throttled)
    .clk .info 438 0 [paceCode s.clk.pace, pstateCode s, if s.clk.throttled then 1 else 0] s

/-- The chip wakes into the power state of its pace mode; the DRAM leaves self-refresh (R112, R113, R392). -/
def wake (s : State) : State :=
  if asleep s then
    noteClk s (leaveSelfRefresh { s with clk := { s.clk with pstate := 0, wakeAfter := false } })
  else if s.clk.newPower.isSome then { s with clk := { s.clk with wakeAfter := true } }
  else s

/-- What a doorbell does to a chip in or entering P2 or P3 (R113). -/
def doorbellWake (s : State) : State := if asleep s || enteringSleep s then wake s else s

/-! ### BAR2 -/

/-- Does a function exist on its port now? -/
def functionUp (s : State) (f : FnId) : Bool := isPf f || decide (f.fn.toNat ≤ (portOf s f.port).numVf)

/-- R59, R76: are writes to BAR2 of a port taken now? -/
def bar2Open (s : State) (p : Fin 2) : Bool :=
  s.glb.service != .startUp && s.glb.service != .romService && !(portOf s p).frozen

/-- A discarded BAR2 write is counted. -/
def dropDoorbell (p : Fin 2) (s : State) : State :=
  modPort p (fun x => { x with droppedDb := satAdd 0xFFFF x.droppedDb 1 }) s

/-- A BAR2 write: discarded and counted, or acting. -/
def bar2Write (f : FnId) (act : State → State) (s : State) : State :=
  if !functionUp s f then s else if bar2Open s f.port then act s else dropDoorbell f.port s

/-! ### Administrative queues (R85) -/

def adminOf (s : State) (f : FnId) : AdminRegs := (s.hqe.admin.find? fun a => a.f == f).getD { f := f }

def putAdmin (a : AdminRegs) (s : State) : State :=
  { s with hqe := { s.hqe with admin := (s.hqe.admin.filter fun x => !(x.f == a.f)) ++ [a] } }

/-- The tenant that a function is assigned to. -/
def fnTenant (s : State) (f : FnId) : Option Nat := (s.hqe.fnTenant.find? fun p => p.1 == f).map (·.2)

/-- The first number below `bound`, from a free starting point round, that is not used. -/
def pickId (used : List Nat) (bound : Nat) (s : State) : Option Nat :=
  let k := freePick bound s
  (lowestFree used (bound - k) k).orElse fun _ => lowestFree used k 0

def freeQpId (s : State) : Option Nat := pickId (s.hqe.qps.map (·.id)) 65536 s

/-- A queue pair as it is created (R86, R88). -/
def newQp (k : QKey) (id : Nat) (admin : Bool) (tenant : Option Nat) (sq cq : Word64) (sqLog2 cqLog2 vec agg time : Nat) : Qp :=
  { key := k, id := id, admin := admin, tenant := tenant, sqBase := sq, cqBase := cq, sqLog2 := sqLog2, cqLog2 := cqLog2,
    vec := vec, agg := agg, timeUs := time, tail := 0, fetch := 0, cqHead := 0, cqTail := 0, phase := true, waiting := [],
    unsig := 0, frozen := none, freezeIdx := 0, deleting := none, ordered := none }

def adminKey (f : FnId) : QKey := ⟨f, 0⟩

/-- The fields of HQE.DB_ADMIN_CFG as a write leaves them. -/
def cfgFields (cfg : Word32) (a : AdminRegs) : AdminRegs :=
  { a with enable := cfg.getLsbD 31, mode := cfg.getLsbD 29, asqLog2 := cfg.extractLsb' 0 4, acqLog2 := cfg.extractLsb' 8 4 }

/-- Valid fields: sizes of 4 to 12, bases aligned to 4 KiB. -/
def adminCfgOk (a : AdminRegs) : Bool :=
  decide (4 ≤ a.asqLog2.toNat) && decide (a.asqLog2.toNat ≤ 12) && decide (4 ≤ a.acqLog2.toNat)
    && decide (a.acqLog2.toNat ≤ 12) && a.asq.toNat % 4096 == 0 && a.acq.toNat % 4096 == 0

/-- ADMIN_QUEUE_ENABLE (R85): the administrative queue pair is created from the base registers; while it exists the write
changes nothing but MODE. -/
def adminEnable (f : FnId) (cfg : Word32) (s : State) : State :=
  let a := cfgFields cfg (adminOf s f)
  if (qpOf s (adminKey f)).isSome then putAdmin { adminOf s f with mode := cfg.getLsbD 29 } s
  else if !adminCfgOk a then putAdmin { a with cfgErr := true } s
  else
    match freeQpId s with
    | none => putAdmin { a with cfgErr := false } s
    | some id =>
      let q := newQp (adminKey f) id true (fnTenant s f) a.asq a.acq a.asqLog2.toNat a.acqLog2.toNat 0 0 0
      let t := tick (putAdmin { a with cfgErr := false } s)
      { t with hqe := { t.hqe with qps := t.hqe.qps ++ [q] } }

def execAdminQueueEnable (f : FnId) (cfg : Word32) (s : State) : Res :=
  run (.adminQueueEnable f cfg) (bar2Write f (adminEnable f cfg)) s

def dropQps (p : Qp → Bool) (s : State) : State := { s with hqe := { s.hqe with qps := s.hqe.qps.filter fun q => !p q } }

/-- ADMIN_QUEUE_DISABLE (R85): the queue pair is gone; what it had admitted runs on without completions, the commands
that wait for random numbers among it (R197). -/
def adminDisable (f : FnId) (cfg : Word32) (s : State) : State :=
  let k := adminKey f
  let t := putAdmin { cfgFields cfg (adminOf s f) with cfgErr := false } s
  let l := modAll (fun c => c.origin == .host && c.q == k) (fun c => { c with silent := true }) t.hqe.cmds
  dropQps (fun q => q.key == k) { t with hqe := { t.hqe with
    cmds := l, behind := t.hqe.behind.filter fun w => !(w.origin == .host && w.c.q == k && decide (0x80 ≤ w.c.op)) } }

def execAdminQueueDisable (f : FnId) (cfg : Word32) (s : State) : Res :=
  run (.adminQueueDisable f cfg) (bar2Write f (adminDisable f cfg)) s

/-! ### Restart (R111) -/

/-- FLUSH: complete each entry from FETCH to the last valid tail with 0x5002; the entries as they stand in host memory,
from FETCH on, give the command identifiers. -/
def flushEntries (k : QKey) : Nat → Bytes → State → State
  | 0, _, s => s
  | n + 1, b, s =>
    match qpOf s k with
    | none => s
    | some q =>
      if q.fetch = q.tail then s
      else
        let t := modQp k (fun x => { x with fetch := (x.fetch + 1) % sqSize x }) s
        flushEntries k n (b.drop 64) (postCqe k ⟨BitVec.ofNat 16 (numAt b 2 2), 0x5002, false, 0, 0⟩ t)

/-- The freeze ends, and fetching resumes. -/
def restartQueue (k : QKey) (flush : Bool) (entries : Bytes) (s : State) : State :=
  let t := modQp k (fun x => { x with frozen := none, freezeIdx := 0 }) s
  if flush then flushEntries k 16384 entries t else t

/-- ADMIN_QUEUE_RESTART: only a frozen queue of a port that is not frozen. -/
def adminRestart (f : FnId) (cfg : Word32) (entries : Bytes) (s : State) : State :=
  let k := adminKey f
  match qpOf s k with
  | none => s
  | some q =>
    if q.frozen.isSome then restartQueue k (cfg.getLsbD 29) entries (putAdmin { adminOf s f with mode := cfg.getLsbD 29 } s)
    else s

def execAdminQueueRestart (f : FnId) (cfg : Word32) (entries : Bytes) (s : State) : Res :=
  run (.adminQueueRestart f cfg entries) (bar2Write f (adminRestart f cfg entries)) s

/-! ### Doorbells (R87, R88) -/

/-- SQ_TAIL_DOORBELL (R87, R113): bits 31 to 16 are reserved. -/
def sqTail (k : QKey) (value : Word32) (s : State) : State :=
  match qpOf s k with
  | none => s
  | some q =>
    let v := value.toNat % 65536
    let t := doorbellWake s
    if sqSize q ≤ v then freezeQueue k 3 0xFFFF [] t else modQp k (fun x => { x with tail := v }) t

def execSqTailDoorbell (q : QKey) (value : Word32) (s : State) : Res :=
  run (.sqTailDoorbell q value) (bar2Write q.f (sqTail q value)) s

/-- Does a CQ head lie between the head and the last posted entry? -/
def cqHeadOk (q : Qp) (v : Nat) : Bool :=
  decide (v < cqSize q)
    && decide ((v + cqSize q - q.cqHead) % cqSize q ≤ (q.cqTail + cqSize q - q.cqHead) % cqSize q)

/-- CQ_HEAD_DOORBELL (R88): freed slots take the completions that wait. -/
def cqHead (k : QKey) (value : Word32) (s : State) : State :=
  match qpOf s k with
  | none => s
  | some q =>
    let v := value.toNat % 65536
    let t := doorbellWake s
    if cqHeadOk q v then postWaiting k q.waiting.length (modQp k (fun x => { x with cqHead := v }) t)
    else freezeQueue k 4 0xFFFF [] t

def execCqHeadDoorbell (q : QKey) (value : Word32) (s : State) : Res :=
  run (.cqHeadDoorbell q value) (bar2Write q.f (cqHead q value)) s

/-- CQ_INTERRUPT_TIMER (R89): TIME µs have passed since the first entry not yet signalled. -/
def cqTimer (k : QKey) (s : State) : State :=
  match qpOf s k with
  | none => s
  | some q => if q.admin || q.unsig = 0 then s else signal k.f q.vec (modQp k (fun x => { x with unsig := 0 }) s)

def execCqInterruptTimer (q : QKey) (s : State) : Res := run (.cqInterruptTimer q) (cqTimer q) s

/-! ### Fetches that fail (R72, R110) -/

/-- The entry at FETCH freezes the queue and is not executed; FETCH stands after it. -/
def freezeAtFetch (k : QKey) (cause : Nat) (head : Bytes) (s : State) : State :=
  match qpOf s k with
  | none => s
  | some q =>
    if fetchable s q then
      freezeQueue k cause q.fetch head (modQp k (fun x => { x with fetch := (x.fetch + 1) % sqSize x }) s)
    else s

/-- FETCH_UR_CA_COMPLETION (R110, cause 6): the fetch of an entry, which is then unreadable, or of a command's list. -/
def execFetchUrCaCompletion (q : QKey) (isList : Bool) (head : Bytes) (s : State) : Res :=
  run (.fetchUrCaCompletion q isList head) (freezeAtFetch q 6 (if isList then head else [])) s

/-- Has every admitted command of a queue pair settled? -/
def qpSettled (s : State) (k : QKey) : Bool := sqIdle s k

/-- DELETE_QP_SETTLED (R92): the index and the queue pair ID are free again, and DELETE QP completes. -/
def deleteQpSettledEffect (k : QKey) (s : State) : State :=
  match qpOf s k with
  | none => s
  | some q =>
    match q.deleting with
    | some id => if qpSettled s k then finishCmd id 0 0 0 (dropQps (fun x => x.key == k) s) else s
    | none => s

def execDeleteQpSettled (q : QKey) (s : State) : Res := run (.deleteQpSettled q) (deleteQpSettledEffect q) s

end Sys2Proof.Machine
end

