-- ==== Sys2Proof/Machine/Keys.lean ====
section
/-! DEFINITION. Key slots and what the key commands do (R165 to R174), with the persisted copies of R169 and the copies at the
peer of R336. -/

namespace Sys2Proof.Machine

/-! ### Slots -/

def typeData : BitVec 3 := 2
def typeWrap : BitVec 3 := 3
def typeCmac : BitVec 3 := 4

def escrowSlot : Nat := 0x1FFE
def swkSlot : Nat := 0x1FFF
def unencrypted : Nat := 0x1FFF

/-- Bytes of key material of a type (R166). -/
def materialLen (t : BitVec 3) : Nat := if t = typeDomain then 128 else if t = typeData then 64 else 32

/-- Length of a wrapped blob (R170). -/
def blobLen (t : BitVec 3) : Nat := materialLen t + 8

def keyAt (m : Bytes) (i : Nat) : Bytes := bytesAt m (32 * i) 32

/-- The identifier of a key (R167). -/
def keyId (k : Bytes) : Word64 := BitVec.ofNat 64 (numAt (aesEnc k (zeros 16)) 0 8)

/-- The slots that the types may use (R165). -/
def slotInRange (t : BitVec 3) (n : Nat) : Bool :=
  if t = typeDomain then decide (n < 0x1000)
  else if t = 0 ∨ 5 < t.toNat then false
  else decide (0x1000 ≤ n) && decide (n < 0x1FF0)

/-- A filled slot with its identifiers; a domain has no data key before R185 draws it. -/
def filledSlot (t : BitVec 3) (owner : Nat) (exportable : Bool) (m : Bytes) (hasData : Bool) : Slot :=
  { type := t, state := .active, owner := owner, exportable := exportable, material := m, idA := keyId (keyAt m 0),
    idSeal := if t = typeDomain then keyId (keyAt m 1) else 0,
    idData := if t = typeDomain && hasData then keyId (keyAt m 2) else 0 }

/-- Namespaces that store under a slot. -/
def attachedTo (s : State) (n : Nat) : List Ns :=
  s.hqe.nss.filter fun x => match x.keySlot with
    | some k => k == n
    | none => false

/-- The descriptor that KEY INFO returns (R170). -/
def descriptor (s : State) (n : Nat) : Bytes :=
  let k := slotOf s n
  let st := match k.state with
    | .empty => 0
    | .active => 1
    | .lost => 2
  let sealed := (s.hqe.domains.any fun d => d.id == n && d.sealFixed && d.seals) && decide (k.type = typeDomain)
  leBytes 2 n ++ [k.type.setWidth 8, st] ++ leBytes 2 k.owner
    ++ [BitVec.ofNat 8 (flag k.exportable 0 + flag sealed 1), 0] ++ leBytes 8 k.idA.toNat ++ leBytes 8 k.idSeal.toNat
    ++ leBytes 8 k.idData.toNat ++ leBytes 4 (attachedTo s n).length ++ zeros 28

/-! ### Persistence and the peer's copies (R169, R336) -/

/-- The key area entry of a slot; with no SWK its blob cannot be made, and the entry holds the descriptor alone. -/
def keyEntry (s : State) (swk : Option Bytes) (n : Nat) : Bytes :=
  let k := slotOf s n
  let blob := match swk with
    | some w => kwpWrap w k.material
    | none => []
  withCrc (descriptor s n ++ leBytes 2 (blobLen k.type) ++ [0, 0] ++ padTo 136 blob ++ zeros 48)

/-- A change of a slot is stored in its key area entry, or its entry deleted; device slots persist too (R423). -/
def persistSlot (n : Nat) (s : State) : State :=
  if n = swkSlot then s
  else
    match (slotOf s n).state with
    | .active => { s with sec := { s.sec with persisted := tabPut [] n (keyEntry s s.wch.swk n) s.sec.persisted } }
    | .empty => { s with sec := { s.sec with persisted := tabPut [] n [] s.sec.persisted } }
    | .lost => s

def setSlot (n : Nat) (k : Slot) (s : State) : State := { s with sec := { s.sec with slots := tabPut {} n k s.sec.slots } }

/-- Key material on the peer link: wrapped under the pair key, since no domain key leaves the chip in clear (R128). -/
def syncMaterial (s : State) (k : Slot) : Bytes :=
  if k.material.isEmpty then [] else kwpWrap (keyAt (slotOf s 0x1FF0).material 0) k.material

/-- SYNC of a slot to the peer in role ACTIVE, while the vault can tag it (R333, R336). -/
def syncSlot (n : Nat) (s : State) : State :=
  if s.peer.role = .active && !s.sec.vault.out && decide (n < 0x1FF0) then
    let k := slotOf s n
    toPeer 0x18 [0, n, k.type.toNat, k.owner, if k.exportable then 1 else 0] (syncMaterial s k) s
  else s

/-- Fill or empty a slot, with its persistent copy and the peer's. -/
def writeSlot (n : Nat) (k : Slot) (s : State) : State := syncSlot n (persistSlot n (setSlot n k s))

def eraseSlot (n : Nat) (s : State) : State := writeSlot n {} s

/-! ### Conditions of the key commands -/

/-- The tenant's dedup domain. -/
def domainOf (s : State) (t : Nat) : Nat :=
  match tenantOf s t with
  | some x => x.domain
  | none => 0

/-- Does a domain hold a namespace or a stored chunk? -/
def domainUsed (s : State) (d : Nat) : Bool :=
  (s.hqe.nss.any fun n => domainOf s n.tenant == d)
    || s.med.chunks.any fun c => c.domain == d && decide (0 < c.refs)

/-- An ACTIVE WRAP slot of a tenant that meets a test, or the slot of the escrow key. -/
def wrapSlotOk (s : State) (w : Nat) (p : Nat → Bool) : Bool :=
  let k := slotOf s w
  w == escrowSlot || (k.state == .active && k.type == typeWrap && p k.owner)

/-- Does a namespace hold a written block or a snapshot? A deallocated block is not written. -/
def nsWritten (s : State) (n : Nat) : Bool :=
  (s.ing.staging.any fun e => e.nsid == n && e.st != .filling && !e.dealloc)
    || (s.med.maps.any fun m => m.nsid == n && m.chunkA != 0) || s.snp.snaps.any fun x => x.nsid == n

/-- The outcome of a command that the administrative queue handles at once: status, RESULT, and the state. -/
abbrev AdminDone := Word16 × Nat × State

def refuse (detail : Nat) (s : State) : AdminDone := (0x1002, detail, s)

/-- KEY IMPORT (R171, R172, R168). The blob of a domain that has no data key yet holds zeros in its place. -/
def keyImportCmd (c : HostCmd) (s : State) : AdminDone :=
  let n := bitsOf c.d7 12 0
  let t : BitVec 3 := BitVec.ofNat 3 (bitsOf c.d7 18 16)
  let owner := c.d3C
  let cur := slotOf s n
  let blob := padTo (blobLen t) c.buf
  if !slotInRange t n then refuse 1 s
  else if cur.state == .active && t != typeDomain then refuse 2 s
  else if !wrapSlotOk s c.d30 (fun o => o == owner) then refuse 3 s
  else if (slotOf s c.d30).state != .active then (0x7011, 0, s)
  else if c.d38 != blobLen t then refuse 5 s
  else
    let wk := (slotOf s c.d30).material
    match (if bitOf c.d7 24 then kwpUnwrap wk blob else kwUnwrap wk blob) with
    | none => refuse 4 s
    | some m =>
      if m.length != materialLen t then refuse 4 s
      else if (tenantOf s owner).isNone || (t == typeDomain && domainOf s owner != n)
          || (t != typeDomain && cur.state == .lost && cur.owner != owner) then refuse 7 s
      else
        let hasData := (m.drop 64).any (· != 0)
        let k := filledSlot t (if t = typeDomain then n else owner) (bitOf c.d7 25) m hasData
        if k.idA = 0 || (t == typeDomain && (k.idSeal = 0 || (hasData && k.idData = 0))) then refuse 8 s
        else if cur.state == .lost then
          (if cur.type != t || cur.idA != k.idA || cur.idSeal != k.idSeal || cur.idData != k.idData
            then refuse 9 s
            else (0, k.idA.toNat % 2 ^ 32, writeSlot n { k with exportable := cur.exportable, owner := cur.owner } s))
        else if t == typeDomain && domainUsed s n then (0x1009, 0, s)
        else (0, k.idA.toNat % 2 ^ 32, writeSlot n k s)

/-- The number of generate requests between two reseeds (R196). -/
def reseedLimit : Nat := 1048576

/-- `n` generate requests are served: collection for the next reseed starts 1,024 requests before the limit. -/
def drbgUse (n : Nat) (s : State) : State :=
  let r := s.sec.rng
  { s with sec := { s.sec with rng := { r with
    requests := r.requests + n, reseeding := r.reseeding || decide (reseedLimit - 1024 ≤ r.requests + n) } } }

/-- KEY GENERATE: a drawn key whose identifier would be 0 is drawn again (R167). -/
def drawKey : Nat → State → State
  | 0, s => s
  | n + 1, s => if keyId (freeBytes 32 s) = 0 then drawKey n (drbgUse 1 (tick s)) else s

def keyGenerateCmd (c : HostCmd) (s : State) : AdminDone :=
  let n := bitsOf c.d7 12 0
  let t : BitVec 3 := BitVec.ofNat 3 (bitsOf c.d7 18 16)
  if t = typeDomain || !slotInRange t n then refuse 1 s
  else if (slotOf s n).state = .active then refuse 2 s
  else if (tenantOf s c.d3C).isNone then refuse 7 s
  else if (slotOf s n).state = .lost then refuse 9 s
  else if s.sec.rng.st != .seeded then (0x7002, 0, s)
  else
    let u := drawKey 64 s
    let m := if t = typeData then freeBytes 32 u ++ freeBytes 32 (tick u) else freeBytes 32 u
    let k := filledSlot t c.d3C (bitOf c.d7 25) m false
    (0, k.idA.toNat % 2 ^ 32, writeSlot n k (drbgUse (if t = typeData then 2 else 1) (tick (tick u))))

/-- KEY EXPORT (R173). -/
def keyExportCmd (c : HostCmd) (s : State) : AdminDone :=
  let n := bitsOf c.d7 12 0
  let k := slotOf s n
  if 0x1FF0 ≤ n then refuse 6 s
  else if k.state != .active then (0x7011, 0, s)
  else if k.type != typeDomain && !k.exportable then refuse 6 s
  else if !wrapSlotOk s c.d30 (fun o => if k.type = typeDomain then domainOf s o == n else o == k.owner) then
    refuse (if k.type = typeDomain then 6 else 3) s
  else if (slotOf s c.d30).state != .active then (0x7011, 0, s)
  else if c.d38 < blobLen k.type then refuse 5 s
  else
    let wk := (slotOf s c.d30).material
    let m := if k.type = typeDomain then padTo 128 k.material else k.material
    let blob := if bitOf c.d7 24 then kwpWrap wk m else kwWrap wk m
    (0, blobLen k.type, toHost c.q c.dptr0.toNat blob s)

/-- KEY ERASE (R174). -/
def keyEraseCmd (c : HostCmd) (s : State) : AdminDone :=
  let n := c.d7
  if n < 0x1000 || 0x1FF0 ≤ n then refuse 1 s
  else if !(attachedTo s n).isEmpty || (s.med.chunks.any fun x => x.keyInfo == n && decide (0 < x.refs)) then (0x1009, 0, s)
  else (0, 0, eraseSlot n s)

def keyInfoCmd (c : HostCmd) (s : State) : AdminDone := (0, 0, toHost c.q c.dptr0.toNat (descriptor s c.d7) s)

/-- KEY ATTACH (R174). -/
def keyAttachCmd (c : HostCmd) (s : State) : AdminDone :=
  let k := slotOf s c.d7
  match s.hqe.nss.find? fun n => n.id == c.ns with
  | none => refuse 7 s
  | some x =>
    if !slotInRange typeData c.d7 || (k.state != .empty && k.type != typeData) || !bitOf x.mode.toNat 5 then refuse 1 s
    else if k.state != .active then (0x7011, 0, s)
    else if k.owner != x.tenant then refuse 7 s
    else if nsWritten s x.id then (0x1009, 0, s)
    else (0, 0, { s with hqe := { s.hqe with
      nss := modFirst (fun n => n.id == x.id) (fun n => { n with keySlot := some c.d7 }) s.hqe.nss } })

/-- KEY CMAC (R170). -/
def keyCmacCmd (c : HostCmd) (s : State) : AdminDone :=
  let n := bitsOf c.d7 12 0
  let k := slotOf s n
  if !slotInRange typeCmac n || (k.state != .empty && k.type != typeCmac) then refuse 1 s
  else if k.state != .active then (0x7011, 0, s)
  else
    let tag := cmac k.material (padTo c.d38 c.buf)
    if bitOf c.d7 31 then (0, if tag = padTo 16 c.buf2 then 1 else 0, s) else (0, 0, toHost c.q c.q30 tag s)

/-! ### The rows -/

/-- Do requests for random numbers wait: while UNSEEDED (R197), and at the limit until a reseed has taken effect (R196)? -/
def randomWaits (s : State) : Bool :=
  s.sec.rng.st == .unseeded || (s.sec.rng.st == .seeded && decide (reseedLimit ≤ s.sec.rng.requests))

/-- A command that waits for random numbers. -/
def waitsForRandom (s : State) (c : HostCmd) : Bool := randomWaits s && (c.op == 0x10 || c.op == 0x14 || c.op == 0x21)

/-- An administrative command that is done at once. -/
def adminNow (f : HostCmd → State → AdminDone) (c : HostCmd) (q : Qp) (s : State) : State :=
  let d := f c s
  answerCmd ⟨c, q.tenant, .host⟩ d.1 d.2.1 d.2.2

end Sys2Proof.Machine
end

