-- ==== Sys2Proof/Machine/HqeAdmin.lean ====
section
/-! DEFINITION. The administrative commands on queue pairs, logs, power, pace, profiles, tenants, functions and namespaces
(R81 to R92, R102, R111 to R114, R127, R184, R185, R362, R428, R429, R459, R460). -/

namespace Sys2Proof.Machine

/-! ### Queue pairs -/

def indexLimit (f : FnId) : Nat := if isPf f then 16384 else 1024

/-- CREATE QP (R84, R86, R81): the index first, then the number of queue pairs (DESIGN CHOICE). -/
def createQpCmd (c : HostCmd) (s : State) : AdminDone :=
  let i := bitsOf c.d7 15 0
  let k : QKey := ⟨c.q.f, BitVec.ofNat 16 i⟩
  let t := if isPf c.q.f then some (c.d3C % 4096) else fnTenant s c.q.f
  if i = 0 || indexLimit c.q.f ≤ i || (qpOf s k).isSome then (0x1007, 0, s)
  else if isPf c.q.f && (tenantOf s (c.d3C % 4096)).isNone then (0x1002, 0, s)
  else
    match freeQpId s with
    | none => (0x5003, 0, s)
    | some id =>
      let l := bitsOf c.d7 27 24
      let q := newQp k id false t c.dptr0 (BitVec.ofNat 64 c.q30) l l (bitsOf c.d38 10 0) (bitsOf c.d38 23 16) (bitsOf c.d38 31 24)
      let u := tick s
      (0, id, { u with hqe := { u.hqe with qps := u.hqe.qps ++ [q] } })

/-- DELETE QP: fetching stops; the command ends with DELETE_QP_SETTLED. -/
def deleteQpStart (c : HostCmd) (q : Qp) (s : State) : State :=
  let w : Waiter := ⟨c, q.tenant, .host⟩
  let k : QKey := ⟨c.q.f, BitVec.ofNat 16 c.d7⟩
  match qpOf s k with
  | none => answerCmd w 0x1007 0 s
  | some t =>
    if t.deleting.isSome || indexLimit c.q.f ≤ c.d7 then answerCmd w 0x1007 0 s
    else
      let d := newCmd w (.deleteQp k) s
      modQp k (fun x => { x with deleting := some d.id }) (addCmd d s)

/-- RESTART QP (R111): 0x1009 while the port is frozen; a queue that is not frozen stays as it is (DESIGN CHOICE). The
buffer of the command stands for the entries in host memory from FETCH on. -/
def restartQpCmd (c : HostCmd) (s : State) : AdminDone :=
  let k : QKey := ⟨c.q.f, BitVec.ofNat 16 (bitsOf c.d7 15 0)⟩
  match qpOf s k with
  | none => (0x1007, 0, s)
  | some q =>
    if (portOf s c.q.f.port).frozen then (0x1009, 0, s)
    else
      let t := if q.frozen.isSome then restartQueue k (bitOf c.d7 31) c.buf s else s
      (0, (match qpOf t k with
        | some x => x.fetch
        | none => 0), t)

/-! ### IDENTIFY and GET LOG -/

def fwVersion (s : State) : Nat := s.pair.ownFw.toNat

/-- IDENTIFY page 0. -/
def devicePage (s : State) (f : FnId) : Bytes :=
  leBytes 4 (partIdWord s) ++ leBytes 4 (fwVersion s) ++ leBytes 2 s.hqe.tenants.length ++ [0, 0]
    ++ leBytes 4 (stagingLimit s) ++ leBytes 4 (if isPf f then sumG s else 0)
    ++ [BitVec.ofNat 8 (roleCode s.peer.role), s.mch.address.setWidth 8] ++ leBytes 2 (indexLimit f)
    ++ leBytes 4 s.hqe.qps.length

def domainRec (s : State) (d : Nat) : Option Domain := s.hqe.domains.find? fun x => x.id == d

/-- IDENTIFY page 1 (R460). -/
def tenantPage (s : State) (t : Option Nat) : Bytes :=
  match t.bind fun n => tenantOf s n with
  | none => leBytes 2 0xFFFF
  | some x =>
    let d := domainRec s x.domain
    let fixed := d.any (·.sealFixed)
    leBytes 2 x.id ++ leBytes 2 x.domain
      ++ [BitVec.ofNat 8 (flag x.relay 0 + flag x.shared 1 + flag fixed 2 + flag (fixed && d.any (·.seals)) 3), 0, 0, 0]
      ++ leBytes 4 x.g ++ leBytes 4 x.c ++ leBytes 2 (s.hqe.nss.filter fun n => n.tenant == x.id).length
      ++ leBytes 2 (s.hqe.qps.filter fun q => q.tenant == some x.id).length
      ++ leBytes 2 (s.hqe.fnTenant.filter fun p => p.2 == x.id).length

def identifyCmd (c : HostCmd) (q : Qp) (s : State) : AdminDone :=
  let p := if c.d7 = 0 then devicePage s c.q.f else tenantPage s q.tenant
  (0, 0, toHost c.q c.dptr0.toNat (padTo 4096 p) s)

/-- One record of the queue error log. -/
def qErrBytes (r : QErr) : Bytes :=
  leBytes 8 r.seq ++ leBytes 2 r.qpId ++ leBytes 2 r.idx ++ [BitVec.ofNat 8 r.cause, 0] ++ leBytes 2 r.sqIdx
    ++ leBytes 4 r.seconds ++ leBytes 4 r.cycles ++ zeros 8 ++ padTo 32 r.head

/-- GET LOG 2 (R460, R104). -/
def creditPage (s : State) (x : Tenant) (pool : Bool) : Bytes :=
  leBytes 2 x.id ++ [0, 0] ++ leBytes 4 x.g ++ leBytes 4 x.c ++ leBytes 4 (capInForce s x) ++ leBytes 4 x.gHeld
    ++ leBytes 4 x.pHeld
    ++ leBytes 4 (s.hqe.cmds.filter fun c => c.tenant == some x.id && c.op == 0x81 && c.stage == .waitCredit).length
    ++ leBytes 4 x.n5001
    ++ (if pool then leBytes 4 (stagingLimit s) ++ leBytes 4 (sumG s) ++ leBytes 4 (poolSize s) ++ leBytes 4 (poolHeld s) else [])

def getLogCmd (c : HostCmd) (q : Qp) (s : State) : AdminDone :=
  if c.d7 = 1 then
    let b := (s.hqe.errLog.filter fun r => r.f == c.q.f).flatMap qErrBytes
    (0, 4096, toHost c.q c.dptr0.toNat (padTo 4096 b) s)
  else
    let pool := q.admin && isPf c.q.f
    match (if pool then some (c.d3C % 4096) else q.tenant).bind fun n => tenantOf s n with
    | none => if pool then (0x2001, 0, s) else (0, 4096, toHost c.q c.dptr0.toNat (zeros 4096) s)
    | some x => (0, 4096, toHost c.q c.dptr0.toNat (padTo 4096 (creditPage s x pool)) s)

/-! ### Power, pace, profile, reset (R112 to R114, R430, R431) -/

/-- A rebuild or a reshape is under way. -/
def rebuilding (s : State) : Bool := s.par.jobs.any fun j => j.kind == .rebuild || j.kind == .reshape

/-- SET POWER: target 2 or 3 waits for every admitted command; a second one while one waits is refused (DESIGN CHOICE). -/
def setPowerStart (c : HostCmd) (q : Qp) (s : State) : State :=
  let w : Waiter := ⟨c, q.tenant, .host⟩
  if c.d7 = 0 then
    let t := wake s
    answerCmd w 0 (pstateCode t) t
  else if s.peer.role = .sole || rebuilding s || s.clk.newPower.isSome then answerCmd w 0x7003 0 s
  else
    let d := newCmd w .power s
    addCmd d { s with clk := { s.clk with newPower := some (Fin.ofNat 4 c.d7, d.id) } }

/-- POWER_STATE_REACHED (R112, R113, R392): the chip enters P2 or P3; a doorbell that came meanwhile wakes it. -/
def powerReached (s : State) : State :=
  match s.clk.newPower with
  | none => s
  | some (p, id) =>
    if enteringSleep s then
      let t := onlyIf (p == 3) enterSelfRefresh { s with clk := { s.clk with pstate := p, newPower := none } }
      let u := finishCmd id 0 0 p.val (noteClk s t)
      if s.clk.wakeAfter then wake u else u
    else s

def execPowerStateReached (s : State) : Res := run .powerStateReached powerReached s

def paceOf (n : Nat) : Pace := if n = 0 then .thrift else if n = 1 then .even else .sprint

/-- The flush parameters of a pace (R430). -/
def pacedFlush (p : Pace) (g : Ing) : Ing :=
  match p with
  | .thrift => { g with lowPct := 60, highPct := 85, maxAgeMs := 200, idleUs := 250 }
  | .even => { g with lowPct := 50, highPct := 75, maxAgeMs := 50, idleUs := 200 }
  | .sprint => { g with lowPct := 30, highPct := 60, maxAgeMs := 20, idleUs := 50 }

def setPaceStart (c : HostCmd) (q : Qp) (s : State) : State :=
  let d := newCmd ⟨c, q.tenant, .host⟩ .pace s
  addCmd d { s with clk := { s.clk with changing := true, newPace := some (paceOf c.d7, d.id) } }

/-- A pace comes into force with its flush parameters. -/
def applyPace (p : Pace) (s : State) : State :=
  noteClk s (noteOccupancy { s with clk := { s.clk with pace := p, changing := false, newPace := none }, ing := pacedFlush p s.ing })

/-- PACE_IN_FORCE (R431, R438): the setting is in force, and every SET PACE that asked up to now completes. -/
def paceInForceEffect (s : State) : State :=
  match s.clk.newPace with
  | none => s
  | some (p, _) =>
    forEach ((s.hqe.cmds.filter fun c => c.stage == .pace).map (·.id)) (fun id t => finishCmd id 0 0 0 t) (applyPace p s)

def execPaceInForce (s : State) : Res := run .paceInForce paceInForceEffect s

/-- SELECT PROFILE (R53, R114). -/
def selectOverride (sel : Nat) (clear : Bool) (s : State) : State :=
  { s with glb := { s.glb with ovrValid := !clear, ovrSel := if clear then 0 else BitVec.ofNat 2 sel } }

def selectProfileCmd (c : HostCmd) (s : State) : AdminDone :=
  (0, 0, selectOverride (bitsOf c.d7 1 0) (bitOf c.d7 31) s)

/-- CHIP RESET: the reset begins 1 ms after the completion (CHIP_COMMAND_RESET). -/
def chipResetCmd (_ : HostCmd) (s : State) : AdminDone := (0, 0, { s with glb := { s.glb with resetPending := true } })

/-! ### Tenants (R83, R102, R127, R362) -/

/-- The other chips of the federation that are not ISOLATED. -/
def fedChips (s : State) : List Nat :=
  if s.rdm.fedState.val != 1 then []
  else ((s.mch.table.map (·.1)).filter fun a => a != s.mch.address.toNat && (pathOf s a).state != 2)

/-- A tenant message to every chip of the federation. -/
def sendTenant (args : List Nat) (s : State) : State :=
  forEach (fedChips s) (fun a t => emit (.ether 0 4 a args []) t) s

/-- What the other chips of the federation answer to a tenant message: 0 done, or one of two refusals (an open choice; their
state is not this chip's). -/
def fedAnswer (s : State) : Nat := if (fedChips s).isEmpty then 0 else freePick 3 s

/-- SYNC of a tenant context to the peer (R336). -/
def syncTenant (x : Tenant) (delete : Bool) (s : State) : State :=
  if s.peer.role = .active && !s.sec.vault.out then
    toPeer 0x18 [if delete then 3 else 2, x.id, x.g, x.c, x.domain, if x.relay then 1 else 0, if x.shared then 1 else 0] [] s
  else s

/-- A new tenant joins its domain; a new domain draws K_fp and K_seal. -/
def addTenant (x : Tenant) (newDomain : Bool) (s : State) : State :=
  let t := { s with hqe := { s.hqe with tenants := s.hqe.tenants ++ [x] } }
  if newDomain then
    let m := freeBytes 32 t ++ freeBytes 32 (tick t) ++ zeros 64
    writeSlot x.id (filledSlot typeDomain x.id true m false)
      (drbgUse 2 <| tick (tick { t with hqe := { t.hqe with domains := t.hqe.domains ++ [{ id := x.id }] } }))
  else t

/-- Tenant IDs that may not be issued: those in use, and the domains not yet freed. -/
def usedTenantIds (s : State) : List Nat := s.hqe.tenants.map (·.id) ++ s.hqe.domains.map (·.id)

def createTenantCmd (c : HostCmd) (s : State) : AdminDone :=
  let relay := bitOf c.d34 0
  let shared := bitOf c.d34 1
  let partner := tenantOf s (c.d38 % 4096)
  if (shared && relay) || (shared && partner.isNone) then (0x1002, 0, s)
  else if 4096 ≤ s.hqe.tenants.length then (0x2002, 0, s)
  else if stagingLimit s < 2 * (sumG s + c.d7) then (0x5004, 0, s)
  else if relay && (fedChips s).any (fun a => (pathOf s a).state != 1) then (0x6003, 0, s)
  else if relay && fedAnswer s = 1 then (0x2002, 0, tick s)
  else if relay && fedAnswer s = 2 then (0x5004, 0, tick s)
  else if !shared && s.sec.rng.st != .seeded then (0x7002, 0, s)
  else
    match pickId (usedTenantIds s) 4096 s with
    | none => (0x2002, 0, s)
    | some id =>
      let d := match partner with
        | some p => if shared then p.domain else id
        | none => id
      let x : Tenant := { id := id, g := c.d7, c := c.d30, relay := relay, shared := shared, domain := d }
      let t := addTenant x (!shared) (tick s)
      let t := if relay then sendTenant [0, id, c.d7, c.d30] t else t
      (0, id, syncTenant x false t)

/-- A tenant context goes; its pinned entries are released, and the last tenant of a domain frees it. -/
def removeTenant (x : Tenant) (s : State) : State :=
  let l := modAll (fun e => e.tenant == x.id) (fun e => { e with pinned := false }) s.hqe.settle
  let t := { s with hqe := { s.hqe with tenants := s.hqe.tenants.filter (fun y => y.id != x.id), settle := l } }
  if t.hqe.tenants.any fun y => y.domain == x.domain then t
  else eraseSlot x.domain { t with hqe := { t.hqe with domains := t.hqe.domains.filter fun d => d.id != x.domain } }

def tenantInUse (s : State) (id : Nat) : Bool :=
  (s.hqe.qps.any fun q => q.tenant == some id) || (s.hqe.nss.any fun n => n.tenant == id)
    || s.hqe.fnTenant.any fun p => p.2 == id

def deleteTenantCmd (c : HostCmd) (s : State) : AdminDone :=
  match tenantOf s c.d3C with
  | none => (0x1002, 0, s)
  | some x =>
    if tenantInUse s x.id then (0x1009, 0, s)
    else if x.relay && fedAnswer s != 0 then (0x1009, 0, tick s)
    else
      let t := removeTenant x (if x.relay then tick s else s)
      (0, 0, syncTenant x true (if x.relay then sendTenant [1, x.id] t else t))

/-- ASSIGN FUNCTION: a VF with queue pairs keeps its tenant (R81). -/
def assignFunctionCmd (c : HostCmd) (s : State) : AdminDone :=
  let f : FnId := ⟨c.q.f.port, BitVec.ofNat 8 (bitsOf c.d7 7 0)⟩
  let id := bitsOf c.d7 27 16
  let rest := s.hqe.fnTenant.filter fun p => !(p.1 == f)
  if !bitOf c.d7 31 && (tenantOf s id).isNone then (0x1002, 0, s)
  else if s.hqe.qps.any fun q => q.key.f == f && q.tenant.isSome then (0x1009, 0, s)
  else
    let l := if bitOf c.d7 31 then rest else rest ++ [(f, id)]
    let qs := modAll (fun q => q.key.f == f) (fun q => { q with tenant := if bitOf c.d7 31 then none else some id }) s.hqe.qps
    (0, 0, { s with hqe := { s.hqe with fnTenant := l, qps := qs } })

/-! ### Namespaces (R184, R185, R428, R459) -/

/-- K_data1 and K_data2 of a domain, drawn once. -/
def drawDataKey (d : Nat) (s : State) : State :=
  let k := slotOf s d
  let m := bytesAt k.material 0 64 ++ freeBytes 32 s ++ freeBytes 32 (tick s)
  writeSlot d (filledSlot typeDomain k.owner k.exportable m true) (drbgUse 2 (tick (tick s)))

/-- Namespace IDs that may not be issued: those in use, and those whose snapshots are still being walked (R317). -/
def usedNsids (s : State) : List Nat := s.hqe.nss.map (·.id) ++ s.snp.snaps.map (·.nsid)

def createNamespaceCmd (c : HostCmd) (s : State) : AdminDone :=
  let seal_ := bitOf c.d7 6
  let enc := bitOf c.d7 5
  match tenantOf s c.d3C with
  | none => (0x1002, 0, s)
  | some x =>
    let d := x.domain
    if domainUsed s d && (domainRec s d).any (fun r => r.sealFixed && r.seals != seal_) then (0x1002, 0, s)
    else if enc && (slotOf s d).idData = 0 && (slotOf s d).state != .active then (0x7011, 0, s)
    else if enc && (slotOf s d).idData = 0 && s.sec.rng.st != .seeded then (0x7002, 0, s)
    else
      match pickId (usedNsids s) 16384 s with
      | none => (0x4003, 0, s)
      | some id =>
        let n : Ns :=
          { id := id, tenant := x.id, size := c.start, mode := c.cdw7, owner := s.glb.headId,
            keySlot := if enc then some d else none }
        let t := tick s
        let t := if enc && (slotOf t d).idData = 0 then drawDataKey d t else t
        let ds := modFirst (fun r : Domain => r.id == d) (fun r => { r with sealFixed := true, seals := seal_ }) t.hqe.domains
        (0, id, { t with hqe := { t.hqe with nss := t.hqe.nss ++ [n], domains := ds } })

/-- A dead chunk's container entries are marked, so that they never match again (R139). -/
def markDead (no : Nat) (k : Container) : Container :=
  { k with entries := modAll (fun e : CEntry => e.chunk == no) (fun e => { e with dead := true }) k.entries }

/-- One reference fewer on a chunk; at 0 it is dead (R139). The count of a chunk of the peer's table changes there, by REF (R345). -/
def dropRef (no : Nat) (s : State) : State :=
  if no = 0 then s
  else if foreignChunk s no then toPeer 0x16 [no, 1, 1] [] s
  else
    let l := modFirst (fun c : ChunkEnt => c.no == no)
      (fun c => { c with refs := c.refs - 1, st := if c.refs ≤ 1 then .dead else c.st }) s.med.chunks
    let dead := l.any fun c => c.no == no && c.st == .dead
    let cs := if dead then s.ing.containers.map (markDead no) else s.ing.containers
    dirtyChunk no { s with med := { s.med with chunks := l }, ing := { s.ing with containers := cs } }

/-- The references that a list of map entries holds are dropped. -/
def dropEntries (l : List MapEntry) (s : State) : State := forEach l (fun m t => dropRef m.chunkB (dropRef m.chunkA t)) s

/-- The stored object of a page of a namespace's live tree (R310). -/
def pageObjOf (s : State) (n page : Nat) : Option Nat :=
  (s.med.pages.find? fun p => p.nsid == n && p.page == page && p.level == 0).map (·.obj)

/-- Does a snapshot of the namespace, other than number `q`, name the object? -/
def snapNames (s : State) (n q obj : Nat) : Bool :=
  s.snp.snaps.any fun x => x.nsid == n && x.seq != q && x.pages.any fun p => p.2 == obj

/-- Is a page of the live tree one that a snapshot also names? -/
def pageShared (s : State) (n page : Nat) : Bool :=
  match pageObjOf s n page with
  | some o => snapNames s n 0 o
  | none => false

/-- The live tree of a namespace is let go, with the references of each page that no snapshot also names (R317). -/
def dropMaps (n : Nat) (s : State) : State :=
  let mine := s.med.maps.filter fun m => m.nsid == n && !pageShared s n (pageOf m.lba)
  let t := dropEntries mine s
  { t with
    med := { t.med with
      maps := t.med.maps.filter (fun m => m.nsid != n), pages := t.med.pages.filter (fun p => p.nsid != n && p.nsid != objKey 14 n),
      cached := t.med.cached.filter (fun p => p.1 != n), dirty := t.med.dirty.filter (fun p => p.1 != n),
      writeBack := t.med.writeBack.filter (fun p => p.1 != n), journal := t.med.journal.filter (fun m => m.nsid != n),
      oldJournal := t.med.oldJournal.filter fun m => m.nsid != n },
    til := { t.til with ckptPages := t.til.ckptPages.filter (fun p => p.nsid != n), newPages := t.til.newPages.filter fun p => p.nsid != n } }

/-- R459: the STAGED entries go to FREE, and the runs of the FLUSHING ones publish nothing. A survivor discards its mirror entries of the
namespace in the same way: at once, or when the run that flushes them ends. -/
def discardStaging (n : Nat) (s : State) : State :=
  let t := forEach (s.ing.staging.filter fun e => e.nsid == n && e.st == .staged) releaseEntry s
  let inRun := fun m : MirEntry =>
    t.ing.runs.any fun r => r.fromMirror && r.nsid == n && decide (r.lba ≤ m.lba) && decide (m.lba < r.lba + r.n)
  let t := if t.peer.role = .sole then { t with ing := { t.ing with mirror := t.ing.mirror.filter fun m => m.nsid != n || inRun m } } else t
  { t with ing := { t.ing with runs := modAll (fun r => r.nsid == n) (fun r => { r with drop := true }) t.ing.runs } }

/-- Does an admitted command to the namespace run, other than the deletion itself? -/
def nsBusy (s : State) (n id : Nat) : Bool := s.hqe.cmds.any fun c => c.id != id && c.nsid == n && decide (128 ≤ c.op.toNat)

/-- R459: what is left to discard, once every admitted command has settled. -/
def nsDiscard (n id : Nat) (s : State) : State := if nsBusy s n id then s else discardStaging n s

def endWaiting (n : Nat) (s : State) : State :=
  let ws := s.hqe.behind.filter fun w => w.c.ns == n && decide (128 ≤ w.c.op) && w.c.op != 0x88
  let t := { s with hqe := { s.hqe with behind := s.hqe.behind.filter fun w => !(w.c.ns == n && decide (128 ≤ w.c.op) && w.c.op != 0x88) } }
  let t := forEach ws (fun w u => answerCmd w 0x2001 0 u) t
  forEach (t.hqe.cmds.filter fun c => c.nsid == n && (notAdmitted c || c.stage == .waitMap))
    (fun c u => if c.op == 0x80 then finishCmd c.id 0x2001 0 0 u else endWrite c 0 0x2001 u) t

/-- A snapshot begins its deletion (R317). -/
def startSnapDelete (n q : Nat) (s : State) : State :=
  { s with snp := { s.snp with snaps := modFirst (fun x => x.nsid == n && x.seq == q) (fun x => { x with st := .deleting }) s.snp.snaps } }

def deleteNamespaceStart (c : HostCmd) (q : Qp) (s : State) : State :=
  let w : Waiter := ⟨c, q.tenant, .host⟩
  match nsOf s c.ns with
  | none => answerCmd w 0x2001 0 s
  | some n =>
    if n.deleting.isSome || (s.snp.snaps.any fun x => x.nsid == n.id && x.exposed.isSome)
        || s.snp.sessions.any (fun x => x.nsid == n.id) then answerCmd w 0x1009 0 s
    else
      let t := endWaiting n.id s
      let d := { newCmd w .deleteNs t with nsid := n.id }
      let t := addCmd d t
      let t := { t with hqe := { t.hqe with nss := modFirst (fun x => x.id == n.id) (fun x => { x with deleting := some d.id }) t.hqe.nss } }
      let t := forEach (t.snp.snaps.filter fun x => x.nsid == n.id) (fun x u => startSnapDelete n.id x.seq u) t
      nsDiscard n.id d.id t

/-- DELETE_NAMESPACE_DONE (R459): no staging or mirror entry of the namespace remains. -/
def deleteNamespaceDoneEffect (n : Nat) (s : State) : State :=
  match nsOf s n with
  | none => s
  | some x =>
    match x.deleting with
    | none => s
    | some id =>
      let t := nsDiscard n id s
      if nsBusy t n id || (t.ing.staging.any fun e => e.nsid == n) || t.ing.mirror.any (fun m => m.nsid == n) then t
      else
        let u := if x.exposed.isSome then t else dropMaps n t
        let snaps := match x.exposed with
          | some (o, q) => modFirst (fun y : Snap => y.nsid == o && y.seq == q) (fun y => { y with exposed := none }) u.snp.snaps
          | none => u.snp.snaps
        finishCmd id 0 0 0 { u with
          hqe := { u.hqe with nss := u.hqe.nss.filter fun y => y.id != n },
          snp := { u.snp with
            snaps := snaps, nextSeq := tabPut 0 n 0 u.snp.nextSeq,
            groups := (u.snp.groups.map fun g => (g.1, g.2.filter (· != n))).filter fun g => !g.2.isEmpty } }

def execDeleteNamespaceDone (nsid : BitVec 14) (s : State) : Res :=
  run (.deleteNamespaceDone nsid) (deleteNamespaceDoneEffect nsid.toNat) s

/-! ### The rows -/

/-- Does a command draw nothing: a tenant that joins a domain, or a namespace that needs no new data key (R185)? -/
def drawsNothing (s : State) (c : HostCmd) : Bool :=
  (c.op == 0x10 && bitOf c.d34 1) || (c.op == 0x14 && (!bitOf c.d7 5 || (slotOf s (domainOf s c.d3C)).idData != 0))

/-- An administrative command that is done at once, or waits for random numbers. -/
def adminRow (f : HostCmd → State → AdminDone) (c : HostCmd) (s : State) : State :=
  fetchRow c (fun q t =>
    if waitsForRandom t c && !drawsNothing t c then
      { t with hqe := { t.hqe with behind := t.hqe.behind ++ [⟨c, q.tenant, .host⟩] } }
    else adminNow f c q t) s

def execCreateQp (c : HostCmd) (s : State) : Res := run (.createQp c) (adminRow createQpCmd c) s
def execDeleteQp (c : HostCmd) (s : State) : Res := run (.deleteQp c) (fetchRow c (deleteQpStart c)) s
def execRestartQp (c : HostCmd) (s : State) : Res := run (.restartQp c) (adminRow restartQpCmd c) s
def execIdentify (c : HostCmd) (s : State) : Res :=
  run (.identify c) (fetchRow c fun q t => adminNow (fun x u => identifyCmd x q u) c q t) s
def execGetLog (c : HostCmd) (s : State) : Res :=
  run (.getLog c) (fetchRow c fun q t => adminNow (fun x u => getLogCmd x q u) c q t) s
def execSetPower (c : HostCmd) (s : State) : Res := run (.setPower c) (fetchRow c (setPowerStart c)) s
def execSetPace (c : HostCmd) (s : State) : Res := run (.setPace c) (fetchRow c (setPaceStart c)) s
def execSelectProfile (c : HostCmd) (s : State) : Res := run (.selectProfile c) (adminRow selectProfileCmd c) s
def execChipReset (c : HostCmd) (s : State) : Res := run (.chipReset c) (adminRow chipResetCmd c) s
def execCreateTenant (c : HostCmd) (s : State) : Res := run (.createTenant c) (adminRow createTenantCmd c) s
def execDeleteTenant (c : HostCmd) (s : State) : Res := run (.deleteTenant c) (adminRow deleteTenantCmd c) s
def execAssignFunction (c : HostCmd) (s : State) : Res := run (.assignFunction c) (adminRow assignFunctionCmd c) s
def execCreateNamespace (c : HostCmd) (s : State) : Res := run (.createNamespace c) (adminRow createNamespaceCmd c) s
def execDeleteNamespace (c : HostCmd) (s : State) : Res := run (.deleteNamespace c) (fetchRow c (deleteNamespaceStart c)) s

/-- The commands that waited for random numbers: served now, or answered with 0x7002 (R197, R198). -/
def wakeDrbg (s : State) : State :=
  let waits := fun w : Waiter => w.c.op == 0x10 || w.c.op == 0x14 || w.c.op == 0x21
  let go := s.hqe.behind.filter waits
  forEach go (fun w t =>
    let f := if w.c.op = 0x10 then createTenantCmd else if w.c.op = 0x14 then createNamespaceCmd else keyGenerateCmd
    let d := f w.c t
    answerCmd w d.1 d.2.1 d.2.2)
    { s with hqe := { s.hqe with behind := s.hqe.behind.filter fun w => !waits w } }

end Sys2Proof.Machine
end

