-- ==== Sys2Proof/Machine/Ingest.lean ====
section
/-! DEFINITION. Flush scheduling (R120, R123, R315, R339), content-defined chunking (R124), fingerprints (R126), lookup in
the container cache and the hook table (R129 to R137), reference counts (R139), and what ends a flush run. -/

namespace Sys2Proof.Machine

/-! ### Flush runs -/

/-- Engines of a class (R125, R163, R188). -/
def engineCount : EngClass → Nat
  | .chunker => 8
  | _ => 32

def allOut (s : State) (k : EngClass) : Bool := enginesOut s k == engineCount k

/-- Engines of a class that take jobs: in service, and neither under test nor due for one (R141). -/
def engineTakes (s : State) (k : EngClass) (n : Nat) : Bool :=
  !(s.bal.engines.any fun e => e.k == k && e.n == n && (e.out || e.testing || e.due))

/-- Does some engine of a class take jobs? -/
def anyTakes (s : State) (k : EngClass) : Bool := (List.range (engineCount k)).any (engineTakes s k)

/-- Is every flush stopped: asleep, no chunker or no fingerprint engine (R142), a power-loss flush, or frozen maps? -/
def flushStopped (s : State) : Bool :=
  asleep s || allOut s .chunker || allOut s .fingerprint || s.pins.flushing || s.med.frozenMaps || !inService s

/-- Does a namespace's flush wait: a key that is not ACTIVE (R187), no XTS/seal engine (R188), a PENDING snapshot (R315),
or host data stopped for want of space (R215)? -/
def nsFlushes (s : State) (n : Ns) : Bool :=
  (slotOf s (domainOf s n.tenant)).state == .active
    && (match n.keySlot with
      | some k => (slotOf s k).state == .active
      | none => true)
    && !(allOut s .xts && (bitOf n.mode.toNat 5 || bitOf n.mode.toNat 6))
    && !(s.snp.snaps.any fun x => x.nsid == n.id && x.st == .pending) && decide (s.med.level < 3)

/-- Has a block a FLUSHING entry (R119), or a mirror entry in a run of the survivor? -/
def blockFlushing (s : State) (nsid lba : Nat) : Bool :=
  ((entriesOf s nsid lba).any fun e => e.st == .flushing)
    || s.ing.runs.any fun r => r.nsid == nsid && decide (r.lba ≤ lba) && decide (lba < r.lba + r.n)

/-- The STAGED entries of a namespace that may enter a run, in block order. -/
def stagedOf (s : State) (nsid : Nat) : List StEntry :=
  sortBy (fun a b => decide (a.lba ≤ b.lba))
    (s.ing.staging.filter fun e => e.nsid == nsid && e.st == .staged && !blockFlushing s nsid e.lba)

/-- Add an entry to the runs built so far, the last one first: data blocks with consecutive numbers, 512 at most; a
deallocated block alone. -/
def addToRuns (rs : List (List StEntry)) (e : StEntry) : List (List StEntry) :=
  match rs with
  | (x :: xs) :: rest =>
    let l := (x :: xs).getLastD x
    if !e.dealloc && !x.dealloc && e.lba == l.lba + 1 && decide ((x :: xs).length < 512) then (x :: xs ++ [e]) :: rest
    else [e] :: rs
  | _ => [e] :: rs

/-- The runs of a namespace as its staging stands now. -/
def runsOf (s : State) (nsid : Nat) : List (List StEntry) := ((stagedOf s nsid).foldl addToRuns []).reverse

/-- Every run that may be chosen. -/
def allRuns (s : State) : List (List StEntry) :=
  (s.hqe.nss.filter fun n => n.deleting.isNone && nsFlushes s n).flatMap fun n => runsOf s n.id

/-- The order of a run's oldest block. -/
def runAge (r : List StEntry) : Nat :=
  match r with
  | [] => 0
  | x :: xs => xs.foldl (fun a e => min a e.order) x.order

def newestOf (r : List StEntry) : Option StEntry :=
  r.foldl (fun a e => match a with
    | none => some e
    | some x => if x.order < e.order then some e else some x) none

def oldestOf (r : List StEntry) : Option StEntry :=
  r.foldl (fun a e => match a with
    | none => some e
    | some x => if e.order < x.order then some e else some x) none

/-- R123. -/
def eligible (r : List StEntry) : Bool :=
  r.length == 512 || (newestOf r).any (·.idle) || (oldestOf r).any (·.aged)

/-- The run with the oldest block. -/
def oldestRun (rs : List (List StEntry)) : Option (List StEntry) :=
  rs.foldl (fun a r => match a with
    | none => some r
    | some x => if runAge r < runAge x then some r else some x) none

/-- Slots that are neither FREE nor FLUSHING. -/
def notFlushing (s : State) : Nat := (s.ing.staging.filter fun e => e.st != .flushing).length

/-- Are runs chosen oldest first now, by occupancy (R123) or by a limit S_lim (R225)? -/
def oldestFirst (s : State) : Bool :=
  (s.ing.oldest && decide (s.ing.lowPct * s.ing.blocks ≤ 100 * notFlushing s))
    || (limitReached s && decide (stagingLimit s ≤ notFlushing s))

/-- The sets that writes wait for (R120): those with fewer free ways than the write needs of them. -/
def waitedSets (s : State) : List Nat :=
  (s.hqe.cmds.filter fun c => c.stage == .waitSet).flatMap fun c =>
    let l := (List.range c.nblk).map fun i => setOf s c.nsid (c.lba + i)
    l.filter fun k => decide ((freeWays s k).length < (l.filter (· == k)).length)

/-- The run that must go: entries in slots at or above a lowered S (R116), then sets that writes wait for (R120). -/
def forcedRun (s : State) : Option (List StEntry) :=
  let rs := allRuns s
  let high := rs.filter fun r => r.any fun e => decide (s.ing.blocks ≤ e.slot)
  let waited := waitedSets s
  if high ≠ [] then oldestRun high else oldestRun (rs.filter fun r => r.any fun e => decide (e.slot / 8 ∈ waited))

/-- The order of choice: a run that must go, oldest first by occupancy, and the oldest eligible run. -/
def chosenRun (s : State) : Option (List StEntry) :=
  (forcedRun s).orElse fun _ => if oldestFirst s then oldestRun (allRuns s) else oldestRun ((allRuns s).filter eligible)

/-- R121, step 6: a survivor discards the mirror entries that the published maps cover. -/
def dropStaleMirror (s : State) : State :=
  if s.peer.role = .sole then
    { s with ing := { s.ing with mirror := s.ing.mirror.filter fun m => genHigher m.gen (publishedGen s m.nsid m.lba) } }
  else s

/-- A run's entries go to FLUSHING. -/
def startRun (r : List StEntry) (s : State) : State :=
  match r with
  | [] => s
  | e :: _ =>
    let id := freshId s
    let run : Run :=
      { id := id, nsid := e.nsid, lba := e.lba, n := r.length, pos := 0, dealloc := e.dealloc, drop := false,
        fromMirror := false, gens := r.map (·.gen), data := if e.dealloc then [] else r.flatMap fun x => padTo 4096 x.data }
    let slots := r.map (·.slot)
    let l := modAll (fun x : StEntry => decide (x.slot ∈ slots)) (fun x => { x with st := .flushing, run := some id }) s.ing.staging
    takeId { s with ing := { s.ing with staging := l, runs := s.ing.runs ++ [run] } }

/-! The mirror area of a survivor (R339, step 7) -/

/-- The mirror entries that no published map covers, of namespaces that may flush, and whose block is not being flushed. -/
def mirrorReady (s : State) : List MirEntry :=
  s.ing.mirror.filter fun m =>
    genHigher m.gen (publishedGen s m.nsid m.lba)
      && (match nsOf s m.nsid with
        | some n => n.deleting.isNone && nsFlushes s n
        | none => false)
      && !(s.ing.runs.any fun r => r.nsid == m.nsid && decide (r.lba ≤ m.lba) && decide (m.lba < r.lba + r.n))
      && !(s.ing.mirror.any fun x => x.nsid == m.nsid && x.lba == m.lba && genHigher x.gen m.gen)

/-- The blocks after a first one, consecutive and with data. -/
def mirrorTail (l : List MirEntry) (nsid : Nat) : Nat → Nat → List MirEntry
  | 0, _ => []
  | k + 1, lba =>
    match l.find? fun m => m.nsid == nsid && m.lba == lba && !m.data.isEmpty with
    | some m => m :: mirrorTail l nsid k (lba + 1)
    | none => []

/-- The run that starts at the oldest mirror entry. -/
def mirrorRun (s : State) : List MirEntry :=
  match mirrorReady s with
  | [] => []
  | m :: _ => if m.data.isEmpty then [m] else m :: mirrorTail (mirrorReady s) m.nsid 511 (m.lba + 1)

def startMirrorRun (l : List MirEntry) (s : State) : State :=
  match l with
  | [] => s
  | m :: _ =>
    let run : Run :=
      { id := freshId s, nsid := m.nsid, lba := m.lba, n := l.length, pos := 0, dealloc := m.data.isEmpty, drop := false,
        fromMirror := true, gens := l.map (·.gen), data := l.flatMap fun x => if x.data.isEmpty then [] else padTo 4096 x.data }
    takeId { s with ing := { s.ing with runs := s.ing.runs ++ [run] } }

/-- FLUSH_RUN_CHOSEN (R116, R120, R123, R315, R339). -/
def flushRunChosenEffect (s : State) : State :=
  if flushStopped s then s
  else
    let t := dropStaleMirror s
    if t.peer.role = .sole ∧ mirrorRun t ≠ [] ∧ forcedRun t = none then startMirrorRun (mirrorRun t) t
    else forSome (chosenRun t) startRun t

def execFlushRunChosen (s : State) : Res := run .flushRunChosen flushRunChosenEffect s

/-- FLUSH_IDLE_EXPIRY (R123): a block has been STAGED for IDLE_US. -/
def markIdle (nsid lba : Nat) (s : State) : State :=
  let l := modAll (fun e : StEntry => e.nsid == nsid && e.lba == lba && e.st == .staged) (fun e => { e with idle := true }) s.ing.staging
  { s with ing := { s.ing with staging := l } }

def execFlushIdleExpiry (nsid : BitVec 14) (lba : Nat) (s : State) : Res :=
  run (.flushIdleExpiry nsid lba) (markIdle nsid.toNat lba) s

/-- FLUSH_AGE_EXPIRY (R123): a block has been STAGED for MAX_AGE_MS. -/
def markAged (nsid lba : Nat) (s : State) : State :=
  let l := modAll (fun e : StEntry => e.nsid == nsid && e.lba == lba && e.st == .staged) (fun e => { e with aged := true }) s.ing.staging
  { s with ing := { s.ing with staging := l } }

def execFlushAgeExpiry (nsid : BitVec 14) (lba : Nat) (s : State) : Res :=
  run (.flushAgeExpiry nsid lba) (markAged nsid.toNat lba) s

/-! ### The chunker (R124) -/

def w64 (n : Nat) : Nat := n % 2 ^ 64

/-- The gear value of a byte. -/
def gear (b : Nat) : Nat :=
  let x := w64 ((b + 1) * 0x9E3779B97F4A7C15)
  let x := w64 ((x ^^^ (x >>> 29)) * 0xBF58476D1CE4E5B9)
  x ^^^ (x >>> 32)

/-- The length of the first chunk of the rest of a run; `h` is the hash and `len` the bytes taken so far. -/
def cutLen : Bytes → Nat → Nat → Nat
  | [], _, len => len
  | b :: rest, h, len =>
    let h := w64 (2 * h + gear b.toNat)
    let len := len + 1
    let left := rest.length
    if left = 0 then len
    else if len = 65536 ∧ 4096 ≤ left then len
    else if left = 4096 ∧ 61440 < len then len
    else if len < 4096 ∨ left < 4096 then cutLen rest h len
    else if h &&& (if len < 16384 then 0xFFFE000000000000 else 0xFFE0000000000000) = 0 then len
    else cutLen rest h len

def runOf (s : State) (id : Nat) : Option Run := s.ing.runs.find? fun r => r.id == id

def modRun (id : Nat) (f : Run → Run) (s : State) : State :=
  { s with ing := { s.ing with runs := modFirst (fun r => r.id == id) f s.ing.runs } }

def chunkById (s : State) (id : Nat) : Option Chunk := s.ing.chunks.find? fun c => c.id == id

def modChunk (id : Nat) (f : Chunk → Chunk) (s : State) : State :=
  { s with ing := { s.ing with chunks := modFirst (fun c => c.id == id) f s.ing.chunks } }

/-- The window that the next chunk of a namespace stream joins (R132). -/
def openWindow (s : State) (nsid : Nat) : Option Window :=
  s.ing.windows.find? fun w => w.nsid == nsid && !w.closed && decide (w.count < 128)

/-- A chunk joins the stream's window, or opens a new one. -/
def joinWindow (nsid : Nat) (s : State) : Nat × State :=
  match openWindow s nsid with
  | some w =>
    let l := modFirst (fun x : Window => x.id == w.id) (fun x => { x with count := x.count + 1 }) s.ing.windows
    (w.id, { s with ing := { s.ing with windows := l } })
  | none =>
    let id := freshId s
    (id, takeId { s with ing := { s.ing with windows := s.ing.windows ++ [⟨id, nsid, 1, false⟩] } })

/-- A chunker that takes a run: it holds no other (R125), and takes jobs (R141). -/
def freeChunker (s : State) : Option Nat :=
  (List.range 8).find? fun n => engineTakes s .chunker n && !(s.ing.runs.any fun r => r.chunker == some n)

/-- An engine that has completed its job takes the test it is due for, one of its class at a time (R141, R164). -/
def startDueTest (k : EngClass) (n : Nat) (s : State) : State :=
  if engineTesting s k then s
  else { s with bal := { s.bal with
    engines := modAll (fun e => e.k == k && e.n == n && e.due) (fun e => { e with due := false, testing := true }) s.bal.engines } }

/-- The chunker of a run whose last byte is cut is free. -/
def freeRunChunker (id : Nat) (s : State) : State :=
  match runOf s id with
  | some r =>
    if decide (r.data.length ≤ r.pos) then
      forSome r.chunker (startDueTest .chunker) (modRun id (fun x => { x with chunker := none }) s)
    else s
  | none => s

/-- CHUNK_CUT (R124, R125, R132): the next chunk of a run is cut, by the chunker that holds the run, and handed to a fingerprint
engine. A run takes a chunker that holds none, and waits while there is none. -/
def chunkCutEffect (id : Nat) (s : State) : State :=
  match runOf s id with
  | none => s
  | some r =>
    let rest := r.data.drop r.pos
    let by_ := r.chunker.orElse fun _ => freeChunker s
    if r.dealloc || rest.isEmpty || asleep s || allOut s .chunker || by_.isNone then s
    else
      let n := cutLen rest 0 0
      let p := joinWindow r.nsid s
      let c : Chunk :=
        { id := freshId p.2, run := id, nsid := r.nsid, off := r.pos, data := rest.take n, fp := [], stage := .cut,
          window := p.1, started := false, no := 0, matched := false, bale := [], enc := false, sealed_ := false,
          serial := [], waybill := [], stored := [] }
      let t := freeRunChunker id (modRun id (fun x => { x with pos := x.pos + n, chunker := by_ }) (takeId p.2))
      { t with ing := { t.ing with chunks := t.ing.chunks ++ [c], chunksIn := (t.ing.chunksIn + 1) % 2 ^ 64 } }

def execChunkCut (r : Nat) (s : State) : Res := run (.chunkCut r) (chunkCutEffect r) s

/-! ### Reference counts (R139) -/

/-- The map entries that will name a chunk: the blocks of the run whose bytes lie in it. -/
def namingBlocks (c : Chunk) : Nat := (c.off + c.data.length - 1) / 4096 - c.off / 4096 + 1

/-- The highest count that a match may reach. -/
def refTop : Nat := 0xFFFFFFEF

def raisable (s : State) (no k : Nat) : Bool :=
  match chunkOf s no with
  | some e => decide (1 ≤ e.refs) && e.st != .dead && decide (e.refs + k ≤ refTop)
  | none => false

def modEnt (no : Nat) (f : ChunkEnt → ChunkEnt) (s : State) : State :=
  if s.med.chunks.any fun e => e.no == no then
    dirtyChunk no { s with med := { s.med with chunks := modFirst (fun e => e.no == no) f s.med.chunks } }
  else s

/-- `k` references more on a chunk; on one of the peer's table by REF (R345). -/
def raiseRef (no k : Nat) (s : State) : State :=
  if foreignChunk s no then toPeer 0x16 [no, 0, k] [] s else modEnt no (fun e => { e with refs := e.refs + k }) s

def dropRefs (no : Nat) : Nat → State → State
  | 0, s => s
  | k + 1, s => dropRefs no k (dropRef no s)

/-! ### Containers and hooks (R130, R133, R135, R137) -/

def modeOf (s : State) (nsid : Nat) : Nat :=
  match nsOf s nsid with
  | some n => n.mode.toNat
  | none => 0

/-- The dedup domain of a namespace. -/
def nsDomain (s : State) (nsid : Nat) : Nat :=
  match nsOf s nsid with
  | some n => domainOf s n.tenant
  | none => 0

/-- The key slot under which a namespace stores, or the mark for unencrypted data (KEYINFO). -/
def nsKeyInfo (s : State) (nsid : Nat) : Nat :=
  match nsOf s nsid with
  | some n => n.keySlot.getD unencrypted
  | none => unencrypted

def modContainer (no : Nat) (f : Container → Container) (s : State) : State :=
  { s with ing := { s.ing with containers := modFirst (fun c => c.no == no) f s.ing.containers } }

/-- A container counts as searched now. -/
def touchContainer (no : Nat) (s : State) : State :=
  modContainer no (fun c => { c with touched := s.ing.clock }) { s with ing := { s.ing with clock := s.ing.clock + 1 } }

/-- The entries of one container that match a chunk, newest first (R133). -/
def matchesIn (s : State) (c : Chunk) (k : Container) : List CEntry :=
  (k.entries.filter fun e =>
    e.fp == c.fp && !e.dead && e.keyInfo == nsKeyInfo s c.nsid && raisable s e.chunk (namingBlocks c)).reverse

/-- The newest cached match of the chunk's domain: container and chunk. -/
def cacheMatch (s : State) (c : Chunk) : Option (Nat × Nat) :=
  let ks := s.ing.containers.filter fun k => k.cached && k.domain == nsDomain s c.nsid
  ks.foldl (fun best k =>
    match (matchesIn s c k).head? with
    | some e => (match best with
      | some b => if b.1 < k.no then some (k.no, e.chunk) else best
      | none => some (k.no, e.chunk))
    | none => best) none

def isHook (fp : Bytes) : Bool := decide (numAt fp 0 1 < 4)

def bucketOf (s : State) (fp : Bytes) : Nat := numAt fp 9 8 % s.ing.buckets

/-- The newest hook that a fingerprint meets in its bucket. -/
def hookMatch (s : State) (c : Chunk) : Option Nat :=
  (s.ing.hooks.filter fun h =>
    h.bucket == bucketOf s c.fp && h.fpPart == bytesAt c.fp 1 8 && h.domain == nsDomain s c.nsid).foldl
    (fun a h => match a with
      | some n => some (max n h.container)
      | none => some h.container) none

def cachedCount (s : State) : Nat := (s.ing.containers.filter (·.cached)).length

/-- A domain's reserve of cache slots. -/
def cacheReserve (s : State) : Nat := s.ing.ccSlots / 16384

/-- May a container be evicted for a domain (R135)? -/
def mayEvict (s : State) (d : Nat) (k : Container) : Bool :=
  k.cached && !k.isOpen
    && (k.domain == d
      || decide (cacheReserve s < (s.ing.containers.filter fun x => x.cached && x.domain == k.domain).length))

/-- The least recently searched of the containers that meet a test. -/
def lruContainer (p : Container → Bool) (l : List Container) : Option Nat :=
  ((l.filter p).foldl (fun a k => match a with
    | none => some k
    | some x => if k.touched < x.touched then some k else some x) (none : Option Container)).map (·.no)

def evict (no : Nat) (s : State) : State := modContainer no (fun k => { k with cached := false }) s

/-- Room for one more container of a domain; `force` is the rule for a new open container. -/
def cacheRoom (d : Nat) (force : Bool) (s : State) : Option State :=
  if cachedCount s < s.ing.ccSlots then some s
  else
    match lruContainer (mayEvict s d) s.ing.containers with
    | some n => some (evict n s)
    | none =>
      if force then
        match lruContainer (fun k => k.cached && !k.isOpen) s.ing.containers with
        | some n => some (evict n s)
        | none => some s
      else none

/-- The open container of a namespace, opened if it has none. -/
def openContainer (nsid : Nat) (s : State) : Nat × State :=
  match s.ing.containers.find? fun k => k.isOpen && k.nsid == nsid with
  | some k => (k.no, s)
  | none =>
    let t := (cacheRoom (nsDomain s nsid) true s).getD s
    let no := t.ing.contNext
    let k : Container := ⟨no, nsDomain s nsid, nsid, [], true, true, t.ing.clock⟩
    (no, { t with ing := { t.ing with
      containers := t.ing.containers ++ [k], contNext := no + 1, clock := t.ing.clock + 1 } })

/-- Replace, in a bucket, the valid hook with the lowest container number; a Notice event at most once an hour (R137). -/
def replaceHook (h : Hook) (s : State) : State :=
  let low := (s.ing.hooks.filter fun x => x.bucket == h.bucket).foldl
    (fun a x => match a with
      | some n => some (min n x.container)
      | none => some x.container) (none : Option Nat)
  let l := match low with
    | some n => modFirst (fun x => x.bucket == h.bucket && x.container == n) (fun _ => h) s.ing.hooks
    | none => s.ing.hooks
  let t := { s with ing := { s.ing with hooks := l } }
  if low.isSome && (match s.ing.hookHour with
    | some at_ => decide (at_ + 3600 ≤ nowS s)
    | none => true) then raise .ing .notice 137 0 [] { t with ing := { t.ing with hookHour := some (nowS s) } }
  else t

/-- R137: a new hook takes a free entry of its bucket, or replaces one. -/
def insertHook (fp : Bytes) (d container : Nat) (s : State) : State :=
  let h : Hook := ⟨bucketOf s fp, bytesAt fp 1 8, d, container⟩
  if decide ((s.ing.hooks.filter fun x => x.bucket == h.bucket).length < 4) && decide (s.ing.hooks.length < s.ing.hookCap) then
    { s with ing := { s.ing with hooks := s.ing.hooks ++ [h] } }
  else replaceHook h s

/-- A closed container is written to flash; it stays cached. -/
def closeContainer (no : Nat) (s : State) : State := modContainer no (fun k => { k with isOpen := false }) s

/-- CONTAINER_APPEND with HOOK_INSERT (R130): the container closes at 1,024 entries. -/
def appendEntry (c : Chunk) (no : Nat) (s : State) : State :=
  let p := openContainer c.nsid s
  let e : CEntry := ⟨c.fp, no, nsKeyInfo s c.nsid, false⟩
  let t := modContainer p.1 (fun k => { k with entries := k.entries ++ [e] }) p.2
  let t := if isHook c.fp then insertHook c.fp (nsDomain s c.nsid) p.1 t else t
  if (t.ing.containers.any fun k => k.no == p.1 && decide (1024 ≤ k.entries.length)) then closeContainer p.1 t else t

/-- CONTAINER_IDLE_EXPIRY (R130). -/
def containerIdle (nsid : Nat) (s : State) : State :=
  forEach (s.ing.containers.filter fun k => k.isOpen && k.nsid == nsid) (fun k t => closeContainer k.no t) s

def execContainerIdleExpiry (nsid : BitVec 14) (s : State) : Res :=
  run (.containerIdleExpiry nsid) (containerIdle nsid.toNat) s

/-! ### Resolution -/

/-- The number of the next chunk that this head creates (R203). -/
def newChunkNo (s : State) : Nat := (if s.glb.headId then 2 ^ 47 else 0) + s.med.chunkNext

/-- Does a namespace's domain seal (R184)? -/
def nsSeals (s : State) (nsid : Nat) : Bool := bitOf (modeOf s nsid) 6

/-- The chunk table entry of a chunk that is stored as unique: PLACING, with the references of the map entries that will
name it (R139). -/
def newEnt (c : Chunk) (s : State) : ChunkEnt :=
  { no := newChunkNo s, refs := namingBlocks c, seg := 0, stripe := 0, strip := 0, gran := 0, granules := 0,
    len := c.data.length, st := .placing, keyInfo := nsKeyInfo s c.nsid, domain := nsDomain s c.nsid, nsid := c.nsid,
    sealed_ := nsSeals s c.nsid, waybill := [], stored := [] }

/-- A chunk is resolved as unique: it takes a number and a chunk table entry, and unless the namespace disables
de-duplication its fingerprint is appended to the open container (R130, R136). -/
def resolveUnique (id : Nat) (s : State) : State :=
  match chunkById s id with
  | none => s
  | some c =>
    let no := newChunkNo s
    let t := dirtyChunk no { s with
      med := { s.med with chunks := s.med.chunks ++ [newEnt c s], chunkNext := s.med.chunkNext + 1 },
      ing := { s.ing with unique := (s.ing.unique + 1) % 2 ^ 64 } }
    let t := modChunk id (fun x => { x with stage := .unique, no := no }) t
    if bitOf (modeOf s c.nsid) 3 then t else appendEntry c no t

/-- Count a match that stands. -/
def countMatch (c : Chunk) (s : State) : State :=
  if c.started then { s with ing := { s.ing with dupHook := (s.ing.dupHook + 1) % 2 ^ 64 } }
  else { s with ing := { s.ing with dupCache := (s.ing.dupCache + 1) % 2 ^ 64 } }

/-- A free decompressor takes a decode for a comparison, if there is one (R161). -/
def startCompare (chunk no : Nat) (s : State) : State :=
  let lb := match chunkOf s no with
    | some e => numAt e.waybill 8 4
    | none => 0
  let busy := s.bal.decoders.map (·.engine) ++ (s.bal.engines.filter fun e =>
    e.k == .decompressor && (e.out || e.testing || e.due)).map (·.n)
  match lowestFree busy 32 0 with
  | some n => { s with bal := { s.bal with decoders := s.bal.decoders ++ [⟨n, chunk, lb, [], 0, {}⟩] } }
  | none => s

/-- The segment that a chunk's entry names. -/
def segOfChunk (s : State) (no : Nat) : Nat :=
  match chunkOf s no with
  | some e => e.seg
  | none => 0

/-- A match with chunk `no` of container `k`: the count is raised at once (R139); verify-on-match then compares (R134). -/
def resolveMatch (c : Chunk) (k no : Nat) (s : State) : State :=
  let t := touchContainer k (raiseRef no (namingBlocks c) s)
  if bitOf (modeOf s c.nsid) 4 then
    startCompare c.id no (modChunk c.id (fun x => { x with stage := .verifying, no := no, matched := true, source := segOfChunk s no }) t)
  else countMatch c (modChunk c.id (fun x => { x with stage := .live, no := no, matched := true }) t)

/-- Has a chunk of the window a hook that is still being resolved, or a pull that is under way (R132)? -/
def hookOpen (s : State) (w : Nat) : Bool :=
  s.ing.chunks.any fun c => c.window == w && isHook c.fp && (match c.stage with
    | .searching | .hookSearch | .pulling _ => true
    | _ => false)

/-- Has a namespace's stream a chunk that waits to be cut or fingerprinted? -/
def streamWaits (s : State) (nsid : Nat) : Bool :=
  (s.ing.runs.any fun r => r.nsid == nsid && !r.dealloc && decide (r.pos < r.data.length))
    || s.ing.chunks.any fun c => c.nsid == nsid && c.stage == .cut

/-- Does an open window close now (R132)? -/
def windowCloses (s : State) (w : Window) : Bool :=
  !w.closed && !(s.ing.chunks.any fun c => c.window == w.id && c.stage == .cut)
    && (decide (128 ≤ w.count) || !streamWaits s w.nsid)

/-- WINDOW_CLOSE: windows that close do so, and the non-hook fingerprints of a closed window are searched once its hooks'
pulls have ended. -/
def windowCheck (s : State) : State :=
  let ws := s.ing.windows.map fun w => if windowCloses s w then { w with closed := true } else w
  let t := { s with ing := { s.ing with windows := ws } }
  let ready := (ws.filter fun w => w.closed && !hookOpen t w.id).map (·.id)
  { t with ing := { t.ing with
    chunks := modAll (fun c => c.stage == .fingerprinted && decide (c.window ∈ ready)) (fun c => { c with stage := .searching }) t.ing.chunks,
    windows := t.ing.windows.filter fun w => !decide (w.id ∈ ready) } }

/-- FINGERPRINT_DONE (R126, R132, R136): an engine that takes jobs has fingerprinted the chunk under its domain's key, which must be
ACTIVE (R187). -/
def fingerprintDoneEffect (id : Nat) (s : State) : State :=
  match chunkById s id with
  | none => s
  | some c =>
    if c.stage != .cut || !anyTakes s .fingerprint || (slotOf s (nsDomain s c.nsid)).state != .active then s
    else
      let fp := hmacSha256 (keyAt (slotOf s (nsDomain s c.nsid)).material 0) c.data
      let t := modChunk id (fun x => { x with fp := fp, stage := if isHook fp then .searching else .fingerprinted }) s
      windowCheck (if bitOf (modeOf s c.nsid) 3 then resolveUnique id t else t)

def execFingerprintDone (chunk : Nat) (s : State) : Res := run (.fingerprintDone chunk) (fingerprintDoneEffect chunk) s

/-- A cache search has missed: a hook goes to the hook table, once, and any other chunk is unique. -/
def cacheMiss (c : Chunk) (s : State) : State :=
  if c.stage == .searching && isHook c.fp then modChunk c.id (fun x => { x with stage := .hookSearch }) s
  else resolveUnique c.id s

/-- A hook-table search ends: a hit whose container is not cached pulls it, or joins its pull. -/
def hookDone (c : Chunk) (s : State) : State :=
  match hookMatch s c with
  | none => resolveUnique c.id s
  | some k =>
    if s.ing.containers.any fun x => x.no == k && x.cached then resolveUnique c.id s
    else
      let pulled := s.ing.chunks.any fun x => x.stage == .pulling k
      modChunk c.id (fun x => { x with stage := .pulling k, started := !pulled }) s

/-- LOOKUP_SEARCH_DONE (R131, R133, R139). -/
def lookupSearchDoneEffect (id : Nat) (s : State) : State :=
  match chunkById s id with
  | none => s
  | some c =>
    match c.stage with
    | .searching | .again =>
      windowCheck (match cacheMatch s c with
        | some m => resolveMatch c m.1 m.2 s
        | none => cacheMiss c s)
    | .hookSearch => windowCheck (hookDone c s)
    | _ => s

def execLookupSearchDone (chunk : Nat) (s : State) : Res := run (.lookupSearchDone chunk) (lookupSearchDoneEffect chunk) s

/-- The containers of a lost head, which number from 0 too, carry this mark above the 40 bits of their number (R129). -/
def lostMark : Nat := 2 ^ 40

/-- R129: the hook table of a lost head, loaded from flash beside this head's own; what it holds is open. -/
def loadLostHooks (s : State) : State :=
  let l := (Config.lostHooks s.freeCtr).map fun h => (⟨h.1, h.2.1, h.2.2.1, lostMark + h.2.2.2 % lostMark⟩ : Hook)
  tick { s with ing := { s.ing with hooks := s.ing.hooks ++ l } }

/-- The container comes into the cache: the one this head wrote, or, of the lost head's, the one that was read. -/
def cacheContainer (k d : Nat) (entries : List (Bytes × Nat × Nat)) (s : State) : State :=
  if s.ing.containers.any fun x => x.no == k then touchContainer k (modContainer k (fun x => { x with cached := true }) s)
  else
    let es := entries.map fun e => (⟨e.1, e.2.1, e.2.2, false⟩ : CEntry)
    { s with ing := { s.ing with containers := s.ing.containers ++ [⟨k, d, 0, es, false, true, s.ing.clock⟩], clock := s.ing.clock + 1 } }

/-- CONTAINER_PULL_DONE (R131, R135): the container is cached and the waiting searches repeat; a pull that finds no slot is
abandoned. -/
def containerPullDoneEffect (k : Nat) (entries : List (Bytes × Nat × Nat)) (d : Nat) (s : State) : State :=
  if s.ing.chunks.any fun c => c.stage == .pulling k then
    let go := fun (t : State) => windowCheck { t with ing := { t.ing with
      chunks := modAll (fun c => c.stage == .pulling k) (fun c => { c with stage := .again }) t.ing.chunks } }
    match cacheRoom d false s with
    | some t =>
      let u := cacheContainer k d entries t
      go { u with ing := { u.ing with pulls := (u.ing.pulls + 1) % 2 ^ 64 } }
    | none => go s
  else s

def execContainerPullDone (container : Nat) (entries : List (Bytes × Nat × Nat)) (domain : Nat) (s : State) : Res :=
  run (.containerPullDone container entries domain) (containerPullDoneEffect container entries domain) s

/-- What a comparison compares with: nothing where the read of the matched chunk failed its seal or CRC check, else the original that its
decoder produced, or the one given where no decoder holds a result. -/
def compareResult (s : State) (id : Nat) (given : Option Bytes) : Option Bytes :=
  given.bind fun b =>
    match (s.bal.decoders.find? fun d => d.chunk == id).bind (·.d.result), s.bal.decoders.find? fun d => d.chunk == id with
    | some r, some d => if r = 0 then some d.d.history.reverse else none
    | _, _ => some b

/-- Comparisons that have no decompressor take a free one (R162). -/
def startWaiting (s : State) : State :=
  forEach (s.ing.chunks.filter fun c => c.stage == .verifying && !(s.bal.decoders.any fun d => d.chunk == c.id))
    (fun c t => startCompare c.id c.no t) s

/-- A comparison that fails: the match is given back and the chunk is stored as unique. -/
def compareFailed (c : Chunk) (s : State) : State :=
  let t := dropRefs c.no (namingBlocks c) s
  let t := { t with ing := { t.ing with verifyMiss := (t.ing.verifyMiss + 1) % 2 ^ 64 } }
  resolveUnique c.id (modChunk c.id (fun x => { x with matched := false, no := 0 }) t)

/-- VERIFY_COMPARE_DONE (R134). -/
def verifyCompareDoneEffect (id : Nat) (given : Option Bytes) (s : State) : State :=
  match chunkById s id with
  | none => s
  | some c =>
    if c.stage != .verifying then s
    else
      let got := compareResult s id given
      let t := { s with bal := { s.bal with decoders := without (fun d => d.chunk == id) s.bal.decoders } }
      let t := forEach (s.bal.decoders.filter fun d => d.chunk == id) (fun d u => startDueTest .decompressor d.engine u) t
      startWaiting <| match got with
      | some b =>
        if b = c.data then countMatch c (modChunk id (fun x => { x with stage := .live }) t)
        else
          let u := { t with ing := { t.ing with containers := t.ing.containers.map (markDead c.no) } }
          compareFailed c (raise .ing .critical 134 0 [c.no] u)
      | none => compareFailed c (raise .ing .fault 134 1 [c.no] t)

def execVerifyCompareDone (chunk : Nat) (stored : Option Bytes) (s : State) : Res :=
  run (.verifyCompareDone chunk stored) (verifyCompareDoneEffect chunk stored) s

/-! ### The end of a run -/

def chunksOfRun (s : State) (id : Nat) : List Chunk := s.ing.chunks.filter fun c => c.run == id

/-- The references that a run's chunks took are dropped (R459, R140). -/
def dropRunRefs (id : Nat) (s : State) : State :=
  forEach (chunksOfRun s id) (fun c t => if c.no = 0 then t else dropRefs c.no (namingBlocks c) t) s

/-- A run leaves the write path, with its chunks. -/
def removeRun (id : Nat) (s : State) : State :=
  windowCheck { s with
    ing := { s.ing with runs := without (fun r => r.id == id) s.ing.runs, chunks := without (fun c => c.run == id) s.ing.chunks },
    bal := { s.bal with decoders := s.bal.decoders.filter fun d => !(s.ing.chunks.any fun c => c.run == id && c.id == d.chunk) } }

/-- The unique chunks of a run that are in no stripe yet: their entries go with the run. -/
def unplacedChunks (s : State) (id : Nat) : List Nat :=
  ((chunksOfRun s id).filter fun c => !c.matched && c.no != 0 && c.stage != .placing && c.stage != .live).map (·.no)

/-- R140: a run starts again from staging: what its chunks took is given back, and it is cut anew. -/
def restartRun (id : Nat) (s : State) : State :=
  let gone := unplacedChunks s id
  let t := dropRunRefs id s
  let t := { t with med := { t.med with chunks := t.med.chunks.filter fun e => !(decide (e.no ∈ gone) && e.refs == 0) } }
  windowCheck (modRun id (fun r => { r with pos := 0, chunker := none })
    { t with
      ing := { t.ing with chunks := without (fun c => c.run == id) t.ing.chunks },
      bal := { t.bal with decoders := t.bal.decoders.filter fun d => !(s.ing.chunks.any fun c => c.run == id && c.id == d.chunk) } })

end Sys2Proof.Machine
end

