-- ==== Sys2Proof/Machine/Roots.lean ====
section
/-! DEFINITION. The reserved area of a module: its superblock and root records, and how they are written (R293 to R296). -/

namespace Sys2Proof.Machine

/-! ### Metadata objects on media -/

/-- The record of a metadata object that stands on media. -/
def recOf (s : State) (obj : Nat) : Option ObjRec := s.med.objs.find? fun r => r.obj == obj && !r.stale

/-- A locator (R287). -/
def locator (o : ObjRec) : Nat := o.seg <<< 32 + o.stripe <<< 16 + (o.gran / 128) <<< 11 + (o.gran % 128) <<< 4 + 1

/-- The locator of an object, or one that names nothing. -/
def objLocator (s : State) (obj : Nat) : Nat :=
  match recOf s obj with
  | some r => locator r
  | none => 0

/-- Are the stripes of all metadata objects programmed (R298)? -/
def objsProgrammed (s : State) : Bool :=
  s.med.objs.all fun o => o.stale || !(s.med.stripes.any fun t => t.seg == o.seg && t.stripe == o.stripe)

/-! ### The reserved area (R293) -/

/-- The two lowest-numbered dies that are not flush dies (R293). -/
def reservedDies (i : ModInfo) : List Nat := ((List.range (dieCount i)).filter fun d => !(d ∈ flushDies i)).take 2

/-- The block that stands for reserved block `r` of a die: the last replacement of it, if any. -/
def reservedBlock (s : State) (n d r : Nat) : Nat :=
  match (tabGet [] n s.til.swaps).reverse.find? fun x : Nat × Nat × Nat => x.1 == d && x.2.1 == r with
  | some x => x.2.2
  | none => r

/-- Replacements made on a die. -/
def swapsOn (s : State) (n d : Nat) : Nat := ((tabGet [] n s.til.swaps).filter fun x : Nat × Nat × Nat => x.1 == d).length

/-- REPLACED of the superblock: two bits for each reserved die. -/
def replacedByte (s : State) (n : Nat) : Nat :=
  match reservedDies (laneOf s n).info with
  | d :: e :: _ => min 3 (swapsOn s n d) + 4 * min 3 (swapsOn s n e)
  | [d] => min 3 (swapsOn s n d)
  | [] => 0

/-! ### Superblock and root record (R294, R295, R296) -/

/-- The superblock of a module that this chip initialises. -/
def newSuper (s : State) (n : Nat) : Bytes :=
  let p := (laneOf s n).info.page
  withCrc (padTo 0x1FC (leBytes 4 0x71A55B01 ++ leBytes 2 3 ++ leBytes 2 3 ++ padTo 16 s.til.arrayId ++ bytesAt p 8 8 ++ leBytes 1 n
    ++ zeros 3 ++ leBytes 4 s.glb.unitSerial.toNat ++ leBytes 4 (stampSeconds s).toNat ++ leBytes 4 (stampCycles s).toNat
    ++ bytesAt p 0x10 44 ++ bytesAt p 0x44 16))

/-- A module's superblock as it is written now: READ_FLOOR and REPLACED are the present ones. -/
def superOf (s : State) (n : Nat) : Bytes :=
  let b := tabGet [] n s.til.supers
  withCrc (bytesAt b 0 6 ++ leBytes 2 (tabGet 3 n s.til.readFloor) ++ bytesAt b 8 0x19 ++ leBytes 1 (replacedByte s n)
    ++ bytesAt b 0x22 0x1DA)

/-- The 128 bytes of the next root record. It names the checkpoint being written once all its objects are programmed. -/
def rootRecord (s : State) (names : Bool) : Bytes :=
  withCrc (padTo 0x7C (leBytes 4 0x71A52007 ++ leBytes 2 3
    ++ leBytes 1 (if s.til.bothHeads then 3 else if s.glb.headId then 2 else 1) ++ leBytes 1 (flag s.glb.headId 0)
    ++ leBytes 8 s.til.rootSeq ++ leBytes 8 (objLocator s (if names then s.til.headObj else s.til.currentObj))
    ++ leBytes 8 (if names then s.til.ckptSeq else s.til.current) ++ leBytes 8 (s.sec.serialNew.getD s.sec.serialTop)
    ++ leBytes 2 s.peer.epoch.toNat ++ zeros 2 ++ leBytes 4 (stampSeconds s).toNat ++ leBytes 4 (stampCycles s).toNat))

/-- The same page of a root block on both reserved dies, erased first when it is page 0. -/
def rootPage (n b page : Nat) (d : Bytes) (s : State) : State :=
  forEach (reservedDies (laneOf s n).info) (fun die u =>
    let k := reservedBlock u n die b
    let v := if page = 0 then farSend n ⟨0x13, true, die, k, 0, 1, 0, 0, []⟩ u else u
    farSend n ⟨0x11, true, die, k, page, 1, 0, 0, padTo 16384 d⟩ v) s

/-- A root record goes to one module. When the root block is full, none is in use, or `turn` asks for it, the other block of the pair is
erased and takes the superblock first. -/
def rootTo (names turn : Bool) (n : Nat) (s : State) : State :=
  let p := tabGet (0, 0) n s.til.roots
  let turn := turn || p.2 == 0 || decide ((laneOf s n).info.pagesS ≤ p.2)
  let b := if p.2 == 0 then 0 else if turn then 1 - p.1 else p.1
  let k := if turn then 1 else p.2
  let t := if turn then rootPage n b 0 (superOf s n) s else s
  let t := rootPage n b k (rootRecord s names) t
  { t with til := { t.til with roots := tabPut (0, 0) n (b, k + 1) t.til.roots } }

/-- The modules whose superblock has been read under the chip's claim (R285). -/
def rootLanes (s : State) : List Nat := (heldLanes s).filter fun n => tabGet 0 n s.til.readFloor != 0

/-- A root record goes to every module that the chip holds (R295). -/
def writeRoots (s : State) : State :=
  if (rootLanes s).isEmpty || asleep s then s
  else
    let names := s.til.writing && objsProgrammed s
    let t := { s with til := { s.til with rootSeq := s.til.rootSeq + 1, rootOut := true, rootNames := names } }
    forEach (rootLanes s) (rootTo names false) t

/-- The superblock of one module is written anew, with a root record after it (R293, R294, R308). -/
def renewSuper (n : Nat) (s : State) : State :=
  if decide (n ∈ rootLanes s) then
    rootTo (s.til.rootNames && s.til.rootOut) true n { s with til := { s.til with rootSeq := s.til.rootSeq + 1 } }
  else s

/-- A reserved block has failed: the next of blocks 4 to 7 of its die takes its place, and the superblock says so (R293). -/
def reservedFailed (n : Nat) (c : FarCmd) (s : State) : State :=
  let k := 4 + swapsOn s n c.die
  match (List.range 4).find? fun r => reservedBlock s n c.die r == c.block with
  | none => s
  | some r =>
    if 8 ≤ k then s
    else
      renewSuper n { s with til := { s.til with swaps := tabPut [] n (tabGet [] n s.til.swaps ++ [(c.die, r, k)]) s.til.swaps } }

/-- Does a command address a block of the reserved area? -/
def onReserved (s : State) (n : Nat) (c : FarCmd) : Bool :=
  c.planes == 1 && decide (c.block < 8) && decide (c.die ∈ reservedDies (laneOf s n).info)

end Sys2Proof.Machine
end

