-- ==== Sys2Proof/Machine/ReadPath.lean ====
section
/-! DEFINITION. From a unique chunk to its stored granules and back: encoding (R158 to R160), encryption and seals (R180 to
R184), the read path's checks (R155 to R157, R186), the resumable decoder (R161, R162), and the engines' self-tests (R141,
R142, R164, R188). -/

namespace Sys2Proof.Machine

/-! ### Serials, seals and Waybills -/

/-- A Bale serial (R182): the unit serial's low word and a count. -/
def serialBytes (s : State) (count : Nat) : Bytes := leBytes 4 s.glb.unitSerial.toNat ++ leBytes 8 count

/-- The next Bale serial, while a recorded block has one left; otherwise a further block is asked for (R182, R295). -/
def takeSerial (s : State) : Option (Bytes × State) :=
  if s.sec.serialNext < s.sec.serialTop then
    some (serialBytes s s.sec.serialNext, { s with sec := { s.sec with serialNext := s.sec.serialNext + 1 } })
  else none

/-- The next block of serials is named by a root record before its first count is used (R182, R295). -/
def wantSerials (s : State) : State :=
  if s.til.rootOut && s.sec.serialNew.isSome then s
  else writeRoots { s with sec := { s.sec with serialNew := some (s.sec.serialTop + 2 ^ 24) } }

/-- Granules of a Bale (R180). -/
def granulesOf (lb : Nat) : Nat := (lb + 511) / 512

/-- The data keys of a slot: K_data1 and K_data2 of a domain, or the two keys of a DATA slot (R181). -/
def dataKeys (k : Slot) : Bytes × Bytes :=
  if k.type = typeDomain then (keyAt k.material 2, keyAt k.material 3) else (keyAt k.material 0, keyAt k.material 1)

def dataKeyId (k : Slot) : Word64 := if k.type = typeDomain then k.idData else k.idA

/-- XTS over granules: the tweak is the serial and the granule's number (R181). -/
def xtsGranules (enc : Bool) (keys : Bytes × Bytes) (serial stored : Bytes) : Bytes :=
  (List.range (stored.length / 512)).flatMap fun g => xts enc keys.1 keys.2 (serial ++ leBytes 4 g) (bytesAt stored (512 * g) 512)

/-- The seal header as a Waybill gives it (R183, R290). -/
def sealHeader (w : Bytes) : Bytes :=
  leBytes 1 1 ++ leBytes 1 (flag (bitOf (numAt w 4 1) 0) 0) ++ bytesAt w 6 2 ++ bytesAt w 8 4 ++ bytesAt w 0xC 4 ++ bytesAt w 0x2C 4
    ++ bytesAt w 0x30 16 ++ bytesAt w 0x50 8 ++ bytesAt w 0x58 8

/-- The seal over stored granules. -/
def sealTag (key w stored : Bytes) : Bytes := gmac key (bytesAt w 0x20 12) (sealHeader w ++ stored)

/-- A Waybill's last four bytes (R289). -/
def closeWaybill (w : Bytes) : Bytes := withCrc (padTo 0x7C w)

/-- Write bytes at an offset. -/
def putAt (b : Bytes) (a : Nat) (d : Bytes) : Bytes := b.take a ++ d ++ b.drop (a + d.length)

/-- The Waybill of a chunk, its seal still 0 (R289). -/
def newWaybill (s : State) (c : Chunk) (lba : Nat) : Bytes :=
  let k := slotOf s (nsKeyInfo s c.nsid)
  let d := slotOf s (nsDomain s c.nsid)
  leBytes 2 0x57B1 ++ leBytes 1 3 ++ leBytes 1 1 ++ leBytes 1 (flag c.enc 0 + flag c.sealed_ 1) ++ leBytes 1 3 ++ leBytes 2 (granulesOf c.bale.length)
    ++ leBytes 4 c.bale.length ++ leBytes 4 c.data.length ++ leBytes 2 (nsDomain s c.nsid) ++ leBytes 2 c.nsid
    ++ leBytes 2 (if c.enc then nsKeyInfo s c.nsid else unencrypted) ++ zeros 2 ++ leBytes 8 c.no ++ padTo 12 c.serial
    ++ leBytes 4 (crc32c c.data) ++ padTo 32 c.fp ++ leBytes 8 (if c.enc then (dataKeyId k).toNat else 0)
    ++ leBytes 8 (if c.sealed_ then d.idSeal.toNat else 0) ++ zeros 16 ++ leBytes 4 (stampSeconds s).toNat
    ++ leBytes 8 ((lba + c.off / 4096) <<< 12 + c.off % 4096)

/-- Padding, encryption and seal of an encoded chunk under a serial (R180): stored granules and Waybill. -/
def sealChunk (s : State) (c : Chunk) (lba : Nat) (serial : Bytes) : Chunk :=
  let c := { c with serial := serial }
  let padded := padTo (512 * granulesOf c.bale.length) c.bale
  let stored := if c.enc then xtsGranules true (dataKeys (slotOf s (nsKeyInfo s c.nsid))) serial padded else padded
  let w := newWaybill s c lba
  let w := if c.sealed_ then putAt w 0x60 (sealTag (keyAt (slotOf s (nsDomain s c.nsid)).material 1) (padTo 0x7C w) stored) else w
  { c with stored := stored, waybill := closeWaybill w, stage := .stored }

/-- An encoded chunk becomes ready for packing, once a serial is at hand. -/
def finishChunk (id : Nat) (s : State) : State :=
  match chunkById s id with
  | none => s
  | some c =>
    match takeSerial s with
    | some p =>
      let lba := match runOf s c.run with
        | some r => r.lba
        | none => 0
      modChunk id (fun x => sealChunk s x lba p.1) p.2
    | none => wantSerials s

/-! ### BALE_ENCODE_DONE and XTS_SEAL_DONE -/

/-- R158's effort of a namespace; every chunk is stored raw while no compressor is in service (R142). -/
def effortOf (s : State) (nsid : Nat) : Nat := if allOut s .compressor then 0 else modeOf s nsid % 4

/-- The counters of an encoded Bale. -/
def countBale (bale : Bytes) (n : Nat) (b : Bal) : Bal :=
  let m := numAt bale 2 1
  let up := fun (k : Nat) => (k + 1) % 2 ^ 64
  { b with
    encRaw := if m = 0 then up b.encRaw else b.encRaw, encStatic := if m = 1 then up b.encStatic else b.encStatic,
    encDynamic := if m = 2 then up b.encDynamic else b.encDynamic,
    bytesIn := (b.bytesIn + n) % 2 ^ 64, bytesOut := (b.bytesOut + bale.length) % 2 ^ 64 }

def baleEncodeDoneEffect (id : Nat) (s : State) : State :=
  match chunkById s id with
  | none => s
  | some c =>
    if c.stage != .unique || asleep s || !(anyTakes s .compressor || allOut s .compressor) then s
    else
      let bale := encodeBale (effortOf s c.nsid) c.data
      let mode := modeOf s c.nsid
      let t := modChunk id (fun x => { x with bale := bale, stage := .encoded, enc := bitOf mode 5, sealed_ := bitOf mode 6 })
        { s with bal := countBale bale c.data.length s.bal }
      if bitOf mode 5 || bitOf mode 6 then t else finishChunk id t

/-- BALE_ENCODE_DONE (R158 to R160): one chunk as one Bale; without encryption and seal it is padded and ready at once. -/
def execBaleEncodeDone (chunk : Nat) (s : State) : Res := run (.baleEncodeDone chunk) (baleEncodeDoneEffect chunk) s

/-- XTS_SEAL_DONE (R180 to R183): the padded Bale is encrypted and sealed; it waits while no engine is in service (R188) or
its keys are not ACTIVE (R187). -/
def xtsSealDoneEffect (id : Nat) (s : State) : State :=
  match chunkById s id with
  | none => s
  | some c =>
    let keysUp := (slotOf s (nsDomain s c.nsid)).state == .active
      && (!c.enc || (slotOf s (nsKeyInfo s c.nsid)).state == .active)
    if c.stage != .encoded || asleep s || (!anyTakes s .xts && (c.enc || c.sealed_)) || !keysUp then s else finishChunk id s

def execXtsSealDone (chunk : Nat) (s : State) : Res := run (.xtsSealDone chunk) (xtsSealDoneEffect chunk) s

/-! ### The read path -/

def jobOf (s : State) (id : Nat) : Option ReadJob := s.bal.readJobs.find? fun j => j.id == id

def modJob (id : Nat) (f : ReadJob → ReadJob) (s : State) : State :=
  { s with bal := { s.bal with readJobs := modFirst (fun j => j.id == id) f s.bal.readJobs } }

/-- A read ends with a failure that names its chunk in a Critical event, from the block that detected it (R457): BAL for the
decoder's checks, SEC for the seal's. -/
def failJob (j : ReadJob) (status : Word16) (rule n : Nat) (s : State) : State :=
  endJob j status (raise (if rule = 157 then .bal else .sec) .critical rule n [j.chunk] s)

/-- A check has failed for the first time: the Bale's one rebuild is awaited (R157, R186, R269). -/
def wantRebuild (id : Nat) (status : Word16) (s : State) : State :=
  modJob id (fun j => { j with wanted := some status, bale := [], found := [], sealOk := false }) s

def countSealFailed (s : State) : State := { s with sec := { s.sec with failed := satAdd 0xFFFF s.sec.failed 1 } }

/-- Seal, then decryption (R186): the Bale is ready for the decompressor. Stored granules `stored` under Waybill `w`. -/
def openBale (e : ChunkEnt) (stored w : Bytes) (s : State) : Option Bytes :=
  let g := padTo (512 * e.granules) stored
  let good := !e.sealed_ || sealTag (keyAt (slotOf s e.domain).material 1) w g == bytesAt w 0x60 16
  let plain := if e.keyInfo = unencrypted then g else xtsGranules false (dataKeys (slotOf s e.keyInfo)) (bytesAt w 0x20 12) g
  if good then some (plain.take (numAt w 8 4)) else none

/-- SEAL_CHECK_DONE (R186): the tag over the stored granules, and the decryption; a failure asks for the one rebuild, or
ends the read with 0x3002 when it has been made. -/
def sealCheckDoneEffect (id : Nat) (stored waybill : Bytes) (s : State) : State :=
  match jobOf s id with
  | none => s
  | some j =>
    match chunkOf s j.chunk with
    | none => endJob j 0x3020 s
    | some e =>
      if j.wanted.isSome || j.sealOk then s
      else if !keysLoaded s e || (allOut s .xts && (e.sealed_ || e.keyInfo != unencrypted)) then endJob j 0x7011 s
      else
        let got := if j.found.isEmpty then stored else j.found
        let w := if j.waybill.isEmpty then waybill else j.waybill
        match openBale e got w s with
        | some b => modJob id (fun x => { x with bale := b, sealOk := true, waybill := w }) s
        | none => if j.rebuilt then failJob j 0x3002 186 0 (countSealFailed s) else wantRebuild id 0x3002 s

def execSealCheckDone (job : Nat) (stored waybill : Bytes) (s : State) : Res :=
  run (.sealCheckDone job stored waybill) (sealCheckDoneEffect job stored waybill) s

/-- The decoder's counters (DEC_BALES, DEC_ERR, DEC_CRC). -/
def countDecode (st : Word16) (b : Bal) : Bal :=
  { b with
    decBales := (b.decBales + 1) % 2 ^ 64,
    illegal := if st = 0x3010 then satAdd 0xFF b.illegal 1 else b.illegal,
    distance := if st = 0x3011 then satAdd 0xFF b.distance 1 else b.distance,
    length := if st = 0x3012 then satAdd 0xFF b.length 1 else b.length,
    runErr := if st = 0x3013 then satAdd 0xFF b.runErr 1 else b.runErr,
    crcErr := if st = 0x3003 then satAdd 0xFFFF b.crcErr 1 else b.crcErr }

/-- The pieces of the blocks that a read draws from a chunk go to the host, and its job ends. -/
def serveJob (j : ReadJob) (orig : Bytes) (s : State) : State :=
  match cmdOf s j.cmd with
  | none => endJob j 0 s
  | some c => endJob j 0 (forEach j.parts (fun p t => deliver c (4096 * p.1 + p.2.1) (bytesAt orig p.2.2.1 p.2.2.2) t) s)

/-- R157, R164: the Bale of a job is decoded and its CRC checked before a byte of it moves. -/
def baleDecodeDoneEffect (id : Nat) (s : State) : State :=
  match jobOf s id with
  | none => s
  | some j =>
    match chunkOf s j.chunk with
    | none => endJob j 0x3020 s
    | some e =>
      if !j.sealOk then s
      else if (numAt j.bale 2 1 != 0 && allOut s .decompressor) || (numAt j.bale 2 1 == 0 && allOut s .decompressor && allOut s .xts) then
        endJob j 0x7011 s
      else
        let d := decodeBale j.bale (some (numAt j.waybill 0x2C 4))
        let t := { s with bal := countDecode d.1 s.bal }
        if d.1 = 0 then serveJob j d.2 t
        else if e.sealed_ || j.rebuilt then failJob j d.1 157 0 t
        else wantRebuild id d.1 t

def execBaleDecodeDone (job : Nat) (s : State) : Res := run (.baleDecodeDone job) (baleDecodeDoneEffect job) s

/-! ### Fragments (R161, R162) -/

/-- A decoder goes on with what it has; a Bale that ends is counted. -/
def decGo (d : Decoder) (wcrc : Option Nat) : Decoder := { d with d := decRun d.lb d.space d.input wcrc d.d }

/-- The Waybill's CRC of the chunk that a decoder's Bale stores. -/
def compareCrc (s : State) (d : Decoder) : Option Nat :=
  match chunkById s d.chunk with
  | some c => (chunkOf s c.no).map fun e => numAt e.waybill 0x2C 4
  | none => none

/-- Change the decoder of an engine and let it go on. -/
def feedDecoder (n : Nat) (f : Decoder → Decoder) (s : State) : State :=
  match s.bal.decoders.find? fun d => d.engine == n && d.d.result.isNone with
  | none => s
  | some d =>
    let e := decGo (f d) (compareCrc s d)
    let b := { s.bal with decoders := modFirst (fun x => x.engine == n) (fun _ => e) s.bal.decoders }
    match e.d.result with
    | some st => { s with bal := countDecode st b }
    | none => { s with bal := b }

/-- DECODE_OUTPUT_FRAGMENT (R161): output space is added. -/
def execDecodeOutputFragment (engine : Fin 32) (len : Nat) (s : State) : Res :=
  run (.decodeOutputFragment engine len) (feedDecoder engine.val fun d => { d with space := d.space + len }) s

/-- DECODE_INPUT_FRAGMENT (R161): more of the Bale has arrived. -/
def execDecodeInputFragment (engine : Fin 32) (data : Bytes) (s : State) : Res :=
  run (.decodeInputFragment engine data) (feedDecoder engine.val fun d => { d with input := (d.input ++ data).take d.lb }) s

/-! ### Engines -/

def engineOf (s : State) (k : EngClass) (n : Nat) : Engine :=
  (s.bal.engines.find? fun e => e.k == k && e.n == n).getD ⟨k, n, false, 0, false, false⟩

def putEngine (e : Engine) (s : State) : State :=
  { s with bal := { s.bal with engines := (s.bal.engines.filter fun x => !(x.k == e.k && x.n == e.n)) ++ [e] } }

/-- DECODE_SUSPEND_TIMEOUT (R162): the job is abandoned and counted, the engine is free, and the consumer runs the decode
again from the first byte. -/
def decodeSuspendTimeoutEffect (n : Nat) (s : State) : State :=
  match s.bal.decoders.find? fun d => d.engine == n && d.d.result.isNone with
  | none => s
  | some _ =>
    let t := { s with bal := { s.bal with
      decoders := without (fun x => x.engine == n) s.bal.decoders, decRestart := (s.bal.decRestart + 1) % 2 ^ 64 } }
    startWaiting (startDueTest .decompressor n t)

def execDecodeSuspendTimeout (engine : Fin 32) (s : State) : Res :=
  run (.decodeSuspendTimeout engine) (decodeSuspendTimeoutEffect engine.val) s

/-- Does an engine hold a job: a decode, or a run that it cuts? The other classes do a job within one command. -/
def holdsJob (s : State) (k : EngClass) (n : Nat) : Bool :=
  (k == .decompressor && s.bal.decoders.any fun d => d.engine == n) || (k == .chunker && s.ing.runs.any fun r => r.chunker == some n)

/-- A test has ended: an engine of the class that is due and idle is tested next, and comparisons that wait for an engine start. -/
def afterTest (k : EngClass) (s : State) : State :=
  startWaiting (match s.bal.engines.find? fun e => e.k == k && e.due && !holdsJob s k e.n with
    | some e => startDueTest k e.n s
    | none => s)

/-- ENGINE_SELFTEST_DUE (R141, R164, R188): one engine of a class at a time; an engine first completes the job it holds. -/
def engineSelftestDueEffect (k : EngClass) (n : Nat) (s : State) : State :=
  let e := engineOf s k n
  if e.out || asleep s || engineTesting s k || decide (engineCount k ≤ n) then s
  else if holdsJob s k n then putEngine { e with due := true } s
  else putEngine { e with testing := true } s

def execEngineSelftestDue (k : EngClass) (n : Fin 32) (s : State) : Res :=
  run (.engineSelftestDue k n) (engineSelftestDueEffect k n.val) s

/-- The block that records an engine's events. -/
def engineBlk : EngClass → Blk
  | .decompressor => .bal
  | .xts => .sec
  | _ => .ing

def engineNo : EngClass → Nat
  | .chunker => 0 | .fingerprint => 1 | .compressor => 2 | .decompressor => 3 | .xts => 4

/-- The Critical event when a class has no engine left in service (R142, R164, R188); chunks are then stored raw where it
is the compressors. -/
def classLost (k : EngClass) (s : State) : State :=
  if allOut s k && k != .compressor then raise (engineBlk k) .critical 142 2 [engineNo k] s else s

/-- ENGINE_SELFTEST_DONE (R142): a failed engine leaves service with a Fault event; a passed retest returns it with a Notice
event; a failed retest leaves it out. -/
def engineSelftestDoneEffect (k : EngClass) (n : Nat) (pass : Bool) (s : State) : State :=
  let e := engineOf s k n
  if !e.testing then s
  else if pass then
    let t := putEngine { e with testing := false, out := false, failed := 0 } s
    if e.out then raise (engineBlk k) .notice 142 1 [engineNo k, n] t else t
  else if e.out then putEngine { e with testing := false, failed := 2 } s
  else
    let t := putEngine { e with testing := false, out := true, failed := 1 } s
    classLost k (raise (engineBlk k) .fault 142 0 [engineNo k, n] t)

def execEngineSelftestDone (k : EngClass) (n : Fin 32) (pass : Bool) (s : State) : Res :=
  run (.engineSelftestDone k n pass) (fun t => onlyIf (engineOf t k n.val).testing (afterTest k) (engineSelftestDoneEffect k n.val pass t)) s

/-- ENGINE_RETEST_EXPIRY (R142): the one retest, 1 s after the failure. -/
def engineRetestExpiryEffect (k : EngClass) (n : Nat) (s : State) : State :=
  let e := engineOf s k n
  if e.out && e.failed == 1 && !e.testing then putEngine { e with testing := true } s else s

def execEngineRetestExpiry (k : EngClass) (n : Fin 32) (s : State) : Res :=
  run (.engineRetestExpiry k n) (engineRetestExpiryEffect k n.val) s

end Sys2Proof.Machine
end

