-- ==== Sys2Proof/Machine/Formats.lean ====
section
/-! DEFINITION. The bytes of the structures of the on-media format that live in metadata objects: the object kinds, map and
chunk-table entries (R202, R203), the namespace, segment, container and hook tables, job checkpoints (R273), snapshot descriptors and
replication records (R309), and the checkpoint header (R297). -/

namespace Sys2Proof.Machine

/-! ### Object kinds (R289 to R291) -/

/-- The directory tree's number. The spec numbers no tree for the settlement log (DESIGN CHOICE: 6). -/
def treeNo (key : Nat) : Nat :=
  match keyKind key with
  | 2 => 0 | 3 => 1 | 8 => 2 | 6 => 3 | 5 => 4 | 14 => 5 | _ => 6

/-- Original bytes of an object: pages have their full size. -/
def objSize (o : ObjRec) : Nat :=
  if o.level ≠ 0 then 16384
  else match keyKind o.nsid with
    | 7 | 9 | 11 | 12 => o.body.length
    | 14 => 4096
    | _ => 16384

def objData (o : ObjRec) : Bytes := padTo (objSize o) o.body

/-- Granules of an object's RAW Bale. -/
def objGranules (o : ObjRec) : Nat := granulesOf (objSize o + 12)

/-- OBJECT of the Waybill, as the object kinds table gives it. -/
def objNumber (o : ObjRec) : Nat :=
  if o.level ≠ 0 then treeNo o.nsid <<< 56 + o.level <<< 48 + o.page
  else if o.nsid = 0 then (o.page / 2 ^ 37) <<< 47 + o.page % 2 ^ 37 else o.page

/-- The Waybill of a metadata object, never encrypted or sealed (R289, R290). -/
def objWaybill (o : ObjRec) : Bytes :=
  closeWaybill (leBytes 2 0x57B1 ++ [3, BitVec.ofNat 8 (if o.level ≠ 0 then 4 else keyKind o.nsid), 0, 3] ++ leBytes 2 o.granules
    ++ leBytes 4 (objSize o + 12) ++ leBytes 4 (objSize o) ++ leBytes 2 0 ++ leBytes 2 (o.nsid % 16384) ++ leBytes 2 unencrypted ++ zeros 2
    ++ leBytes 8 (objNumber o) ++ padTo 12 o.serial ++ leBytes 4 (crc32c (objData o)) ++ zeros 64 ++ leBytes 4 o.seconds ++ zeros 8)

/-- The Waybill under a new chunk number (R292). An older form is written in version 3 form, with ORIGIN the old version and FIRST_LBA as
given; a version 1 Waybill carries nothing from its WCRC at 0x3C on (R305, R306). -/
def rewriteWaybill (no nsid dom key first : Nat) (w : Bytes) : Bytes :=
  let f := numAt w 2 1
  let w := if f = 1 then padTo 128 (bytesAt w 0 0x3C) else padTo 128 w
  let v := putAt (putAt (putAt (putAt w 0x18 (leBytes 8 no)) 0x12 (leBytes 2 nsid)) 0x10 (leBytes 2 dom)) 0x14 (leBytes 2 key)
  if f = 3 then closeWaybill v
  else closeWaybill (putAt (putAt (putAt (putAt v 2 [3]) 5 [BitVec.ofNat 8 f]) 0x70 (leBytes 4 0)) 0x74 (leBytes 8 first))

/-! ### Entries of the maps and tables -/

/-- Bytes of up to `n` entries of `w` bytes, up to the last that is there. -/
def entryBytes (n w : Nat) (f : Nat → Option Bytes) : Bytes :=
  let last := (List.range n).foldl (fun m i => if (f i).isSome then i + 1 else m) 0
  (List.range last).flatMap fun i => (f i).getD (zeros w)

/-- A logical-to-chunk entry (R202). -/
def mapEntryBytes (m : MapEntry) : Bytes := leBytes 2 m.gen.toNat ++ leBytes 6 m.chunkB ++ leBytes 2 m.offA ++ leBytes 6 m.chunkA

def chunkStCode : ChunkSt → Nat
  | .placing => 1 | .live => 2 | .dead => 3

/-- A chunk table entry (R203). -/
def chunkEntryBytes (e : ChunkEnt) : Bytes :=
  leBytes 16 (e.refs <<< 96 + e.seg <<< 64 + e.stripe <<< 48 + e.strip <<< 43 + e.gran <<< 36 + e.granules <<< 28 + (e.len - 1) <<< 12
    + chunkStCode e.st <<< 8)

/-- A namespace table entry; MAP_DEPTH, MAP_ROOT and SNAP_ROOT are given. -/
def nsEntryBytes (s : State) (n : Ns) (depth root snapRoot : Nat) : Bytes :=
  withCrc (leBytes 2 (n.id + 2 ^ 15) ++ leBytes 2 n.tenant ++ leBytes 2 (domainOf s n.tenant) ++ leBytes 2 (n.keySlot.getD unencrypted)
    ++ leBytes 4 n.mode.toNat ++ leBytes 1 depth ++ leBytes 1 (flag n.owner 0) ++ zeros 2 ++ leBytes 8 n.size ++ leBytes 8 root
    ++ leBytes 8 snapRoot ++ zeros 20)

def segStCode : SegState → Nat
  | .free => 0 | .open_ => 1 | .closing => 2 | .closed => 3 | .reclaiming => 4 | .draining => 5 | .dirty => 6 | .retired => 7

def memberBytes (m : Member) : Bytes := leBytes 1 m.lane ++ leBytes 1 m.plane ++ leBytes 2 m.die ++ leBytes 4 m.block

/-- STREAM of a segment header and of a segment table entry. -/
def streamByte (x : StreamId) : Nat := x.kind.val + flag x.reclaim 7

/-- A segment table entry. -/
def segEntryBytes (g : Seg) : Bytes :=
  withCrc (padTo 0xFC (leBytes 4 g.no ++ leBytes 1 (segStCode g.st) ++ leBytes 1 (flag g.q 0 + flag g.slc 1) ++ leBytes 1 g.d
    ++ leBytes 1 g.members.length ++ leBytes 2 g.layout ++ leBytes 1 (streamByte g.stream) ++ zeros 1 ++ leBytes 4 g.closedAt
    ++ g.members.flatMap memberBytes))

/-- A container on media: its header and its entries (R130). -/
def containerBytes (s : State) (k : Container) : Bytes :=
  withCrc (padTo 0x3C (leBytes 4 0xC0B70003 ++ leBytes 2 3 ++ leBytes 2 k.entries.length
    ++ leBytes 8 (k.no % 2 ^ 40 + flag s.glb.headId 47) ++ leBytes 2 k.domain ++ leBytes 2 k.nsid ++ leBytes 4 (nowS s)))
    ++ k.entries.flatMap fun e => padTo 32 e.fp ++ leBytes 6 e.chunk ++ leBytes 2 e.keyInfo

/-- A hook table entry; the model keeps no replacement age (R137 replaces by container number). -/
def hookBytes (h : Hook) : Bytes := leBytes 8 (h.container % 2 ^ 40 * 2 ^ 12 + h.domain % 4096 * 2 ^ 52) ++ padTo 8 h.fpPart

/-- The place `i` of the hook table: 4 places for each bucket. -/
def hookAt (s : State) (i : Nat) : Option Hook := (s.ing.hooks.filter fun h => h.bucket == i / 4)[i % 4]?

/-- A settlement log entry, as a query reports it. -/
def settleBytes (e : Settle) : Bytes := leBytes 8 e.tag.toNat ++ [BitVec.ofNat 8 e.outcome.val, 0] ++ leBytes 2 e.nsid ++ leBytes 4 e.count

/-! ### Job checkpoints (R273) -/

/-- The lanes of a mask, as the number whose bit n is lane n. -/
def lanesWord (l : List Nat) : Nat := l.foldl (fun m n => m ||| 2 ^ n) 0

/-- The 64 bytes of a job checkpoint (R273). -/
def ckptBytes (c : JobCkpt) : Bytes :=
  withCrc (leBytes 4 0x9640A2C7 ++ [c.kind, c.phase] ++ leBytes 2 c.epoch.toNat ++ leBytes 8 c.sequence
    ++ leBytes 1 (flag c.leader 0) ++ [c.slot] ++ leBytes 2 c.layoutFrom.toNat ++ leBytes 2 c.layoutTo.toNat
    ++ leBytes 2 c.die.toNat ++ leBytes 12 (lanesWord c.lanes) ++ leBytes 4 c.cursor ++ leBytes 4 c.done
    ++ leBytes 8 c.granules ++ leBytes 4 c.seconds ++ zeros 4)

/-! ### Snapshots and sessions (R309, R320) -/

def snapCode : SnapSt → Nat
  | .pending => 1 | .complete => 2 | .deleting => 3

/-- The 128 bytes of a snapshot descriptor; MAP_DEPTH and MAP_ROOT are given. -/
def descBytes (x : Snap) (depth root : Nat) : Bytes :=
  withCrc (leBytes 2 0x5A9D ++ [3, BitVec.ofNat 8 (snapCode x.st)] ++ leBytes 4 x.seq ++ leBytes 2 (x.group.getD 0xFFFF)
    ++ leBytes 2 (flag x.exposed.isSome 0 + flag x.replica 1 + flag x.base 2) ++ leBytes 4 x.seconds ++ leBytes 4 x.cycles
    ++ leBytes 1 depth ++ [0] ++ leBytes 2 (x.exposed.getD 0) ++ leBytes 8 root
    ++ leBytes 8 x.cgSeq ++ padTo 16 x.srcArray ++ leBytes 4 x.srcSeq ++ leBytes 2 x.srcNsid ++ [0, 0] ++ padTo 32 x.label ++ zeros 28)

def replRoleCode : ReplRole → Nat
  | .source => 1 | .target => 2 | .ingest => 3

def replStCode : ReplSt → Nat
  | .idle => 0 | .sending => 1 | .suspended => 2 | .faulted => 3

/-- The 128 bytes of a namespace's replication record. -/
def replBytes (o : Option Sess) : Bytes :=
  match o with
  | some x =>
    withCrc (leBytes 2 0x5A9E ++ [3, BitVec.ofNat 8 (replRoleCode x.role), BitVec.ofNat 8 (replStCode x.st), 0, 0, 0]
      ++ leBytes 8 x.session.toNat ++ padTo 48 x.pairing ++ leBytes 4 x.baseSeq ++ leBytes 4 x.sendSeq ++ leBytes 4 x.nextBatch
      ++ zeros 4 ++ leBytes 8 x.nextLba ++ leBytes 8 x.bytes ++ zeros 28)
  | none => withCrc (padTo 124 (leBytes 2 0x5A9E ++ [3]))

/-! ### Archive objects (R300, R301) -/

/-- The SEQ that a record's bytes carry. -/
def recSeq (b : Bytes) : Nat := numAt b 0 8

/-- CHAIN of an archive object: SHA-384 over the previous CHAIN and the records. -/
def nextChain (prev : Bytes) (l : List Bytes) : Bytes := sha384 (prev ++ l.flatten)

/-- An event archive object: its header, with the locator of the object before it, and its records. -/
def archiveBytes (prev : Nat) (chain : Bytes) (l : List Bytes) : Bytes :=
  padTo 128 (leBytes 4 0xE7A70003 ++ leBytes 2 3 ++ leBytes 2 l.length ++ leBytes 8 ((l.head?.map recSeq).getD 0)
    ++ leBytes 8 ((l.getLast?.map recSeq).getD 0) ++ leBytes 8 prev ++ padTo 48 chain ++ nextChain chain l)
    ++ l.flatMap (padTo 64)

end Sys2Proof.Machine
end

