-- ==== Sys2Proof/Machine/Media.lean ====
section
/-! DEFINITION. Maps and their publication (R202, R206, R310), packing and programming of stripes (R207, R208, R261 to R263,
R289), segments (R209 to R220, R264), and the suspend rules (R221). -/

namespace Sys2Proof.Machine

/-! ### Publication (R202, R206, R139, R310) -/

/-- Records that one map journal holds (R201): 256 MiB of 32-byte records. -/
def journalCap : Nat := 8388608

/-- A page of a live tree names a new object. -/
def freshPage (nsid level page : Nat) (s : State) : State :=
  { s with med := { s.med with
    pages := (s.med.pages.filter fun p => !(p.nsid == nsid && p.page == page && p.level == level)) ++ [⟨nsid, page, s.med.nextObj, level⟩],
    nextObj := s.med.nextObj + 1 } }

/-- The page of a namespace's live tree goes to an object of its own before it changes: a new page, or one that a snapshot
also names, whose entries then take their own references (R310), or one that is on media, whose next version is a new object (R298). -/
def ownPage (nsid page : Nat) (s : State) : State :=
  match pageObjOf s nsid page with
  | none => freshPage nsid 0 page s
  | some o =>
    if pageShared s nsid page then
      freshPage nsid 0 page (forEach (s.med.maps.filter fun m => m.nsid == nsid && pageOf m.lba == page)
        (fun m t => raiseRef m.chunkB 1 (raiseRef m.chunkA 1 t)) s)
    else if (recOf s o).isSome then freshPage nsid 0 page s
    else s

/-- One map entry takes the place of the block's entry, in the cached page and in the active journal; the references of the
entry it replaces are dropped. -/
def putEntry (m : MapEntry) (s : State) : State :=
  let t := ownPage m.nsid (pageOf m.lba) s
  let t := match mapEntryOf t m.nsid m.lba with
    | some o => dropEntries [o] t
    | none => t
  let p := (m.nsid, pageOf m.lba)
  let t := { t with med := { t.med with
    maps := (t.med.maps.filter fun x => !(x.nsid == m.nsid && x.lba == m.lba)) ++ [m], journal := t.med.journal ++ [m],
    dirty := if p ∈ t.med.dirty then t.med.dirty else t.med.dirty ++ [p] } }
  touchPage p t

/-- The chunk of a run that holds a byte of it, with its number. -/
def chunkAt (l : List Chunk) (o : Nat) : Option Chunk := l.find? fun c => decide (c.off ≤ o) && decide (o < c.off + c.data.length)

/-- The map entry of block `i` of a run (R202). -/
def entryOf (r : Run) (l : List Chunk) (i : Nat) : MapEntry :=
  let o := 4096 * i
  let g := r.gens.getD i 0
  match chunkAt l o with
  | some a =>
    let b := if a.off + a.data.length < o + 4096 then
        (match chunkAt l (a.off + a.data.length) with
          | some x => x.no
          | none => 0)
      else 0
    ⟨r.nsid, r.lba + i, a.no, o - a.off, b, g⟩
  | none => ⟨r.nsid, r.lba + i, 0, 0, 0, g⟩

/-- Is every chunk of a run placed (R140)? -/
def runPlaced (s : State) (r : Run) : Bool :=
  r.dealloc ||
    (decide (r.data.length ≤ r.pos)
      && (chunksOfRun s r.id).all fun c => c.stage == .live && (match chunkOf s c.no with
        | some e => e.st == .live
        | none => false))

/-- The entries of a run leave staging, and mirror entries that its generations cover leave the mirror area of a survivor
(R118, R122). -/
def releaseRun (r : Run) (s : State) : State :=
  let t := forEach (s.ing.staging.filter fun e => e.run == some r.id) (fun e u => if e.void.isSome then endVoid e u else releaseEntry e u) s
  if r.fromMirror then
    { t with ing := { t.ing with mirror := t.ing.mirror.filter fun m =>
      !(m.nsid == r.nsid && decide (r.lba ≤ m.lba) && decide (m.lba < r.lba + r.n)
        && genAtOrBelow m.gen (r.gens.getD (m.lba - r.lba) 0)) } }
  else t

/-- One block of a run is published, unless its write was taken back (R72) or the map holds a higher generation (R119): then the
references of its entry are dropped. -/
def publishBlock (r : Run) (l : List Chunk) (i : Nat) (s : State) : State :=
  let m := entryOf r l i
  let void := s.ing.staging.any fun e => e.run == some r.id && e.lba == m.lba && e.void.isSome
  if void || (mapEntryOf s m.nsid m.lba).any (fun o => genHigher o.gen m.gen) then dropEntries [m] s else putEntry m s

/-! ### Layouts and segments -/

/-- The layout slot of a stream (R260). -/
def slotOfStream (s : State) (x : StreamId) : Layout :=
  if x.kind = 4 then s.par.archive else if x.kind = 5 then s.par.metadata else s.par.ordinary

def modSlot (x : StreamId) (f : Layout → Layout) (s : State) : State :=
  if x.kind = 4 then { s with par := { s.par with archive := f s.par.archive } }
  else if x.kind = 5 then { s with par := { s.par with metadata := f s.par.metadata } }
  else { s with par := { s.par with ordinary := f s.par.ordinary } }

/-- LIVE chunks whose place is in a segment. -/
def liveIn (s : State) (no : Nat) : List ChunkEnt := s.med.chunks.filter fun e => e.seg == no && e.st == .live && decide (0 < e.granules)

/-- Valid granules of a segment. -/
def validGranules (s : State) (no : Nat) : Nat := sumBy (·.granules) (liveIn s no)

/-- Does nothing that is kept stand in a segment: LIVE Bales, copies on their way into it, and metadata objects (R213, R298)? -/
def segEmpty (s : State) (no : Nat) : Bool :=
  (liveIn s no).isEmpty && !(s.med.copies.any fun c => c.seg == no) && !(s.med.objs.any fun o => o.seg == no)

/-- The level of R215: 0 from 10 % up, then background, urgent and stopped. -/
def spaceLevel (permille : Nat) : Nat :=
  if 100 ≤ permille then 0 else if 40 ≤ permille then 1 else if 10 ≤ permille then 2 else 3

/-- F is taken again: a Notice event for each threshold crossed downward, and a Fault event at 1 % (R215). -/
def noteSpace (s : State) : State :=
  let n := spaceLevel (freePermille s)
  let t := { s with med := { s.med with level := n } }
  forEach ((List.range 3).filter fun k => decide (s.med.level ≤ k) && decide (k < n)) (fun k u =>
    if k = 2 then raise .med .fault 215 1 [freePermille s] u else raise .med .notice 215 0 [k + 1, freePermille s] u) t

/-- A segment with no LIVE Bale left drains (R213, R214). -/
def drainIfEmpty (no : Nat) (s : State) : State :=
  match segOf s no with
  | some g => if g.st == .reclaiming && segEmpty s no then modSeg no (fun x => { x with st := .draining }) s else s
  | none => s

/-- The member blocks at some positions of a segment are retired: each stays until the segment has drained, and a spare takes its
place then (R212 and the segment states). Where the module has no block left and the segment is not CLOSED, the member is missing (R265). -/
def retireBlocks (no : Nat) (ps : List Nat) (s : State) : State :=
  let bare := fun (g : Seg) (p : Nat) => g.st != .closed && (g.members[p]?).any fun m => freeBlocks s m.lane == 0
  let t := modSeg no (fun g => { g with
    retired := g.retired + ps.length, badAt := ps.foldl (fun a p => insertNat p a) g.badAt,
    missing := (ps.filter (bare g)).foldl (fun a p => insertNat p a) g.missing }) s
  { t with med := { t.med with blocksRet := (t.med.blocksRet + ps.length) % 2 ^ 64 } }

/-- The accumulators of a list of blocks are freed (R212). -/
def freeAccs (l : List Member) (s : State) : State :=
  { s with med := { s.med with accs := s.med.accs.filter fun a => !(a.block ∈ l) } }

/-! ### Stripes (R207, R208, R289) -/

/-- Granules of the Waybill area of a stripe of `n` Bales. -/
def waybillGranules (n : Nat) : Nat := (n + 4) / 4

/-- Does one more Bale of `g` granules fit before the Waybill area? -/
def fits (d : Nat) (t : Stripe) (g : Nat) : Bool :=
  decide (t.next + g + waybillGranules (t.bales.length + 1) ≤ 128 * d) && decide (t.bales.length < 511)

def openSegOf (s : State) (x : StreamId) : Option Seg := s.med.segs.find? fun g => g.st == .open_ && g.stream == x

def openStripe (s : State) (x : StreamId) : Option Stripe := s.med.stripes.find? fun t => t.stream == x && !t.closed

/-- The segment header in Waybill slot 0 of a stripe (R289). -/
def stripeHeader (s : State) (g : Seg) (t : Stripe) : Bytes :=
  withCrc (padTo 0x7C (leBytes 2 0x57B1 ++ leBytes 1 3 ++ leBytes 1 0 ++ leBytes 4 g.no ++ leBytes 2 t.stripe ++ leBytes 2 g.layout
    ++ leBytes 1 g.d ++ leBytes 1 (flag g.q 0 + flag g.slc 1 + flag s.glb.headId 2)
    ++ leBytes 1 (streamByte g.stream) ++ leBytes 1 0 ++ leBytes 2 t.bales.length
    ++ leBytes 2 s.peer.epoch.toNat
    ++ leBytes 4 (match g.members with
      | m :: _ => (laneOf s m.lane).claim.toNat
      | [] => 0)
    ++ leBytes 8 s.med.writeSeq ++ leBytes 4 (stampSeconds s).toNat ++ leBytes 4 (stampCycles s).toNat
    ++ padTo 26 (g.members.map (fun m => BitVec.ofNat 8 m.lane) ++ List.replicate 26 0xFF)))

/-- A stripe names chunks by their number, and metadata objects by their number above every chunk number. -/
def objMark : Nat := 2 ^ 48

def objOfMark (s : State) (n : Nat) : Option ObjRec := if n < objMark then none else recOf s (n - objMark)

def baleAtMark (s : State) (n : Nat) : Option (Nat × Bytes × Bytes) :=
  if n < objMark then (chunkOf s n).map fun e => (e.granules, e.stored, e.waybill)
  else (objOfMark s n).map fun o => (o.granules, rawBale (objData o), objWaybill o)

/-- The data bytes of a stripe: its Bales from granule 0 up, zeros, and the Waybill area at the end of the last strip, slot 0
last (R207, R263, R289). -/
def stripeImage (s : State) (g : Seg) (t : Stripe) : Bytes :=
  let es := t.bales.filterMap (baleAtMark s)
  let bales := es.flatMap fun e => padTo (512 * e.1) e.2.1
  let slots := (stripeHeader s g t :: es.map fun e => padTo 128 e.2.2).reverse.flatten
  padTo (65536 * g.d - slots.length) bales ++ slots

/-- Data strip `d`, and the parity strips (R262). -/
def dataStrip (img : Bytes) (d : Nat) : Bytes := bytesAt img (65536 * d) 65536
def stripP (img : Bytes) (n : Nat) : Bytes := (List.range n).foldl (fun a d => xorBytes a (dataStrip img d)) (zeros 65536)
def stripQ (img : Bytes) (n : Nat) : Bytes :=
  (List.range n).foldl (fun a d => xorBytes a (gfScale (gfPow d) (dataStrip img d))) (zeros 65536)

/-- The strip that stands at a position of stripe `k`. -/
def stripAt (g : Seg) (k : Nat) (img : Bytes) (p : Nat) : Bytes :=
  let w := g.members.length
  if p = posP w k then stripP img g.d
  else if g.q && p == posQ w k then stripQ img g.d
  else
    match (List.range g.d).find? fun d => posD w k d g.q == p with
    | some d => dataStrip img d
    | none => []

/-- A page joins the accumulator of its position in the word line, page number modulo b (R211). -/
def accPages (b page : Nat) (d : Bytes) (l : List Bytes) : List Bytes :=
  (List.range b).map fun j =>
    let a := l.getD j []
    if j ≠ page % b then a else if a.isEmpty then d else xorBytes a d

def accumulate (m : Member) (page : Nat) (d : Bytes) (s : State) : State :=
  let b := (laneOf s m.lane).info.bits
  let l := match s.med.accs.find? fun a => a.block == m with
    | some a => a.pages
    | none => []
  { s with med := { s.med with accs := (s.med.accs.filter fun a => a.block != m) ++ [⟨m, accPages b page d l⟩] } }

/-- The four pages of one member of a stripe are programmed; those of a dense block join its accumulators. -/
def programMember (g : Seg) (k : Nat) (strip : Bytes) (m : Member) (s : State) : State :=
  forEach (List.range 4) (fun j t =>
    let d := bytesAt strip (16384 * j) 16384
    let u := if g.slc then t else accumulate m (4 * k + j) d t
    farSend m.lane ⟨0x11, g.slc, m.die, m.block, 4 * k + j, 2 ^ m.plane, 0, 0, d⟩ u) s

/-- A stripe closes, and its data and parity strips are programmed (R207, R208, R263). -/
def closeStripe (t : Stripe) (s : State) : State :=
  let u := { s with med := { s.med with
    stripes := modFirst (fun x => x.seg == t.seg && x.stripe == t.stripe) (fun x => { x with closed := true }) s.med.stripes,
    writeSeq := s.med.writeSeq + 1 } }
  match segOf s t.seg with
  | none => u
  | some g =>
    let img := stripeImage s g t
    forEach ((List.range g.members.length).zip g.members) (fun pm v => programMember g t.stripe (stripAt g t.stripe img pm.1) pm.2 v) u

/-- The number of the next stripe of a segment: those programmed and those assembled. -/
def nextStripe (s : State) (g : Seg) : Nat := g.stripes + (s.med.stripes.filter fun t => t.seg == g.no).length

/-- The stripe that takes a Bale of `g` granules of a stream: the open one, closed first when the Bale does not fit, or the
next stripe of the open segment; none while the stream has no segment with room, or no stripe buffer is free (R201). -/
def stripeFor (x : StreamId) (n : Nat) (s : State) : Option Stripe × State :=
  match openSegOf s x with
  | none => (none, s)
  | some g =>
    let s := match openStripe s x with
      | some t => if fits g.d t n then s else closeStripe t s
      | none => s
    match openStripe s x with
    | some t => (some t, s)
    | none =>
      let k := nextStripe s g
      if k < g.capacity ∧ s.med.stripes.length < s.med.areas.buffers then
        let t : Stripe := ⟨x, g.no, k, 0, [], false⟩
        (some t, { s with med := { s.med with stripes := s.med.stripes ++ [t] } })
      else (none, s)

/-- A Bale of `n` granules is appended to a stripe's buffer. -/
def appendTo (mark n : Nat) (t : Stripe) (s : State) : State :=
  { s with med := { s.med with
    stripes := modFirst (fun x => x.seg == t.seg && x.stripe == t.stripe)
      (fun x => { x with next := x.next + n, bales := x.bales ++ [mark] }) s.med.stripes } }

/-- Put `n` granules of chunk `no` at the next place of a stripe. -/
def placeAt (no n : Nat) (t : Stripe) (s : State) : State :=
  modEnt no (fun e => { e with seg := t.seg, stripe := t.stripe, strip := t.next / 128, gran := t.next % 128, granules := n })
    (appendTo no n t s)

/-- Has reclamation Bales to move? -/
def reclaimWork (s : State) : Bool := s.med.segs.any fun g => g.st == .reclaiming && !segEmpty s g.no

/-- Has a rebuild Bales to move? -/
def rebuildWork (s : State) : Bool :=
  (s.par.jobs.any fun j => j.kind == .rebuild)
    && s.med.segs.any fun g => g.missing ≠ [] && (g.st == .reclaiming || s.med.relocating.any fun p => p.2 == g.no)

/-- Does relocation claim half of the modules' program time: reclamation while F is below 4 % (R215), or a rebuild (R271)? -/
def halfTime (s : State) : Bool := (decide (2 ≤ s.med.level) && reclaimWork s) || rebuildWork s

/-- Then host data gets no more of the modules' program time than relocation; a stripe takes the same time of each of its members'
modules. -/
def hostWaits (s : State) : Bool := halfTime s && decide (s.med.urgReclaim < s.med.urgHost)

/-- The stream of a namespace's data (R208, R428). -/
def hostStream (s : State) (nsid : Nat) : StreamId := if bitOf (modeOf s nsid) 7 then ⟨4, false⟩ else ⟨0, false⟩

/-- BALE_APPEND (R207, R208): a Bale goes into its stream's stripe buffer; it waits while the stream has no segment with
room, and while host data has had its share of program time (R215). -/
def baleAppendEffect (id : Nat) (s : State) : State :=
  match chunkById s id with
  | none => s
  | some c =>
    if c.stage != .stored || asleep s || hostWaits s then s
    else
      let n := granulesOf c.bale.length
      let p := stripeFor (hostStream s c.nsid) n s
      match p.1 with
      | none => p.2
      | some t =>
        let u := modEnt c.no (fun e => { e with stored := c.stored, waybill := c.waybill }) (placeAt c.no n t p.2)
        modChunk id (fun x => { x with stage := .placing }) u

def execBaleAppend (chunk : Nat) (s : State) : Res := run (.baleAppend chunk) (baleAppendEffect chunk) s

/-! ### Copies out of a segment (R213, R216) -/

/-- Where a Bale that moves out of a segment goes (R216, R208): the next ordinary class, dense class 1 out of SLC, and the
archive stream's own destination. -/
def relocStream (g : Seg) : StreamId :=
  if g.stream.kind.val < 4 then (if g.slc then ⟨1, true⟩ else ⟨⟨min (g.stream.kind.val + 1) 3, by omega⟩, true⟩)
  else ⟨g.stream.kind, true⟩

/-- Is a chunk one that is being relocated out of its segment? -/
def relocates (s : State) (e : ChunkEnt) : Bool :=
  (e.no, e.seg) ∈ s.med.relocating || (match segOf s e.seg with
    | some g => g.st == .reclaiming
    | none => false)

def copyOf (s : State) (no : Nat) : Option Copy := s.med.copies.find? fun c => c.no == no

/-- The location that a chunk's entry names. -/
def placeOf (e : ChunkEnt) : Nat × Nat × Nat := (e.seg, e.stripe, 128 * e.strip + e.gran)

/-- A LIVE Bale's stored granules and Waybill are copied, unchanged, into the buffer of its destination stream (R213); it waits while
that stream has no room. -/
def startCopy (e : ChunkEnt) (s : State) : State :=
  match segOf s e.seg with
  | none => s
  | some g =>
    if e.st != .live || !relocates s e || (copyOf s e.no).isSome then s
    else
      let p := stripeFor (relocStream g) e.granules s
      match p.1 with
      | none => p.2
      | some t =>
        let u := appendTo e.no e.granules t p.2
        { u with med := { u.med with copies := u.med.copies ++ [⟨e.no, placeOf e, t.seg, t.stripe, t.next, false⟩] } }

/-- The copies that wait for a place. -/
def startCopies (s : State) : State :=
  forEach (s.med.chunks.filter fun e => e.st == .live && relocates s e && (copyOf s e.no).isNone) startCopy s

/-- Relocate a chunk out of a segment that stays as it is. -/
def alsoRelocate (nos : List Nat) (seg : Nat) (s : State) : State :=
  startCopies { s with med := { s.med with relocating := nos.foldl (fun l n => if (n, seg) ∈ l then l else l ++ [(n, seg)]) s.med.relocating } }

def dropReloc (no : Nat) (s : State) : State :=
  { s with med := { s.med with relocating := s.med.relocating.filter (fun p => p.1 != no), copies := s.med.copies.filter fun c => c.no != no } }

/-- A segment is given to reclamation: the copies out of it begin, and no accumulators are kept for it any longer. -/
def reclaimSeg (no : Nat) (s : State) : State :=
  let t := match segOf s no with
    | some g => freeAccs g.members s
    | none => s
  startCopies (drainIfEmpty no (modSeg no (fun g => { g with st := .reclaiming }) t))

/-- Stripe buffers or their segments are gone: the metadata objects in them are not on media, and the checkpoint being written waits to be
written again; copies in them start again. -/
def loseObjects (p : Nat → Nat → Bool) (s : State) : State :=
  let hit := s.med.objs.any fun o => p o.seg o.stripe
  { s with
    med := { s.med with objs := s.med.objs.filter (fun o => !p o.seg o.stripe), copies := s.med.copies.filter fun c => !p c.seg c.stripe },
    til := { s.til with due := s.til.due || (hit && s.til.writing), writing := s.til.writing && !hit } }

/-! ### Metadata objects and the directory trees (R205, R206, R297, R298, R310, R311) -/

/-- A tree: of a namespace (0 the chunk table), or of its snapshot of a number. -/
abbrev TreeKey := Nat × Option Nat

def treeNodes (s : State) (k : TreeKey) : List PageObj :=
  match k.2 with
  | none => s.med.pages.filter fun p => p.nsid == k.1
  | some q =>
    match s.snp.snaps.find? fun x => x.nsid == k.1 && x.seq == q with
    | some x => x.pages.map (fun p => ⟨k.1, p.1, p.2, 0⟩) ++ x.dirs
    | none => []

/-- A tree's node at a level and page names an object. -/
def setNode (k : TreeKey) (level page obj : Nat) (s : State) : State :=
  let put := fun (l : List PageObj) => (l.filter fun p => !(p.nsid == k.1 && p.level == level && p.page == page)) ++ [⟨k.1, page, obj, level⟩]
  match k.2 with
  | none => { s with med := { s.med with pages := put s.med.pages } }
  | some q => { s with snp := { s.snp with
      snaps := modFirst (fun x => x.nsid == k.1 && x.seq == q) (fun x => { x with dirs := put x.dirs }) s.snp.snaps } }

/-- Every tree of the head. -/
def trees (s : State) : List TreeKey :=
  ((s.med.pages.map fun p => p.nsid).eraseDups.map fun n => (n, none)) ++ s.snp.snaps.map fun x => (x.nsid, some x.seq)

/-- The depth of a tree over `k` pages (R297). -/
def treeDepth (k : Nat) : Nat := if k ≤ 2048 then 1 else if k ≤ 2048 ^ 2 then 2 else if k ≤ 2048 ^ 3 then 3 else 4

/-- Pages that an entry span of a tree runs to; the two heads' chunk tables stay apart. -/
def pagesUpTo (s : State) (k : TreeKey) (base : Nat) : Nat :=
  (treeNodes s k).foldl (fun m p => if p.level == 0 && p.page / 2 ^ 37 == base then max m (p.page % 2 ^ 37 + 1) else m) 0

/-- The depth of a tree; objects that are named elsewhere have no directory: containers, checkpoint headers, the key area, archive
objects and job checkpoints. -/
def depthOf (s : State) (k : TreeKey) : Nat :=
  match keyKind k.1 with
  | 2 => (match nsOf s k.1 with
    | some n => treeDepth ((n.size + 1023) / 1024)
    | none => 1)
  | 3 => max (treeDepth (pagesUpTo s k 0)) (treeDepth (pagesUpTo s k 1024))
  | 7 | 9 | 10 | 11 | 12 => 0
  | _ => treeDepth (pagesUpTo s k 0)

/-- The index at level L of what covers a page. -/
def upIndex (page level : Nat) : Nat := page / 2 ^ 37 * 2 ^ 37 + page % 2 ^ 37 / 2048 ^ level

/-- The locator of the node of a tree at a level and page, or one that names nothing. -/
def nodeLocator (s : State) (k : TreeKey) (level page : Nat) : Nat :=
  match (treeNodes s k).find? fun p => p.level == level && p.page == page with
  | some p => objLocator s p.obj
  | none => 0

def rootLocator (s : State) (k : TreeKey) : Nat := nodeLocator s k (depthOf s k) 0

/-- The 128 bytes of a snapshot descriptor; MAP_ROOT is the locator of the tree's root (R297, R311). -/
def snapBytes (s : State) (x : Snap) : Bytes :=
  let k : TreeKey := (x.nsid, some x.seq)
  descBytes x (depthOf s k) (rootLocator s k)

/-- The entries of a tree's map. -/
def treeEntries (s : State) (k : TreeKey) : List MapEntry :=
  match k.2 with
  | none => s.med.maps.filter fun m => m.nsid == k.1
  | some q =>
    match s.snp.snaps.find? fun x => x.nsid == k.1 && x.seq == q with
    | some x => x.tree
    | none => []

/-- The page `page` of a table, by its kind (the object kinds): the tables beside the maps. -/
def tableBody (s : State) (key page : Nat) : Bytes :=
  match keyKind key with
  | 5 => entryBytes 256 64 fun i => (s.hqe.nss.find? fun n => n.id == 256 * page + i).map fun n =>
      let k : TreeKey := (n.id, none)
      nsEntryBytes s n (depthOf s k) (rootLocator s k) (rootLocator s (objKey 14 n.id, none))
  | 6 =>
    let l := s.med.segs.filter fun g => g.no / 64 == page
    entryBytes 64 256 fun i => (l.find? fun g => g.no % 64 == i).map segEntryBytes
  | 7 => (match s.ing.containers.find? fun k => k.no == page with
    | some k => containerBytes s k
    | none => [])
  | 8 => entryBytes 1024 16 fun i => (hookAt s (1024 * page + i)).map hookBytes
  | 10 => (List.range 64).flatMap fun i =>
      let b := tabGet [] (64 * page + i) s.sec.persisted
      if b.isEmpty then keyEntry s none (64 * page + i) else b
  | 12 => (match s.par.ckpts.find? fun c => c.sequence == page with
    | some c => ckptBytes c
    | none => [])
  | 13 => entryBytes 1024 16 fun i => (s.hqe.settle[1024 * page + i]?).map settleBytes
  | 14 =>
    let n := key % 16384
    if page = 32 then replBytes (s.snp.sessions.find? fun x => x.nsid == n)
    else entryBytes 32 128 fun i => ((s.snp.snaps.filter fun x => x.nsid == n)[32 * page + i]?).map (snapBytes s)
  | _ => []

/-- The original bytes of a tree's page: a map page, a chunk-table page, a page of a table, or a directory page (R297). -/
def pageBody (s : State) (k : TreeKey) (level page : Nat) : Bytes :=
  if level ≠ 0 then
    let l := (treeNodes s k).filter fun p => p.level + 1 == level && upIndex p.page 1 == page
    entryBytes 2048 8 fun i => ((l.find? fun p => p.page % 2048 == i).bind fun p => recOf s p.obj).map fun r => leBytes 8 (locator r)
  else if 16384 ≤ k.1 then tableBody s k.1 page
  else if k.1 = 0 then
    let l := s.med.chunks.filter fun e => ctPage e.no == (0, page)
    entryBytes 1024 16 fun i => (l.find? fun e => e.no % 1024 == i).map chunkEntryBytes
  else
    let l := (treeEntries s k).filter fun m => pageOf m.lba == page
    entryBytes 1024 16 fun i => (l.find? fun m => m.lba % 1024 == i).map mapEntryBytes

/-- An object goes to the metadata stream as a RAW Bale (DESIGN CHOICE: the spec gives metadata no effort); it waits while the stream
has no room. -/
def placeObj (x : StreamId) (o : ObjRec) (s : State) : Bool × State :=
  let n := objGranules o
  let p := stripeFor x n s
  match p.1 with
  | none => (false, p.2)
  | some t =>
    let u := appendTo (objMark + o.obj) n t p.2
    (true, { u with med := { u.med with objs := u.med.objs ++ [{ o with seg := t.seg, stripe := t.stripe, gran := t.next, granules := n, stale := false }] } })

/-- Work on a list until one item finds no room. -/
def whileRoom {α : Type} (l : List α) (f : α → State → Bool × State) (a : Bool × State) : Bool × State :=
  l.foldl (fun a x => if a.1 then f x a.2 else a) a

/-- A tree's node is written as object `obj` with a new serial. -/
def writeNode (nsid level page obj : Nat) (body : Bytes) (s : State) : Bool × State :=
  match takeSerial s with
  | none => (false, wantSerials s)
  | some p => placeObj ⟨5, false⟩ ⟨obj, nsid, level, page, p.1, body, nowS s, 0, 0, 0, 0, false⟩ p.2

/-- Level 0: an object that a tree names and that is not on media is written. -/
def writeLeaf (k : TreeKey) (p : PageObj) (s : State) : Bool × State :=
  if (recOf s p.obj).isSome then (true, s) else writeNode k.1 0 p.page p.obj (pageBody s k 0 p.page) s

/-- A page of a table whose bytes have changed is a new object. -/
def renewTable (key page : Nat) (s : State) : State :=
  match (pageObjOf s key page).bind (recOf s) with
  | some r => if r.body == pageBody s (key, none) 0 page then s else freshPage key 0 page s
  | none => if (pageObjOf s key page).isNone then freshPage key 0 page s else s

/-- A new object of a kind that is one object, not a page of a tree; those of the same key that fail `keep` are named no more. -/
def newObject (key page : Nat) (keep : Nat → Bool) (body : Bytes) (s : State) : Bool × State :=
  let t := freshPage key 0 page { s with med := { s.med with pages := s.med.pages.filter fun p => p.nsid != key || keep p.page } }
  writeNode key 0 page s.med.nextObj body t

/-- A directory page of one tree: an object on media with the same bytes serves every tree that has them (R311); otherwise a new one
is written. -/
def writeDir (k : TreeKey) (level page : Nat) (s : State) : Bool × State :=
  let body := pageBody s k level page
  match s.med.objs.find? fun r => !r.stale && r.nsid == k.1 && r.level == level && r.page == page && r.body == body with
  | some r => (true, setNode k level page r.obj s)
  | none =>
    let obj := s.med.nextObj
    let u := writeNode k.1 level page obj body { s with med := { s.med with nextObj := obj + 1 } }
    if u.1 then (true, setNode k level page obj u.2) else u

/-- The pages of a level of a tree. -/
def levelPages (s : State) (k : TreeKey) (level : Nat) : List Nat :=
  (((treeNodes s k).filter fun p => p.level + 1 == level).map fun p => upIndex p.page 1).eraseDups

def writeLevel (l : List TreeKey) (level : Nat) (a : Bool × State) : Bool × State :=
  whileRoom l (fun k s =>
    if depthOf s k < level then (true, s) else whileRoom (levelPages s k level) (writeDir k level) (true, s)) a

/-- A named object in a segment that is being reclaimed moves with its serial (R311); its old place stays until the next checkpoint is
complete (R298). -/
def moveObj (o : ObjRec) (s : State) : Bool × State :=
  let g := fun (r : ObjRec) => r.obj == o.obj && !r.stale
  let p := placeObj ⟨5, true⟩ o { s with med := { s.med with objs := modFirst g (fun r => { r with stale := true }) s.med.objs } }
  if p.1 then p else (false, s)

def objMoves (s : State) : List ObjRec :=
  s.med.objs.filter fun o => !o.stale && keyKind o.nsid != 10 && (match segOf s o.seg with
    | some g => g.st == .reclaiming
    | none => false)

/-- A chunk-table page whose numbers are all issued and whose entries are all DEAD is dropped (R203); none of them is being read,
copied or assembled. -/
def tableDead (s : State) (p : Nat × Nat) : Bool :=
  let l := s.med.chunks.filter fun e => ctPage e.no == p
  l.all (fun e => e.st == .dead) && !(ctPage (newChunkNo s) == p)
    && !(s.bal.readJobs.any fun j => ctPage j.chunk == p) && !(s.med.copies.any fun c => ctPage c.no == p)
    && !(s.med.stripes.any fun t => t.bales.any fun n => decide (n < objMark) && ctPage n == p)

def dropTables (s : State) : State :=
  let dead := ((s.med.chunks.map fun e => ctPage e.no).eraseDups).filter (tableDead s)
  { s with med := { s.med with
    chunks := s.med.chunks.filter (fun e => !(ctPage e.no ∈ dead)),
    pages := s.med.pages.filter (fun p => !(p.nsid == 0 && p.level == 0 && decide ((0, p.page) ∈ dead))),
    cached := s.med.cached.filter (fun p => !(p ∈ dead)), dirty := s.med.dirty.filter fun p => !(p ∈ dead) } }

/-- The pages of the tables, in three stages: what names no object, the snapshot descriptors, which name map trees, and the namespace
table, which names both (R297, R298). -/
def tablePages (s : State) : Nat → List (Nat × Nat)
  | 1 =>
    ((s.med.chunks.map fun e : ChunkEnt => (0, (ctPage e.no).2)) ++ (s.ing.hooks.map fun h : Hook => (objKey 8 0, h.bucket / 256))
      ++ (s.med.segs.map fun g : Seg => (objKey 6 0, g.no / 64))
      ++ ((s.ing.containers.filter fun k : Container => !k.isOpen).map fun k : Container => (objKey 7 k.nsid, k.no))
      ++ (s.par.ckpts.map fun c : JobCkpt => (objKey 12 0, c.sequence))
      ++ (List.range ((s.hqe.settle.length + 1023) / 1024)).map fun j : Nat => (objKey 13 0, j)).eraseDups
  | 2 =>
    (s.hqe.nss.flatMap fun n =>
      let k := (s.snp.snaps.filter fun x => x.nsid == n.id).length
      ((List.range ((k + 31) / 32)).map fun j => (objKey 14 n.id, j))
        ++ if s.snp.sessions.any fun x => x.nsid == n.id then [(objKey 14 n.id, 32)] else [])
  | _ => (s.hqe.nss.map fun n => (objKey 5 0, n.id / 256)).eraseDups

/-- The stage in which the pages of a key are written; checkpoint headers and archive objects are written by themselves. -/
def stageOf (key : Nat) : Nat :=
  match keyKind key with
  | 14 => 2 | 5 => 3 | 9 | 11 => 0 | _ => 1

/-- The key area's pages stand one behind the other (KEY_ROOT): a change of one, or its segment's reclamation, writes all of them. -/
def renewKeys (s : State) : State :=
  let l := List.range ((s.sec.persisted.foldl (fun m p => max m (p.1 + 1)) 0 + 63) / 64)
  let key := objKey 10 0
  let ok := l.all fun j => match (pageObjOf s key j).bind (recOf s) with
    | some r => r.body == tableBody s key j && !((segOf s r.seg).any fun g => g.st == .reclaiming)
    | none => false
  if ok then s else forEach l (freshPage key 0) s

/-- The tables of a stage are brought up to date: changed pages become new objects, and pages that are no more leave the trees. -/
def syncTables (n : Nat) (s : State) : State :=
  let l := tablePages s n
  let t := { s with med := { s.med with
    pages := s.med.pages.filter fun p => stageOf p.nsid != n || p.level != 0 || keyKind p.nsid == 2 || keyKind p.nsid == 10 || decide ((p.nsid, p.page) ∈ l) } }
  let t := forEach l (fun p => renewTable p.1 p.2) t
  if n = 1 then renewKeys t else t

/-- A stage: its pages first, then the directory pages above them, the lowest level first (R298). -/
def writeStage (n : Nat) (a : Bool × State) : Bool × State :=
  if !a.1 then a
  else
    let t := syncTables n a.2
    let l := (trees t).filter fun k => stageOf k.1 == n
    let a := whileRoom l (fun k u => whileRoom ((treeNodes u k).filter fun p => p.level == 0) (writeLeaf k) (true, u)) (true, t)
    writeLevel l 4 (writeLevel l 3 (writeLevel l 2 (writeLevel l 1 a)))

/-- What the header says of one head: its chunk table, its hook table, and the numbers that it issues next. -/
def headBytes (s : State) (h : Bool) : Bytes :=
  if h != s.glb.headId && !s.til.bothHeads then zeros 32
  else
    let base := if h then 1024 else 0
    let ct : TreeKey := (0, none)
    let hk : TreeKey := (objKey 8 0, none)
    let depth := treeDepth (pagesUpTo s ct base)
    let own := h == s.glb.headId
    let next := if own then s.med.chunkNext
      else (s.med.chunks.filter fun e => e.no / 2 ^ 47 % 2 == (if h then 1 else 0)).foldl (fun m e => max m (e.no % 2 ^ 47 + 1)) 1
    leBytes 8 (nodeLocator s ct depth (base * 2 ^ 37)) ++ leBytes 8 (if own then rootLocator s hk else 0)
      ++ leBytes 1 depth ++ leBytes 1 (if own then depthOf s hk else 0) ++ leBytes 6 next
      ++ leBytes 5 (if own then s.ing.contNext else 0) ++ zeros 3

/-- The locator of the newest object of a kind that is no tree. -/
def newestOfKind (s : State) (kind : Nat) : Nat :=
  match (s.med.pages.filter fun p => p.nsid == objKey kind 0).getLast? with
  | some p => objLocator s p.obj
  | none => 0

/-- The 256 bytes of the header of checkpoint `seq` (R297). -/
def ckptHeader (s : State) (seq : Nat) : Bytes :=
  let ns : TreeKey := (objKey 5 0, none)
  let sg : TreeKey := (objKey 6 0, none)
  let lg : TreeKey := (objKey 13 0, none)
  withCrc (padTo 0xFC (leBytes 4 0xC4EC0003 ++ leBytes 2 3 ++ leBytes 1 (if s.til.bothHeads then 3 else if s.glb.headId then 2 else 1)
    ++ leBytes 1 (depthOf s ns) ++ leBytes 8 seq ++ leBytes 4 (stampSeconds s).toNat ++ leBytes 4 (stampCycles s).toNat
    ++ leBytes 8 (rootLocator s ns) ++ leBytes 8 (rootLocator s sg) ++ leBytes 8 (nodeLocator s (objKey 10 0, none) 0 0)
    ++ leBytes 8 (rootLocator s lg) ++ leBytes 8 (newestOfKind s 12) ++ leBytes 8 (newestOfKind s 11) ++ leBytes 8 (s.med.writeSeq - 1)
    ++ leBytes 1 (depthOf s sg) ++ leBytes 1 (depthOf s lg) ++ zeros 2 ++ zeros 44 ++ headBytes s false ++ headBytes s true))

/-- The metadata that a checkpoint names is written: changed pages first, then the directory pages above them, the lowest level first,
then the header (R298). Is all of it placed? -/
def writeTrees (s : State) : Bool × State :=
  let t := dropTables s
  let a := whileRoom (objMoves t) moveObj (true, t)
  let a := writeStage 3 (writeStage 2 (writeStage 1 a))
  let seq := s.til.ckptSeq + 1
  if a.1 then newObject (objKey 9 0) seq (fun _ => false) (ckptHeader a.2 seq) a.2 else a

/-- Closed containers are written to flash (R130), and the dirty pages that have left the cache (R205), as far as there is room. -/
def serveWriteBack (s : State) : State :=
  let conts := (s.ing.containers.filter fun k => !k.isOpen).filterMap fun k =>
    if ((pageObjOf s (objKey 7 k.nsid) k.no).bind (recOf s)).isSome then none else some (objKey 7 k.nsid, k.no)
  (whileRoom (conts ++ s.med.writeBack) (fun p u =>
    let u := if p.1 = 0 ∨ 16384 ≤ p.1 then renewTable p.1 p.2 u else u
    let done := fun (v : State) => { v with med := { v.med with writeBack := v.med.writeBack.erase p } }
    match (treeNodes u (p.1, none)).find? fun x => x.level == 0 && x.page == p.2 with
    | some x => let w := writeLeaf (p.1, none) x u; if w.1 then (true, done w.2) else w
    | none => (true, done u)) (true, s)).2

/-- A checkpoint starts (R206, R298, R299): once its pages are placed, the journal is switched; until then it waits. -/
def startCheckpoint (s : State) : State :=
  if s.til.writing || !inService s || (heldLanes s).isEmpty || s.pins.flushing then s
  else
    let a := writeTrees (serveWriteBack s)
    let t := a.2
    if !a.1 then { t with til := { t.til with due := true } }
    else
      { t with
        til := { t.til with
          due := false, writing := true, rooted := false, ckptSeq := t.til.ckptSeq + 1, published := false, hooksNew := t.ing.hooks,
          newPages := t.med.pages, headObj := (pageObjOf t (objKey 9 0) (t.til.ckptSeq + 1)).getD 0 },
        med := { t.med with dirty := [], oldJournal := t.med.oldJournal ++ t.med.journal, journal := [] } }

/-- Objects that no tree of the head, no snapshot and no current checkpoint names are left to reclamation (R298). -/
def sweepObjs (s : State) : State :=
  let named := (s.med.pages.map (·.obj)) ++ s.til.ckptPages.map (·.obj)
    ++ s.snp.snaps.flatMap fun x => x.pages.map (·.2) ++ x.dirs.map (·.obj)
  let gone := s.med.objs.filter fun o => o.stale || !(o.obj ∈ named)
  forEach ((gone.map (·.seg)).eraseDups) drainIfEmpty
    { s with med := { s.med with objs := s.med.objs.filter fun o => !(o.stale || !(o.obj ∈ named)) } }

/-- A journal that is 75 % full starts a checkpoint (R206). -/
def checkpointIfFull (s : State) : State := if 3 * journalCap ≤ 4 * s.med.journal.length then startCheckpoint s else s

/-- MAP_UPDATE_PUBLISH (R206, R121, R139, R140, R459): once every chunk of the run is placed, its map entries are applied
and journalled as one step, and its entries are released; a journal that is then 75 % full starts a checkpoint. It waits while the maps are frozen or the journal is full. A run of
a namespace that is being deleted publishes nothing and gives its references back. -/
def mapUpdatePublishEffect (id : Nat) (s : State) : State :=
  match runOf s id with
  | none => s
  | some r =>
    if s.med.frozenMaps || asleep s || !runPlaced s r || decide (journalCap < s.med.journal.length + r.n) then s
    else
      let l := chunksOfRun s id
      let t := if r.drop then dropRunRefs id s
        else { forEach (List.range r.n) (publishBlock r l) s with til := { s.til with published := true } }
      checkpointIfFull (dropStaleMirror (removeRun id (releaseRun r t)))

def execMapUpdatePublish (r : Nat) (s : State) : Res := run (.mapUpdatePublish r) (mapUpdatePublishEffect r) s

/-- STRIPE_IDLE_EXPIRY (R208). -/
def stripeIdleEffect (x : StreamId) (s : State) : State := forSome (openStripe s x) closeStripe s

def execStripeIdleExpiry (stream : StreamId) (s : State) : Res := run (.stripeIdleExpiry stream) (stripeIdleEffect stream) s

/-- The background reads of every page that a dense segment's blocks hold (R212). -/
def verifyReads (g : Seg) (s : State) : State :=
  forEach g.members (fun m t => forEach (List.range (4 * g.stripes)) (fun p u =>
    farSend m.lane ⟨0x10, false, m.die, m.block, p, 2 ^ m.plane, 0, 32, []⟩ u) t) s

/-- The last stripe of a segment is programmed: a dense one is read back (R212), an SLC one is CLOSED. -/
def closeSeg (g : Seg) (s : State) : State :=
  if g.slc then modSeg g.no (fun x => { x with st := .closed, closedAt := nowS s }) s
  else verifyReads g (modSeg g.no (fun x => { x with st := .closing }) s)

/-- A segment that all its stripes fill closes. -/
def segFilled (no : Nat) (s : State) : State :=
  match segOf s no with
  | some g =>
    if g.st == .open_ && decide (g.capacity ≤ g.stripes) then closeSeg g s else s
  | none => s

/-- The runs that contain a chunk of a list, or matched one (R140). -/
def runsUsing (s : State) (nos : List Nat) : List Nat :=
  ((s.ing.chunks.filter fun c => decide (c.no ∈ nos)).map (·.run)).eraseDups

/-- The runs that start again with runs of a list: those that matched a unique chunk of one of them that is in no stripe yet, which goes
with it; `n` rounds. -/
def restartSet (s : State) : Nat → List Nat → List Nat
  | 0, l => l
  | n + 1, l =>
    let more := (runsUsing s (l.flatMap (unplacedChunks s))).filter fun r => !(r ∈ l)
    if more.isEmpty then l else restartSet s n (l ++ more)

/-- A placement fails: every run that needs the stripe's chunks starts again from staging (R140), the stripe's chunks go
(Bales that were received over a session, run 0, are packed again), and
the segment is relocated with its blocks retired (R212). -/
def placementFailed (t : Stripe) (failed : List Nat) (s : State) : State :=
  let recv := ((s.ing.chunks.filter fun c => c.run == 0 && c.stage == .placing && decide (c.no ∈ t.bales)).map (·.no))
  let u := forEach (restartSet s s.ing.runs.length (runsUsing s t.bales)) restartRun s
  let u := { u with ing := { u.ing with
    chunks := modAll (fun c : Chunk => c.run == 0 && decide (c.no ∈ recv)) (fun c => { c with stage := .stored }) u.ing.chunks } }
  let u := { u with med := { u.med with
    chunks := u.med.chunks.filter fun e => !(decide (e.no ∈ t.bales) && e.st == .placing && !(e.no ∈ recv)),
    stripes := u.med.stripes.filter fun x => !(x.seg == t.seg && x.stripe == t.stripe) } }
  let u := loseObjects (fun g k => g == t.seg && k == t.stripe) u
  reclaimSeg t.seg (raise .med .fault 212 0 (t.seg :: failed) (retireBlocks t.seg failed u))

/-- STRIPE_PROGRAMMED (R208, R140, R212): every strip has reported, and the stripe's chunks are LIVE; or a program failed. -/
def stripeProgrammedEffect (seg stripe : Nat) (failed : List Nat) (s : State) : State :=
  match s.med.stripes.find? fun t => t.seg == seg && t.stripe == stripe && t.closed with
  | none => s
  | some t =>
    if failed ≠ [] then placementFailed t failed s
    else
      let es := s.med.chunks.filter fun e => decide (e.no ∈ t.bales) && e.st == .placing && e.seg == seg
      let settled : List ChunkEnt := modAll (fun e : ChunkEnt => decide (e.no ∈ t.bales) && e.st == .placing && e.seg == seg)
        (fun e : ChunkEnt => { e with st := if e.refs = 0 then .dead else .live }) s.med.chunks
      let n := sumBy (fun e : ChunkEnt => e.granules) es
      let u := { s with med := { s.med with
        stripes := s.med.stripes.filter fun x => !(x.seg == seg && x.stripe == stripe),
        chunks := settled,
        copies := modAll (fun c : Copy => c.seg == seg && c.stripe == stripe) (fun c => { c with done := true }) s.med.copies,
        hostProg := if t.stream.reclaim then s.med.hostProg else (s.med.hostProg + n) % 2 ^ 64,
        urgHost := if !halfTime s then 0 else if t.stream.reclaim || t.stream.kind == 5 then s.med.urgHost else s.med.urgHost + 1,
        urgReclaim := if !halfTime s then 0 else if t.stream.reclaim then s.med.urgReclaim + 1 else s.med.urgReclaim } }
      let u := { u with ing := { u.ing with
        chunks := modAll (fun c => c.stage == .placing && decide (c.no ∈ t.bales)) (fun c => { c with stage := .live }) u.ing.chunks } }
      serveWriteBack (startCopies (segFilled seg (modSeg seg (fun g => { g with stripes := g.stripes + 1 }) u)))

/-! ### SLC buffer (R209, R210) -/

/-- B of a module in units of 0.01 %: max(50, min(400, 900 − 1000 U)), rounded down (DESIGN CHOICE). -/
def slcShare (valid capacity : Nat) : Nat := max 50 (min 400 ((900 * capacity - 1000 * valid) / capacity))

/-- SLC_FRACTION_EVAL (R209). -/
def execSlcFractionEval (lane : Fin 96) (valid capacity : Nat) (s : State) : Res :=
  run (.slcFractionEval lane valid capacity)
    (fun t => { t with med := { t.med with slcPpm := tabPut 0 lane.val (slcShare valid capacity) t.med.slcPpm } }) s

/-- SLC segments that the buffer of the held modules holds. -/
def slcTotal (s : State) (l : Layout) : Nat :=
  let h := healthyLanes s l
  let w := dNow s l + parityStrips l
  if w = 0 then 0 else sumBy (fun n => moduleBlocks (laneOf s n).info * tabGet 0 n s.med.slcPpm / 10000) h / w

/-- SLC segments in use. -/
def slcUsed (s : State) : Nat :=
  (s.med.segs.filter fun g => g.slc && !(g.st == .free || g.st == .dirty || g.st == .retired)).length

/-- Is the SLC share used up by less than its segments: has B fallen, so that emptied SLC segments go back to dense use (R209)? -/
def slcSurplus (s : State) (l : Layout) : Bool :=
  decide (slcTotal s l < (s.med.segs.filter fun g => g.slc && g.st != .retired).length)

/-- Does a stream write SLC segments while the buffer has one free (R210)? -/
def takesSlc (s : State) (x : StreamId) : Bool :=
  !x.reclaim && (x.kind == 0 || x.kind == 5) && decide (slcUsed s < slcTotal s (slotOfStream s x))

/-! ### Segment allocation (R211, R215, R218, R264, R287) -/

/-- Is a FREE or DIRTY segment one that the stream may take: the layout in force, healthy members, and its kind of block: a dense
one may serve as SLC, and an SLC one as dense once B has fallen (R209)? -/
def reusable (s : State) (x : StreamId) (slc : Bool) (g : Seg) : Bool :=
  let l := slotOfStream s x
  (g.st == .free || g.st == .dirty) && (slc || !g.slc || slcSurplus s l) && g.layout == l.id && g.q == l.q
    && g.d == dNow s l && !g.oldVer && g.members.all fun m => decide (m.lane ∈ healthyLanes s l)

/-- The least-worn of them, one of the same kind of block first. -/
def leastWorn (s : State) (x : StreamId) (slc : Bool) : Option Seg :=
  let least := fun (l : List Seg) => l.foldl (fun a g => match a with
    | none => some g
    | some b => if g.erases < b.erases then some g else some b) none
  let l := s.med.segs.filter (reusable s x slc)
  (least (l.filter fun g => g.slc == slc)).orElse fun _ => least l

/-- The `w` modules with the most FREE blocks, the lower lane on a tie, in ascending order. -/
def pickLanes (s : State) (l : Layout) (w : Nat) : List Nat :=
  let byRoom := fun a b => decide (freeBlocks s a > freeBlocks s b) || (freeBlocks s a == freeBlocks s b && decide (a ≤ b))
  sortBy (fun a b => decide (a ≤ b)) ((sortBy byRoom (healthyLanes s l)).take w)

/-- Is a block of a module in a segment already, on a flush die, out of use, retired, or reserved (R210, R212, R259, R293)? -/
def blockTaken (s : State) (n : Nat) (m : Member) : Bool :=
  decide (m.die ∈ flushDies (laneOf s n).info) || decide (m.die ∈ (laneOf s n).diesOut)
    || (m.plane == 0 && decide (m.block < 8) && decide (m.die ∈ reservedDies (laneOf s n).info)) || decide (m ∈ s.med.blocksOut) || s.med.segs.any fun g => decide (m ∈ g.members)

def blockNo (i : ModInfo) (n k : Nat) : Member :=
  ⟨n, k / (i.planes * i.blocks) % dieCount i, k / i.blocks % i.planes, k % i.blocks⟩

/-- A block of a module that is not taken, the first from number `k` on, of `f` blocks at most. -/
def pickBlock (s : State) (n : Nat) : Nat → Nat → Option Member
  | 0, _ => none
  | f + 1, k =>
    if blockTaken s n (blockNo (laneOf s n).info n k) then pickBlock s n f (k + 1) else some (blockNo (laneOf s n).info n k)

/-- A block for a segment; the spec does not choose it, so the search starts at a free choice. -/
def spareBlock (s : State) (n : Nat) : Option Member :=
  let i := (laneOf s n).info
  let all := dieCount i * i.planes * i.blocks
  pickBlock s n all (freePick (all + 1) s)

def segCapacity (s : State) (lanes : List Nat) (slc : Bool) : Nat :=
  let pages := lanes.map fun n => if slc then (laneOf s n).info.pagesS else (laneOf s n).info.pagesD
  match pages with
  | [] => 0
  | p :: ps => ps.foldl min p / 4

/-- A new segment of a stream over blocks that are in none (R264, R287); none while a module has no such block. -/
def formSeg (x : StreamId) (slc : Bool) (lanes : List Nat) (s : State) : State :=
  let l := slotOfStream s x
  let ms := lanes.filterMap (spareBlock s)
  if ms.length < lanes.length then s
  else
  let g : Seg :=
    { no := (if s.glb.headId then 2 ^ 31 else 0) + s.med.segNext, st := .open_, stream := x, slc := slc, d := dNow s l, q := l.q,
      layout := l.id, members := ms, missing := [], stripes := 0, capacity := segCapacity s lanes slc, verified := [],
      erases := 0, writtenAt := nowS s, closedAt := 0, readers := 0, retired := 0, oldVer := false }
  { s with med := { s.med with segs := s.med.segs ++ [g], segNext := s.med.segNext + 1 }, freeCtr := s.freeCtr + 1 }

/-- Erase commands for a segment's member blocks. -/
def eraseMembers (g : Seg) (s : State) : State :=
  forEach g.members (fun m t => farSend m.lane ⟨0x13, g.slc, m.die, m.block, 0, 2 ^ m.plane, 0, 0, []⟩ t) s

/-- Erases of a module's blocks, those in segments and those retired not counted twice: a block in no segment has none. -/
def moduleErases (s : State) (n : Nat) : Nat :=
  sumBy (fun g => g.erases * (g.members.filter fun m => m.lane == n).length) s.med.segs

/-- A module's mean erase count has risen: a Fault event at 0.90 of its rated count, once, and no new data from 1.00 on (R218). -/
def noteWear (n : Nat) (s : State) : State :=
  let i := (laneOf s n).info
  let b := moduleBlocks i
  let e := moduleErases s n
  let hot := decide (b ≠ 0) && decide (9 * i.rated * b ≤ 10 * e)
  let full := decide (b ≠ 0) && decide (i.rated * b ≤ e)
  let t := raiseIf (hot && !decide (n ∈ s.med.worn)) .med .fault 218 0 [n] s
  { t with med := { t.med with
    worn := if hot then insertNat n t.med.worn else t.med.worn,
    moduleRetired := if full then insertNat n t.med.moduleRetired else t.med.moduleRetired } }

/-- A FREE segment opens for a stream; a DIRTY one, or one whose blocks change between SLC and dense, is erased first. -/
def reopenSeg (x : StreamId) (slc : Bool) (g : Seg) (s : State) : State :=
  let erased := g.st == .dirty || g.slc != slc
  let g := { g with slc := slc }
  let t := if erased then eraseMembers g s else s
  let u := modSeg g.no (fun y => { y with
    st := .open_, stream := x, slc := slc, stripes := 0, capacity := segCapacity s (g.members.map (·.lane)) slc, verified := [],
    missing := [], writtenAt := nowS s, closedAt := 0, erases := if erased then y.erases + 1 else y.erases }) t
  if erased then forEach (g.members.map (·.lane)) noteWear u else u

/-- The events of R264 as the number of healthy modules falls. -/
def noteNarrow (x : StreamId) (s : State) : State :=
  let l := slotOfStream s x
  let narrow := decide (dNow s l < l.d)
  let stop := decide (dNow s l < 2)
  let t := modSlot x (fun y => { y with narrow := narrow, stopped := stop }) s
  let t := raiseIf (narrow && !l.narrow) .par .fault 264 0 [x.kind.val, dNow s l] t
  raiseIf (stop && !l.stopped) .par .critical 264 1 [x.kind.val] t

/-- SEGMENT_ALLOCATE (R218, R264, R210, R211, R215): a stream without an open segment takes the least-worn FREE or DIRTY one,
or forms a new one. Host data has none while F is below 1 %, dense segments wait at 2,048 open blocks, and a slot with fewer
than two data strips has none. What waited for room goes on: copies, pages to be written back, and a checkpoint that is due. -/
def segmentAllocateEffect (x : StreamId) (s : State) : State :=
  if (openSegOf s x).isSome || asleep s then s
  else
    let s := noteNarrow x s
    let l := slotOfStream s x
    let w := dNow s l + parityStrips l
    let slc := takesSlc s x && ((leastWorn s x true).isSome || decide (unformed s ≠ 0))
    if dNow s l < 2 ∨ (3 ≤ s.med.level ∧ x.kind ≠ 5 ∧ !x.reclaim) ∨ (!slc ∧ 2048 < openDense s + w) then s
    else
      let t := match leastWorn s x slc with
        | some g => noteSpace (reopenSeg x slc g s)
        | none => if unformed s = 0 then s else noteSpace (formSeg x slc (pickLanes s l w) s)
      let t := serveWriteBack (if x.reclaim then startCopies t else t)
      if t.til.due && x.kind == 5 then startCheckpoint t else t

def execSegmentAllocate (stream : StreamId) (s : State) : Res := run (.segmentAllocate stream) (segmentAllocateEffect stream) s

/-! ### Verify, reclamation, relocation (R212 to R220) -/

/-- The correction limit of a member's module. -/
def limitOf (s : State) (g : Seg) (p : Nat) : Nat :=
  match g.members[p]? with
  | some m => (laneOf s m.lane).info.limit
  | none => 0

/-- Of the pages of a block to rebuild, those that its accumulators give: the only one of their position (R212). -/
def fromAccs (s : State) (m : Member) (bad : List Nat) : List Nat :=
  let b := max 1 (laneOf s m.lane).info.bits
  if s.med.accs.any fun a => a.block == m then bad.filter fun p => ((bad.filter fun q => q % b == p % b).length) == 1 else []

/-- BLOCK_VERIFY_DONE (R212): the block is verified and its accumulators are freed, or its pages are rebuilt, every LIVE Bale of the
segment is relocated, the block is retired, and a Fault event recorded, with the numbers of pages rebuilt from the accumulators and
from stripe parity. -/
def blockVerifyDoneEffect (no p maxCorr : Nat) (bad : List Nat) (s : State) : State :=
  match segOf s no with
  | none => s
  | some g =>
    if g.st != .closing || p ∈ g.verified then s
    else if bad = [] ∧ 4 * maxCorr ≤ 3 * limitOf s g p then
      let t := freeAccs (g.members[p]?).toList (modSeg no (fun x => { x with verified := x.verified ++ [p] }) s)
      if g.verified.length + 1 = g.members.length then modSeg no (fun x => { x with st := .closed, closedAt := nowS s }) t else t
    else
      let k := sumBy (fun m => (fromAccs s m bad).length) (g.members[p]?).toList
      reclaimSeg no (raise .med .fault 212 1 [no, p, maxCorr, k, bad.length - k] (retireBlocks no [p] s))

/-- The best of a list by a strict order, the first among equals. -/
def bestBy (better : Seg → Seg → Bool) (l : List Seg) : Option Seg :=
  l.foldl (fun a g => match a with
    | none => some g
    | some b => if better g b then some g else some b) none

/-- The held blocks and the sum of their erase counts. -/
def heldBlocks (s : State) : Nat := sumBy (fun n => moduleBlocks (laneOf s n).info) (heldLanes s)
def heldErases (s : State) : Nat := sumBy (moduleErases s) (heldLanes s)

/-- Granules that a segment's data strips hold. -/
def segGranules (g : Seg) : Nat := 128 * g.d * g.capacity

/-- The rated counts of a segment's modules, summed: E_rated is their mean (DESIGN CHOICE: the members may differ). -/
def ratedSum (s : State) (g : Seg) : Nat := sumBy (fun m => (laneOf s m.lane).info.rated) g.members

/-- The score of R217 as a fraction, numerator and denominator, with the age in seconds (3,600 times the hours, 8,760 at most). -/
def score (s : State) (g : Seg) : Nat × Nat :=
  let c := segGranules g
  let v := validGranules s g.no
  let age := min 31536000 (nowS s - g.closedAt)
  let n := heldBlocks s
  let r := ratedSum s g
  ((c - v) * age * (n * r + 4 * g.members.length * (heldErases s - g.erases * n)), 3600 * (c + v) * n * r)

def betterScore (s : State) (a b : Seg) : Bool := decide ((score s b).1 * (score s a).2 < (score s a).1 * (score s b).2)

def closedOf (s : State) (p : Seg → Bool) : List Seg := s.med.segs.filter fun g => g.st == .closed && !g.oldVer && p g

/-- Segments with a member on a lane. -/
def onLane (g : Seg) (n : Nat) : Bool := g.members.any fun m => m.lane == n

/-- Does the wear spread of a module exceed a tenth of its rated count (R218)? -/
def wearSpread (s : State) (n : Nat) : Bool :=
  let l := (s.med.segs.filter fun g => onLane g n).map (·.erases)
  match l with
  | [] => false
  | e :: es => decide ((laneOf s n).info.rated < 10 * (es.foldl max e - es.foldl min e))

/-- The victim that MED chooses for a kind (R216 to R219). -/
def victimOf (s : State) (k : VictimKind) : Option Seg :=
  let bg := decide (freePermille s < 100)
  match k with
  | .ordinary =>
    if bg then bestBy (fun a b => decide (validGranules s a.no < validGranules s b.no)
        || (validGranules s a.no == validGranules s b.no && decide (a.closedAt < b.closedAt)))
      (closedOf s fun g => !g.slc && decide (g.stream.kind.val < 4)) else none
  | .slc => if bg then bestBy (fun a b => decide (a.closedAt < b.closedAt)) (closedOf s fun g => g.slc) else none
  | .metadata =>
    if bg then bestBy (betterScore s) (closedOf s fun g => g.stream.kind == 5 && decide (0 < (score s g).1)) else none
  | .archive =>
    if bg then bestBy (betterScore s) (closedOf s fun g => g.stream.kind == 4 && decide (0 < (score s g).1)) else none
  | .wear n =>
    if wearSpread s n.val then bestBy (fun a b => decide (a.erases < b.erases)) (closedOf s fun g => onLane g n.val) else none
  | .refresh no =>
    (closedOf s fun g => g.no == no && decide (63072000 ≤ nowS s - g.writtenAt)).head?

def countRefresh (s : State) : State := { s with med := { s.med with refreshed := (s.med.refreshed + 1) % 2 ^ 64 } }

/-- A segment with a member on a module that the peer holds, which goes ahead of every other victim (R345). -/
def sharedSeg (s : State) : Option Seg :=
  if s.peer.role == .active then (closedOf s fun g => g.members.any fun m => (laneOf s m.lane).st == .peerHeld).head? else none

/-- The chunks of the peer's table that the maps here still name, and that are not yet being re-placed (R345). -/
def foreignNamed (s : State) : List ChunkEnt :=
  s.med.chunks.filter fun e => foreignChunk s e.no && e.st == .live && !(s.med.relocating.any fun p => p.1 == e.no)
    && s.med.maps.any fun m => m.chunkA == e.no || m.chunkB == e.no

/-- RECLAIM_VICTIM_CHOSEN (R215 to R219); after a SOLE period, segments on the peer's modules come first, and foreign chunks are re-placed
beside them (R345). -/
def reclaimVictimChosenEffect (k : VictimKind) (s : State) : State :=
  if asleep s then s
  else
    let s := forEach (foreignNamed s) (fun e t => alsoRelocate [e.no] e.seg t) s
    match sharedSeg s with
    | some g => reclaimSeg g.no s
    | none =>
      match victimOf s k with
      | none => s
      | some g =>
        let t := match k with
          | .refresh _ => countRefresh s
          | _ => s
        reclaimSeg g.no t

def execReclaimVictimChosen (k : VictimKind) (s : State) : Res := run (.reclaimVictimChosen k) (reclaimVictimChosenEffect k) s

/-- FIRST_LBA of a chunk as the maps give it: the block that holds its first byte, and the byte's place there (R306). -/
def firstLbaOf (s : State) (no : Nat) : Nat :=
  match s.med.maps.find? fun m => m.chunkB == no || (m.chunkA == no && m.offA == 0) with
  | some m =>
    m.lba <<< 12 + if m.chunkB == no then (match chunkOf s m.chunkA with
      | some a => a.len - m.offA
      | none => 0) else 0
  | none => 0

/-- The map entries, those of the snapshots and the reads under way name `b` in place of `a`; the changed entries are journalled. -/
def renameChunk (a b : Nat) (s : State) : State :=
  let f := fun (m : MapEntry) => { m with chunkA := if m.chunkA = a then b else m.chunkA, chunkB := if m.chunkB = a then b else m.chunkB }
  let hit := fun (m : MapEntry) => m.chunkA == a || m.chunkB == a
  { s with
    med := { s.med with maps := s.med.maps.map f, journal := s.med.journal ++ (s.med.maps.filter hit).map f }
    snp := { s.snp with snaps := s.snp.snaps.map fun x => { x with tree := x.tree.map f } }
    bal := { s.bal with readJobs := modAll (fun j => j.chunk == a) (fun j => { j with chunk := b }) s.bal.readJobs } }

/-- A Bale of an older version is copied under a new chunk number with a version 3 Waybill; its old entry stays in the old segment,
DEAD (R306). -/
def buildBeside (e : ChunkEnt) (s : State) : ChunkEnt × State :=
  let no := newChunkNo s
  let v : ChunkEnt := { e with no := no, waybill := rewriteWaybill no e.nsid e.domain e.keyInfo (firstLbaOf s e.no) e.waybill }
  let t := renameChunk e.no no (modEnt e.no (fun x => { x with st := .dead }) s)
  (v, { t with med := { t.med with chunks := t.med.chunks ++ [v], chunkNext := t.med.chunkNext + 1 } })

/-- References that the maps and snapshots here hold on a chunk. -/
def namesOf (s : State) (no : Nat) : Nat :=
  let k := fun (m : MapEntry) => (if m.chunkA = no then 1 else 0) + if m.chunkB = no then 1 else 0
  sumBy k s.med.maps + sumBy (fun x : Snap => sumBy k x.tree) s.snp.snaps

/-- A foreign chunk becomes a chunk of this head's own table, with its Waybill rewritten (R292); each reference on the foreign one is
released by REF (R345). -/
def replaceForeign (e : ChunkEnt) (s : State) : ChunkEnt × State :=
  let no := newChunkNo s
  let n := namesOf s e.no
  let v : ChunkEnt := { e with no := no, refs := n, waybill := rewriteWaybill no e.nsid e.domain e.keyInfo (numAt e.waybill 0x74 8) e.waybill }
  let t := renameChunk e.no no { s with med := { s.med with chunks := s.med.chunks.filter fun x => x.no != e.no } }
  (v, toPeer 0x16 [e.no, 1, n] [] { t with med := { t.med with chunks := t.med.chunks ++ [v], chunkNext := t.med.chunkNext + 1 } })

/-- A copy that is programmed is published: the chunk entry takes the new location if its entry still names the source and is LIVE;
otherwise the copy is discarded (R213). -/
def publishCopy (e : ChunkEnt) (c : Copy) (s : State) : State :=
  let t := dropReloc e.no s
  if placeOf e != c.source then drainIfEmpty c.seg t
  else
    let p := if (segOf s e.seg).any fun g => g.oldVer then buildBeside e t else if foreignChunk s e.no then replaceForeign e t else (e, t)
    let t := p.2
    let u := modEnt p.1.no (fun x => { x with seg := c.seg, stripe := c.stripe, strip := c.gran / 128, gran := c.gran % 128 }) t
    let u := { u with med := { u.med with relocated := (u.med.relocated + e.granules) % 2 ^ 64 } }
    let u := if (segOf s e.seg).any fun g => g.missing ≠ [] then
        { u with par := { u.par with rebuiltG := (u.par.rebuiltG + e.granules) % 2 ^ 64 } }
      else u
    drainIfEmpty e.seg u

/-- RELOCATION_DONE (R213, R270): a copy whose stripe is programmed is published; one that has found no place yet is tried again. The
copy of a chunk that is no longer LIVE is discarded. -/
def relocationDoneEffect (no : Nat) (s : State) : State :=
  match chunkOf s no, copyOf s no with
  | some e, some c =>
    if e.st != .live then drainIfEmpty c.seg (dropReloc no s) else if !c.done || asleep s then s else publishCopy e c s
  | some e, none => if e.st != .live then dropReloc no s else if asleep s then s else startCopy e s
  | none, _ => dropReloc no s

def execRelocationDone (chunk : Nat) (s : State) : Res := run (.relocationDone chunk) (relocationDoneEffect chunk) s

/-- Spares from the same modules take the places of a segment's retired blocks, which no segment takes again; none where a module has no
block left. -/
def withSpares (g : Seg) (s : State) : Option (List Member) :=
  let l := g.members.zip (List.range g.members.length) |>.filterMap fun p =>
    if p.2 ∈ g.badAt then spareBlock s p.1.lane else some p.1
  if l.length < g.members.length then none else some l

/-- A drained segment is DIRTY, with a spare in the place of a retired member; two retired members, or no spare, end its use. -/
def drained (g : Seg) (s : State) : State :=
  let out := g.badAt.filterMap fun p => g.members[p]?
  let t := if g.badAt = [] then s else { tick s with med := { s.med with blocksOut := s.med.blocksOut ++ out } }
  match if 2 ≤ g.retired then none else withSpares g t with
  | some l => modSeg g.no (fun x => { x with st := .dirty, missing := [], badAt := [], members := l }) t
  | none => modSeg g.no (fun x => { x with st := .retired, missing := [], badAt := [] }) t

/-- Does a read that looked up a location in a segment still run: a read job, or the decode of a verify-on-match (R214)? -/
def beingRead (s : State) (g : Seg) : Bool :=
  g.readers != 0 || s.ing.chunks.any fun c => c.stage == .verifying && c.source == g.no

/-- SEGMENT_DRAINED (R214): no read that looked up a location in the segment is left, and none of its objects is one that the current
checkpoint names. -/
def segmentDrainedEffect (no : Nat) (s : State) : State :=
  match segOf s no with
  | none => s
  | some g => if g.st == .draining && !beingRead s g then noteSpace (drained g s) else s

def execSegmentDrained (seg : Nat) (s : State) : Res := run (.segmentDrained seg) (segmentDrainedEffect seg) s

/-- Does a scan's highest count of some member reach half of the correction limit of that member's module (R219)? -/
def halfLimit (s : State) (g : Seg) (corr : List Nat) : Bool :=
  (List.range g.members.length).any fun p => decide (limitOf s g p ≤ 2 * corr.getD p 0) && decide (p < corr.length)

/-- After a power-on, the CLOSED segments in the order of their scans: the oldest data first (R220). -/
def scansDue (s : State) : List Nat :=
  (sortBy (fun a b => decide (a.writtenAt ≤ b.writtenAt)) (s.med.segs.filter fun g => g.st == .closed)).map (·.no)

/-- The scans after a power-on are listed as NORMAL is entered. -/
def listScans (s : State) : State :=
  if s.med.scanAll && s.glb.service == .normal then { s with med := { s.med with scanAll := false, scanList := scansDue s } } else s

/-- SEGMENT_SCAN_DUE (R219, R220): a scan of a CLOSED segment, which after a power-on is the next of the list; it is refreshed at half of
the correction limit, after two years, or once an uncorrectable page has been rebuilt from parity. -/
def segmentScanDueEffect (no : Nat) (corr : List Nat) (bad : Bool) (s : State) : State :=
  match segOf s no with
  | none => s
  | some g =>
    let wait := (s.med.scanList.filter fun n => (segOf s n).any fun x => x.st == .closed)
    if g.st != .closed || asleep s || !(wait.isEmpty || wait.head? == some no) then s
    else
      let t := modSeg no (fun x => { x with scanned := nowS s })
        { s with med := { s.med with scanned := insertNat no s.med.scanned, scanList := wait.filter (· != no) } }
      if bad || halfLimit s g corr || decide (63072000 ≤ nowS s - g.writtenAt) then reclaimSeg no (countRefresh t) else t

def execSegmentScanDue (seg : Nat) (corr : List Nat) (uncorrectable : Bool) (s : State) : Res :=
  run (.segmentScanDue seg corr uncorrectable) (segmentScanDueEffect seg corr uncorrectable) s

/-! ### Suspending NAND work (R221) -/

def execNandSuspend (lane : Fin 96) (die : BitVec 9) (s : State) : Res :=
  run (.nandSuspend lane die) (trySuspend lane.val die.toNat) s

/-- NAND_MIN_RUN_EXPIRY: the operation has run MIN_RUN since it started or last resumed. -/
def nandMinRunEffect (n d : Nat) (s : State) : State :=
  let t := modDieRun n d (fun r => { r with ranMin := true }) s
  match dieRunOf t n d with
  | some r => if r.waiting then trySuspend n d t else t
  | none => t

def execNandMinRunExpiry (lane : Fin 96) (die : BitVec 9) (s : State) : Res :=
  run (.nandMinRunExpiry lane die) (nandMinRunEffect lane.val die.toNat) s

/-- A suspended operation resumes. -/
def resumeDie (n d : Nat) (s : State) : State :=
  match dieRunOf s n d with
  | some r =>
    if r.held then
      serveLane n (farUrgent n (dieCmd 0x15 d) (modDieRun n d (fun x => { x with held := false, ranMin := false }) s))
    else s
  | none => s

/-- NAND_SUSPEND_EXPIRY: a suspension has lasted MAX_SUSP. -/
def execNandSuspendExpiry (lane : Fin 96) (die : BitVec 9) (s : State) : Res :=
  run (.nandSuspendExpiry lane die) (resumeDie lane.val die.toNat) s

end Sys2Proof.Machine
end

