-- ==== Sys2Proof/Machine/Resets.lean ====
section
/-! DEFINITION. What a chip-wide reset clears and what survives it (R33 to R37, R54, R98, R115, R206, R299, R315, R328, R335,
R447), what a power loss or a reset costs in committed blocks (R98, R229, R230), and STAT (R452). -/

namespace Sys2Proof.Machine

/-! ### STAT (R452) -/

/-- The code that STAT shows. -/
def statOf (s : State) : BitVec 4 :=
  if s.glb.resetHeld then 0
  else if s.pins.flushing then 7
  else if s.pins.flushHold then 8
  else
    match s.glb.service with
    | .startUp => 0
    | .romService => 1
    | .recovery => 2
    | .test => 3
    | .normal => match s.peer.role with
      | .active => 4
      | .sole => 5
      | .service => 6

/-- STAT follows the state; between SUSPECT and LOSS it holds (R338). -/
def restat (s : State) : State := if suspectNow s then s else { s with pins := { s.pins with stat := statOf s } }

/-- A service-state change, with the failed-start count and STEP untouched (R58). -/
def setService (v : Service) (s : State) : State := restat { s with glb := { s.glb with service := v } }

/-! ### Blocks that are lost (R98, R230, R335) -/

/-- A staging entry as the flush region saves it. -/
def savedForm (e : StEntry) : MirEntry :=
  ⟨e.nsid, e.lba, e.gen, if e.dealloc then [] else e.data, e.tenant.getD 0, e.tag, e.block, e.nblk, e.bad⟩

/-- Class 3 of the flush: this head's STAGED and FLUSHING blocks; the index lists them by admission order. -/
def ownBlocks (s : State) : List MirEntry := (s.ing.staging.filter fun e => e.st != .filling).map savedForm

/-- The committed blocks that only this head holds unplaced. -/
def soleBlocks (s : State) : List MirEntry :=
  ownBlocks s ++ s.ing.mirror.filter fun m => genHigher m.gen (publishedGen s m.nsid m.lba)

/-- The ranges of a list of blocks in order: namespace, first block, count. -/
def addRange (l : List (Nat × Nat × Nat)) (m : MirEntry) : List (Nat × Nat × Nat) :=
  match l with
  | (n, a, k) :: r => if n == m.nsid && a + k == m.lba then (n, a, k + 1) :: r else (m.nsid, m.lba, 1) :: l
  | [] => [(m.nsid, m.lba, 1)]

def rangesOf (l : List MirEntry) : List (Nat × Nat × Nat) := (l.foldl addRange []).reverse

/-- The count of leading blocks of a tagged write that survive: those before the first lost one. -/
def leadingLeft (l : List MirEntry) (t : Nat) (g : Word64) : Nat :=
  ((l.filter fun m => m.tenant == t && m.tag == some g).map (·.block)).foldl min 256

/-- A settled tag is lowered to the blocks that survive. -/
def lowerTag (t : Nat) (g : Word64) (k : Nat) (s : State) : State :=
  let l := modAll (fun e => isTag t g e && (e.outcome == 1 || e.outcome == 3) && decide (k < e.count))
    (fun e => { e with outcome := if k = 0 then 2 else 3, count := k, at_ := nowS s }) s.hqe.settle
  { s with hqe := { s.hqe with settle := l } }

/-- R230: each lost block's tagged write is lowered in the settlement log, and a Critical event names each lost range. -/
def loseBlocks (l : List MirEntry) (s : State) : State :=
  let tags := (l.filterMap fun m => m.tag.map fun g => (m.tenant, g)).eraseDups
  let t := forEach tags (fun p u => lowerTag p.1 p.2 (leadingLeft l p.1 p.2) u) s
  forEach (rangesOf l) (fun r u => raise .med .critical 230 0 [r.1, r.2.1, r.2.2] u) t

/-! ### The flush region (R227, R229) -/

/-- The CRC-32C of a saved block: namespace, logical block, generation and data (R229). -/
def savedCrc (m : MirEntry) : Nat := crc32c (leBytes 2 m.nsid ++ leBytes 8 m.lba ++ leBytes 2 m.gen.toNat ++ m.data)

/-- A block as it is saved; with its CRC inverted when its read was uncorrectable (R393). -/
def saveBlock (m : MirEntry) : Saved := ⟨m, if m.bad then savedCrc m ^^^ 0xFFFFFFFF else savedCrc m⟩

/-- What a class holds, as the record then stands: the newest 4,096 unarchived records and the log; the journals and the die-parity
accumulators; the staged blocks; the mirror area. -/
def addClass (c : Fin 5) (s : State) (r : FlushRec) : FlushRec :=
  if c = 1 then
    let ev := (s.evr.ring.filter fun e => decide (s.evr.archSeq ≤ e.seq.getD s.evr.archSeq)).map EvRec.bytes
    { r with events := ev.drop (ev.length - 4096), settle := s.hqe.settle, cls := 1 }
  else if c = 2 then { r with journal := s.med.oldJournal ++ s.med.journal, accs := s.med.accs, cls := 2 }
  else if c = 3 then { r with blocks := r.blocks ++ (ownBlocks s).map saveBlock, cls := 3 }
  else if c = 4 then { r with blocks := r.blocks ++ s.ing.mirror.map saveBlock, cls := 4 }
  else r

/-- The marks of classes 3 and 4: one for every 256 MiB. -/
def marksOf (n : Nat) : Nat := n / 65536

/-- What a record holds is saved again in a newer one. -/
def savedAgain (a r : FlushRec) : FlushRec :=
  let old := a.blocks.filter fun x => !(r.blocks.any fun y => y.m == x.m)
  { r with
    events := (a.events.filter fun b => !(b ∈ r.events)) ++ r.events, settle := if r.cls = 0 then a.settle else r.settle,
    journal := a.journal ++ r.journal, blocks := old ++ r.blocks,
    lost := (a.lost ++ r.lost).filter fun m => !(old.any fun x => x.m == m) }

/-- The record takes its place in the flush region, which has room for two (R231): an older record that a third displaces is saved
again in it, since it is consumed only once its contents are placed or saved again. -/
def keepRecord (r : FlushRec) (s : State) : State :=
  let l := match s.plf.records with
    | a :: b :: _ => [b, savedAgain a r]
    | l => l ++ [r]
  { s with plf := { s.plf with records := l, flush := none } }

/-- The flush stops where it got: of the class being written, classes 1 and 2 count only whole, and of classes 3 and 4 a
free number of leading blocks has been programmed, and the next one may be torn: its data is open, and its CRC is that of the block
(R229). -/
def stopFlush (s : State) : State :=
  match s.plf.flush with
  | none => s
  | some f =>
    let now := if f.cls = 3 then ownBlocks s else if f.cls = 4 then s.ing.mirror else []
    let k := freePick (now.length + 1) s
    let torn := (now.drop k).take 1 |>.map fun m => ({ saveBlock m with m := { m with data := freeBytes 4096 s } } : Saved)
    let saved := f.rec_.blocks ++ (now.take k).map saveBlock
    let all := if s.peer.role = .sole then soleBlocks s else ownBlocks s
    let r := { f.rec_ with blocks := saved ++ torn, lost := all.filter (fun m => !(saved.any fun x => x.m == m)), marks := f.rec_.marks + marksOf k }
    keepRecord r (tick { s with pins := { s.pins with flushing := false } })

/-! ### What survives -/

/-- The watch domain over a chip-wide reset; its FAB side is cleared. -/
def watchKept (w : Wch) : Wch := { w with pending := none, wrLost := false, restoreLow := 0 }

/-- Maps, chunks and segments are on media or are found there again (R98, R121); what was in DRAM only is gone. -/
def medKept (power : Bool) (m : Med) : Med :=
  { maps := m.maps, pages := m.pages, nextObj := m.nextObj, chunks := m.chunks.filter (fun e => e.st != .placing),
    chunkNext := m.chunkNext, segs := m.segs.map (fun g => { g with readers := 0 }), segNext := m.segNext, writeSeq := m.writeSeq,
    moduleRetired := m.moduleRetired, worn := m.worn, blocksOut := m.blocksOut,
    objs := m.objs.filter (fun o => !(m.stripes.any fun t => t.seg == o.seg && t.stripe == o.stripe)),
    journal := if power then [] else m.oldJournal ++ m.journal, scanAll := power || m.scanAll }

/-- The entries of a map page's bytes (R202). -/
def pageEntries (nsid page : Nat) (b : Bytes) : List MapEntry :=
  (List.range (b.length / 16)).filterMap fun i =>
    let e := bytesAt b (16 * i) 16
    if e.all (· == 0) then none
    else some ⟨nsid, 1024 * page + i, numAt e 10 6, numAt e 8 2, numAt e 2 6, BitVec.ofNat 16 (numAt e 0 2)⟩

/-- The maps that the current checkpoint names. -/
def ckptMaps (s : State) : List MapEntry :=
  (s.til.ckptPages.filter fun p => p.level == 0 && p.nsid != 0).flatMap fun p =>
    match s.med.objs.find? fun o => o.obj == p.obj with
    | some o => pageEntries p.nsid p.page o.body
    | none => []

/-- The class 2 journals are applied over the last checkpoint, and are the journal that goes on (R230); the references of entries that
change follow. -/
def rebuildMaps (j : List MapEntry) (s : State) : State :=
  let want := (j.foldl (fun l m => (l.filter fun x => !(x.nsid == m.nsid && x.lba == m.lba)) ++ [m]) (ckptMaps s)).filter fun m =>
    (nsOf s m.nsid).isSome
  let gone := s.med.maps.filter fun m => !(m ∈ want)
  let more := want.filter fun m => !(m ∈ s.med.maps)
  let t := forEach (((gone ++ more).map fun m => (m.nsid, pageOf m.lba)).eraseDups) (fun p u => freshPage p.1 0 p.2 u) s
  let t := forEach more (fun m u => raiseRef m.chunkB 1 (raiseRef m.chunkA 1 u)) t
  let t := dropEntries gone t
  { t with med := { t.med with maps := (t.med.maps.filter fun m => m ∈ want) ++ more, journal := j } }

/-- Closed containers stay on media; the hook table is that of the newest checkpoint (R299). -/
def ingKept (g : Ing) (t : Til) : Ing :=
  { containers := (g.containers.filter fun k => !k.isOpen).map fun k => { k with cached := false },
    contNext := g.contNext, hooks := t.hooks }

/-- The array's own structures. -/
def tilKept (t : Til) : Til := { t with
  writing := false, rooted := false, granule := [], readFloor := [], published := false, hooksNew := [],
  rootOut := false, rootNames := false, objOut := none }

/-- Tenants, domains, namespaces and the settlement log are in checkpoints and flush records; a PENDING entry of this head
ends as not committed here, or is settled by the peer (R121). -/
def hqeKept (role : Role) (now : Nat) (h : Hqe) : Hqe :=
  let own := h.settle.filter fun e => !e.ofPeer && !(e.outcome == 4 && role == .active)
  { tenants := h.tenants.map fun t => { t with gHeld := 0, pHeld := 0, n5001 := 0 },
    domains := h.domains, nss := h.nss.map fun n => { n with deleting := none, hold := false }, errSeq := [],
    settle := own.map fun e => if e.outcome == 4 then { e with outcome := 2, count := 0, at_ := now } else e, order := h.order }

/-- Layouts and job checkpoints are on media. -/
def parKept (p : Par) : Par :=
  { ordinary := p.ordinary, archive := p.archive, metadata := p.metadata, nextLay := p.nextLay, nextJob := p.nextJob,
    ckptSeq := p.ckptSeq, ckpts := p.ckpts, old := p.old, vacated := p.vacated }

/-- A session keeps its record; what was outstanding is gone (R328). -/
def sessKept (x : Sess) : Sess :=
  { x with st := if x.st == .sending then .suspended else x.st, batches := [], walked := false, ended := false }

def snpKept (n : Snp) : Snp :=
  { n with snaps := n.snaps.filter (fun x => x.st != .pending), holds := [], sessions := n.sessions.map sessKept }

/-- An operation starts or goes on on its die, and the status record names it. -/
def opOn (o : DieOp) (x : Die) : Die :=
  { x with
    running := some o, st := 1, op := o.op, status := 0xFFFF, tag := o.f.tag.setWidth 16, page := o.f.page,
    block := o.f.block.setWidth 32, claim := o.f.claim }

/-- A suspended operation goes on, ahead of what waits, once a READ that runs on the die has ended. -/
def resumeOn (x : Die) : Die :=
  match x.suspended with
  | none => x
  | some o =>
    if x.running.isNone then opOn o { x with suspended := none } else { x with suspended := none, queue := o :: x.queue }

/-- The link of a port is down, as a die sees it (R242): that port's commands that have not started are discarded, its suspended
operation resumes, and what runs keeps its result in the die status. -/
def portGone (p : Fin 2) (x : Die) : Die :=
  let quiet := fun o : DieOp => if o.f.port = p then { o with silent := true } else o
  let y := { x with
    queue := x.queue.filter (fun o => o.f.port != p), running := x.running.map quiet, suspended := x.suspended.map quiet }
  if x.suspended.any fun o => o.f.port == p then resumeOn y else y

/-- The link of a port goes down (R242). -/
def linkGone (p : Fin 2) (m : Module) : Module :=
  let m := if p = 0 then { m with linkA := false } else { m with linkB := false }
  { m with dies := (m.dies.map fun q => (q.1, portGone p q.2)).filter fun q => q.2 != {} }

/-- The bridges live on; this head's port of each falls silent (R15, R242, R254). -/
def moduleKept (head : Bool) (m : Module) : Module := linkGone (if head then 1 else 0) m

/-- Does a reset leave the measurement registers and the override as they are (R33)? -/
def keepsMeasured (c : ResetCause) : Bool := c == .chipCmd || c == .lockstep0 || c == .startWdog

/-- The map entries of a batch that will name chunk record `i` (R139). -/
def batchNames (b : Batch) (i : Nat) : Nat :=
  (b.blocks.filter fun r => r.idxA == i).length + (b.blocks.filter fun r => r.idxB == i).length

/-- The counts that a batch raised are dropped (R328). -/
def dropBatchRefs (b : Batch) (s : State) : State := forEach b.held (fun p t => dropRefs p.2 (batchNames b p.1) t) s

/-- References of runs and of uncommitted batches are given back, since what would have named them is gone. -/
def dropVolatileRefs (s : State) : State :=
  let t := forEach s.ing.runs (fun r u => dropRunRefs r.id u) s
  forEach (t.snp.sessions.filter fun x => x.role != .source) (fun x u => forEach x.batches dropBatchRefs u) t

/-- Retired cache locations stay retired until the next fundamental reset (R23). -/
def retiredKept (l : Tab Slice) : Tab Slice := (l.map fun p => (p.1, { retired := p.2.retired })).filter fun p => p.2 != {}

/-- The state right after a chip-wide reset of a cause: what R33 lists survives, with what stands outside the chip. -/
def clearedState (c : ResetCause) (s : State) : State :=
  let keep := keepsMeasured c
  { glb := { powered := true, testMode := s.glb.testMode, steppingB0 := s.glb.steppingB0, unitSerial := s.glb.unitSerial,
             debugOff := s.glb.debugOff, revoked := s.glb.revoked, cause := c, headId := s.glb.headId, pinSel := s.glb.pinSel,
             ovrValid := keep && s.glb.ovrValid, ovrSel := if keep then s.glb.ovrSel else 0,
             unfinishedA := s.glb.unfinishedA, unfinishedB := s.glb.unfinishedB },
    pins := { sysResetLow := s.pins.sysResetLow, pwrFail := s.pins.pwrFail && c != .powerOn, thermTrip := s.pins.thermTrip && c != .powerOn },
    clk := { rails := s.clk.rails },
    cache := if keep then { slices := retiredKept s.cache.slices } else {},
    wch := watchKept s.wch,
    hep := { port0 := { perstLow := s.hep.port0.perstLow }, port1 := { perstLow := s.hep.port1.perstLow } },
    hqe := hqeKept s.peer.role (nowS s) s.hqe,
    ing := ingKept s.ing s.til,
    sec := { persisted := s.sec.persisted, meas := if keep then s.sec.meas else [],
             measCount := if keep then s.sec.measCount else [], serialNext := s.sec.serialTop, serialTop := s.sec.serialTop },
    med := medKept (c == .powerOn) s.med,
    plf := { records := s.plf.records },
    far := { modules := (s.far.modules.map fun p => (p.1, moduleKept s.glb.headId p.2)).filter fun p => p.2 != {} },
    par := parKept s.par,
    til := tilKept s.til,
    snp := snpKept s.snp,
    peer := { aliveIn := s.peer.aliveIn },
    svc := { nonce := freeBytes 8 s },
    nor := s.nor, freeCtr := s.freeCtr + 1, out := s.out, pending := s.pending }

/-- Begin a chip-wide reset: a flush under way stops (R447), what the NOR was doing is left undefined (R35), committed blocks
that a SOLE head alone held are lost (R98), and a PENDING snapshot is discarded with a Notice event (R315). -/
def chipWideReset (c : ResetCause) (s : State) : State :=
  let flushed := s.plf.flush.isSome || s.pins.flushHold
  let lost := if s.peer.role = .sole && !flushed then soleBlocks s else []
  let snaps := s.snp.snaps.filter fun x => x.st == .pending
  let t := clearedState c (dropVolatileRefs (norReset (stopFlush s)))
  let t := loseBlocks lost t
  forEach snaps (fun x u => raise .med .notice 315 0 [x.nsid, x.seq] u) t

end Sys2Proof.Machine
end

