-- ==== Sys2Proof/Machine/Flush.lean ====
section
/-! DEFINITION. The hold-up budget (R222 to R225), the power-loss flush (R226 to R232) and its replay. -/

namespace Sys2Proof.Machine

/-! ### The budget (R223 to R225) -/

/-- B_fix. -/
def fixedBytes : Nat := 704970752

/-- min(7 u / t_slc, 3.5 GB/s) of a module in bytes per microsecond, as a fraction. -/
def flushRate (i : ModInfo) : Nat × Nat :=
  if i.tSlcUs = 0 then (0, 1) else if 3500 * i.tSlcUs ≤ 7 * i.u then (3500, 1) else (7 * i.u, i.tSlcUs)

/-- The modules that the head holds in head role ACTIVE: its home modules (R250), and at start-up those of them that are identified. -/
def rateLanes (s : State) : List Nat :=
  (List.range 96).filter fun n =>
    isHome s n && ((laneOf s n).st == .held || (s.glb.service == .startUp && (laneOf s n).st == .identified))

/-- R_f: the sum over those modules, as a fraction. -/
def flushRates (s : State) : Nat × Nat :=
  (rateLanes s).foldl (fun a n =>
    let b := flushRate (laneOf s n).info
    (a.1 * b.2 + b.1 * a.2, a.2 * b.2)) (0, 1)

/-- The bytes of a flush at a staging limit of `n` blocks. -/
def flushBytes (n : Nat) : Nat := fixedBytes + 2 * n * 4096

/-- T_need in nanoseconds, rounded up; with no module held it takes the highest value of its field (DESIGN CHOICE). -/
def tNeedFor (s : State) (n : Nat) : Nat :=
  let r := flushRates s
  if r.1 = 0 then 6553500000 else 1000000 + (flushBytes n * 25000 * r.2 + 24 * r.1 - 1) / (24 * r.1)

/-- 9 C (V_chg² − V_cut²) over 10 (140 + 7 RDIMMs): T_avail in nanoseconds, as a fraction. -/
def availFrac (s : State) : Nat × Nat :=
  match s.pins.holdup with
  | some (c, v, u) => (9 * c * (v * v - u * u), 10 * (140 + 7 * s.drc.rdimms))
  | none => (0, 1)

/-- T_need at `n` blocks is at most 0.8 × T_avail, exactly. -/
def budgetMet (s : State) (n : Nat) : Bool :=
  let r := flushRates s
  let a := availFrac s
  decide (r.1 ≠ 0) && decide ((1000000 * 24 * r.1 + flushBytes n * 25000 * r.2) * 10 * a.2 ≤ 8 * a.1 * (24 * r.1))

/-- The largest multiple of 65,536 blocks, `k` of them at most, that meets the bound. -/
def bestLimit (s : State) : Nat → Nat
  | 0 => 0
  | k + 1 => if budgetMet s (65536 * (k + 1)) then 65536 * (k + 1) else bestLimit s k

/-- The figures of MED.PLF_BUDGET at the limit in force. -/
def noteBudget (s : State) : State :=
  let a := availFrac s
  { s with plf := { s.plf with tAvailNs := min 6553500000 (a.1 / a.2), tNeedNs := min 6553500000 (tNeedFor s (stagingLimit s)) } }

/-- R224: at start-up S itself is lowered, and a hold-up that does not carry 65,536 blocks counts as absent. -/
def lowerOffer (s : State) : State :=
  if budgetMet s s.ing.blocks then s
  else
    let b := bestLimit s (s.ing.blocks / 65536)
    let t := raise .med .fault 224 0 [b] s
    if b = 0 then { t with pins := { t.pins with holdup := none } } else { t with ing := { t.ing with blocks := b } }

/-- The message that carries S_lim to the peer; the table of messages gives it no TYPE, which stays open. -/
def sendLimit (l : Option Nat) (s : State) : State := toPeer (Config.firmwareField 225 0 % 256) l.toList [] s

/-- A new limit of this head. -/
def setLimit (l : Option Nat) (s : State) : State :=
  if s.ing.sLim = l then s else sendLimit l { s with ing := { s.ing with sLim := l } }

/-- R225. -/
def adjustLimit (s : State) : State :=
  let floor_ := sumG s + 65536
  let best := max (bestLimit s (s.ing.blocks / 65536)) floor_
  if budgetMet s (stagingLimit s) then
    (if budgetMet s s.ing.blocks then setLimit none s
     else setLimit (s.ing.sLim.map fun n => max n best) s)
  else
    let t := raise .med .fault 225 0 [best] (setLimit (some best) s)
    raiseIf (!budgetMet s floor_) .med .critical 225 1 [floor_] t

/-- HOLDUP_BUDGET_EVAL (R223 to R225). -/
def holdupEffect (s : State) : State :=
  if s.pins.holdup.isNone then noteBudget s
  else noteBudget (if s.glb.service = .startUp then lowerOffer s else adjustLimit s)

def execHoldupBudgetEval (s : State) : Res := run .holdupBudgetEval holdupEffect s

/-! ### The flush (R226 to R229, R232) -/

/-- The erases on flush dies are suspended and abandoned. -/
def abandonErases (s : State) : State :=
  let mine := s.med.dieRuns.filter fun r => r.erase && decide (r.die ∈ flushDies (laneOf s r.lane).info)
  let t := forEach mine (fun r u => if r.held then u else farUrgent r.lane (dieCmd 0x14 r.die) u) s
  { t with med := { t.med with dieRuns := t.med.dieRuns.filter fun r => !(r ∈ mine) } }

/-- A flush begins: fetching stops, the peer is told T_need, the heartbeat stops, and erases on flush dies end. -/
def beginFlush (s : State) : State :=
  if s.plf.flush.isSome || s.pins.flushHold then s
  else
    let r : FlushRec := ⟨0, false, 0, [], [], [], [], [], [], s.peer.role == .active⟩
    let t := toPeer 0x22 [tNeedFor s (stagingLimit s)] [] s
    restat (abandonErases { t with
      plf := { t.plf with flush := some ⟨false, 0, r, false⟩ }, pins := { t.pins with flushing := true },
      peer := { t.peer with aliveOut := false } })

/-- What a failing supply does (R226, R44, R60): the NOR work and self-refresh end; in START-UP the chip holds instead of flushing; in
ROM-SERVICE there is nothing to flush. -/
def powerLoss (s : State) : State :=
  let t := leaveSelfRefresh (norPowerFail { s with drc := { s.drc with frozen := true } })
  match s.glb.service with
  | .startUp => { t with pins := { t.pins with startHold := true } }
  | .romService => t
  | _ => beginFlush t

/-- PWR_FAIL_ASSERT (R226, R44, R60): a low of 2 µs or longer. -/
def pwrFailEffect (lowNs : Nat) (s : State) : State :=
  if lowNs < 2000 || s.pins.pwrFail then s
  else
    let t := { s with pins := { s.pins with pwrFail := true } }
    if s.glb.resetHeld || !s.glb.powered then t else powerLoss t

def execPwrFailAssert (lowNs : Nat) (s : State) : Res := run (.pwrFailAssert lowNs) (pwrFailEffect lowNs) s

def modFlush (f : Flush → Flush) (s : State) : State := { s with plf := { s.plf with flush := s.plf.flush.map f } }

/-- QUIESCE_DONE (R226, R68, R105): admitted writes are settled with no completion posted, those too that wait for the peer's
acknowledgement, since the flush saves their blocks; the maps freeze, P3 is left, and class 1 begins. -/
def quiesceEffect (s : State) : State :=
  match s.plf.flush with
  | none => s
  | some f =>
    if f.quiesced then s
    else
      let t := settleQueues (fun _ => true) (if asleep s then wake s else s)
      let t := forEach (t.hqe.cmds.map (·.id)) settleOne t
      let t := forEach (t.hqe.cmds.filter fun c => c.stage == .mirroring) (fun c => endWrite c c.good c.status) t
      modFlush (fun x => { x with quiesced := true, cls := 1 }) { t with med := { t.med with frozenMaps := true } }

def execQuiesceDone (s : State) : Res := run .quiesceDone quiesceEffect s

/-- The progress marks that a class leaves: one each for classes 1 and 2, one for every 256 MiB of classes 3 and 4. -/
def classMarks (s : State) (c : Fin 5) : Nat :=
  if c = 3 then marksOf (ownBlocks s).length else if c = 4 then marksOf s.ing.mirror.length else 1

/-- FLUSH_CLASS_DONE (R227, R229). -/
def classDoneEffect (s : State) : State :=
  match s.plf.flush with
  | none => s
  | some f =>
    if !f.quiesced || f.rec_.cls == f.cls then s
    else
      let r := addClass f.cls s f.rec_
      modFlush (fun x => { x with rec_ := { r with marks := r.marks + classMarks s f.cls }, cls := if f.cls = 4 then 4 else f.cls + 1 }) s

def execFlushClassDone (s : State) : Res := run .flushClassDone classDoneEffect s

/-- FLUSH_COMPLETE (R227, R228, R392, R455): the final mark stands, the peer is told, DRAM enters self-refresh, and after a
thermal shutdown THERMTRIP_L falls. A flush during which PWR_FAIL_L rose ends in a chip command reset (R232). -/
def flushCompleteEffect (s : State) : State :=
  match s.plf.flush with
  | none => s
  | some f =>
    if f.rec_.cls != 4 then s
    else
      let t := toPeer 0x23 [] [] (keepRecord { f.rec_ with final := true, marks := f.rec_.marks + 1 } s)
      let t := enterSelfRefresh { t with
        pins := { t.pins with flushing := false, flushHold := true, thermTrip := t.pins.thermTrip || t.pins.thermal } }
      if f.resetAfter then chipWideReset .chipCmd t else restat t

def execFlushComplete (s : State) : Res := run .flushComplete flushCompleteEffect s

/-- PWR_FAIL_DEASSERT (R232). -/
def pwrReturnEffect (s : State) : State :=
  modFlush (fun x => { x with resetAfter := true })
    { s with pins := { s.pins with pwrFail := false }, drc := { s.drc with frozen := s.drc.frozen && (s.plf.flush.isSome || s.pins.flushHold) } }

def execPwrFailDeassert (s : State) : Res := run .pwrFailDeassert pwrReturnEffect s

/-! ### Replay (R230, R231, R407) -/

/-- Class 1 of the records: event records go to the archive area ahead of the new session's, and the settlement log takes the
newest saved state. -/
def replayLog (s : State) : State :=
  let ev := (s.plf.records.flatMap (·.events)).filter fun b => !(b ∈ s.til.archived)
  let log := (s.plf.records.filter fun r => 1 ≤ r.cls.val).getLast?
  let t := { s with til := { s.til with archived := ev ++ s.til.archived } }
  match log with
  | some r => { t with hqe := { t.hqe with settle := r.settle } }
  | none => t

/-- The figures of MED.PLF_LAST from the newest record. -/
def notePlf (s : State) : State :=
  match s.plf.records.getLast? with
  | some r => { s with plf := { s.plf with short := !r.final, lastClass := r.cls, marks := r.marks } }
  | none => s

/-- Is a saved block whole: does its CRC check (R229)? -/
def savedWhole (x : Saved) : Bool := savedCrc x.m == x.crc

def sameBlock (a b : MirEntry) : Bool := a.nsid == b.nsid && a.lba == b.lba && a.gen == b.gen

/-- The blocks of a record that count as not saved, beside those known to be lost: their CRC fails, and no record holds a whole copy
(R229, R393). -/
def damaged (l : List FlushRec) (r : FlushRec) : List MirEntry :=
  ((r.blocks.filter fun x => !savedWhole x).map (·.m)).filter fun m =>
    !(r.lost.any (sameBlock m)) && !((l.flatMap (·.blocks)).any fun y => savedWhole y && sameBlock m y.m)

/-- The blocks that the records lack: lost, unless they were mirrored and the peer is there to hold them. -/
def replayLost (s : State) : State :=
  forEach s.plf.records (fun r t => if r.active && t.peer.linkUp then t else loseBlocks (r.lost ++ damaged s.plf.records r) t) s

/-- Does a block need staging: its namespace exists, and neither staging nor the maps hold it at that generation or above? -/
def needsStaging (s : State) (m : MirEntry) : Bool :=
  (nsOf s m.nsid).isSome && !((entriesOf s m.nsid m.lba).any fun e => genAtOrBelow m.gen e.gen)
    && genHigher m.gen (publishedGen s m.nsid m.lba)

/-- Has a block been placed, or gone with its namespace? -/
def replayed (s : State) (m : MirEntry) : Bool :=
  (nsOf s m.nsid).isNone || genAtOrBelow m.gen (publishedGen s m.nsid m.lba)

/-- Stage a saved block again; it waits while its set is full. It holds no credit (DESIGN CHOICE). -/
def restage (m : MirEntry) (s : State) : State :=
  if !needsStaging s m then s
  else
    match freeWays s (setOf s m.nsid m.lba) with
    | [] => s
    | w :: _ =>
      let e : StEntry :=
        { slot := w, nsid := m.nsid, lba := m.lba, gen := m.gen, st := .filling, mirrored := false, data := m.data,
          dealloc := m.data.isEmpty, cmd := 0, block := m.block, tenant := none, tag := m.tag, nblk := m.nblk,
          order := s.ing.clock, idle := false, aged := false, run := none, old := none }
      reachStaged e m.tag m.nblk
        (noteOccupancy { s with ing := { s.ing with staging := s.ing.staging ++ [e], clock := s.ing.clock + 1 } })

/-- Classes 2 of the records, the older first: the journals are applied over the last checkpoint, and the open dense blocks are checked
against the accumulators that were saved, which go on with them. -/
def replayMaps (s : State) : State :=
  let t := rebuildMaps (s.plf.records.flatMap (·.journal)) s
  let openBlocks := (t.med.segs.filter fun g => (g.st == .open_ || g.st == .closing) && !g.slc).flatMap (·.members)
  match (s.plf.records.filter fun r => 2 ≤ r.cls.val).getLast? with
  | some r => { t with med := { t.med with accs := r.accs.filter fun a => decide (a.block ∈ openBlocks) } }
  | none => t

/-- FLUSH_REPLAY (R230, R231): the classes are applied once, oldest record first; blocks whose CRC checks are staged as their sets have
room; the records are consumed once all those blocks are placed. -/
def flushReplayEffect (s : State) : State :=
  if s.glb.service != .recovery || s.plf.records.isEmpty then s
  else
    let t := if s.plf.replayStep = 0 then
        let u := replayLost (notePlf (replayMaps (replayLog s)))
        { u with plf := { u.plf with replayStep := 1 } }
      else s
    let bs := ((t.plf.records.flatMap (·.blocks)).filter savedWhole).map (·.m)
    let t := forEach bs restage t
    if bs.all (replayed t) then readmit { t with plf := { t.plf with records := [], replayStep := 0 } } else readmit t

def execFlushReplay (s : State) : Res := run .flushReplay flushReplayEffect s

end Sys2Proof.Machine
end

