-- ==== Sys2Proof/Machine/Roles.lean ====
section
/-! DEFINITION. Head-role changes (R334, R337, R341), what a head that stops serving lets go, and members that go missing
(R265, R266). -/

namespace Sys2Proof.Machine

/-! ### Members (R265, R266) -/

/-- Has a segment data whose members matter? -/
def holdsData (g : Seg) : Bool := !(g.st == .free || g.st == .dirty || g.st == .retired)

/-- Stripes still in buffers are packed again: their chunks stay PLACING, and what was being relocated is relocated again. -/
def repack (no : Nat) (s : State) : State :=
  let bales := ((s.med.stripes.filter fun t => t.seg == no).flatMap (·.bales)).filter fun b => decide (b < objMark)
  let open_ := fun g k => g == no && s.med.stripes.any fun t => t.seg == g && t.stripe == k
  let moved := bales.filter fun b => !(s.ing.chunks.any fun c => c.no == b && c.stage == .placing)
  let cs := modAll (fun c : Chunk => c.stage == .placing && decide (c.no ∈ bales)) (fun c => { c with stage := .stored }) s.ing.chunks
  let s := loseObjects open_ s
  let srcs := moved.filterMap fun b => (chunkOf s b).map fun e => (b, e.seg)
  startCopies { s with
    ing := { s.ing with chunks := cs },
    med := { s.med with stripes := s.med.stripes.filter (fun t => t.seg != no), relocating := s.med.relocating ++ srcs } }

/-- R266: an OPEN segment closes at once. -/
def closeOpen (no : Nat) (s : State) : State :=
  repack no (forSome (segOf s no) closeSeg s)

/-- The OPEN segments with a member that meets a test close. -/
def closeOpenWith (p : Member → Bool) (s : State) : State :=
  forEach (s.med.segs.filter fun g => g.st == .open_ && g.members.any p) (fun g t => closeOpen g.no t) s

/-- The positions of a segment's members that meet a test. -/
def positionsOf (p : Member → Bool) (g : Seg) : List Nat :=
  (List.range g.members.length).filter fun i => match g.members[i]? with
    | some m => p m
    | none => false

/-- Members become missing (R265); an OPEN segment closes first. -/
def missMembers (p : Member → Bool) (s : State) : State :=
  let t := closeOpenWith p s
  let l := modAll holdsData (fun g => { g with missing := (positionsOf p g).foldl (fun a i => insertNat i a) g.missing }) t.med.segs
  { t with med := { t.med with segs := l } }

/-! ### Roles -/

/-- Control pair 1 runs heartbeat, fail-over, claims and the role epoch (R19). -/
def pair1Up (s : State) : Bool := !s.peer.pair1.inReset

/-- The conditions under which PEER_ALIVE_OUT is high and BEAT is sent (R337). -/
def beats (s : State) : Bool :=
  s.peer.wdogFresh && !s.peer.pair1.inReset && s.glb.service != .startUp && s.glb.service != .romService && !s.pins.pwrFail
    && !s.pins.flushing

def aliveNow (s : State) : Bool := beats s && s.peer.role != .service

/-- PEER_ALIVE_OUT follows its conditions. -/
def noteAlive (s : State) : State := { s with peer := { s.peer with aliveOut := aliveNow s } }

/-- A frame of this chip on the chain. A wrapped port's frames leave through the other port (R369); with both wrapped none leaves. -/
def chainSend (type : Nat) (args : List Nat) (s : State) : State :=
  onlyIf (!(s.mch.port0.wrapped && s.mch.port1.wrapped))
    (emit (.chain (if s.mch.port1.wrapped then 0 else 1) (BitVec.ofNat 8 type) 0 s.glb.unitSerial args)) s

/-- The EPOCH frame of a chip that holds an address (R378). -/
def tellEpoch (s : State) : State :=
  onlyIf (s.mch.addrValid && !s.peer.pair2.inReset)
    (chainSend 0x31 [s.mch.address.toNat, roleCode s.peer.role, serviceCode s.glb.service, s.peer.epoch.toNat]) s

/-- The head takes a role, with the cause that PEER.LAST_CHANGE shows; a checkpoint follows (R299), and the new epoch goes into the root
records (R342). -/
def setRole (r : Role) (cause : Nat) (s : State) : State :=
  writeRoots (restat (noteAlive { s with
    peer := { s.peer with role := r, roleChosen := true, lastCause := cause, changeAt := nowS s },
    til := { s.til with bothHeads := r == .sole, due := s.til.due || r == .active || r == .sole } }))

/-- The lanes whose modules the head commands become PEER_HELD, with nothing outstanding. -/
def letLanesGo (s : State) : State :=
  forEach (heldLanes s) (fun n t => modLane n (fun l => { l with st := .peerHeld, out := [], waiting := [], claiming := false }) t)
    { s with med := { s.med with dieRuns := [] } }

/-- PENDING snapshots are discarded, with a Notice event; a SNAP CREATE ends with 0x7011, or with 0x6002 before its cut (R315). -/
def dropPending (s : State) : State :=
  let lost := s.snp.snaps.filter fun x => x.st == .pending
  let t := { s with snp := { s.snp with
    snaps := s.snp.snaps.filter (fun x => x.st != .pending), holds := [], sessions := s.snp.sessions.map sessKept } }
  let t := forEach ((lost.filterMap (·.cmd)).eraseDups) (fun id u => finishCmd id 0x7011 0 0 u) t
  let t := forEach (s.snp.holds.map (·.1)) (fun id u => finishCmd id 0x6002 0 0 u) t
  forEach lost (fun x u => raise .med .notice 315 0 [x.nsid, x.seq] u) t

/-- An I/O command of a head that stops serving: a write keeps the leading blocks that the peer has acknowledged, and its
settlement entry says so (R91, R105). -/
def letGo (id : Nat) (s : State) : State :=
  match cmdOf s id with
  | none => s
  | some c =>
    let k := prefixLen c.acked c.nblk 0
    if c.op == 0x81 || c.op == 0x82 then endWrite c k (if k = c.nblk then 0 else 0x6002) s
    else finishCmd id 0x6002 0 0 (dropJobs id s)

/-- What a head lets go as it enters SERVICE: outstanding I/O ends with 0x6002, staged and mirrored blocks and everything on
its way to media go, since the peer holds the copies and the modules. The entries that are PENDING or settled within 1 s are
pinned (R106), and stay for STATE QUERY (R108). -/
def letWorkGo (s : State) : State :=
  let ids := (s.hqe.cmds.filter fun c => decide (128 ≤ c.op.toNat) && (match c.stage with
    | .relayed _ => false
    | _ => true)).map (·.id)
  let t := forEach ids letGo (pinEntries (fun e => !e.ofPeer) (dropPending (dropVolatileRefs s)))
  letLanesGo <| (fun t => { t with med := { t.med with stripes := [], copies := [], accs := [] } }) <|
    loseObjects (fun g k => t.med.stripes.any fun x => x.seg == g && x.stripe == k) { t with
    hqe := { t.hqe with
      tenants := t.hqe.tenants.map fun x => { x with gHeld := 0, pHeld := 0 } },
    ing := { t.ing with staging := [], mirror := [], runs := [], chunks := [], windows := [] },
    bal := { t.bal with decoders := [] },
    par := { t.par with jobs := [], ckpts := [] },
    med := { t.med with chunks := t.med.chunks.filter (fun e => e.st != .placing), relocating := [] } }

/-- The head enters SERVICE; what waited at admission is relayed or answered (R94, R334). -/
def enterService (cause : Nat) (s : State) : State :=
  wakeBehind (setRole .service cause (letWorkGo s))

/-- R341: superseded. -/
def superseded (s : State) : State := if s.peer.role = .service then s else enterService 6 s

end Sys2Proof.Machine
end

