-- ==== Sys2Proof/Machine/Jobs.lean ====
section
/-! DEFINITION. Job checkpoints (R273, R274), the start of rebuild jobs (R265, R270), and vacated modules (R284). -/

namespace Sys2Proof.Machine

/-! ### Checkpoints -/

/-- The checkpoint of a job as it stands now. LAYOUT_TO of a rebuild, which writes under several slots, is open. -/
def ckptOf (s : State) (j : Job) : JobCkpt :=
  { kind := BitVec.ofNat 8 (jobKindCode j.kind), phase := BitVec.ofNat 8 j.phase, epoch := s.peer.epoch,
    sequence := s.par.ckptSeq + 1, leader := s.glb.headId,
    slot := if j.kind == .rebuild then 0xFF else BitVec.ofNat 8 j.slot,
    layoutFrom := if j.kind == .rebuild then 0 else BitVec.ofNat 16 j.from_,
    layoutTo := if j.kind == .rebuild then BitVec.ofNat 16 (Config.firmwareField 273 0) else BitVec.ofNat 16 j.to_.id,
    die := BitVec.ofNat 16 j.die, lanes := j.lanes, cursor := j.cursor, done := j.done, granules := j.granules,
    seconds := (stampSeconds s).toNat }

/-- Do two checkpoints belong to one job? -/
def sameJob (a b : JobCkpt) : Bool :=
  a.kind == b.kind && a.slot == b.slot && a.die == b.die && a.layoutFrom == b.layoutFrom && a.lanes == b.lanes

def modJobOf (id : Nat) (f : Job → Job) (s : State) : State :=
  { s with par := { s.par with jobs := modFirst (fun j => j.id == id) f s.par.jobs } }

/-- R274: a checkpoint is written, and in role ACTIVE sent to the peer. -/
def writeCkpt (id : Nat) (s : State) : State :=
  match s.par.jobs.find? fun j => j.id == id with
  | none => s
  | some j =>
    let c := ckptOf s j
    let t := { s with par := { s.par with
      ckptSeq := s.par.ckptSeq + 1, ckpts := s.par.ckpts.filter (fun x => !sameJob x c) ++ [c] } }
    let t := (newObject (objKey 12 0) c.sequence (fun q => t.par.ckpts.any fun x => x.sequence == q) (ckptBytes c) t).2
    if s.peer.role = .active && s.peer.linkUp then
      toPeer 0x17 [] (ckptBytes c) (modJobOf id (fun x => { x with sinceCkpt := 0, unacked := x.unacked + 1 }) t)
    else modJobOf id (fun x => { x with sinceCkpt := 0 }) t

/-- May a job write some more checkpoints? In role ACTIVE it is never more than two ahead of the last one that the peer has acknowledged
(R274). -/
def ckptRoom (s : State) (j : Job) (n : Nat) : Bool := s.peer.role != .active || decide (j.unacked + n ≤ 2)

/-- A job ends: its last checkpoint is on media, and nothing of it is left to resume. -/
def endTask (id : Nat) (s : State) : State :=
  match s.par.jobs.find? fun j => j.id == id with
  | none => s
  | some j =>
    let t := writeCkpt id s
    let c := ckptOf s j
    { t with par := { t.par with
      jobs := t.par.jobs.filter (fun x => x.id != id), ckpts := t.par.ckpts.filter fun x => !sameJob x c } }

/-- A new job runs, with its first checkpoint. -/
def addTask (j : Job) (s : State) : State :=
  writeCkpt s.par.nextJob { s with par := { s.par with
    jobs := s.par.jobs ++ [{ j with id := s.par.nextJob }], nextJob := s.par.nextJob + 1 } }

/-! ### The start of a rebuild (R265, R270) -/

def rebuilds (s : State) : List Job := s.par.jobs.filter fun j => j.kind == .rebuild

/-- A missing module or die has its job: a new one, or with eight known the newest. -/
def startRebuild (n die : Nat) (s : State) : State :=
  if (rebuilds s).any fun j => decide (n ∈ j.lanes) && (j.die == die || j.die == 0xFFFF) then s
  else if (rebuilds s).length < 8 then
    addTask ⟨0, .rebuild, 1, false, true, 0xFF, 0, {}, [n], die, 0, 0, 0, 0, 0⟩ s
  else
    match (rebuilds s).getLast? with
    | none => s
    | some j => modJobOf j.id (fun x => { x with
        lanes := insertNat n x.lanes, die := if x.lanes = [n] then x.die else 0xFFFF, phase := 1, cursor := 0 }) s

/-- Members of a module, or of one die of it (0xFFFF: all), become missing; a rebuild starts when data is affected. -/
def memberLost (n die : Nat) (s : State) : State :=
  let p := fun m : Member => m.lane == n && (die == 0xFFFF || m.die == die)
  let hit := s.med.segs.any fun g => holdsData g && g.members.any p
  let t := missMembers p s
  if hit && s.peer.role != .service then startRebuild n die t else t

/-- A block was retired and no spare could take its place: the members of a segment that are newly missing have their job (R265). -/
def jobsForMissing (no : Nat) (s t : State) : State :=
  match segOf s no, segOf t no with
  | some a, some b =>
    if s.peer.role == .service then t
    else forEach ((b.missing.filter fun p => !decide (p ∈ a.missing)).filterMap fun p => b.members[p]?)
      (fun m u => startRebuild m.lane m.die u) t
  | _, _ => t

def execBlockVerifyDone (seg member maxCorr : Nat) (uncorrectable : List Nat) (s : State) : Res :=
  run (.blockVerifyDone seg member maxCorr uncorrectable)
    (fun t => jobsForMissing seg t (blockVerifyDoneEffect seg member maxCorr uncorrectable t)) s

/-! ### Vacated modules (R284) -/

/-- This head's own conditions for a module being vacated. -/
def vacatedHere (s : State) (n : Nat) : Bool :=
  !(decide (n ∈ s.par.ordinary.elig) || decide (n ∈ s.par.archive.elig) || decide (n ∈ s.par.metadata.elig))
    && !(s.med.segs.any fun g => onLane g n && !(liveIn s g.no).isEmpty)
    && s.plf.records.isEmpty && !(s.par.jobs.any fun j => decide (n ∈ j.lanes))

/-- The lanes that have become vacated; whether the other head's conditions hold too is a free choice while it serves. -/
def noteVacated (s : State) : State :=
  let both := s.peer.role == .sole || freePick 2 s == 1
  let l := (List.range 96).filter fun n =>
    ((laneOf s n).st == .held || (laneOf s n).st == .peerHeld) && vacatedHere s n && both
  { s with par := { s.par with vacated := l.foldl (fun a n => insertNat n a) (s.par.vacated.filter (vacatedHere s)) }, freeCtr := s.freeCtr + 1 }

end Sys2Proof.Machine
end

