-- ==== Sys2Proof/Machine/Bridge.lean ====
section
/-! DEFINITION. A flash module's bridge (R243 to R254): the commands as they reach it, its dies and their queues, claims and
ports. -/

namespace Sys2Proof.Machine

/-! ### The module behind a lane -/

def bridgeOf (s : State) (n : Nat) : Module := tabGet {} n s.far.modules

def modBridge (n : Nat) (f : Module → Module) (s : State) : State :=
  { s with far := { s.far with modules := tabMod {} n f s.far.modules } }

/-- The information page of the module on a lane (R243). -/
def pageOfBridge (s : State) (n : Nat) : Bytes := if (bridgeOf s n).page.isEmpty then Config.modulePage n else (bridgeOf s n).page

def bridgeInfo (s : State) (n : Nat) : ModInfo := infoOf (pageOfBridge s n)

def dieOf (s : State) (n d : Nat) : Die := tabGet {} d (bridgeOf s n).dies

def modDie (n d : Nat) (f : Die → Die) (s : State) : State := modBridge n (fun m => { m with dies := tabMod {} d f m.dies }) s

/-- The key of an erase block: die, plane, block. -/
def nandKey (die plane block : Nat) : Nat := die * 2 ^ 26 + plane * 2 ^ 24 + block

def nandOf (s : State) (n k : Nat) : NandBlock := tabGet {} k (bridgeOf s n).blocks

def modNand (n k : Nat) (f : NandBlock → NandBlock) (s : State) : State :=
  modBridge n (fun m => { m with blocks := tabMod {} k f m.blocks }) s

/-- The planes of a mask. -/
def planesOf (m : Nat) : List Nat := (List.range 4).filter fun p => m.testBit p

def frameKeys (f : FarFrame) : List Nat := (planesOf f.planes.toNat).map fun p => nandKey f.die.toNat p f.block.toNat

/-- Credits of a port to be returned with its next LINK frame (R240). -/
def freeCredits (n : Nat) (p : Fin 2) (cmd data : Nat) (s : State) : State :=
  modBridge n (fun m =>
    if p = 0 then { m with freedA := (m.freedA.1 + cmd, m.freedA.2 + data) } else { m with freedB := (m.freedB.1 + cmd, m.freedB.2 + data) }) s

/-- A completion on the port that a command came by, with the module's current claim in its header; its command credit is freed, and the
data credits of a payload that never reached a page register. -/
def complete (op : Byte) (f : FarFrame) (status : Word16) (aux corr busy : Nat) (data : Bytes) (s : State) : State :=
  let started := (op == 0x11 || op == 0x12) && (status == 0 || status == 0x12 || status == 0x40)
  let t := if op == 0x30 then s else freeCredits f.lane.val f.port 1 (if started then 0 else dataUnits f.payload) s
  emit (.bridge f.lane.val f.port op f.tag.toNat status (bridgeOf s f.lane.val).curClaim aux corr busy data) t

/-! ### Checks (R237, R244, R251, the completion status table) -/

/-- The two ports carry different lane numbers: neither is served with NAND operations (R237). -/
def crossed (m : Module) : Bool := m.laneA != 0xFF && m.laneB != 0xFF && m.laneA != m.laneB

/-- The port that owns the module, as the owner code of R243. -/
def portCode (p : Fin 2) : Fin 3 := if p = 0 then 1 else 2

/-- Is the frame sent under the module's current claim by its owner port (R251)? -/
def underClaim (m : Module) (f : FarFrame) : Bool := f.claim == m.curClaim && m.owner == portCode f.port

/-- The fields that a command uses keep to this chapter. -/
def frameOk (op : Byte) (f : FarFrame) : Bool :=
  let k := (planesOf f.planes.toNat).length
  if op == 0x10 then f.payload.isEmpty && decide (1 ≤ k) && decide (f.count.toNat ≤ 32) && (f.count == 0 || k == 1)
  else if op == 0x11 then decide (1 ≤ k) && f.payload.length == 16384 * k && f.count == 0
  else if op == 0x12 then k == 1 && decide (1 ≤ f.count.toNat) && decide (f.count.toNat ≤ 32) && f.payload.length == 512 * f.count.toNat
  else if op == 0x13 then decide (1 ≤ k) && f.payload.isEmpty
  else if op == 0x20 then f.payload.length % 32 == 0 && !f.payload.isEmpty
  else f.payload.isEmpty

/-- Does a command name a block? -/
def namesBlock (op : Byte) : Bool := op == 0x10 || op == 0x11 || op == 0x12 || op == 0x13

/-- Die, block, page, plane and granule lie inside the information page. -/
def addrOk (i : ModInfo) (op : Byte) (f : FarFrame) : Bool :=
  decide (f.die.toNat < dieCount i)
    && (!namesBlock op ||
      (decide (f.block.toNat < i.blocks) && decide (f.planes.toNat < 2 ^ i.planes)
        && (op == 0x13 || decide (f.page.toNat < if f.slc then i.pagesS else i.pagesD))
        && decide (f.offset.toNat + f.count.toNat ≤ 32)))

/-- The channel of a die (PRESUMED: dies are numbered channel by channel). -/
def channelOf (i : ModInfo) (die : Nat) : Nat := if i.perChan = 0 then 0 else die / i.perChan

/-- Has the die's channel received an interface record (R244)? -/
def channelReady (m : Module) (i : ModInfo) (die : Nat) : Bool := !(tabGet [] (channelOf i die) m.params).isEmpty

/-- The status with which a NAND operation is completed at once; none when it goes to its die. -/
def nandRefusal (s : State) (op : Byte) (f : FarFrame) : Option Word16 :=
  let m := bridgeOf s f.lane.val
  let i := bridgeInfo s f.lane.val
  if !underClaim m f then some 0x20
  else if !frameOk op f then some 0x31
  else if !addrOk i op f then some 0x30
  else if (dieOf s f.lane.val f.die.toNat).st = 3 then some 0x40
  else if !channelReady m i f.die.toNat then some 0x32
  else none

/-- A NAND operation arrives: not served while the ports are crossed, refused, or handled by its die. -/
def nandCommand (op : Byte) (f : FarFrame) (act : State → State) (s : State) : State :=
  if crossed (bridgeOf s f.lane.val) then s
  else
    match nandRefusal s op f with
    | some st => complete op f st 0 0 0 [] s
    | none => act s

/-! ### A die's queue (R245 to R248) -/

/-- Do two commands touch a block in common? -/
def sharesBlock (a b : FarFrame) : Bool := a.block == b.block && (a.planes &&& b.planes) != 0

/-- May a PROGRAM of a page go on a block (R246)? -/
def programOk (b : NandBlock) (f : FarFrame) : Bool :=
  (!f.slc || b.slc) && (f.page == 0 || f.page.toNat == b.next)

def granulesOfFrame (f : FarFrame) : List Nat := (List.range f.count.toNat).map fun i => f.offset.toNat + i

/-- May a PARTIAL PROGRAM go on a block (R247)? -/
def partialOk (i : ModInfo) (b : NandBlock) (f : FarFrame) : Bool :=
  b.slc && (f.page.toNat == b.next
    || (f.page.toNat + 1 == b.next && decide (b.partials < i.partials)
        && (granulesOfFrame f).all fun g => !(g ∈ b.written)))

/-- The order rules, checked as the operation starts. -/
def startOk (s : State) (o : DieOp) : Bool :=
  let bs := (frameKeys o.f).map (nandOf s o.f.lane.val)
  if o.op == 0x11 then bs.all fun b => programOk b o.f
  else if o.op == 0x12 then bs.all fun b => partialOk (bridgeInfo s o.f.lane.val) b o.f
  else true

/-- An operation starts on its die; a payload has then been moved to the page register, and its data credits are freed (R240). -/
def startOp (n d : Nat) (o : DieOp) (s : State) : State :=
  freeCredits n o.f.port 0 (dataUnits o.f.payload) (modDie n d (opOn o) s)

/-- Does a die's channel wait to take new interface records: nothing new starts on it (R244)? -/
def channelHeld (s : State) (n d : Nat) : Bool :=
  !(tabGet [] (channelOf (bridgeInfo s n) d) (bridgeOf s n).newParams).isEmpty

/-- Start what may start on a die: the oldest command while it is idle; the oldest READ outside the affected block while an
operation is suspended. `k` bounds the commands that fail at their start. -/
def dieServe (n d : Nat) : Nat → State → State
  | 0, s => s
  | k + 1, s =>
    let x := dieOf s n d
    if x.running.isSome || channelHeld s n d then s
    else
      match x.suspended with
      | some w =>
        match x.queue.find? fun o => o.op == 0x10 && !sharesBlock o.f w.f with
        | some o => startOp n d o (modDie n d (fun y => { y with queue := y.queue.erase o }) s)
        | none => s
      | none =>
        match x.queue with
        | [] => s
        | o :: r =>
          let t := modDie n d (fun y => { y with queue := r }) s
          if startOk t o then startOp n d o t else dieServe n d k (complete o.op o.f 0x33 0 0 0 [] t)

def serveDie (n d : Nat) (s : State) : State := dieServe n d ((dieOf s n d).queue.length + 1) s

/-- A READ, PROGRAM, PARTIAL PROGRAM or ERASE joins its die's queue; while an operation is suspended, only a READ outside the
affected block is accepted (R248). -/
def joinDie (op : Byte) (f : FarFrame) (s : State) : State :=
  let n := f.lane.val
  let d := f.die.toNat
  let refused := match (dieOf s n d).suspended with
    | some w => op != 0x10 || sharesBlock f w.f
    | none => false
  if refused then complete op f 0x33 0 0 0 [] s
  else serveDie n d (modDie n d (fun x => { x with queue := x.queue ++ [⟨op, f, false⟩] }) s)

/-- FARIUM_READ (R245). -/
def execFariumRead (f : FarFrame) (s : State) : Res := run (.fariumRead f) (nandCommand 0x10 f (joinDie 0x10 f)) s

/-- FARIUM_PROGRAM (R246). -/
def execFariumProgram (f : FarFrame) (s : State) : Res := run (.fariumProgram f) (nandCommand 0x11 f (joinDie 0x11 f)) s

/-- PARTIAL_PROGRAM (R247). -/
def execPartialProgram (f : FarFrame) (s : State) : Res := run (.partialProgram f) (nandCommand 0x12 f (joinDie 0x12 f)) s

/-- FARIUM_ERASE (R245). -/
def execFariumErase (f : FarFrame) (s : State) : Res := run (.fariumErase f) (nandCommand 0x13 f (joinDie 0x13 f)) s

/-- A program or erase, which a SUSPEND may stop. -/
def suspendable (o : DieOp) : Bool := o.op != 0x10

/-- FARIUM_SUSPEND (R248). -/
def suspendDie (f : FarFrame) (s : State) : State :=
  let n := f.lane.val
  let d := f.die.toNat
  let x := dieOf s n d
  match x.running with
  | some o =>
    if suspendable o && x.suspended.isNone then
      serveDie n d (complete 0x14 f 0 o.op.toNat 0 0 []
        (modDie n d (fun y => { y with running := none, suspended := some o, st := 2 }) s))
    else complete 0x14 f 0x33 0 0 0 [] s
  | none => complete 0x14 f 0x33 0 0 0 [] s

def execFariumSuspend (f : FarFrame) (s : State) : Res := run (.fariumSuspend f) (nandCommand 0x14 f (suspendDie f)) s

/-- A suspended operation of a die goes on. -/
def resumeOp (n d : Nat) (s : State) : State := modDie n d resumeOn s

/-- FARIUM_RESUME (R248). -/
def resumeCommand (f : FarFrame) (s : State) : State :=
  if (dieOf s f.lane.val f.die.toNat).suspended.isNone then complete 0x15 f 0x33 0 0 0 [] s
  else resumeOp f.lane.val f.die.toNat (complete 0x15 f 0 0 0 0 [] s)

def execFariumResume (f : FarFrame) (s : State) : Res := run (.fariumResume f) (nandCommand 0x15 f (resumeCommand f)) s

/-- The die status record of R249. -/
def statusRecord (x : Die) : Bytes :=
  [BitVec.ofNat 8 x.st.val, x.op] ++ leBytes 2 x.status.toNat ++ leBytes 2 x.tag.toNat ++ leBytes 2 x.page.toNat
    ++ leBytes 4 x.block.toNat ++ leBytes 4 x.claim.toNat

/-- FARIUM_STATUS (R249, R251): served on either port whatever the claim. -/
def statusCommand (f : FarFrame) (s : State) : State :=
  let n := f.lane.val
  let i := bridgeInfo s n
  if !frameOk 0x16 f then complete 0x16 f 0x31 0 0 0 [] s
  else if f.all then complete 0x16 f 0 0 0 0 ((List.range (dieCount i)).flatMap fun d => statusRecord (dieOf s n d)) s
  else if f.die.toNat < dieCount i then complete 0x16 f 0 0 0 0 (statusRecord (dieOf s n f.die.toNat)) s
  else complete 0x16 f 0x30 0 0 0 [] s

def execFariumStatus (f : FarFrame) (s : State) : Res := run (.fariumStatus f) (statusCommand f) s

/-- The granules of an earlier page that partial programs left unwritten are remembered as the next page begins. -/
def turnPage (p : Nat) (b : NandBlock) : NandBlock :=
  if p + 1 = b.next ∨ b.next = 0 ∨ b.written.length = 32 then b else { b with parts := b.parts ++ [(b.next - 1, b.written)] }

/-- What an operation that ended well leaves in its blocks. -/
def blockAfter (i : ModInfo) (o : DieOp) (b : NandBlock) : NandBlock :=
  let p := o.f.page.toNat
  if o.op == 0x11 then
    (if p = 0 then { b with next := 1, partials := i.partials, written := List.range 32, parts := [] }
     else { turnPage p b with next := p + 1, partials := i.partials, written := List.range 32 })
  else if o.op == 0x12 then
    { turnPage p b with next := p + 1, partials := if p + 1 = b.next then b.partials + 1 else 1,
                        written := (if p + 1 = b.next then b.written else []) ++ granulesOfFrame o.f }
  else if o.op == 0x13 then { slc := o.f.slc, known := true }
  else b

/-- An aborted or failed program counts as written; its contents are undefined (R249). -/
def abortProgram (o : DieOp) (s : State) : State :=
  if o.op == 0x11 || o.op == 0x12 then
    forEach (frameKeys o.f) (fun k t => modNand o.f.lane.val k (blockAfter (bridgeInfo s o.f.lane.val) o) t) s
  else s

/-- DIE_RESET (R249): the die's operation is aborted; the status that its record then shows is left open. -/
def resetDie (f : FarFrame) (s : State) : State :=
  let n := f.lane.val
  let d := f.die.toNat
  let x := dieOf s n d
  let t := forSome x.suspended abortProgram (forSome x.running abortProgram s)
  let status := if x.running.isSome || x.suspended.isSome then BitVec.ofNat 16 (Config.freeNat s.freeCtr) else x.status
  let t := tick (modDie n d (fun y => { y with running := none, suspended := none, st := 0, status := status }) t)
  serveDie n d (complete 0x17 f 0 0 0 0 [] t)

def execDieReset (f : FarFrame) (s : State) : Res := run (.dieReset f) (nandCommand 0x17 f (resetDie f)) s

/-! ### Interface records and the information page (R243, R244) -/

/-- Is a rate code allowed at a VCCQ code (0 for 1.2 V, 1 for 1.8 V)? -/
def rateAllowed (rate vccq : Nat) : Bool :=
  if rate = 0 then vccq == 1 else if rate = 1 then decide (vccq ≤ 1) else decide (rate ≤ 4) && vccq == 0

/-- VCCQ and the highest rate code of a channel. -/
def channelVccq (page : Bytes) (c : Nat) : Nat := numAt page (0x60 + 2 * c) 1
def channelMax (page : Bytes) (c : Nat) : Nat := numAt page (0x61 + 2 * c) 1

/-- May a record be taken? -/
def recordOk (page r : Bytes) : Bool :=
  let c := numAt r 0 1
  decide (c < numAt page 0x10 1) && decide (numAt r 1 1 ≤ channelMax page c) && rateAllowed (numAt r 1 1) (channelVccq page c)
    && numAt r 2 1 == channelVccq page c

/-- The 32-byte records of a payload. -/
def recordsOf (p : Bytes) : List Bytes := (List.range (p.length / 32)).map fun i => bytesAt p (32 * i) 32

/-- The information page with the claim, the owner port and the lanes learned. -/
def infoPage (s : State) (n : Nat) : Bytes :=
  let m := bridgeOf s n
  putAt (padTo 512 (pageOfBridge s n)) 0x3C (leBytes 4 m.curClaim.toNat ++ [BitVec.ofNat 8 m.owner.val, m.laneA, m.laneB, 0])

/-- GET_INFO (R243). -/
def getInfoEffect (f : FarFrame) (s : State) : State :=
  if frameOk 0x21 f then complete 0x21 f 0 0 0 0 (infoPage s f.lane.val) s else complete 0x21 f 0x31 0 0 0 [] s

def execGetInfo (f : FarFrame) (s : State) : Res := run (.getInfo f) (getInfoEffect f) s

/-! ### Claims (R250 to R254) -/

/-- Even claims come from port A, odd ones from port B; 0 is never sent. -/
def claimParity (p : Fin 2) (v : Word32) : Bool := v != 0 && v.toNat % 2 == p.val

def portLinked (m : Module) (c : Fin 3) : Bool := if c = 1 then m.linkA else if c = 2 then m.linkB else false

/-- The port of an owner code. -/
def ownerPort (c : Fin 3) : Fin 2 := if c = 2 then 1 else 0

/-- The old port's commands that have not started are completed with CLAIM_LOST, its suspended operation resumes, and what
runs keeps its result in the die status. -/
def dropOldOwner (n d : Nat) (linked : Bool) (s : State) : State :=
  let x := dieOf s n d
  let t := if linked then forEach x.queue (fun o u => complete o.op o.f 0x22 0 0 0 [] u) s else s
  let t := modDie n d (fun y => { y with
    queue := [], running := y.running.map fun o => { o with silent := true },
    suspended := y.suspended.map fun o => { o with silent := true } }) t
  resumeOp n d t

/-- A claim is accepted from a port (R254). -/
def acceptClaim (n : Nat) (p : Fin 2) (v : Word32) (s : State) : State :=
  let m := bridgeOf s n
  let t := modBridge n (fun x => { x with curClaim := v, owner := portCode p }) s
  if m.owner = portCode p then t
  else
    let u := forEach (m.dies.map (·.1)) (fun d w => dropOldOwner n d (portLinked m m.owner) w) t
    if m.owner = 0 then u else emit (.bridgeNotice n (ownerPort m.owner) 1 v.toNat) u

/-- One claim at the arbiter (R252). -/
def arbitrate (f : FarFrame) (s : State) : State :=
  let m := bridgeOf s f.lane.val
  if !frameOk 0x30 f then complete 0x30 f 0x31 0 0 0 [] s
  else if f.claim == m.curClaim && m.owner == portCode f.port then complete 0x30 f 0 0 0 0 [] s
  else if claimParity f.port f.claim && decide (m.curClaim.toNat < f.claim.toNat) then
    complete 0x30 f 0 0 0 0 [] (acceptClaim f.lane.val f.port f.claim s)
  else complete 0x30 f 0x21 0 0 0 [] s

/-- CLAIM (R252, R253): a rival claim that arrives in the same arbitration cycle by the other port is compared with it: the higher goes
first, so that of two that could be accepted it alone is. -/
def claimEffect (f : FarFrame) (rival : Option FarFrame) (s : State) : State :=
  match rival with
  | none => arbitrate f s
  | some r =>
    let r := { r with lane := f.lane, port := 1 - f.port }
    if f.claim.toNat < r.claim.toNat then arbitrate f (arbitrate r s) else arbitrate r (arbitrate f s)

def execClaim (f : FarFrame) (rival : Option FarFrame) (s : State) : Res := run (.claim f rival) (claimEffect f rival) s

/-! ### The end of an operation -/

/-- The granules of a page that hold data, where the block has been followed since an erase (R245, R247). -/
def writtenOf (b : NandBlock) (p : Nat) : List Nat :=
  if b.next ≤ p then []
  else if p + 1 = b.next then b.written
  else match b.parts.find? fun x => x.1 == p with
    | some x => x.2
    | none => List.range 32

/-- What a READ reads of erased granules: 0xFF bytes, and ERASED when it reads no other (R245, R247; DESIGN CHOICE: a READ of both kinds
ends OK). A block that the model has not followed since an erase answers as the die does. -/
def readResult (s : State) (o : DieOp) (r : DieOutcome) : DieOutcome :=
  let bs := (frameKeys o.f).map (nandOf s o.f.lane.val)
  let gs := if o.f.count = 0 then List.range 32 else granulesOfFrame o.f
  let here := bs.flatMap fun b => gs.map fun g => decide (g ∈ writtenOf b o.f.page.toNat)
  if o.op != 0x10 || !(r.status == 0 || r.status == 0x11) || !(bs.all (·.known)) || here.all id then r
  else
    { r with
      status := if here.any id then r.status else 0x11,
      data := ((List.range here.length).flatMap fun k =>
        if here.getD k true then padTo 512 (bytesAt r.data (512 * k) 512) else List.replicate 512 0xFF) }

/-- Records that waited take effect once no operation of their channel is running or suspended, and its dies go on (R244). -/
def takeParams (n : Nat) (s : State) : State :=
  let m := bridgeOf s n
  let busy := fun c => m.dies.any fun q => channelOf (bridgeInfo s n) q.1 == c && (q.2.running.isSome || q.2.suspended.isSome)
  let ready := m.newParams.filter fun p => !busy p.1
  let t := modBridge n (fun m => { m with
    newParams := m.newParams.filter (fun p => busy p.1), params := ready.foldl (fun a p => tabPut [] p.1 p.2 a) m.params }) s
  if ready.isEmpty then s else forEach (m.dies.map (·.1)) (fun d u => serveDie n d u) t

/-- PARAM_PUSH (R244): every record is kept, or none; a record waits for the operations that run on its channel. -/
def paramPushEffect (f : FarFrame) (s : State) : State :=
  let n := f.lane.val
  if !underClaim (bridgeOf s n) f then complete 0x20 f 0x20 0 0 0 [] s
  else if !frameOk 0x20 f || !(recordsOf f.payload).all (recordOk (pageOfBridge s n)) then complete 0x20 f 0x31 0 0 0 [] s
  else
    let t := forEach (recordsOf f.payload) (fun r u => modBridge n (fun m => { m with newParams := tabPut [] (numAt r 0 1) r m.newParams }) u) s
    takeParams n (complete 0x20 f 0 0 0 0 [] t)

def execParamPush (f : FarFrame) (s : State) : Res := run (.paramPush f) (paramPushEffect f) s

/-- DIE_OPERATION_DONE (R245 to R249): the result stands in the die status and goes out as a completion; a die fault is
noticed; the die goes on with what waits. A failed program leaves its page counted as written. -/
def dieOperationDoneEffect (n d : Nat) (r : DieOutcome) (s : State) : State :=
  match (dieOf s n d).running with
  | none => s
  | some o =>
    let i := bridgeInfo s n
    let r := readResult s o r
    let t := if r.status = 0 then forEach (frameKeys o.f) (fun k u => modNand n k (blockAfter i o) u) s
      else if o.op == 0x11 || o.op == 0x12 then abortProgram o s else s
    let fault := r.status == 0x40
    let t := modDie n d (fun x => { x with
      running := none, status := r.status, st := if fault then 3 else if x.suspended.isSome then 2 else 0 }) t
    let t := if o.silent then freeCredits n o.f.port 1 0 t
      else complete o.op o.f r.status 0 r.corr.toNat r.busyUs.toNat (if o.op == 0x10 && (r.status == 0 || r.status == 0x11) then r.data else []) t
    if fault then
      takeParams n (if (bridgeOf t n).owner = 0 then t else emit (.bridgeNotice n (ownerPort (bridgeOf t n).owner) 2 d) t)
    else takeParams n (serveDie n d t)

def execDieOperationDone (lane : Fin 96) (die : BitVec 9) (o : DieOutcome) (s : State) : Res :=
  run (.dieOperationDone lane die o) (dieOperationDoneEffect lane.val die.toNat o) s

/-! ### A port's link (R242, R256) -/

/-- The port of this head's lanes (R15). -/
def ownPort (s : State) : Fin 2 := if s.glb.headId then 1 else 0

/-- The link of a port goes down. -/
def portDown (n : Nat) (p : Fin 2) (s : State) : State := takeParams n (modBridge n (linkGone p) s)

/-- The bridge learns the lane number on a port from its TS2, and shows what the other port learned (R237). -/
def portLearns (n : Nat) (p : Fin 2) (other : Byte) (s : State) : State :=
  modBridge n (fun m =>
    if p = 0 then { m with laneA := BitVec.ofNat 8 n, laneB := other } else { m with laneB := BitVec.ofNat 8 n, laneA := other }) s

/-- The link of a port comes up. -/
def portUp (n : Nat) (p : Fin 2) (s : State) : State :=
  modBridge n (fun m => if p = 0 then { m with linkA := true } else { m with linkB := true }) s

/-- A module that has been powered on or exchanged: no claim, no owner, no interface records, idle dies (R244, R250). -/
def freshModule (n : Nat) (s : State) : State :=
  modBridge n (fun m => { linkA := m.linkA, linkB := m.linkB, laneA := m.laneA, laneB := m.laneB, blocks := m.blocks }) s

end Sys2Proof.Machine
end

