-- ==== Sys2Proof/Machine/Farium.lean ====
section
/-! DEFINITION. The KL9640's side of a Farium lane: training (R235 to R238), link frames (R239 to R242), module states and
claims (R243, R244, R250, R255, R257), failures (R259) and the MEDIA clock (R26). -/

namespace Sys2Proof.Machine

/-! ### The MEDIA clock (R26) -/

/-- The lowest-numbered trained lane of a group of eight, plus one; 0 for none. -/
def groupClock (s : State) (g : Nat) : Nat :=
  match ((List.range 8).map fun k => 8 * g + k).find? fun n => (laneOf s n).active with
  | some n => n + 1
  | none => 0

def noteClock (n : Nat) (s : State) : State :=
  { s with far := { s.far with clkSource := tabPut 0 (n / 8) (groupClock s (n / 8)) s.far.clkSource } }

/-! ### Module states (R255) -/

/-- A module becomes FAULT with a cause; its members are missing (R265). In the takeover of a role swap that is a Critical event (R344). -/
def faultLane (n : Nat) (cause : Fin 8) (s : State) : State :=
  raiseIf (s.peer.detect == .takeover && s.pair.swapPeer) .peer .critical 344 2 [n]
    (memberLost n 0xFFFF
      (modLane n (fun l => { l with st := .fault, cause := cause, claiming := false, out := [], waiting := [] }) s))

/-- A die is out of use; its members are missing (R259, R265). -/
def dieOut (n d : Nat) (s : State) : State :=
  memberLost n d (modLane n (fun l => { l with diesOut := insertNat d l.diesOut }) s)

/-! ### Blocks and ordered sets (R234, R235) -/

/-- An ordered set: byte 0, eleven bytes, and their CRC. -/
def orderedSet (b0 : Byte) (rest : Bytes) : Bytes := withCrc (padTo 12 (b0 :: rest))

def syncSet : Bytes := orderedSet 0x4B (List.replicate 11 0xAA)
def skipSet : Bytes := orderedSet 0x66 (List.replicate 11 0x55)

/-- One step of the scrambler: x^31 + x^28 + 1, its output bit and the register after it. -/
def lfsrBit (r : BitVec 31) : Bool × BitVec 31 :=
  let b := r.getLsbD 30 != r.getLsbD 27
  (b, r <<< 1 ||| (if b then 1 else 0))

/-- One byte is scrambled, least significant bit first. -/
def scrambleByte (r : BitVec 31) (d : Byte) : Byte × BitVec 31 :=
  (List.range 8).foldl (fun a k =>
    let o := lfsrBit a.2
    (if o.1 then a.1 ^^^ BitVec.ofNat 8 (2 ^ k) else a.1, o.2)) (d, r)

/-- The 16 bytes of a data block as they are sent, and the scrambler's register after them; an ordered-set block leaves both. -/
def scramble (r : BitVec 31) (l : Bytes) : Bytes × BitVec 31 :=
  l.foldl (fun a d => let o := scrambleByte a.2 d; (a.1 ++ [o.1], o.2)) ([], r)

/-- The 130 bits of a block, the first sent first: sync header 0 then 1 for data, 1 then 0 for an ordered set; each byte least
significant bit first. -/
def blockBits (r : BitVec 31) (data : Bool) (l : Bytes) : List Bool :=
  [!data, data] ++ ((if data then (scramble r l).1 else l).flatMap fun b => (List.range 8).map fun k => b.getLsbD k)

/-- The blocks of a frame (R234): its bytes, 16 at a time. -/
def frameBlocks (b : Bytes) : List Bytes := (List.range ((b.length + 15) / 16)).map fun i => padTo 16 (bytesAt b (16 * i) 16)

/-! ### Training (R235 to R238) -/

/-- Does this attempt run at 16 Gbit/s? -/
def slowTry (s : State) (l : Lane) : Bool := !s.pins.lane32 || decide (3 ≤ l.tries)

/-- An attempt begins. -/
def beginTry (l : Lane) : Lane :=
  { l with signal := false, ts1 := 0, ts2 := 0, config := false, active := false, rate := 0, quiet := 0, unacked := [], replays := 0,
           cmdCred := 0, dataCred := 0,
           again := [], ts2Sent := 0, discard := false, sinceLink := 0, pushing := false }

/-- The rate byte of an attempt. -/
def rateByte (s : State) (n : Nat) : Byte := if slowTry s (laneOf s n) then 0 else 1

/-- TS1 as the KL9640 sends it; the presets that its receiver asks for and its transmitter uses follow from adaptation, which the spec
leaves open. -/
def ts1Set (s : State) (n : Nat) : Bytes :=
  orderedSet 0x1E [rateByte s n, BitVec.ofNat 8 (Config.firmwareField 236 n % 8), BitVec.ofNat 8 (Config.firmwareField 236 (96 + n) % 8)]

/-- TS2 as the KL9640 sends it: its lane number, HEAD_ID, and the low 32 bits of its unit serial. -/
def ts2Set (s : State) (n : Nat) : Bytes :=
  orderedSet 0x2D ([rateByte s n, BitVec.ofNat 8 n, BitVec.ofNat 8 (flag s.glb.headId 0)] ++ zeros 4 ++ leBytes 4 s.glb.unitSerial.toNat)

/-- A TS2 goes out. -/
def sendTs2 (n : Nat) (s : State) : State :=
  emit (.fariumSet n (ts2Set s n)) (modLane n (fun l => { l with ts2Sent := l.ts2Sent + 1 }) s)

/-- LANE_SIGNAL_DETECT (R236): t0 of an attempt; TS1 is sent. -/
def signalEffect (n : Nat) (s : State) : State :=
  if (laneOf s n).st == .training && !(laneOf s n).signal then
    emit (.fariumSet n (ts1Set s n)) (modLane n (fun l => { beginTry l with signal := true }) s)
  else s

def execLaneSignalDetect (lane : Fin 96) (s : State) : Res := run (.laneSignalDetect lane) (signalEffect lane.val) s

/-- A good TS1 of this attempt: its CRC, the rate, and a settled preset. -/
def ts1Good (s : State) (n : Nat) (b : Bytes) : Bool :=
  b.length == 16 && crcOk b && numAt b 0 1 == 0x1E && numAt b 1 1 == (if slowTry s (laneOf s n) then 0 else 1)
    && numAt b 2 1 == numAt b 3 1

/-- TS1_RECEIVED (R236): after eight in a row TRAIN ends, and TS2 is sent. -/
def ts1Effect (n : Nat) (b : Bytes) (s : State) : State :=
  let l := laneOf s n
  if !l.signal || l.config || l.active then s
  else if !ts1Good s n b then modLane n (fun x => { x with ts1 := 0 }) s
  else if l.ts1 + 1 < 8 then modLane n (fun x => { x with ts1 := x.ts1 + 1 }) s
  else sendTs2 n (modLane n (fun x => { x with ts1 := 8, config := true }) s)

def execTs1Received (lane : Fin 96) (set : Bytes) (s : State) : Res := run (.ts1Received lane set) (ts1Effect lane.val set) s

/-- A good TS2 of a bridge: its CRC, the rate, the bridge bit, and credits in their ranges. -/
def ts2Good (s : State) (n : Nat) (b : Bytes) : Bool :=
  b.length == 16 && crcOk b && numAt b 0 1 == 0x2D && numAt b 1 1 == (if slowTry s (laneOf s n) then 0 else 1)
    && bitOf (numAt b 3 1) 1 && decide (16 ≤ numAt b 4 2) && decide (numAt b 4 2 ≤ 1024) && decide (256 ≤ numAt b 6 2)

/-- The cabling checks of R237: true when the module may go on. -/
def cabledRight (s : State) (n : Nat) (b : Bytes) : Bool :=
  bitOf (numAt b 3 1) 0 == s.glb.headId && (numAt b 2 1 == 0xFF || numAt b 2 1 == n)
    && !((List.range 96).any fun k => k != n && (laneOf s k).active && (laneOf s k).serial.toNat == numAt b 8 4)

/-- The link is ACTIVE: SYNC, sequence numbers from 0, credits from TS2, and the information page is asked for. -/
def laneActive (n : Nat) (b : Bytes) (s : State) : State :=
  let slow := slowTry s (laneOf s n)
  let t := modLane n (fun l => { l with
    config := false, active := true, ts2 := 8, tries := 0, rate := if slow then 1 else 2, seqTx := 0, seqRx := 0, unacked := [],
    replays := 0, cmdCred := numAt b 4 2, dataCred := numAt b 6 2, lfsr := 0x7FFFFFFF, sinceSkip := 0, quiet := 0,
    discard := false, sinceLink := 0, seen := if (laneOf s n).serial.toNat = numAt b 8 4 then l.seen else 0,
    serial := BitVec.ofNat 32 (numAt b 8 4), longLost := false }) s
  let other := (laneOf s n).serial != 0 && (laneOf s n).serial.toNat != numAt b 8 4
  let t := noteClock n (portUp n (ownPort s) (if other then freshModule n t else t))
  sendNow n (modCmdOf 0x21 []) (emit (.fariumSet n syncSet) t)

/-- TS2_RECEIVED (R236, R237): CONFIG ends with eight in a row once 16 have been sent; one is sent for each that comes (DESIGN CHOICE:
both ends send them without pause). The bridge learns the lane, whether or not the cabling is right. -/
def ts2Effect (n : Nat) (b : Bytes) (s : State) : State :=
  let l := laneOf s n
  if !l.config then s
  else if !ts2Good s n b then sendTs2 n (modLane n (fun x => { x with ts2 := 0 }) s)
  else if l.ts2 + 1 < 8 || l.ts2Sent < 16 then sendTs2 n (modLane n (fun x => { x with ts2 := x.ts2 + 1 }) s)
  else
    let t := portLearns n (if bitOf (numAt b 3 1) 0 then 1 else 0) (BitVec.ofNat 8 (numAt b 2 1)) s
    if cabledRight s n b then laneActive n b t
    else raise .med .fault 237 0 [n] (faultLane n 1 (modLane n beginTry t))

def execTs2Received (lane : Fin 96) (set : Bytes) (s : State) : Res := run (.ts2Received lane set) (ts2Effect lane.val set) s

/-- Attempts before the lane is LOST. -/
def tryLimit (s : State) : Nat := if s.pins.lane32 then 6 else 3

/-- LANE_TRAIN_TIMEOUT (R238): an attempt has failed. A LOST module's open segments close (R266). -/
def trainTimeoutEffect (n : Nat) (s : State) : State :=
  let l := laneOf s n
  if l.st != .training || l.active then s
  else
    let k := l.tries + 1
    if tryLimit s ≤ k then
      closeOpenWith (fun m => m.lane == n) (modLane n (fun x => { beginTry x with st := .lost, tries := 0 }) s)
    else
      raiseIf (s.pins.lane32 && k == 3) .med .notice 238 0 [n] (modLane n (fun x => { beginTry x with tries := k }) s)

def execLaneTrainTimeout (lane : Fin 96) (s : State) : Res := run (.laneTrainTimeout lane) (trainTimeoutEffect lane.val) s

/-- LANE_RETRY_EXPIRY (R238). -/
def retryEffect (n : Nat) (s : State) : State :=
  if (laneOf s n).st == .lost then modLane n (fun x => { beginTry x with st := .training, tries := 0 }) s else s

def execLaneRetryExpiry (lane : Fin 96) (s : State) : Res := run (.laneRetryExpiry lane) (retryEffect lane.val) s

/-! ### Ordered sets on an active lane (R234, R235) -/

def onActive (n : Nat) (f : State → State) (s : State) : State := if (laneOf s n).active then f s else s

/-- SYNC_RECEIVED (R234, R241): the scrambler starts anew, and blocks are no longer discarded. -/
def execSyncReceived (lane : Fin 96) (s : State) : Res :=
  run (.syncReceived lane) (onActive lane.val (modLane lane.val fun l => { l with lfsr := 0x7FFFFFFF, discard := false })) s

/-- SKIP_RECEIVED (R235): deleted or repeated for clock compensation, with no other effect. -/
def execSkipReceived (lane : Fin 96) (s : State) : Res := run (.skipReceived lane) (onActive lane.val id) s

/-- SKIP_INTERVAL (R235). -/
def execSkipInterval (lane : Fin 96) (s : State) : Res :=
  run (.skipInterval lane)
    (onActive lane.val fun t => emit (.fariumSet lane.val skipSet) (modLane lane.val (fun l => { l with sinceSkip := 0 }) t)) s

/-- The link goes down: both ends retrain, and what was outstanding is settled afterwards (R242, R255). -/
def linkDown (n : Nat) (s : State) : State :=
  if (laneOf s n).active then
    let t := modLane n (fun l => { beginTry l with
      st := if l.st == .fault then .fault else .training, tries := 0, retrains := satAdd 0xFF l.retrains 1, claiming := false }) s
    noteClock n (portDown n (ownPort s) t)
  else s

/-- QUIET_RECEIVED (R235): after four QUIET sets the bridge's transmitter is idle. -/
def quietEffect (n : Nat) (s : State) : State :=
  if (laneOf s n).quiet + 1 < 4 then modLane n (fun l => { l with quiet := l.quiet + 1 }) s else linkDown n s

def execQuietReceived (lane : Fin 96) (s : State) : Res := run (.quietReceived lane) (onActive lane.val (quietEffect lane.val)) s

/-- MEDIA_CLOCK_LANE_LOSS (R26). -/
def execMediaClockLaneLoss (lane : Fin 96) (s : State) : Res :=
  run (.mediaClockLaneLoss lane)
    (fun t => if tabGet 0 (lane.val / 8) t.far.clkSource = lane.val + 1 then linkDown lane.val t else t) s

/-- FARIUM_RX_SILENCE (R242). -/
def execFariumRxSilence (lane : Fin 96) (s : State) : Res := run (.fariumRxSilence lane) (fun t => linkDown lane.val t) s

/-! ### LINK frames (R239 to R241) -/

/-- Replay from ACK_SEQ + 1 after a SYNC; after four replays without progress the link retrains. -/
def replayLane (n : Nat) (s : State) : State :=
  let l := laneOf s n
  if l.unacked.isEmpty then s
  else if 4 ≤ l.replays then linkDown n s
  else
    let t := modLane n (fun x => { x with replays := x.replays + 1 }) s
    forEach l.unacked (fun f u => emit (.farium n f.c.op f.claim f.tag f.c.die f.c.payload) u)
      (emit (.fariumSet n syncSet) { t with far := { t.far with replays := (t.far.replays + l.unacked.length) % 2 ^ 64 } })

/-- A LINK frame goes out with the last sequence number received in order (R239). -/
def sendLink (n : Nat) (nak : Bool) (s : State) : State :=
  emit (.fariumLink n ((laneOf s n).seqRx - 1) nak) (modLane n (fun l => { l with sinceLink := 0 }) s)

/-- A frame with a bad header, with a bad payload, or out of order: it is counted, NAKed and discarded, a bad header with every block
until the next SYNC (R241). -/
def badFrame (n : Nat) (l : FrameLink) (s : State) : State :=
  let t := if l.headerGood && l.payloadGood then s else { s with far := { s.far with crc := (s.far.crc + 1) % 2 ^ 64 } }
  sendLink n true (modLane n (fun x => { x with discard := x.discard || !l.headerGood }) t)

/-- A frame comes in (R239, R241): the next one in order with good CRCs is taken, and a LINK frame follows every 32. -/
def takeFrame (n : Nat) (l : FrameLink) (f : State → State) (s : State) : State :=
  let x := laneOf s n
  if x.discard then s
  else if !(l.headerGood && l.payloadGood && l.seq == x.seqRx) then badFrame n l s
  else
    let t := modLane n (fun x => { x with seqRx := x.seqRx + 1, sinceLink := x.sinceLink + 1 }) s
    f (if 32 ≤ (laneOf t n).sinceLink then sendLink n false t else t)

/-- FARIUM_LINK_FRAME (R240, R241): acknowledged frames are forgotten, credits come back, a NAK replays, and what waits is
sent. -/
def linkFrameEffect (n : Nat) (f : LinkFrame) (s : State) : State :=
  let l := laneOf s n
  if l.discard then s
  else if !f.headerGood then badFrame n ⟨0, false, true⟩ s
  else
  let left := l.unacked.filter fun u => !genAtOrBelow u.seq f.ackSeq
  let t := modLane n (fun x => { x with
    unacked := left, replays := if left.length < x.unacked.length then 0 else x.replays,
    cmdCred := x.cmdCred + f.cmdCredits.toNat, dataCred := x.dataCred + f.dataCredits.toNat }) s
  serveLane n (if f.nak then replayLane n t else t)

def execFariumLinkFrame (lane : Fin 96) (f : LinkFrame) (s : State) : Res :=
  run (.fariumLinkFrame lane f) (onActive lane.val (linkFrameEffect lane.val f)) s

/-- The bridge's LINK frames on the ports whose links are up return the credits that it has freed (R240). -/
def bridgeLinks (n : Nat) (s : State) : State :=
  let m := bridgeOf s n
  let t := if m.linkA then emit (.bridgeLink n 0 m.freedA.1 m.freedA.2) s else s
  let t := if m.linkB then emit (.bridgeLink n 1 m.freedB.1 m.freedB.2) t else t
  modBridge n (fun m => { m with freedA := if m.linkA then (0, 0) else m.freedA, freedB := if m.linkB then (0, 0) else m.freedB }) t

/-- FARIUM_LINK_TIMER (R239): both ends send one. -/
def execFariumLinkTimer (lane : Fin 96) (s : State) : Res :=
  run (.fariumLinkTimer lane) (onActive lane.val fun t => bridgeLinks lane.val (sendLink lane.val false t)) s

/-- FARIUM_REPLAY_TIMEOUT (R241). -/
def execFariumReplayTimeout (lane : Fin 96) (s : State) : Res :=
  run (.fariumReplayTimeout lane) (onActive lane.val (replayLane lane.val)) s

/-! ### Claims (R250, R255, R257) -/

/-- A CLAIM goes out on a lane; it uses no credit. Control pair 1 raises it (R19). -/
def sendClaim (n : Nat) (v : Nat) (s : State) : State :=
  if !(laneOf s n).active || s.pins.flushHold || s.peer.pair1.inReset then s
  else
    farUrgent n ⟨0x30, false, 0, 0, 0, 0, 0, v, []⟩ (modLane n (fun l => { l with claiming := true }) s)

/-- Take a module: a fresh claim. -/
def takeModule (n : Nat) (s : State) : State := sendClaim n (nextClaim s.glb.headId (laneOf s n).seen) s

/-- A claim value has been seen on a lane. -/
def seeClaim (n : Nat) (v : Word32) (s : State) : State := modLane n (fun l => { l with claim := v, seen := max l.seen v.toNat }) s

/-- What is to be done with an identified module: its owner reclaims it after a retrain; a free or home module of an ACTIVE
head, and every module of a SOLE head, is claimed; a module of the peer is PEER_HELD. -/
def placeModule (n : Nat) (owner : Nat) (s : State) : State :=
  let mine := if s.glb.headId then 2 else 1
  let wanted := s.peer.role == .sole || (s.peer.role == .active && isHome s n)
  if wanted && owner == mine then sendClaim n (laneOf s n).claim.toNat s
  else if wanted && (s.peer.role == .sole || owner == 0) then takeModule n s
  else if owner != 0 && owner != mine then modLane n (fun l => { l with st := .peerHeld }) s
  else s

/-- The modules that are identified when the role comes. -/
def claimIdentified (s : State) : State :=
  forEach (List.range 96) (fun n t =>
    if (laneOf t n).st == .identified then placeModule n (numAt (laneOf t n).info.page 0x40 1) t else t) s

/-- The claims of a takeover, on every PEER_HELD lane at once (R257). -/
def claimPeerHeld (s : State) : State :=
  forEach (List.range 96) (fun n t => if (laneOf t n).st == .peerHeld then takeModule n t else t) s

/-- A takeover has no claims outstanding any more. -/
def takeoverCheck (s : State) : State :=
  if s.peer.detect == .takeover && !s.pair.claimsWait && (List.range 96).all (fun n => !((laneOf s n).claiming && (laneOf s n).st == .peerHeld)) then
    { s with peer := { s.peer with detect := .noPeer } }
  else s

/-- The record that is pushed for a channel: the highest rate that its VCCQ and its maximum allow (R244). -/
def pushRecord (page : Bytes) (c : Nat) : Bytes :=
  let v := channelVccq page c
  let r := if v = 1 then min 1 (channelMax page c) else min 4 (channelMax page c)
  let drive := if r = 0 then 50 else if r = 4 then 25 else 35
  let odt := if r = 0 then 0 else if r = 1 then (if v = 1 then 0 else 150) else if r = 2 then 100 else if r = 3 then 75 else 50
  let pre := if r = 0 then 1 else if r = 1 then 2 else if r = 4 then 8 else 4
  let tm := if r = 0 then [120, 300, 100, 300, 100] else if r = 1 then [80, 150, 100, 300, 100]
    else if r = 4 then [80, 150, 100, 500, 100] else [80, 150, 100, 400, 100]
  padTo 32 (leBytes 1 c ++ leBytes 1 r ++ leBytes 1 v ++ leBytes 1 drive ++ leBytes 1 odt ++ leBytes 1 0
    ++ (tm ++ [pre, pre]).flatMap (leBytes 2))

def pushAll (n : Nat) (s : State) : State :=
  let i := (laneOf s n).info
  farUrgent n (modCmdOf 0x20 ((List.range i.channels).flatMap (pushRecord i.page))) s

/-! ### Completions (R243, R244, R255, R259) -/

def dropOut (n tag : Nat) (s : State) : State := modLane n (fun l => { l with out := l.out.filter fun o => o.tag != tag }) s

def modOut (n tag : Nat) (f : FarOut → FarOut) (s : State) : State :=
  modLane n (fun l => { l with out := modFirst (fun o => o.tag == tag) f l.out }) s

/-- A program or erase has ended on its die: the next one of the die begins, as far as the suspend rules see it. -/
def dieRunEnds (n d : Nat) (s : State) : State :=
  let t := { s with med := { s.med with dieRuns := s.med.dieRuns.filter fun r => !(r.lane == n && r.die == d) } }
  match (laneOf t n).out.find? fun o => occupies o.c.op && o.c.die == d with
  | some o => noteDieRun n o.c t
  | none => t

/-- After a retrain of a held module's lane: reads are issued again, and programs and erases are settled by the status of
their dies. -/
def resumeOut (n : Nat) (s : State) : State :=
  let outs := (laneOf s n).out
  let reads := outs.filter fun o => o.c.op == 0x10
  let work := outs.filter fun o => occupies o.c.op
  let t := modLane n (fun l => { l with out := work.map fun o => { o with polling := true } }) s
  let t := forEach reads (fun o u => farSend n o.c u) t
  forEach ((work.map (·.c.die)).eraseDups) (fun d u => farSend n (dieCmd 0x16 d) u) t

/-- The information page has come; a module that shows no claim and no owner, and had them, has been powered on anew (R250). -/
def identified (n : Nat) (page : Bytes) (s : State) : State :=
  if numAt page 0 4 != 0xFAB10001 || numAt page 4 2 != 1 then raise .med .fault 243 0 [n] (faultLane n 2 s)
  else
    let t := modLane n (fun l => { l with
      st := if l.st == .fault then .fault else .identified, info := infoOf page, claim := BitVec.ofNat 32 (numAt page 0x3C 4) }) s
    let t := seeClaim n (BitVec.ofNat 32 (numAt page 0x3C 4)) t
    let anew := numAt page 0x3C 4 == 0 && numAt page 0x40 1 == 0 && (bridgeOf s n).curClaim != 0
    let t := modBridge n (fun m => { m with page := page }) (if anew then modLane n (fun l => { l with seen := 0 }) (freshModule n t) else t)
    if (laneOf t n).st == .fault then t else placeModule n (numAt page 0x40 1) t

/-- A claim is won: it is counted, the channel records are pushed, and after a takeover every die's status is read. -/
def claimWon (n : Nat) (s : State) : State :=
  let t := { s with far := { s.far with claims := (s.far.claims + 1) % 2 ^ 64 } }
  let tookOver := (laneOf t n).st == .peerHeld
  let t := modLane n (fun l => { l with claiming := false, released := false, pushing := true }) t
  let t := pushAll n t
  takeoverCheck (if tookOver then farUrgent n ⟨0x16, false, 0, 0, 0, 0, 0, 1, []⟩ t else t)

/-- The channel records have been taken: the module is HELD. -/
def moduleHeld (n : Nat) (s : State) : State :=
  if (laneOf s n).pushing && ((laneOf s n).st == .identified || (laneOf s n).st == .peerHeld) then
    serveLane n (resumeOut n (modLane n (fun l => { l with st := .held, pushing := false }) s))
  else s

/-- The module has gone to the peer (R255, R259, R341). -/
def moduleTaken (n : Nat) (s : State) : State :=
  let l := laneOf s n
  let t := modLane n (fun x => { x with
    st := if x.st == .fault then .fault else .peerHeld, claiming := false, pushing := false, out := [], waiting := [], again := [] }) s
  if l.released || s.peer.role == .service then t else superseded (raise .med .critical 259 1 [n, l.claim.toNat] t)

/-- A claim was refused: a SOLE head claims above what it has seen; otherwise the module is the peer's. -/
def claimRefused (n : Nat) (s : State) : State :=
  if s.peer.role == .sole then takeModule n (modLane n (fun l => { l with claiming := false }) s)
  else takeoverCheck (modLane n (fun l => { l with st := if l.st == .fault then .fault else .peerHeld, claiming := false }) s)

/-- BAD_ADDR, BAD_FRAME and SEQUENCE: a Critical event, and FAULT after 16 within a second. -/
def protocolFault (n : Nat) (status : Word16) (now : Nat) (s : State) : State :=
  let ms := ((laneOf s n).faultMs.filter fun m => decide (now < m + 1000)) ++ [now]
  let t := raise .med .critical 259 2 [n, status.toNat] (modLane n (fun l => { l with faultMs := ms }) s)
  if 16 ≤ ms.length then faultLane n 4 t else t

/-- A block failed to erase and is retired (R212, R259). -/
def eraseFailed (n : Nat) (c : FarCmd) (s : State) : State :=
  match s.med.segs.find? fun g => g.members.any fun m => m.lane == n && m.die == c.die && m.block == c.block && c.planes.testBit m.plane with
  | some g => jobsForMissing g.no s <| retireBlocks g.no ((List.range g.members.length).filter fun p => (g.members[p]?).any fun m => m.lane == n && m.die == c.die && m.block == c.block && c.planes.testBit m.plane) s
  | none => s

/-- Granules that were read for the peer go to it (R345). -/
def granuleRead (n : Nat) (o : FarCmd) (data : Bytes) (s : State) : State :=
  let g := (n, o.die, o.block, o.page, o.offset, o.count)
  if g ∈ s.pair.granules then
    toPeer 0x15 [n, o.die, o.block, o.page, o.offset, o.count] data { s with pair := { s.pair with granules := s.pair.granules.erase g } }
  else s

/-- A die's status record of the old claim after a takeover (R258): a block that failed to erase is retired, and one that failed to
program is with its segment relocated (R212); the record names no plane. -/
def oldStatus (n d : Nat) (r : Bytes) (s : State) : State :=
  let b := numAt r 8 4
  let st := numAt r 2 2
  let c : FarCmd := ⟨0x13, false, d, b, 0, 0xF, 0, 0, []⟩
  if numAt r 12 4 = (laneOf s n).claim.toNat || onReserved s n c then s
  else if st = 0x13 then eraseFailed n c s
  else if st = 0x12 then
    forSome (s.med.segs.find? fun g => g.members.any fun m => m.lane == n && m.die == d && m.block == b) (fun g t =>
      let ps := (List.range g.members.length).filter fun p => (g.members[p]?).any fun m => m.lane == n && m.die == d && m.block == b
      jobsForMissing g.no t (reclaimSeg g.no (raise .med .fault 212 0 (g.no :: ps) (retireBlocks g.no ps t)))) s
  else s

/-- The records of STATUS with ALL, in die order (R249, R257). -/
def statusRead (n : Nat) (o : FarCmd) (data : Bytes) (s : State) : State :=
  if o.count = 1 then forEach (List.range (data.length / 16)) (fun d t => oldStatus n d (bytesAt data (16 * d) 16) t) s else s

/-- What a completion's status calls for (R259). -/
def completionAct (c : FarCompletion) (o : FarOut) (s : State) : State :=
  let n := c.lane.val
  let st := c.status
  if st = 0 then
    (if o.c.op == 0x21 then identified n c.payload s
     else if o.c.op == 0x30 then claimWon n s
     else if o.c.op == 0x20 then moduleHeld n s
     else if o.c.op == 0x10 then granuleRead n o.c c.payload s
     else if o.c.op == 0x16 then statusRead n o.c c.payload s
     else s)
  else if st = 0x10 then { s with far := { s.far with uncorr := (s.far.uncorr + 1) % 2 ^ 64 } }
  else if st = 0x11 then (if onReserved s n o.c then s else raise .med .fault 259 0 [n, c.die.toNat, o.c.block, o.c.page] s)
  else if st = 0x12 then (if onReserved s n o.c then reservedFailed n o.c s else s)
  else if st = 0x13 then (if onReserved s n o.c then reservedFailed n o.c s else eraseFailed n o.c s)
  else if st = 0x20 ∨ st = 0x22 then moduleTaken n s
  else if st = 0x21 then claimRefused n s
  else if st = 0x32 then
    (if o.reissued then s
     else
       let t := pushAll n s
       modLane n (fun l => { l with out := l.out ++ [{ o with reissued := true }] }) (resend n o t))
  else if st = 0x30 ∨ st = 0x31 ∨ st = 0x33 then protocolFault n st c.nowMs s
  else if st = 0x40 then dieOut n c.die.toNat s
  else s

/-- FARIUM_COMPLETION (R239, R241, R255, R259). -/
def completionEffect (c : FarCompletion) (s : State) : State :=
  let n := c.lane.val
  let t := seeClaim n c.claim s
  match (laneOf t n).out.find? fun o => o.tag == c.tag.toNat && o.c.op == c.op with
  | none => t
  | some o =>
    let t := dropOut n o.tag t
    let t := if occupies o.c.op then dieRunEnds n o.c.die t else t
    serveLane n (completionAct c o t)

def execFariumCompletion (c : FarCompletion) (s : State) : Res :=
  run (.fariumCompletion c) (onActive c.lane.val (takeFrame c.lane.val c.link (completionEffect c))) s

/-- FARIUM_NOTICE (R239, R241, R242, R255, R259). -/
def noticeEffect (n : Nat) (code : Byte) (aux : Word32) (s : State) : State :=
  if code = 1 then moduleTaken n (seeClaim n aux s)
  else if code = 2 then dieOut n aux.toNat s
  else if code = 4 then portDown n (1 - ownPort s) s
  else if code = 5 then portUp n (1 - ownPort s) s
  else s

def execFariumNotice (lane : Fin 96) (h : NoticeHead) (aux : Word32) (s : State) : Res :=
  run (.fariumNotice lane h aux) (onActive lane.val (takeFrame lane.val h.link (noticeEffect lane.val h.code aux))) s

/-- FARIUM_COMMAND_TIMEOUT (R259): the die's status is read; the command is issued again once, then the die is reset, then it is
out of use. -/
def commandTimeoutEffect (n tag : Nat) (st : DieStatus) (s : State) : State :=
  match (laneOf s n).out.find? fun o => o.tag == tag with
  | none => s
  | some o =>
    let t := { s with far := { s.far with timeouts := (s.far.timeouts + 1) % 2 ^ 64 } }
    let t := modOut n tag (fun x => { x with timeouts := x.timeouts + 1 }) t
    if o.timeouts = 0 then
      (if st.state = 0 ∧ st.tag.toNat = tag then dieRunEnds n o.c.die (dropOut n tag t)
       else if st.state = 0 ∧ !o.reissued then modOut n tag (fun x => { x with reissued := true }) (resend n o t)
       else t)
    else if o.timeouts = 1 then farUrgent n (dieCmd 0x17 o.c.die) t
    else dieOut n o.c.die (dieRunEnds n o.c.die (dropOut n tag t))

def execFariumCommandTimeout (lane : Fin 96) (tag : BitVec 10) (st : DieStatus) (s : State) : Res :=
  run (.fariumCommandTimeout lane tag st) (commandTimeoutEffect lane.val tag.toNat st) s

/-- A program or erase that a retrain left open, against its die's status record: the record's own command ended with the status that it
shows, and one that it does not name never started and is issued again (R242, R258, R259). -/
def settleByStatus (n : Nat) (st : DieStatus) (o : FarOut) (s : State) : State :=
  if st.tag.toNat != o.tag || st.op != o.c.op then farSend n o.c s
  else if st.status = 0x13 then (if onReserved s n o.c then reservedFailed n o.c s else eraseFailed n o.c s)
  else if onReserved s n o.c && st.status != 0 then reservedFailed n o.c s
  else s

/-- DIE_STATUS_POLL (R259): a die that is no longer busy settles its commands that the retrain left open. -/
def pollEffect (n d : Nat) (st : DieStatus) (s : State) : State :=
  if st.state = 1 ∨ st.state = 2 then farSend n (dieCmd 0x16 d) s
  else
    let mine := (laneOf s n).out.filter fun o => o.polling && o.c.die == d
    let t := modLane n (fun l => { l with out := l.out.filter fun o => !(o.polling && o.c.die == d) }) s
    let t := dieRunEnds n d t
    if st.state = 3 then dieOut n d t else forEach mine (settleByStatus n st) t

def execDieStatusPoll (lane : Fin 96) (die : BitVec 9) (st : DieStatus) (s : State) : Res :=
  run (.dieStatusPoll lane die st)
    (fun t => if (laneOf t lane.val).out.any fun o => o.polling && o.c.die == die.toNat then pollEffect lane.val die.toNat st t else t) s

/-- The lanes of a takeover whose claim has not been answered. -/
def unclaimed (s : State) : List Nat := (List.range 96).filter fun n => (laneOf s n).claiming && (laneOf s n).st == .peerHeld

/-- CLAIM_RESEND_TIMER (R257): at most 12 resends. -/
def claimResendEffect (s : State) : State :=
  if s.peer.detect != .takeover || 12 ≤ s.pair.resends then s
  else
    let t := { s with pair := { s.pair with resends := s.pair.resends + 1 } }
    forEach (unclaimed s) (fun n u =>
      takeModule n (modLane n (fun l => { l with
        out := l.out.filter (fun o => o.c.op != 0x30), waiting := l.waiting.filter fun c => c.op != 0x30 }) u)) t

def execClaimResendTimer (s : State) : Res := run .claimResendTimer claimResendEffect s

/-- TAKEOVER_CLAIM_DEADLINE (R257). -/
def claimDeadlineEffect (s : State) : State :=
  if s.peer.detect != .takeover || s.pair.claimsWait then s
  else takeoverCheck (forEach (unclaimed s) (fun n t => raise .med .critical 257 0 [n] (faultLane n 3 t)) s)

def execTakeoverClaimDeadline (s : State) : Res := run .takeoverClaimDeadline claimDeadlineEffect s

end Sys2Proof.Machine
end

