-- ==== Sys2Proof/Machine/Parity.lean ====
section
/-! DEFINITION. Reconstruction from parity (R267 to R269), the passes of jobs (R270 to R275, R280 to R283), and patrol (R276 to
R278). -/

namespace Sys2Proof.Machine

/-! ### Missing members -/

/-- MODULE_LOST_EXPIRY (R265): LOST for 10 s. -/
def lostExpiryEffect (n : Nat) (s : State) : State :=
  if (laneOf s n).st == .lost && !(laneOf s n).longLost then
    noteVacated (memberLost n 0xFFFF (modLane n (fun l => { l with longLost := true }) s))
  else s

def execModuleLostExpiry (lane : Fin 96) (s : State) : Res := run (.moduleLostExpiry lane) (lostExpiryEffect lane.val) s

/-! ### Reconstruction (R267, R268) -/

/-- The strip read at a position, none where it is missing, was not read, or was UNCORRECTABLE. -/
def sourceAt (src : List (Nat × Option Bytes)) (p : Nat) : Option Bytes := (src.find? fun x => x.1 == p).bind (·.2)

/-- Data strips of a stripe without a source. -/
def lostStrips (g : Seg) (k : Nat) (src : List (Nat × Option Bytes)) : List Nat :=
  (List.range g.d).filter fun d => (sourceAt src (posD g.members.length k d g.q)).isNone

/-- P and the XOR of the data strips at hand; Q and their weighted sum (R268). -/
def sumP (g : Seg) (k : Nat) (src : List (Nat × Option Bytes)) (p : Bytes) : Bytes :=
  (List.range g.d).foldl (fun a d => match sourceAt src (posD g.members.length k d g.q) with
    | some b => xorBytes a b
    | none => a) p

def sumQ (g : Seg) (k : Nat) (src : List (Nat × Option Bytes)) (q : Bytes) : Bytes :=
  (List.range g.d).foldl (fun a d => match sourceAt src (posD g.members.length k d g.q) with
    | some b => xorBytes a (gfScale (gfPow d) b)
    | none => a) q

/-- D_x of two missing strips x < y, from Pxy and Qxy. -/
def solveX (x y : Nat) (pxy qxy : Bytes) : Bytes :=
  gfScale (gfInv (gfPow x ^^^ gfPow y)) (xorBytes qxy (gfScale (gfPow y) pxy))

/-- A data strip of a stripe, read or reconstructed; none when too much is missing (R267, R268). -/
def rebuildStrip (g : Seg) (k : Nat) (src : List (Nat × Option Bytes)) (d : Nat) : Option Bytes :=
  let w := g.members.length
  let p := sourceAt src (posP w k)
  let q := if g.q then sourceAt src (posQ w k) else none
  match sourceAt src (posD w k d g.q) with
  | some b => some b
  | none =>
    match lostStrips g k src, p, q with
    | [_], some pb, _ => some (sumP g k src pb)
    | [x], none, some qb => some (gfScale (gfPow (255 - x)) (sumQ g k src qb))
    | [x, y], some pb, some qb =>
      let dx := solveX x y (sumP g k src pb) (sumQ g k src qb)
      some (if d = x then dx else xorBytes (sumP g k src pb) dx)
    | _, _, _ => none

/-- The pieces of a Bale: data strip, first granule within it, count. It touches at most two strips. -/
def balePieces (e : ChunkEnt) : List (Nat × Nat × Nat) :=
  let n := min e.granules (128 - e.gran)
  (e.strip, e.gran, n) :: (if n < e.granules then [(e.strip + 1, 0, e.granules - n)] else [])

/-- Pieces whose member gave no source. -/
def lostPieces (g : Seg) (e : ChunkEnt) (src : List (Nat × Option Bytes)) : List (Nat × Nat × Nat) :=
  (balePieces e).filter fun p => decide (p.1 ∈ lostStrips g e.stripe src)

/-- The Bale's stored granules, reconstructed where needed. -/
def rebuildBale (g : Seg) (e : ChunkEnt) (src : List (Nat × Option Bytes)) : Option Bytes :=
  (balePieces e).foldl (fun a p => match a, rebuildStrip g e.stripe src p.1 with
    | some b, some x => some (b ++ bytesAt x (512 * p.2.1) (512 * p.2.2))
    | _, _ => none) (some [])

/-- RECONSTRUCT_READ_DONE (R267, R268): the granules of a missing, unavailable or UNCORRECTABLE member come from the others;
it counts as the read's one rebuild. When too much is missing the read completes with 0x3020. -/
def reconstructEffect (id : Nat) (src : List (Nat × Option Bytes)) (s : State) : State :=
  match jobOf s id with
  | none => s
  | some j =>
    match chunkOf s j.chunk with
    | none => endJob j 0x3020 s
    | some e =>
      match segOf s j.seg with
      | none => endJob j 0x3020 s
      | some g =>
        if j.wanted.isSome || j.sealOk || j.rebuilt then s
        else
          match rebuildBale g e src with
          | none => endJob j 0x3020 s
          | some b =>
            let n := (lostPieces g e src).length
            let t := { s with par := { s.par with degReads := (s.par.degReads + n) % 2 ^ 64 } }
            if n = 0 then t else modJob id (fun x => { x with found := b, rebuilt := true }) t

def execReconstructReadDone (job : Nat) (sources : List (Nat × Option Bytes)) (s : State) : Res :=
  run (.reconstructReadDone job sources) (reconstructEffect job sources) s

/-! ### The single rebuild (R157, R186, R269) -/

/-- The status of one attempt against the check that failed: the seal's, or the decoder's. -/
def attemptStatus (s : State) (e : ChunkEnt) (a : Bytes × Bytes) : Word16 :=
  match openBale e a.1 a.2 s with
  | none => 0x3002
  | some b => if e.sealed_ then 0 else (decodeBale b (some (numAt a.2 0x2C 4))).1

/-- The bytes of a strip that a Bale's granule ranges take. -/
def inRanges (e : ChunkEnt) (strip : Bytes) : Bytes := (balePieces e).flatMap fun p => bytesAt strip (512 * p.2.1) (512 * p.2.2)

/-- Under P+Q, the strip in which the syndromes P ⊕ ΣD and Q ⊕ Σ g^d D over a Bale's ranges place the whole error (R269). -/
def locateError (g : Seg) (e : ChunkEnt) (src : List (Nat × Option Bytes)) : Option Nat :=
  let w := g.members.length
  match sourceAt src (posP w e.stripe), if g.q then sourceAt src (posQ w e.stripe) else none with
  | some p, some q =>
    let sp := inRanges e (sumP g e.stripe src p)
    let sq := inRanges e (sumQ g e.stripe src q)
    if sp.all (· == 0) then none else (List.range g.d).find? fun d => gfScale (gfPow d) sp == sq
  | _, _ => none

/-- The Bale with one strip treated as missing. -/
def attemptWithout (g : Seg) (e : ChunkEnt) (src : List (Nat × Option Bytes)) (d : Nat) : Option Bytes :=
  rebuildBale g e (src.filter fun x : Nat × Option Bytes => x.1 != posD g.members.length e.stripe d g.q)

/-- The attempts of the single rebuild, in order: the strip that the syndromes name, and otherwise each strip that the Bale touches, the
lowest first (R269). -/
def rebuildAttempts (g : Seg) (e : ChunkEnt) (src : List (Nat × Option Bytes)) (w : Bytes) : List (Bytes × Bytes) :=
  let ds := match locateError g e src with
    | some d => [d]
    | none => (balePieces e).map fun p : Nat × Nat × Nat => p.1
  (ds.filterMap (attemptWithout g e src)).map fun b => (b, w)

/-- The first attempt that passes. -/
def passing (s : State) (e : ChunkEnt) (l : List (Bytes × Bytes)) : Option (Bytes × Bytes) :=
  l.find? fun a => attemptStatus s e a == 0

/-- The rebuild passed: the data is served on, and the stored Bale is repaired by relocation with the rebuilt granules. -/
def rebuildPassed (j : ReadJob) (e : ChunkEnt) (a : Bytes × Bytes) (s : State) : State :=
  let bale := (openBale e a.1 a.2 s).getD []
  let t := modJob j.id (fun x => { x with found := a.1, waybill := a.2, bale := bale, rebuilt := true, wanted := none, sealOk := true }) s
  let t := alsoRelocate [e.no] e.seg (modEnt e.no (fun x => { x with stored := a.1, waybill := a.2 }) t)
  let t := if j.wanted = some 0x3002 then { t with sec := { t.sec with repaired := satAdd 0xFFFF t.sec.repaired 1 } } else t
  if j.wanted = some 0x3002 then raise .sec .fault 186 1 [e.no] t else raise .bal .fault 157 1 [e.no] t

/-- The status with which a failed rebuild ends the read: the last attempt's, or 0x3020 when no attempt could be made. -/
def failedStatus (s : State) (e : ChunkEnt) (l : List (Bytes × Bytes)) : Word16 :=
  match l.getLast? with
  | some a => attemptStatus s e a
  | none => 0x3020

def rebuildFailed (j : ReadJob) (e : ChunkEnt) (l : List (Bytes × Bytes)) (s : State) : State :=
  let t := { s with par := { s.par with unrepair := (s.par.unrepair + 1) % 2 ^ 64 } }
  let t := if failedStatus s e l = 0x3002 then countSealFailed t else t
  failJob j (failedStatus s e l) (if j.wanted = some 0x3002 then 186 else 157) 0 t

/-- Does a Waybill carry a FORMAT above 3 (R285)? -/
def newerFormat (w : Bytes) : Bool := numAt w 0 2 == 0x57B1 && decide (3 < numAt w 2 1)

/-- The module that holds a Waybill of a newer format is marked FAULT with cause 5 (R285). -/
def faultNewer (e : ChunkEnt) (s : State) : State :=
  match segOf s e.seg with
  | some g => forSome g.members[posD g.members.length e.stripe (g.d - 1) g.q]? (fun m t =>
      raise .med .critical 285 0 [m.lane] (faultLane m.lane 5 t)) s
  | none => s

/-- BALE_REBUILD_DONE (R269): the strips of the Bale's stripe have been read, with its Waybill. A key that is gone, or no XTS/seal
engine, ends the read (R187, R188); otherwise the attempts in order; the first that passes its check is kept. -/
def baleRebuildEffect (id : Nat) (src : List (Nat × Option Bytes)) (w : Bytes) (s : State) : State :=
  match jobOf s id with
  | none => s
  | some j =>
    match chunkOf s j.chunk with
    | none => endJob j 0x3020 s
    | some e =>
      if j.wanted.isNone || j.rebuilt then s
      else if !keysLoaded s e || (allOut s .xts && (e.sealed_ || e.keyInfo != unencrypted)) then endJob j 0x7011 s
      else if newerFormat w then rebuildFailed j e [] (faultNewer e s)
      else
        let l := match segOf s j.seg with
          | some g => rebuildAttempts g e src w
          | none => []
        match passing s e l with
        | some a => rebuildPassed j e a s
        | none => rebuildFailed j e l s

def execBaleRebuildDone (job : Nat) (r : StripeRead) (s : State) : Res :=
  run (.baleRebuildDone job r) (baleRebuildEffect job r.sources r.waybill) s

/-! ### The work of jobs (R270 to R272, R280 to R283) -/

/-- Members that a segment's layout can lose. -/
def redundancy (g : Seg) : Nat := if g.q then 2 else 1

def settledData (g : Seg) : Bool := g.st == .closed || g.st == .closing

/-- Pass 1 work: a segment without redundancy. -/
def passOne (g : Seg) : Bool := settledData g && decide (redundancy g ≤ g.missing.length)

/-- Pass 1 work that remains: such a segment, or one on its way out whose Bales can still be reconstructed. -/
def passOneWork (s : State) : Bool :=
  s.med.segs.any fun g => passOne g || (g.st == .reclaiming && redundancy g == g.missing.length)

/-- Does a Bale touch a member that is missing? -/
def touchesMissing (g : Seg) (e : ChunkEnt) : Bool :=
  (balePieces e).any fun p => decide (posD g.members.length e.stripe p.1 g.q ∈ g.missing)

/-- The Bales that pass 2 moves out of a segment. -/
def passTwoBales (s : State) (g : Seg) : List ChunkEnt :=
  (liveIn s g.no).filter fun e => touchesMissing g e && !((e.no, g.no) ∈ s.med.relocating)

/-- Pass 2 work: a P+Q segment with one member missing, and Bales on it. -/
def passTwo (s : State) (g : Seg) : Bool := settledData g && g.q && g.missing.length == 1 && !(passTwoBales s g).isEmpty

/-- Metadata first, then archive, then ordinary. -/
def passRank (g : Seg) : Nat := if g.stream.kind = 5 then 0 else if g.stream.kind = 4 then 1 else 2

/-- The first segment of a list in the order of a pass. -/
def firstInPass (l : List Seg) : Option Seg :=
  bestBy (fun a b => decide (passRank a < passRank b) || (passRank a == passRank b && decide (a.no < b.no))) l

/-- The segment with the lowest number. -/
def lowestSeg (l : List Seg) : Option Seg := bestBy (fun a b => decide (a.no < b.no)) l

/-- Can no segment be allocated for what moves out of a segment? -/
def noRoomFor (s : State) (g : Seg) : Bool :=
  let x := relocStream g
  (openSegOf s x).isNone && (leastWorn s x false).isNone && unformed s == 0

/-- A segment has been processed. -/
def processed (id no granules : Nat) (s : State) : State :=
  let t := modJobOf id (fun j => { j with cursor := no + 1, done := j.done + 1, granules := j.granules + granules, sinceCkpt := j.sinceCkpt + 1 }) s
  match t.par.jobs.find? fun j => j.id == id with
  | some j => if 64 ≤ j.sinceCkpt then writeCkpt id t else t
  | none => t

def granulesIn (l : List ChunkEnt) : Nat := sumBy (·.granules) l

/-- A phase ends, and the next begins: a checkpoint for each. -/
def nextPhase (id : Nat) (s : State) : State :=
  writeCkpt id (modJobOf id (fun j => { j with phase := j.phase + 1, cursor := 0 }) (writeCkpt id s))

/-- Is degraded data still on the move? -/
def stillMoving (s : State) : Bool :=
  s.med.segs.any fun g => g.missing ≠ [] && (g.st == .reclaiming || s.med.relocating.any fun p => p.2 == g.no)

/-- The job waits for a FREE segment (R271). -/
def waitForRoom (j : Job) (s : State) : State :=
  raiseIf (!j.paused) .par .critical 271 0 [j.id] (modJobOf j.id (fun x => { x with paused := true }) s)

/-- One step of a rebuild. -/
def rebuildStep (j : Job) (s : State) : State :=
  let go := modJobOf j.id (fun x => { x with paused := false }) s
  if j.phase = 1 then
    match firstInPass (s.med.segs.filter passOne) with
    | some g => if noRoomFor s g then waitForRoom j s else processed j.id g.no (granulesIn (liveIn s g.no)) (reclaimSeg g.no go)
    | none => if passOneWork s || !ckptRoom s j 2 then s else nextPhase j.id go
  else
    match firstInPass (s.med.segs.filter (passTwo s)) with
    | some g =>
      if noRoomFor s g then waitForRoom j s
      else processed j.id g.no (granulesIn (passTwoBales s g)) (alsoRelocate ((passTwoBales s g).map (·.no)) g.no go)
    | none => if stillMoving s then s else noteVacated (endTask j.id go)

/-- Segments that a reshape moves: of its slot, CLOSED, in another layout or with a member on a module being vacated. -/
def reshapes (j : Job) (g : Seg) : Bool :=
  g.st == .closed && decide (j.cursor ≤ g.no) && (match j.slot with
      | 1 => g.stream.kind == 4
      | 2 => g.stream.kind == 5
      | _ => decide (g.stream.kind.val < 4))
    && (g.layout != j.to_.id || g.members.any fun m => decide (m.lane ∈ j.lanes))

/-- One step of a reshape; it pauses while any pass 1 work exists, and yields to reclamation below the background level (R281). -/
def reshapeStep (j : Job) (s : State) : State :=
  if passOneWork s || (1 ≤ s.med.level && reclaimWork s) then modJobOf j.id (fun x => { x with paused := true }) s
  else
    let go := modJobOf j.id (fun x => { x with paused := false }) s
    match lowestSeg (s.med.segs.filter (reshapes j)) with
    | some g => processed j.id g.no (granulesIn (liveIn s g.no)) (reclaimSeg g.no go)
    | none => noteVacated (endTask j.id go)

/-- Segments of an older version with Bales that are not yet being copied. -/
def besideBales (s : State) (g : Seg) : List ChunkEnt := (liveIn s g.no).filter fun e => !((e.no, g.no) ∈ s.med.relocating)

/-- One step of a build-beside: the old segments are copied out in order and stay as they are; then the switch waits for its
map checkpoint (R282). -/
def besideStep (j : Job) (s : State) : State :=
  if j.phase = 2 then s
  else
    match lowestSeg (s.med.segs.filter fun g => g.oldVer && !(besideBales s g).isEmpty) with
    | some g => processed j.id g.no (granulesIn (besideBales s g)) (alsoRelocate ((besideBales s g).map (·.no)) g.no s)
    | none =>
      if s.med.segs.any fun g => g.oldVer && !(liveIn s g.no).isEmpty || !ckptRoom s j 2 then s else nextPhase j.id s

/-- The job that makes the next step: no rebuild in pass 2 before one in pass 1, else a free choice. -/
def nextTask (s : State) : Option Job :=
  let one := (rebuilds s).filter fun j => j.phase == 1
  let l := if one.isEmpty then s.par.jobs else one ++ s.par.jobs.filter fun j => j.kind != .rebuild
  l[freePick l.length s]?

/-- JOB_SEGMENT_STEP (R270 to R275, R280 to R283): nothing while control pair 3 is in reset, or while the peer owes acknowledgements. -/
def jobStepEffect (s : State) : State :=
  if asleep s || s.peer.pair3.inReset || s.peer.role == .service || !(s.glb.service == .normal || s.glb.service == .recovery) then s
  else
    match nextTask s with
    | none => s
    | some j =>
      if !ckptRoom s j 1 then s
      else
        let t := tick s
        match j.kind with
        | .rebuild => rebuildStep j t
        | .reshape => reshapeStep j t
        | .buildBeside => besideStep j t

def execJobSegmentStep (s : State) : Res := run .jobSegmentStep jobStepEffect s

/-- JOB_CHECKPOINT_TIMER (R274). -/
def ckptTimerEffect (s : State) : State :=
  if s.peer.pair3.inReset || asleep s then s
  else forEach (s.par.jobs.filter fun j => ckptRoom s j 1) (fun j t => writeCkpt j.id t) s

def execJobCheckpointTimer (s : State) : Res := run .jobCheckpointTimer ckptTimerEffect s

/-- A job runs on from a checkpoint, led by this head (R275). -/
def resumeTask (c : JobCkpt) (s : State) : State :=
  let kind : JobKind := if c.kind = 1 then .rebuild else if c.kind = 2 then .reshape else .buildBeside
  let slot := c.slot.toNat
  let target : Layout := if slot = 1 then s.par.archive else if slot = 2 then s.par.metadata else s.par.ordinary
  addTask ⟨0, kind, c.phase.toNat, false, true, slot, c.layoutFrom.toNat, target, c.lanes, c.die.toNat, c.cursor, c.done, c.granules, 0, 0⟩
    { s with par := { s.par with ckpts := s.par.ckpts.filter fun x => !sameJob x c } }

/-! ### Build-beside (R283) -/

/-- Granules that the head's FREE and DIRTY segments and unformed blocks hold. -/
def freeGranules (s : State) : Nat :=
  let w := dNow s s.par.ordinary
  sumBy (fun g => if g.st == .free || g.st == .dirty then segGranules g else 0) s.med.segs
    + unformed s * 128 * w * segCapacity s (healthyLanes s s.par.ordinary) false

def oldGranules (s : State) : Nat := sumBy (fun g => if g.oldVer then validGranules s g.no else 0) s.med.segs

/-- BUILD_BESIDE_START. -/
def besideStartEffect (s : State) : State :=
  if !s.par.old || s.par.jobs.any (fun j => j.kind == .buildBeside || j.kind == .reshape) || s.peer.role == .service then s
  else if 105 * oldGranules s ≤ 100 * freeGranules s then
    addTask ⟨0, .buildBeside, 1, false, true, 0, 0, s.par.ordinary, [], 0xFFFF, 0, 0, 0, 0, 0⟩
      { s with par := { s.par with waiting := false } }
  else { s with par := { s.par with waiting := true } }

def execBuildBesideStart (s : State) : Res := run .buildBesideStart besideStartEffect s

/-- BUILD_BESIDE_DAILY_NOTICE. -/
def execBuildBesideDailyNotice (s : State) : Res :=
  run .buildBesideDailyNotice (fun t => raiseIf t.par.waiting .par .fault 283 0 [] t) s

/-- The switch is on media: every old segment is DIRTY, and the job ends (R282). -/
def besideSwitched (s : State) : State :=
  match s.par.jobs.find? fun j => j.kind == .buildBeside && j.phase == 2 with
  | none => s
  | some j =>
    let l := modAll (fun g : Seg => g.oldVer) (fun g => { g with st := .dirty, oldVer := false, missing := [] }) s.med.segs
    endTask j.id { s with med := { s.med with segs := l }, par := { s.par with old := false } }

/-! ### Patrol (R276 to R278) -/

/-- The LIVE Bales of a stripe. -/
def stripeBales (s : State) (no k : Nat) : List ChunkEnt := (liveIn s no).filter fun e => e.stripe == k

/-- Positions and lanes of the members that a list of strips of a stripe lies on, which every patrol event names (R277). -/
def onMembers (g : Option Seg) (k : Nat) (ds : List Nat) : List Nat :=
  match g with
  | some g => ds.flatMap fun d =>
      let p := posD g.members.length k d g.q
      p :: ((g.members[p]?).toList.map (·.lane))
  | none => []

/-- The members that a chunk's Bale lies on. -/
def baleMembers (s : State) (no : Nat) : List Nat :=
  match chunkOf s no with
  | some e => onMembers (segOf s e.seg) e.stripe ((balePieces e).map (·.1))
  | none => []

/-- Positions of a segment, with their lanes. -/
def withLanes (g : Option Seg) (ps : List Nat) : List Nat :=
  ps.flatMap fun p => p :: ((g.bind fun g => g.members[p]?).toList.map (·.lane))

/-- What patrol does with one Bale that failed its check. -/
def patrolBale (f : PatrolFinding) (no : Nat) (s : State) : State :=
  if no ∈ f.rebuilt then
    raise .par .fault 277 0 ([f.seg, f.stripe, no] ++ baleMembers s no)
      (alsoRelocate [no] f.seg { s with par := { s.par with repaired := (s.par.repaired + 1) % 2 ^ 64 } })
  else
    raise .par .critical 277 1 ([f.seg, f.stripe, no] ++ baleMembers s no) { s with par := { s.par with unrepair := (s.par.unrepair + 1) % 2 ^ 64 } }

/-- The findings of one stripe. -/
def patrolFound (f : PatrolFinding) (s : State) : State :=
  let live := (stripeBales s f.seg f.stripe).map (·.no)
  let failed := f.failed.filter fun n => decide (n ∈ live)
  let t := forEach failed (patrolBale f) s
  let t := if failed.isEmpty && !f.parityAgrees && decide (f.badMembers.length < 2) then
      raise .par .notice 277 2 ([f.seg, f.stripe] ++ withLanes (segOf s f.seg) (List.range (((segOf s f.seg).map (·.members.length)).getD 0)))
        (alsoRelocate live f.seg { t with par := { t.par with mismatch := (t.par.mismatch + 1) % 2 ^ 64 } })
    else t
  if 2 ≤ f.badMembers.length then raise .par .fault 277 3 (f.seg :: f.stripe :: withLanes (segOf s f.seg) f.badMembers) (reclaimSeg f.seg t) else t

/-- PATROL_STEP (R276 to R278, R219): CLOSED segments that are not degraded; anything else is skipped and counts nothing. -/
def patrolEffect (f : PatrolFinding) (s : State) : State :=
  match segOf s f.seg with
  | none => s
  | some g =>
    if g.st != .closed || g.missing ≠ [] || decide (g.stripes ≤ f.stripe) || asleep s then s
    else
      let t := patrolFound f { s with par := { s.par with stripes := (s.par.stripes + 1) % 2 ^ 64, cursor := (f.seg, f.stripe + 1) } }
      if halfLimit s g f.corr && (segOf t f.seg).any (fun x => x.st == .closed) then reclaimSeg f.seg (countRefresh t) else t

def execPatrolStep (f : PatrolFinding) (s : State) : Res := run (.patrolStep f) (patrolEffect f) s

/-- Bytes that patrol reads on a module in one period. -/
def patrolBytes (s : State) (n : Nat) : Nat :=
  65536 * sumBy (fun g => if g.st == .closed && g.missing == [] && onLane g n then g.stripes else 0) s.med.segs

/-- Can a period not be met within MAX_MBPS on some module? -/
def patrolBehind (s : State) : Bool :=
  (heldLanes s).any fun n => decide (s.par.maxMbps * 1000000 * (max 7 s.par.days * 86400) < patrolBytes s n)

/-- PATROL_DAILY_NOTICE (R276). -/
def execPatrolDailyNotice (s : State) : Res :=
  run .patrolDailyNotice (fun t => raiseIf (patrolBehind t) .par .notice 276 0 [] t) s

end Sys2Proof.Machine
end

