-- ==== Sys2Proof/Machine/Tilask.lean ====
section
/-! DEFINITION. The Tilask side of the array: superblocks (R285, R293, R294), root records and Bale-serial blocks (R295),
checkpoints (R298, R299), and the archiving of event records (R300, R301, R406). -/

namespace Sys2Proof.Machine

/-! ### Superblocks -/

/-- The first layouts of an array: P+Q with D = min(22, E − 2), every module eligible (R260). -/
def firstLayout (id e : Nat) : Layout := { id := id, d := min 22 (e - 2), q := true, elig := List.range 96 }

/-- A module without a superblock takes part in the array: while the array is new its layouts follow the modules that are
held, and a random ARRAY_ID is drawn when there is none. -/
def initArray (s : State) : State :=
  let t := if s.til.arrayId = [] then
      tick { s with til := { s.til with arrayId := freeBytes 16 s } }
    else s
  if t.med.segs = [] then
    let e := (heldLanes t).length
    { t with par := { t.par with
      ordinary := firstLayout 1 e, archive := firstLayout 2 e, metadata := firstLayout 3 e, nextLay := 4 } }
  else t

/-- A valid superblock: magic and CRC. -/
def superblockOk (b : Bytes) : Bool := numAt b 0 4 == 0x71A55B01 && crcOk (bytesAt b 0 512)

/-- The highest role epoch of two, by number. -/
def maxEpoch (a b : Word16) : Word16 := if a.toNat < b.toNat then b else a

/-- The newest root record of a module is taken: its role epoch (R342), and the top of its serial block, from which the chip starts
after a power loss (R182, R295). -/
def takeRoot (root : Bytes) (s : State) : State :=
  if numAt root 0 4 == 0x71A52007 && crcOk root then
    let top := numAt root 0x20 8
    { s with
      til := { s.til with rootEpoch := maxEpoch s.til.rootEpoch (BitVec.ofNat 16 (numAt root 0x28 2)), rootSeq := max s.til.rootSeq (numAt root 8 8) },
      sec := if s.sec.serialTop < top then { s.sec with serialTop := top, serialNext := top } else s.sec }
  else s

/-- A module without a valid superblock joins the array, and takes one with its first root record. -/
def initModule (n : Nat) (s : State) : State :=
  let t := initArray s
  let t := { t with til := { t.til with
    readFloor := tabPut 0 n 3 t.til.readFloor, supers := tabPut [] n (newSuper t n) t.til.supers, roots := tabPut (0, 0) n (0, 0) t.til.roots } }
  renewSuper n t

/-- A valid superblock is taken, with the place of the next root record. -/
def takeSuper (n : Nat) (b : Bytes) (block next : Nat) (root : Bytes) (s : State) : State :=
  takeRoot root { s with
    til := { s.til with
      arrayId := if s.til.arrayId = [] then bytesAt b 8 16 else s.til.arrayId,
      readFloor := tabPut 0 n (max 1 (numAt b 6 2)) s.til.readFloor, supers := tabPut [] n (bytesAt b 0 512) s.til.supers,
      roots := tabPut (0, 0) n (block, max 1 next) s.til.roots },
    par := { s.par with old := s.par.old || decide (numAt b 6 2 < 3) } }

/-- SUPERBLOCK_READ (R285, R294, R342): page 0 of the root block that holds the newest root record, which block that is, the page after
that record, and the record itself. A FORMAT above 3 marks the module FAULT. -/
def superblockEffect (n : Nat) (b : Bytes) (block next : Nat) (root : Bytes) (s : State) : State :=
  if (laneOf s n).st != .held then s
  else if numAt b 0 4 == 0x71A55B01 && decide (3 < numAt b 4 2) then raise .med .critical 285 0 [n] (faultLane n 5 s)
  else if !superblockOk b then initModule n s
  else takeSuper n b block next root s

def execSuperblockRead (lane : Fin 96) (page : Bytes) (r : RootFound) (s : State) : Res :=
  run (.superblockRead lane page r) (superblockEffect lane.val page r.block.val r.next r.root) s

/-! ### Roots and checkpoints -/

/-- ROOT_RECORDED (R295): at least half of the held modules have reported the program of the root record that is on its way; the serial
block that it names may be used, and the checkpoint that it names is recorded. -/
def rootRecordedEffect (lanes : List Nat) (s : State) : State :=
  let got := (heldLanes s).filter fun n => decide (n ∈ lanes)
  if !s.til.rootOut ∨ got = [] ∨ 2 * got.length < (heldLanes s).length then s
  else
    { s with
      til := { s.til with recorded := got, rootOut := false, rooted := s.til.writing && s.til.rootNames },
      sec := { s.sec with serialTop := s.sec.serialNew.getD s.sec.serialTop, serialNew := none } }

def execRootRecorded (lanes : List Nat) (s : State) : Res := run (.rootRecorded lanes) (rootRecordedEffect lanes) s

/-- A checkpoint's objects are all programmed, and its root records are written (R295, R298). -/
def rootsIfDue (s : State) : State := if s.til.writing && objsProgrammed s && !s.til.rooted && !(s.til.rootOut && s.til.rootNames) then writeRoots s else s

/-- CHECKPOINT_DUE (R206, R298, R299): writing starts; changed pages and the directories above them are written, and the journal is
switched. -/
def execCheckpointDue (s : State) : Res := run .checkpointDue (fun t => rootsIfDue (startCheckpoint t)) s

/-- R308: READ_FLOOR rises to 3 on a module that holds no version 1 or 2 object. -/
def raiseFloor (s : State) : State :=
  forEach (heldLanes s) (fun n t =>
    if s.par.old || s.med.segs.any (fun g => g.oldVer && onLane g n) then t
    else if 3 ≤ tabGet 0 n t.til.readFloor then t
    else renewSuper n { t with til := { t.til with readFloor := tabPut 0 n 3 t.til.readFloor } }) s

/-- CHECKPOINT_COMPLETE (R298): the checkpoint is current, the journal that was left is cleared, and a build-beside switch is
made. -/
def checkpointCompleteEffect (s : State) : State :=
  if !(s.til.writing && s.til.rooted) then s
  else
    raiseFloor <| besideSwitched <| sweepObjs { s with
      til := { s.til with
        ckptPages := s.til.newPages, newPages := [], writing := false, rooted := false, current := s.til.ckptSeq, currentObj := s.til.headObj, hooks := s.til.hooksNew, hooksNew := [],
        lastObject := s.til.objLast },
      med := { s.med with oldJournal := [] } }

/-! ### Archiving (R300, R301, R406) -/

/-- The slots of NOR records that are in neither the area nor an object, with their SEQ, in sequence order. -/
def waitingSlots (s : State) : List (Nat × Nat × Nat) :=
  sortBy (fun a b => decide (a.1 ≤ b.1)) ((usedSlots s.nor).filterMap fun p =>
    match slotRecord s p.1 p.2 with
    | some r =>
      if markOf s p.1 p.2 = 0 ∨ (markOf s p.1 p.2 = 3 ∧ s.til.objLast < r.1 ∧ !(s.til.archived.any fun b => recSeq b == r.1)) then
        some (r.1, p.1, p.2)
      else none
    | none => none)

/-- One copy of a granule on a module: PARTIAL PROGRAM of one granule on each reserved die, in the area block being filled. -/
def programGranule (n : Nat) (b : Bytes) (s : State) : State :=
  let i := (laneOf s n).info
  let a := tabGet (0, 0) n s.til.area
  let per := max 1 i.partials
  let t := forEach (reservedDies i) (fun d u => farSend n ⟨0x12, true, d, reservedBlock u n d (2 + a.1), a.2 / per, 1, a.2 % per, 1, b⟩ u) s
  { t with til := { t.til with area := tabPut (0, 0) n (a.1, a.2 + 1) t.til.area } }

/-- The granule goes to 2 held modules in rotation. -/
def sendGranule (s : State) : State :=
  let h := heldLanes s
  let b := padTo 512 s.til.granule.flatten
  let pick := (List.range (min 2 h.length)).filterMap fun k => h[(s.til.rotation + k) % h.length]?
  let t := forEach pick (fun n u => programGranule n b u) s
  { t with til := { t.til with rotation := t.til.rotation + 2 } }

/-- ARCHIVE_GRANULE_WRITE (R406): up to 8 records of NOR, in sequence order. -/
def granuleWriteEffect (s : State) : State :=
  let w := (waitingSlots s).take 8
  if s.til.granule ≠ [] ∨ w = [] ∨ (heldLanes s).isEmpty ∨ !(s.glb.service == .normal || s.glb.service == .recovery)
      ∨ !logReplayed s ∨ s.peer.pair3.inReset then s
  else sendGranule { s with til := { s.til with granule := w.map fun p => norRead s (slotAddr p.2.1 p.2.2) 64 } }

def execArchiveGranuleWrite (s : State) : Res := run .archiveGranuleWrite granuleWriteEffect s

/-- A mark word is programmed, unless both marks stand already, or it is one that R403 leaves undecided. -/
def programMark (w : Nat) (p : Nat × Nat × Nat) (s : State) : State :=
  if markOf s p.2.1 p.2.2 = 3 ∨ markOf s p.2.1 p.2.2 = 2 ∨ s.nvc.halted then s
  else { s with nor := cellsWrite norDefault (leBytes 4 w) (markAddr p.2.1 p.2.2) s.nor }

/-- The NOR slots whose records are in a list. -/
def slotsOf (s : State) (l : List Bytes) : List (Nat × Nat × Nat) :=
  (usedSlots s.nor).filterMap fun p =>
    match slotRecord s p.1 p.2 with
    | some r => if l.any fun b => recSeq b == r.1 then some (r.1, p.1, p.2) else none
    | none => none

/-- ARCHIVE_GRANULE_DONE (R406, R403): the records are in the area and take their first marks; a granule that failed on any copy
is written again to the next modules. -/
def granuleDoneEffect (good : Bool) (s : State) : State :=
  if s.til.granule = [] then s
  else if !good then sendGranule s
  else
    let t := forEach (slotsOf s s.til.granule) (programMark 0xFFFF0000) s
    { t with
      til := { t.til with archived := s.til.archived ++ s.til.granule, granule := [] },
      evr := { t.evr with archSeq := s.til.granule.foldl (fun m b => max m (recSeq b + 1)) s.evr.archSeq } }

def execArchiveGranuleDone (good : Bool) (s : State) : Res := run (.archiveGranuleDone good) (granuleDoneEffect good) s

/-- The area blocks that hold no unarchived record are erased, and the other block of each is filled next. -/
def eraseArea (s : State) : State :=
  let ns := (s.til.area.filter fun p => decide (0 < p.2.2)).map (·.1)
  forEach ns (fun n t =>
    let a := tabGet (0, 0) n t.til.area
    let u := forEach (reservedDies (laneOf t n).info) (fun d v => farSend n ⟨0x13, true, d, reservedBlock v n d (2 + a.1), 0, 1, 0, 0, []⟩ v) t
    { u with til := { u.til with area := tabPut (0, 0) n (1 - a.1, 0) u.til.area } }) s

/-- ARCHIVE_OBJECT_WRITE (R300, R301): the oldest records of the area, 1,022 at most, become an archive object in the metadata stream;
one object is on its way at a time. -/
def objectWriteEffect (s : State) : State :=
  let l := s.til.archived.take 1022
  if l = [] ∨ s.til.objOut.isSome ∨ (heldLanes s).isEmpty ∨ s.peer.pair3.inReset ∨ !inService s then s
  else
    let key := objKey 11 0
    let obj := s.med.nextObj
    let a := newObject key ((l.head?.map recSeq).getD 0) (fun _ => true) (archiveBytes (newestOfKind s 11) s.til.chain l) s
    if a.1 then { a.2 with til := { a.2.til with objOut := some obj } }
    else { a.2 with med := { a.2.med with pages := a.2.med.pages.filter fun p => p.obj != obj } }

def execArchiveObjectWrite (s : State) : Res := run .archiveObjectWrite objectWriteEffect s

/-- The stripe of the archive object on its way has programmed: its records take their second marks and leave the area, whose blocks
are erased when they hold nothing else (R300, R403, R406). One that was lost with its stripe is written again. -/
def objectLanded (s : State) : State :=
  match s.til.objOut with
  | none => s
  | some o =>
    match recOf s o with
    | none =>
      { s with til := { s.til with objOut := none }, med := { s.med with pages := s.med.pages.filter fun p => p.obj != o } }
    | some r =>
      if s.med.stripes.any fun t => t.seg == r.seg && t.stripe == r.stripe then s
      else
        let n := numAt r.body 6 2
        let l := s.til.archived.take n
        let t := forEach (slotsOf s l) (programMark 0) s
        let t := { t with til := { t.til with
          objOut := none, archived := s.til.archived.drop n, chain := bytesAt r.body 0x50 48, objLast := numAt r.body 0x10 8 } }
        if t.til.archived = [] ∧ t.til.granule = [] then eraseArea t else t

end Sys2Proof.Machine
end

