-- ==== Sys2Proof/Machine/Snap.lean ====
section
/-! DEFINITION. Consistency groups, snapshots and their commands (R309 to R319), and the records of replication sessions (R320 to
R322, R328, R329). -/

namespace Sys2Proof.Machine

/-! ### Namespaces and their snapshots -/

/-- The status with which a command on a namespace is turned away: unknown or being deleted, or not owned by this head now. -/
def nsStatus (s : State) (n : Nat) : Option Word16 :=
  match nsOf s n with
  | none => some 0x2001
  | some x => if x.deleting.isSome then some 0x2001 else if peerOwns s x then some 0x6002 else none

def snapOf (s : State) (n q : Nat) : Option Snap := s.snp.snaps.find? fun x => x.nsid == n && x.seq == q

/-- A COMPLETE snapshot. -/
def completeSnap (s : State) (n q : Nat) : Option Snap := (snapOf s n q).filter fun x => x.st == .complete

def modSnap (n q : Nat) (f : Snap → Snap) (s : State) : State :=
  { s with snp := { s.snp with snaps := modFirst (fun x => x.nsid == n && x.seq == q) f s.snp.snaps } }

/-- Snapshots of a namespace in states other than FREE. -/
def snapCount (s : State) (n : Nat) : Nat := (s.snp.snaps.filter fun x => x.nsid == n).length

def sessOf (s : State) (n : Nat) : Option Sess := s.snp.sessions.find? fun x => x.nsid == n

def modSess (n : Nat) (f : Sess → Sess) (s : State) : State :=
  { s with snp := { s.snp with sessions := modFirst (fun x => x.nsid == n) f s.snp.sessions } }

/-- The namespace's tree as it stands, with the objects of its pages (an exposed snapshot's own, R318). -/
def treeOf (s : State) (n : Nat) : List MapEntry × List (Nat × Nat) :=
  match (nsOf s n).bind (·.exposed) with
  | some (o, q) => (match snapOf s o q with
    | some x => (x.tree, x.pages)
    | none => ([], []))
  | none => (s.med.maps.filter fun m => m.nsid == n, (s.med.pages.filter fun p => p.nsid == n && p.level == 0).map fun p => (p.page, p.obj))

/-- The directory pages of that tree (R297). -/
def dirsOf (s : State) (n : Nat) : List PageObj :=
  match (nsOf s n).bind (·.exposed) with
  | some (o, q) => (match snapOf s o q with
    | some x => x.dirs
    | none => [])
  | none => s.med.pages.filter fun p => p.nsid == n && p.level != 0

/-! ### The commands 0x30 to 0x3F (R316, R334) -/

/-- What such a command ends with: status, RESULT, data for its buffer, and the state. -/
abbrev SnapDone := Word16 × Nat × Bytes × State

def plainDone (d : AdminDone) : SnapDone := (d.1, d.2.1, [], d.2.2)

/-- The command ends where it came from. -/
def endSnap (w : Waiter) (d : SnapDone) : State :=
  let t := if w.origin == .host && !d.2.2.1.isEmpty then toHost w.c.q w.c.dptr0.toNat d.2.2.1 d.2.2.2 else d.2.2.2
  answerTo w.origin w.c.q w.c.cid d.1 0 0 d.2.1 d.2.2.1 t

/-- Bytes that a command writes to its buffer, at most. -/
def snapBuf (c : HostCmd) : Nat := if c.op = 0x33 then c.d38 else if c.op = 0x3B then 128 else 0

/-- In head role SERVICE the command is relayed to the peer (R334). -/
def relaySnap (w : Waiter) (s : State) : State :=
  let c := { newCmd w (.relayed peerDst) s with bufs := [(w.c.dptr0.toNat, snapBuf w.c)] }
  toPeer 0x14 (0 :: relayArgs c ++ [w.c.d7, w.c.d38]) w.c.buf (addCmd c s)

/-- A command 0x30 to 0x3F past steps 1 to 3: here, or at the peer. -/
def snapCommand (f : Waiter → State → State) (w : Waiter) (s : State) : State :=
  if s.peer.role = .service then
    (if s.peer.linkUp && w.origin == .host then relaySnap w s else answerCmd w 0x6002 0 s)
  else f w s

def snapRow (f : Waiter → State → State) (c : HostCmd) (s : State) : State :=
  fetchRow c (fun q t => snapCommand f ⟨c, q.tenant, .host⟩ t) s

/-- A command that is done at once. -/
def snapNow (f : HostCmd → State → SnapDone) (w : Waiter) (s : State) : State := endSnap w (f w.c s)

/-! ### CG SET (R312) -/

/-- The NSIDs of a list in a buffer. -/
def nsidList (c : HostCmd) : List Nat := ((List.range c.d38).map fun i => numAt c.buf (2 * i) 2).eraseDups

/-- The members obey R312. -/
def membersOk (s : State) (g : Nat) (l : List Nat) : Bool :=
  let ns := l.filterMap (nsOf s)
  decide (1 ≤ l.length) && decide (l.length ≤ 256) && ns.length == l.length && l.all (fun n => (nsStatus s n).isNone)
    && (ns.map (·.tenant)).eraseDups.length == 1
    && l.all fun n => s.snp.groups.all fun x => x.1 == g || !(decide (n ∈ x.2))

def cgSetCmd (c : HostCmd) (s : State) : AdminDone :=
  let g := c.d7 % 4096
  let l := if bitOf c.d7 31 then [] else nsidList c
  let old := tabGet [] g s.snp.groups
  if s.snp.snaps.any (fun x => x.st == .pending && x.group == some g) || (l ++ old).any (fun n => (sessOf s n).isSome) then (0x1009, 0, s)
  else if !bitOf c.d7 31 && !(decide (c.d38 ≤ 256) && membersOk s g l) then (0x1002, 1, s)
  else (0, l.length, { s with snp := { s.snp with groups := tabPut [] g l s.snp.groups } })

def cgSetDo : Waiter → State → State := snapNow fun c s => plainDone (cgSetCmd c s)

def execCgSet (c : HostCmd) (s : State) : Res := run (.cgSet c) (snapRow cgSetDo c) s

/-! ### SNAP CREATE (R313 to R315) -/

/-- The group that SNAP CREATE names, and the members. -/
def snapGroup (c : HostCmd) : Option Nat := if bitOf c.d7 31 then some (c.d7 % 4096) else none

def snapMembers (s : State) (c : HostCmd) : List Nat :=
  match snapGroup c with
  | some g => tabGet [] g s.snp.groups
  | none => [c.ns]

/-- SNAP_CREATE: the command is admitted, and writes to the members are held from now on. -/
def snapCreateStart (w : Waiter) (s : State) : State :=
  let c := w.c
  let l := snapMembers s c
  if l.isEmpty then answerCmd w 0x1002 1 s
  else
    match l.findSome? (nsStatus s) with
    | some st => answerCmd w st 0 s
    | none =>
      if l.any fun n => decide (1024 ≤ snapCount s n) then answerCmd w 0x1002 2 s
      else
        let d := newCmd w (.snap (padTo 32 c.buf) (snapGroup c)) s
        let t := addCmd d s
        { t with snp := { t.snp with holds := t.snp.holds ++ [(d.id, l)] } }

def execSnapCreate (c : HostCmd) (s : State) : Res := run (.snapCreate c) (snapRow snapCreateStart c) s

/-- Every admitted write to the members has settled. -/
def writesSettled (s : State) (l : List Nat) : Bool :=
  s.hqe.cmds.all fun c => !((c.op == 0x81 || c.op == 0x82) && decide (c.nsid ∈ l) && !notAdmitted c && (match c.stage with
    | .relayed _ => false
    | _ => true))

/-- Can every STAGED block of the members be chosen for flush now: no earlier flush of the same block, no earlier snapshot
PENDING, nothing left in a survivor's mirror area? -/
def cutReady (s : State) (l : List Nat) : Bool :=
  writesSettled s l
    && !(s.ing.staging.any fun e => decide (e.nsid ∈ l) && e.st == .staged && blockFlushing s e.nsid e.lba)
    && !(s.snp.snaps.any fun x => x.st == .pending && decide (x.nsid ∈ l))
    && !(s.peer.role == .sole && s.ing.mirror.any fun m => decide (m.nsid ∈ l) && genHigher m.gen (publishedGen s m.nsid m.lba))

/-- The PENDING snapshot of one member. -/
def pendingSnap (s : State) (id : Nat) (label : Bytes) (g : Option Nat) (n : Nat) : Snap :=
  { nsid := n, seq := tabGet 0 n s.snp.nextSeq + 1, st := .pending, group := g, cgSeq := if g.isSome then s.snp.cgSeq + 1 else 0,
    seconds := (stampSeconds s).toNat, cycles := (stampCycles s).toNat, label := label, exposed := none, replica := false, base := false,
    srcSeq := 0, srcNsid := 0, srcArray := [], cmd := some id, tree := [], pages := [] }

def recordCut (id : Nat) (label : Bytes) (g : Option Nat) (l : List Nat) (s : State) : State :=
  { s with snp := { s.snp with
    snaps := s.snp.snaps ++ l.map (pendingSnap s id label g),
    nextSeq := l.foldl (fun t n => tabMod 0 n (· + 1) t) s.snp.nextSeq,
    cgSeq := if g.isSome then s.snp.cgSeq + 1 else s.snp.cgSeq,
    holds := s.snp.holds.filter fun h => h.1 != id } }

/-- SNAP_CUT (R313): the cut is recorded, the members' STAGED entries are chosen for flush, and admission resumes. -/
def snapCutEffect (id : Nat) (s : State) : State :=
  match cmdOf s id, s.snp.holds.find? fun h => h.1 == id with
  | some c, some h =>
    (match c.stage with
    | .snap label g =>
      if cutReady s h.2 then
        readmit (recordCut id label g h.2 (forEach (h.2.flatMap (runsOf s)) startRun s))
      else s
    | _ => s)
  | _, _ => s

def execSnapCut (cmd : Nat) (s : State) : Res := run (.snapCut cmd) (snapCutEffect cmd) s

/-- A PENDING snapshot takes the live tree as it is now. -/
def freezeRoot (x : Snap) (s : State) : State :=
  let t := treeOf s x.nsid
  modSnap x.nsid x.seq (fun y => { y with st := .complete, tree := t.1, pages := t.2, dirs := dirsOf s x.nsid, cmd := none }) s

/-- SNAP_COMPLETE (R313): every flush chosen at the cut is published; the roots freeze, and the command completes. -/
def snapCompleteEffect (id : Nat) (s : State) : State :=
  let mine := s.snp.snaps.filter fun x => x.st == .pending && x.cmd == some id
  if mine.isEmpty || s.ing.runs.any (fun r => mine.any fun x => x.nsid == r.nsid) then s
  else
    let result := match mine with
      | x :: _ => if x.group.isSome then x.cgSeq else x.seq
      | [] => 0
    finishCmd id 0 0 result (forEach mine freezeRoot s)

/-! ### SNAP DELETE, LIST and EXPOSE (R316 to R318) -/

/-- Is a snapshot the one that its namespace's session sends? -/
def beingSent (s : State) (n q : Nat) : Bool :=
  match sessOf s n with
  | some x => x.role == .source && x.sendSeq == q && x.st != .idle
  | none => false

def snapDeleteCmd (c : HostCmd) (s : State) : AdminDone :=
  match nsStatus s c.ns with
  | some st => (st, 0, s)
  | none =>
    match completeSnap s c.ns c.d7 with
    | none => (0x1002, 3, s)
    | some x =>
      if x.exposed.isSome || x.base || beingSent s c.ns c.d7 then (0x1009, 0, s)
      else (0, 0, startSnapDelete c.ns c.d7 s)

def snapDeleteDo : Waiter → State → State := snapNow fun c s => plainDone (snapDeleteCmd c s)

def execSnapDelete (c : HostCmd) (s : State) : Res := run (.snapDelete c) (snapRow snapDeleteDo c) s

/-- Is a page's object named by another snapshot of the namespace or by the live tree? -/
def stillNamed (s : State) (n q : Nat) (p : Nat × Nat) : Bool :=
  snapNames s n q p.2 || pageObjOf s n p.1 == some p.2

/-- SNAP_DELETE_WALK_END (R317): each object that no neighbour names is released with its references, and the slot is FREE. -/
def walkEndEffect (n q : Nat) (s : State) : State :=
  match snapOf s n q with
  | none => s
  | some x =>
    if x.st != .deleting then s
    else
      let gone := (x.pages.filter fun p => !stillNamed s n q p).map (·.1)
      let t := dropEntries (x.tree.filter fun m => decide (pageOf m.lba ∈ gone)) s
      { t with snp := { t.snp with snaps := t.snp.snaps.filter fun y => !(y.nsid == n && y.seq == q) } }

def execSnapDeleteWalkEnd (nsid : BitVec 14) (seq : Nat) (s : State) : Res :=
  run (.snapDeleteWalkEnd nsid seq) (walkEndEffect nsid.toNat seq) s

def snapListCmd (c : HostCmd) (s : State) : SnapDone :=
  match nsStatus s c.ns with
  | some st => (st, 0, [], s)
  | none =>
    let l := (s.snp.snaps.filter fun x => x.nsid == c.ns).take (c.d38 / 128)
    (0, l.length, l.flatMap (snapBytes s), s)

def execSnapList (c : HostCmd) (s : State) : Res := run (.snapList c) (snapRow (snapNow snapListCmd) c) s

/-- SNAP EXPOSE: a snapshot that is exposed already keeps its one exposure (DESIGN CHOICE: 0x1009). -/
def snapExposeCmd (c : HostCmd) (s : State) : AdminDone :=
  match nsStatus s c.ns, nsOf s c.ns with
  | some st, _ => (st, 0, s)
  | none, none => (0x2001, 0, s)
  | none, some n =>
    match completeSnap s c.ns c.d7 with
    | none => (0x1002, 3, s)
    | some x =>
      if x.exposed.isSome then (0x1009, 0, s)
      else
        match pickId (usedNsids s) 16384 s with
        | none => (0x4003, 0, s)
        | some id =>
          let e : Ns := { id := id, tenant := n.tenant, size := n.size, mode := n.mode, owner := s.glb.headId, keySlot := n.keySlot,
                          exposed := some (c.ns, c.d7) }
          let t := modSnap c.ns c.d7 (fun y => { y with exposed := some id }) (tick s)
          (0, id, { t with hqe := { t.hqe with nss := t.hqe.nss ++ [e] } })

def snapExposeDo : Waiter → State → State := snapNow fun c s => plainDone (snapExposeCmd c s)

def execSnapExpose (c : HostCmd) (s : State) : Res := run (.snapExpose c) (snapRow snapExposeDo c) s

/-! ### Sessions (R320 to R322, R328, R329) -/

/-- The identifiers of a domain slot as REPL PAIR compares them: ID_A, ID_SEAL, ID_DATA. -/
def domainIds (k : Slot) : List Word64 := [k.idA, k.idSeal, k.idData]

/-- The keys of both sides agree (R322). `remote`: the source's three domain identifiers, then those of its DATA slots. -/
def keysAgree (s : State) (n : Ns) (remote : List Word64) (remoteSealed : Bool) : Bool :=
  let d := domainOf s n.tenant
  domainIds (slotOf s d) == remote.take 3
    && (match n.keySlot with
      | some k => k == d || decide ((slotOf s k).idA ∈ remote.drop 3)
      | none => true)
    && (remote.drop 3).all (fun r => s.sec.slots.any fun p => p.2.type == typeData && p.2.state == .active && p.2.idA == r)
    && bitOf n.mode.toNat 6 == remoteSealed

/-- A namespace that holds nothing. -/
def nsEmpty (s : State) (n : Nat) : Bool :=
  !(s.med.maps.any fun m => m.nsid == n && m.chunkA != 0) && !(s.ing.staging.any fun e => e.nsid == n)
    && !(s.ing.runs.any fun r => r.nsid == n) && snapCount s n == 0

/-- A valid pairing block: SESSION not 0 and not in use here, zeros at the end; room for the session. -/
def pairingOk (s : State) (b : Bytes) : Bool :=
  numAt b 0 8 != 0 && (bytesAt b 0x2A 22).all (· == 0) && decide (s.snp.sessions.length < 256)
    && !(s.snp.sessions.any fun x => x.session.toNat == numAt b 0 8)

def newSess (n : Nat) (r : ReplRole) (b : Bytes) : Sess :=
  { nsid := n, role := r, st := .idle, session := BitVec.ofNat 64 (numAt b 0 8), pairing := bytesAt b 8 48, epoch := 0, baseSeq := 0,
    sendSeq := 0, nextBatch := 0, nextLba := 0, bytes := 0, batches := [], walked := false, ended := false }

/-- A session is made; the namespace of a target turns read-only (R321). -/
def addSess (x : Sess) (s : State) : State :=
  let t := { s with snp := { s.snp with sessions := s.snp.sessions ++ [x] } }
  if x.role == .source then t
  else { t with hqe := { t.hqe with nss := modFirst (fun n => n.id == x.nsid) (fun n => { n with target := true }) t.hqe.nss } }

def replPairCmd (ids : List Word64) (sealed_ : Bool) (c : HostCmd) (s : State) : AdminDone :=
  match nsStatus s c.ns, nsOf s c.ns with
  | some st, _ => (st, 0, s)
  | none, none => (0x2001, 0, s)
  | none, some n =>
    if (sessOf s c.ns).isSome then (0x1009, 0, s)
    else if !(c.d7 == 1 || c.d7 == 2) || !pairingOk s c.buf then (0x1002, 7, s)
    else if c.d7 == 1 then (0, 0, addSess (newSess c.ns .source c.buf) s)
    else if !nsEmpty s c.ns then (0x1002, 5, s)
    else if !keysAgree s n ids sealed_ then (0x1002, 4, s)
    else (0, 0, addSess (newSess c.ns .target c.buf) s)

/-- INGEST (R329): a new, empty namespace becomes the target of a KL5200 source. -/
def ingestCmd (c : HostCmd) (s : State) : AdminDone :=
  match nsStatus s c.ns with
  | some st => (st, 0, s)
  | none =>
    if (sessOf s c.ns).isSome then (0x1009, 0, s)
    else if !pairingOk s c.buf then (0x1002, 7, s)
    else if !nsEmpty s c.ns then (0x1002, 5, s)
    else (0, 0, addSess (newSess c.ns .ingest c.buf) s)

/-- A batch that is not committed is discarded, with the counts it raised and the Bales it was storing (R328). -/
def discardBatch (b : Batch) (s : State) : State :=
  let nos := b.held.map (·.2)
  let t := dropBatchRefs b s
  { t with ing := { t.ing with chunks := t.ing.chunks.filter fun c => !(c.run == 0 && decide (c.no ∈ nos)) } }

def discardBatches (n : Nat) (s : State) : State :=
  match sessOf s n with
  | none => s
  | some x =>
    modSess n (fun y => { y with batches := [], walked := false, ended := false })
      (if x.role == .source then s else forEach x.batches discardBatch s)

/-- A session is suspended (R328). -/
def suspendSess (n : Nat) (s : State) : State :=
  discardBatches n (modSess n (fun x => { x with st := if x.st == .sending then .suspended else x.st }) s)

/-- A session ends (R321): a target turns writable; a source's base is a snapshot like any other again (DESIGN CHOICE). -/
def endSess (n : Nat) (s : State) : State :=
  let t := discardBatches n s
  { t with
    snp := { t.snp with
      sessions := t.snp.sessions.filter (fun x => x.nsid != n),
      snaps := modAll (fun x : Snap => x.nsid == n) (fun x => { x with base := false }) t.snp.snaps },
    hqe := { t.hqe with nss := modFirst (fun y => y.id == n) (fun y => { y with target := false }) t.hqe.nss } }

/-- REPL STOP: on a namespace that is not a source in a session it is refused with detail 6; on the target side it ends the
session as R321 gives. -/
def replStopCmd (c : HostCmd) (s : State) : AdminDone :=
  match nsStatus s c.ns with
  | some st => (st, 0, s)
  | none => if (sessOf s c.ns).isNone then (0x1002, 6, s) else (0, 0, endSess c.ns s)

def replStopDo : Waiter → State → State := snapNow fun c s => plainDone (replStopCmd c s)

def execReplStop (c : HostCmd) (s : State) : Res := run (.replStop c) (snapRow replStopDo c) s

def replStatusCmd (c : HostCmd) (s : State) : SnapDone :=
  match nsStatus s c.ns with
  | some st => (st, 0, [], s)
  | none => (0, 0, replBytes (sessOf s c.ns), s)

def execReplStatus (c : HostCmd) (s : State) : Res := run (.replStatus c) (snapRow (snapNow replStatusCmd) c) s

end Sys2Proof.Machine
end

