-- ==== Sys2Proof/Machine/Rdma.lean ====
section
/-! DEFINITION. The RDMA engine: RC connections and their checks (R346 to R354), Caravans (R355 to R357), congestion control
(R358), federation paths (R359 to R361), relays between chips and federated tenants (R362 to R365). -/

namespace Sys2Proof.Machine

/-! ### Wire forms -/

/-- The MAC address of a port (R347). -/
def portMac (a p : Nat) : Bytes := [0x02, 0x96, 0x40, BitVec.ofNat 8 a, 0, BitVec.ofNat 8 p]

/-- The GID of a port (R347). -/
def portGid (fed : Bytes) (a p : Nat) : Bytes :=
  [0xFD] ++ padTo 5 fed ++ [0x96, 0x40] ++ zeros 6 ++ [BitVec.ofNat 8 a, BitVec.ofNat 8 p]

/-- The UDP source port of a QP (R346). -/
def udpSource (qpn : Nat) : Nat := 0xC000 + qpn % 16384

/-- The tenant extension header (R348). -/
def tehBytes (src dst : Nat) (epoch target : Word16) (ts echo : Word32) : Bytes :=
  beBytes 2 (0x2000 + src) ++ beBytes 2 dst ++ beBytes 2 epoch.toNat ++ beBytes 2 target.toNat ++ beBytes 4 ts.toNat
    ++ beBytes 4 echo.toNat

def federationKey : Nat := 0x1FF1
def replicationKey : Nat := 0x1FF2
def deviceTenant : Nat := 0x1000

/-- Can the vault make and check tags under a device slot? -/
def canTag (s : State) (slot : Nat) : Bool := (slotOf s slot).state == .active && !s.sec.vault.out

/-- A body with its tag under a device slot. -/
def tagged (s : State) (slot : Nat) (b : Bytes) : Bytes := b ++ cmac (slotOf s slot).material b

/-- ISOLATED (R361). -/
def isolated (s : State) : Bool := s.rdm.fedState == 2

/-! ### Connections and regions -/

def rcOf (s : State) (n : Nat) : Option RcQp := s.rdm.qps.find? fun q => q.qpn == n

def modRc (n : Nat) (f : RcQp → RcQp) (s : State) : State :=
  { s with rdm := { s.rdm with qps := modFirst (fun q => q.qpn == n) f s.rdm.qps } }

/-- A ready connection. -/
def readyRc (s : State) (n : Nat) : Option RcQp := (rcOf s n).filter fun q => q.st == .ready

/-- A check of a buffer access: a valid region of the protection domain that holds the range and allows the access (R350). -/
def regionOk (s : State) (pd addr len : Nat) (p : Region → Bool) : Bool :=
  !decide (pd ∈ s.rdm.pdsGone)
    && s.rdm.regions.any fun r => r.valid && r.pd == pd && p r && decide (r.base ≤ addr) && decide (addr + len ≤ r.base + r.len)

/-- The protection domain of a tenant: one for each context and one for device traffic. -/
def pdOf (tenant : Nat) : Nat := tenant

/-- Where the firmware keeps a connection's buffers: 1 GiB from an open base (DESIGN CHOICE). -/
def bufBase (qpn : Nat) : Nat := Config.firmwareField 350 qpn

/-- The receives that a connection starts with: an open number of buffers of the longest message (DESIGN CHOICE). -/
def firstReceives (qpn : Nat) : List (Nat × Nat × Option Nat) :=
  (List.range (Config.firmwareField 351 qpn % 1024)).map fun i => (bufBase qpn + 131072 * i, 131072, none)

/-- The connection has a region, open for atomics or not, and its receives are posted. -/
def equip (qpn : Nat) (s : State) : State :=
  match rcOf s qpn with
  | none => s
  | some q =>
    let r : Region := ⟨qpn, q.pd, bufBase qpn, 2 ^ 30, true, true, Config.firmwareField 352 qpn % 2 == 1, true⟩
    modRc qpn (fun x => { x with st := .ready, receives := firstReceives qpn })
      { s with rdm := { s.rdm with regions := s.rdm.regions.filter (fun x => x.id != qpn) ++ [r] } }

def rInit (s : State) : Nat := bitsOf s.rdm.ccCfg1.toNat 23 16 * 10 ^ 9
def rMin (s : State) : Nat := bitsOf s.rdm.ccCfg1.toNat 15 8 * 10 ^ 8
def lineRate : Nat := 400 * 10 ^ 9

/-- A connection as it is set up, of this head's tenant `t`. -/
def newRc (s : State) (qpn purpose t : Nat) (session : Word64) (addr port : Nat) : RcQp :=
  { qpn := qpn, st := .connecting, pd := pdOf t, tenant := t, remote := t, remoteQp := 0, epoch := 0, purpose := purpose,
    session := session, addr := addr, port := port, psn := 0, sendPsn := freePick (2 ^ 24) s, mtu := 4096, receives := [], got := 0,
    unacked := 0, rnr := 0, retries := 0, rate := rInit s, avg := 0, prevAvg := 0, updated := 0 }

def freeQpn (s : State) : Option Nat := lowestFree (s.rdm.qps.map (·.qpn)) 65536 0

/-- A connection goes with its region; its Caravans return to IDLE and are reported (R357). -/
def idleCaravans (qpn : Nat) (s : State) : State :=
  let l := s.rdm.caravans.filter fun c => c.trigger == qpn
  forEach l (fun c t => emit (.caravan c.id none) t)
    { s with rdm := { s.rdm with caravans := s.rdm.caravans.filter fun c => c.trigger != qpn } }

def removeRc (qpn : Nat) (s : State) : State :=
  let t := idleCaravans qpn s
  { t with rdm := { t.rdm with qps := t.rdm.qps.filter (fun q => q.qpn != qpn), regions := t.rdm.regions.filter (fun r => r.id != qpn),
                               inFlight := t.rdm.inFlight.filter (· != qpn) } }

/-- The session that a replication connection carries is suspended as it fails (R328). -/
def suspendOn (q : RcQp) (s : State) : State :=
  if q.purpose = 1 then s
  else match s.snp.sessions.find? fun x => x.session == q.session with
    | some x => suspendSess x.nsid s
    | none => s

/-- A QP enters the error state. -/
def qpError (qpn : Nat) (s : State) : State :=
  match rcOf s qpn with
  | none => s
  | some q =>
    suspendOn q (idleCaravans qpn (modRc qpn (fun x => { x with st := .error, receives := [], got := 0, unacked := 0 })
      { s with rdm := { s.rdm with inFlight := s.rdm.inFlight.filter (· != qpn) } }))

/-- A rule change completes once no access under the old rules is left (R353). -/
def settleRules (s : State) : State :=
  if s.rdm.inFlight.isEmpty then
    forEach s.rdm.changes (fun r t => emit (.ruleDone r) t) { s with rdm := { s.rdm with changes := [] } }
  else s

/-- NAK of a packet: cause 1 Invalid Request, 2 Remote Access Error; the QP enters the error state. -/
def nakError (q : RcQp) (psn cause : Nat) (s : State) : State :=
  settleRules (qpError q.qpn (emit (.ether q.port 2 q.remoteQp [psn, cause] []) s))

/-! ### Paths and what depends on them (R360, R365) -/

def modPath (a : Nat) (f : Path → Path) (s : State) : State := { s with rdm := { s.rdm with paths := tabMod {} a f s.rdm.paths } }

def noPath (s : State) (a : Nat) : Bool := (pathOf s a).state != 1

/-- A relay ends with a status. -/
def endRelay (r : Relay) (status : Word16) (s : State) : State :=
  finishCmd r.cmd status 0 0 { s with rdm := { s.rdm with relays := s.rdm.relays.filter fun x => x.id != r.id } }

/-- Relays to pairs of which both chips have lost every path complete with 0x6003 (R365). -/
def settleLost (s : State) : State :=
  forEach (s.rdm.relays.filter fun r => r.sent && noPath s r.target && noPath s (r.target ^^^ 1)) (fun r t => endRelay r 0x6003 t) s

/-- Federation connections move from a port that left the path set to another one (R360). -/
def movePort (a p : Nat) (s : State) : State :=
  match (pathOf s a).ports with
  | [] => s
  | n :: _ =>
    { s with rdm := { s.rdm with
      qps := modAll (fun q : RcQp => q.purpose == 1 && q.addr == a && q.port == p) (fun q => { q with port := n }) s.rdm.qps } }

/-- A port leaves the path set of an address. -/
def dropPath (a p : Nat) (s : State) : State :=
  let t := modPath a (fun x =>
    let l := x.ports.filter (· != p)
    { x with ports := l, state := if x.state = 1 ∧ l = [] then 0 else x.state }) s
  settleLost (movePort a p t)

/-- A QP fails for want of acknowledgements; the path that it used is removed (R351, R360). -/
def retriesOut (q : RcQp) (s : State) : State :=
  let t := settleRules (qpError q.qpn s)
  if q.purpose = 1 then dropPath q.addr q.port t else t

/-! ### Role epochs (R341) -/

/-- Adoption of the peer's epoch, by whatever way it was learned, while control pair 1 runs (R19). -/
def peerEpochSeen (e : Word16) (s : State) : State :=
  if pair1Up s && genHigher e s.peer.epoch then
    let t := if s.peer.role = .service then s else superseded s
    tellEpoch (noteAlive { t with peer := { t.peer with epoch := e } })
  else s

/-- Relays on their way to a pair under an older epoch complete with 0x6001 (R365). -/
def settleStale (a : Nat) (e : Word16) (s : State) : State :=
  forEach (s.rdm.relays.filter fun r => r.sent && r.target / 2 == a / 2 && genHigher e r.epoch) (fun r t => endRelay r 0x6001 t) s

/-- A newer epoch of another pair, from a chip of it that serves: the other chip is superseded, and relays go to this one until
the other is heard under the new epoch (R16). -/
def supersedePath (a : Nat) (e : Word16) (s : State) : State :=
  if genHigher e (pathOf s a).epoch && (pathOf s a).epoch != 0 && (pathOf s a).role != 2 then
    modPath (a ^^^ 1) (fun x => { x with role := 2 }) s
  else s

/-- An epoch of another pair is adopted when it is newer, or the first that is learned (DEDUCED). -/
def learnEpoch (a : Nat) (e : Word16) (s : State) : State :=
  if s.mch.addrValid && a / 2 == s.mch.address.toNat / 2 then
    (if a = s.mch.address.toNat then s else peerEpochSeen e s)
  else if (pathOf s a).epoch == 0 || genHigher e (pathOf s a).epoch then
    settleStale a e (modPath (a ^^^ 1) (fun x => { x with epoch := e }) (modPath a (fun x => { x with epoch := e }) (supersedePath a e s)))
  else s

/-- The address of the chip that serves this pair's namespaces (R363, R364). -/
def servingAddr (s : State) : Nat :=
  if s.peer.role = .service then s.mch.address.toNat ^^^ 1 else s.mch.address.toNat

/-- REFUSE with reason 1 (R364). -/
def refuseStale (relayId dst : Nat) (s : State) : State :=
  emit (.repl 0x43 (BitVec.ofNat 64 relayId) [dst, 1, s.peer.epoch.toNat, servingAddr s] [])
    { s with rdm := { s.rdm with relayStale := s.rdm.relayStale + 1 } }

/-- Is a federation message's epoch older than the one held for its sender's pair? -/
def staleFrom (s : State) (src : Nat) (e : Word16) : Bool :=
  let held := if s.mch.addrValid && src / 2 == s.mch.address.toNat / 2 then s.peer.epoch else (pathOf s src).epoch
  genHigher held e

/-! ### Packets that arrive (R346 to R352) -/

def countDiscard (s : State) : State := { s with rdm := { s.rdm with rxDiscard := s.rdm.rxDiscard + 1 } }

/-- R349: a packet of another tenant than the connection's. -/
def tenantReject (q : RcQp) (p : Packet) (s : State) : State :=
  nakError q p.psn 2 (raise .rdm .fault 349 0 [q.qpn] { s with rdm := { s.rdm with tenantRej := s.rdm.tenantRej + 1 } })

/-- The checks that every packet meets: ISOLATED and a dead link, the subset and TVer, the QP, its tenants. -/
def packetRow (p : Packet) (f : RcQp → State → State) (s : State) : State :=
  if isolated s || !decide (p.port.val ∈ s.rdm.links) then s
  else if !p.supported || !p.tver then countDiscard s
  else
    match readyRc s p.qpn with
    | none => s
    | some q => if p.dstTenant != q.tenant || p.srcTenant != q.remote then tenantReject q p s else f q s

/-- PSN a lies before b. -/
def psnBefore (a b : Nat) : Bool := decide (1 ≤ (b + 2 ^ 24 - a) % 2 ^ 24) && decide ((b + 2 ^ 24 - a) % 2 ^ 24 < 2 ^ 23)

def sendAck (q : RcQp) (p : Packet) (s : State) : State := emit (.ether q.port 1 q.remoteQp [p.psn, p.ts.toNat] []) s

/-- The firmware has handled a message: whether it posts the buffer again now is open. -/
def repost (qpn : Nat) (r : Nat × Nat × Option Nat) (s : State) : State :=
  tick (if freePick 2 s = 1 then modRc qpn (fun q => { q with receives := q.receives ++ [r] }) s else s)

/-- A packet's data goes into the receive buffer; the last packet completes the receive. -/
def deliverSend (q : RcQp) (r : Nat × Nat × Option Nat) (p : Packet) (s : State) : State :=
  let t := sendAck q p { s with dram := cellsWrite dramDefault p.bytes (r.1 + q.got) s.dram }
  if p.lastOfMsg then
    let u := modRc q.qpn (fun x => { x with psn := (x.psn + 1) % 2 ^ 24, got := 0, receives := x.receives.tail })
      { t with rdm := { t.rdm with inFlight := t.rdm.inFlight.filter (· != q.qpn) } }
    settleRules (repost q.qpn r u)
  else modRc q.qpn (fun x => { x with psn := (x.psn + 1) % 2 ^ 24, got := x.got + p.bytes.length }) t

/-- A SEND in sequence: an RNR NAK with no receive posted (R351), a refusal where the buffer fails its check (R350). -/
def sendArrives (p : Packet) (q : RcQp) (s : State) : State :=
  if p.psn = q.psn then
    match q.receives with
    | [] => emit (.ether q.port 3 q.remoteQp [p.psn, 1] []) s
    | r :: _ =>
      if r.2.1 < q.got + p.bytes.length then nakError q p.psn 2 s
      else if !decide (q.qpn ∈ s.rdm.inFlight) && !regionOk s q.pd (r.1 + q.got) p.bytes.length (·.write) then nakError q p.psn 2 s
      else deliverSend q r p s
  else if psnBefore p.psn q.psn then sendAck q p s
  else emit (.ether q.port 2 q.remoteQp [q.psn, 0] []) s

/-- ROCE_SEND_RECEIVED (R348 to R351); the PSN rules are those of RC (PRESUMED). -/
def execRoceSendReceived (p : Packet) (s : State) : Res := run (.roceSendReceived p) (packetRow p (sendArrives p)) s

/-- ROCE_READ_WRITE_REQUEST (R351). -/
def execRoceReadWriteRequest (p : Packet) (s : State) : Res :=
  run (.roceReadWriteRequest p) (packetRow p fun q t => nakError q p.psn 1 t) s

/-- The service states in which atomics are served (R352), until a rule change withdraws them. -/
def atomicsServed (s : State) : Bool :=
  !s.rdm.atomicsOff && (s.glb.service == .startUp || s.glb.service == .test || s.glb.service == .recovery)

def dramWord (s : State) (a : Nat) : Word64 := BitVec.ofNat 64 (leNat (cellsRead dramDefault s.dram a 8))

/-- A remote atomic on a word (R352). -/
def atomicArrives (p : Packet) (region addr : Nat) (cas : Bool) (operand cmp : Word64) (q : RcQp) (s : State) : State :=
  if !atomicsServed s then
    nakError q p.psn 1 (raiseIf (s.glb.service == .normal) .rdm .fault 352 0 [q.qpn] s)
  else if q.pd != deviceTenant || addr % 8 != 0 then nakError q p.psn 1 s
  else if !regionOk s q.pd addr 8 (fun r => r.id == region && r.atomic) then nakError q p.psn 2 s
  else
    let old := dramWord s addr
    let new := if cas then (if old = cmp then operand else old) else old + operand
    emit (.ether q.port 7 q.remoteQp [p.psn, p.ts.toNat, old.toNat] [])
      (modRc q.qpn (fun x => { x with psn := (p.psn + 1) % 2 ^ 24 })
        { s with dram := cellsWrite dramDefault (leBytes 8 new.toNat) addr s.dram })

/-- ATOMIC_REQUEST (R352). In ROM-SERVICE the opcode is outside the subset of R346. -/
def execAtomicRequest (p : Packet) (region addr : Nat) (compareSwap : Bool) (operand compare : Word64) (s : State) : Res :=
  run (.atomicRequest p region addr compareSwap operand compare)
    (fun t => if t.glb.service = .romService then onlyIf (!isolated t) countDiscard t
      else packetRow p (atomicArrives p region addr compareSwap operand compare) t) s

/-! ### Acknowledgements, retries and the rate (R351, R358) -/

/-- A quotient, exact where it is whole; the rounding of any other is open. -/
def quotient (n d : Nat) : Nat := if n % d = 0 then n / d else Config.rateRound n d

def clampRate (s : State) (r : Nat) : Nat := min lineRate (max (rMin s) r)

/-- The rate after one update with a sample in ns (R358); `a` is the average after the sample, `b` the one before. -/
def nextRate (s : State) (r sample a b : Nat) : Nat :=
  let c := s.rdm.ccCfg0.toNat
  let low := 1000 * bitsOf c 31 24
  let high := 1000 * bitsOf c 23 16
  let up := r + 10 ^ 8 * bitsOf c 15 8
  let beta := bitsOf c 7 0
  let tmin := 1000 * bitsOf s.rdm.ccCfg1.toNat 31 24
  clampRate s
    (if sample < low then up
    else if high < sample then quotient (r * (256 * sample - beta * (sample - high))) (256 * sample)
    else if a ≤ b then up
    else if tmin ≤ a - b then quotient (r * (256 - beta)) 256
    else quotient (r * (256 * tmin - beta * (a - b))) (256 * tmin))

/-- The sample enters the average; the rate is updated for a packet sent after the last update. -/
def takeSample (psn sample : Nat) (s : State) (q : RcQp) : RcQp :=
  if 10 ^ 7 < sample then q
  else
    let a := quotient (7 * q.avg + sample) 8
    if psnBefore psn q.updated then { q with avg := a }
    else { q with avg := a, prevAvg := a, rate := nextRate s q.rate sample a q.prevAvg, updated := q.sendPsn }

/-- Packets up to `psn` are acknowledged. -/
def takeAck (psn : Nat) (q : RcQp) : RcQp :=
  let left := (q.sendPsn + 2 ^ 24 - 1 - psn) % 2 ^ 24
  if left < q.unacked then { q with unacked := left, rnr := 0, retries := 0 } else q

/-- ROCE_ACK_RECEIVED (R358). -/
def execRoceAckReceived (qpn psn sampleNs : Nat) (tsEcho : Word32) (s : State) : Res :=
  run (.roceAckReceived qpn psn sampleNs tsEcho)
    (fun t => if isolated t || (readyRc t qpn).isNone then t else modRc qpn (fun q => takeSample psn sampleNs t (takeAck psn q)) t) s

/-- RNR_NAK_RECEIVED (R351): up to 7 retries. -/
def rnrEffect (qpn : Nat) (s : State) : State :=
  match readyRc s qpn with
  | none => s
  | some q =>
    if isolated s then s
    else if q.rnr < 7 then emit (.ether q.port 0 q.remoteQp [] []) (modRc qpn (fun x => { x with rnr := x.rnr + 1 }) s)
    else retriesOut q s

def execRnrNakReceived (qpn : Nat) (s : State) : Res := run (.rnrNakReceived qpn) (rnrEffect qpn) s

/-- ACK_TIMEOUT (R351): up to 7 retries. -/
def ackTimeoutEffect (qpn : Nat) (s : State) : State :=
  match readyRc s qpn with
  | none => s
  | some q =>
    if q.retries < 7 then emit (.ether q.port 0 q.remoteQp [] []) (modRc qpn (fun x => { x with retries := x.retries + 1 }) s)
    else retriesOut q s

def execAckTimeout (qpn : Nat) (s : State) : Res := run (.ackTimeout qpn) (ackTimeoutEffect qpn) s

/-- RATE_IDLE_RESET (R358). -/
def execRateIdleReset (qpn : Nat) (s : State) : Res := run (.rateIdleReset qpn) (fun t => modRc qpn (fun q => { q with rate := rInit t }) t) s

/-! ### Rule changes (R353) -/

/-- The old entry is marked, so that every check from now on fails. -/
def applyRule (r : RdmaRule) (s : State) : State :=
  match r with
  | .invalidateRegion n => { s with rdm := { s.rdm with regions := modFirst (fun x : Region => x.id == n) (fun x => { x with valid := false }) s.rdm.regions } }
  | .permissions n rd wr at_ =>
    { s with rdm := { s.rdm with
      regions := modFirst (fun x : Region => x.id == n) (fun x => { x with read := rd, write := wr, atomic := at_ }) s.rdm.regions } }
  | .deleteDomain pd => { s with rdm := { s.rdm with pdsGone := insertNat pd s.rdm.pdsGone } }
  | .enterNormal => { s with rdm := { s.rdm with atomicsOff := true } }

/-- The region that the next packet of an arriving message goes to. -/
def arrivesIn (s : State) (q : RcQp) (r : Region) : Bool :=
  match q.receives with
  | x :: _ => r.pd == q.pd && decide (r.base ≤ x.1) && decide (x.1 + x.2.1 ≤ r.base + r.len) && s.rdm.regions.any (· == r)
  | [] => false

/-- The messages in transit that passed their check under the rule that changes. -/
def underOldRule (s : State) (r : RdmaRule) : List Nat :=
  let busy := s.rdm.qps.filter fun q => q.st == .ready && decide (0 < q.got)
  let hit := match r with
    | .invalidateRegion n => busy.filter fun q => s.rdm.regions.any fun x => x.id == n && arrivesIn s q x
    | .permissions n _ w _ => busy.filter fun q => !w && s.rdm.regions.any fun x => x.id == n && arrivesIn s q x
    | .deleteDomain pd => busy.filter fun q => q.pd == pd
    | .enterNormal => []
  hit.map (·.qpn)

/-- RDMA_RULE_CHANGE (R353). -/
def ruleChangeEffect (r : RdmaRule) (s : State) : State :=
  let old := (underOldRule s r).foldl (fun l n => insertNat n l) s.rdm.inFlight
  let t := applyRule r s
  settleRules { t with rdm := { t.rdm with changes := t.rdm.changes ++ [r], inFlight := old } }

def execRdmaRuleChange (r : RdmaRule) (s : State) : Res := run (.rdmaRuleChange r) (ruleChangeEffect r) s

/-- RULE_CHANGE_TIMEOUT (R353): what is unfinished is abandoned, and the change completes. -/
def ruleTimeoutEffect (s : State) : State :=
  settleRules (forEach s.rdm.inFlight (fun n t => match rcOf t n with
    | some q => qpError n (emit (.ether q.port 2 q.remoteQp [q.psn, 2] []) t)
    | none => { t with rdm := { t.rdm with inFlight := t.rdm.inFlight.filter (· != n) } }) s)

def execRuleChangeTimeout (s : State) : Res := run .ruleChangeTimeout ruleTimeoutEffect s

/-! ### Connection set-up (R354) -/

def connKey (purpose : Nat) : Nat := if purpose = 1 then federationKey else replicationKey

/-- The body of a CONNECT, ACCEPT or REJECT. -/
def connBody (type : Nat) (q : RcQp) (s : State) : Bytes :=
  [BitVec.ofNat 8 type, BitVec.ofNat 8 q.purpose] ++ beBytes 2 s.peer.epoch.toNat ++ beBytes 4 q.qpn ++ beBytes 4 q.sendPsn
    ++ beBytes 2 q.mtu ++ beBytes 2 q.tenant ++ beBytes 8 q.session.toNat ++ padTo 16 s.til.arrayId ++ beBytes 8 s.glb.unitSerial.toNat

/-- A datagram goes out, where the key is there to tag it. -/
def sendConn (type : Nat) (q : RcQp) (s : State) : State :=
  if canTag s (connKey q.purpose) && !isolated s then
    emit (.ether q.port 6 q.addr [type] (tagged s (connKey q.purpose) (connBody type q s))) s
  else s

/-- A connection of this chip's own making. -/
def openRc (purpose t : Nat) (session : Word64) (addr port : Nat) (s : State) : State :=
  match freeQpn s with
  | none => s
  | some n =>
    let q := newRc s n purpose t session addr port
    sendConn 1 q (tick { s with rdm := { s.rdm with qps := s.rdm.qps ++ [q] } })

/-- The four federation connections to a chip, over the ports of its path set; the chip of the lower address makes them
(DESIGN CHOICE). -/
def fedConnect (a : Nat) (s : State) : State :=
  let ports := (pathOf s a).ports
  let failed := (s.rdm.qps.filter fun q => q.purpose == 1 && q.addr == a && q.st == .error).map (·.qpn)
  let t := forEach failed removeRc s
  let have_ := (t.rdm.qps.filter fun q => q.purpose == 1 && q.addr == a).length
  if t.mch.addrValid && decide (t.mch.address.toNat < a) && !ports.isEmpty then
    forEach (List.range (4 - have_)) (fun i u => openRc 1 deviceTenant 0 a (ports.getD ((have_ + i) % ports.length) 0) u) t
  else t

def mtuOk (n : Nat) : Bool := n == 1024 || n == 2048 || n == 4096

/-- May a connection be made at another chip's request? -/
def connectOk (s : State) (m : ConnMsg) : Bool :=
  mtuOk m.mtu && decide (m.qpn < 2 ^ 24) && (m.tenant == deviceTenant)
    && (if m.purpose = 1 then s.rdm.fedState == 1 && (tabGet 0 m.srcAddr s.mch.table) == m.serial && m.session == 0
      else s.snp.sessions.any fun x => x.session == m.session && (if m.purpose = 2 then x.role == .target else x.role == .ingest))

/-- Does a datagram reach the connection logic at all? ISOLATED hears nothing; a bad tag is counted. -/
def connRow (m : ConnMsg) (f : State → State) (s : State) : State :=
  if isolated s || !decide (m.port.val ∈ s.rdm.links) then s
  else if !m.tagGood || !canTag s (connKey m.purpose.toNat) then { s with rdm := { s.rdm with annBad := s.rdm.annBad + 1 } }
  else if m.purpose = 1 && staleFrom s m.srcAddr m.epoch then refuseStale 0 m.srcAddr s
  else f (if m.purpose = 1 then learnEpoch m.srcAddr m.epoch s else s)

/-- The connection that a repeated CONNECT made. -/
def sameConnect (m : ConnMsg) (q : RcQp) : Bool :=
  q.purpose == m.purpose.toNat && q.addr == m.srcAddr && q.remoteQp == m.qpn && q.session == m.session && q.st == .ready

/-- CONNECT: the connection is made and accepted, or refused. An older connection of the same session goes. -/
def connectEffect (m : ConnMsg) (s : State) : State :=
  match s.rdm.qps.find? (sameConnect m) with
  | some q => sendConn 2 q s
  | none =>
    let old := if m.purpose = 1 then [] else (s.rdm.qps.filter fun q => q.purpose != 1 && q.session == m.session).map (·.qpn)
    match connectOk s m, freeQpn s with
    | true, some n =>
      let t := forEach old removeRc s
      let q : RcQp := { newRc t n m.purpose.toNat m.tenant m.session m.srcAddr m.port.val with
        remote := m.tenant, remoteQp := m.qpn, epoch := m.epoch, psn := m.psn % 2 ^ 24, mtu := m.mtu }
      sendConn 2 q (equip n (tick { t with rdm := { t.rdm with qps := t.rdm.qps ++ [q] } }))
    | _, _ =>
      let q := { newRc s 0 m.purpose.toNat m.tenant m.session m.srcAddr m.port.val with remoteQp := m.qpn }
      sendConn 3 q (tick s)

def execConnect (m : ConnMsg) (s : State) : Res := run (.connect m) (connRow m (connectEffect m)) s

/-- The connection that an ACCEPT or REJECT answers. -/
def asked (s : State) (m : ConnMsg) : Option RcQp :=
  s.rdm.qps.find? fun q => q.st == .connecting && q.purpose == m.purpose.toNat && (q.addr == m.srcAddr || q.purpose != 1) && q.session == m.session

/-- ACCEPT completes the connection. -/
def acceptEffect (m : ConnMsg) (s : State) : State :=
  match asked s m with
  | none => s
  | some q =>
    equip q.qpn (modRc q.qpn (fun x => { x with
      remote := m.tenant, remoteQp := m.qpn, epoch := m.epoch, psn := m.psn % 2 ^ 24, mtu := if mtuOk m.mtu then min x.mtu m.mtu else x.mtu }) s)

/-- REJECT: no connection; its session stays SUSPENDED (R354). -/
def rejectEffect (m : ConnMsg) (s : State) : State :=
  match asked s m with
  | none => s
  | some q => suspendOn q (removeRc q.qpn s)

def execReject (m : ConnMsg) (s : State) : Res := run (.reject m) (connRow m (rejectEffect m)) s

/-! ### Caravans (R355 to R357) -/

def caravanOf (s : State) (n : Nat) : Option Caravan := s.rdm.caravans.find? fun c => c.id == n

def modCaravan (n : Nat) (f : Caravan → Caravan) (s : State) : State :=
  { s with rdm := { s.rdm with caravans := modFirst (fun c => c.id == n) f s.rdm.caravans } }

def modElement (n i : Nat) (f : Element → Element) (s : State) : State :=
  modCaravan n (fun c => { c with elements := match c.elements[i]? with
    | some e => c.elements.set i (f e)
    | none => c.elements }) s

def dropCaravan (n : Nat) (s : State) : State := { s with rdm := { s.rdm with caravans := s.rdm.caravans.filter fun c => c.id != n } }

/-- An armed Caravan, under the limits of R355. -/
def armCaravan (c : Caravan) (s : State) : State :=
  if decide (s.rdm.caravans.length < 16384) && decide (c.elements.length ≤ 512)
      && decide (sumBy (fun x => x.elements.length) s.rdm.caravans + c.elements.length ≤ 1048576)
  then { s with rdm := { s.rdm with caravans := s.rdm.caravans ++ [c] } } else s

/-- Buffers packed into messages: a buffer is never split, and no message is longer than 131,072 bytes. -/
def packBuffers : List (Nat × Nat) → Nat → List (Nat × Nat) → List (List (Nat × Nat))
  | [], _, cur => if cur.isEmpty then [] else [cur]
  | b :: r, used, cur =>
    if cur.isEmpty || used + b.2 ≤ 131072 then packBuffers r (used + b.2) (cur ++ [b])
    else cur :: packBuffers r (32 + b.2) [b]

/-- A message header with COUNT, LENGTH, FLAGS bit 0 and CRC filled in (R355, the replication header of R323). -/
def fillHeader (t : Bytes) (count : Nat) (last : Bool) (body : Bytes) : Bytes :=
  let h := bytesAt t 0 4 ++ beBytes 4 (32 + body.length) ++ bytesAt t 8 16 ++ beBytes 2 count
    ++ beBytes 2 ((numAt (bytesAt t 0x1A 2).reverse 0 2) / 2 * 2 + if last then 1 else 0)
  h ++ beBytes 4 (crc32c (h ++ zeros 4 ++ body)) ++ body

/-- Bytes of a message over a connection. -/
def sendBytes (qpn : Nat) (b : Bytes) (s : State) : State :=
  match readyRc s qpn with
  | some q => emit (.ether q.port 8 q.remoteQp [udpSource qpn] b) (sentOn (fun x => x.qpn == qpn) b.length s)
  | none => s

/-- Can a send of these buffers be issued? The connection is ready, and each buffer passes its check (R350). -/
def sendable (s : State) (qpn : Nat) (l : List (Nat × Nat)) : Bool :=
  match readyRc s qpn with
  | some q => l.all fun b => regionOk s q.pd b.1 b.2 (·.read)
  | none => false

/-- The buffers that a GATHER SEND takes: those of the elements that ran. -/
def gatherOf (c : Caravan) (e : Element) : List (Nat × Nat) :=
  (((List.range c.elements.length).filter fun i => decide (e.first ≤ i) && decide (i ≤ e.last)).filterMap fun i => c.elements[i]?).filterMap
    fun x => if x.ran then some (x.addr, x.len) else none

/-- The messages of a GATHER SEND. -/
def sendGather (c : Caravan) (e : Element) (s : State) : State :=
  let ms := packBuffers (gatherOf c e) 32 []
  forEach (List.range ms.length) (fun i t =>
    let m := ms.getD i []
    sendBytes e.target (fillHeader e.template m.length (i + 1 == ms.length) (m.flatMap fun b => cellsRead dramDefault t.dram b.1 b.2)) t) s

/-- Is every element of a range done? -/
def rangeDone (c : Caravan) (e : Element) : Bool :=
  (List.range c.elements.length).all fun i => !(decide (e.first ≤ i) && decide (i ≤ e.last)) || (match c.elements[i]? with
    | some x => x.done
    | none => true)

/-- What a starting element does at once: a send goes out when its buffers pass. -/
def startElement (c : Caravan) (i : Nat) (e : Element) (s : State) : State :=
  let t := modElement c.id i (fun x => { x with started := true, ran := true }) s
  if e.kind = 1 then
    (if sendable s e.target [(e.addr, e.len)] then sendBytes e.target (cellsRead dramDefault s.dram e.addr e.len) t else t)
  else if e.kind = 6 then (if sendable s e.target (gatherOf c e) then sendGather c e t else t)
  else t

/-- One element in its turn (R356): skipped when gated out, started in list order, held by FENCE; a GATHER SEND acts once its
range is done. The flag says that an earlier element holds the rest back. -/
def visit (id : Nat) (a : Bool × State) (i : Nat) : Bool × State :=
  match caravanOf a.2 id with
  | none => a
  | some c =>
    match c.elements[i]? with
    | none => a
    | some e =>
      if a.1 || e.done || e.ran then a
      else if e.gated && !decide (e.gateBit ∈ c.gate) then (false, modElement id i (fun x => { x with started := true, done := true }) a.2)
      else if e.fence && !((c.elements.take i).all (·.done)) then (true, a.2)
      else if e.kind = 6 then
        (if !rangeDone c e then (false, modElement id i (fun x => { x with started := true }) a.2)
        else if (gatherOf c e).isEmpty then (false, modElement id i (fun x => { x with started := true, done := true }) a.2)
        else (false, startElement c i e a.2))
      else (false, startElement c i e a.2)

/-- Elements that can start do; a Caravan of which every element is done ends, and is reported. -/
def stepCaravan (id : Nat) (s : State) : State :=
  match caravanOf s id with
  | none => s
  | some c =>
    let t := ((List.range c.elements.length).foldl (visit id) (false, s)).2
    match caravanOf t id with
    | some d => if d.elements.all (·.done) then emit (.caravan id none) (dropCaravan id t) else t
    | none => t

/-- A receive that names a Caravan completes without error (R356, R357). -/
def releaseCaravan (id qpn : Nat) (gate : List Nat) (s : State) : State :=
  match caravanOf s id with
  | some c =>
    if c.st = .armed ∧ c.trigger = qpn then
      stepCaravan id (modCaravan id (fun x => { x with st := .running, gate := gate })
        { s with rdm := { s.rdm with carRun := s.rdm.carRun + 1 } })
    else { s with rdm := { s.rdm with carMiss := s.rdm.carMiss + 1 } }
  | none => { s with rdm := { s.rdm with carMiss := s.rdm.carMiss + 1 } }

/-- CARAVAN_RELEASE (R356). -/
def execCaravanRelease (caravan qpn : Nat) (gate : List Nat) (error : Bool) (s : State) : Res :=
  run (.caravanRelease caravan qpn gate error) (fun t => if error then t else releaseCaravan caravan qpn gate t) s

/-- The stored object that a locator names (R287): its Waybill and granules. -/
def locatorOf (e : ChunkEnt) : Nat := e.seg * 2 ^ 32 + e.stripe * 2 ^ 16 + e.strip * 2 ^ 11 + e.gran * 2 ^ 4 + 1

def objectAt (s : State) (loc : Nat) : Bytes :=
  match s.med.chunks.find? fun e => locatorOf e == loc with
  | some e => padTo 128 e.waybill ++ padTo (512 * e.granules) e.stored
  | none => []

/-- What an element that ends has done: the data in its buffer, the receive posted. -/
def endElement (c : Caravan) (e : Element) (s : State) : State :=
  if e.kind = 2 then
    modRc c.trigger (fun q => { q with receives := q.receives ++ [(e.addr, e.len, if e.target < 16384 then some e.target else none)] }) s
  else if e.kind = 3 then { s with dram := cellsWrite dramDefault ((objectAt s e.addr2).take e.len) e.addr s.dram }
  else if e.kind = 4 then { s with dram := cellsWrite dramDefault (cellsRead dramDefault s.dram e.addr e.len) e.addr2 s.dram }
  else s

/-- Did the element's own check fail, so that it can only end in error? -/
def elementBad (s : State) (c : Caravan) (e : Element) : Bool :=
  (e.kind == 1 && !sendable s e.target [(e.addr, e.len)]) || (e.kind == 6 && !sendable s e.target (gatherOf c e))

/-- An element ends (R356, R357): a failure stops the Caravan, and the owner hears its index and cause. -/
def elementDone (id i : Nat) (failed : Option Nat) (s : State) : State :=
  match caravanOf s id with
  | none => s
  | some c =>
    match c.elements[i]? with
    | none => s
    | some e =>
      if !e.ran || e.done then s
      else if failed.isSome || elementBad s c e then emit (.caravan id (some (i, failed.getD 0))) (dropCaravan id s)
      else stepCaravan id (modElement id i (fun x => { x with done := true }) (endElement c e s))

/-- CARAVAN_CANCEL (R357): an ARMED Caravan returns to IDLE; one that runs goes on. -/
def cancelEffect (id : Nat) (s : State) : State :=
  match caravanOf s id with
  | some c => if c.st = .armed then emit (.caravanState id 0) (dropCaravan id s) else emit (.caravanState id 2) s
  | none => emit (.caravanState id 0) s

def execCaravanCancel (caravan : Nat) (s : State) : Res := run (.caravanCancel caravan) (cancelEffect caravan) s

/-! ### Announces and paths (R359 to R361) -/

/-- The 28 bytes of an announce before its tag. -/
def announceBody (s : State) (port : Nat) : Bytes :=
  beBytes 2 0x9640 ++ [1, BitVec.ofNat 8 port] ++ padTo 5 s.mch.fedId ++ [s.mch.address.setWidth 8, BitVec.ofNat 8 (roleCode s.peer.role),
    BitVec.ofNat 8 (serviceCode s.glb.service)] ++ beBytes 2 s.peer.epoch.toNat ++ [0, 0] ++ beBytes 4 s.rdm.round
    ++ beBytes 8 s.glb.unitSerial.toNat

/-- ANNOUNCE_TIMER (R359): one round on every port whose link is up. A chip without an address has nothing to announce. -/
def announceEffect (s : State) : State :=
  if s.rdm.fedState = 1 ∧ canTag s federationKey then
    let t := forEach s.rdm.links (fun p u => emit (.ether p 5 0 [] (tagged u federationKey (announceBody u p))) u) s
    { t with rdm := { t.rdm with round := (t.rdm.round + 1) % 2 ^ 32 } }
  else s

def execAnnounceTimer (s : State) : Res := run .announceTimer announceEffect s

/-- The chip stops taking part in the federation (R361). -/
def enterIsolated (s : State) : State :=
  let t := forEach (s.rdm.qps.map (·.qpn)) (fun n u => match rcOf u n with
    | some q => suspendOn q (removeRc n u)
    | none => u) { s with rdm := { s.rdm with fedState := 2 } }
  settleRules (forEach t.rdm.relays (fun r u => endRelay r 0x6003 u) t)

/-- An address is held twice: it is marked DUPLICATE, its paths go, and relays to it complete with 0x6003 (R361). -/
def markDuplicate (a : Nat) (s : State) : State :=
  let t := modPath a (fun x => { x with state := 2, ports := [] }) s
  forEach (t.rdm.relays.filter fun r => r.target == a) (fun r u => endRelay r 0x6003 u) t

/-- R361: a Critical event, the notice over the chain, and isolation where the chip itself is concerned. -/
def duplicateSeen (a : Nat) (x y : Word64) (s : State) : State :=
  let t := raise .rdm .critical 361 0 [a, x.toNat, y.toNat] s
  let t := markDuplicate a (chainSend 0x15 [a, x.toNat, y.toNat] t)
  if (t.mch.addrValid && a == t.mch.address.toNat) || x == t.glb.unitSerial || y == t.glb.unitSerial then enterIsolated t else t

/-- The path set after an announce: a port joins for a round that reaches it within 1 ms of its first arrival, and is left out
otherwise. -/
def pathHeard (x : Announce) (p : Path) : Path :=
  let first := p.round != x.round.toNat || p.seen.isEmpty
  let late := decide (1000 < x.lateUs) && !first
  let ports := if late then p.ports.filter (· != x.port.val) else insertNat x.port.val p.ports
  { p with
    ports := ports, state := if ports.isEmpty then 0 else 1, role := Fin.ofNat 4 (roleCode x.role), round := x.round.toNat,
    seen := insertNat x.port.val (if first then [] else p.seen), serial := x.serial }

/-- ANNOUNCE_RECEIVED (R359 to R361, R341). -/
def announceReceivedEffect (x : Announce) (s : State) : State :=
  let a := x.address.toNat
  let bad := { s with rdm := { s.rdm with annBad := s.rdm.annBad + 1 } }
  if isolated s || !decide (x.port.val ∈ s.rdm.links) then s
  else if !x.tagGood || !canTag s federationKey || padTo 5 x.fedId != padTo 5 s.mch.fedId || x.version != 1 then bad
  else if tabGet 0 a s.mch.table == 0 then bad
  else if tabGet 0 a s.mch.table != x.serial then duplicateSeen a (tabGet 0 a s.mch.table) x.serial s
  else if s.mch.addrValid && a == s.mch.address.toNat then s
  else if (pathOf s a).state == 2 then s
  else if staleFrom s a x.epoch then s
  else fedConnect a (learnEpoch a x.epoch (settleLost (modPath a (pathHeard x) s)))

def execAnnounceReceived (a : Announce) (s : State) : Res := run (.announceReceived a) (announceReceivedEffect a) s

/-- PATH_EXPIRY (R360). -/
def execPathExpiry (addr : BitVec 6) (port : Fin 4) (s : State) : Res := run (.pathExpiry addr port) (dropPath addr.toNat port.val) s

/-- ETHERNET_LINK_CHANGE (R346): a port that goes down leaves every path set. -/
def linkChangeEffect (p : Nat) (up : Bool) (s : State) : State :=
  if up then { s with rdm := { s.rdm with links := insertNat p s.rdm.links } }
  else forEach (s.rdm.paths.map (·.1)) (fun a t => dropPath a p t) { s with rdm := { s.rdm with links := s.rdm.links.filter (· != p) } }

def execEthernetLinkChange (port : Fin 4) (up : Bool) (s : State) : Res := run (.ethernetLinkChange port up) (linkChangeEffect port.val up) s

/-! ### Relays between chips (R363 to R365) -/

/-- Answer a relayed request that never becomes outstanding here. -/
def answerFed (src relayId : Nat) (c : HostCmd) (status : Word16) (s : State) : State :=
  answerTo (.fed src relayId) c.q c.cid status 0 0 0 [] s

/-- The entry as it is executed here: not relayed on by federation again, its data at hand. -/
def relayedEntry (c : HostCmd) (data : Bytes) : HostCmd := { c with flags := c.flags &&& 0xF7, fed := 0, buf := data }

/-- A federated tenant of this chip. -/
def fedTenant (s : State) (t : Nat) : Bool := (tenantOf s t).any (·.relay)

/-- The request is executed, or passed to the peer. -/
def runRelayed (src relayId tenant : Nat) (c : HostCmd) (data : Bytes) (s : State) : State :=
  let w : Waiter := ⟨relayedEntry c data, some tenant, .fed src relayId⟩
  if !(c.op == 0x80 || c.op == 0x81 || c.op == 0x82 || c.op == 0x88) then answerFed src relayId c 0x1002 s
  else if !inService s then answerFed src relayId c 0x7001 s
  else if needsNormal c.op && s.glb.service != .normal then answerFed src relayId c 0x7001 s
  else if !fedTenant s tenant then answerFed src relayId c 0x2001 s
  else if c.op = 0x88 then
    (if s.peer.role = .service then
      (if s.peer.linkUp then startRelay w peerDst s else answerFed src relayId c 0x6002 s)
    else admitQuery w s)
  else routeIo w s

/-- RELAY_REQ (R363, R364). -/
def relayReqEffect (src : Nat) (e target : Word16) (id tenant : Nat) (c : HostCmd) (data : Bytes) (s : State) : State :=
  if isolated s then s
  else if staleFrom s src e then refuseStale id src s
  else
    let t := learnEpoch src e s
    if genHigher t.peer.epoch target then refuseStale id src t else runRelayed src id tenant c data t

def execRelayReq (srcAddr : Nat) (epoch targetEpoch : Word16) (relayId tenant : Nat) (c : HostCmd) (data : Bytes) (s : State) : Res :=
  run (.relayReq srcAddr epoch targetEpoch relayId tenant c data) (relayReqEffect srcAddr epoch targetEpoch relayId tenant c data) s

def relayOf (s : State) (n : Nat) : Option Relay := s.rdm.relays.find? fun r => r.id == n && r.sent

/-- The data of a relayed command's answer goes to its buffers. -/
def relayData (c : Cmd) (e : HostCmd) (data : Bytes) (s : State) : State :=
  if c.op == 0x88 then toHost c.q e.q30 data s
  else if c.op == 0x80 then forEach (scatter c.bufs 0 data) (fun p t => toHost c.q p.1 p.2 t) s
  else s

/-- RELAY_RSP (R365): the host command completes; one whose command has been settled already is discarded. -/
def relayRspEffect (e : Word16) (id : Nat) (status : Word16) (part : Bool) (count result : Nat) (data : Bytes) (s : State) : State :=
  match relayOf s id with
  | none => s
  | some r =>
    if isolated s then s
    else if staleFrom s r.target e then refuseStale id r.target s
    else
      match cmdOf s r.cmd with
      | none => s
      | some c =>
        let t := relayData c r.entry data { s with rdm := { s.rdm with relays := s.rdm.relays.filter fun x => x.id != id } }
        learnEpoch r.target e (finishCmd c.id status (if part then count else 0) result t)

def execRelayRsp (epoch : Word16) (relayId : Nat) (status : Word16) (partial_ : Bool) (count result : Word32) (data : Bytes)
    (s : State) : Res :=
  run (.relayRsp epoch relayId status partial_ count result data)
    (relayRspEffect epoch relayId status partial_ count.toNat result.toNat data) s

/-- The refused request goes once more, to SERVING. -/
def resendRelay (r : Relay) (serving : Nat) (s : State) : State :=
  match cmdOf s r.cmd with
  | none => s
  | some c =>
    let rs := modFirst (fun x : Relay => x.id == r.id) (fun x => { x with resent := true, target := serving }) s.rdm.relays
    sendRelay c serving { s with rdm := { s.rdm with relays := rs } }

/-- RELAY_REFUSE (R364): EPOCH and SERVING are adopted; a second refusal completes the command with 0x6001. -/
def relayRefuseEffect (id : Nat) (reason e : Word16) (serving : Nat) (s : State) : State :=
  if isolated s then s
  else
    let t := if reason = 1 then { s with rdm := { s.rdm with relayStale := s.rdm.relayStale + 1 } } else s
    match relayOf t id with
    | none => learnEpoch serving e t
    | some r =>
      if r.resent then learnEpoch serving e (endRelay r 0x6001 t)
      else
        let rs := modFirst (fun x : Relay => x.id == id) (fun x => { x with sent := false }) t.rdm.relays
        resendRelay r serving (learnEpoch serving e { t with rdm := { t.rdm with relays := rs } })

def execRelayRefuse (relayId : Nat) (reason epoch : Word16) (serving : BitVec 6) (s : State) : Res :=
  run (.relayRefuse relayId reason epoch serving) (relayRefuseEffect relayId reason epoch serving.toNat) s

/-- RELAY_TIMEOUT (R365). -/
def relayTimeoutEffect (id : Nat) (s : State) : State :=
  match relayOf s id with
  | some r => endRelay r 0x6003 s
  | none => s

def execRelayTimeout (relayId : Nat) (s : State) : Res := run (.relayTimeout relayId) (relayTimeoutEffect relayId) s

/-! ### Tenant messages (R362) -/

/-- The answer to the chip that asks. -/
def answerTenant (dst : Nat) (status : Word16) (s : State) : State := emit (.ether 0 9 dst [status.toNat] []) s

/-- Store a federated tenant's context with its own domain and domain keys, or delete it. -/
def tenantMsgEffect (src : Nat) (m : TenantMsg) (s : State) : State :=
  match m with
  | .store id g c =>
    if (tenantOf s id).isSome then answerTenant src 0 s
    else if 4096 ≤ s.hqe.tenants.length || decide (id ∈ s.hqe.domains.map (·.id)) then answerTenant src 0x2002 s
    else if stagingLimit s < 2 * (sumG s + g) then answerTenant src 0x5004 s
    else if s.sec.rng.st != .seeded then answerTenant src 0x7002 s
    else
      let x : Tenant := { id := id, g := g, c := c, relay := true, shared := false, domain := id }
      answerTenant src 0 (syncTenant x false (addTenant x true s))
  | .delete id =>
    match (tenantOf s id).filter (·.relay) with
    | none => answerTenant src 0 s
    | some x =>
      if tenantInUse s id then answerTenant src 0x1009 s
      else answerTenant src 0 (syncTenant x true (removeTenant x s))

/-- FEDERATED_TENANT_MESSAGE (R362, R364). -/
def execFederatedTenantMessage (srcAddr : Nat) (epoch : Word16) (tagGood : Bool) (m : TenantMsg) (s : State) : Res :=
  run (.federatedTenantMessage srcAddr epoch tagGood m)
    (fun t => if isolated t || !tagGood || !canTag t federationKey then t
      else if staleFrom t srcAddr epoch then refuseStale 0 srcAddr t
      else tenantMsgEffect srcAddr m (learnEpoch srcAddr epoch t)) s

end Sys2Proof.Machine
end

