-- ==== Sys2Proof/Machine/Repl.lean ====
section
/-! DEFINITION. Replication and migration ingest (R320 to R329): the source's walk and its batches, the target's lookup, checks,
commits and base snapshots, and the session's failures; with the rows whose effects let a batch commit. -/

namespace Sys2Proof.Machine

/-! ### Messages -/

def sessBy (s : State) (k : Word64) : Option Sess := s.snp.sessions.find? fun x => x.session == k

/-- The ready connection of a session. -/
def connOf (s : State) (k : Word64) : Option RcQp := s.rdm.qps.find? fun q => q.st == .ready && q.purpose != 1 && q.session == k

/-- A message with its header (R323). -/
def replMsg (s : State) (type : Byte) (k : Word64) (seq batch count : Nat) (last : Bool) (body : Bytes) : Bytes :=
  fillHeader ([type, 2] ++ beBytes 2 s.peer.epoch.toNat ++ zeros 4 ++ beBytes 8 k.toNat ++ beBytes 4 seq ++ beBytes 4 batch ++ zeros 8)
    count last body

/-- A message of no session, or of one: over its connection when that is ready. -/
def sendRaw (type : Byte) (k : Word64) (seq batch count : Nat) (body : Bytes) (s : State) : State :=
  if isolated s then s
  else
    let m := replMsg s type k seq batch count false body
    emit (.repl type k [batch, count, m.length] m) (sentOn (fun q => q.purpose != 1 && q.session == k) m.length s)

def addBytes (n k : Nat) (s : State) : State := modSess n (fun x => { x with bytes := x.bytes + k }) s

def sendSess (type : Byte) (x : Sess) (batch count : Nat) (body : Bytes) (s : State) : State :=
  if (connOf s x.session).isNone then s
  else addBytes x.nsid (32 + body.length) (sendRaw type x.session x.sendSeq batch count body s)

def sendRefuse (k : Word64) (reason : Nat) (s : State) : State := sendRaw 0x09 k 0 0 0 (beBytes 2 reason) s

/-- The GID that a session's pairing block names, as a number. -/
def remoteGid (x : Sess) : Nat := leNat (bytesAt x.pairing 0 16)

/-- A source makes its connection when it has none. -/
def connectSess (x : Sess) (s : State) : State :=
  if isolated s || s.rdm.qps.any (fun q => q.purpose != 1 && q.session == x.session && q.st != .error) then s
  else
    let dead := (s.rdm.qps.filter fun q => q.purpose != 1 && q.session == x.session).map (·.qpn)
    openRc 2 deviceTenant x.session (remoteGid x) (s.rdm.links.headD 0) (forEach dead removeRc s)

/-! ### The source's walk (R323) -/

/-- The entries that differ between the sent tree and the base tree from a block on, in ascending order; a block that the sent
tree does not hold is deallocated. -/
def treeDiff (n : Nat) (sent base : List MapEntry) (lba : Nat) : List MapEntry :=
  let changed := sent.filter fun m => decide (lba ≤ m.lba) && !decide (m ∈ base)
  let gone := (base.filter fun m => decide (lba ≤ m.lba) && !(sent.any fun x => x.lba == m.lba)).map fun m => (⟨n, m.lba, 0, 0, 0, m.gen⟩ : MapEntry)
  sortBy (fun a b => decide (a.lba ≤ b.lba)) (changed ++ gone)

/-- The records that the walk still has to send from a block on. -/
def walkFrom (s : State) (x : Sess) (lba : Nat) : List MapEntry :=
  match snapOf s x.nsid x.sendSeq with
  | none => []
  | some y => treeDiff x.nsid y.tree (match snapOf s x.nsid x.baseSeq with
    | some b => b.tree
    | none => []) lba

/-- The chunks that a record names, added to those of a batch. -/
def addNames (l : List Nat) (m : MapEntry) : List Nat :=
  let a := if m.chunkA = 0 then l else insertNat m.chunkA l
  if m.chunkA = 0 ∨ m.chunkB = 0 then a else insertNat m.chunkB a

/-- The records of one batch and the chunks they name; what is left. -/
def cutBatch : List MapEntry → Nat → List Nat → List MapEntry × List Nat × List MapEntry
  | [], _, l => ([], l, [])
  | m :: r, k, l =>
    if k < 4096 ∧ (addNames l m).length ≤ 256 then
      let p := cutBatch r (k + 1) (addNames l m)
      (m :: p.1, p.2.1, p.2.2)
    else ([], l, m :: r)

def indexOf (l : List Nat) (n : Nat) : Nat := if n = 0 then 0xFFFF else if n ∈ l then l.idxOf n else 0xFFFF

def blockRecOf (l : List Nat) (m : MapEntry) : BlockRec :=
  if m.chunkA = 0 then ⟨m.lba, 0xFFFF, 0, 0xFFFF, true⟩ else ⟨m.lba, indexOf l m.chunkA, m.offA, indexOf l m.chunkB, false⟩

def chunkRecOf (s : State) (no : Nat) : ChunkRec :=
  match chunkOf s no with
  | some e => ⟨bytesAt e.waybill 0x30 32, numAt e.waybill 0xC 4, bytesAt e.waybill 0x20 12⟩
  | none => ⟨zeros 32, 0, zeros 12⟩

def blockRecBytes (r : BlockRec) : Bytes :=
  beBytes 8 r.lba ++ beBytes 2 r.idxA ++ beBytes 2 r.offA ++ beBytes 2 r.idxB ++ beBytes 2 (flag r.zero 0)

def chunkRecBytes (c : ChunkRec) : Bytes := padTo 32 c.fp ++ beBytes 4 c.origLen ++ padTo 12 c.serial

def offerBody (b : Batch) : Bytes :=
  beBytes 8 b.first ++ beBytes 8 b.next ++ beBytes 4 b.blocks.length ++ zeros 4 ++ b.chunks.flatMap chunkRecBytes ++ b.blocks.flatMap blockRecBytes

/-- The buffers of a batch's Bales, one after another from a base. -/
def bufferList (s : State) : List Nat → Nat → List (Nat × Nat × Nat)
  | [], _ => []
  | no :: r, a =>
    let e := chunkOf s no
    let n := match e with
      | some x => 128 + 512 * x.granules
      | none => 128
    let loc := match e with
      | some x => locatorOf x
      | none => 0
    (a, n, loc) :: bufferList s r (a + n)

def plainElement (kind : Nat) : Element := ⟨kind, false, false, 0, 0, 0, 0, 0, 0, 0, [], false, false, false⟩

/-- The Caravan of a batch (R327): gated reads of the Bales, the BALES messages, and the receive for COMMIT. -/
def batchCaravan (s : State) (x : Sess) (q : RcQp) (b : Batch) (chunks : List Nat) (id : Nat) : Caravan :=
  let bufs := bufferList s chunks (bufBase q.qpn + 2 ^ 29 + id % 32 * 2 ^ 23)
  let reads := (List.range bufs.length).map fun i =>
    let p := bufs.getD i (0, 0, 0)
    { plainElement 3 with gated := true, gateBit := i, addr := p.1, len := p.2.1, addr2 := p.2.2 }
  let head := (replMsg s 0x03 x.session x.sendSeq b.no 0 false []).take 32
  let send := { plainElement 6 with first := 0, last := reads.length - 1, target := q.qpn, template := head }
  { id := id, st := .armed, owner := 0, trigger := q.qpn, gate := [],
    elements := reads ++ (if reads.isEmpty then [] else [send])
      ++ [{ plainElement 2 with target := 16384, addr := bufBase q.qpn, len := 131072 }] }

def freeCaravan (s : State) : Nat := (lowestFree (s.rdm.caravans.map (·.id)) 16384 0).getD 0

/-- One more batch, while fewer than eight are uncommitted: OFFER goes out, and its Caravan is armed. -/
def offerOne (n : Nat) (s : State) : State :=
  match sessOf s n with
  | none => s
  | some x =>
    match connOf s x.session with
    | none => s
    | some q =>
      if x.st != .sending || x.walked || decide (8 ≤ x.batches.length) then s
      else
        let start := match x.batches.getLast? with
          | some b => b.next
          | none => x.nextLba
        match walkFrom s x start with
        | [] => modSess n (fun y => { y with walked := true }) s
        | m :: r =>
          let p := cutBatch (m :: r) 0 []
          let size := match nsOf s n with
            | some v => v.size
            | none => 0
          let b : Batch :=
            { no := x.nextBatch + x.batches.length, first := start,
              next := match p.2.2 with
                | y :: _ => y.lba
                | [] => size,
              chunks := p.2.1.map (chunkRecOf s), blocks := p.1.map (blockRecOf p.2.1), held := [], asked := [], retried := [] }
          let t := modSess n (fun y => { y with batches := y.batches ++ [b] }) s
          let t := armCaravan (batchCaravan t x q b p.2.1 (freeCaravan t)) t
          sendSess 0x01 x b.no b.chunks.length (offerBody b) t

/-- END once everything is committed (R325). -/
def sendEnd (n : Nat) (s : State) : State :=
  match sessOf s n with
  | none => s
  | some x =>
    if x.st == .sending && x.walked && x.batches.isEmpty && !x.ended && (connOf s x.session).isSome then
      let y := snapOf s n x.sendSeq
      let body := padTo 32 ((y.map (·.label)).getD []) ++ beBytes 4 ((y.map (·.seconds)).getD 0) ++ zeros 4
      sendSess 0x05 x 0 0 body (modSess n (fun z => { z with ended := true }) s)
    else s

/-- The source goes on: up to eight uncommitted batches, then END. -/
def pumpSource (n : Nat) (s : State) : State := sendEnd n (forEach (List.range 9) (fun _ t => offerOne n t) s)

/-! ### REPL PAIR, INGEST and REPL SEND -/

/-- A source connects once it is paired. -/
def pairThenConnect (n : Nat) (s : State) : State :=
  match sessOf s n with
  | some x => if x.role = .source then connectSess x s else s
  | none => s

def replPairDo (ids : List Word64) (sealed_ : Bool) : Waiter → State → State := fun w s =>
  pairThenConnect w.c.ns (snapNow (fun c t => plainDone (replPairCmd ids sealed_ c t)) w s)

def execReplPair (c : HostCmd) (remoteIds : List Word64) (remoteSealed : Bool) (s : State) : Res :=
  run (.replPair c remoteIds remoteSealed) (snapRow (replPairDo remoteIds remoteSealed) c) s

def ingestDo : Waiter → State → State := snapNow fun c s => plainDone (ingestCmd c s)

def execIngest (c : HostCmd) (s : State) : Res := run (.ingest c) (snapRow ingestDo c) s

/-- REPL SEND: a session that is sending already is busy (DESIGN CHOICE: 0x1009). -/
def replSendCmd (c : HostCmd) (s : State) : AdminDone :=
  match nsStatus s c.ns with
  | some st => (st, 0, s)
  | none =>
    match (sessOf s c.ns).filter fun x => x.role == .source with
    | none => (0x1002, 6, s)
    | some x =>
      if (completeSnap s c.ns c.d7).isNone then (0x1002, 3, s)
      else if x.st == .sending || x.st == .suspended then (0x1009, 0, s)
      else (0, 0, modSess c.ns (fun y => { y with
        st := .sending, sendSeq := c.d7, nextBatch := 0, nextLba := 0, bytes := 0, batches := [], walked := false, ended := false }) s)

/-- A send that has been accepted starts at once, or once the connection stands. -/
def startSend (n : Nat) (s : State) : State :=
  match sessOf s n with
  | some x => if x.st = .sending then pumpSource n (connectSess x s) else s
  | none => s

def replSendDo : Waiter → State → State := fun w s =>
  let d := replSendCmd w.c s
  let t := endSnap w (plainDone d)
  if d.1 = 0 then startSend w.c.ns t else t

def execReplSend (c : HostCmd) (s : State) : Res := run (.replSend c) (snapRow replSendDo c) s

/-- ACCEPT (R354): a replication connection takes its session on. -/
def acceptedSession (m : ConnMsg) (s : State) : State :=
  if m.purpose = 1 then s
  else match (sessBy s m.session).filter fun x => x.role == .source with
    | some x => if x.st = .suspended then sendSess 0x07 x 0 0 [] s else if x.st = .sending then pumpSource x.nsid s else s
    | none => s

def execAccept (m : ConnMsg) (s : State) : Res := run (.accept m) (connRow m fun t => acceptedSession m (acceptEffect m t)) s

/-! ### What every message meets -/

/-- The versions that a side takes: 2 from a KL9640, 1 from a KL5200. -/
def versionOk (x : Sess) (h : ReplHdr) : Bool := if x.role = .ingest then h.version == 1 else h.version == 2

/-- The checks of a replication message: CRC, its session, the version, its epoch, and that this head owns the namespace. A good one wakes the chip (R433). `f`
takes the session as it stands afterwards. -/
def replRow (source : Bool) (h : ReplHdr) (len : Nat) (f : Sess → State → State) (s : State) : State :=
  if isolated s || !h.crcGood then s
  else
    match (sessBy s h.session).filter fun x => (x.role == .source) == source with
    | none => sendRefuse h.session 1 s
    | some x =>
      if !versionOk x h then sendRefuse h.session 3 s
      else if genHigher x.epoch h.epoch then refuseStale 0 h.srcAddr s
      else if (nsStatus s x.nsid).isSome || x.st == .faulted then sendRefuse h.session 4 s
      else
        let t := wake (modSess x.nsid (fun y => { y with epoch := h.epoch, bytes := y.bytes + len }) s)
        match sessOf t x.nsid with
        | some y => f y t
        | none => t

/-- A session is FAULTED, with a Critical event. -/
def faultSess (n rule k : Nat) (s : State) : State :=
  raise .med .critical rule k [n] (discardBatches n (modSess n (fun x => { x with st := .faulted }) s))

/-! ### The target: OFFER and NEED (R324, R329) -/

/-- The entries of a container that match a fingerprint for a namespace, newest first. -/
def offerMatches (s : State) (n : Nat) (fp : Bytes) (k : Nat) (c : Container) : List CEntry :=
  (c.entries.filter fun e => e.fp == fp && !e.dead && e.keyInfo == nsKeyInfo s n && raisable s e.chunk k).reverse

/-- The newest cached match in the namespace's own domain. -/
def offerMatch (s : State) (n : Nat) (fp : Bytes) (k : Nat) : Option (Nat × Nat) :=
  (s.ing.containers.filter fun c => c.cached && c.domain == nsDomain s n).foldl (fun best c =>
    match (offerMatches s n fp k c).head? with
    | some e => (match best with
      | some b => if b.1 < c.no then some (c.no, e.chunk) else best
      | none => some (c.no, e.chunk))
    | none => best) none

/-- A hook that the cache does not resolve pulls the container that the hook table names (R131). -/
def pullHook (n : Nat) (fp : Bytes) (k : Nat) (s : State) : State :=
  if !isHook fp || (offerMatch s n fp k).isSome then s
  else
    let hit := (s.ing.hooks.filter fun h => h.bucket == bucketOf s fp && h.fpPart == bytesAt fp 1 8 && h.domain == nsDomain s n).foldl
      (fun a h => match a with
        | some m => some (max m h.container)
        | none => some h.container) (none : Option Nat)
    match hit with
    | none => s
    | some c =>
      if s.ing.containers.any fun y => y.no == c && !y.cached then
        (match cacheRoom (nsDomain s n) false s with
        | some t =>
          let u := touchContainer c (modContainer c (fun y => { y with cached := true }) t)
          { u with ing := { u.ing with pulls := (u.ing.pulls + 1) % 2 ^ 64 } }
        | none => s)
      else s

/-- May a record match at all? Not where the namespace disables de-duplication; an ORIGIN 1 chunk carries 12 bytes only; a
KL5200's version 2 chunks match when R322 holds between the two, which is open here. -/
def mayMatch (s : State) (x : Sess) (c : ChunkRec) : Bool :=
  !bitOf (modeOf s x.nsid) 3 && (x.role != .ingest || (!((padTo 32 c.fp).drop 12).all (· == 0) && freePick 2 s == 1))

/-- One record of an OFFER: matched, with its count raised, or to be asked for. -/
def resolveRec (x : Sess) (b : Batch) (i : Nat) (p : Batch × State) : Batch × State :=
  match b.chunks[i]? with
  | none => p
  | some c =>
    let k := batchNames b i
    match (if mayMatch p.2 x c then offerMatch p.2 x.nsid (padTo 32 c.fp) k else none) with
    | some m => ({ p.1 with held := p.1.held ++ [(i, m.2)] }, touchContainer m.1 (raiseRef m.2 k p.2))
    | none => ({ p.1 with asked := p.1.asked ++ [i] }, p.2)

def resolveOffer (x : Sess) (b : Batch) (s : State) : Batch × State :=
  let l := List.range b.chunks.length
  let t := forEach l (fun i u => match b.chunks[i]? with
    | some c => if mayMatch u x c then pullHook x.nsid (padTo 32 c.fp) (batchNames b i) u else u
    | none => u) s
  l.foldl (fun p i => resolveRec x b i p) (b, t)

/-- The 32-byte bitmap of a NEED. -/
def needBits (l : List Nat) : Bytes :=
  (List.range 32).map fun j => BitVec.ofNat 8 ((List.range 8).foldl (fun m i => if 8 * j + i ∈ l then m + 2 ^ i else m) 0)

/-! ### The target: commits (R325) -/

/-- Is every chunk of a batch held, and LIVE? -/
def batchPlaced (s : State) (b : Batch) : Bool :=
  b.held.length == b.chunks.length && b.held.all fun p => (chunkOf s p.2).any fun e => e.st == .live

def heldChunk (b : Batch) (i : Nat) : Nat :=
  match b.held.find? fun p => p.1 == i with
  | some p => p.2
  | none => 0

/-- The map entry of a block record. -/
def recEntry (s : State) (n : Nat) (b : Batch) (r : BlockRec) : MapEntry :=
  let g := publishedGen s n r.lba + 1
  if r.zero then ⟨n, r.lba, 0, 0, 0, g⟩ else ⟨n, r.lba, heldChunk b r.idxA, r.offA, heldChunk b r.idxB, g⟩

/-- The first batch of a session commits when all of it is placed and its map updates can be published. -/
def commitOne (n : Nat) (s : State) : State :=
  match sessOf s n with
  | none => s
  | some x =>
    match x.batches with
    | [] => s
    | b :: r =>
      if x.role == .source || !batchPlaced s b || s.med.frozenMaps || decide (journalCap < s.med.journal.length + b.blocks.length)
          || s.snp.snaps.any (fun y => y.nsid == n && y.st == .pending) then s
      else
        let t := forEach b.blocks (fun y u => putEntry (recEntry u n b y) u) s
        let t := { t with
          til := { t.til with published := true },
          ing := { t.ing with chunks := t.ing.chunks.filter fun c => !(c.run == 0 && decide (c.no ∈ b.held.map (·.2))) } }
        sendSess 0x04 x b.no 0 [] (modSess n (fun y => { y with batches := r, nextBatch := b.no + 1, nextLba := b.next }) t)

def commitBatches (n : Nat) (s : State) : State := forEach (List.range 8) (fun _ t => commitOne n t) s

/-- Every session commits what it can. -/
def commitAll (s : State) : State := forEach (s.snp.sessions.map (·.nsid)) commitBatches s

/-- STRIPE_PROGRAMMED (R208, R140, R212), after which batches may commit (R325). -/
def execStripeProgrammed (seg stripe : Nat) (failed : List Nat) (s : State) : Res :=
  run (.stripeProgrammed seg stripe failed) (fun t => commitAll (rootsIfDue (objectLanded (jobsForMissing seg t (stripeProgrammedEffect seg stripe failed t))))) s

/-- CHECKPOINT_COMPLETE (R296 to R299); the journal has room again. -/
def execCheckpointComplete (s : State) : Res := run .checkpointComplete (fun t => commitAll (checkpointCompleteEffect t)) s

/-- SNAP_COMPLETE (R313); batches of the members may commit again. -/
def execSnapComplete (cmd : Nat) (s : State) : Res := run (.snapComplete cmd) (fun t => commitAll (snapCompleteEffect cmd t)) s

/-- OFFER (R324): the batch that follows, resolved in one window, and answered with one NEED. -/
def offerEffect (h : ReplHdr) (first next : Nat) (chunks : List ChunkRec) (blocks : List BlockRec) (x : Sess) (s : State) : State :=
  let no := h.batch.toNat
  if x.st == .suspended then sendRefuse h.session 4 s
  else if x.batches.any fun b => b.no == no then s
  else if no != x.nextBatch + x.batches.length || decide (8 ≤ x.batches.length) then sendRefuse h.session 4 s
  else
    let b : Batch := { no := no, first := first, next := next, chunks := chunks, blocks := blocks, held := [], asked := [], retried := [] }
    let p := resolveOffer x b s
    let t := modSess x.nsid (fun y => { y with st := .sending, sendSeq := h.snapSeq.toNat, batches := y.batches ++ [p.1] }) (tick p.2)
    commitBatches x.nsid (sendSess 0x02 { x with sendSeq := h.snapSeq.toNat } no 0 (needBits p.1.asked) t)

def execOffer (h : ReplHdr) (firstLba nextLba : Nat) (chunks : List ChunkRec) (blocks : List BlockRec) (s : State) : Res :=
  run (.offer h firstLba nextLba chunks blocks)
    (replRow false h (56 + 48 * chunks.length + 16 * blocks.length) (offerEffect h firstLba nextLba chunks blocks)) s

/-! ### BALES (R324, R292, R306) -/

/-- The data slot whose identifier a Waybill names. -/
def slotById (s : State) (id : Nat) : Nat :=
  match s.sec.slots.find? fun p => p.2.state == .active && (dataKeyId p.2).toNat == id && id != 0 with
  | some p => p.1
  | none => unencrypted

/-- The chunk table entry that a received Bale gets. -/
def baleEnt (s : State) (x : Sess) (b : Batch) (it : BaleItem) : ChunkEnt :=
  let w := padTo 128 it.waybill
  let enc := bitOf (numAt w 4 1) 0
  let key := if enc then slotById s (numAt w 0x50 8) else unencrypted
  let no := newChunkNo s
  let lba := match b.blocks.find? fun r => r.idxA == it.index with
    | some r => r.lba
    | none => 0
  { no := no, refs := batchNames b it.index, seg := 0, stripe := 0, strip := 0, gran := 0, granules := numAt w 6 2,
    len := numAt w 0xC 4, st := .placing, keyInfo := key, domain := nsDomain s x.nsid, nsid := x.nsid,
    sealed_ := bitOf (numAt w 4 1) 1, waybill := rewriteWaybill no x.nsid (nsDomain s x.nsid) key (lba <<< 12) w, stored := it.stored }

/-- The three checks of R324, in turn. -/
def baleGood (s : State) (x : Sess) (b : Batch) (it : BaleItem) : Bool :=
  let w := padTo 128 it.waybill
  match b.chunks[it.index]? with
  | none => false
  | some c =>
    crcOk w && bytesAt w 0x30 32 == padTo 32 c.fp && bytesAt w 0x20 12 == padTo 12 c.serial
      && (match openBale (baleEnt s x b it) it.stored w s with
        | none => false
        | some plain => bitOf (numAt w 4 1) 1 || (decodeBale plain (some (numAt w 0x2C 4))).1 == 0)

/-- A Bale that passes is on its way to a stripe under its new number, and its fingerprint is in the open container. -/
def takeBale (x : Sess) (no : Nat) (b : Batch) (it : BaleItem) (s : State) : State :=
  let e := baleEnt s x b it
  let c : Chunk :=
    { id := freshId s, run := 0, nsid := x.nsid, off := 0, data := [], fp := bytesAt it.waybill 0x30 32, stage := .stored, window := 0,
      started := false, no := e.no, matched := false, bale := it.stored.take (numAt it.waybill 8 4), enc := e.keyInfo != unencrypted,
      sealed_ := e.sealed_, serial := bytesAt it.waybill 0x20 12, waybill := e.waybill, stored := it.stored }
  let t := takeId { s with
    med := { (dirtyChunk e.no s).med with chunks := s.med.chunks ++ [e], chunkNext := s.med.chunkNext + 1 },
    ing := { s.ing with chunks := s.ing.chunks ++ [c] } }
  let t := if bitOf (modeOf s x.nsid) 3 then t else appendEntry c e.no t
  let f := fun z : Batch => { z with held := z.held ++ [(it.index, e.no)], asked := z.asked.filter (· != it.index) }
  modSess x.nsid (fun y => { y with batches := modFirst (fun z => z.no == no) f y.batches }) t

def batchOf (s : State) (n no : Nat) : Option Batch :=
  match sessOf s n with
  | some x => x.batches.find? fun b => b.no == no
  | none => none

/-- One Bale of a message: taken, asked for once more, or the end of the session's good run. -/
def baleArrives (n no : Nat) (it : BaleItem) (s : State) : State :=
  match sessOf s n, batchOf s n no with
  | some x, some b =>
    if !decide (it.index ∈ b.asked) then s
    else if baleGood s x b it then takeBale x no b it s
    else if it.index ∈ b.retried then faultSess n 324 0 s
    else
      let f := fun z : Batch => { z with retried := z.retried ++ [it.index] }
      let t := modSess n (fun y => { y with batches := modFirst (fun z => z.no == no) f y.batches }) s
      sendSess 0x02 x no 0 (needBits [it.index]) t
  | _, _ => s

def balesEffect (h : ReplHdr) (items : List BaleItem) (x : Sess) (s : State) : State :=
  commitBatches x.nsid (forEach items (baleArrives x.nsid h.batch.toNat) s)

def execBales (h : ReplHdr) (items : List BaleItem) (s : State) : Res :=
  run (.bales h items) (replRow false h (32 + sumBy (fun i : BaleItem => 128 + i.stored.length) items) (balesEffect h items)) s

/-! ### END (R325, R326) -/

/-- The REPLICA snapshot that END asks for, marked BASE in place of the earlier base. -/
def takeReplica (x : Sess) (h : ReplHdr) (label : Bytes) (seconds : Nat) (s : State) : State :=
  let seq := tabGet 0 x.nsid s.snp.nextSeq + 1
  let t := treeOf s x.nsid
  let y : Snap :=
    { nsid := x.nsid, seq := seq, st := .complete, group := none, cgSeq := 0, seconds := seconds, cycles := (stampCycles s).toNat,
      label := padTo 32 label, exposed := none, replica := true, base := true, srcSeq := h.snapSeq.toNat,
      srcNsid := numAt x.pairing 32 2, srcArray := bytesAt x.pairing 16 16, cmd := none, tree := t.1, pages := t.2, dirs := dirsOf s x.nsid }
  { s with snp := { s.snp with
    snaps := modAll (fun z : Snap => z.nsid == x.nsid) (fun z => { z with base := false }) s.snp.snaps ++ [y],
    nextSeq := tabPut 0 x.nsid seq s.snp.nextSeq } }

/-- END_ACK goes back, and the send is over; an ingest session ends with it (R329). -/
def answerEnd (x : Sess) (seq : Nat) (s : State) : State :=
  let t := sendSess 0x06 x 0 0 (beBytes 4 seq) s
  if x.role = .ingest then endSess x.nsid t
  else modSess x.nsid (fun y => { y with st := .idle, baseSeq := seq, nextBatch := 0, nextLba := 0 }) t

/-- The base snapshot of a send whose END_ACK was lost. -/
def ackedBase (s : State) (x : Sess) (h : ReplHdr) : Option Snap :=
  if x.st = .idle then s.snp.snaps.find? fun y => y.nsid == x.nsid && y.base && y.srcSeq == h.snapSeq.toNat else none

def endEffect (h : ReplHdr) (label : Bytes) (seconds : Nat) (x : Sess) (s : State) : State :=
  match ackedBase s x h with
  | some y => sendSess 0x06 x 0 0 (beBytes 4 y.seq) s
  | none =>
    if x.st == .suspended || !x.batches.isEmpty then sendRefuse h.session 4 s
    else if 1024 ≤ snapCount s x.nsid then
      raise .med .fault 326 0 [x.nsid] (suspendSess x.nsid (sendRefuse h.session 5 (modSess x.nsid (fun y => { y with st := .sending }) s)))
    else answerEnd x (tabGet 0 x.nsid s.snp.nextSeq + 1) (takeReplica x h label seconds s)

def execEnd_ (h : ReplHdr) (label : Bytes) (seconds : Word32) (s : State) : Res :=
  run (.end_ h label seconds) (replRow false h 72 (endEffect h label seconds.toNat)) s

/-! ### The source: NEED, COMMIT, END_ACK -/

/-- NEED (R327): the batch's Caravan is released with the bitmap. -/
def needEffect (h : ReplHdr) (bits : List Nat) (x : Sess) (s : State) : State :=
  match connOf s x.session with
  | none => s
  | some q =>
    let mine := fun c : Caravan => c.trigger == q.qpn && c.st == .armed
      && c.elements.any fun e => e.kind == 6 && bytesAt e.template 0x14 4 == beBytes 4 h.batch.toNat
    match s.rdm.caravans.find? mine with
    | some c => releaseCaravan c.id q.qpn bits s
    | none => resendBales h.batch.toNat bits x q s
where
  /-- A further NEED for Bales that failed, or a batch without chunk records: its Bales are read again under a new Caravan. -/
  resendBales (no : Nat) (bits : List Nat) (x : Sess) (q : RcQp) (s : State) : State :=
    match x.batches.find? fun b => b.no == no with
    | none => s
    | some b =>
      if bits.isEmpty then s
      else
        let chunks := (cutBatch (walkFrom s x b.first) 0 []).2.1
        let id := freeCaravan s
        releaseCaravan id q.qpn bits (armCaravan (batchCaravan s x q b chunks id) s)

def execNeed (h : ReplHdr) (bits : List Nat) (s : State) : Res := run (.need h bits) (replRow true h 64 (needEffect h bits)) s

/-- COMMIT (R325): the first uncommitted batch is done, and the walk goes on. -/
def commitEffect (h : ReplHdr) (x : Sess) (s : State) : State :=
  match x.batches with
  | b :: r =>
    if b.no = h.batch.toNat then
      pumpSource x.nsid (modSess x.nsid (fun y => { y with batches := r, nextBatch := b.no + 1, nextLba := b.next }) s)
    else s
  | [] => s

def execCommit (h : ReplHdr) (s : State) : Res := run (.commit h) (replRow true h 32 (commitEffect h)) s

/-- END_ACK (R325): the sent snapshot is the base. -/
def endAckEffect (h : ReplHdr) (x : Sess) (s : State) : State :=
  if x.st == .sending && x.ended && h.snapSeq.toNat == x.sendSeq then
    let l := modAll (fun y : Snap => y.nsid == x.nsid) (fun y => { y with base := y.seq == x.sendSeq }) s.snp.snaps
    modSess x.nsid (fun y => { y with st := .idle, baseSeq := y.sendSeq, sendSeq := 0, nextBatch := 0, nextLba := 0, walked := false, ended := false })
      { s with snp := { s.snp with snaps := l } }
  else s

def execEndAck (h : ReplHdr) (targetSeq : Word32) (s : State) : Res := run (.endAck h targetSeq) (replRow true h 36 (endAckEffect h)) s

/-! ### RESUME, REFUSE, timers (R326, R328) -/

/-- RESUME (R328): what is not committed goes, and RESUME_AT names where the source walks again. -/
def resumeEffect (h : ReplHdr) (x : Sess) (s : State) : State :=
  let t := modSess x.nsid (fun y => { y with st := .sending, sendSeq := h.snapSeq.toNat }) (discardBatches x.nsid s)
  sendSess 0x08 x 0 0 (beBytes 4 x.nextBatch ++ beBytes 8 x.nextLba) t

def execResume (h : ReplHdr) (s : State) : Res := run (.resume h) (replRow false h 32 (resumeEffect h)) s

/-- RESUME_AT (R328). -/
def resumeAtEffect (batch lba : Nat) (x : Sess) (s : State) : State :=
  if x.st == .suspended then
    pumpSource x.nsid (modSess x.nsid (fun y => { y with st := .sending, nextBatch := batch, nextLba := lba, batches := [], walked := false, ended := false }) s)
  else s

def execResumeAt (h : ReplHdr) (nextBatch nextLba : Nat) (s : State) : Res :=
  run (.resumeAt h nextBatch nextLba) (replRow true h 44 (resumeAtEffect nextBatch nextLba)) s

/-- A REFUSE of a session: a key or version mismatch ends it, any other reason suspends it (DESIGN CHOICE). -/
def replRefuseEffect (h : ReplHdr) (reason : Word16) (s : State) : State :=
  if isolated s || !h.crcGood then s
  else match sessBy s h.session with
    | none => s
    | some x => if reason = 2 ∨ reason = 3 then endSess x.nsid s else suspendSess x.nsid s

def execReplRefuse (h : ReplHdr) (reason : Word16) (s : State) : Res := run (.replRefuse h reason) (replRefuseEffect h reason) s

/-- REPL_SESSION_TIMEOUT (R328): 10 s without a message while a batch is outstanding. -/
def execReplSessionTimeout (session : Word64) (s : State) : Res :=
  run (.replSessionTimeout session) (fun t => match sessBy t session with
    | some x => if x.batches.isEmpty then t else suspendSess x.nsid t
    | none => t) s

/-- REPL_RETRY_TIMER (R328): a suspended source sends RESUME, once it has a connection. -/
def retrySess (k : Word64) (s : State) : State :=
  match (sessBy s k).filter fun x => x.role == .source && x.st == .suspended with
  | some x => if (connOf s k).isSome then sendSess 0x07 x 0 0 [] s else connectSess x s
  | none => s

def execReplRetryTimer (session : Word64) (s : State) : Res := run (.replRetryTimer session) (retrySess session) s

/-! ### Caravan elements (R357, R328) -/

/-- The session whose connection a Caravan hangs on. -/
def caravanSession (s : State) (id : Nat) : Option Sess :=
  match caravanOf s id with
  | some c => (match rcOf s c.trigger with
    | some q => if q.purpose = 1 then none else sessBy s q.session
    | none => none)
  | none => none

/-- A source read that ends in 0x3020 puts its session into FAULTED (R328). -/
def readFailed (id : Nat) (failed : Option Nat) (before s : State) : State :=
  if failed = some 0x3020 then
    (match (caravanSession before id).filter fun x => x.role == .source with
    | some x => faultSess x.nsid 328 0 s
    | none => s)
  else s

def execCaravanElementDone (caravan element : Nat) (failed : Option Nat) (s : State) : Res :=
  run (.caravanElementDone caravan element failed) (fun t => readFailed caravan failed t (elementDone caravan element failed t)) s

end Sys2Proof.Machine
end

