-- ==== Sys2Proof/Machine/Peer.lean ====
section
/-! DEFINITION. The peer link and fail-over: messages between the heads (R331 to R333), roles (R334 to R336), detection and
takeover (R337 to R342), control-pair faults (R343), the role swap (R344), the return of a repaired head and the reads and counts
across the pair (R345). -/

namespace Sys2Proof.Machine

/-! ### Messages -/

def pairKey : Nat := 0x1FF0

/-- A message that carries a tag goes only while the vault can make it (R333). -/
def toPeerTagged (type : Nat) (args : List Nat) (data : Bytes) (s : State) : State :=
  if canTag s pairKey then toPeer type args data s else s

def countStale (s : State) : State := { s with peer := { s.peer with stale := s.peer.stale + 1 } }

/-- The checks of R341 on a message over the link session: an older epoch is answered with STALE; a newer one supersedes a
head that serves, and is adopted. -/
def peerRow (h : PeerHdr) (f : State → State) (s : State) : State :=
  if !s.peer.linkUp || !s.pins.coresOut then s
  else if genHigher s.peer.epoch h.epoch then toPeer 0x2F [s.peer.epoch.toNat] [] (countStale s)
  else
    let t := { s with peer := { s.peer with noProgress := 0, peerEpoch := h.epoch } }
    f (peerEpochSeen h.epoch t)

/-- A message that must be tagged (R333). -/
def taggedRow (type : Nat) (h : PeerHdr) (f : State → State) (s : State) : State :=
  if !s.peer.linkUp || !s.pins.coresOut || s.sec.vault.out then s
  else if !h.tagged || !h.tagGood || !canTag s pairKey then raise .peer .fault 333 0 [type] s
  else peerRow h f s

/-! ### The link (R330, R331) -/

def linkWidth (n : Nat) : Nat := if 12 ≤ n then 12 else if 8 ≤ n then 8 else if 4 ≤ n then 4 else 0

/-- PEER_LANE_LOSS (R330): a retrain at the next lower width; below four lanes the link is down. -/
def laneLossEffect (n : Nat) (s : State) : State :=
  let w := min (linkWidth n) s.peer.lanes
  if w = s.peer.lanes then s
  else { s with peer := { s.peer with
    lanes := w, retrains := if w = 0 then s.peer.retrains else (s.peer.retrains + 1) % 2 ^ 64, noProgress := 0 } }

def execPeerLaneLoss (lanesLeft : Nat) (s : State) : Res := run (.peerLaneLoss lanesLeft) (laneLossEffect lanesLeft) s

/-- PEER_REPLAY_TIMEOUT (R331): after 8 replays without progress the link retrains. -/
def replayTimeoutEffect (s : State) : State :=
  if s.peer.lanes = 0 then s
  else
    let n := s.peer.noProgress + 1
    { s with peer := { s.peer with
      replays := (s.peer.replays + 1) % 2 ^ 64, noProgress := if n = 8 then 0 else n,
      retrains := if n = 8 then (s.peer.retrains + 1) % 2 ^ 64 else s.peer.retrains } }

def execPeerReplayTimeout (s : State) : Res := run .peerReplayTimeout replayTimeoutEffect s

/-! ### Entering SOLE (R339) -/

/-- How much of a write of the lost peer stands in its mirror entries: blocks below the lowest one held had been released, since
a write's blocks become STAGED in order (DEDUCED, R119, R122). -/
def mirroredOutcome (s : State) (e : Settle) : Fin 5 × Nat :=
  match s.ing.mirror.filter fun m => m.tenant == e.tenant && m.tag == some e.tag with
  | [] => (2, 0)
  | m :: r =>
    let low := r.foldl (fun a x => min a x.block) m.block
    outcomeOf (prefixLen ((m :: r).map (·.block)) (m.nblk - low) low) m.nblk

/-- One entry of the lost peer's log becomes this head's, PENDING ones settled; those, and what settled within the last second,
are pinned (R106). This head's own entry of the same tenant and tag stands. -/
def adoptSettle (e : Settle) (s : State) : State :=
  let t := { s with hqe := { s.hqe with settle := s.hqe.settle.erase e } }
  if (settleFind s e.tenant e.tag).isSome then raise .hqe .fault 339 0 [e.tenant, e.tag.toNat] t
  else
    let o := mirroredOutcome s e
    let d := if e.outcome = 4 then { e with ofPeer := false, outcome := o.1, count := o.2, pinned := true, at_ := nowS s }
      else { e with ofPeer := false, pinned := e.pinned || decide (nowS s ≤ e.at_ + 1) }
    { t with hqe := { t.hqe with settle := t.hqe.settle ++ [d] } }

def adoptLog (s : State) : State := pinTrim s.hqe.settle.length (forEach (s.hqe.settle.filter (·.ofPeer)) adoptSettle s)

/-- Commands relayed to the peer end with 0x6001. -/
def endPeerRelays (s : State) : State :=
  forEach ((s.hqe.cmds.filter fun c => c.stage == .relayed peerDst).map (·.id)) (fun id t => finishCmd id 0x6001 0 0 t) s

/-- Vector 0 of PF0 on each attached port. -/
def signalPorts (s : State) : State :=
  forEach ([0, 1] : List (Fin 2)) (fun p t => if (portOf t p).dlUp then signal ⟨p, 0⟩ 0 t else t) s

/-- The peer's jobs go on here (R275), and no job waits for its acknowledgements any longer (R274). -/
def adoptJobs (s : State) : State :=
  let l := s.par.mirrored.filter fun c => !(s.par.ckpts.any fun x => sameJob x c)
  forEach l resumeTask { s with par := { s.par with mirrored := [], jobs := s.par.jobs.map fun j => { j with unacked := 0 } } }

/-- The role and epoch of a head that serves alone, with the link session gone (R339, step 1). -/
def becomeSole (cause : Nat) (s : State) : State :=
  let top := if genHigher s.peer.peerEpoch s.peer.epoch then s.peer.peerEpoch else s.peer.epoch
  tellEpoch <| setRole .sole cause { s with
    peer := { s.peer with epoch := top + 1, linkUp := false, detect := .takeover, takeovers := (s.peer.takeovers + 1) % 2 ^ 64 },
    pair := { s.pair with returning := false, handback := false, kept := [], swapWait := false, claimsWait := cause == 4, resends := 0, granules := [],
                          swapPeer := s.pair.swapPeer && cause == 3 } }

/-- The claims on every module that the peer held (R257), unless they wait for its flush (R228). -/
def takeoverClaims (s : State) : State := takeoverCheck (if s.pair.claimsWait then s else claimPeerHeld (claimIdentified s))

/-! ### Tables of a head, loaded from its checkpoint (R339, R344) -/

/-- Add what is not there yet, by number. -/
def addNew {α : Type} (key : α → Nat) (l more : List α) : List α :=
  more.foldl (fun a x => if a.any fun y => key y == key x then a else a ++ [x]) l

def rowNum (r : List Nat × Bytes × Bytes) (i : Nat) : Nat := r.1.getD i 0

def nsRow (owner : Bool) (r : List Nat × Bytes × Bytes) : Ns :=
  { id := rowNum r 0 % 16384, tenant := rowNum r 1, size := rowNum r 2, mode := BitVec.ofNat 32 (rowNum r 3), owner := owner,
    keySlot := if rowNum r 4 = 0 then none else some (rowNum r 4) }

def mapRow (r : List Nat × Bytes × Bytes) : MapEntry :=
  ⟨rowNum r 0 % 16384, rowNum r 1, rowNum r 2 % 2 ^ 48, rowNum r 3 % 65536, rowNum r 4 % 2 ^ 48, BitVec.ofNat 16 (rowNum r 5)⟩

def chunkRow (head : Bool) (r : List Nat × Bytes × Bytes) : ChunkEnt :=
  { no := rowNum r 0 % 2 ^ 47 + (if head then 2 ^ 47 else 0), refs := rowNum r 1, seg := rowNum r 2, stripe := rowNum r 3, strip := rowNum r 4,
    gran := rowNum r 5, granules := rowNum r 6, len := rowNum r 7 + 1, st := .live, keyInfo := rowNum r 8, domain := rowNum r 9,
    nsid := rowNum r 10, sealed_ := bitOf (numAt r.2.1 4 1) 1, waybill := r.2.1, stored := r.2.2 }

/-- A row of the segment table: its numbers, and its members, four numbers each, behind them. -/
def segRow (head : Bool) (r : List Nat × Bytes × Bytes) : Seg :=
  { no := rowNum r 0 % 2 ^ 31 + (if head then 2 ^ 31 else 0), st := .closed, stream := ⟨Fin.ofNat 6 (rowNum r 1), false⟩, slc := rowNum r 2 == 1,
    d := rowNum r 3, q := rowNum r 4 == 1, layout := rowNum r 5,
    members := (List.range ((r.1.length - 8) / 4)).map fun i =>
      ⟨rowNum r (8 + 4 * i), rowNum r (9 + 4 * i), rowNum r (10 + 4 * i), rowNum r (11 + 4 * i)⟩,
    missing := [], stripes := rowNum r 6, capacity := rowNum r 7, verified := [], erases := 0, writtenAt := 0, closedAt := 0, readers := 0,
    retired := 0, oldVer := false }

/-- The tables of head `h` are those that its newest checkpoint names: namespaces, maps, chunk table and segments; what they hold is open
here. Its snapshots and their trees stay as this head knows them (DESIGN CHOICE). -/
def loadHead (h : Bool) (s : State) : State :=
  let rows := fun k => Config.loadedRows s.freeCtr (2 * k + if h then 1 else 0)
  let keptNs := s.hqe.nss.filter fun n => n.owner != h || n.exposed.isSome
  let nss := addNew (·.id) keptNs ((rows 0).map (nsRow h))
  let mine := fun n => nss.any fun x => x.id == n && x.owner == h && x.exposed.isNone
  let keep := fun n => !(mine n) && nss.any fun x => x.id == n
  let maps := ((rows 1).map mapRow).filter fun m => mine m.nsid
  let bit := fun (n w : Nat) => (n / 2 ^ w % 2 == 1) == h
  tick { s with
    hqe := { s.hqe with nss := nss }
    med := { s.med with
      maps := (s.med.maps.filter fun m => keep m.nsid) ++ addNew (fun m => m.nsid + 16384 * m.lba) [] maps
      cached := s.med.cached.filter fun p => p.1 == 0 || keep p.1
      dirty := s.med.dirty.filter fun p => p.1 == 0 || keep p.1
      pages := s.med.pages.filter fun p => p.nsid == 0 || 16384 ≤ p.nsid || keep p.nsid
      journal := s.med.journal.filter fun m => keep m.nsid
      oldJournal := s.med.oldJournal.filter fun m => keep m.nsid
      chunks := addNew (·.no) (s.med.chunks.filter fun e => !bit e.no 47) ((rows 2).map (chunkRow h))
      segs := addNew (·.no) (s.med.segs.filter fun g => !bit g.no 31) ((rows 3).map (segRow h)) } }

/-- A head that takes over loads what it does not hold itself: the lost head's tables, or, from SERVICE, both heads'. One that was handing
back to the lost head holds everything still. -/
def loadLost (s : State) : State :=
  if s.peer.role == .service then loadHead true (loadHead false s) else if s.pair.handback then s else loadHead (!s.glb.headId) s

/-- R339, steps 1 to 8. -/
def enterSole (cause : Nat) (s : State) : State :=
  let t := becomeSole cause (loadLost s)
  let t := forEach ((t.hqe.cmds.filter fun c => c.stage == .mirroring).map (·.id)) completeWrite t
  let t := signalPorts (endPeerRelays (adoptLog t))
  takeoverClaims (adoptJobs (readmit (loadLostHooks (dropStaleMirror t))))

/-- The loss of the peer: a head that is ACTIVE serves alone; one in SERVICE does so when the lost peer was SOLE, whose
unplaced writes are lost (R335). A head whose own PWR_FAIL_L is low ignores it (R340), and one whose pair 1 is in reset does
not act (R19). -/
def declareLoss (cause : Nat) (s : State) : State :=
  if s.pins.pwrFail || s.pair.sameHead || s.pair.hungOver || !pair1Up s then s
  else
    match s.peer.role with
    | .active => enterSole cause s
    | .service =>
      if s.peer.peerRole == some .sole && (s.glb.service == .normal || s.glb.service == .recovery) then
        raise .peer .critical 335 0 [] (enterSole cause s)
      else s
    | .sole => { s with peer := { s.peer with detect := .noPeer } }

/-- This head enters SERVICE of its own accord, at the next epoch. -/
def stepDown (cause : Nat) (s : State) : State :=
  tellEpoch (enterService cause { s with peer := { s.peer with epoch := s.peer.epoch + 1 } })

/-! ### Heartbeats and detection (R337) -/

/-- Is nothing of this head's own namespaces under way any more? -/
def quiet (s : State) : Bool :=
  s.hqe.cmds.all fun c => c.op.toNat < 128 || notAdmitted c || (match c.stage with
    | .relayed _ => true
    | .query _ _ _ _ => true
    | _ => false)

/-- The ACTIVATE that asked for the handover is answered, and the reset follows (R412, R420). -/
def activationDone (s : State) : State :=
  let t := { s with glb := { s.glb with resetPending := true }, pair := { s.pair with resetAfter := false } }
  match s.svc.busy with
  | some (n, y) => emit (.dweuno y n 0 []) { t with svc := { t.svc with busy := none, stored := some (n, y, 0, []) } }
  | none => t

/-- The HANDOVER of an ACTIVE head, which then enters SERVICE; of a SOLE head, which resets with nothing unplaced (R420). -/
def sendHandover (s : State) : State :=
  let t := toPeerTagged 0x21 [] [] s
  let t := if t.peer.role = .active then
      let u := stepDown 8 t
      { u with peer := { u.peer with linkUp := false, detect := .noPeer } }
    else { t with pair := { t.pair with swapWait := false } }
  if s.pair.resetAfter then activationDone t else t

/-- Has a SOLE head flushed and published every STAGED block? -/
def allPlaced (s : State) : Bool := s.ing.staging.isEmpty && s.ing.mirror.isEmpty && s.ing.runs.isEmpty

/-- Step 2 of a role swap or handover (R344, R420): every admitted command completes, a SOLE head places every block, a checkpoint is
written (R299), and HANDOVER goes. A head that has come into SERVICE meanwhile has nothing left to hand over. -/
def swapStep (s : State) : State :=
  if s.peer.role == .service then onlyIf (s.pair.swapWait && s.pair.resetAfter) activationDone s
  else if !s.pair.swapWait || !quiet s then s
  else if s.peer.role == .sole && !allPlaced s then
    let t := forEach (allRuns s) startRun s
    { t with pair := { t.pair with ckptAt := t.til.ckptSeq } }
  else if s.pair.ckptAt < s.til.current then sendHandover s
  else s

/-- Steps 4 and 5 of a return, on the head that hands back. Has the checkpoint been written? -/
def handbackReady (s : State) : Bool := s.pair.handback && s.peer.role == .active && decide (s.pair.ckptAt < s.til.current)

/-- The peer's home modules that this head still holds, and the one whose release is under way. -/
def foreignLanes (s : State) : List Nat := (heldLanes s).filter fun n => !isHome s n

/-- Does a kept namespace hold nothing unplaced? -/
def nsClean (s : State) (n : Nat) : Bool :=
  !(s.ing.staging.any fun e => e.nsid == n) && !(s.ing.runs.any fun r => r.nsid == n) && !(s.ing.mirror.any fun m => m.nsid == n)
    && writesSettled s [n]

/-- The next module goes, or the namespaces do (DESIGN CHOICE: all at once, with HANDBACK_DONE). -/
def handbackStep (s : State) : State :=
  if !handbackReady s then s
  else if (foreignLanes s).any fun n => (laneOf s n).released then s
  else
    match foreignLanes s with
    | n :: _ => toPeerTagged 0x26 [n] [] (modLane n (fun l => { l with released := true }) (closeOpenWith (fun m => m.lane == n) s))
    | [] =>
      if s.pair.kept.all (nsClean s) then
        let l := modAll (fun x : Ns => decide (x.id ∈ s.pair.kept)) (fun x => { x with hold := false }) s.hqe.nss
        readmit (toPeerTagged 0x27 [] [] { s with pair := { s.pair with handback := false, kept := [] }, hqe := { s.hqe with nss := l } })
      else
        let l := modAll (fun x : Ns => decide (x.id ∈ s.pair.kept)) (fun x => { x with hold := true }) s.hqe.nss
        forEach (s.pair.kept.flatMap (runsOf s)) startRun { s with hqe := { s.hqe with nss := l } }

/-- BEAT_TIMER (R337); what waits for commands to complete is looked at as often. -/
def beatTimerEffect (s : State) : State :=
  let t := if beats s && decide (0 < s.peer.lanes) then
      toPeer 0x01 [roleCode s.peer.role, serviceCode s.glb.service, s.pair.ownFw.toNat, occupied s, (stampSeconds s).toNat] [] s
    else s
  if pair1Up s then handbackStep (swapStep t) else t

def execBeatTimer (s : State) : Res := run .beatTimer beatTimerEffect s

/-- A head that is no longer suspected: what waited for the decision goes on (R338). -/
def peerSeen (s : State) : State :=
  if suspectNow s then readmit { s with peer := { s.peer with detect := .present } }
  else if s.peer.detect = .noPeer then { s with peer := { s.peer with detect := .present } }
  else s

/-- BEAT (R337). -/
def beatEffect (role : Role) (service : Service) (fw : Word32) (occ secs : Nat) (s : State) : State :=
  peerSeen { s with
    peer := { s.peer with peerRole := some role, aliveIn := s.peer.aliveIn || role != .service },
    pair := { s.pair with fwVersion := fw, occupancy := occ, seconds := secs, service := service } }

def execBeat (h : PeerHdr) (role : Role) (service : Service) (fwVersion : Word32) (occupancy seconds : Nat) (s : State) : Res :=
  run (.beat h role service fwVersion occupancy seconds) (peerRow h (beatEffect role service fwVersion occupancy seconds)) s

/-- HEARTBEAT_LOSS (R337): SUSPECT, and the presence query goes out. -/
def heartbeatLossEffect (s : State) : State :=
  if s.peer.detect != .present || s.pins.pwrFail || !pair1Up s then s
  else chainSend 0x20 [0, s.pair.serial.toNat] { s with peer := { s.peer with detect := .suspect, missed := (s.peer.missed + 3) % 2 ^ 64 } }

def execHeartbeatLoss (s : State) : Res := run .heartbeatLoss heartbeatLossEffect s

/-- CONFIRM_DEADLINE (R337): the answer is recorded; LOSS while PEER_ALIVE_IN is low, otherwise SPLIT. -/
def confirmEffect (a : Option Bool) (s : State) : State :=
  if s.peer.detect != .suspect || !pair1Up s then s
  else
    let code := match a with
      | none => 0
      | some false => 1
      | some true => 2
    let t := raise .peer .notice 337 0 [code] { s with pair := { s.pair with chainAnswer := a } }
    if t.peer.aliveIn then { t with peer := { t.peer with detect := .split } } else declareLoss 1 t

def execConfirmDeadline (chainAnswer : Option Bool) (s : State) : Res := run (.confirmDeadline chainAnswer) (confirmEffect chainAnswer) s

/-- SPLIT_YIELD (R337): head 1 enters SERVICE. -/
def splitYieldEffect (s : State) : State :=
  if s.peer.detect = .split ∧ s.glb.headId = true ∧ s.peer.role ≠ .service ∧ pair1Up s = true then
    let t := stepDown 2 s
    readmit { t with peer := { t.peer with detect := .noPeer } }
  else s

def execSplitYield (s : State) : Res := run .splitYield splitYieldEffect s

/-- SPLIT_LOSS_DEADLINE (R337): head 0 declares LOSS. -/
def splitLossEffect (s : State) : State := if s.peer.detect = .split ∧ s.glb.headId = false then declareLoss 2 s else s

def execSplitLossDeadline (s : State) : Res := run .splitLossDeadline splitLossEffect s

/-- PEER_ALIVE_IN_FALL (R337): low for 2 µs. -/
def aliveFallEffect (lowNs : Nat) (s : State) : State :=
  if lowNs < 2000 || !s.peer.aliveIn then s
  else
    let t := { s with peer := { s.peer with aliveIn := false } }
    if s.peer.detect = .split then (if s.glb.headId then t else declareLoss 2 t)
    else if s.peer.detect = .present then
      (if s.peer.peerRole = some .service then declareLoss 1 t else raise .peer .fault 337 1 [] t)
    else t

def execPeerAliveInFall (lowNs : Nat) (s : State) : Res := run (.peerAliveInFall lowNs) (aliveFallEffect lowNs) s

/-! ### Pairing and the first role (R334, R342, R116) -/

/-- The epoch with which a head starts (R342); of two heads that start together the newer one holds for both (DEDUCED). -/
def ownEpoch (s : State) : Word16 := s.til.rootEpoch + 256

def startEpoch (peerRole : Role) (e : Word16) (s : State) : Word16 :=
  if peerRole != .service then e else if genHigher e (ownEpoch s) then e else ownEpoch s

/-- A role at the end of START-UP. -/
def startRole (r : Role) (e : Word16) (s : State) : State :=
  let t := tellEpoch (setRole r 0 { s with peer := { s.peer with epoch := e } })
  match r with
  | .sole => claimPeerHeld (claimIdentified { t with peer := { t.peer with takeovers := (t.peer.takeovers + 1) % 2 ^ 64 } })
  | .active => claimIdentified t
  | .service => t

/-- The HELLO of this head. -/
def sendHello (s : State) : State :=
  emit (.peerMsg 0x02 s.peer.epoch [s.glb.unitSerial.toNat, if s.glb.headId then 1 else 0, s.pair.ownFw.toNat, s.ing.blocks,
    (slotOf s pairKey).idA.toNat, roleCode s.peer.role] []) s

/-- A head in SERVICE beside a SOLE peer asks to return (R344, step 1). -/
def askReturn (s : State) : State :=
  if s.pair.sameHead || s.pair.hungOver then s
  else toPeerTagged 0x24 [s.pair.ownFw.toNat] [] { s with pair := { s.pair with returning := true } }

/-- The role that a HELLO gives a head that has none (R334), once its pair 1 runs (R19). -/
def chooseRole (e : Word16) (s : State) : State :=
  let peer := s.peer.peerRole.getD .service
  let e0 := startEpoch peer e s
  if !pair1Up s then s
  else if s.glb.headId = s.pair.headId then
    raise .peer .critical 334 0 [] (startRole .service e0 { s with pair := { s.pair with sameHead := true } })
  else if peer = .sole then askReturn (startRole .service e0 s)
  else if !s.pair.keysMatch then
    raise .peer .fault 334 1 [] (startRole (if s.glb.headId then .service else .sole) e0 s)
  else startRole .active e0 s

/-- The smaller of the two staging sizes, with a Notice event where this head's is reduced (R116). -/
def exchangeSize (n : Nat) (s : State) : State :=
  if n < s.ing.blocks then raise .ing .notice 116 0 [n] (noteOccupancy { s with ing := { s.ing with blocks := n } }) else s

/-- Has START-UP ended, so that roles are chosen? -/
def rolesOpen (s : State) : Bool := s.glb.service == .normal || s.glb.service == .recovery || s.glb.service == .test

/-- HELLO (R334): the heads pair; a HELLO that finds no session is answered. A head that serves beside a session ignores one. -/
def helloEffect (h : PeerHdr) (serial : Word64) (head : Bool) (fw : Word32) (size : Nat) (keyId : Word64) (role : Role) (s : State) : State :=
  if !s.pins.coresOut || (s.peer.linkUp && s.peer.role == .active) then s
  else
    let first := !s.peer.linkUp
    let t := { s with
      pair := { s.pair with paired := true, serial := serial, headId := head, fwVersion := fw, keysMatch := keyId == (slotOf s pairKey).idA },
      peer := { s.peer with
        peerRole := some role, linkUp := true, lanes := if s.peer.lanes = 0 then 12 else s.peer.lanes, peerEpoch := h.epoch, noProgress := 0,
        aliveIn := s.peer.aliveIn || role != .service, detect := if s.peer.detect = .takeover then .takeover else .present } }
    let t := exchangeSize size t
    let t := if first then sendHello t else t
    if !rolesOpen t then t
    else if !t.peer.roleChosen then chooseRole h.epoch t
    else if t.peer.role = .service then
      let u := peerEpochSeen h.epoch t
      let u := if u.pair.swapWait then wakeBehind { u with pair := { u.pair with swapWait := false } } else u
      if role = .sole then askReturn u else u
    else t

def execHello (h : PeerHdr) (serial : Word64) (headId : Bool) (fwVersion : Word32) (stagingBlocks : Nat) (pairKeyId : Word64)
    (peerRole : Role) (s : State) : Res :=
  run (.hello h serial headId fwVersion stagingBlocks pairKeyId peerRole)
    (helloEffect h serial headId fwVersion stagingBlocks pairKeyId peerRole) s

/-- HELLO_TIMEOUT (R334): the role is chosen alone; with the peer neither present nor confirmed lost, none is yet. -/
def helloTimeoutEffect (present lost sole : Bool) (s : State) : State :=
  if s.peer.roleChosen || s.peer.linkUp || !rolesOpen s || !pair1Up s then s
  else if lost then startRole .sole (ownEpoch s) s
  else if present then
    (if sole then startRole .service (ownEpoch s) s
     else raise .peer .fault 334 2 [] (startRole (if s.glb.headId then .service else .sole) (ownEpoch s) s))
  else s

def execHelloTimeout (peerPresent peerLost peerSole : Bool) (s : State) : Res :=
  run (.helloTimeout peerPresent peerLost peerSole) (helloTimeoutEffect peerPresent peerLost peerSole) s

/-! ### The write path's messages (R31, R105, R121, R122) -/

/-- MIRROR (R31): the copy is stored, and acknowledged; a sleeping head wakes (R113). -/
def mirrorEffect (n lba : Nat) (g : Word16) (tenant : Nat) (tag : Option Word64) (block nblk : Nat) (data : Bytes) (s : State) : State :=
  if s.peer.role != .active then s
  else
    let rest := s.ing.mirror.filter fun m => !(m.nsid == n && m.lba == lba && m.gen == g)
    let t := wake { s with ing := { s.ing with mirror := rest ++ [⟨n, lba, g, data, tenant, tag, block, nblk, false⟩] } }
    toPeer 0x11 [n, lba, g.toNat] [] t

def execMirror (h : PeerHdr) (nsid : BitVec 14) (lba : Nat) (gen : Word16) (tenant : Nat) (tag : Option Word64) (block nblk : Nat)
    (data : Bytes) (s : State) : Res :=
  run (.mirror h nsid lba gen tenant tag block nblk data) (peerRow h (mirrorEffect nsid.toNat lba gen tenant tag block nblk data)) s

/-- MIRROR_ACK (R31): the block is acknowledged, and its command completes with the last of them. -/
def mirrorAckEffect (n lba : Nat) (g : Word16) (s : State) : State :=
  let l := modAll (fun e : StEntry => e.nsid == n && e.lba == lba && e.gen == g) (fun e => { e with mirrored := true }) s.ing.staging
  let t := { s with ing := { s.ing with staging := l } }
  match t.hqe.cmds.find? fun c => c.nsid == n && decide (c.lba ≤ lba) && c.gens[lba - c.lba]? == some g with
  | some c => completeWrite c.id (modCmd c.id (fun x => { x with acked := insertNat (lba - x.lba) x.acked }) t)
  | none => t

def execMirrorAck (h : PeerHdr) (nsid : BitVec 14) (lba : Nat) (gen : Word16) (s : State) : Res :=
  run (.mirrorAck h nsid lba gen) (peerRow h (mirrorAckEffect nsid.toNat lba gen)) s

/-- RELEASE (R122). -/
def releaseEffect (n lba : Nat) (g : Word16) (s : State) : State :=
  { s with ing := { s.ing with mirror := s.ing.mirror.filter fun m => !(m.nsid == n && m.lba == lba && genAtOrBelow m.gen g) } }

def execRelease (h : PeerHdr) (nsid : BitVec 14) (lba : Nat) (gen : Word16) (s : State) : Res :=
  run (.release h nsid lba gen) (peerRow h (releaseEffect nsid.toNat lba gen)) s

/-- SETTLE (R105): the copy of the peer's entry. -/
def settleEffect (t : Nat) (g : Word64) (n : Nat) (o : Fin 5) (k : Nat) (s : State) : State :=
  let rest := s.hqe.settle.filter fun e => !(e.ofPeer && e.tenant == t && e.tag == g)
  { s with hqe := { s.hqe with settle := rest ++ [⟨t, g, n, o, k, false, 65536, nowS s, s.hqe.order, true⟩], order := s.hqe.order + 1 } }

def execSettle (h : PeerHdr) (tenant : Nat) (tag : Word64) (nsid : BitVec 14) (outcome : Fin 5) (count : Nat) (s : State) : Res :=
  run (.settle h tenant tag nsid outcome count) (peerRow h (settleEffect tenant tag nsid.toNat outcome count)) s

/-! ### Relays over the link (R94, R334) -/

/-- The meaning of a relayed command 0x30 to 0x3F; whether the keys of a REPL PAIR agree is an open choice here. -/
def relayedSnap (w : Waiter) (s : State) : State :=
  let op := w.c.op
  if op = 0x30 then snapCommand cgSetDo w s
  else if op = 0x31 then snapCommand snapCreateStart w s
  else if op = 0x32 then snapCommand snapDeleteDo w s
  else if op = 0x33 then snapCommand (snapNow snapListCmd) w s
  else if op = 0x34 then snapCommand snapExposeDo w s
  else if op = 0x38 then snapCommand (replPairDo (relayIds w s) (relaySeals w s)) w s
  else if op = 0x39 then snapCommand replSendDo w s
  else if op = 0x3A then snapCommand replStopDo w s
  else if op = 0x3B then snapCommand (snapNow replStatusCmd) w s
  else if op = 0x3C then snapCommand ingestDo w s
  else answerCmd w 0x1001 0 s
where
  /-- Identifiers that agree with this head's, or none. -/
  relayIds (w : Waiter) (s : State) : List Word64 :=
    if freePick 2 s = 1 then domainIds (slotOf s (nsDomain s w.c.ns)) ++ (match (nsOf s w.c.ns).bind (·.keySlot) with
      | some k => if k = nsDomain s w.c.ns then [] else [(slotOf s k).idA]
      | none => [])
    else []
  relaySeals (w : Waiter) (s : State) : Bool := nsSeals s w.c.ns

/-- A command that the peer relays: executed here. -/
def relayedHere (c : HostCmd) (tenant : Option Nat) (s : State) : State :=
  let w : Waiter := ⟨relayedEntry c c.buf, tenant, .peer⟩
  if needsNormal c.op && s.glb.service != .normal then answerCmd w 0x7001 0 s
  else if c.op = 0x80 || c.op = 0x81 || c.op = 0x82 then routeIo w s
  else if c.op = 0x88 then admitQuery w s
  else relayedSnap w s

/-- The result of a command that this head relayed. -/
def relayResult (c : HostCmd) (status : Word16) (count result : Nat) (data : Bytes) (s : State) : State :=
  match s.hqe.cmds.find? fun x => x.stage == .relayed peerDst && x.q == c.q && x.cid == c.cid with
  | none => s
  | some x =>
    let t := if x.origin == .host then
        (if x.op == 0x81 then s else forEach (scatter x.bufs 0 data) (fun p u => toHost x.q p.1 p.2 u) s)
      else modCmd x.id (fun y => { y with gathered := [(0, data)] }) s
    finishCmd x.id status count result t

/-- RELAY (R94). -/
def execRelay (h : PeerHdr) (c : HostCmd) (tenant : Option Nat) (result : Option (Word16 × Nat × Nat × Bytes)) (s : State) : Res :=
  run (.relay h c tenant result)
    (peerRow h fun t => match result with
      | some r => relayResult c r.1 r.2.1 r.2.2.1 r.2.2.2 t
      | none => relayedHere c tenant t) s

/-! ### Granules, counts, job copies, keys (R345, R274, R336) -/

/-- GRANULE (R345): the granules are read for the peer; they go to it when the module has delivered them. -/
def granuleEffect (n die block page gran count : Nat) (s : State) : State :=
  if (laneOf s n).st != .held then s
  else farSend n ⟨0x10, false, die, block, page, 1, gran, count, []⟩
    { s with pair := { s.pair with granules := s.pair.granules ++ [(n, die, block, page, gran, count)] } }

def execGranule (h : PeerHdr) (lane : Fin 96) (die : BitVec 9) (block page gran count : Nat) (s : State) : Res :=
  run (.granule h lane die block page gran count) (peerRow h (granuleEffect lane.val die.toNat block page gran count)) s

/-- REF (R345): the owner of the chunk table applies the change; a count at 0 is never raised (R139). -/
def refEffect (no : Nat) (d : Int) (s : State) : State :=
  if d < 0 then dropRefs no d.natAbs s else if raisable s no d.natAbs then raiseRef no d.natAbs s else s

def execRef (h : PeerHdr) (chunk : Nat) (delta : Int) (s : State) : Res := run (.ref h chunk delta) (peerRow h (refEffect chunk delta)) s

/-- JOBCOPY (R274): a checkpoint is kept and acknowledged, or this head's own is. -/
def jobcopyEffect (c : JobCkpt) (ack : Bool) (s : State) : State :=
  if ack then
    let l := modAll (fun j : Job => sameJob (ckptOf s j) c) (fun j => { j with unacked := j.unacked - 1 }) s.par.jobs
    { s with par := { s.par with jobs := l } }
  else toPeer 0x17 [1] (ckptBytes c) { s with par := { s.par with mirrored := s.par.mirrored.filter (fun x => !sameJob x c) ++ [c] } }

def execJobcopy (h : PeerHdr) (j : JobCkpt) (isAck : Bool) (s : State) : Res := run (.jobcopy h j isAck) (peerRow h (jobcopyEffect j isAck)) s

/-- A slot takes the peer's content, with its persistent copy. -/
def syncedSlot (n : Nat) (k : Slot) (s : State) : State := persistSlot n (setSlot n k s)

/-- One change of the store that both heads keep (R336). -/
def syncEffect (i : SyncItem) (s : State) : State :=
  match i with
  | .slotFill n t owner exp m =>
    if 0x1FF0 ≤ n.toNat then s else syncedSlot n.toNat (filledSlot t owner exp m (m.drop 64 |>.any (· != 0))) s
  | .slotErase n => if 0x1FF0 ≤ n.toNat then s else syncedSlot n.toNat {} s
  | .tenantSet id g c dom relay shared =>
    let x : Tenant := { id := id, g := g, c := c, relay := relay, shared := shared, domain := dom }
    let ds := if s.hqe.domains.any fun d => d.id == dom then s.hqe.domains else s.hqe.domains ++ [{ id := dom }]
    { s with hqe := { s.hqe with tenants := s.hqe.tenants.filter (fun y => y.id != id) ++ [x], domains := ds } }
  | .tenantDelete id =>
    match tenantOf s id with
    | none => s
    | some x =>
      let l := modAll (fun e : Settle => e.tenant == id) (fun e => { e with pinned := false }) s.hqe.settle
      let t := { s with hqe := { s.hqe with tenants := s.hqe.tenants.filter (fun y => y.id != id), settle := l } }
      if t.hqe.tenants.any fun y => y.domain == x.domain then t
      else syncedSlot x.domain {} { t with hqe := { t.hqe with domains := t.hqe.domains.filter fun d => d.id != x.domain } }

/-- SYNC (R333, R336). -/
def execSync (h : PeerHdr) (item : SyncItem) (s : State) : Res := run (.sync h item) (taggedRow 0x18 h (syncEffect item)) s

/-! ### Notices that stand for a loss (R340, R228) -/

/-- PAIR_FAULT (R340). -/
def pairFaultEffect (pair : Nat) (s : State) : State := if pair = 1 ∧ s.peer.aliveIn = false then declareLoss 5 s else s

def execPairFault (h : PeerHdr) (pair : Fin 4) (s : State) : Res := run (.pairFault h pair) (peerRow h (pairFaultEffect pair.val)) s

/-- HANDOVER (R340). -/
def execHandover (h : PeerHdr) (s : State) : Res := run (.handover h) (taggedRow 0x21 h (declareLoss 3)) s

/-- POWER_LOSS (R228, R340): the claims wait. -/
def execPowerLoss (h : PeerHdr) (tNeed : Nat) (s : State) : Res := run (.powerLoss h tNeed) (peerRow h (declareLoss 4)) s

/-- The claims that waited for the peer's flush go out. -/
def allowClaims (s : State) : State :=
  if s.pair.claimsWait then takeoverClaims { s with pair := { s.pair with claimsWait := false } } else s

/-- FLUSH_DONE (R228); it comes after the session has ended. -/
def execFlushDone (h : PeerHdr) (s : State) : Res := run (.flushDone h) allowClaims s

/-- POWER_LOSS_CLAIM_DEADLINE (R228). -/
def execPowerLossClaimDeadline (s : State) : Res := run .powerLossClaimDeadline (fun t => allowClaims t) s

/-! ### The return of a repaired head (R344, R116) -/

/-- No rebuild is in its first pass. -/
def noFirstPass (s : State) : Bool := !(s.par.jobs.any fun j => j.kind == .rebuild && j.phase == 1)

/-- Everything that the returning head needs of keys and tenants (R344, step 3). -/
def syncAll (s : State) : State :=
  let t := forEach (s.sec.slots.filter fun p => decide (p.1 < 0x1FF0)) (fun p u =>
    toPeerTagged 0x18 [0, p.1, p.2.type.toNat, p.2.owner, if p.2.exportable then 1 else 0] (syncMaterial u p.2) u) s
  forEach s.hqe.tenants (fun x u =>
    toPeerTagged 0x18 [2, x.id, x.g, x.c, x.domain, if x.relay then 1 else 0, if x.shared then 1 else 0] [] u) t

/-- Both heads are ACTIVE at a new epoch, and what belongs to the returning head is still to be handed back. -/
def grantReturn (s : State) : State :=
  let t := syncAll s
  let t := { t with peer := { t.peer with epoch := t.peer.epoch + 1 } }
  let t := toPeerTagged 0x25 [] [] t
  tellEpoch <| setRole .active 7 { t with
    pair := { t.pair with handback := true, ckptAt := t.til.ckptSeq,
                          kept := (t.hqe.nss.filter fun n => n.owner != t.glb.headId).map (·.id) } }

/-- RETURN_REQ: granted, or left with a Notice event. No entry may stand in a slot at or above S (R116). -/
def returnReqEffect (fw : Word32) (s : State) : State :=
  if s.peer.role != .sole || !pair1Up s then s
  else if s.glb.service == .normal && noFirstPass s && fw == s.pair.ownFw && canTag s pairKey
      && s.ing.staging.all (fun e => decide (e.slot < s.ing.blocks)) then grantReturn s
  else raise .peer .notice 344 0 [] s

def execReturnReq (h : PeerHdr) (fwVersion : Word32) (s : State) : Res := run (.returnReq h fwVersion) (taggedRow 0x24 h (returnReqEffect fwVersion)) s

/-- RETURN_REQ_TIMER: the request is repeated until it is granted. -/
def returnTimerEffect (s : State) : State :=
  if s.peer.role == .service && s.pair.returning && pair1Up s then askReturn s else s

def execReturnReqTimer (s : State) : Res := run .returnReqTimer returnTimerEffect s

/-- RETURN_GRANT: ACTIVE, owning nothing yet. -/
def returnGrantEffect (s : State) : State :=
  if s.peer.role != .service || !s.pair.returning || s.pair.hungOver then s
  else setRole .active 7 { s with
    pair := { s.pair with returning := false, kept := (s.hqe.nss.filter fun n => n.owner == s.glb.headId).map (·.id) } }

def execReturnGrant (h : PeerHdr) (s : State) : Res := run (.returnGrant h) (taggedRow 0x25 h returnGrantEffect) s

/-- MODULE_RELEASE: the returning head claims the module (R250). -/
def moduleReleaseEffect (n : Nat) (s : State) : State :=
  if s.peer.role == .active && (laneOf s n).st == .peerHeld && isHome s n then takeModule n s else s

def execModuleRelease (h : PeerHdr) (lane : Fin 96) (s : State) : Res := run (.moduleRelease h lane) (taggedRow 0x26 h (moduleReleaseEffect lane.val)) s

/-- HANDBACK_DONE: the returning head owns its namespaces again, with the map roots and tables that it now loads. -/
def handbackDoneEffect (s : State) : State :=
  if s.peer.role = .active then readmit (loadHead s.glb.headId { s with pair := { s.pair with kept := [] } }) else s

def execHandbackDone (h : PeerHdr) (s : State) : Res := run (.handbackDone h) (taggedRow 0x27 h handbackDoneEffect) s

/-- STALE (R341): the refusing head's epoch. -/
def execStale (h : PeerHdr) (peerEpoch : Word16) (s : State) : Res := run (.stale h peerEpoch) (peerRow h (peerEpochSeen peerEpoch)) s

/-- PEER_STAGING_LIMIT (R225): the smaller of the two limits is in force. -/
def execPeerStagingLimit (h : PeerHdr) (sLim : Option Nat) (s : State) : Res :=
  run (.peerStagingLimit h sLim) (peerRow h fun t => readmit { t with ing := { t.ing with peerSLim := sLim } }) s

/-! ### Control pairs (R343, R275) -/

def pairOf (s : State) (n : Nat) : CtrlPair :=
  if n = 0 then s.peer.pair0 else if n = 1 then s.peer.pair1 else if n = 2 then s.peer.pair2 else s.peer.pair3

def modPair (n : Nat) (f : CtrlPair → CtrlPair) (s : State) : State :=
  if n = 0 then { s with peer := { s.peer with pair0 := f s.peer.pair0 } }
  else if n = 1 then { s with peer := { s.peer with pair1 := f s.peer.pair1 } }
  else if n = 2 then { s with peer := { s.peer with pair2 := f s.peer.pair2 } }
  else { s with peer := { s.peer with pair3 := f s.peer.pair3 } }

/-- A head whose pair has failed for good hands over: HANDOVER while pair 1 can send it, otherwise PEER_ALIVE_OUT drops; it
stays in SERVICE. A SOLE head has nobody to hand over to (R334 gives it no such change). -/
def handOver (s : State) : State :=
  if s.peer.role = .active then
    let t := if pair1Up s then toPeerTagged 0x21 [] [] s else s
    let u := stepDown 5 { t with pair := { t.pair with hungOver := true, returning := false, swapWait := false } }
    { u with peer := { u.peer with linkUp := u.peer.linkUp && !pair1Up s } }
  else s

/-- A mismatch within 600 s of the one before. -/
def tooSoon (s : State) (n : Nat) : Bool :=
  match (pairOf s n).lastAt with
  | some t => decide (nowS s < t + 600)
  | none => false

/-- An update activation under way is abandoned as pair 0 fails; the banks stay as they were. -/
def pairHeld (n : Nat) (s : State) : State :=
  if n = 0 then { s with svc := { s.svc with stage := 0, stagedOk := false } }
  else if n = 3 then { s with par := { s.par with jobs := s.par.jobs.map fun j => { j with paused := true } } }
  else s

/-- LOCKSTEP_MISMATCH (R343, R33): the pair is held in reset, and PAIR_FAULT goes out. -/
def mismatchEffect (n : Nat) (s : State) : State :=
  if !s.glb.powered || s.glb.resetHeld then s
  else if s.glb.service = .startUp ∧ n = 0 then chipWideReset .lockstep0 s
  else
    let again := tooSoon s n
    let t := modPair n (fun p => { p with inReset := true, faults := satAdd 0xFF p.faults 1, lastAt := some (nowS s) }) s
    let t := noteAlive (pairHeld n (toPeer 0x20 [n] [] t))
    if again then handOver t else t

def execLockstepMismatch (pair : Fin 4) (s : State) : Res := run (.lockstepMismatch pair) (mismatchEffect pair.val) s

/-- Pair 1 runs again on a head without a role: a HELLO that came meanwhile is acted on (R19, R334). -/
def pairOneBack (s : State) : State := if s.peer.linkUp && rolesOpen s then chooseRole s.peer.peerEpoch s else s

/-- A paused job goes on from its checkpoint: what the pair held only in memory is discarded (R275). -/
def fromCkpt (s : State) (j : Job) : Job :=
  match s.par.ckpts.find? (sameJob (ckptOf s j)) with
  | some c => { j with paused := false, phase := c.phase.toNat, cursor := c.cursor, done := c.done, granules := c.granules, sinceCkpt := 0 }
  | none => { j with paused := false }

/-- PAIR_RESTART (R343): the pair runs again from its image; the head whose pair 1 failed returns in SERVICE, and paused jobs go
on from their checkpoints (R275). -/
def restartEffect (n : Nat) (s : State) : State :=
  if !(pairOf s n).inReset then s
  else
    let t := modPair n (fun p => { p with inReset := false }) s
    if n = 1 then noteAlive (if !t.peer.roleChosen then pairOneBack t else if t.peer.role = .sole then claimPeerHeld (claimIdentified t)
      else if t.peer.role = .active then stepDown 5 { t with peer := { t.peer with linkUp := false, detect := .noPeer } } else t)
    else if n = 3 then { t with par := { t.par with jobs := t.par.jobs.map (fromCkpt t) } }
    else t

def execPairRestart (pair : Fin 4) (s : State) : Res := run (.pairRestart pair) (restartEffect pair.val) s

/-- PAIR_RETURN_DEADLINE (R343): not back within 1 s. -/
def execPairReturnDeadline (pair : Fin 4) (s : State) : Res :=
  run (.pairReturnDeadline pair) (fun t => if (pairOf t pair.val).inReset then handOver t else t) s

/-- PAIR3_PAUSE_DEADLINE (R275): the head is handed over as a failed head. -/
def execPair3PauseDeadline (s : State) : Res := run .pair3PauseDeadline (fun t => if t.peer.pair3.inReset then handOver t else t) s

/-- WDOG_WRITE (R337). -/
def wdogWriteEffect (v : Word32) (s : State) : State :=
  if pair1Up s then noteAlive { s with peer := { s.peer with wdog := v, wdogFresh := true } } else s

def execWdogWrite (value : Word32) (s : State) : Res := run (.wdogWrite value) (wdogWriteEffect value) s

/-- WDOG_LAPSE (R337). -/
def execWdogLapse (s : State) : Res := run .wdogLapse (fun t => noteAlive { t with peer := { t.peer with wdogFresh := false } }) s

/-! ### The scheduled role swap (R344) -/

/-- The start conditions of a role swap, apart from the schedule. -/
def swapAllowed (s : State) : Bool :=
  s.peer.role == .active && s.peer.peerRole == some .active && s.peer.linkUp && s.glb.service == .normal && s.pair.service == .normal
    && noFirstPass s && !(s.par.jobs.any fun j => j.kind == .reshape) && decide (40 ≤ freePermille s)

/-- Steps 1 to 3 begin: admission stops. -/
def beginSwap (reset : Bool) (s : State) : State := 
  swapStep { s with pair := { s.pair with swapWait := true, resetAfter := reset, ckptAt := s.til.ckptSeq } }

/-- ROLE_SWAP_DUE: the heads take turns. -/
def roleSwapEffect (s : State) : State :=
  if s.peer.swapDays = 0 || s.pair.swapWait then s
  else if !swapAllowed s then raise .peer .notice 344 1 [] s
  else
    let mine := s.peer.swapHead == s.glb.headId
    let t := { s with peer := { s.peer with swapHead := !s.peer.swapHead, swapLeft := s.peer.swapDays } }
    if mine then beginSwap false t else { t with pair := { t.pair with swapPeer := true } }

def execRoleSwapDue (s : State) : Res := run .roleSwapDue roleSwapEffect s

end Sys2Proof.Machine
end

