-- ==== Sys2Proof/Machine/Chain.lean ====
section
/-! DEFINITION. The management chain: frames and forwarding (R366 to R368), breaks (R369, R370), the master, addresses and the
table (R371 to R375), the presence query (R376), time and epochs (R377, R378). -/

namespace Sys2Proof.Machine

/-! ### Frames -/

def chainPort (s : State) (p : Fin 2) : ChainPort := if p = 0 then s.mch.port0 else s.mch.port1

def modChain (p : Fin 2) (f : ChainPort → ChainPort) (s : State) : State :=
  if p = 0 then { s with mch := { s.mch with port0 := f s.mch.port0 } } else { s with mch := { s.mch with port1 := f s.mch.port1 } }

/-- Does a frame stand at this chip's port-0 pass? One that arrives on port 1 does where port 0 is wrapped, since each chip
of a folded ring still receives it once on port 0 (DEDUCED from R369). -/
def onPass (s : State) (h : ChainHdr) : Bool := h.port == 0 || s.mch.port0.wrapped

/-- The output that a passing frame leaves through. -/
def outputOf (s : State) (h : ChainHdr) : Fin 2 :=
  if onPass s h then (if s.mch.port1.wrapped then 0 else 1) else 0

/-- The frame goes on, unless it is this chip's own on its return, or HOPS reaches 128 (R368). -/
def forward (h : ChainHdr) (type : Nat) (args : List Nat) (s : State) : State :=
  if onPass s h && h.origin == s.glb.unitSerial then s
  else if 128 ≤ h.hops + 1 then { s with mch := { s.mch with hopsDrop := (s.mch.hopsDrop + 1) % 2 ^ 64 } }
  else emit (.chain (outputOf s h) (BitVec.ofNat 8 type) (h.hops + 1) h.origin args) s

/-- Control pair 2 handles frames once the cores run, and not while it is held in reset (R368, R343). -/
def pair2Up (s : State) : Bool := s.pins.coresOut && !s.peer.pair2.inReset

/-- A frame that arrives on a port that is closed, or before MCH drives its outputs, reaches nothing. -/
def chainDead (s : State) (h : ChainHdr) : Bool := !s.pins.chainDriven || (chainPort s h.port).wrapped

/-- A frame for control pair 2: on its port-0 pass the pair acts, and the frame goes on unchanged. -/
def pairFrame (h : ChainHdr) (type : Nat) (args : List Nat) (f : State → State) (s : State) : State :=
  if chainDead s h then s
  else
    let t := forward h type args s
    if onPass s h && pair2Up s then f t else t

/-- Is the frame this chip's own, come back? -/
def ownFrame (s : State) (h : ChainHdr) : Bool := h.origin == s.glb.unitSerial

/-! ### Breaks (R369, R370) -/

/-- A port declares its link broken, and wraps. -/
def breakPort (p : Fin 2) (s : State) : State :=
  raise .mch .fault 369 0 [p.val] (modChain p (fun x =>
    { link := 1, wrapped := true, breaks := satAdd 0xFFFF x.breaks 1, sentOk := false, gotOk := false, bad := [] }) s)

def silentEffect (p : Fin 2) (s : State) : State :=
  if !s.pins.chainDriven || (chainPort s p).link == 1 then s else breakPort p s

/-- CHAIN_LINK_SILENT. -/
def execChainLinkSilent (port : Fin 2) (s : State) : Res := run (.chainLinkSilent port) (silentEffect port) s

/-- CHAIN_BREAK: a BREAK breaks a port that is up. A port that awaits LINK_OK stays qualified, since its neighbour sends BREAK until
it qualifies in turn (DEDUCED). -/
def breakEffect (p : Fin 2) (s : State) : State :=
  if !s.pins.chainDriven || (chainPort s p).link != 0 then s else breakPort p s

def execChainBreak (port : Fin 2) (s : State) : Res := run (.chainBreak port) (breakEffect port) s

/-- The port opens again once LINK_OK has gone both ways (R370). -/
def unwrapCheck (p : Fin 2) (s : State) : State :=
  let x := chainPort s p
  if x.link == 2 && x.sentOk && x.gotOk then
    raise .mch .notice 370 0 [p.val] (modChain p (fun y => { y with link := 0, wrapped := false, sentOk := false, gotOk := false }) s)
  else s

/-- CHAIN_BREAK_TIMER: BREAK from a broken port, LINK_OK from a qualified one, on its own output. -/
def breakTimerEffect (p : Fin 2) (s : State) : State :=
  if !s.pins.chainDriven then s
  else if (chainPort s p).link == 1 then emit (.chain p 0x01 0 s.glb.unitSerial []) s
  else if (chainPort s p).link == 2 then
    unwrapCheck p (modChain p (fun x => { x with sentOk := true }) (emit (.chain p 0x02 0 s.glb.unitSerial []) s))
  else s

def execChainBreakTimer (port : Fin 2) (s : State) : Res := run (.chainBreakTimer port) (breakTimerEffect port) s

/-- CHAIN_PORT_QUALIFY. -/
def qualifyEffect (p : Fin 2) (s : State) : State :=
  if !s.pins.chainDriven || (chainPort s p).link != 1 then s else modChain p (fun x => { x with link := 2 }) s

def execChainPortQualify (port : Fin 2) (s : State) : Res := run (.chainPortQualify port) (qualifyEffect port) s

/-- CHAIN_LINK_OK. -/
def linkOkEffect (p : Fin 2) (s : State) : State :=
  if !s.pins.chainDriven || (chainPort s p).link == 0 then s else unwrapCheck p (modChain p (fun x => { x with gotOk := true }) s)

def execChainLinkOk (port : Fin 2) (s : State) : Res := run (.chainLinkOk port) (linkOkEffect port) s

/-- CHAIN_BAD_FRAME (R367, R369): discarded and counted; the sixteenth within 1 ms breaks the port. -/
def badFrameEffect (p : Fin 2) (nowUs : Nat) (s : State) : State :=
  if !s.pins.chainDriven then s
  else
    let t := { s with mch := { s.mch with crcErr := (s.mch.crcErr + 1) % 2 ^ 64 } }
    let l := ((chainPort s p).bad.filter fun u => decide (nowUs < u + 1000)) ++ [nowUs]
    if (chainPort s p).link == 1 then t
    else if 16 ≤ l.length then breakPort p t else modChain p (fun x => { x with bad := l }) t

def execChainBadFrame (port : Fin 2) (nowUs : Nat) (s : State) : Res := run (.chainBadFrame port nowUs) (badFrameEffect port nowUs) s

/-! ### Federation ID and rank -/

/-- R374: bytes 0 to 4 of the identifier of the key in slot 0x1FF1. -/
def ownFedId (s : State) : Bytes :=
  let k := slotOf s 0x1FF1
  if k.state = .empty then zeros 5 else leBytes 5 k.idA.toNat

/-- Does the first chip rank above the second (R371): higher GEN, then HEAD_ID 0, then the lower serial? -/
def ranksAbove (g : Word16) (h : Bool) (x : Word64) (g' : Word16) (h' : Bool) (y : Word64) : Bool :=
  decide (g'.toNat < g.toNat) || (g == g' && ((!h && h') || (h == h' && decide (x.toNat < y.toNat))))

/-- Does another chip rank above this one? -/
def outranked (s : State) (g : Word16) (h : Bool) (x : Word64) : Bool := ranksAbove g h x s.mch.gen s.glb.headId s.glb.unitSerial

/-! ### Addresses (R372, R373) -/

/-- The address rule of R372. -/
def enumAddress (head pairKnown : Bool) (peerSerial : Word64) (next : Byte) (lastHead : Bool) (lastSerial : Word64) : Byte :=
  let n := next.toNat
  let a := if n % 2 = (if head then 1 else 0) then n else n + 1
  if (head && !lastHead && pairKnown && lastSerial != peerSerial) || decide (63 < a) then 0xFF else BitVec.ofNat 8 a

/-- This chip's address after an ENUM; none is 0xFF. -/
def takeAddress (a : Byte) (s : State) : State :=
  { s with mch := { s.mch with addrValid := a != 0xFF, address := if a = 0xFF then 0 else a.setWidth 6 } }

/-- The eight TABLE frames (R372). -/
def sendTable (s : State) : State :=
  forEach (List.range 8) (fun g t =>
    let l := (List.range 8).map fun i => (tabGet 0 (8 * g + i) t.mch.table).toNat
    let present := (List.range 8).foldl (fun n i => n + flag (tabGet 0 (8 * g + i) t.mch.table != 0) i) 0
    chainSend 0x12 ([t.mch.gen.toNat, g, present, leNat t.mch.fedId] ++ l) t) s

/-- A re-enumeration is complete at this chip: path sets, DUPLICATE and ISOLATED end; a chip without an address says so. -/
def enumComplete (s : State) : State :=
  let l := s.rdm.paths.map fun p => (p.1, { p.2 with state := 0, ports := [], seen := [] })
  let t := { s with
    mch := { s.mch with enums := (s.mch.enums + 1) % 2 ^ 64 },
    rdm := { s.rdm with paths := l.filter fun p => p.2 != ({} : Path), fedState := if s.mch.addrValid then 1 else 0 } }
  let t := if t.mch.addrValid then modPath t.mch.address.toNat (fun x => { x with state := 3 }) t
    else raise .mch .fault 372 0 [] t
  settleLost t

/-- The ENUM of the master. -/
def sendEnum (s : State) : State :=
  chainSend 0x11 [s.mch.address.toNat + 1, if s.glb.headId then 1 else 0, s.mch.gen.toNat, leNat s.mch.fedId, s.glb.unitSerial.toNat]
    { s with mch := { s.mch with enumOut := true } }

/-- The master enumerates (R372): the next GEN, an empty table, its own address, and ENUM goes out. -/
def startEnum (s : State) : State :=
  let a := enumAddress s.glb.headId s.pair.paired s.pair.serial 0 true 0
  let t := takeAddress a { s with
    mch := { s.mch with gen := s.mch.gen + 1, table := [], groups := [], fedId := ownFedId s, reenum := false } }
  sendEnum { t with mch := { t.mch with table := tabPut 0 a.toNat t.glb.unitSerial t.mch.table } }

/-- The serials of the addresses that the ENUM gave out. The frame does not carry them: free values. -/
def fillTable : Nat → Nat → State → State
  | 0, _, s => s
  | n + 1, a, s =>
    if tabGet 0 a s.mch.table != 0 then fillTable n (a + 1) s
    else
      let x := BitVec.ofNat 64 (leNat (freeBytes 8 s))
      fillTable n (a + 1) (tick { s with mch := { s.mch with table := tabPut 0 a x s.mch.table } })

/-- The ENUM is back at the master: the table is whole and is broadcast. -/
def enumBack (next : Byte) (s : State) : State :=
  let t := fillTable next.toNat 0 { s with mch := { s.mch with enumOut := false } }
  sendTable (enumComplete { t with mch := { t.mch with groups := List.range 8 } })

/-- ENUM on a chip's port-0 pass: the address, and the frame goes on with what the rule writes into it. -/
def enumPass (h : ChainHdr) (next : Byte) (lastHead : Bool) (gen : Word16) (fedId : Bytes) (lastSerial : Word64) (s : State) : State :=
  if padTo 5 fedId != ownFedId s then
    forward h 0x11 [next.toNat, if lastHead then 1 else 0, gen.toNat, leNat (padTo 5 fedId), lastSerial.toNat] (takeAddress 0xFF s)
  else
    let a := enumAddress s.glb.headId s.pair.paired s.pair.serial next lastHead lastSerial
    forward h 0x11 [(if a = 0xFF then next else a + 1).toNat, if s.glb.headId then 1 else 0, gen.toNat, leNat (padTo 5 fedId), s.glb.unitSerial.toNat]
      (takeAddress a s)

def enumEffect (h : ChainHdr) (next : Byte) (lastHead : Bool) (gen : Word16) (fedId : Bytes) (lastSerial : Word64) (s : State) : State :=
  if chainDead s h then s
  else if !(onPass s h && pair2Up s) then
    forward h 0x11 [next.toNat, if lastHead then 1 else 0, gen.toNat, leNat (padTo 5 fedId), lastSerial.toNat] s
  else if ownFrame s h then (if s.mch.role = .master ∧ s.mch.enumOut = true ∧ gen = s.mch.gen then enumBack next s else s)
  else enumPass h next lastHead gen fedId lastSerial s

/-- ENUM. -/
def execEnum (h : ChainHdr) (next : Byte) (lastHead : Bool) (gen : Word16) (fedId : Bytes) (lastSerial : Word64) (s : State) : Res :=
  run (.enum h next lastHead gen fedId lastSerial) (enumEffect h next lastHead gen fedId lastSerial) s

/-- ENUM_TIMEOUT: the master sends it again. -/
def enumTimeoutEffect (s : State) : State :=
  if s.mch.role = .master ∧ s.mch.enumOut = true ∧ pair2Up s = true then sendEnum s else s

def execEnumTimeout (s : State) : Res := run .enumTimeout enumTimeoutEffect s

/-- A group of the table reaches a member. -/
def takeGroup (gen : Word16) (g : Fin 8) (fedId : Bytes) (serials : List Word64) (s : State) : State :=
  let s := if gen = s.mch.gen then s else { s with mch := { s.mch with gen := gen, table := [], groups := [] } }
  let was := s.mch.groups.length
  let t := forEach (List.range 8) (fun i u =>
    { u with mch := { u.mch with table := tabPut 0 (8 * g.val + i) (serials.getD i 0) u.mch.table } }) s
  let t := { t with mch := { t.mch with groups := insertNat g.val t.mch.groups, fedId := padTo 5 fedId } }
  if t.mch.groups.length = 8 ∧ was < 8 then enumComplete t else t

/-- TABLE. -/
def execTable (h : ChainHdr) (gen : Word16) (group : Fin 8) (present : Byte) (fedId : Bytes) (serials : List Word64) (s : State) : Res :=
  run (.table h gen group present fedId serials)
    (fun t => pairFrame h 0x12 ([gen.toNat, group.val, present.toNat, leNat (padTo 5 fedId)] ++ serials.map (·.toNat))
      (fun u => if ownFrame t h || u.mch.role == .master then u else takeGroup gen group fedId serials u) t) s

/-- TABLE_REBROADCAST_TIMER: the master's table, while no ENUM is out. -/
def rebroadcastEffect (s : State) : State :=
  if s.mch.role = .master ∧ s.mch.enumOut = false ∧ pair2Up s = true then sendTable s else s

def execTableRebroadcastTimer (s : State) : Res := run .tableRebroadcastTimer rebroadcastEffect s

/-- The address of a serial in the table. -/
def heldAddress (s : State) (x : Word64) : Option Nat :=
  if x = 0 then none else (s.mch.table.find? fun p => p.2 == x).map (·.1)

def addrFree (s : State) (a : Nat) : Bool := tabGet 0 a s.mch.table == 0

/-- The address of a joiner, in the order of R373. -/
def joinAddress (s : State) (serial : Word64) (head : Bool) (peerSerial : Word64) : Option Nat :=
  match heldAddress s serial with
  | some a => some a
  | none =>
    let beside := match heldAddress s peerSerial with
      | some a => if addrFree s (a ^^^ 1) then some (a ^^^ 1) else none
      | none => none
    beside.orElse fun _ => (List.range 64).find? fun a => (a % 2 == if head then 1 else 0) && addrFree s a && addrFree s (a ^^^ 1)

/-- The master answers a JOIN; the table is broadcast after a change. -/
def joinEffect (serial : Word64) (head : Bool) (peerSerial : Word64) (s : State) : State :=
  if s.mch.role != .master || s.mch.enumOut then s
  else
    match joinAddress s serial head peerSerial with
    | none => chainSend 0x14 [0xFF, serial.toNat] s
    | some a =>
      let t := chainSend 0x14 [a, serial.toNat] { s with mch := { s.mch with table := tabPut 0 a serial s.mch.table } }
      if t.mch.table = s.mch.table then t else sendTable t

/-- JOIN. -/
def execJoin (h : ChainHdr) (headId : Bool) (peerSerial : Word64) (s : State) : Res :=
  run (.join h headId peerSerial) (fun t => pairFrame h 0x13 [if headId then 1 else 0, peerSerial.toNat]
    (fun u => if ownFrame t h then u else joinEffect h.origin headId peerSerial u) t) s

/-- The JOIN frame of this chip (R373). -/
def sendJoin (s : State) : State :=
  chainSend 0x13 [if s.glb.headId then 1 else 0, if s.pair.paired then s.pair.serial.toNat else 0] s

/-- A chip whose firmware becomes ready while a master exists joins (R373). -/
def beginJoin (s : State) : State :=
  if s.mch.role = .member then sendJoin { s with mch := { s.mch with joining := true } } else s

/-- JOIN_TIMER. -/
def execJoinTimer (s : State) : Res := run .joinTimer (fun t => onlyIf (t.mch.joining && pair2Up t) sendJoin t) s

/-- JOIN_ACK names this chip: it takes its address, or records the refusal. A chip of another FED_ID takes none (R374). -/
def joinAckEffect (a : Byte) (s : State) : State :=
  let t := { s with mch := { s.mch with joining := false } }
  if 63 < a.toNat then raise .mch .critical 373 0 [] t
  else if s.mch.fedId != ownFedId s then t
  else
    let t := takeAddress a t
    modPath a.toNat (fun x => { x with state := 3, ports := [] })
      { t with rdm := { t.rdm with fedState := if t.rdm.fedState = 2 then 2 else 1 } }

/-- JOIN_ACK. -/
def execJoinAck (h : ChainHdr) (address : Byte) (serial : Word64) (s : State) : Res :=
  run (.joinAck h address serial) (fun t => pairFrame h 0x14 [address.toNat, serial.toNat]
    (fun u => if u.mch.joining && serial == u.glb.unitSerial then joinAckEffect address u else u) t) s

/-! ### Duplicate addresses (R361, R375) -/

/-- A notice: the address is marked, a chip that it names is isolated, and the master re-enumerates 100 ms after the last one. -/
def duplicateEffect (a : Nat) (x y : Word64) (s : State) : State :=
  let t := markDuplicate a s
  let t := if x == t.glb.unitSerial || y == t.glb.unitSerial then enterIsolated t else t
  if t.mch.role = .master then { t with mch := { t.mch with reenum := true } } else t

/-- DUPLICATE. -/
def execDuplicate (h : ChainHdr) (address : Byte) (serialA serialB : Word64) (s : State) : Res :=
  run (.duplicate h address serialA serialB)
    (fun t => pairFrame h 0x15 [address.toNat, serialA.toNat, serialB.toNat] (duplicateEffect address.toNat serialA serialB) t) s

/-- REENUM_DELAY_EXPIRY (R375). -/
def reenumEffect (s : State) : State :=
  if s.mch.role = .master ∧ s.mch.reenum = true ∧ pair2Up s = true then startEnum s else s

def execReenumDelayExpiry (s : State) : Res := run .reenumDelayExpiry reenumEffect s

/-! ### The master (R371) -/

/-- A candidate becomes master; with GEN 0 it enumerates (R372). -/
def becomeMaster (s : State) : State :=
  let t := { s with mch := { s.mch with role := .master, joining := false } }
  if t.mch.gen = 0 then startEnum t else t

def electEffect (h : ChainHdr) (gen : Word16) (headId : Bool) (s : State) : State :=
  let args := [gen.toNat, if headId then 1 else 0]
  if chainDead s h then s
  else if !(onPass s h && pair2Up s) || s.mch.role != .candidate then forward h 0x10 args s
  else if ownFrame s h then becomeMaster s
  else if outranked s gen headId h.origin then forward h 0x10 args s
  else s

/-- ELECT. -/
def execElect (h : ChainHdr) (gen : Word16) (headId : Bool) (s : State) : Res := run (.elect h gen headId) (electEffect h gen headId) s

/-- ELECT_TIMER. -/
def execElectTimer (s : State) : Res :=
  run .electTimer (fun t => onlyIf (t.mch.role == .candidate && pair2Up t)
    (fun u => chainSend 0x10 [u.mch.gen.toNat, if u.glb.headId then 1 else 0] u) t) s

/-- MASTER_TIMEOUT: no TIME for 50 ms. -/
def masterTimeoutEffect (s : State) : State :=
  if pair2Up s = true ∧ s.mch.role ≠ .master then { s with mch := { s.mch with role := .candidate } } else s

def execMasterTimeout (s : State) : Res := run .masterTimeout masterTimeoutEffect s

/-! ### Presence query (R376) -/

/-- The reply area that the chip whose serial matches fills. -/
def queryReply (s : State) : Bytes :=
  [1, BitVec.ofNat 8 (serviceCode s.glb.service), BitVec.ofNat 8 (roleCode s.peer.role),
    BitVec.ofNat 8 (flag s.peer.aliveOut 0 + flag s.peer.wdogFresh 1)] ++ leBytes 2 s.peer.epoch.toNat ++ [0, 0]

/-- QUERY, which MCH hardware handles: filled by its target, read by its sender on its return, and otherwise passed on. -/
def queryEffect (h : ChainHdr) (reply : Bytes) (target : Word64) (s : State) : State :=
  if chainDead s h then s
  else if onPass s h && ownFrame s h then
    { s with pair := { s.pair with chainAnswer := some (padTo 8 reply != zeros 8) } }
  else
    let r := if onPass s h && target == s.glb.unitSerial then queryReply s else padTo 8 reply
    forward h 0x20 [leNat r, target.toNat] s

def execQuery (h : ChainHdr) (reply : Bytes) (target : Word64) (s : State) : Res := run (.query h reply target) (queryEffect h reply target) s

/-! ### Time and epochs (R377, R378) -/

/-- TIME from another chip: the clock is set; of two masters that meet the lower-ranked stops, and the survivor re-enumerates
where their tables differ. -/
def timeEffect (h : ChainHdr) (fedTime : Word64) (gen : Word16) (masterHead sameTable : Bool) (s : State) : State :=
  let set := { s with mch := { s.mch with role := .member, fedTime := fedTime + BitVec.ofNat 64 (320 * h.hops) } }
  if s.mch.role = .master then
    (if outranked s gen masterHead h.origin then { set with mch := { set.mch with enumOut := false, reenum := false } }
    else if sameTable then s else startEnum s)
  else set

/-- TIME. -/
def execTime (h : ChainHdr) (fedTime : Word64) (gen : Word16) (masterHead sameTable : Bool) (s : State) : Res :=
  run (.time h fedTime gen masterHead sameTable) (fun t => pairFrame h 0x30 [fedTime.toNat]
    (fun u => if ownFrame t h then u else timeEffect h fedTime gen masterHead sameTable u) t) s

/-- TIME_TIMER: the master's clock, sent every 10 ms. -/
def timeTimerEffect (x : Word64) (s : State) : State :=
  if s.mch.role = .master ∧ pair2Up s = true then chainSend 0x30 [x.toNat] { s with mch := { s.mch with fedTime := x } } else s

def execTimeTimer (fedTime : Word64) (s : State) : Res := run (.timeTimer fedTime) (timeTimerEffect fedTime) s

/-- FED_TIME_INFO_TIMER: the hourly Info event. -/
def execFedTimeInfoTimer (s : State) : Res :=
  run .fedTimeInfoTimer (fun t => raiseIf (pair2Up t) .mch .info 377 0 [t.mch.fedTime.toNat, (stampSeconds t).toNat] t) s

/-- The role that an EPOCH frame gives for a chip of another pair (R16). -/
def heardRole (a : Nat) (r : Role) (e : Word16) (s : State) : State :=
  if staleFrom s a e || (s.mch.addrValid && a / 2 == s.mch.address.toNat / 2) then s
  else modPath a (fun x => { x with role := Fin.ofNat 4 (roleCode r) }) s

/-- EPOCH: adopted under R341. -/
def execEpoch (h : ChainHdr) (address : Byte) (role : Role) (service : Service) (e : Word16) (s : State) : Res :=
  run (.epoch h address role service e)
    (fun t => pairFrame h 0x31 [address.toNat, roleCode role, serviceCode service, e.toNat]
      (fun u => if ownFrame t h then u else learnEpoch address.toNat e (heardRole address.toNat role e u)) t) s

/-- EPOCH_TIMER. -/
def execEpochTimer (s : State) : Res := run .epochTimer (fun t => onlyIf (pair2Up t) tellEpoch t) s

end Sys2Proof.Machine
end

