-- ==== Sys2Proof/Machine/Vault.lean ====
section
/-! DEFINITION. The vault engine's queue, suspension and self-test (R175 to R179), and the rows of the key commands, of which those
that wrap, unwrap or compute a CMAC are requests of that queue. -/

namespace Sys2Proof.Machine

def modVault (f : Vault → Vault) (s : State) : State := { s with sec := { s.sec with vault := f s.sec.vault } }

/-- Requests in the queue. -/
def vaultQueued (v : Vault) : Nat := v.urgent.length + v.normal.length

/-- Put a request into its class. -/
def vaultPut (r : VaultReq) (v : Vault) : Vault :=
  if r.urgent then { v with urgent := v.urgent ++ [r] } else { v with normal := v.normal ++ [r] }

/-- A request that waits outside enters when the queue has a place. -/
def vaultPromote (v : Vault) : Vault :=
  match v.outside with
  | r :: rest => if vaultQueued v < 64 then vaultPut r { v with outside := rest } else v
  | [] => v

/-- A request arrives. A NORMAL one that finds the queue full waits outside it; an URGENT one, which no NORMAL request may precede,
takes the place of the last NORMAL one, or waits ahead of those outside. -/
def vaultEnter (r : VaultReq) (v : Vault) : Vault :=
  if vaultQueued v < 64 then vaultPut r v
  else if !r.urgent then { v with outside := v.outside ++ [r] }
  else
    match v.normal.getLast? with
    | some x => { v with urgent := v.urgent ++ [r], normal := v.normal.dropLast, outside := x :: v.outside }
    | none => { v with outside := (v.outside.filter (·.urgent)) ++ [r] ++ v.outside.filter fun x => !x.urgent }

/-- Start the next work of an idle engine: an URGENT request; then what was suspended; then a NORMAL request, and with
nothing queued a self-test that is due. During a test only URGENT requests are served, and the test then goes on. -/
def vaultNext (v : Vault) : Vault :=
  if v.out || v.running.isSome then v
  else
    match v.urgent with
    | r :: rest => vaultPromote { v with running := some r, urgent := rest, testHeld := v.testing }
    | [] =>
      if v.testing then { v with testHeld := false }
      else
        match v.suspended with
        | some r => { v with running := some r, suspended := none, saved := none }
        | none =>
          match v.normal with
          | r :: rest => vaultPromote { v with running := some r, normal := rest }
          | [] => if v.testDue then { v with testing := true, testDue := false } else v

/-- May the running request be suspended: a NORMAL CMAC, with none suspended before (R177). -/
def vaultSuspendable (v : Vault) : Bool :=
  v.suspended.isNone && match v.running with
    | some r => !r.urgent && r.op == .cmac
    | none => false

/-- The key command that waits for a request. -/
def keyWaiter (s : State) (k : QKey × Word16) : Option Waiter :=
  s.hqe.behind.find? fun w => w.origin == .host && w.c.q == k.1 && w.c.cid == k.2

/-- What a CMAC that is suspended saves (R177). How far it has come is open, and so is the chaining value of a message that the model
does not hold. -/
def vaultSaveOf (r : VaultReq) (s : State) : VaultSave :=
  let key := (slotOf s r.slot.toNat).material
  let n := freePick r.blocks s
  let chain := match r.key.bind (keyWaiter s) with
    | some w => cmacChain key (padTo w.c.d38 w.c.buf) n
    | none => freeBytes 16 (tick s)
  ⟨chain, (cmacSubkeys key).1, (cmacSubkeys key).2, 16 * n⟩

/-- The running request is suspended. -/
def vaultSuspend (s : State) : State :=
  match s.sec.vault.running with
  | some r => tick (tick (modVault (fun v => { v with suspended := some r, running := none, saved := some (vaultSaveOf r s) }) s))
  | none => s

/-- VAULT_REQUEST (R176, R177, R178): while the engine is out of service no request is accepted (R179, R333). -/
def vaultRequestEffect (r : VaultReq) (s : State) : State :=
  if s.sec.vault.out then s
  else
    let t := modVault (vaultEnter r) s
    modVault vaultNext (if r.urgent && vaultSuspendable s.sec.vault then vaultSuspend t else t)

def execVaultRequest (r : VaultReq) (s : State) : Res := run (.vaultRequest r) (vaultRequestEffect r) s

/-! ### The key commands on the engine (R175, R179) -/

/-- The request of a key command that wraps, unwraps or computes a CMAC. -/
def keyRequest (c : HostCmd) : Option VaultReq :=
  if c.op = 0x20 then some ⟨false, .unwrap, BitVec.ofNat 13 c.d30, c.d38 / 8 + 1, some (c.q, c.cid)⟩
  else if c.op = 0x22 then some ⟨false, .wrap, BitVec.ofNat 13 c.d30, c.d38 / 8 + 1, some (c.q, c.cid)⟩
  else if c.op = 0x26 then some ⟨false, .cmac, BitVec.ofNat 13 c.d7, (c.d38 + 15) / 16 + 1, some (c.q, c.cid)⟩
  else none

/-- What such a command does once the engine has served it. -/
def keyServed (c : HostCmd) (s : State) : AdminDone :=
  if c.op = 0x20 then keyImportCmd c s else if c.op = 0x22 then keyExportCmd c s else keyCmacCmd c s

/-- A key command: 0x7011 while the vault is out of service (R179); otherwise it waits for the engine, or for random numbers, or is
done at once. -/
def keyRow (f : HostCmd → State → AdminDone) (c : HostCmd) (s : State) : State :=
  fetchRow c (fun q t =>
    let wait : State := { t with hqe := { t.hqe with behind := t.hqe.behind ++ [⟨c, q.tenant, .host⟩] } }
    if t.sec.vault.out then answerCmd ⟨c, q.tenant, .host⟩ 0x7011 0 t
    else
      match keyRequest c with
      | some r => vaultRequestEffect r wait
      | none => if waitsForRandom t c then wait else adminNow f c q t) s

def execKeyImport (c : HostCmd) (s : State) : Res := run (.keyImport c) (keyRow keyImportCmd c) s
def execKeyGenerate (c : HostCmd) (s : State) : Res := run (.keyGenerate c) (keyRow keyGenerateCmd c) s
def execKeyExport (c : HostCmd) (s : State) : Res := run (.keyExport c) (keyRow keyExportCmd c) s
def execKeyErase (c : HostCmd) (s : State) : Res := run (.keyErase c) (keyRow keyEraseCmd c) s
def execKeyInfo (c : HostCmd) (s : State) : Res := run (.keyInfo c) (keyRow keyInfoCmd c) s
def execKeyAttach (c : HostCmd) (s : State) : Res := run (.keyAttach c) (keyRow keyAttachCmd c) s
def execKeyCmac (c : HostCmd) (s : State) : Res := run (.keyCmac c) (keyRow keyCmacCmd c) s

/-- The command of a served request has its effect and completes; one that a reset has settled meanwhile is gone. -/
def keyDone (k : QKey × Word16) (s : State) : State :=
  match keyWaiter s k with
  | none => s
  | some w =>
    let d := keyServed w.c { s with hqe := { s.hqe with behind := s.hqe.behind.erase w } }
    answerCmd w d.1 d.2.1 d.2.2

/-- VAULT_REQUEST_DONE (R175, R177). -/
def vaultDoneEffect (s : State) : State :=
  match s.sec.vault.running with
  | none => s
  | some r =>
    let t := modVault (fun v => vaultNext { v with running := none }) s
    match r.key with
    | some k => keyDone k t
    | none => emit (.vaultDone r) t

def execVaultRequestDone (s : State) : Res := run .vaultRequestDone vaultDoneEffect s

/-! ### The self-test (R178, R179) -/

/-- VAULT_SELFTEST_DUE (R178). -/
def vaultTestDue (v : Vault) : Vault := if v.out || v.testing then v else vaultNext { v with testDue := true }

def execVaultSelftestDue (s : State) : Res := run .vaultSelftestDue (modVault vaultTestDue) s

/-- Is a command waiting that an engine out of service ends: one in its queue, or a KEY GENERATE that waits for random numbers? -/
def keyWaits (w : Waiter) : Bool := (keyRequest w.c).isSome || w.c.op == 0x21

/-- The engine leaves service: what was queued ends, the key commands with 0x7011 (R179). -/
def vaultOut (n : Nat) (s : State) : State :=
  let t := modVault (fun v => { v with
    out := true, fails := n, testing := false, testHeld := false, testDue := false, urgent := [], normal := [], outside := [],
    running := none, suspended := none, saved := none }) s
  forEach (s.hqe.behind.filter keyWaits) (fun w u => answerCmd w 0x7011 0 u)
    { t with hqe := { t.hqe with behind := t.hqe.behind.filter fun w => !keyWaits w } }

/-- VAULT_SELFTEST_DONE (R179): a test, or the retest after a failure. -/
def vaultTestDone (pass : Bool) (s : State) : State :=
  let v := s.sec.vault
  if !v.testing then s
  else if v.out then
    (if pass then
      raise .sec .notice 179 1 [] (modVault (fun x => vaultNext { x with out := false, fails := 0, testing := false }) s)
    else raise .sec .critical 179 2 [] (vaultOut 2 s))
  else if pass then modVault (fun x => vaultNext { x with testing := false, testHeld := false }) s
  else raise .sec .fault 179 0 [] (vaultOut 1 s)

def execVaultSelftestDone (pass : Bool) (s : State) : Res := run (.vaultSelftestDone pass) (vaultTestDone pass) s

/-- VAULT_RETEST_EXPIRY (R179): one retest, 1 s after a failure. -/
def vaultRetest (v : Vault) : Vault := if v.out && v.fails == 1 then { v with testing := true } else v

def execVaultRetestExpiry (s : State) : Res := run .vaultRetestExpiry (modVault vaultRetest) s

end Sys2Proof.Machine
end

