-- ==== Sys2Proof/Machine/Rng.lean ====
section
/-! DEFINITION. The alarms and what they erase (R193 to R195), the noise source, the DRBG and the row-hammer source (R196
to R200). -/

namespace Sys2Proof.Machine

def modRng (f : Rng → Rng) (s : State) : State := { s with sec := { s.sec with rng := f s.sec.rng } }

/-! ### Alarms (R193, R194) -/

/-- The causes of SEC.TAMPER. -/
inductive Alarm where
  | pin | volt | clock | temp | vwatchLost
  deriving DecidableEq, Repr

def alarmBit : Alarm → Nat
  | .pin => 0 | .volt => 1 | .clock => 2 | .temp => 3 | .vwatchLost => 4

/-- Erase a slot's key material: the descriptor stays, LOST, in the range 0x0000 to 0x1FEF; a device slot is EMPTY. -/
def loseSlot (p : Nat × Slot) : Nat × Slot :=
  if p.1 < 0x1FF0 then (p.1, { p.2 with state := .lost, material := [] }) else (p.1, {})

/-- R194, R197: every slot, what a suspended vault request has saved (it begins again), and the DRBG state; the DRBG is UNSEEDED and its
start tests run again, unless it is DISABLED. -/
def eraseKeys (s : State) : State :=
  let l := (s.sec.slots.map loseSlot).filter fun p => p.2 != {}
  let v := { s.sec.vault with suspended := none, saved := none, normal := s.sec.vault.suspended.toList ++ s.sec.vault.normal }
  let off := s.sec.rng.st == .disabled
  let r := { s.sec.rng with
    st := if off then .disabled else .unseeded, tested := false, reseeding := false, requests := 0,
    sampler := if off then s.sec.rng.sampler else 0 }
  { s with
    sec := { s.sec with slots := l, vault := v, rng := r },
    drc := { s.drc with draws := if off then s.drc.draws else [] } }

/-- The latch of the watch domain. -/
def latchAlarm (a : Alarm) (s : State) : State :=
  { s with wch := { s.wch with latched := true, causes := s.wch.causes ||| BitVec.ofNat 5 (2 ^ alarmBit a) } }

/-- An alarm that erases the SWK, and every slot if the core supplies are up, with a Critical event naming the cause. -/
def alarm (a : Alarm) (s : State) : State :=
  let t := latchAlarm a { s with wch := { s.wch with swk := none } }
  if s.glb.powered then raise .sec .critical 194 0 [alarmBit a] (eraseKeys t) else t

def execTamperPin (lowUs : Nat) (s : State) : Res := run (.tamperPin lowUs) (onlyIf (decide (10 ≤ lowUs)) (alarm .pin)) s

/-- VOLT_ALARM: only while PWR_FAIL_L and SYS_RESET_L are both high. -/
def execVoltAlarm (outUs : Nat) (s : State) : Res :=
  run (.voltAlarm outUs)
    (fun t => if 1 ≤ outUs ∧ t.pins.pwrFail = false ∧ t.pins.sysResetLow = false then alarm .volt t else t) s

def execClockAlarm (offUs : Nat) (s : State) : Res :=
  run (.clockAlarm offUs) (onlyIf (decide (10 ≤ offUs)) (alarm .clock)) s

def execTempAlarm (celsius : Int) (s : State) : Res :=
  run (.tempAlarm celsius) (onlyIf (decide (celsius < -40) || decide (130 < celsius)) (alarm .temp)) s

/-- VWATCH_LOST (R193, R398, R448): the SWK is gone, and the counters are not valid until they are restored. -/
def vwatchLostEffect (s : State) : State :=
  latchAlarm .vwatchLost { s with wch := { s.wch with swk := none, valid := false } }

def execVwatchLost (s : State) : Res := run .vwatchLost vwatchLostEffect s

/-! ### The TRNG and the DRBG (R196 to R198) -/

/-- Does the TRNG run its start tests: at a start, or at a restart from FAILED? -/
def trngStarting (r : Rng) : Bool := r.noise && (r.st == .unseeded || (r.st == .failed && r.restart))

/-- A health test fails (R197, R198). -/
def healthFail (s : State) : State :=
  let n := s.sec.rng.retry + 1
  let t := modRng (fun r => { r with
    st := if 3 ≤ n then .disabled else .failed, retry := n, fails := satAdd 0xFF r.fails 1, tested := false,
    restart := false, reseeding := false, requests := 0, waiting := [], sampler := 2 }) s
  let t := forEach s.sec.rng.waiting (fun _ u => emit (.random none) u) t
  let t := raise .sec .fault 198 0 [n] (wakeDrbg t)
  raiseIf (decide (3 ≤ n)) .sec .critical 197 0 [] t

/-- TRNG_START_TESTS_DONE. -/
def trngTests (pass : Bool) (s : State) : State :=
  if trngStarting s.sec.rng && !s.sec.rng.tested then
    (if pass then modRng (fun r => { r with tested := true }) s else healthFail s)
  else s

def execTrngStartTestsDone (pass : Bool) (s : State) : Res := run (.trngStartTestsDone pass) (trngTests pass) s

/-- One generate request is served. -/
def generate (n : Nat) (s : State) : State := drbgUse 1 (tickLong n (emit (.random (some (freeLong n s))) s))

/-- Serve, hold, or refuse a generate request. -/
def request (n : Nat) (s : State) : State :=
  match s.sec.rng.st with
  | .seeded =>
    if s.sec.rng.requests < reseedLimit then generate n s else modRng (fun r => { r with waiting := r.waiting ++ [n] }) s
  | .unseeded => modRng (fun r => { r with waiting := r.waiting ++ [n] }) s
  | _ => emit (.random none) s

/-- The requests that waited. -/
def serveWaiting (s : State) : State := forEach s.sec.rng.waiting request (modRng (fun r => { r with waiting := [] }) s)

/-- DRBG_INSTANTIATED: SEEDED, RETRY is 0, and what waited is served. -/
def drbgUp (s : State) : State :=
  if trngStarting s.sec.rng && s.sec.rng.tested then
    wakeDrbg (serveWaiting (modRng (fun r => { r with
      st := .seeded, retry := 0, requests := 0, restart := false, reseeding := false, sampler := 1 }) s))
  else s

def execDrbgInstantiated (s : State) : Res := run .drbgInstantiated drbgUp s

/-- HEALTH_TEST_FAIL: samples are tested only while UNSEEDED or SEEDED (R196). -/
def healthTestFailEffect (s : State) : State :=
  let r := s.sec.rng
  if r.noise && (r.st == .unseeded || r.st == .seeded) then healthFail s else s

def execHealthTestFail (s : State) : Res := run .healthTestFail healthTestFailEffect s

/-- TRNG_RESTART_EXPIRY (R197). -/
def trngRestart (r : Rng) : Rng := if r.st == .failed then { r with restart := true, tested := false } else r

def execTrngRestartExpiry (s : State) : Res := run .trngRestartExpiry (modRng trngRestart) s

/-- DRBG_RESEED_TIMER and DRBG_RESEED_DONE (R196). -/
def reseedStart (r : Rng) : Rng := if r.st == .seeded then { r with reseeding := true } else r

def execDrbgReseedTimer (s : State) : Res := run .drbgReseedTimer (modRng reseedStart) s

def reseedDone (s : State) : State :=
  if s.sec.rng.st == .seeded && s.sec.rng.reseeding then
    wakeDrbg (serveWaiting (modRng (fun r => { r with reseeding := false, requests := 0 }) s))
  else s

def execDrbgReseedDone (s : State) : Res := run .drbgReseedDone reseedDone s

def execDrbgGenerate (bytes : Nat) (s : State) : Res := run (.drbgGenerate bytes) (request bytes) s

/-- ROWHAMMER_RESEED (R200): in SEEDED each of the 12 channels' generators takes 64 bits from the DRBG: the next values of
a generator are those of a fresh seed. -/
def rowhammerReseedEffect (s : State) : State :=
  if s.sec.rng.st == .seeded then
    forEach (List.range 12) (fun c t =>
      { t with freeCtr := t.freeCtr + 1, drc := { t.drc with draws := tabPut 0 c (Config.freeNat t.freeCtr) t.drc.draws } })
      (drbgUse 12 (modRng (fun r => { r with sampler := 1 }) s))
  else s

def execRowhammerReseed (s : State) : Res := run .rowhammerReseed rowhammerReseedEffect s

end Sys2Proof.Machine
end

