-- ==== Sys2Proof/Machine/Images.lean ====
section
/-! DEFINITION. What stands in the configuration NOR: boot headers (R39, R46), profiles (R47, R50), firmware banks and their checks
(R416), and measurement (R54). -/

namespace Sys2Proof.Machine

/-! ### Boot headers (R39, R46) -/

/-- The fields of a copy that is valid under R39. -/
def parseHeader (b : Bytes) : Option BootHeader :=
  let h : BootHeader := ⟨bitOf (numAt b 6 2) 0, numAt b 8 1, numAt b 9 1, numAt b 10 1, numAt b 11 1, numAt b 12 4⟩
  if numAt b 0 4 = 0x9640B11D ∧ crcOk (b.take 64) = true ∧ numAt b 4 2 = 1 ∧ numAt b 6 2 < 2 ∧ h.freq ≠ 0 ∧ h.supply < 2
    ∧ h.sequence ≠ 0xFFFFFFFF then some h else none

/-- The bytes of a copy: the primary, or the secondary. -/
def headerBytes (s : State) (second : Bool) : Bytes := norRead s (if second then 0x10000 else 0) 64

/-- The copy in use: the valid one with the higher sequence number, the primary when they are equal. -/
def chooseHeader (s : State) : Option (Bool × BootHeader) :=
  match parseHeader (headerBytes s false), parseHeader (headerBytes s true) with
  | some a, some b => if a.sequence < b.sequence then some (true, b) else some (false, a)
  | some a, none => some (false, a)
  | none, some b => some (true, b)
  | none, none => none

/-- The bytes of a boot header. -/
def buildHeader (h : BootHeader) : Bytes :=
  withCrc (leBytes 4 0x9640B11D ++ leBytes 2 1 ++ leBytes 2 (if h.bankB then 1 else 0) ++ leBytes 1 h.freq ++ leBytes 1 h.dummy
    ++ leBytes 1 h.supply ++ leBytes 1 h.tsus ++ leBytes 4 h.sequence ++ zeros 44)

/-- A copy is rewritten: its sector is erased and programmed. -/
def writeHeader (second : Bool) (h : BootHeader) (s : State) : State :=
  let a := if second then 0x10000 else 0
  if s.nvc.halted then s else { s with nor := cellsWrite norDefault (buildHeader h) a (cellsClear a 0x10000 s.nor) }

/-- The next sequence number; 0xFFFF_FFFF is never written. -/
def nextSequence (n : Nat) : Nat := min (n + 1) 0xFFFFFFFE

/-! ### Profiles (R47, R50) -/

/-- A value length rounded up to a multiple of 8. -/
def padded (n : Nat) : Nat := (n + 7) / 8 * 8

/-- The walk of the records from an offset to the end tag, which must end where LENGTH does. -/
def walkRecords (b : Bytes) (len : Nat) : Nat → Nat → Option (List ProfRec)
  | 0, _ => none
  | n + 1, a =>
    let tag := numAt b a 2
    let k := numAt b (a + 4) 4
    if len < a + 8 then none
    else if tag = 0 then (if numAt b (a + 2) 6 = 0 ∧ a + 8 = len then some [] else none)
    else if len < a + 8 + padded k then none
    else
      (walkRecords b len n (a + 8 + padded k)).map fun l =>
        ⟨BitVec.ofNat 16 tag, BitVec.ofNat 8 (numAt b (a + 2) 1), bytesAt b (a + 8) k⟩ :: l

/-- A profile that passes the check of R50 for a slot: LENGTH and the records. -/
def checkProfile (b : Bytes) (slot : Nat) : Option (Nat × List ProfRec) :=
  let len := numAt b 8 4
  if numAt b 0 4 = 0x9640F11E ∧ numAt b 4 2 = 2 ∧ numAt b 6 1 = slot ∧ len ≤ 65536
    ∧ numAt b 0x1C 4 = crc32c (b.take 0x1C ++ bytesAt b 0x20 (len - 0x20)) then
    (walkRecords b len 8192 0x20).map fun l => (len, l)
  else none

def profileAddr (slot : Nat) : Nat := 0x20000 + 0x10000 * slot

def profileBytes (s : State) (slot : Nat) : Bytes := norRead s (profileAddr slot) 65536

/-! ### Banks (R45, R416) -/

def bankAddr (b : Bool) : Nat := if b then 0x03100000 else 0x00100000

def bankSize : Nat := 0x03000000

def bankNum (s : State) (b : Bool) (off n : Nat) : Nat := leNat (norRead s (bankAddr b + off) n)

def bankVersion (s : State) (b : Bool) : Nat := bankNum s b 0x0C 4

def bankParts (s : State) (b : Bool) : Nat := bankNum s b 6 2

def bankSettings (s : State) (b : Bool) : Nat := bankNum s b 0x18 2

/-- The length of the Manifest body. -/
def bodyLen (s : State) (b : Bool) : Nat := 0x20 + 64 * bankParts s b + 4 * bankSettings s b

def manifestBody (s : State) (b : Bool) : Bytes := norRead s (bankAddr b) (bodyLen s b)

/-- The Manifest with its signature block. -/
def manifestLen (s : State) (b : Bool) : Nat := bodyLen s b + 7412

/-- Part entry i: TYPE, OFFSET, LENGTH. -/
def partEntry (s : State) (b : Bool) (i : Nat) : Nat × Nat × Nat :=
  (bankNum s b (0x20 + 64 * i) 2, bankNum s b (0x24 + 64 * i) 4, bankNum s b (0x28 + 64 * i) 4)

def partList (s : State) (b : Bool) : List (Nat × Nat × Nat) := (List.range (bankParts s b)).map (partEntry s b)

/-- The bytes of the part of a type. -/
def partBytes (s : State) (b : Bool) (type : Nat) : Bytes :=
  match (partList s b).find? fun p => p.1 == type with
  | some p => norRead s (bankAddr b + p.2.1) p.2.2
  | none => []

def manifestShape (s : State) (b : Bool) : Bool :=
  let types := (partList s b).map (·.1)
  bankNum s b 0 4 == 0x96403A11 && bankNum s b 4 2 == 1 && decide (3 ≤ bankParts s b) && decide (bankParts s b ≤ 16)
    && types.contains 1 && types.contains 2 && types.contains 3 && types.all fun t => types.count t == 1

/-- Do the parts lie in the bank after the Manifest, apart from one another, with their digests? -/
def partsGood (s : State) (b : Bool) : Bool :=
  let l := partList s b
  (List.range l.length).all fun i =>
    let p := partEntry s b i
    decide (manifestLen s b ≤ p.2.1) && decide (p.2.1 + p.2.2 ≤ bankSize)
      && (List.range l.length).all (fun j =>
        let q := partEntry s b j
        i == j || decide (p.2.1 + p.2.2 ≤ q.2.1) || decide (q.2.1 + q.2.2 ≤ p.2.1))
      && sha384 (norRead s (bankAddr b + p.2.1) p.2.2) == norRead s (bankAddr b + 0x30 + 64 * i) 48

/-- Did a staging of a bank begin, with none ended OK since? Such a bank fails R416 (R418), by its last check (DESIGN CHOICE). -/
def unfinished (s : State) (b : Bool) : Bool := if b then s.glb.unfinishedB else s.glb.unfinishedA

def setUnfinished (b v : Bool) (s : State) : State :=
  { s with glb := if b then { s.glb with unfinishedB := v } else { s.glb with unfinishedA := v } }

/-- R416 with a set of revoked indices: 0, or the detail of the first check that fails. -/
def bankCheckWith (revoked : BitVec 4) (s : State) (b : Bool) : Nat :=
  let body := manifestBody s b
  let sig := norRead s (bankAddr b + body.length) 7412
  let key := bankNum s b 0x0B 1
  let serial := bankNum s b 0x10 8
  if !manifestShape s b then 1
  else if bankNum s b 8 2 ≠ 0x9640 ∨ bitOf (bankNum s b 0x0A 1) (if s.glb.steppingB0 then 1 else 0) = false then 2
  else if serial ≠ 0 ∧ serial ≠ s.glb.unitSerial.toNat then 3
  else if 3 < key ∨ sha384 (sig.take 2689) ≠ Config.romKeyDigest key then 4
  else if revoked.getLsbD key then 5
  else if !Config.mlDsaVerify (sig.take 2592) body (bytesAt sig 2689 4627) then 6
  else if !Config.ecdsaVerify (bytesAt sig 2592 97) body (bytesAt sig 7316 96) then 7
  else if !partsGood s b || unfinished s b then 8
  else 0

def bankCheck (s : State) (b : Bool) : Nat := bankCheckWith s.glb.revoked s b

/-- The setting list of a Manifest: tag and setting version. -/
def settingList (s : State) (b : Bool) : List (Nat × Nat) :=
  (List.range (bankSettings s b)).map fun i =>
    (bankNum s b (0x20 + 64 * bankParts s b + 4 * i) 2, bankNum s b (0x22 + 64 * bankParts s b + 4 * i) 1)

/-! ### Measurement (R54) -/

/-- An extension of a measurement register, counted up to 0xF. -/
def measExtend (n : Nat) (data : Bytes) (s : State) : State :=
  { s with sec := { s.sec with
    meas := tabPut (zeros 48) n (sha384 (tabGet (zeros 48) n s.sec.meas ++ sha384 data)) s.sec.meas,
    measCount := tabPut 0 n (satAdd 0xF (tabGet 0 n s.sec.measCount) 1) s.sec.measCount } }

end Sys2Proof.Machine
end

