-- ==== Sys2Proof/Machine/Settings.lean ====
section
/-! DEFINITION. Profile settings: which record of a tag is applied (R51, R52), the layouts and ranges of R456, and what each setting
sets (R48, R49). -/

namespace Sys2Proof.Machine

/-! ### Which record applies (R51, R456) -/

/-- The tags that setting version 1 of R456 lists; those that the boot ROM judges come first (R52). -/
def romTags : List Nat := [0x0101, 0x0102]
def firmwareTags : List Nat :=
  [0x0201, 0x0301, 0x0401, 0x0501, 0x0601, 0x0701, 0x0801, 0x0901, 0x0A01, 0x0B01, 0x0C01, 0x0D01, 0x0E01, 0x0F01, 0x1001]

/-- Do the lower bounds of the bands present rise strictly (R380)? -/
def boundsRise : List Nat → Bool
  | a :: b :: r => decide (a < b) && boundsRise (b :: r)
  | _ => true

def bandBounds (v : Bytes) : List Nat := (List.range (numAt v 0 1 - 1)).map fun i => numAt v (2 + i) 1

/-- Has a value the length and form that setting version 1 of its tag has (R456, R380)? -/
def fitsForm (tag : Nat) (v : Bytes) : Bool :=
  if tag = 0x0101 then
    decide (1 ≤ numAt v 0 1) && decide (numAt v 0 1 ≤ 4) && v.length == 16 + numAt v 0 1 * 8448 && boundsRise (bandBounds v)
  else if tag = 0x0501 then v.length == 224
  else if tag = 0x0601 ∨ tag = 0x0701 then v.length == 16
  else v.length == 8

/-- Can a record be applied? One of the hold-up setting out of range is set aside too. -/
def fitsSetting (tag : Nat) (v : Bytes) : Bool :=
  fitsForm tag v && (tag != 0x0701 || (numAt v 0 4 != 0 && decide (numAt v 8 4 < numAt v 4 4)))

def applies (tag : Nat) (r : ProfRec) : Bool := r.tag.toNat == tag && r.version == 1 && fitsSetting tag r.value

/-- The value that a tag takes, if a record of it applies. -/
def setting (l : List ProfRec) (tag : Nat) : Option Bytes := (l.find? (applies tag)).map (·.value)

/-- A signed byte. -/
def signedAt (v : Bytes) (a : Nat) : Int := (BitVec.ofNat 8 (numAt v a 1)).toInt

/-- Is a lane record of setting 0x0501 outside its range? -/
def eqOutside (r : Bytes) : Bool :=
  decide (2 < numAt r 0 1) || decide (31 < numAt r 5 1)
    || decide (64 < (signedAt r 1).natAbs + (signedAt r 2).natAbs + numAt r 3 1 + (signedAt r 4).natAbs)

def eqRecords (v : Bytes) : List Bytes := (List.range 28).map fun i => bytesAt v (8 * i) 8

/-- The thermal limits (R454): each limit outside its range takes its default, and both do when less than 5 °C apart. -/
def thermalLimits (v : Bytes) : Nat × Nat :=
  let a := if 85 ≤ numAt v 0 1 ∧ numAt v 0 1 ≤ 110 then numAt v 0 1 else 105
  let b := if 100 ≤ numAt v 1 1 ∧ numAt v 1 1 ≤ 120 then numAt v 1 1 else 115
  if b < a + 5 then (105, 115) else (a, b)

/-- How many fields of an applied value lie outside their range. -/
def fieldsOutside (tag : Nat) (v : Bytes) : Nat :=
  let one := fun c : Bool => if c then 1 else 0
  let n := numAt v 0 1
  if tag = 0x0101 then
    one (numAt v 1 1 == 0 || decide (10 < numAt v 1 1)) + one (numAt v 5 1 != 0 && (decide (numAt v 5 1 < 6) || decide (12 < numAt v 5 1)))
  else if tag = 0x0102 then one (numAt v 3 1 != 0)
  else if tag = 0x0201 then one (decide (16 < n))
  else if tag = 0x0301 then one (decide (2 < n))
  else if tag = 0x0401 then one (n == 0 || decide (3 < n)) + one (numAt v 2 1 == 0 || decide (3 < numAt v 2 1))
  else if tag = 0x0501 then ((eqRecords v).filter eqOutside).length
  else if tag = 0x0601 then one (decide (1 < numAt v 12 1))
  else if tag = 0x0801 then one ((thermalLimits v).1 != numAt v 0 1) + one ((thermalLimits v).2 != numAt v 1 1)
  else if tag = 0x0901 then one (numAt v 0 2 == 0 || decide (600 < numAt v 0 2))
  else if tag = 0x0A01 then one (decide (n < 10)) + one (numAt v 1 1 == 0)
  else if tag = 0x0C01 then one (decide (bitsOf (numAt v 0 4) 9 0 < 5))
  else if tag = 0x0D01 then one (decide (bitsOf (numAt v 0 4) 31 24 < 7))
  else if tag = 0x0F01 then one (decide (bitsOf (numAt v 0 4) 31 24 < 4))
  else 0

/-! ### Counting the cases (R51) -/

def noteIgnored (tag : Nat) (s : State) : State :=
  raise .glb .notice 51 0 [tag] { s with glb := { s.glb with ignored := satAdd 0xFF s.glb.ignored 1 } }

def noteDefaulted (tag : Nat) (s : State) : State :=
  raise .glb .notice 51 1 [tag] { s with glb := { s.glb with defaulted := satAdd 0xFF s.glb.defaulted 1 } }

/-- Records of a tag: set aside, or behind the one that is applied; then the tag as a whole, and fields of the applied one. -/
def judgeTag (l : List ProfRec) (tag : Nat) (s : State) : State :=
  let mine := l.filter fun r => r.tag.toNat == tag
  let kept := if mine.any (applies tag) then 1 else 0
  let t := forEach (List.range (mine.length - kept)) (fun _ => noteIgnored tag) s
  match setting l tag with
  | some v => forEach (List.range (fieldsOutside tag v)) (fun _ => noteDefaulted tag) t
  | none => if mine.isEmpty then t else noteDefaulted tag t

/-- The setting version that the running firmware uses for a tag, by the setting list of its Manifest. -/
def versionUsed (s : State) (tag : Nat) : Option Nat := ((settingList s s.glb.bankB).find? fun p => p.1 == tag).map (·.2)

/-- The tags that the running firmware knows. -/
def knownTags (s : State) : List Nat := firmwareTags.filter fun t => (versionUsed s t).isSome

/-- The records that the running firmware may apply: those in the version that it uses for their tag. -/
def usableRecords (s : State) : List ProfRec := s.glb.profile.filter fun r => versionUsed s r.tag.toNat == some r.version.toNat

/-- Records of a tag as the firmware judges them: those in another version are set aside with the ones that do not fit. -/
def judgeUsed (tag : Nat) (s : State) : State :=
  let other := s.glb.profile.filter fun r => r.tag.toNat == tag && versionUsed s tag != some r.version.toNat
  let t := forEach other (fun _ => noteIgnored tag) s
  let u := judgeTag (usableRecords s) tag t
  if other.isEmpty || (usableRecords s).any (fun r => r.tag.toNat == tag) then u else noteDefaulted tag u

/-- Records whose tag is not known are ignored. -/
def judgeUnknown (s : State) : State :=
  forEach (s.glb.profile.filter fun r => !((romTags ++ knownTags s).contains r.tag.toNat)) (fun r => noteIgnored r.tag.toNat) s

/-! ### What the settings set -/

/-- The rate cap and VF count of a port (setting 0x0401), which training needs before the firmware runs. -/
def portSetting (v : Option Bytes) (n : Nat) (p : Port) : Port :=
  match v with
  | none => { p with rateCap := 3, totalVfs := 0 }
  | some b =>
    let r := numAt b (2 * n) 1
    { p with rateCap := if r = 0 ∨ 3 < r then 3 else Fin.ofNat 4 r, totalVfs := numAt b (2 * n + 1) 1 }

/-- The start-up watchdog time (setting 0x0901). -/
def watchdogOf (v : Option Bytes) : Nat :=
  match v with
  | some b => if numAt b 0 2 = 0 ∨ 600 < numAt b 0 2 then 60 else numAt b 0 2
  | none => 60

def earlySettings (l : List ProfRec) (s : State) : State :=
  { s with
    hep := { s.hep with port0 := portSetting (setting l 0x0401) 0 s.hep.port0, port1 := portSetting (setting l 0x0401) 1 s.hep.port1 },
    pins := { s.pins with watchdogS := watchdogOf (setting l 0x0901) } }

/-- Scratchpad, pace, lanes, hold-up and thermal limits. -/
def applyFirst (l : List ProfRec) (s : State) : State :=
  let s := match setting l 0x0201 with
    | some v =>
      let n := min 16 (numAt v 0 1)
      raiseIf (decide (16 < numAt v 0 1)) .glb .notice 25 0 [numAt v 0 1] { s with cache := { s.cache with lockSteps := n } }
    | none => s
  let s := match setting l 0x0301 with
    | some v => applyPace (if 2 < numAt v 0 1 then .even else paceOf (numAt v 0 1)) s
    | none => s
  let s := match setting l 0x0501 with
    | some v => { s with rdm := { s.rdm with lanesEq := (eqRecords v).map fun r => if eqOutside r then 0 :: r.drop 1 else r } }
    | none => s
  let s := match setting l 0x0601 with
    | some v => { s with pins := { s.pins with
        laneMask := (List.range 96).filter fun n => bitOf (numAt v (n / 8) 1) (n % 8), lane32 := numAt v 12 1 != 0 } }
    | none => s
  let s := match setting l 0x0701 with
    | some v => { s with pins := { s.pins with holdup := some (numAt v 0 4, numAt v 4 4, numAt v 8 4) } }
    | none => s
  match setting l 0x0801 with
  | some v =>
    let p := thermalLimits v
    { s with clk := { s.clk with throttleC := p.1, shutdownC := p.2 } }
  | none => s

/-- The register images (R49), the NOR limits and the event limits (R401). -/
def applySecond (l : List ProfRec) (s : State) : State :=
  let s := match setting l 0x0A01 with
    | some v =>
      let m := if numAt v 1 1 = 0 then 100 else numAt v 1 1
      { s with nvc := { s.nvc with minRun := BitVec.ofNat 8 (max 10 (numAt v 0 1)), maxSusp := BitVec.ofNat 8 m } }
    | none => s
  let s := match setting l 0x0B01 with
    | some v => { s with evr := { s.evr with limInfo := numAt v 0 2, limNotice := numAt v 2 2, limFault := numAt v 4 2 } }
    | none => s
  let s := match setting l 0x0C01 with
    | some v =>
      let w := numAt v 0 4
      { s with med := { s.med with
        maxErase := bitsOf w 31 24, maxProg := bitsOf w 23 20, maxSusp := bitsOf w 19 10, minRun := max 5 (bitsOf w 9 0) } }
    | none => s
  let s := match setting l 0x0D01 with
    | some v => { s with par := { s.par with days := max 7 (bitsOf (numAt v 0 4) 31 24), maxMbps := bitsOf (numAt v 0 4) 15 0 } }
    | none => s
  let s := match setting l 0x0E01 with
    | some v =>
      let d := bitsOf (numAt v 0 4) 31 24
      { s with peer := { s.peer with swapDays := d, swapLeft := d } }
    | none => s
  let s := match setting l 0x0F01 with
    | some v => { s with drc := { s.drc with scrubH := max 4 (bitsOf (numAt v 0 4) 31 24) } }
    | none => s
  match setting l 0x1001 with
  | some v => { s with rdm := { s.rdm with ccCfg0 := BitVec.ofNat 32 (numAt v 0 4), ccCfg1 := BitVec.ofNat 32 (numAt v 4 4) &&& 0xFFFFFF00 } }
  | none => s

/-- PROFILE_SETTINGS_APPLY (R51): the firmware judges and applies every setting but those of the boot ROM, in the versions that its
Manifest lists. -/
def applySettings (s : State) : State :=
  let l := usableRecords s
  judgeUnknown (forEach (knownTags s) judgeUsed (applySecond l (applyFirst l (earlySettings l s))))

/-! ### DRAM settings (R52, R379, R380) -/

/-- The slots that setting 0x0102 enables. -/
def slotEnabled (l : List ProfRec) (c : Fin 12) (k : Fin 2) : Bool :=
  match setting l 0x0102 with
  | some v => bitOf (numAt v 0 3) (2 * c.val + k.val)
  | none => true

/-- Does a population meet every rule of R379? -/
def populationOk (l : List Spd) : Bool :=
  match l with
  | [] => false
  | x :: _ =>
    l.all (fun r => r.x4 && r.eccRdimm && r.rated6400 && r.drfm && (r.gib == 32 || r.gib == 64 || r.gib == 128)
      && (r.ranks == 1 || r.ranks == 2) && r.gib == x.gib && r.ranks == x.ranks && r.timing == x.timing)
      && (List.range 12).all (fun c => (l.filter fun r => r.channel.val == c && r.slot == 0).length == 1)
      && (l.length == 12 || (l.length == 24 && (List.range 12).all fun c => (l.filter fun r => r.channel.val == c && r.slot == 1).length == 1))

/-- The delay sets: bands, hysteresis, bounds and the neighbour-refresh exponent (R380, R388). For a HYST outside its range the spec
gives no value: the model takes a free one of the range. -/
def applyDelays (l : List ProfRec) (s : State) : State :=
  match setting l 0x0101 with
  | none => s
  | some v =>
    let e := numAt v 5 1
    let bad := e != 0 && (decide (e < 6) || decide (12 < e))
    let h := numAt v 1 1
    let out := h == 0 || decide (10 < h)
    onlyIf out tick (raiseIf bad .drc .notice 388 0 [e] { s with drc := { s.drc with
      nbands := numAt v 0 1, hyst := if out then 1 + freePick 10 s else h, bounds := bandBounds v,
      probLog2 := if e = 0 ∨ bad then 9 else e } })

/-- DRAM_SETTINGS_APPLY (R52). -/
def applyDramSettings (s : State) : State :=
  let l := s.glb.profile
  applyDelays l (forEach romTags (judgeTag l) s)

end Sys2Proof.Machine
end

