-- ==== Sys2Proof/Machine/Watch.lean ====
section
/-! DEFINITION. The watch domain's registers and counters (R28, R397 to R399). -/

namespace Sys2Proof.Machine

/-- A write that crosses into the watch domain: taken up while none is pending, discarded with WR_LOST otherwise (R28). -/
def wchCross (p : WchPending) (s : State) : State :=
  if s.wch.pending.isSome then { s with wch := { s.wch with wrLost := true } }
  else { s with wch := { s.wch with pending := some p } }

/-- WCH_REGISTER_WRITE (R28). The write that clears WR_LOST stays on the FAB side (the registers of Event recorder). -/
def wchRegisterWriteEffect (w : WchWrite) (s : State) : State :=
  match w with
  | .clearWrLost => { s with wch := { s.wch with wrLost := false } }
  | .failedStarts n => wchCross (.other (.failedStarts n)) s
  | .clearTamper => wchCross (.other .clearTamper) s

def execWchRegisterWrite (w : WchWrite) (s : State) : Res := run (.wchRegisterWrite w) (wchRegisterWriteEffect w) s

/-- WCH_RESTORE_WRITE (R399): the upper word crosses with the lower word held on the FAB side; while VALID is 1 it is
discarded. -/
def wchRestoreWriteEffect (upper : Word32) (s : State) : State :=
  if s.wch.valid then { s with wch := { s.wch with wrLost := true } }
  else wchCross (.restore upper s.wch.restoreLow) s

def execWchRestoreWrite (upper : Word32) (s : State) : Res :=
  run (.wchRestoreWrite upper) (wchRestoreWriteEffect upper) s

/-- What the watch domain does with a write other than RESTORE. -/
def wchApply (w : WchWrite) (c : Wch) : Wch :=
  match w with
  | .failedStarts n => { c with failedStarts := min n 0xFF }
  | .clearTamper => { c with latched := false, causes := 0 }
  | .clearWrLost => c

/-- WCH_WRITE_TAKEN (R28, R398, R399): the pending write acts, and WR_PENDING clears. A RESTORE taken while VALID is 0
loads both counters in one step, and WATCH RESTORED (code 0x3405, Fault) is recorded with both values. -/
def wchWriteTakenEffect (s : State) : State :=
  match s.wch.pending with
  | none => s
  | some (.other w) => { s with wch := { wchApply w s.wch with pending := none } }
  | some (.restore cycles seconds) =>
    if s.wch.valid then { s with wch := { s.wch with pending := none } }
    else
      let t := { s with wch := { s.wch with
        pending := none, valid := true, opSeconds := seconds.toNat, powerCycles := cycles.toNat } }
      raiseListed .evr .fault 0x3405 (leBytes 4 seconds.toNat ++ leBytes 4 cycles.toNat) t

def execWchWriteTaken (s : State) : Res := run .wchWriteTaken wchWriteTakenEffect s

/-- OP_SECONDS_TICK (R397): one more operating second while the core supplies are up; the count stops at its highest
value. Each day of operating time brings the next role swap one day nearer (PEER.SWAP_CFG, R344). -/
def opSecondsTickEffect (s : State) : State :=
  let n := satAdd 0xFFFFFFFF s.wch.opSeconds 1
  if s.glb.powered then
    { s with wch := { s.wch with opSeconds := n },
             peer := { s.peer with swapLeft := if n % 86400 = 0 then s.peer.swapLeft - 1 else s.peer.swapLeft } }
  else s

def execOpSecondsTick (s : State) : Res := run .opSecondsTick opSecondsTickEffect s

end Sys2Proof.Machine
end

