-- ==== Sys2Proof/Machine/Boot.lean ====
section
/-! DEFINITION. Resets (R33 to R37), the start-up sequence (R38 to R60), the end of START-UP and of RECOVERY (R58), the junction
sensors (R454, R455) and the supplies (R229, R442, R445). -/

namespace Sys2Proof.Machine

/-! ### Resets (R33 to R37, R441) -/

/-- POWER_ON_RESET: the supplies rise. What the chip held is already gone when they fell; while the watch domain was not kept
up, what it holds is open. -/
def powerOnEffect (vwatchHeld high : Bool) (s : State) : State :=
  let t := if s.glb.powered then chipWideReset .powerOn s else s
  let t := { t with
    glb := { t.glb with powered := true, resetHeld := true, testMode := false, cause := .powerOn },
    pins := { t.pins with hiZ := false, sysResetLow := !high }, med := { t.med with scanned := [] } }
  let t := if vwatchHeld then t
    else vwatchLostEffect (tick (tick (tick { t with wch := { t.wch with
      opSeconds := freePick (2 ^ 32) t, powerCycles := freePick (2 ^ 32) (tick t), failedStarts := freePick 256 (tick (tick t)) } })))
  restat { t with wch := { t.wch with powerCycles := satAdd 0xFFFFFFFF t.wch.powerCycles 1 } }

/-- POWER_ON_RESET. -/
def execPowerOnReset (vwatchHeld sysResetHigh : Bool) (s : State) : Res :=
  run (.powerOnReset vwatchHeld sysResetHigh) (powerOnEffect vwatchHeld sysResetHigh) s

/-- A pin reset; during a power-on reset the cause stays (R37). -/
def pinReset (s : State) : State :=
  if !s.glb.powered || (s.glb.resetHeld && s.glb.cause == .powerOn) then s else restat (chipWideReset .pin s)

/-- SYS_RESET_ASSERT (R34): shorter than 0.5 µs is ignored, 1 µs or longer resets, and between the two it may or may not. -/
def sysResetEffect (lowNs : Nat) (s : State) : State :=
  if lowNs < 500 then s
  else if 1000 ≤ lowNs then pinReset (lowPin s)
  else if freePick 2 s = 0 then tick s else pinReset (lowPin (tick s))
where
  lowPin (t : State) : State := { t with pins := { t.pins with sysResetLow := true } }

def execSysResetAssert (lowNs : Nat) (s : State) : Res := run (.sysResetAssert lowNs) (sysResetEffect lowNs) s

/-- TEST_MODE_ASSERT (R441): held in reset as by SYS_RESET_L. -/
def testModeEffect (s : State) : State :=
  if s.glb.powered then
    let t := pinReset s
    { t with glb := { t.glb with testMode := true } }
  else s

def execTestModeAssert (s : State) : Res := run .testModeAssert testModeEffect s

/-- CHIP_COMMAND_RESET: the reset that a command has asked for. -/
def commandResetEffect (s : State) : State := if s.glb.resetPending then restat (chipWideReset .chipCmd s) else s

def execChipCommandReset (s : State) : Res := run .chipCommandReset commandResetEffect s

/-- START_UP_WATCHDOG_EXPIRY (R56). -/
def watchdogEffect (s : State) : State :=
  if s.glb.service = .startUp ∧ s.glb.resetHeld = false ∧ s.glb.powered = true then restat (chipWideReset .startWdog s) else s

def execStartUpWatchdogExpiry (s : State) : Res := run .startUpWatchdogExpiry watchdogEffect s

/-- SYS_RESET_RELEASE (t0): the straps are latched (R36). -/
def releaseReset (head : Bool) (sel : BitVec 2) (s : State) : State :=
  if !s.glb.powered || !s.glb.resetHeld || s.glb.testMode then s
  else
    restat { s with
      glb := { s.glb with resetHeld := false, headId := head, pinSel := sel, step := 1 },
      pins := { s.pins with startHold := s.pins.pwrFail, sysResetLow := false }, nvc := { s.nvc with halted := s.pins.pwrFail },
      clk := { s.clk with rails := if s.wch.valid then 0x3FF else 0x37F } }

def execSysResetRelease (headId : Bool) (profileSel : BitVec 2) (s : State) : Res :=
  run (.sysResetRelease headId profileSel) (releaseReset headId profileSel) s

/-! ### Steps of START-UP (R38, R57, R60) -/

/-- Does the sequence run? -/
def starting (s : State) : Bool := s.glb.powered && !s.glb.resetHeld && s.glb.service == .startUp && !s.pins.startHold

/-- The event of a number is reached. -/
def reach (n : Nat) (s : State) : State := { s with glb := { s.glb with step := n } }

/-- ROM-SERVICE with its cause (R57). -/
def enterRom (cause : Byte) (s : State) : State :=
  let t := setService .romService { s with glb := { s.glb with romCause := cause }, pins := { s.pins with svcRequest := false } }
  if cause = 6 then wchCross (.other (.failedStarts 0)) t else t

/-- An event of the sequence: where it is due, a service request takes effect first (R57, cause 0x05). -/
def startStep (ready : Bool) (f : State → State) (s : State) : State :=
  if !starting s || !ready then s else if s.pins.svcRequest then enterRom 5 s else f s

/-- NOR_RST_RELEASE (R35). -/
def execNorRstRelease (s : State) : Res :=
  run .norRstRelease (fun t => onlyIf (t.glb.powered && !t.glb.resetHeld) (fun u => { u with pins := { u.pins with norRstLow := false } }) t) s

/-- PLL_LOCK. -/
def execPllLock (s : State) : Res :=
  run .pllLock (fun t => startStep (t.glb.step == 1) (fun u => reach 2 { u with pins := { u.pins with pllLocked := true } }) t) s

/-- The records that blocks held enter the ring (R396). -/
def enterHeld (s : State) : State :=
  { s with evr := (s.evr.held.foldl (fun ev e => ringAdmit e ev) { s.evr with held := [], accepts := true }) }

/-- BOOT_ROM_START: the noise source and the ring run, the chain is driven, MEAS0 is extended, the listening window opens; three
failed starts lead to ROM-SERVICE, and otherwise the count rises (R56, R57, R196, R396). -/
def bootRomEffect (s : State) : State :=
  let n := s.wch.failedStarts
  let t := enterHeld { s with
    glb := { s.glb with failedRead := n },
    pins := { s.pins with listening := true, chainDriven := true },
    sec := { s.sec with rng := { s.sec.rng with noise := true } } }
  let t := reach 4 (measExtend 0 (Config.bootRomImage t.glb.steppingB0) t)
  if 3 ≤ n then enterRom 6 t else wchCross (.other (.failedStarts (satAdd 0xFF n 1))) t

def execBootRomStart (s : State) : Res :=
  run .bootRomStart (fun t => startStep (t.glb.step == 2 && !t.pins.norRstLow) bootRomEffect t) s

/-- LISTEN_WINDOW_CLOSE: a service request inside the window takes effect at the boundary that this is. The window closes after the
DRAM check; a short firmware read may have ended before. -/
def windowEffect (s : State) : State :=
  if starting s && decide (s.glb.step < 10) then s
  else
    let t := startStep s.pins.listening (fun u => reach (max 11 u.glb.step) u) s
    if s.pins.startHold then t else { t with pins := { t.pins with listening := false } }

def execListenWindowClose (s : State) : Res := run .listenWindowClose windowEffect s

/-- BOOT_HEADER_READ (R39). -/
def headerEffect (s : State) : State :=
  match chooseHeader s with
  | none => enterRom 1 s
  | some (second, h) =>
    let t := measExtend 1 (headerBytes s second) { s with glb := { s.glb with header := some h, headerSecond := second } }
    reach 5 t

def execBootHeaderRead (s : State) : Res := run .bootHeaderRead (fun t => startStep (t.glb.step == 4) headerEffect t) s

/-- NOR_OCTAL_SWITCH (R40). -/
def octalEffect (s : State) : State :=
  match s.glb.header with
  | none => s
  | some h =>
    let f := min h.freq 200
    raiseIf (decide (200 < h.freq)) .nvc .notice 40 0 [h.freq] (reach 6 { s with nvc := { s.nvc with
      octal := true, freqMhz := f, supBand := h.supply == 1, dummy := max (waitStates f (h.supply == 1)) h.dummy,
      tsus := BitVec.ofNat 8 h.tsus } })

def execNorOctalSwitch (s : State) : Res := run .norOctalSwitch (fun t => startStep (t.glb.step == 5) octalEffect t) s

/-- The profile of a slot comes into use: measured, and its port settings known before the ports train. -/
def useProfile (sel : BitVec 2) (len : Nat) (l : List ProfRec) (s : State) : State :=
  let t := measExtend 2 ((profileBytes s sel.toNat).take len) s
  reach 7 (earlySettings l { t with glb := { t.glb with profile := l, activeSel := sel } })

/-- PROFILE_READ (R50, R53): the override, and where it fails the pin selection. -/
def profileEffect (s : State) : State :=
  let byPins := fun t : State => match checkProfile (profileBytes t t.glb.pinSel.toNat) t.glb.pinSel.toNat with
    | some (len, l) => useProfile t.glb.pinSel len l t
    | none => enterRom 2 t
  if s.glb.ovrValid then
    match checkProfile (profileBytes s s.glb.ovrSel.toNat) s.glb.ovrSel.toNat with
    | some (len, l) => useProfile s.glb.ovrSel len l s
    | none =>
      byPins (raise .glb .fault 50 0 [s.glb.ovrSel.toNat] { s with glb := { s.glb with ovrValid := false, ovrSel := 0 } })
  else byPins s

def execProfileRead (s : State) : Res := run .profileRead (fun t => startStep (t.glb.step == 6) profileEffect t) s

/-- PCIE_DETECT_EXIT (R71), in ROM-SERVICE too. -/
def detectExitEffect (s : State) : State :=
  let free := fun t : State => { t with hep := { t.hep with
    port0 := { t.hep.port0 with mayTrain := true }, port1 := { t.hep.port1 with mayTrain := true } } }
  if s.glb.service = .romService then onlyIf (s.glb.powered && !s.glb.resetHeld) free s
  else
    let t := startStep (s.glb.step == 7) (fun u => reach 8 (free u)) s
    if t.glb.service = .romService then free t else t

def execPcieDetectExit (s : State) : Res := run .pcieDetectExit detectExitEffect s

/-- The bands of the twelve channels by their first reading (R381). -/
def firstBands (temps : List Int) (s : State) : State :=
  forEach (List.range 12) (fun c t =>
    let x := temps.getD c 0
    noteHot c x { t with drc := { t.drc with
      temps := tabPut 0 c x t.drc.temps, bands := tabPut 0 c (highestBand t.drc x 0 t.drc.nbands) t.drc.bands } }) s

/-- DRAM_INIT (R379, R381). -/
def dramInitEffect (slots : List Spd) (temps : List Int) (s : State) : State :=
  let t := applyDramSettings s
  let l := slots.filter fun r => slotEnabled t.glb.profile r.channel r.slot
  match populationOk l, l with
  | true, r :: _ =>
    let u := { t with
      drc := { t.drc with ranks := r.ranks, rdimms := l.length, sizeGib := r.gib * l.length },
      pins := { t.pins with dramReady := true } }
    let u := forEach (List.range 12) (fun c v => emit (.dramBand c (bandOf v c)) v) (firstBands temps u)
    reach 9 u
  | _, _ => enterRom 3 t

def execDramInit (slots : List Spd) (temps : List Int) (s : State) : Res :=
  run (.dramInit slots temps) (fun t => startStep (t.glb.step == 8) (dramInitEffect slots temps) t) s

/-- DRAM_CHECK_DONE. -/
def execDramCheckDone (match_ : Bool) (s : State) : Res :=
  run (.dramCheckDone match_) (fun t => startStep (t.glb.step == 9) (fun u => if match_ then reach 10 u else enterRom 3 u) t) s

/-- The bank that the boot ROM tries first (R417). -/
def firstBank (s : State) : Bool :=
  let b := (s.glb.header.map (·.bankB)).getD false
  if s.glb.failedRead = 2 then !b else b

/-- FIRMWARE_READ_DONE: the bank stands in DRAM; the measurements of the bank that is going to run are extended (R54). -/
def firmwareReadEffect (s : State) : State :=
  let b := if s.pins.secondBank then !firstBank s else firstBank s
  let t := reach 12 { s with pins := { s.pins with fwRead := true }, glb := { s.glb with bankB := b } }
  if bankCheck s b = 0 then
    measExtend 4 (partBytes s b 2 ++ partBytes s b 3)
      (measExtend 3 (norRead s (bankAddr b) (manifestLen s b) ++ partBytes s b 1) t)
  else t

def execFirmwareReadDone (s : State) : Res :=
  run .firmwareReadDone (fun t => startStep ((t.glb.step == 10 || t.glb.step == 11 || t.pins.secondBank) && !t.pins.fwRead) firmwareReadEffect t) s

/-- SIGNATURE_VERIFY_DONE (R416, R417): the other bank is tried where the first fails. -/
def verifyEffect (s : State) : State :=
  let d := bankCheck s s.glb.bankB
  if d = 0 then reach 13 { s with pins := { s.pins with verified := true } }
  else
    let t := raiseListed .svc .fault 0x3804 [if s.glb.bankB then 1 else 0, BitVec.ofNat 8 d] s
    if s.pins.secondBank then enterRom 4 { t with glb := { t.glb with bankB := false } }
    else { t with pins := { t.pins with fwRead := false, secondBank := true } }

def execSignatureVerifyDone (s : State) : Res :=
  run .signatureVerifyDone (fun t => startStep (t.pins.fwRead && !t.pins.verified) verifyEffect t) s

/-- The ING and MED areas and tables that the DRAM's size gives (R115, R137, R201). -/
def sizeAreas (s : State) : State :=
  let d := s.drc.sizeGib * 2 ^ 30
  let stage := min (2 ^ 33) (d / 32) / 2 ^ 28 * 2 ^ 28
  { s with
    ing := { s.ing with
      blocks := stage / 4096, hookCap := 3 * (d / 32) / 64, buckets := d / 32 / 64, ccSlots := d / 64 / 49152 },
    med := { s.med with areas := { cachePages := s.drc.sizeGib / 2 * 65536, dirBytes := d / 64 } } }

/-- The lanes that setting 0x0601 enables begin to train (R236). -/
def startLanes (s : State) : State :=
  forEach s.pins.laneMask (fun n t => modLane n (fun l => { beginTry l with st := .training, tries := 0 }) t)
    { s with pins := { s.pins with lanesIdle := false } }

/-- MEAS5 takes the Manifest body of the bank that is not running (R424); a bank without one gives no body to measure, and what the
register then holds is open. -/
def measureOther (s : State) : State :=
  let b := !s.glb.bankB
  if manifestShape s b then measExtend 5 (manifestBody s b) s else tickLong 48 (measExtend 5 (freeLong 48 s) s)

/-- CORE_RELEASE (R38, R51): the firmware runs, applies the settings, and begins to train its links. -/
def coreReleaseEffect (s : State) : State :=
  let t := { s with
    glb := { s.glb with step := 0xFF }, pins := { s.pins with coresOut := true },
    pair := { s.pair with ownFw := BitVec.ofNat 32 (bankVersion s s.glb.bankB) } }
  sendHello (startLanes (measureOther (sizeAreas (applySettings t))))

def execCoreRelease (s : State) : Res :=
  run .coreRelease (fun t => startStep (t.pins.verified && !t.pins.coresOut) coreReleaseEffect t) s

/-! ### The end of START-UP (R58) -/

/-- A slot from its key area entry (R169): LOST where the blob fails to unwrap, with a Critical event; a device slot is then EMPTY
(R423). -/
def restoreSlot (swk : Bytes) (p : Nat × Bytes) (s : State) : State :=
  let e := p.2
  let t := BitVec.ofNat 3 (numAt e 2 1)
  let owner := numAt e 4 2
  let exportable := bitOf (numAt e 6 1) 0
  match (if crcOk e then kwpUnwrap swk (bytesAt e 68 (numAt e 64 2)) else none) with
  | some m => setSlot p.1 (filledSlot t owner exportable m (numAt e 24 8 != 0)) s
  | none => raise .sec .critical 169 0 [p.1] (if 0x1FF0 ≤ p.1 then s else
      setSlot p.1 { type := t, state := .lost, owner := owner, exportable := exportable, idA := BitVec.ofNat 64 (numAt e 8 8),
                    idSeal := BitVec.ofNat 64 (numAt e 16 8), idData := BitVec.ofNat 64 (numAt e 24 8) } s)

/-- The SWK is copied from the watch domain into slot 0x1FFF (R165). -/
def swkCopied (s : State) : State :=
  match s.wch.swk with
  | some k => setSlot swkSlot (filledSlot typeWrap 0 false k false) s
  | none => s

/-- The slots at start-up: unwrapped under the SWK, or LOST under a new one when it is gone (R195). -/
def restoreKeys (s : State) : State :=
  match s.wch.swk with
  | some k => swkCopied (forEach s.sec.persisted (restoreSlot k) s)
  | none =>
    let t := drbgUse 1 (tick { s with wch := { s.wch with swk := some (freeBytes 32 s) } })
    swkCopied (forEach t.sec.persisted (fun p u => raise .sec .critical 169 0 [p.1] (if 0x1FF0 ≤ p.1 then u else
      setSlot p.1 { type := BitVec.ofNat 3 (numAt p.2 2 1), state := .lost, owner := numAt p.2 4 2, exportable := bitOf (numAt p.2 6 1) 0,
                    idA := BitVec.ofNat 64 (numAt p.2 8 8), idSeal := BitVec.ofNat 64 (numAt p.2 16 8),
                    idData := BitVec.ofNat 64 (numAt p.2 24 8) } u)) t)

/-- ROLLBACK (R417): the firmware runs from the bank that is not preferred, and makes it the preferred one. -/
def rollback (s : State) : State :=
  match s.glb.header with
  | none => s
  | some h =>
    if h.bankB = s.glb.bankB then s
    else
      let n : BootHeader := { h with bankB := s.glb.bankB, sequence := nextSequence h.sequence }
      let t := writeHeader (!s.glb.headerSecond) n s
      raiseListed .svc .fault 0x3803 ((if s.glb.bankB then 1 else 0) :: leBytes 4 (bankVersion t false) ++ leBytes 4 (bankVersion t true)) t

/-- Does something await replay or resumption, or is the hold-up setting absent? -/
def needsRecovery (s : State) : Bool := !s.plf.records.isEmpty || !s.par.ckpts.isEmpty || s.pins.holdup.isNone

/-- START-UP ends: the staging key is drawn (R117), jobs go on from their checkpoints, a role is chosen where the peer has been heard,
and the chip joins the chain. -/
def readyEffect (s : State) : State :=
  let v := if needsRecovery s then Service.recovery else .normal
  let t := restoreKeys s
  let t := tick { t with
    ing := { t.ing with hashKey := Config.freeValue t.freeCtr }, sec := (drbgUse 1 t).sec,
    rdm := { t.rdm with atomicsOff := t.rdm.atomicsOff || v == .normal } }
  let t := setService v (wchCross (.other (.failedStarts 0)) (rollback t))
  let t := forEach t.par.ckpts resumeTask t
  let t := if t.peer.linkUp && !t.peer.roleChosen then chooseRole t.peer.peerEpoch t else t
  beginJoin (noteAlive (listScans t))

/-- FIRMWARE_READY: not before the TRNG is SEEDED (R199). -/
def execFirmwareReady (s : State) : Res :=
  run .firmwareReady (fun t => onlyIf (starting t && t.pins.coresOut && t.sec.rng.st == .seeded) readyEffect t) s

/-- RECOVERY_DONE (R58); control pair 0 makes the change (R343). -/
def recoveryDoneEffect (s : State) : State :=
  if s.glb.service = .recovery ∧ s.plf.records = [] ∧ s.pins.holdup.isSome = true ∧ s.peer.pair0.inReset = false then
    listScans (setService .normal { s with rdm := { s.rdm with atomicsOff := true } })
  else s

def execRecoveryDone (s : State) : Res := run .recoveryDone recoveryDoneEffect s

/-! ### Junction temperature (R454, R455) -/

/-- The hottest sensor, the lowest of equals. -/
def hottest : List Int → Nat → Int × Nat → Int × Nat
  | [], _, m => m
  | t :: r, i, m => hottest r (i + 1) (if m.1 < t then (t, i) else m)

/-- The throttle: THRIFT behaviour from the limit until 5 °C below it. -/
def throttleEffect (t : Int) (s : State) : State :=
  let on := decide (s.clk.throttleC ≤ t) || (s.clk.throttled && decide (s.clk.throttleC - 5 < t))
  if on = s.clk.throttled then s
  else
    noteClk s { s with
      clk := { s.clk with throttled := on }, ing := pacedFlush (if on then .thrift else s.clk.pace) s.ing }

/-- The shutdown limit: a Critical event, and the flush as if PWR_FAIL_L had fallen. -/
def thermalShutdown (t : Int) (s : State) : State :=
  if t < s.clk.shutdownC ∨ s.pins.thermal = true then s
  else
    let u := raise .clk .critical 455 0 [(BitVec.ofInt 8 t).toNat] { s with pins := { s.pins with thermal := true } }
    let u := powerLoss u
    { u with pins := { u.pins with stat := 7 } }

/-- JUNCTION_SENSOR_READ. -/
def junctionEffect (temps : List Int) (s : State) : State :=
  match temps with
  | [] => s
  | x :: r =>
    if !s.glb.powered || s.glb.resetHeld then s
    else
      let m := hottest r 1 (x, 0)
      let peak := if s.clk.tjSeen then max s.clk.tjPeak m.1 else m.1
      thermalShutdown m.1 (throttleEffect m.1 { s with clk := { s.clk with
        tjNow := m.1, tjSensor := m.2, tjPeak := peak, tjSeen := true } })

def execJunctionSensorRead (temps : List Int) (s : State) : Res := run (.junctionSensorRead temps) (junctionEffect temps) s

/-- THERMTRIP_DEADLINE. -/
def execThermtripDeadline (s : State) : Res :=
  run .thermtripDeadline (fun t => onlyIf t.pins.thermal (fun u => { u with pins := { u.pins with thermTrip := true } }) t) s

/-! ### Supplies (R229, R442, R446) -/

/-- SUPPLY_FALL: the chip is unpowered, and what it held is gone; a fall that neither PWR_FAIL_L nor SYS_RESET_L announced is a VOLT
alarm first. -/
def supplyFallEffect (s : State) : State :=
  if !s.glb.powered then s
  else
    let t := if s.pins.pwrFail || s.pins.sysResetLow then s else alarm .volt s
    let t := chipWideReset .powerOn t
    { t with glb := { t.glb with powered := false }, pins := { t.pins with hiZ := true, thermTrip := false, pwrFail := false }, clk := { t.clk with rails := 0 } }

def execSupplyFall (s : State) : Res := run .supplyFall supplyFallEffect s

end Sys2Proof.Machine
end

