-- ==== Sys2Proof/Machine/Cache.lean ====
section
/-! DEFINITION. The shared cache: the merging buffers (R20), prefetch (R21), misses (R22), parity and retired lines (R23), and the
locked scratchpad (R24, R25). Lines are numbered in units of 128 bytes. -/

namespace Sys2Proof.Machine

def sliceOf (s : State) (n : Nat) : Slice := tabGet {} n s.cache.slices

def modSlice (n : Nat) (f : Slice → Slice) (s : State) : State :=
  { s with cache := { s.cache with slices := tabMod {} n f s.cache.slices } }

/-! ### The merging buffer (R20) -/

/-- The bytes of a line that wait in a buffer. -/
def pendingBytes (x : Slice) (line : Nat) : List (Nat × Byte) :=
  match x.merging.find? fun p => p.1 == line with
  | some p => p.2
  | none => []

/-- A line with its pending bytes over what DRAM holds. -/
def mergedLine (s : State) (n line : Nat) : Bytes :=
  let l := pendingBytes (sliceOf s n) line
  (List.range 128).map fun i => match l.find? fun p => p.1 == i with
    | some p => p.2
    | none => cellRead dramDefault s.dram (128 * line + i)

/-- A line of the buffer goes to DRAM. -/
def drainLine (n line : Nat) (s : State) : State :=
  let l := pendingBytes (sliceOf s n) line
  let t := forEach l (fun p u => { u with dram := cellsWrite dramDefault [p.2] (128 * line + p.1) u.dram }) s
  let t := modSlice n (fun x => { x with merging := x.merging.filter fun p => p.1 != line }) t
  forEach ([0, 1].filter fun h => l.any fun p => p.1 / 64 == h)
    (fun h u => emit (.dramWrite (2 * line + h) (cellsRead dramDefault u.dram (128 * line + 64 * h) 64)) u) t

/-- Bytes written over those that already wait. -/
def mergeBytes (off : Nat) (data : Bytes) (l : List (Nat × Byte)) : List (Nat × Byte) :=
  let new := (List.range data.length).zip data |>.map fun p => (off + p.1, p.2)
  (l.filter fun p => p.1 < off || off + data.length ≤ p.1) ++ new

/-- A write enters the buffer; a full buffer drains one line, which one the spec leaves open. -/
def writeEffect (n line off : Nat) (data : Bytes) (s : State) : State :=
  let x := sliceOf s n
  let t := if x.merging.any fun p => p.1 == line then
      modSlice n (fun y => { y with merging := y.merging.map fun p => if p.1 = line then (p.1, mergeBytes off data p.2) else p }) s
    else modSlice n (fun y => { y with merging := y.merging ++ [(line, mergeBytes off data [])] }) s
  let l := (sliceOf t n).merging.map (·.1)
  if l.length < 64 then t else drainLine n (l.getD (freePick l.length t) 0) (tick t)

/-- CACHE_WRITE. -/
def execCacheWrite (slice : Fin 16) (line : Nat) (off : Fin 128) (data : Bytes) (s : State) : Res :=
  run (.cacheWrite slice line off data) (writeEffect slice.val line off.val data) s

/-- LINE_WAIT_EXPIRY. -/
def execLineWaitExpiry (slice : Fin 16) (line : Nat) (s : State) : Res := run (.lineWaitExpiry slice line) (drainLine slice.val line) s

/-! ### Misses and prefetch (R21, R22) -/

/-- The lines that a slice can hold: 3 MiB, less its share of the scratchpad and the retired locations. -/
def sliceLines (s : State) (n : Nat) : Nat := 24576 - 1024 * s.cache.lockSteps - (sliceOf s n).retired

def hits (x : Slice) (line : Nat) : Bool := x.lines.contains line || (pendingBytes x line).length == 128

/-- The tracker of a stream after a miss. -/
def trackMiss (line : Nat) (t : Tracker) : Tracker :=
  let d : Int := Int.ofNat line - Int.ofNat t.last
  { t with last := line, stride := d, run := if d = t.stride ∧ d ≠ 0 then t.run + 1 else 2 }

/-- The lines to prefetch: 3 misses at one stride of 128 bytes to 4 KiB fetch up to 4 lines ahead. -/
def prefetchLines (t : Tracker) : List Nat :=
  if 3 ≤ t.run ∧ 1 ≤ t.stride.natAbs ∧ t.stride.natAbs ≤ 32 then
    (List.range 4).filterMap fun i =>
      let a := Int.ofNat t.last + t.stride * Int.ofNat (i + 1)
      if 0 ≤ a then some a.toNat else none
  else []

/-- A miss begins, while fewer than 32 are outstanding. -/
def openMiss (line : Nat) (x : Slice) : Slice :=
  if x.misses.contains line || !decide (x.misses.length < 32) then x else { x with misses := x.misses ++ [line] }

def prefetch (l : List Nat) (x : Slice) : Slice :=
  l.foldl (fun y a => if y.lines.contains a then y else openMiss a y) x

/-- The trackers of a slice after a miss; the oldest goes when a 65th stream comes. -/
def track (stream line : Nat) (x : Slice) : Slice :=
  if x.trackers.any fun t => t.stream == stream then
    { x with trackers := modFirst (fun t => t.stream == stream) (trackMiss line) x.trackers }
  else
    let l := x.trackers ++ [⟨stream, line, 0, 1⟩]
    { x with trackers := if 64 < l.length then l.drop 1 else l }

/-- A stream waits for a line: on an outstanding miss, on a new one, or behind the 32 that are outstanding. -/
def missLine (stream line : Nat) (x : Slice) : Slice :=
  if x.misses.contains line || decide (x.misses.length < 32) then
    let y := openMiss line x
    { y with waiting := y.waiting ++ [(stream, line)] }
  else { x with queued := x.queued ++ [(stream, line)] }

/-- A miss of a stream, with what it prefetches. -/
def missEffect (n stream line : Nat) (s : State) : State :=
  modSlice n (fun x =>
    let y := missLine stream line (track stream line x)
    match y.trackers.find? fun t => t.stream == stream with
    | some t => prefetch (prefetchLines t) y
    | none => y) s

/-- Does a stream wait for a line already? -/
def lineAwaited (x : Slice) (stream : Nat) : Bool := (x.waiting ++ x.queued).any fun p => p.1 == stream

def countRefetch (s : State) : State := { s with cache := { s.cache with parRefetch := satAdd 0xFFF s.cache.parRefetch 1 } }

/-- A read of a line: a hit, or a miss; a parity error invalidates the line and refetches it (R23). -/
def readLine (n stream line : Nat) (parityError : Bool) (s : State) : State :=
  let x := sliceOf s n
  if lineAwaited x stream then s
  else if x.lines.contains line && parityError then
    countRefetch (modSlice n (fun y =>
      missLine stream line { y with lines := y.lines.filter (· != line), refetch := tabPut 0 line 1 y.refetch }) s)
  else if hits x line then emit (.cacheData stream line (mergedLine s n line)) s
  else missEffect n stream line s

/-- The scratchpad word of an address. What firmware keeps there is not in the spec: the word holds free bytes, the same ones from its
first read on. -/
def scratchWord (addr : Nat) (s : State) : Bytes :=
  let b := tabGet [] (addr / 8) s.cache.scratch
  if b.isEmpty then freeBytes 8 s else b

/-- The word stands in the scratchpad: where it was not known before, its free bytes are used up. -/
def keepWord (addr : Nat) (s : State) : State :=
  if (tabGet [] (addr / 8) s.cache.scratch).isEmpty then
    tick { s with cache := { s.cache with scratch := tabPut [] (addr / 8) (freeBytes 8 s) s.cache.scratch } }
  else s

/-- A read of the scratchpad (R24): a single-bit error is corrected, the corrected word is delivered, stands in the scratchpad and is
counted; a double-bit error delivers nothing. -/
def readScratch (stream addr : Nat) (bits : Fin 3) (cmd : Option Nat) (s : State) : State :=
  if bits = 2 then
    forSome cmd loseCommand
      (raise .glb .critical 24 0 [addr] { s with cache := { s.cache with scrUe := satAdd 0xF s.cache.scrUe 1 } })
  else
    let t := if bits = 1 then { s with cache := { s.cache with scrCe := satAdd 0xFFF s.cache.scrCe 1 } } else s
    keepWord addr (emit (.cacheData stream (addr / 128) (scratchWord addr t)) t)

/-- CACHE_READ. -/
def execCacheRead (slice : Fin 16) (stream : Nat) (t : CacheTarget) (s : State) : Res :=
  run (.cacheRead slice stream t) (fun u => match t with
    | .line addr parityError => readLine slice.val stream (addr / 128) parityError u
    | .scratch addr bits cmd => readScratch stream addr bits cmd u) s

/-- The streams that wait for a line receive it. -/
def releaseLine (n line : Nat) (s : State) : State :=
  let l := (sliceOf s n).waiting.filter fun p => p.2 == line
  forEach l (fun p t => emit (.cacheData p.1 line (mergedLine t n line)) t)
    (modSlice n (fun x => { x with waiting := x.waiting.filter fun p => p.2 != line }) s)

/-- The first stream behind the 32 misses: it hits, or waits on a miss. -/
def serveQueued (n : Nat) (s : State) : State :=
  match (sliceOf s n).queued with
  | [] => s
  | p :: ps =>
    let t := modSlice n (fun x => { x with queued := ps }) s
    if hits (sliceOf t n) p.2 then emit (.cacheData p.1 p.2 (mergedLine t n p.2)) t else modSlice n (missLine p.1 p.2) t

/-- The streams behind the 32 misses go on, first one first, until one must wait for one of the 32 (R22). -/
def nextQueued (n : Nat) (s : State) : State :=
  forEach (sliceOf s n).queued (fun p t =>
    let x := sliceOf t n
    onlyIf (x.queued.head? == some p && (hits x p.2 || x.misses.contains p.2 || decide (x.misses.length < 32))) (serveQueued n) t) s

/-- A line is retired: a Notice event, and a Fault event as the slice's 257th goes. -/
def retireLine (n line : Nat) (s : State) : State :=
  let t := modSlice n (fun x => { x with retired := x.retired + 1, refetch := tabPut 0 line 0 x.refetch }) s
  let t := raise .glb .notice 23 0 [n, line] t
  raiseIf ((sliceOf t n).retired == 257) .glb .fault 23 1 [n] t

/-- A missed line arrives whole (R22, R23). -/
def fillEffect (n line : Nat) (parityError : Bool) (displaced : List Nat) (s : State) : State :=
  let x := sliceOf s n
  let bad := tabGet 0 line x.refetch
  if !x.misses.contains line then s
  else if parityError && decide (bad < 2) then countRefetch (modSlice n (fun y => { y with refetch := tabPut 0 line (bad + 1) y.refetch }) s)
  else
    let gone := modSlice n (fun y => { y with misses := y.misses.filter (· != line) })
    let t := if parityError then retireLine n line (gone s)
      else modSlice n (fun y =>
        let l := (y.lines.filter fun a => !(displaced.contains a)) ++ [line]
        { y with lines := l.drop (l.length - sliceLines s n), refetch := tabPut 0 line 0 y.refetch }) (gone s)
    nextQueued n (releaseLine n line t)

/-- LINE_FILL. -/
def execLineFill (slice : Fin 16) (line : Nat) (parityError : Bool) (displaced : List Nat) (s : State) : Res :=
  run (.lineFill slice line parityError displaced) (fillEffect slice.val line parityError displaced) s

end Sys2Proof.Machine
end

