-- ==== Sys2Proof/Machine/Digest.lean ====
section
/-! DEFINITION. The general digest unit (R189 to R192). -/

namespace Sys2Proof.Machine

def modDg (f : Dg → Dg) (s : State) : State := { s with sec := { s.sec with dg := f s.sec.dg } }

/-- The unit names an HMAC by bit 1 of ALG. -/
def dgIsHmac (alg : BitVec 2) : Bool := alg.getLsbD 1

/-- ABORT clears the context and the result (R190). -/
def dgAbortPart (d : Dg) : Dg :=
  { d with busy := false, done := false, lastGiven := false, message := [], result := [], comparing := false }

/-- START (R190): ignored while BUSY; refused for a slot that is not an ACTIVE HMAC slot. -/
def dgStartPart (s : State) (d : Dg) : Dg :=
  if d.busy then { d with seqErr := true }
  else if dgIsHmac d.alg && !((slotOf s d.keySlot.toNat).state == .active && (slotOf s d.keySlot.toNat).type == 5) then
    { d with keyErr := true }
  else { dgAbortPart d with busy := true, matched := false, cmpDone := false }

/-- CMP (R192). -/
def dgCmpPart (d : Dg) : Dg :=
  if d.done then { d with comparing := true } else { d with earlyCmp := true, cmpDone := true, matched := false }

/-- ALG and KEY_SLOT of a write of SEC.DG_CTL; a digest under way keeps those it started with. -/
def dgFields (ctl : Word32) (d : Dg) : Dg :=
  if d.busy then d else { d with alg := ctl.extractLsb' 0 2, keySlot := ctl.extractLsb' 16 13 }

/-- A write of SEC.DG_CTL: ABORT, then the fields, then START, then CMP (DESIGN CHOICE for several bits at once). -/
def dgCtl (ctl : Word32) (s : State) : State :=
  modDg (fun d =>
    let a := dgFields ctl (if ctl.getLsbD 30 then dgAbortPart d else d)
    let b := if ctl.getLsbD 31 then dgStartPart s a else a
    if ctl.getLsbD 29 then dgCmpPart b else b) s

def execDgStart (ctl : Word32) (s : State) : Res := run (.dgStart ctl) (dgCtl ctl) s
def execDgAbort (ctl : Word32) (s : State) : Res := run (.dgAbort ctl) (fun t => dgCtl ctl t) s
def execDgCmp (ctl : Word32) (s : State) : Res := run (.dgCmp ctl) (fun t => dgCtl ctl t) s

/-- DG_DATA_WRITE (R189, R190). -/
def dgData (w : Word32) (d : Dg) : Dg :=
  if d.busy && !d.lastGiven then { d with message := d.message ++ leBytes 4 w.toNat } else { d with seqErr := true }

def execDgDataWrite (w : Word32) (s : State) : Res := run (.dgDataWrite w) (modDg (dgData w)) s

/-- DG_LAST_WRITE (R189, R190): bytes above the count are ignored. -/
def dgLast (w : Word32) (d : Dg) : Dg :=
  if d.busy && !d.lastGiven then
    { d with message := d.message ++ (leBytes 4 w.toNat).take d.lastValid.toNat, lastGiven := true }
  else { d with seqErr := true }

def execDgLastWrite (w : Word32) (s : State) : Res := run (.dgLastWrite w) (modDg (dgLast w)) s

/-- The digest of the message. -/
def dgCompute (s : State) (d : Dg) : Bytes :=
  let key := (slotOf s d.keySlot.toNat).material
  match d.alg.toNat with
  | 0 => sha256 d.message
  | 1 => sha384 d.message
  | 2 => hmacSha256 key d.message
  | _ => hmacSha384 key d.message

/-- DIGEST_DONE (R189, R191). -/
def digestDoneEffect (s : State) : State :=
  let d := s.sec.dg
  if d.busy && d.lastGiven then
    modDg (fun x => { x with busy := false, done := true, result := dgCompute s d, message := [], lastGiven := false }) s
  else s

def execDigestDone (s : State) : Res := run .digestDone digestDoneEffect s

/-- DIGEST_COMPARE_DONE (R192): over the digest's length. -/
def digestCompared (d : Dg) : Dg :=
  if d.comparing then
    { d with comparing := false, cmpDone := true, matched := d.result == d.expect.take d.result.length }
  else d

def execDigestCompareDone (s : State) : Res := run .digestCompareDone (modDg digestCompared) s

end Sys2Proof.Machine
end

