-- ==== Sys2Proof/Machine/Hep.lean ====
section
/-! DEFINITION. The host endpoint: link training, resets of ports and functions, poisoned data, error containment,
interrupt unmasking and function power states (R61 to R80). -/

namespace Sys2Proof.Machine

/-! ### Link training (R61, R62, R69, R71) -/

/-- The rate code of a trained link: the highest that partner, cap and mode allow; 64 GT/s needs FLIT mode. 0: no link. -/
def trainRate (partner cap : Fin 4) (flit : Bool) : Fin 4 := min (min partner cap) (if flit then 3 else 2)

/-- May a port leave Detect? -/
def mayLeaveDetect (p : Port) : Bool := p.mayTrain && p.inDetect && !p.perstLow && !p.cleanup

/-- PCIE_RECEIVER_DETECT: a partner without 16 GT/s leaves the port in Detect and Polling. -/
def receiverDetect (p : Fin 2) (partner : Fin 4) (width : Fin 6) (flit : Bool) (s : State) : State :=
  let x := portOf s p
  let r := trainRate partner x.rateCap flit
  if mayLeaveDetect x && r != 0 && width != 0 then
    modPort p (fun x => { x with dlUp := true, inDetect := false, width := width, rate := r, flit := flit }) s
  else s

def execPcieReceiverDetect (port : Fin 2) (partnerRate : Fin 4) (width : Fin 6) (flit : Bool) (s : State) : Res :=
  run (.pcieReceiverDetect port partnerRate width flit) (receiverDetect port partnerRate width flit) s

/-! ### Resets (R67 to R70) -/

/-! Configuration requests (R64, R69, R75) -/

/-- A configuration request: Unsupported Request for a function that is not implemented, Request Retry Status while the function is
being cleaned up, and otherwise its effect. -/
def cfgRequest (f : FnId) (act : State → State) (s : State) : State :=
  if !functionUp s f then emit (.config f .unsupported) s
  else if f.fn.toNat ∈ (portOf s f.port).cleanFns then emit (.config f .retry) s
  else act s

/-- What a reset of functions clears: their queue pairs after R68, MSI-X tables, configuration space and function state. -/
def clearFunctions (p : FnId → Bool) (s : State) : State :=
  let t := dropQps (fun q => p q.key.f) (settleQueues (fun q => p q.key.f) s)
  { t with
    hep := { t.hep with msix := t.hep.msix.filter fun v => !p v.f, fnMask := t.hep.fnMask.filter fun f => !p f,
                        d3 := t.hep.d3.filter fun f => !p f, cfg := t.hep.cfg.filter fun c => !p c.f },
    hqe := { t.hqe with admin := t.hqe.admin.filter fun a => !p a.f } }

/-- The function numbers of a port. -/
def portFunctions (s : State) (p : Fin 2) : List Nat := List.range ((portOf s p).numVf + 1)

/-- A port fundamental reset, hot reset or link-down (R67): the AER and FREEZE cause bits survive. -/
def portReset (p : Fin 2) (s : State) : State :=
  let fns := portFunctions s p
  modPort p (fun x => { x with dlUp := false, inDetect := true, width := 0, rate := 0, flit := false, frozen := false,
                               numVf := 0, cleanup := true, cleanFns := fns })
    (clearFunctions (fun f => f.port == p) s)

/-- PERST_ASSERT (R67): the reset needs the pin low for 1 µs or longer. -/
def perstAssertEffect (p : Fin 2) (lowNs : Nat) (s : State) : State :=
  if 1000 ≤ lowNs then portReset p (modPort p (fun x => { x with perstLow := true }) s) else s

def execPerstAssert (port : Fin 2) (lowNs : Nat) (s : State) : Res :=
  run (.perstAssert port lowNs) (perstAssertEffect port lowNs) s

/-- PERST_RELEASE (R69). -/
def execPerstRelease (port : Fin 2) (s : State) : Res :=
  run (.perstRelease port) (modPort port fun x => { x with perstLow := false }) s

/-- A reset that comes over the link needs one. -/
def linkReset (p : Fin 2) (s : State) : State := if (portOf s p).dlUp then portReset p s else s

def execHotReset (port : Fin 2) (s : State) : Res := run (.hotReset port) (linkReset port) s

def execPcieLinkDown (port : Fin 2) (s : State) : Res := run (.pcieLinkDown port) (fun t => linkReset port t) s

/-- PF0_FLR (R67): PF0 and, with VF Enable, every VF of the port; the link and the frozen state stay (R70). -/
def pf0FlrEffect (p : Fin 2) (s : State) : State :=
  let fns := portFunctions s p
  modPort p (fun x => { x with numVf := 0, cleanup := true, cleanFns := fns }) (clearFunctions (fun f => f.port == p) s)

def execPf0Flr (port : Fin 2) (s : State) : Res := run (.pf0Flr port) (cfgRequest ⟨port, 0⟩ (pf0FlrEffect port)) s

/-- VF_FLR (R67). -/
def vfFlrEffect (f : FnId) (s : State) : State :=
  if isPf f || !functionUp s f then s
  else modPort f.port (fun x => { x with cleanup := true, cleanFns := insertNat f.fn.toNat x.cleanFns })
    (clearFunctions (fun x => x == f) s)

def execVfFlr (f : FnId) (s : State) : Res := run (.vfFlr f) (cfgRequest f (vfFlrEffect f)) s

/-- RESET_CLEANUP_DONE (R69). -/
def execResetCleanupDone (port : Fin 2) (s : State) : Res :=
  run (.resetCleanupDone port) (modPort port fun x => { x with cleanup := false, cleanFns := [] }) s

/-! ### Error containment (R75 to R77) -/

/-- The severity of a cause bit: bits 2 to 5 are fatal unless host software has set it otherwise (R75). -/
def causeFatal (s : State) (p : Fin 2) (c : Nat) : Bool := (portOf s p).aerFatal.getLsbD c

/-- The header log holds the header of the first error since the status was clear; the row carries no header, so its bytes are free. -/
def logHeader (p : Fin 2) (s : State) : State :=
  if (portOf s p).aer = 0 then tick (modPort p (fun x => { x with aerHeader := freeBytes 32 s }) s) else s

/-- An uncorrectable error is reported through AER; masked there, it sets its status and no more (R75). -/
def reportAer (p : Fin 2) (bit : Nat) (s : State) : State :=
  let set := modPort p (fun x => { x with aer := x.aer ||| BitVec.ofNat 16 (2 ^ bit) })
  if (portOf s p).aerMask.getLsbD bit then set s
  else emit (.aer p (causeFatal s p bit) bit) (set (logHeader p s))

/-- A Poisoned TLP is an advisory error: it is reported with ERR_COR (R72), unless masked as correctable. -/
def reportPoison (p : Fin 2) (s : State) : State :=
  let t := modPort p (fun x => { x with aer := x.aer ||| 0x100, aerCorr := x.aerCorr ||| 0x100 }) (logHeader p s)
  if (portOf s p).corrMask.getLsbD 8 then t else emit (.aer p false 8) t

/-- R75, R76: the port freezes with its cause; its commands are settled and every queue is marked frozen. -/
def freezePort (p : Fin 2) (c : Fin 6) (s : State) : State :=
  let was := (portOf s p).frozen
  let t := reportAer p c.val s
  let t := if was then t
    else
      let u := settleQueues (fun q => q.key.f.port == p) t
      forEach (u.hqe.qps.filter fun q => q.key.f.port == p) (fun q v => freezeQueue q.key 5 0xFFFF [] v) u
  modPort p (fun x => { x with
    frozen := true, first := if x.cause = 0 then c.val else x.first, cause := x.cause ||| BitVec.ofNat 6 (2 ^ c.val) }) t

/-- TLP_RECEIVE_ERROR (R75). -/
def tlpErrorEffect (p : Fin 2) (c : Fin 6) (s : State) : State := if (portOf s p).dlUp then freezePort p c s else s

def execTlpReceiveError (port : Fin 2) (cause : Fin 6) (s : State) : Res :=
  run (.tlpReceiveError port cause) (tlpErrorEffect port cause) s

/-- PCIE_COMPLETION_TIMEOUT (R75, cause 0). -/
def execPcieCompletionTimeout (port : Fin 2) (s : State) : Res :=
  run (.pcieCompletionTimeout port) (fun t => tlpErrorEffect port 0 t) s

/-- PORT_RELEASE (R77). -/
def portReleaseEffect (p : Fin 2) (s : State) : State :=
  if (portOf s p).cause = 0 then modPort p (fun x => { x with frozen := false }) s else s

def execPortRelease (port : Fin 2) (s : State) : Res := run (.portRelease port) (portReleaseEffect port) s

/-! ### Poisoned data (R72) -/

/-- Poisoned data of a write: no block is committed. -/
def poisonData (p : Fin 2) (id : Nat) (s : State) : State :=
  match cmdOf s id with
  | none => s
  | some c =>
    if c.op == 0x81 && c.origin == .host && c.q.f.port == p then
      match c.stage with
      | .filling => poisonWrite id s
      | .relayed _ =>
        if c.arrived.length < c.nblk then
          finishCmd id 0x3001 0 0 { s with rdm := { s.rdm with relays := without (fun r => r.cmd == id) s.rdm.relays } }
        else s
      | _ => s
    else s

/-- POISONED_TLP (R72): AER with ERR_COR, and what the TLP carried. -/
def poisonedEffect (p : Fin 2) (k : PoisonKind) (s : State) : State :=
  let t := reportPoison p s
  match k with
  | .writeData id => poisonData p id t
  | .command q head => if q.f.port = p then freezeAtFetch q 1 head t else t
  | .descriptorList q head => if q.f.port = p then freezeAtFetch q 2 head t else t
  | .bar2Write => dropDoorbell p t
  | .bar0Write => t

def execPoisonedTlp (port : Fin 2) (k : PoisonKind) (s : State) : Res := run (.poisonedTlp port k) (poisonedEffect port k) s

/-! ### Interrupts and function power states (R64, R78) -/

/-- A vector whose pending bit is set sends its message once nothing masks it. -/
def sendPending (f : FnId) (v : Nat) (s : State) : State :=
  let e := vectorOf s f v
  if e.pending && !e.masked && !(f ∈ s.hep.fnMask) && !(portOf s f.port).frozen then
    emit (.msix f v) (putVector { e with pending := false } s)
  else s

/-- MSIX_UNMASK (R78). -/
def msixUnmaskEffect (f : FnId) (v : Nat) (s : State) : State :=
  if functionUp s f && decide (v < (if isPf f then 2048 else 64)) then
    sendPending f v (putVector { vectorOf s f v with masked := false } s)
  else s

def execMsixUnmask (f : FnId) (vec : BitVec 11) (s : State) : Res :=
  run (.msixUnmask f vec) (msixUnmaskEffect f vec.toNat) s

/-- D3HOT_ENTRY and D0_RETURN (R64): queue contents stay; only fetching stops. -/
def setD3 (f : FnId) (s : State) : State :=
  { s with hep := { s.hep with d3 := if f ∈ s.hep.d3 then s.hep.d3 else s.hep.d3 ++ [f] } }

def clearD3 (f : FnId) (s : State) : State := { s with hep := { s.hep with d3 := s.hep.d3.filter fun x => !(x == f) } }

def execD3hotEntry (f : FnId) (s : State) : Res := run (.d3hotEntry f) (cfgRequest f (setD3 f)) s

def execD0Return (f : FnId) (s : State) : Res := run (.d0Return f) (cfgRequest f (clearD3 f)) s

end Sys2Proof.Machine
end

