-- ==== Sys2Proof/Machine/Svc.lean ====
section
/-! DEFINITION. The service port: Dweuno frames (R411 to R413), banks, staging and activation (R416 to R421), profiles (R53, R422),
device keys (R423, R424), events (R415), the sweep (R384, R414), TEST (R58) and the fuses (R426, R427). DEBUG ACCESS stands with the
registers. -/

namespace Sys2Proof.Machine

/-! ### Frames (R411 to R413) -/

def serviceKey : Nat := 0x1FF3

/-- A response; it is kept for a repetition of its request. -/
def reply (f : DwFrame) (status : Nat) (payload : Bytes) (s : State) : State :=
  let st := BitVec.ofNat 16 status
  emit (.dweuno f.type f.seq st payload) { s with svc := { s.svc with stored := some (f.seq, f.type, st, payload) } }

/-- An AUTH answer, counted. -/
def replyAuth (f : DwFrame) (s : State) : State :=
  reply f 0x20 [] { s with svc := { s.svc with authFail := satAdd 0xFFFF s.svc.authFail 1, authSecond := s.svc.authSecond + 1 } }

def keyedFrame (f : DwFrame) : Bool := bitOf f.flags.toNat 1

/-- What the tag of a keyed frame covers: the header, the payload and the NONCE. -/
def taggedPart (s : State) (f : DwFrame) : Bytes :=
  leBytes 2 0xD5E0 ++ [f.type, f.flags] ++ leBytes 2 f.seq.toNat ++ [0, 0] ++ leBytes 2 f.payload.length ++ zeros 6 ++ f.payload ++ s.svc.nonce

/-- Does a keyed frame pass: its tag, and a SEQ that rises within the NONCE? -/
def keyPasses (s : State) (f : DwFrame) : Bool :=
  let k := slotOf s serviceKey
  k.state == .active && f.tag == cmac (k.material.take 32) (taggedPart s f)
    && (match s.svc.keyedSeq with
      | some n => decide (n.toNat < f.seq.toNat)
      | none => true)

/-- The key check of R413, for a type that the table requires to be keyed or not. The boot ROM checks none. -/
def checkKey (f : DwFrame) (required : Bool) (body : State → State) (s : State) : State :=
  if s.glb.service = .romService then body s
  else if keyedFrame f then
    (if s.sec.vault.out then reply f 0x24 [] s
    else if keyPasses s f then body { s with svc := { s.svc with keyedSeq := some f.seq } }
    else replyAuth f s)
  else if required then replyAuth f s
  else body s

/-- Does the port take a frame at all: with a good CRC, MAGIC and LEN, on a chip out of reset? -/
def portHears (s : State) (f : DwFrame) : Bool := s.glb.powered && !s.glb.resetHeld && f.good

/-- What a repeated SEQ gets (R412), and otherwise the frame's own handling. -/
def onceOnly (f : DwFrame) (body : State → State) (s : State) : State :=
  if !portHears s f then s
  else
    match s.svc.stored with
    | some (n, t, st, p) => if n = f.seq then emit (.dweuno t n st p) s else notBusy f body s
    | none => notBusy f body s
where
  /-- A request that is still being executed is answered with IN_PROGRESS, and that answer is not kept. -/
  notBusy (f : DwFrame) (body : State → State) (s : State) : State :=
    match s.svc.busy with
    | some (n, t) => if n = f.seq then emit (.dweuno t n 1 []) s else body s
    | none => body s

/-- A request of a type that the table allows in some states. -/
def svcRow (f : DwFrame) (states : List Service) (required : Bool) (body : State → State) (s : State) : State :=
  onceOnly f (fun t => if t.glb.service ∈ states then checkKey f required body t else reply f 0x21 [] t) s

/-! ### HELLO, RESET and profiles -/

/-- What HELLO returns, with the new NONCE. -/
def helloPayload (s : State) (nonce : Bytes) : Bytes :=
  leBytes 4 (partIdWord s) ++ leBytes 8 s.glb.unitSerial.toNat ++ leBytes 4 (stateWord s) ++ leBytes 4 (bootStatusWord s)
    ++ leBytes 4 (bankVersion s false) ++ leBytes 4 (bankVersion s true) ++ leBytes 4 (fuseWord s) ++ nonce

def answerHello (f : DwFrame) (s : State) : State :=
  let n := freeBytes 8 s
  reply f 0 (helloPayload s n) (tick { s with svc := { s.svc with nonce := n, keyedSeq := none } })

/-- DWEUNO_HELLO (R413, R57): in START-UP only one with HOLD in the listening window is taken, as a service request. -/
def dweunoHelloEffect (f : DwFrame) (s : State) : State :=
  onceOnly f (fun t =>
    if t.glb.service != .startUp then checkKey f false (answerHello f) t
    else if bitOf f.flags.toNat 7 && t.pins.listening then answerHello f { t with pins := { t.pins with svcRequest := true } }
    else reply f 0x21 [] t) s

def execDweunoHello (f : DwFrame) (s : State) : Res := run (.dweunoHello f) (dweunoHelloEffect f) s

/-- SVC_RESET. -/
def execSvcReset (f : DwFrame) (s : State) : Res :=
  run (.svcReset f) (svcRow f [.romService, .normal, .recovery, .test] true
    (fun t => reply f 0 [] { t with glb := { t.glb with resetPending := true } })) s

/-- PROFILE_SELECT (R53). -/
def profileSelectBody (f : DwFrame) (s : State) : State :=
  let n := numAt f.payload 0 1
  let c := numAt f.payload 1 1
  if f.payload.length ≠ 2 ∨ 3 < n ∨ 1 < c then reply f 0x11 [] s else reply f 0 [] (selectOverride n (c == 1) s)

def execProfileSelect (f : DwFrame) (s : State) : Res :=
  run (.profileSelect f) (svcRow f [.romService, .normal, .recovery, .test] true (profileSelectBody f)) s

/-- The NOR after a whole sector or bank is erased and programmed; nothing is issued after a power failure (R44). -/
def norRewrite (a n : Nat) (data : Bytes) (s : State) : State :=
  if s.nvc.halted then s else { s with nor := cellsWrite norDefault data a (cellsClear a n s.nor) }

/-- PROFILE_WRITE (R422). -/
def profileWriteBody (f : DwFrame) (s : State) : State :=
  let slot := numAt f.payload 0 1
  let final := numAt f.payload 1 1
  let off := numAt f.payload 4 4
  let data := f.payload.drop 8
  if s.svc.stage = 1 ∨ s.svc.stage = 3 then reply f 0x23 [] s
  else if f.payload.length < 8 ∨ 3 < slot ∨ 1 < final ∨ 65536 < off + data.length then reply f 0x11 [] s
  else
    let b := padTo (max s.svc.profile.length (off + data.length)) s.svc.profile
    let b := b.take off ++ data ++ b.drop (off + data.length)
    if final = 0 then reply f 0 [] { s with svc := { s.svc with profile := b } }
    else
      let t := { s with svc := { s.svc with profile := [] } }
      if (checkProfile (padTo 65536 b) slot).isSome then reply f 0 [] (norRewrite (profileAddr slot) 0x10000 b t) else reply f 0x11 [] t

def execProfileWrite (f : DwFrame) (s : State) : Res :=
  run (.profileWrite f) (svcRow f [.romService, .normal, .recovery, .test] true (profileWriteBody f)) s

/-! ### Staging (R418, R421) -/

/-- STAGE_BEGIN: the bank that is not running, in ROM-SERVICE either, is erased. -/
def stageBeginBody (f : DwFrame) (s : State) : State :=
  let b := numAt f.payload 0 1
  let n := numAt f.payload 4 4
  if s.svc.stage = 3 then reply f 0x23 [] s
  else if f.payload.length ≠ 8 ∨ 1 < b ∨ bankSize < n ∨ (s.glb.service ≠ .romService ∧ (b == 1) = s.glb.bankB) then reply f 0x11 [] s
  else
    reply f 0 [] (norRewrite (bankAddr (b == 1)) bankSize [] (setUnfinished (b == 1) true { s with svc := { s.svc with
      stage := 1, stageBankB := b == 1, stageLen := n, stagedOk := false } }))

def execStageBegin (f : DwFrame) (s : State) : Res := run (.stageBegin f) (svcRow f [.romService, .normal] true (stageBeginBody f)) s

/-- STAGE_DATA: the chunk is programmed; a program that would set a bit again is refused (R43). -/
def stageDataBody (f : DwFrame) (s : State) : State :=
  let off := numAt f.payload 0 4
  let data := f.payload.drop 4
  let a := bankAddr s.svc.stageBankB + off
  if s.svc.stage ≠ 1 then reply f 0x21 [] s
  else if f.payload.length < 4 ∨ s.svc.stageLen < off + data.length then reply f 0x11 [] s
  else if wouldSet data (norRead s a data.length) then reply f 0 [] { s with nvc := { s.nvc with wrRefused := true } }
  else reply f 0 [] (if s.nvc.halted then s else { s with nor := cellsWrite norDefault data a s.nor })

def execStageData (f : DwFrame) (s : State) : Res := run (.stageData f) (svcRow f [.romService, .normal] true (stageDataBody f)) s

/-- The mask of a profile: the entries of the setting list whose tag it holds, but in no record of the listed version that fits. -/
def settingMask (s : State) (b : Bool) (n : Nat) : Nat :=
  match checkProfile (profileBytes s n) n with
  | none => 0
  | some (_, l) =>
    let e := settingList s b
    (List.range e.length).foldl (fun m i =>
      let p := e.getD i (0, 0)
      let mine := l.filter fun r => r.tag.toNat == p.1
      let fit := mine.any fun r => r.version.toNat == p.2 && (p.2 != 1 || !((romTags ++ firmwareTags).contains p.1) || fitsForm p.1 r.value)
      m + flag (!mine.isEmpty && !fit) i) 0

def bankByte (b : Bool) : Byte := if b then 1 else 0

/-- A bank that fails a check: BANK CHECK FAILED, and IMAGE. -/
def badImage (f : DwFrame) (b : Bool) (detail : Nat) (s : State) : State :=
  reply f 0x30 [BitVec.ofNat 8 detail] (raiseListed .svc .fault 0x3804 [bankByte b, BitVec.ofNat 8 detail] s)

/-- STAGE_END: the bank is checked as a staging that has ended leaves it; with OK it counts as ended (R418). -/
def stageEndBody (f : DwFrame) (s : State) : State :=
  let b := s.svc.stageBankB
  let u := setUnfinished b false s
  let d := bankCheck u b
  if s.svc.stage ≠ 1 then reply f 0x21 [] s
  else if d ≠ 0 then badImage f b d { s with svc := { s.svc with stage := 0, stagedOk := false } }
  else
    let t := raiseListed .svc .notice 0x3801 (bankByte b :: leBytes 4 (bankVersion s b) ++ sha384 (manifestBody s b))
      { u with svc := { s.svc with stage := 2, stagedOk := true } }
    reply f 0 ((List.range 4).flatMap fun n => leBytes 8 (settingMask s b n)) t

def execStageEnd (f : DwFrame) (s : State) : Res := run (.stageEnd f) (svcRow f [.romService, .normal] true (stageEndBody f)) s

/-! ### Activation (R419, R420, R424) -/

/-- The header that both copies take: the one in use with the staged bank preferred; where neither copy is valid, the NOR controller's
own settings. -/
def activeHeader (s : State) : BootHeader :=
  match chooseHeader s with
  | some (_, h) => { h with bankB := s.svc.stageBankB, sequence := nextSequence h.sequence }
  | none => ⟨s.svc.stageBankB, s.nvc.freqMhz, s.nvc.dummy, if s.nvc.supBand then 1 else 0, s.nvc.tsus.toNat, 0⟩

/-- Both copies are rewritten, the one that is not in use first. -/
def switchOver (s : State) : State :=
  if s.nvc.halted then s
  else
    let h := activeHeader s
    let second := (chooseHeader s).any (·.1)
    writeHeader second h (writeHeader (!second) h s)

/-- May a head hand over now (R420)? -/
def mayHandOver (s : State) : Bool := s.peer.role == .sole || swapAllowed s

/-- ACTIVATE. With HANDOVER it is answered when the head has handed over (R412, R420). -/
def activateBody (f : DwFrame) (s : State) : State :=
  let n := numAt f.payload 0 1
  let now := bitOf n 0
  let hand := bitOf n 1
  let b := s.svc.stageBankB
  let next := (if s.glb.ovrValid then s.glb.ovrSel else s.glb.pinSel).toNat
  let d := bankCheck s b
  if s.svc.stage = 1 ∨ s.svc.stage = 3 then reply f 0x23 [] s
  else if s.svc.stagedOk = false ∨ s.peer.pair0.inReset = true then reply f 0x21 [] s
  else if f.payload.length ≠ 1 ∨ 7 < n then reply f 0x11 [] s
  else if hand && (!now || !mayHandOver s) then reply f 0x31 [] s
  else if !bitOf n 2 && settingMask s b next != 0 then reply f 0x31 [] s
  else if d ≠ 0 then badImage f b d { s with svc := { s.svc with stage := 0, stagedOk := false } }
  else
    let t := switchOver { s with svc := { s.svc with stage := if now then 3 else 0, stagedOk := false } }
    let t := raiseListed .svc .notice 0x3802 (bankByte b :: leBytes 4 (bankVersion t b) ++ [bankByte hand]) t
    let t := measExtend 7 (sha384 (manifestBody t b)) t
    if hand then beginSwap true { t with svc := { t.svc with busy := some (f.seq, f.type) } }
    else
      let t := reply f 0 [] t
      if now then { t with glb := { t.glb with resetPending := true } } else t

def execActivate (f : DwFrame) (s : State) : Res := run (.activate f) (svcRow f [.romService, .normal] true (activateBody f)) s

/-! ### Events (R415) -/

/-- Records in SEQ order, from a number upward, up to a count. -/
def pickRecords (first count : Nat) (l : List (Nat × Bytes)) : List Bytes :=
  ((sortBy (fun a b => decide (a.1 ≤ b.1)) (l.filter fun p => first ≤ p.1)).take count).map (·.2)

def ringRecords (s : State) : List (Nat × Bytes) :=
  s.evr.ring.filterMap fun e => match e.seq with
    | some n => some (n, e.bytes)
    | none => none

def norRecords (s : State) : List (Nat × Bytes) :=
  (usedSlots s.nor).filterMap fun p => (slotRecord s p.1 p.2).map fun r => (r.1, norRead s (slotAddr p.1 p.2) 64)

/-- EVENT_READ; what the media hold comes with the command. -/
def eventReadBody (f : DwFrame) (media : List Bytes) (s : State) : State :=
  let first := numAt f.payload 0 8
  let count := numAt f.payload 8 2
  let src := numAt f.payload 10 1
  if f.payload.length ≠ 11 ∨ count = 0 ∨ 63 < count ∨ 2 < src then reply f 0x11 [] s
  else if src = 2 ∧ s.glb.service ≠ .normal then reply f 0x21 [] s
  else
    let l := if src = 0 then ringRecords s else if src = 1 then norRecords s else media.map fun b => (recSeq b, b)
    reply f 0 (pickRecords first count l).flatten s

def execEventRead (f : DwFrame) (media : List Bytes) (s : State) : Res :=
  run (.eventRead f media) (svcRow f [.romService, .normal, .recovery, .test] true (eventReadBody f media)) s

/-! ### Keys and tamper (R423) -/

def deviceSlots : List Nat := [0x1FF0, 0x1FF1, 0x1FF2, 0x1FF3, 0x1FFE]

/-- METHOD 0, the first enrolment of the service key. -/
def firstEnrolment (s : State) (f : DwFrame) : Bool :=
  !keyedFrame f && numAt f.payload 0 2 == serviceKey && numAt f.payload 2 1 == 0 && (slotOf s serviceKey).state == .empty

/-- The key in a KEYSET: in clear, or unwrapped under the service key. -/
def keysetKey (s : State) (f : DwFrame) : Option Bytes :=
  let blob := f.payload.drop 6
  let k := if numAt f.payload 2 1 = 0 then some blob
    else if (slotOf s serviceKey).state = .active then kwpUnwrap ((slotOf s serviceKey).material.take 32) blob else none
  match k with
  | some b => if b.length = 32 then some b else none
  | none => none

/-- The slot is filled, measured, and recorded. -/
def enrolKey (n method : Nat) (k : Bytes) (s : State) : State :=
  let x := filledSlot (if n = escrowSlot then typeWrap else typeCmac) 0 false k false
  let t := measExtend 6 (leBytes 2 n ++ leBytes 8 x.idA.toNat) (writeSlot n x s)
  raiseListed .svc (if method = 0 then .critical else .notice) 0x3805 (leBytes 2 n ++ leBytes 1 method ++ leBytes 8 x.idA.toNat) t

/-- KEYSET. -/
def keysetBody (f : DwFrame) (s : State) : State :=
  let n := numAt f.payload 0 2
  let method := numAt f.payload 2 1
  if f.payload.length < 6 ∨ numAt f.payload 4 2 ≠ f.payload.length - 6 ∨ 1 < method ∨ !(deviceSlots.contains n)
    ∨ (method = 0 ∧ firstEnrolment s f = false) then reply f 0x11 [] s
  else if n = pairKey ∧ s.peer.role = .active then reply f 0x31 [] s
  else
    match keysetKey s f with
    | none => reply f 0x11 [] s
    | some k => reply f 0 [] (enrolKey n method k s)

def keysetEffect (f : DwFrame) (s : State) : State := svcRow f [.normal, .recovery] (!firstEnrolment s f) (keysetBody f) s

def execKeyset (f : DwFrame) (s : State) : Res := run (.keyset f) (keysetEffect f) s

/-- TAMPER_CLEAR. -/
def execTamperClear (f : DwFrame) (s : State) : Res :=
  run (.tamperClear f) (svcRow f [.normal] true (fun t => reply f 0 [] (wchCross (.other .clearTamper) t))) s

/-! ### Reshape and re-enumeration (R279, R375) -/

def slotLayout (s : State) (n : Nat) : Layout := if n = 1 then s.par.archive else if n = 2 then s.par.metadata else s.par.ordinary

def setLayout (n : Nat) (l : Layout) (s : State) : State :=
  if n = 1 then { s with par := { s.par with archive := l } }
  else if n = 2 then { s with par := { s.par with metadata := l } }
  else { s with par := { s.par with ordinary := l } }

/-- The cases in which a reshape is refused (R279, R260). -/
def reshapeRefused (s : State) (slot : Nat) (l : Layout) : Bool :=
  s.par.jobs.any (fun j => j.kind == .reshape || j.kind == .buildBeside) || !noFirstPass s
    || decide (l.d < 2) || decide (24 < l.d) || (slot == 2 && !l.q)
    || decide ((healthyLanes s l).length < l.d + parityStrips l) || decide (freePermille s < 40)

/-- RESHAPE: the slot writes under the target from now on, and the boundary starts at segment 0 (R280). -/
def reshapeBody (f : DwFrame) (s : State) : State :=
  let slot := numAt f.payload 0 1
  let q := numAt f.payload 2 1
  let elig := (List.range 96).filter fun n => bitOf (numAt f.payload (4 + n / 8) 1) (n % 8)
  let l : Layout := { id := s.par.nextLay, d := numAt f.payload 1 1, q := q == 1, elig := elig }
  if s.peer.role = .service then reply f 0x21 [] s
  else if f.payload.length ≠ 16 ∨ 2 < slot ∨ 1 < q then reply f 0x11 [] s
  else if reshapeRefused s slot l then reply f 0x31 [] (raise .par .notice 279 0 [slot, l.d] s)
  else
    let old := slotLayout s slot
    let t := setLayout slot l { s with par := { s.par with nextLay := s.par.nextLay + 1 } }
    reply f 0 [] (addTask ⟨0, .reshape, 1, false, true, slot, old.id, l, old.elig.filter fun n => !(n ∈ elig), 0xFFFF, 0, 0, 0, 0, 0⟩ t)

def execReshape (f : DwFrame) (s : State) : Res := run (.reshape f) (svcRow f [.normal] true (reshapeBody f)) s

/-- RE_ENUMERATE: the master starts a re-enumeration. -/
def reEnumerateBody (f : DwFrame) (s : State) : State :=
  if s.mch.role = .master ∧ pair2Up s = true then startEnum (reply f 0 [] s) else reply f 0x21 [] s

def execReEnumerate (f : DwFrame) (s : State) : Res := run (.reEnumerate f) (svcRow f [.normal] true (reEnumerateBody f)) s

/-! ### TEST (R58, R427) -/

/-- A service-state change that the table does not give is refused, with a Notice event (R58). -/
def testRefused (f : DwFrame) (s : State) : State := reply f 0x21 [] (raise .glb .notice 58 0 [serviceCode s.glb.service, 2] s)

def testEntryBody (f : DwFrame) (s : State) : State :=
  if s.glb.debugOff then reply f 0x22 [] s
  else if s.glb.service ≠ .normal ∨ s.peer.role ≠ .service ∨ s.peer.pair0.inReset = true then testRefused f s
  else reply f 0 [] (measExtend 6 [0x54] (setService .test { s with rdm := { s.rdm with atomicsOff := false } }))

/-- TEST_ENTRY. -/
def testEntryEffect (f : DwFrame) (s : State) : State :=
  onceOnly f (fun t => if t.glb.service = .normal then checkKey f true (testEntryBody f) t else testRefused f t) s

def execTestEntry (f : DwFrame) (s : State) : Res := run (.testEntry f) (testEntryEffect f) s

/-! ### Sweep (R384, R414) -/

/-- The contents of a channel go; they then read as DRAM that nothing has written. -/
def clearChannel (c : Nat) (s : State) : State :=
  { s with dram := s.dram.filter fun p => p.1 / 256 % 12 != c }

/-- DRAM_SWEEP: the maps that the sweep found, one for a CA field and 20 for a nibble field. -/
def sweepBody (f : DwFrame) (maps : List Bytes) (s : State) : State :=
  let c := numAt f.payload 0 1
  let rec_ := numAt f.payload 2 1
  let fld := numAt f.payload 3 1
  if f.payload.length ≠ 4 ∨ 11 < c ∨ 3 < numAt f.payload 1 1 ∨ 1 < rec_ ∨ (if rec_ = 0 then 2 else 5) < fld then reply f 0x11 [] s
  else reply f 0 ((List.range (if rec_ = 0 then 1 else 20)).flatMap fun i => padTo 16 (maps.getD i [])) (clearChannel c s)

def execDramSweep (f : DwFrame) (maps : List Bytes) (s : State) : Res :=
  run (.dramSweep f maps) (svcRow f [.romService] false (sweepBody f maps)) s

/-! ### Fuses (R426) -/

/-- May an index be revoked: not the running bank's, and both banks still pass? -/
def mayRevoke (s : State) (i : Nat) : Bool :=
  let r := s.glb.revoked ||| BitVec.ofNat 4 (2 ^ i)
  bankNum s s.glb.bankB 0x0B 1 != i && bankCheckWith r s false == 0 && bankCheckWith r s true == 0

def blownFuse (n i : Nat) (s : State) : State :=
  let t := raiseListed .svc .critical 0x3806 (leBytes 1 n ++ leBytes 1 i) s
  if n = 1 then { t with glb := { t.glb with debugOff := true } }
  else { t with glb := { t.glb with revoked := t.glb.revoked ||| BitVec.ofNat 4 (2 ^ i) } }

/-- FUSE. -/
def fuseBody (f : DwFrame) (s : State) : State :=
  let n := numAt f.payload 0 1
  let i := numAt f.payload 1 1
  if f.payload.length ≠ 8 ∨ numAt f.payload 4 4 ≠ 0xF05E9640 ∨ n = 0 ∨ 2 < n ∨ (n = 2 ∧ 3 < i) then reply f 0x11 [] s
  else if n = 2 ∧ mayRevoke s i = false then reply f 0x31 [] s
  else reply f 0 [] (blownFuse n i s)

def execFuse (f : DwFrame) (s : State) : Res := run (.fuse f) (svcRow f [.normal] true (fuseBody f)) s

/-! ### Other frames -/

/-- The states in which the table allows a type. -/
def typeStates (t : Nat) : List Service :=
  if t = 0x01 then [.startUp, .normal, .test, .recovery, .romService]
  else if t = 0x02 ∨ t = 0x03 ∨ t = 0x04 ∨ t = 0x20 then [.romService, .normal, .recovery, .test]
  else if t = 0x10 ∨ t = 0x11 ∨ t = 0x12 ∨ t = 0x13 then [.romService, .normal]
  else if t = 0x28 then [.normal, .recovery]
  else if t = 0x29 ∨ t = 0x30 ∨ t = 0x31 ∨ t = 0x32 ∨ t = 0x3F then [.normal]
  else if t = 0x33 then [.test]
  else if t = 0x38 then [.romService]
  else []

/-- DWEUNO_UNLISTED_FRAME: answered with STATE; a frame that is listed and allowed is not one of these. -/
def unlistedEffect (f : DwFrame) (s : State) : State :=
  onceOnly f (fun t => if t.glb.service ∈ typeStates f.type.toNat then t else reply f 0x21 [] t) s

def execDweunoUnlistedFrame (f : DwFrame) (s : State) : Res := run (.dweunoUnlistedFrame f) (unlistedEffect f) s

/-- SVC_RX_LOCK_CHANGE. -/
def execSvcRxLockChange (locked : Bool) (s : State) : Res :=
  run (.svcRxLockChange locked)
    (fun t => onlyIf (t.glb.powered && !t.glb.resetHeld) (fun u => { u with svc := { u.svc with link := locked } }) t) s

end Sys2Proof.Machine
end

