-- ==== Sys2Proof/Machine/Regs.lean ====
section
/-! DEFINITION. Register accesses: what a read returns and clears, what a write changes, which accesses are accepted, staged,
discarded or recorded (R6 to R10, R28 to R30, R66, R191, R409), the registers in BAR2, BAR4 and configuration space, and
DEBUG ACCESS (R425). -/

namespace Sys2Proof.Machine

/-! ### Accesses outside the subset (R10, R80) -/

/-- One word outside the host-permitted subset is counted, and is the most recent one. -/
def recordOutside (p : Fin 2) (write : Bool) (o : Nat) (s : State) : State :=
  modPort p (fun x => { x with subsetViol := satAdd 0xFFFF x.subsetViol 1, violWrite := write, violOffset := BitVec.ofNat 25 o }) s

/-- Every word of an access that lies outside the subset is recorded, the lower first, whatever the width (R29). -/
def recordAccess (q : Requester) (write : Bool) (o w : Nat) (s : State) : State :=
  match q with
  | .host p => forEach ((accessWords o w).filter fun a => !insideSubset s p write a) (recordOutside p write) s
  | _ => s

/-! ### Reads -/

/-- The low words of the 64-bit EVR registers (R409). -/
def evrLowWord (o : Nat) : Bool := evrPairs.contains o

/-- The upper words that a port has latched. -/
def latchOf (s : State) (p : Fin 2) : List (Nat × Word32) := if p = 0 then s.evr.latch0 else s.evr.latch1

def setLatch (p : Fin 2) (l : List (Nat × Word32)) (s : State) : State :=
  if p = 0 then { s with evr := { s.evr with latch0 := l } } else { s with evr := { s.evr with latch1 := l } }

/-- The word that an accepted 32-bit read returns: a latched upper word, or the register's value (R10, R409). -/
def wordRead (s : State) (q : Requester) (o : Nat) : Nat :=
  if !reaches s q false o then 0
  else
    match q with
    | .host p =>
      (match (latchOf s p).lookup (o - 4) with
      | some v => if evrLowWord (o - 4) then v.toNat else (regWord s o).getD 0
      | none => (regWord s o).getD 0)
    | _ => (regWord s o).getD 0

/-- The RC fields of a word clear (R9). -/
def clearRc (o : Nat) (s : State) : State :=
  if o = 0x204 then { s with cache := { s.cache with parRefetch := 0, scrCe := 0, scrUe := 0 } }
  else if o = 0x20000C then modPort 0 (fun x => { x with droppedDb := 0, subsetViol := 0 }) s
  else if o = 0x21000C then modPort 1 (fun x => { x with droppedDb := 0, subsetViol := 0 }) s
  else if o = 0x900040 then { s with bal := { s.bal with illegal := 0, distance := 0, length := 0, runErr := 0 } }
  else if o = 0x900044 then { s with bal := { s.bal with crcErr := 0 } }
  else if o = 0xA00008 then { s with sec := { s.sec with repaired := 0, failed := 0 } }
  else if o = 0x1300000 then { s with svc := { s.svc with authFail := 0 } }
  else s

/-- A read of a digest word before the result is valid (R191). -/
def earlyDigestRead (o : Nat) (s : State) : State :=
  if 0xA02080 ≤ o ∧ o < 0xA020B0 ∧ s.sec.dg.done = false then modDg (fun d => { d with earlyRead := true }) s else s

/-- The latch of R409: a low word latches its upper word for the port; a read of an upper word uses its latch up. -/
def latchRead (q : Requester) (o : Nat) (s : State) : State :=
  match q with
  | .host p =>
    if evrLowWord o then setLatch p ((o, BitVec.ofNat 32 ((regWord s (o + 4)).getD 0)) :: (latchOf s p).filter fun e => e.1 != o) s
    else if evrLowWord (o - 4) then setLatch p ((latchOf s p).filter fun e => e.1 != o - 4) s
    else s
  | _ => s

/-- What an accepted 32-bit read of a word inside the requester's reach changes. -/
def readEffect (latch : Bool) (q : Requester) (o : Nat) (s : State) : State :=
  if !reaches s q false o then s
  else
    let t := clearRc o (earlyDigestRead o s)
    if latch then latchRead q o t else t

/-- Does a 64-bit read cover one 64-bit EVR register, and so act on it as a whole (R6)? -/
def wholeEvrRead (r : RegRead) : Bool := r.width == 64 && evrLowWord r.offset

/-- What a read returns. -/
def readReturns (s : State) (r : RegRead) : Nat :=
  if !acceptedAccess r.offset r.width || wholeEvrRead r then readValue s r.req r.offset r.width
  else (accessWords r.offset r.width).foldr (fun o n => wordRead s r.req o + n * 2 ^ 32) 0

/-- A read of the control space (R6, R9, R10, R409): the value goes back, each word outside the subset is recorded, and an
accepted read has its words' side effects, the lower word first. -/
def regRead (r : RegRead) (s : State) : State :=
  let t := emit (.readData r.req (BitVec.ofNat 64 (readReturns s r))) (recordAccess r.req false r.offset r.width s)
  if acceptedAccess r.offset r.width then
    forEach (accessWords r.offset r.width) (readEffect (!wholeEvrRead r) r.req) t
  else t

def execSramErrRead (r : RegRead) (s : State) : Res := run (.sramErrRead r) (regRead r) s
def execPortLogRead (n : Fin 2) (r : RegRead) (s : State) : Res := run (.portLogRead n r) (fun t => regRead r t) s
def execDecErrRead (r : RegRead) (s : State) : Res := run (.decErrRead r) (fun t => regRead r t) s
def execDecCrcRead (r : RegRead) (s : State) : Res := run (.decCrcRead r) (fun t => regRead r t) s
def execSealErrRead (r : RegRead) (s : State) : Res := run (.sealErrRead r) (fun t => regRead r t) s
def execSvcStatusRead (r : RegRead) (s : State) : Res := run (.svcStatusRead r) (fun t => regRead r t) s
def execEvrLowWordRead (r : RegRead) (s : State) : Res := run (.evrLowWordRead r) (fun t => regRead r t) s
def execDgResultRead (n : Fin 12) (r : RegRead) (s : State) : Res := run (.dgResultRead n r) (fun t => regRead r t) s

/-- OUTSIDE_SUBSET_ACCESS (R10, R29): an access that reaches a word outside the subset. Of a write, only what happens at
its outside words stands here: the data of its other words comes with REGISTER_WRITE. -/
def outsideEffect (p : Fin 2) (o : BitVec 25) (w : Nat) (write : Bool) (s : State) : State :=
  if write then recordAccess (.host p) true o.toNat w s else regRead ⟨.host p, o.toNat, w⟩ s

def execOutsideSubsetAccess (port : Fin 2) (offset : BitVec 25) (width : Nat) (write : Bool) (s : State) : Res :=
  run (.outsideSubsetAccess port offset width write) (outsideEffect port offset width write) s

/-! ### Writes of the control space -/

/-- HEP registers of a port, at an offset from its base: CAUSE is cleared by 1 (R77), and RELEASE acts. -/
def writeHep (p : Fin 2) (o : Nat) (v : Word32) (s : State) : State :=
  if o = 4 then modPort p (fun x => { x with cause := x.cause &&& ~~~(v.extractLsb' 0 6) }) s
  else if o = 8 ∧ v.getLsbD 0 then portReleaseEffect p s
  else s

/-- The bits of SEC.DG_STATUS that 1 clears. -/
def dgStatusWrite (v : Word32) (d : Dg) : Dg :=
  { d with earlyCmp := d.earlyCmp && !v.getLsbD 5, earlyRead := d.earlyRead && !v.getLsbD 4,
           seqErr := d.seqErr && !v.getLsbD 3, keyErr := d.keyErr && !v.getLsbD 2 }

/-- The digest unit's registers, at an offset from SEC's base (R189 to R192). -/
def writeSec (o : Nat) (v : Word32) (s : State) : State :=
  if o = 0x2000 then dgCtl v s
  else if o = 0x2004 then modDg (dgStatusWrite v) s
  else if o = 0x2008 then modDg (dgData v) s
  else if o = 0x200C then modDg (fun d => { d with lastValid := v.extractLsb' 0 3 }) s
  else if o = 0x2010 then modDg (dgLast v) s
  else if 0x2040 ≤ o ∧ o < 0x2070 then
    modDg (fun d => { d with expect := d.expect.take (o - 0x2040) ++ leBytes 4 v.toNat ++ d.expect.drop (o - 0x2040 + 4) }) s
  else s

/-- EVR.RDn_SEQ: the lower word is staged, the upper word starts the copy (R7, R408). -/
def writeEvr (o : Nat) (v : Word32) (s : State) : State :=
  if o = 0x40 then { s with evr := { s.evr with rd0 := { s.evr.rd0 with low := v } } }
  else if o = 0x44 then evrReadRequestEffect 0 v s
  else if o = 0xC0 then { s with evr := { s.evr with rd1 := { s.evr.rd1 with low := v } } }
  else if o = 0xC4 then evrReadRequestEffect 1 v s
  else s

/-- NVC.SUSP_CFG and the bits of NVC.STATUS that 1 clears. -/
def writeNvc (o : Nat) (v : Word32) (s : State) : State :=
  if o = 4 then
    { s with nvc := { s.nvc with maxSusp := v.extractLsb' 16 8, minRun := v.extractLsb' 8 8, tsus := v.extractLsb' 0 8 } }
  else if o = 8 then
    { s with nvc := { s.nvc with wrRefused := s.nvc.wrRefused && !v.getLsbD 7, sectorBusy := s.nvc.sectorBusy && !v.getLsbD 6 } }
  else s

/-- WCH: WR_LOST is cleared by 1 on the FAB side; RESTORE's lower word is held there (R399). -/
def writeWch (o : Nat) (v : Word32) (s : State) : State :=
  if o = 8 ∧ v.getLsbD 2 then { s with wch := { s.wch with wrLost := false } }
  else if o = 0x10 then { s with wch := { s.wch with restoreLow := v } }
  else if o = 0x14 then wchRestoreWriteEffect v s
  else s

/-- PEER.WDOG: a write of control pair 1 shows it alive (R337); one of DEBUG ACCESS only sets the value. -/
def writeWdog (q : Requester) (v : Word32) (s : State) : State :=
  match q with
  | .core => wdogWriteEffect v s
  | _ => { s with peer := { s.peer with wdog := v } }

/-- A 32-bit write of a word that the requester reaches. Words that implement no writable register discard it (R8, R10). -/
def wordWrite (q : Requester) (o : Nat) (v : Word32) (s : State) : State :=
  if o < 0x200000 then s
  else if o < 0x210000 then writeHep 0 (o - 0x200000) v s
  else if o < 0x300000 then writeHep 1 (o - 0x210000) v s
  else if o < 0xA00000 then s
  else if o < 0xB00000 then writeSec (o - 0xA00000) v s
  else if o = 0xF00014 then writeWdog q v s
  else if o < 0x1200000 then s
  else if o < 0x1300000 then writeEvr (o - 0x1200000) v s
  else if o < 0x1400000 then s
  else if o < 0x1500000 then writeNvc (o - 0x1400000) v s
  else if o < 0x1600000 then writeWch (o - 0x1500000) v s
  else s

/-- The words of an accepted write, the lower first, with what each carries. -/
def writeParts (o w : Nat) (v : Word64) : List (Nat × Word32) :=
  (o, v.extractLsb' 0 32) :: (if w = 64 then [(o + 4, v.extractLsb' 32 32)] else [])

/-- A write of the control space (R6, R10): outside words are recorded; an accepted write acts word by word, the lower
first, which writes a 64-bit register whole (R7). -/
def controlWrite (q : Requester) (o w : Nat) (v : Word64) (s : State) : State :=
  let t := recordAccess q true o w s
  if acceptedAccess o w then
    forEach ((writeParts o w v).filter fun p => reaches s q true p.1) (fun p u => wordWrite q p.1 p.2 u) t
  else t

/-! ### BAR2, BAR4 and configuration space -/

/-- HQE.DB_ADMIN_STATUS.READY. -/
def adminReady (s : State) (f : FnId) : Bool := (qpOf s (adminKey f)).any fun q => q.frozen.isNone

/-- A base register of slot 0 of BAR2: its lower word is staged, its upper word takes effect (R7); discarded while READY
is 1 (R85). -/
def baseWrite (f : FnId) (o : Nat) (v : Word32) (s : State) : State :=
  let a := adminOf s f
  if adminReady s f then s
  else if o = 0x10 then putAdmin { a with asqLow := v } s
  else if o = 0x14 then putAdmin { a with asq := v ++ a.asqLow } s
  else if o = 0x18 then putAdmin { a with acqLow := v } s
  else if o = 0x1C then putAdmin { a with acq := v ++ a.acqLow } s
  else s

/-- HQE.DB_ADMIN_CFG in a write that spans two words: ENABLE and RESTART say which of its three rows it is; what host memory holds at a
restart is then open. -/
def adminCfgWrite (f : FnId) (v : Word32) (s : State) : State :=
  if !v.getLsbD 31 then adminDisable f v s
  else if !v.getLsbD 30 then adminEnable f v s
  else
    let n := 64 * ((qpOf s (adminKey f)).map sqSize).getD 0
    adminRestart f v (freeLong n s) (tickLong n s)

/-- A word of a doorbell slot (R84 to R88). -/
def slotWord (f : FnId) (o : Nat) (v : Word32) (s : State) : State :=
  let k : QKey := ⟨f, BitVec.ofNat 16 (o / 64)⟩
  if o % 64 = 0 then sqTail k v s
  else if o % 64 = 4 then cqHead k v s
  else if o = 0x20 then adminCfgWrite f v s
  else baseWrite f o v s

/-- A write of BAR2 (R59, R76, R85), word by word, the lower first. -/
def slotWrite (f : FnId) (o w : Nat) (v : Word64) (s : State) : State :=
  bar2Write f (fun t =>
    if acceptedAccess o w then forEach (writeParts o w v) (fun p u => slotWord f p.1 p.2 u) t else t) s

/-- A 32-bit write within the MSI-X table of a function (R65, R78): message address, message data, mask bit. -/
def msixWrite (f : FnId) (o : Nat) (v : Word32) (s : State) : State :=
  let k := o / 16
  let e := vectorOf s f k
  if (if isPf f then 2048 else 64) ≤ k then s
  else if o % 16 = 0 then putVector { e with addr := e.addr.extractLsb' 32 32 ++ v } s
  else if o % 16 = 4 then putVector { e with addr := v ++ e.addr.extractLsb' 0 32 } s
  else if o % 16 = 8 then putVector { e with data := v } s
  else if v.getLsbD 0 then putVector { e with masked := true } s
  else sendPending f k (putVector { e with masked := false } s)

/-- A write of BAR4. -/
def tableWrite (f : FnId) (o w : Nat) (v : Word64) (s : State) : State :=
  if functionUp s f && acceptedAccess o w then forEach (writeParts o w v) (fun p t => msixWrite f p.1 p.2 t) s else s

/-- NumVFs with VF Enable of PF0: clearing it ends every VF of the port; a number above TotalVFs is not taken. -/
def setNumVf (p : Fin 2) (n : Nat) (s : State) : State :=
  if (portOf s p).totalVfs < n then s
  else
    let t := if n = 0 then clearFunctions (fun f => f.port == p && !isPf f) s else s
    modPort p (fun x => { x with numVf := n }) t

/-- The Function Mask of MSI-X; unmasking sends what is pending (R78). -/
def setFnMask (f : FnId) (m : Bool) (s : State) : State :=
  let l := s.hep.fnMask.filter fun x => !(x == f)
  if m then { s with hep := { s.hep with fnMask := l ++ [f] } }
  else
    forEach ((s.hep.msix.filter fun e => e.f == f).map (·.vec)) (fun k t => sendPending f k t)
      { s with hep := { s.hep with fnMask := l } }

/-- The controls of a function, at their defaults until they are written. -/
def cfgOf (s : State) (f : FnId) : FnCfg := (s.hep.cfg.find? fun c => c.f == f).getD { f := f }

def modCfg (f : FnId) (g : FnCfg → FnCfg) (s : State) : State :=
  { s with hep := { s.hep with cfg := s.hep.cfg.filter (fun c => !(c.f == f)) ++ [g (cfgOf s f)] } }

/-- The size of a BAR pair, 0 for one that is not implemented (R65). -/
def barSize (f : FnId) (bar : Nat) : Nat :=
  if bar = 0 then (if isPf f then 0x2000000 else 0) else if bar = 2 then bar2Size f else if bar = 4 then bar4Size f else 0

/-- What a BAR holds after a write: the address bits above its size; an unimplemented one stays 0, and sizes as 0. -/
def barValue (f : FnId) (bar : Nat) (v : Word64) : Word64 :=
  if barSize f bar = 0 then 0 else v &&& ~~~(BitVec.ofNat 64 (barSize f bar - 1))

/-- The controls of a device's own: a Max Payload Size above 512 or a Max Read Request Size above 4,096 is not taken (R64). -/
def cfgSet (o : Nat) (v : Word64) (c : FnCfg) : FnCfg :=
  if o = 0x10 then { c with bar0 := barValue c.f 0 v }
  else if o = 0x18 then { c with bar2 := barValue c.f 2 v }
  else if o = 0x20 then { c with bar4 := barValue c.f 4 v }
  else if o = 0x28 then
    { c with
      mps := if v.toNat % 8 ≤ 2 then v.toNat % 8 else c.mps, mrrs := if v.toNat / 8 % 8 ≤ 5 then v.toNat / 8 % 8 else c.mrrs,
      relaxed := v.getLsbD 6, ido := v.getLsbD 7, aspmL1 := v.getLsbD 8 }
  else if o = 0x2C then { c with cto := v.extractLsb' 0 4, ctoOff := v.getLsbD 4 }
  else if o = 0x30 then { c with acsSv := v.getLsbD 0, acsRr := v.getLsbD 2 }
  else c

/-- The AER registers of PF0: masks, severity, and status bits that 1 clears (R75). -/
def aerSet (o : Nat) (v : Word64) (x : Port) : Port :=
  let w := v.extractLsb' 0 16
  if o = 0x40 then { x with aer := x.aer &&& ~~~w }
  else if o = 0x44 then { x with aerMask := w }
  else if o = 0x48 then { x with aerFatal := w }
  else if o = 0x4C then { x with aerCorr := x.aerCorr &&& ~~~w }
  else if o = 0x50 then { x with corrMask := w }
  else x

/-- A configuration write, at the model's own offsets: 0 NumVFs with VF Enable, 4 the Function Mask, 0x10 to 0x20 the BARs, 0x28 device
and link control, 0x2C Completion Timeout, 0x30 ACS, 0x40 to 0x50 AER. -/
def configWrite (f : FnId) (o : Nat) (v : Word64) (s : State) : State :=
  cfgRequest f (fun t => emit (.config f .done)
    (if o = 0 then (if isPf f then setNumVf f.port (v.toNat % 2 ^ 16) t else t)
     else if o = 4 then setFnMask f (v.getLsbD 0) t
     else if 0x40 ≤ o then (if isPf f then modPort f.port (aerSet o v) t else t)
     else modCfg f (cfgSet o v) t)) s

/-! What reads of BAR2, BAR4 and configuration space return (R64, R65, R69); the table has no row for such a read. -/

/-- The items of the identity and capabilities of a function (R64). -/
inductive CfgItem where
  | vendorId | deviceId | revisionId | classCode | firstVfOffset | vfStride | totalVfs | numVfs | maxTags | msixVectors | aerHeaderDw
  | ctoRanges | powerState | noSoftReset | fnMask | bar (n : Nat) | mps | mrrs | cto | acs | aerStatus | aerMask | aerSeverity | corrStatus
  | corrMask
  deriving DecidableEq, Repr

def cfgValue (s : State) (f : FnId) (i : CfgItem) : Nat :=
  let c := cfgOf s f
  let p := portOf s f.port
  match i with
  | .vendorId => 0x1D96
  | .deviceId => if isPf f then 0x9640 else 0x9641
  | .revisionId => if s.glb.steppingB0 then 0xB0 else 0xA0
  | .classCode => 0x018000
  | .firstVfOffset | .vfStride => 1
  | .totalVfs => p.totalVfs
  | .numVfs => p.numVf
  | .maxTags => if p.flit then 14 else 10
  | .msixVectors => if isPf f then 2048 else 64
  | .aerHeaderDw => 4
  | .ctoRanges => 0xF
  | .powerState => if f ∈ s.hep.d3 then 3 else 0
  | .noSoftReset => 1
  | .fnMask => if f ∈ s.hep.fnMask then 1 else 0
  | .bar n => if n = 0 then c.bar0.toNat else if n = 2 then c.bar2.toNat else if n = 4 then c.bar4.toNat else 0
  | .mps => 128 * 2 ^ c.mps
  | .mrrs => 128 * 2 ^ c.mrrs
  | .cto => c.cto.toNat + (if c.ctoOff then 16 else 0)
  | .acs => (if c.acsSv then 1 else 0) + (if c.acsRr then 4 else 0)
  | .aerStatus => p.aer.toNat
  | .aerMask => p.aerMask.toNat
  | .aerSeverity => p.aerFatal.toNat
  | .corrStatus => p.aerCorr.toNat
  | .corrMask => p.corrMask.toNat

/-- A configuration read. -/
def configRead (s : State) (f : FnId) (i : CfgItem) : CfgAnswer :=
  if !functionUp s f then .unsupported
  else if f.fn.toNat ∈ (portOf s f.port).cleanFns then .retry
  else .data (cfgValue s f i)

/-- A 32-bit word of a function's MSI-X table entry. -/
def msixWord (e : Vector_) (o : Nat) : Nat :=
  if o = 0 then e.addr.toNat % 2 ^ 32 else if o = 4 then e.addr.toNat / 2 ^ 32 else if o = 8 then e.data.toNat
  else if e.masked then 1 else 0

/-- A 32-bit word of BAR4: the MSI-X table, the pending-bit array, and 0 elsewhere (R65). -/
def bar4Read (s : State) (f : FnId) (o : Nat) : Nat :=
  let n := if isPf f then 2048 else 64
  let pba := if isPf f then 0x8000 else 0x800
  if o < 16 * n then msixWord (vectorOf s f (o / 16)) (o % 16)
  else if pba ≤ o ∧ o < pba + n / 8 then
    (List.range 32).foldl (fun a i => a + if (vectorOf s f (8 * (o - pba) + i)).pending then 2 ^ i else 0) 0
  else 0

/-- A 32-bit word of BAR2 (R65, R84): the queue pair's state, and the administrative registers of slot 0. -/
def bar2Read (s : State) (f : FnId) (o : Nat) : Nat :=
  let q := qpOf s ⟨f, BitVec.ofNat 16 (o / 64)⟩
  let a := adminOf s f
  if o % 64 = 8 then qstateWord q
  else if o = 0x10 then a.asq.toNat % 2 ^ 32
  else if o = 0x14 then a.asq.toNat / 2 ^ 32
  else if o = 0x18 then a.acq.toNat % 2 ^ 32
  else if o = 0x1C then a.acq.toNat / 2 ^ 32
  else if o = 0x20 then
    (if a.enable then 2 ^ 31 else 0) + (if a.mode then 2 ^ 29 else 0) + a.acqLog2.toNat * 2 ^ 8 + a.asqLog2.toNat
  else if o = 0x24 then adminStatusWord a q
  else 0

/-- REGISTER_WRITE (R6 to R10, R29, R66). -/
def registerWriteEffect (w : RegWrite) (s : State) : State :=
  match w.space with
  | .control => controlWrite w.req w.offset w.width w.value s
  | .bar2 f => slotWrite f w.offset w.width w.value s
  | .bar4 f => tableWrite f w.offset w.width w.value s
  | .config f => configWrite f w.offset w.value s

def execRegisterWrite (w : RegWrite) (s : State) : Res := run (.registerWrite w) (registerWriteEffect w) s

/-! ### DEBUG ACCESS (R425, R427) -/

/-- The access itself: one 32-bit word. A read answers with the value. -/
def debugBody (f : DwFrame) (s : State) : State :=
  let o := numAt f.payload 0 8
  let wr := numAt f.payload 8 1
  let v := BitVec.ofNat 64 (numAt f.payload 12 4)
  if f.payload.length ≠ 16 ∨ 1 < wr then reply f 0x11 [] s
  else if wr = 1 then reply f 0 [] (controlWrite .debug o 32 v s)
  else reply f 0 (leBytes 4 (readReturns s ⟨.debug, o, 32⟩)) (regRead ⟨.debug, o, 32⟩ s)

/-- DEBUG_ACCESS: in TEST only; FUSED while DEBUG_OFF is 1. -/
def debugAccessEffect (f : DwFrame) (s : State) : State :=
  onceOnly f (fun t =>
    if t.glb.service = .startUp then reply f 0x21 [] t
    else if t.glb.debugOff then checkKey f true (reply f 0x22 []) t
    else if t.glb.service = .test then checkKey f true (debugBody f) t
    else reply f 0x21 [] t) s

def execDebugAccess (f : DwFrame) (s : State) : Res := run (.debugAccess f) (debugAccessEffect f) s

end Sys2Proof.Machine
end

