-- ==== Sys2Proof/Machine/Dispatch.lean ====
section
/-! DEFINITION. The dispatch of a command to its meaning: one arm for each constructor of `Instr`. -/

namespace Sys2Proof.Machine

/-- The effect of a command on everything but the queue of waiting commands. -/
def exec (i : Instr) (s : State) : Host.Outcome State Fault Refusal :=
  match i with
  | .registerWrite w => Sys2Proof.Machine.execRegisterWrite w s
  | .outsideSubsetAccess port offset width write => Sys2Proof.Machine.execOutsideSubsetAccess port offset width write s
  | .sramErrRead r => Sys2Proof.Machine.execSramErrRead r s
  | .portLogRead n r => Sys2Proof.Machine.execPortLogRead n r s
  | .decErrRead r => Sys2Proof.Machine.execDecErrRead r s
  | .decCrcRead r => Sys2Proof.Machine.execDecCrcRead r s
  | .sealErrRead r => Sys2Proof.Machine.execSealErrRead r s
  | .svcStatusRead r => Sys2Proof.Machine.execSvcStatusRead r s
  | .evrLowWordRead r => Sys2Proof.Machine.execEvrLowWordRead r s
  | .dgResultRead n r => Sys2Proof.Machine.execDgResultRead n r s
  | .cacheWrite slice line off data => Sys2Proof.Machine.execCacheWrite slice line off data s
  | .lineWaitExpiry slice line => Sys2Proof.Machine.execLineWaitExpiry slice line s
  | .cacheRead slice stream t => Sys2Proof.Machine.execCacheRead slice stream t s
  | .lineFill slice line parityError displaced => Sys2Proof.Machine.execLineFill slice line parityError displaced s
  | .powerOnReset vwatchHeld sysResetHigh => Sys2Proof.Machine.execPowerOnReset vwatchHeld sysResetHigh s
  | .sysResetAssert lowNs => Sys2Proof.Machine.execSysResetAssert lowNs s
  | .testModeAssert => Sys2Proof.Machine.execTestModeAssert s
  | .chipCommandReset => Sys2Proof.Machine.execChipCommandReset s
  | .startUpWatchdogExpiry => Sys2Proof.Machine.execStartUpWatchdogExpiry s
  | .sysResetRelease headId profileSel => Sys2Proof.Machine.execSysResetRelease headId profileSel s
  | .norRstRelease => Sys2Proof.Machine.execNorRstRelease s
  | .pllLock => Sys2Proof.Machine.execPllLock s
  | .bootRomStart => Sys2Proof.Machine.execBootRomStart s
  | .listenWindowClose => Sys2Proof.Machine.execListenWindowClose s
  | .bootHeaderRead => Sys2Proof.Machine.execBootHeaderRead s
  | .norOctalSwitch => Sys2Proof.Machine.execNorOctalSwitch s
  | .profileRead => Sys2Proof.Machine.execProfileRead s
  | .pcieDetectExit => Sys2Proof.Machine.execPcieDetectExit s
  | .dramInit slots temps => Sys2Proof.Machine.execDramInit slots temps s
  | .dramCheckDone match_ => Sys2Proof.Machine.execDramCheckDone match_ s
  | .firmwareReadDone => Sys2Proof.Machine.execFirmwareReadDone s
  | .signatureVerifyDone => Sys2Proof.Machine.execSignatureVerifyDone s
  | .coreRelease => Sys2Proof.Machine.execCoreRelease s
  | .firmwareReady => Sys2Proof.Machine.execFirmwareReady s
  | .recoveryDone => Sys2Proof.Machine.execRecoveryDone s
  | .norReadRequest addr len => Sys2Proof.Machine.execNorReadRequest addr len s
  | .nvcMinRunExpiry => Sys2Proof.Machine.execNvcMinRunExpiry s
  | .nvcTsusExpiry => Sys2Proof.Machine.execNvcTsusExpiry s
  | .nvcSuspendLimitExpiry => Sys2Proof.Machine.execNvcSuspendLimitExpiry s
  | .norProgramRequest addr data => Sys2Proof.Machine.execNorProgramRequest addr data s
  | .norEraseRequest sector => Sys2Proof.Machine.execNorEraseRequest sector s
  | .norOperationDone => Sys2Proof.Machine.execNorOperationDone s
  | .wchRegisterWrite w => Sys2Proof.Machine.execWchRegisterWrite w s
  | .wchRestoreWrite upper => Sys2Proof.Machine.execWchRestoreWrite upper s
  | .wchWriteTaken => Sys2Proof.Machine.execWchWriteTaken s
  | .opSecondsTick => Sys2Proof.Machine.execOpSecondsTick s
  | .pcieReceiverDetect port partnerRate width flit => Sys2Proof.Machine.execPcieReceiverDetect port partnerRate width flit s
  | .perstAssert port lowNs => Sys2Proof.Machine.execPerstAssert port lowNs s
  | .perstRelease port => Sys2Proof.Machine.execPerstRelease port s
  | .hotReset port => Sys2Proof.Machine.execHotReset port s
  | .pcieLinkDown port => Sys2Proof.Machine.execPcieLinkDown port s
  | .pf0Flr port => Sys2Proof.Machine.execPf0Flr port s
  | .vfFlr f => Sys2Proof.Machine.execVfFlr f s
  | .resetCleanupDone port => Sys2Proof.Machine.execResetCleanupDone port s
  | .poisonedTlp port k => Sys2Proof.Machine.execPoisonedTlp port k s
  | .tlpReceiveError port cause => Sys2Proof.Machine.execTlpReceiveError port cause s
  | .pcieCompletionTimeout port => Sys2Proof.Machine.execPcieCompletionTimeout port s
  | .portRelease port => Sys2Proof.Machine.execPortRelease port s
  | .msixUnmask f vec => Sys2Proof.Machine.execMsixUnmask f vec s
  | .d3hotEntry f => Sys2Proof.Machine.execD3hotEntry f s
  | .d0Return f => Sys2Proof.Machine.execD0Return f s
  | .adminQueueEnable f cfg => Sys2Proof.Machine.execAdminQueueEnable f cfg s
  | .adminQueueDisable f cfg => Sys2Proof.Machine.execAdminQueueDisable f cfg s
  | .adminQueueRestart f cfg entries => Sys2Proof.Machine.execAdminQueueRestart f cfg entries s
  | .sqTailDoorbell q value => Sys2Proof.Machine.execSqTailDoorbell q value s
  | .cqHeadDoorbell q value => Sys2Proof.Machine.execCqHeadDoorbell q value s
  | .cqInterruptTimer q => Sys2Proof.Machine.execCqInterruptTimer q s
  | .createQp c => Sys2Proof.Machine.execCreateQp c s
  | .deleteQp c => Sys2Proof.Machine.execDeleteQp c s
  | .deleteQpSettled q => Sys2Proof.Machine.execDeleteQpSettled q s
  | .restartQp c => Sys2Proof.Machine.execRestartQp c s
  | .identify c => Sys2Proof.Machine.execIdentify c s
  | .getLog c => Sys2Proof.Machine.execGetLog c s
  | .setPower c => Sys2Proof.Machine.execSetPower c s
  | .powerStateReached => Sys2Proof.Machine.execPowerStateReached s
  | .setPace c => Sys2Proof.Machine.execSetPace c s
  | .paceInForce => Sys2Proof.Machine.execPaceInForce s
  | .selectProfile c => Sys2Proof.Machine.execSelectProfile c s
  | .chipReset c => Sys2Proof.Machine.execChipReset c s
  | .createTenant c => Sys2Proof.Machine.execCreateTenant c s
  | .deleteTenant c => Sys2Proof.Machine.execDeleteTenant c s
  | .assignFunction c => Sys2Proof.Machine.execAssignFunction c s
  | .createNamespace c => Sys2Proof.Machine.execCreateNamespace c s
  | .deleteNamespace c => Sys2Proof.Machine.execDeleteNamespace c s
  | .deleteNamespaceDone nsid => Sys2Proof.Machine.execDeleteNamespaceDone nsid s
  | .read c => Sys2Proof.Machine.execRead c s
  | .write c => Sys2Proof.Machine.execWrite c s
  | .deallocate c => Sys2Proof.Machine.execDeallocate c s
  | .stateQuery c => Sys2Proof.Machine.execStateQuery c s
  | .stateQueryWaitEnd cmd timedOut => Sys2Proof.Machine.execStateQueryWaitEnd cmd timedOut s
  | .creditGrant => Sys2Proof.Machine.execCreditGrant s
  | .creditWaitTimeout cmd => Sys2Proof.Machine.execCreditWaitTimeout cmd s
  | .writeDataArrived cmd block data => Sys2Proof.Machine.execWriteDataArrived cmd block data s
  | .mapPageReadDone nsid page => Sys2Proof.Machine.execMapPageReadDone nsid page s
  | .flushIdleExpiry nsid lba => Sys2Proof.Machine.execFlushIdleExpiry nsid lba s
  | .flushAgeExpiry nsid lba => Sys2Proof.Machine.execFlushAgeExpiry nsid lba s
  | .flushRunChosen => Sys2Proof.Machine.execFlushRunChosen s
  | .chunkCut run => Sys2Proof.Machine.execChunkCut run s
  | .fingerprintDone chunk => Sys2Proof.Machine.execFingerprintDone chunk s
  | .lookupSearchDone chunk => Sys2Proof.Machine.execLookupSearchDone chunk s
  | .containerPullDone container entries domain => Sys2Proof.Machine.execContainerPullDone container entries domain s
  | .containerIdleExpiry nsid => Sys2Proof.Machine.execContainerIdleExpiry nsid s
  | .verifyCompareDone chunk stored => Sys2Proof.Machine.execVerifyCompareDone chunk stored s
  | .engineSelftestDue k n => Sys2Proof.Machine.execEngineSelftestDue k n s
  | .engineSelftestDone k n pass => Sys2Proof.Machine.execEngineSelftestDone k n pass s
  | .engineRetestExpiry k n => Sys2Proof.Machine.execEngineRetestExpiry k n s
  | .baleEncodeDone chunk => Sys2Proof.Machine.execBaleEncodeDone chunk s
  | .xtsSealDone chunk => Sys2Proof.Machine.execXtsSealDone chunk s
  | .sealCheckDone job stored waybill => Sys2Proof.Machine.execSealCheckDone job stored waybill s
  | .baleDecodeDone job => Sys2Proof.Machine.execBaleDecodeDone job s
  | .decodeOutputFragment engine len => Sys2Proof.Machine.execDecodeOutputFragment engine len s
  | .decodeInputFragment engine data => Sys2Proof.Machine.execDecodeInputFragment engine data s
  | .decodeSuspendTimeout engine => Sys2Proof.Machine.execDecodeSuspendTimeout engine s
  | .keyImport c => Sys2Proof.Machine.execKeyImport c s
  | .keyGenerate c => Sys2Proof.Machine.execKeyGenerate c s
  | .keyExport c => Sys2Proof.Machine.execKeyExport c s
  | .keyErase c => Sys2Proof.Machine.execKeyErase c s
  | .keyInfo c => Sys2Proof.Machine.execKeyInfo c s
  | .keyAttach c => Sys2Proof.Machine.execKeyAttach c s
  | .keyCmac c => Sys2Proof.Machine.execKeyCmac c s
  | .vaultRequest r => Sys2Proof.Machine.execVaultRequest r s
  | .vaultRequestDone => Sys2Proof.Machine.execVaultRequestDone s
  | .vaultSelftestDue => Sys2Proof.Machine.execVaultSelftestDue s
  | .vaultSelftestDone pass => Sys2Proof.Machine.execVaultSelftestDone pass s
  | .vaultRetestExpiry => Sys2Proof.Machine.execVaultRetestExpiry s
  | .dgStart ctl => Sys2Proof.Machine.execDgStart ctl s
  | .dgAbort ctl => Sys2Proof.Machine.execDgAbort ctl s
  | .dgCmp ctl => Sys2Proof.Machine.execDgCmp ctl s
  | .dgDataWrite w => Sys2Proof.Machine.execDgDataWrite w s
  | .dgLastWrite w => Sys2Proof.Machine.execDgLastWrite w s
  | .digestDone => Sys2Proof.Machine.execDigestDone s
  | .digestCompareDone => Sys2Proof.Machine.execDigestCompareDone s
  | .tamperPin lowUs => Sys2Proof.Machine.execTamperPin lowUs s
  | .voltAlarm outUs => Sys2Proof.Machine.execVoltAlarm outUs s
  | .clockAlarm offUs => Sys2Proof.Machine.execClockAlarm offUs s
  | .tempAlarm celsius => Sys2Proof.Machine.execTempAlarm celsius s
  | .vwatchLost => Sys2Proof.Machine.execVwatchLost s
  | .trngStartTestsDone pass => Sys2Proof.Machine.execTrngStartTestsDone pass s
  | .drbgInstantiated => Sys2Proof.Machine.execDrbgInstantiated s
  | .healthTestFail => Sys2Proof.Machine.execHealthTestFail s
  | .trngRestartExpiry => Sys2Proof.Machine.execTrngRestartExpiry s
  | .drbgReseedTimer => Sys2Proof.Machine.execDrbgReseedTimer s
  | .drbgReseedDone => Sys2Proof.Machine.execDrbgReseedDone s
  | .drbgGenerate bytes => Sys2Proof.Machine.execDrbgGenerate bytes s
  | .rowhammerReseed => Sys2Proof.Machine.execRowhammerReseed s
  | .mapUpdatePublish run => Sys2Proof.Machine.execMapUpdatePublish run s
  | .baleAppend chunk => Sys2Proof.Machine.execBaleAppend chunk s
  | .stripeIdleExpiry stream => Sys2Proof.Machine.execStripeIdleExpiry stream s
  | .stripeProgrammed seg stripe failed => Sys2Proof.Machine.execStripeProgrammed seg stripe failed s
  | .slcFractionEval lane valid capacity => Sys2Proof.Machine.execSlcFractionEval lane valid capacity s
  | .blockVerifyDone seg member maxCorr uncorrectable => Sys2Proof.Machine.execBlockVerifyDone seg member maxCorr uncorrectable s
  | .reclaimVictimChosen k => Sys2Proof.Machine.execReclaimVictimChosen k s
  | .relocationDone chunk => Sys2Proof.Machine.execRelocationDone chunk s
  | .segmentDrained seg => Sys2Proof.Machine.execSegmentDrained seg s
  | .segmentAllocate stream => Sys2Proof.Machine.execSegmentAllocate stream s
  | .segmentScanDue seg corr uncorrectable => Sys2Proof.Machine.execSegmentScanDue seg corr uncorrectable s
  | .nandSuspend lane die => Sys2Proof.Machine.execNandSuspend lane die s
  | .nandMinRunExpiry lane die => Sys2Proof.Machine.execNandMinRunExpiry lane die s
  | .nandSuspendExpiry lane die => Sys2Proof.Machine.execNandSuspendExpiry lane die s
  | .holdupBudgetEval => Sys2Proof.Machine.execHoldupBudgetEval s
  | .pwrFailAssert lowNs => Sys2Proof.Machine.execPwrFailAssert lowNs s
  | .quiesceDone => Sys2Proof.Machine.execQuiesceDone s
  | .flushClassDone => Sys2Proof.Machine.execFlushClassDone s
  | .flushComplete => Sys2Proof.Machine.execFlushComplete s
  | .pwrFailDeassert => Sys2Proof.Machine.execPwrFailDeassert s
  | .flushReplay => Sys2Proof.Machine.execFlushReplay s
  | .laneSignalDetect lane => Sys2Proof.Machine.execLaneSignalDetect lane s
  | .ts1Received lane set => Sys2Proof.Machine.execTs1Received lane set s
  | .ts2Received lane set => Sys2Proof.Machine.execTs2Received lane set s
  | .laneTrainTimeout lane => Sys2Proof.Machine.execLaneTrainTimeout lane s
  | .laneRetryExpiry lane => Sys2Proof.Machine.execLaneRetryExpiry lane s
  | .syncReceived lane => Sys2Proof.Machine.execSyncReceived lane s
  | .skipReceived lane => Sys2Proof.Machine.execSkipReceived lane s
  | .skipInterval lane => Sys2Proof.Machine.execSkipInterval lane s
  | .quietReceived lane => Sys2Proof.Machine.execQuietReceived lane s
  | .mediaClockLaneLoss lane => Sys2Proof.Machine.execMediaClockLaneLoss lane s
  | .fariumLinkFrame lane f => Sys2Proof.Machine.execFariumLinkFrame lane f s
  | .fariumLinkTimer lane => Sys2Proof.Machine.execFariumLinkTimer lane s
  | .fariumReplayTimeout lane => Sys2Proof.Machine.execFariumReplayTimeout lane s
  | .fariumRxSilence lane => Sys2Proof.Machine.execFariumRxSilence lane s
  | .fariumRead f => Sys2Proof.Machine.execFariumRead f s
  | .fariumProgram f => Sys2Proof.Machine.execFariumProgram f s
  | .partialProgram f => Sys2Proof.Machine.execPartialProgram f s
  | .fariumErase f => Sys2Proof.Machine.execFariumErase f s
  | .fariumSuspend f => Sys2Proof.Machine.execFariumSuspend f s
  | .fariumResume f => Sys2Proof.Machine.execFariumResume f s
  | .fariumStatus f => Sys2Proof.Machine.execFariumStatus f s
  | .dieReset f => Sys2Proof.Machine.execDieReset f s
  | .paramPush f => Sys2Proof.Machine.execParamPush f s
  | .getInfo f => Sys2Proof.Machine.execGetInfo f s
  | .claim f rival => Sys2Proof.Machine.execClaim f rival s
  | .dieOperationDone lane die o => Sys2Proof.Machine.execDieOperationDone lane die o s
  | .fariumCompletion c => Sys2Proof.Machine.execFariumCompletion c s
  | .fariumNotice lane h aux => Sys2Proof.Machine.execFariumNotice lane h aux s
  | .fariumCommandTimeout lane tag st => Sys2Proof.Machine.execFariumCommandTimeout lane tag st s
  | .dieStatusPoll lane die st => Sys2Proof.Machine.execDieStatusPoll lane die st s
  | .claimResendTimer => Sys2Proof.Machine.execClaimResendTimer s
  | .takeoverClaimDeadline => Sys2Proof.Machine.execTakeoverClaimDeadline s
  | .moduleLostExpiry lane => Sys2Proof.Machine.execModuleLostExpiry lane s
  | .reconstructReadDone job sources => Sys2Proof.Machine.execReconstructReadDone job sources s
  | .baleRebuildDone job r => Sys2Proof.Machine.execBaleRebuildDone job r s
  | .jobSegmentStep => Sys2Proof.Machine.execJobSegmentStep s
  | .jobCheckpointTimer => Sys2Proof.Machine.execJobCheckpointTimer s
  | .pair3PauseDeadline => Sys2Proof.Machine.execPair3PauseDeadline s
  | .buildBesideStart => Sys2Proof.Machine.execBuildBesideStart s
  | .buildBesideDailyNotice => Sys2Proof.Machine.execBuildBesideDailyNotice s
  | .patrolStep f => Sys2Proof.Machine.execPatrolStep f s
  | .patrolDailyNotice => Sys2Proof.Machine.execPatrolDailyNotice s
  | .superblockRead lane page r => Sys2Proof.Machine.execSuperblockRead lane page r s
  | .rootRecorded lanes => Sys2Proof.Machine.execRootRecorded lanes s
  | .checkpointDue => Sys2Proof.Machine.execCheckpointDue s
  | .checkpointComplete => Sys2Proof.Machine.execCheckpointComplete s
  | .archiveObjectWrite => Sys2Proof.Machine.execArchiveObjectWrite s
  | .archiveGranuleWrite => Sys2Proof.Machine.execArchiveGranuleWrite s
  | .archiveGranuleDone good => Sys2Proof.Machine.execArchiveGranuleDone good s
  | .cgSet c => Sys2Proof.Machine.execCgSet c s
  | .snapCreate c => Sys2Proof.Machine.execSnapCreate c s
  | .snapCut cmd => Sys2Proof.Machine.execSnapCut cmd s
  | .snapComplete cmd => Sys2Proof.Machine.execSnapComplete cmd s
  | .snapDelete c => Sys2Proof.Machine.execSnapDelete c s
  | .snapDeleteWalkEnd nsid seq => Sys2Proof.Machine.execSnapDeleteWalkEnd nsid seq s
  | .snapList c => Sys2Proof.Machine.execSnapList c s
  | .snapExpose c => Sys2Proof.Machine.execSnapExpose c s
  | .replPair c remoteIds remoteSealed => Sys2Proof.Machine.execReplPair c remoteIds remoteSealed s
  | .replSend c => Sys2Proof.Machine.execReplSend c s
  | .replStop c => Sys2Proof.Machine.execReplStop c s
  | .replStatus c => Sys2Proof.Machine.execReplStatus c s
  | .ingest c => Sys2Proof.Machine.execIngest c s
  | .offer h firstLba nextLba chunks blocks => Sys2Proof.Machine.execOffer h firstLba nextLba chunks blocks s
  | .need h bits => Sys2Proof.Machine.execNeed h bits s
  | .bales h items => Sys2Proof.Machine.execBales h items s
  | .commit h => Sys2Proof.Machine.execCommit h s
  | .end_ h label seconds => Sys2Proof.Machine.execEnd_ h label seconds s
  | .endAck h targetSeq => Sys2Proof.Machine.execEndAck h targetSeq s
  | .resume h => Sys2Proof.Machine.execResume h s
  | .resumeAt h nextBatch nextLba => Sys2Proof.Machine.execResumeAt h nextBatch nextLba s
  | .replRefuse h reason => Sys2Proof.Machine.execReplRefuse h reason s
  | .replSessionTimeout session => Sys2Proof.Machine.execReplSessionTimeout session s
  | .replRetryTimer session => Sys2Proof.Machine.execReplRetryTimer session s
  | .peerLaneLoss lanesLeft => Sys2Proof.Machine.execPeerLaneLoss lanesLeft s
  | .peerReplayTimeout => Sys2Proof.Machine.execPeerReplayTimeout s
  | .beatTimer => Sys2Proof.Machine.execBeatTimer s
  | .beat h role service fwVersion occupancy seconds => Sys2Proof.Machine.execBeat h role service fwVersion occupancy seconds s
  | .hello h serial headId fwVersion stagingBlocks pairKeyId peerRole => Sys2Proof.Machine.execHello h serial headId fwVersion stagingBlocks pairKeyId peerRole s
  | .helloTimeout peerPresent peerLost peerSole => Sys2Proof.Machine.execHelloTimeout peerPresent peerLost peerSole s
  | .mirror h nsid lba gen tenant tag block nblk data => Sys2Proof.Machine.execMirror h nsid lba gen tenant tag block nblk data s
  | .mirrorAck h nsid lba gen => Sys2Proof.Machine.execMirrorAck h nsid lba gen s
  | .release h nsid lba gen => Sys2Proof.Machine.execRelease h nsid lba gen s
  | .settle h tenant tag nsid outcome count => Sys2Proof.Machine.execSettle h tenant tag nsid outcome count s
  | .relay h c tenant result => Sys2Proof.Machine.execRelay h c tenant result s
  | .granule h lane die block page gran count => Sys2Proof.Machine.execGranule h lane die block page gran count s
  | .ref h chunk delta => Sys2Proof.Machine.execRef h chunk delta s
  | .jobcopy h j isAck => Sys2Proof.Machine.execJobcopy h j isAck s
  | .sync h item => Sys2Proof.Machine.execSync h item s
  | .pairFault h pair => Sys2Proof.Machine.execPairFault h pair s
  | .handover h => Sys2Proof.Machine.execHandover h s
  | .powerLoss h tNeed => Sys2Proof.Machine.execPowerLoss h tNeed s
  | .flushDone h => Sys2Proof.Machine.execFlushDone h s
  | .powerLossClaimDeadline => Sys2Proof.Machine.execPowerLossClaimDeadline s
  | .returnReq h fwVersion => Sys2Proof.Machine.execReturnReq h fwVersion s
  | .returnReqTimer => Sys2Proof.Machine.execReturnReqTimer s
  | .returnGrant h => Sys2Proof.Machine.execReturnGrant h s
  | .moduleRelease h lane => Sys2Proof.Machine.execModuleRelease h lane s
  | .handbackDone h => Sys2Proof.Machine.execHandbackDone h s
  | .stale h peerEpoch => Sys2Proof.Machine.execStale h peerEpoch s
  | .heartbeatLoss => Sys2Proof.Machine.execHeartbeatLoss s
  | .confirmDeadline chainAnswer => Sys2Proof.Machine.execConfirmDeadline chainAnswer s
  | .splitYield => Sys2Proof.Machine.execSplitYield s
  | .splitLossDeadline => Sys2Proof.Machine.execSplitLossDeadline s
  | .peerAliveInFall lowNs => Sys2Proof.Machine.execPeerAliveInFall lowNs s
  | .lockstepMismatch pair => Sys2Proof.Machine.execLockstepMismatch pair s
  | .pairRestart pair => Sys2Proof.Machine.execPairRestart pair s
  | .pairReturnDeadline pair => Sys2Proof.Machine.execPairReturnDeadline pair s
  | .wdogWrite value => Sys2Proof.Machine.execWdogWrite value s
  | .wdogLapse => Sys2Proof.Machine.execWdogLapse s
  | .roleSwapDue => Sys2Proof.Machine.execRoleSwapDue s
  | .roceSendReceived p => Sys2Proof.Machine.execRoceSendReceived p s
  | .roceAckReceived qpn psn sampleNs tsEcho => Sys2Proof.Machine.execRoceAckReceived qpn psn sampleNs tsEcho s
  | .rnrNakReceived qpn => Sys2Proof.Machine.execRnrNakReceived qpn s
  | .ackTimeout qpn => Sys2Proof.Machine.execAckTimeout qpn s
  | .roceReadWriteRequest p => Sys2Proof.Machine.execRoceReadWriteRequest p s
  | .atomicRequest p region addr compareSwap operand compare => Sys2Proof.Machine.execAtomicRequest p region addr compareSwap operand compare s
  | .rdmaRuleChange r => Sys2Proof.Machine.execRdmaRuleChange r s
  | .ruleChangeTimeout => Sys2Proof.Machine.execRuleChangeTimeout s
  | .rateIdleReset qpn => Sys2Proof.Machine.execRateIdleReset qpn s
  | .connect m => Sys2Proof.Machine.execConnect m s
  | .accept m => Sys2Proof.Machine.execAccept m s
  | .reject m => Sys2Proof.Machine.execReject m s
  | .caravanRelease caravan qpn gate error => Sys2Proof.Machine.execCaravanRelease caravan qpn gate error s
  | .caravanElementDone caravan element failed => Sys2Proof.Machine.execCaravanElementDone caravan element failed s
  | .caravanCancel caravan => Sys2Proof.Machine.execCaravanCancel caravan s
  | .announceTimer => Sys2Proof.Machine.execAnnounceTimer s
  | .announceReceived a => Sys2Proof.Machine.execAnnounceReceived a s
  | .pathExpiry addr port => Sys2Proof.Machine.execPathExpiry addr port s
  | .relayReq srcAddr epoch targetEpoch relayId tenant c data => Sys2Proof.Machine.execRelayReq srcAddr epoch targetEpoch relayId tenant c data s
  | .relayRsp epoch relayId status partial_ count result data => Sys2Proof.Machine.execRelayRsp epoch relayId status partial_ count result data s
  | .relayRefuse relayId reason epoch serving => Sys2Proof.Machine.execRelayRefuse relayId reason epoch serving s
  | .relayTimeout relayId => Sys2Proof.Machine.execRelayTimeout relayId s
  | .chainLinkSilent port => Sys2Proof.Machine.execChainLinkSilent port s
  | .chainBreak port => Sys2Proof.Machine.execChainBreak port s
  | .chainBreakTimer port => Sys2Proof.Machine.execChainBreakTimer port s
  | .chainPortQualify port => Sys2Proof.Machine.execChainPortQualify port s
  | .chainLinkOk port => Sys2Proof.Machine.execChainLinkOk port s
  | .elect h gen headId => Sys2Proof.Machine.execElect h gen headId s
  | .electTimer => Sys2Proof.Machine.execElectTimer s
  | .masterTimeout => Sys2Proof.Machine.execMasterTimeout s
  | .enum h next lastHead gen fedId lastSerial => Sys2Proof.Machine.execEnum h next lastHead gen fedId lastSerial s
  | .enumTimeout => Sys2Proof.Machine.execEnumTimeout s
  | .table h gen group present fedId serials => Sys2Proof.Machine.execTable h gen group present fedId serials s
  | .tableRebroadcastTimer => Sys2Proof.Machine.execTableRebroadcastTimer s
  | .join h headId peerSerial => Sys2Proof.Machine.execJoin h headId peerSerial s
  | .joinTimer => Sys2Proof.Machine.execJoinTimer s
  | .joinAck h address serial => Sys2Proof.Machine.execJoinAck h address serial s
  | .duplicate h address serialA serialB => Sys2Proof.Machine.execDuplicate h address serialA serialB s
  | .reenumDelayExpiry => Sys2Proof.Machine.execReenumDelayExpiry s
  | .query h reply target => Sys2Proof.Machine.execQuery h reply target s
  | .time h fedTime gen masterHead sameTable => Sys2Proof.Machine.execTime h fedTime gen masterHead sameTable s
  | .timeTimer fedTime => Sys2Proof.Machine.execTimeTimer fedTime s
  | .fedTimeInfoTimer => Sys2Proof.Machine.execFedTimeInfoTimer s
  | .epoch h address role service e => Sys2Proof.Machine.execEpoch h address role service e s
  | .epochTimer => Sys2Proof.Machine.execEpochTimer s
  | .dramTempReading temps => Sys2Proof.Machine.execDramTempReading temps s
  | .dramRequest r => Sys2Proof.Machine.execDramRequest r s
  | .refreshDue channel rank readsWaiting => Sys2Proof.Machine.execRefreshDue channel rank readsWaiting s
  | .scrubStep line ecc => Sys2Proof.Machine.execScrubStep line ecc s
  | .eventOffered e => Sys2Proof.Machine.execEventOffered e s
  | .secondBoundary => Sys2Proof.Machine.execSecondBoundary s
  | .sequenceBaseSet => Sys2Proof.Machine.execSequenceBaseSet s
  | .norRecordProgramDone => Sys2Proof.Machine.execNorRecordProgramDone s
  | .evrReadRequest n upper => Sys2Proof.Machine.execEvrReadRequest n upper s
  | .dweunoHello f => Sys2Proof.Machine.execDweunoHello f s
  | .svcReset f => Sys2Proof.Machine.execSvcReset f s
  | .profileSelect f => Sys2Proof.Machine.execProfileSelect f s
  | .profileWrite f => Sys2Proof.Machine.execProfileWrite f s
  | .stageBegin f => Sys2Proof.Machine.execStageBegin f s
  | .stageData f => Sys2Proof.Machine.execStageData f s
  | .stageEnd f => Sys2Proof.Machine.execStageEnd f s
  | .activate f => Sys2Proof.Machine.execActivate f s
  | .eventRead f media => Sys2Proof.Machine.execEventRead f media s
  | .keyset f => Sys2Proof.Machine.execKeyset f s
  | .tamperClear f => Sys2Proof.Machine.execTamperClear f s
  | .reshape f => Sys2Proof.Machine.execReshape f s
  | .reEnumerate f => Sys2Proof.Machine.execReEnumerate f s
  | .testEntry f => Sys2Proof.Machine.execTestEntry f s
  | .debugAccess f => Sys2Proof.Machine.execDebugAccess f s
  | .dramSweep f maps => Sys2Proof.Machine.execDramSweep f maps s
  | .fuse f => Sys2Proof.Machine.execFuse f s
  | .junctionSensorRead temps => Sys2Proof.Machine.execJunctionSensorRead temps s
  | .thermtripDeadline => Sys2Proof.Machine.execThermtripDeadline s
  | .supplyFall => Sys2Proof.Machine.execSupplyFall s
  | .ethernetLinkChange port up => Sys2Proof.Machine.execEthernetLinkChange port up s
  | .chainBadFrame port nowUs => Sys2Proof.Machine.execChainBadFrame port nowUs s
  | .dweunoUnlistedFrame f => Sys2Proof.Machine.execDweunoUnlistedFrame f s
  | .svcRxLockChange locked => Sys2Proof.Machine.execSvcRxLockChange locked s
  | .peerStagingLimit h sLim => Sys2Proof.Machine.execPeerStagingLimit h sLim s
  | .federatedTenantMessage srcAddr epoch tagGood m => Sys2Proof.Machine.execFederatedTenantMessage srcAddr epoch tagGood m s
  | .fetchUrCaCompletion q isList head => Sys2Proof.Machine.execFetchUrCaCompletion q isList head s

end Sys2Proof.Machine
end

