-- ==== Sys2Proof/Safety.lean ====
section
/-! DEFINITION. What counts as a safe step, when a command completes, and what a command leaves unchanged, in the terms
that statements use. -/

namespace Sys2Proof.Machine

/-- A step is safe when it answers a next state. -/
def Safe (o : Host.Outcome State Fault Refusal) : Prop := ∃ t, o = .next t

/-- The state that a command acts on: what the last command drove outward is past. -/
def State.quiet (s : State) : State := { s with out := [] }

/-- A command completes in a state with a property: `exec` answers a next state that has it. -/
def Completes (i : Instr) (s : State) (p : State → Prop) : Prop := ∃ t, exec i s = .next t ∧ p t

/-- The parts of the state. -/
inductive Part where
  | glb | pins | clk | cache | nvc | wch | hep | hqe | ing | bal | sec | med | plf | far | par | til | snp | peer | pair | rdm | mch | drc | evr | svc | nor | dram | freeCtr | out | pending
  deriving DecidableEq, Repr

/-- A part is the same in two states. -/
def Part.same (p : Part) (s t : State) : Prop :=
  match p with
  | .glb => t.glb = s.glb
  | .pins => t.pins = s.pins
  | .clk => t.clk = s.clk
  | .cache => t.cache = s.cache
  | .nvc => t.nvc = s.nvc
  | .wch => t.wch = s.wch
  | .hep => t.hep = s.hep
  | .hqe => t.hqe = s.hqe
  | .ing => t.ing = s.ing
  | .bal => t.bal = s.bal
  | .sec => t.sec = s.sec
  | .med => t.med = s.med
  | .plf => t.plf = s.plf
  | .far => t.far = s.far
  | .par => t.par = s.par
  | .til => t.til = s.til
  | .snp => t.snp = s.snp
  | .peer => t.peer = s.peer
  | .pair => t.pair = s.pair
  | .rdm => t.rdm = s.rdm
  | .mch => t.mch = s.mch
  | .drc => t.drc = s.drc
  | .evr => t.evr = s.evr
  | .svc => t.svc = s.svc
  | .nor => t.nor = s.nor
  | .dram => t.dram = s.dram
  | .freeCtr => t.freeCtr = s.freeCtr
  | .out => t.out = s.out
  | .pending => t.pending = s.pending

/-- Every part but the named ones, and the record of what this command drove outward, is unchanged. -/
def Frame (l : List Part) (s t : State) : Prop := ∀ p : Part, p ∉ l → p ≠ .out → p.same s t

/-- What a chip-wide reset of a cause leaves (R33, R37, R54): START-UP with its cause; no queue pair, command, staged block,
key slot or link survives on the chip, and the registers of HEP, the digest unit, NVC and the chain are at their reset values;
the fuses, the watch domain's counters, alarms and SWK, and what the unit's flash holds of keys, stay. -/
def AfterReset (c : ResetCause) (s t : State) : Prop :=
  t.glb.service = .startUp ∧ t.glb.cause = c ∧ t.glb.resetHeld = true ∧ t.glb.step = 0 ∧ t.glb.resetPending = false
  ∧ t.glb.debugOff = s.glb.debugOff ∧ t.glb.revoked = s.glb.revoked ∧ t.glb.unitSerial = s.glb.unitSerial
  ∧ t.glb.steppingB0 = s.glb.steppingB0
  ∧ t.hqe.qps = [] ∧ t.hqe.cmds = [] ∧ t.ing.staging = [] ∧ t.ing.mirror = [] ∧ t.sec.slots = [] ∧ t.sec.dg = {} ∧ t.sec.rng = {}
  ∧ t.sec.persisted = s.sec.persisted ∧ t.nvc = {} ∧ t.mch = {} ∧ t.dram = []
  ∧ t.hep.port0 = { perstLow := s.hep.port0.perstLow } ∧ t.hep.port1 = { perstLow := s.hep.port1.perstLow } ∧ t.hep.msix = []
  ∧ t.wch.opSeconds = s.wch.opSeconds ∧ t.wch.valid = s.wch.valid ∧ t.wch.failedStarts = s.wch.failedStarts
  ∧ t.wch.swk = s.wch.swk ∧ t.wch.latched = s.wch.latched ∧ t.wch.causes = s.wch.causes ∧ t.wch.pending = none

/-- A command entry stands at FETCH of its queue pair, which may be fetched from and whose CQ has room, and it passes
steps 1 to 3 of admission (R92, R93, the table of opcode-specific fields). -/
def Fetched (s : State) (c : HostCmd) (q : Qp) : Prop :=
  qpOf s c.q = some q ∧ fetchable s q = true ∧ c.ordered = false ∧ cqFull q = false ∧ q.waiting = []
  ∧ entryCheck c q.admin q.tenant s.glb.service = none

/-- The completion entry of such a command is posted at the CQ's tail with the CQ's phase, and FETCH has advanced. -/
def Answered (c : HostCmd) (q : Qp) (status : Word16) (result : Nat) (t : State) : Prop :=
  Output.completion c.q q.cqTail q.phase ((q.fetch + 1) % sqSize q) ⟨c.cid, status, false, 0, BitVec.ofNat 32 result⟩ ∈ t.out
  ∧ (qpOf t c.q).map (·.fetch) = some ((q.fetch + 1) % sqSize q)

/-- An outstanding command of a host's queue pair that R68 has not silenced, whose completion entry can be posted at once. -/
def Outstanding (s : State) (id : Nat) (d : Cmd) (q : Qp) : Prop :=
  cmdOf s id = some d ∧ d.origin = .host ∧ d.silent = false ∧ qpOf s d.q = some q ∧ (portOf s d.q.f.port).frozen = false
  ∧ cqFull q = false ∧ q.waiting = []

/-- Such a command has ended: its completion entry is posted with a status, PARTIAL, a count and a result, and it is outstanding
no more. -/
def Ended (d : Cmd) (q : Qp) (status : Word16) (part : Bool) (count result : Nat) (t : State) : Prop :=
  Output.completion d.q q.cqTail q.phase q.fetch ⟨d.cid, status, part, count, BitVec.ofNat 32 result⟩ ∈ t.out ∧ cmdOf t d.id = none

/-- A key command whose request the vault engine runs, and whose completion entry can be posted at once (R175 to R177). -/
def Served (s : State) (c : HostCmd) (q : Qp) : Prop :=
  s.sec.vault.out = false ∧ s.sec.vault.running.bind (·.key) = some (c.q, c.cid) ∧ (keyWaiter s (c.q, c.cid)).map (·.c) = some c
  ∧ qpOf s c.q = some q ∧ (portOf s c.q.f.port).frozen = false ∧ cqFull q = false ∧ q.waiting = []

/-- The completion entry of a command that was fetched before is posted at the CQ's tail with the CQ's phase. -/
def Posted (c : HostCmd) (q : Qp) (status : Word16) (result : Nat) (t : State) : Prop :=
  Output.completion c.q q.cqTail q.phase q.fetch ⟨c.cid, status, false, 0, BitVec.ofNat 32 result⟩ ∈ t.out

/-- The blocks of a command hold FILLING entries of the staging index with the next generations (R117, R118). -/
def Slotted (s : State) (id nsid lba n : Nat) (t : State) : Prop :=
  ∀ i, i < n → ∃ e ∈ t.ing.staging, e.cmd = id ∧ e.block = i ∧ e.nsid = nsid ∧ e.lba = lba + i
    ∧ e.gen = nextGen s nsid (lba + i) ∧ e.st = .filling

/-- Nothing holds the blocks of a write back: the generation window, a way for each, and no hold (R118, R120, R313, R338). -/
def SlotsFree (s : State) (nsid lba n : Nat) : Prop :=
  (∀ i, i < n → genWindowFull s nsid (lba + i) = false) ∧ (pickSlots s nsid n lba []).isSome = true
  ∧ writesHeld s nsid = false ∧ suspectNow s = false

/-- A tenant after it has taken the credits of `n` blocks, its guarantee first (R102, R103). -/
def creditsTaken (x : Tenant) (n : Nat) : Tenant :=
  { x with gHeld := x.gHeld + fromGuarantee x n, pHeld := x.pHeld + (n - fromGuarantee x n) }

/-- A command entry that passes steps 1 to 3 is a local command of this head that passes steps 4 and 5 and waits for nothing
before its admission (R93 to R95), under a number that no outstanding command has. -/
def Admissible (s : State) (c : HostCmd) (q : Qp) (n : Ns) : Prop :=
  Fetched s c q ∧ c.remote = false ∧ s.pair.swapWait = false ∧ s.peer.role ≠ .service
  ∧ nsCheck s ⟨c, q.tenant, .host⟩ = .ok n ∧ mustWait s ⟨c, q.tenant, .host⟩ = false ∧ cmdOf s s.hqe.nextCmd = none

/-- Nothing waits at admission (R93, R103, R106). -/
def NoneWaits (s : State) : Prop := s.hqe.behind = [] ∧ ∀ c ∈ s.hqe.cmds, c.stage ≠ .waitTag ∧ waitsAtAdmission c = false

/-- No batch of a replication target is uncommitted (R325). -/
def NoBatches (s : State) : Prop := ∀ x ∈ s.snp.sessions, x.role = .source ∨ x.batches = []

/-- Nothing waits for room in a stripe: no page or container is to be written, no segment is being reclaimed, and no checkpoint is
due or in progress (R206, R213). -/
def Settled (s : State) : Prop :=
  s.med.writeBack = [] ∧ s.med.relocating = [] ∧ (∀ g ∈ s.med.segs, g.st ≠ .reclaiming) ∧ s.til.writing = false ∧ s.til.due = false
  ∧ ∀ k ∈ s.ing.containers, k.isOpen = false → ((pageObjOf s (objKey 7 k.nsid) k.no).bind (recOf s)).isSome = true

/-- A frame is the next one in order on an active lane that discards nothing, with good CRCs (R239, R241). -/
def InOrder (s : State) (n : Nat) (l : FrameLink) : Prop :=
  (laneOf s n).active = true ∧ (laneOf s n).discard = false ∧ l.headerGood = true ∧ l.payloadGood = true ∧ l.seq = (laneOf s n).seqRx

/-- A module without the credits that it owes its ports. -/
def unfreed (m : Module) : Module := { m with freedA := (0, 0), freedB := (0, 0) }

/-- Nothing of the modules changes but the credits that their bridges owe (R240). -/
def OnlyFreed (s t : State) : Prop :=
  t.far = { s.far with modules := t.far.modules } ∧ (∀ k, unfreed (bridgeOf t k) = unfreed (bridgeOf s k)) ∧ Frame [.far] s t

/-- A replication message that its session takes, on its source or target side (R323 to R329). -/
def Heard (s : State) (h : ReplHdr) (source : Bool) (x : Sess) : Prop :=
  isolated s = false ∧ h.crcGood = true ∧ sessBy s h.session = some x ∧ (x.role == .source) = source ∧ versionOk x h = true
  ∧ genHigher x.epoch h.epoch = false ∧ nsStatus s x.nsid = none ∧ x.st ≠ .faulted ∧ sessOf s x.nsid = some x
  ∧ asleep s = false ∧ s.clk.newPower = none

/-- An epoch is the one that is held for an address of another pair (R341). -/
def Current (s : State) (a : Nat) (e : Word16) : Prop :=
  ¬(s.mch.addrValid = true ∧ a / 2 = s.mch.address.toNat / 2) ∧ (pathOf s a).epoch = e ∧ e ≠ 0

/-- A packet of the subset that arrives for a ready connection, of the connection's tenants (R346 to R349). -/
def Arrives (s : State) (p : Packet) (q : RcQp) : Prop :=
  isolated s = false ∧ p.port.val ∈ s.rdm.links ∧ p.supported = true ∧ p.tver = true ∧ readyRc s p.qpn = some q
  ∧ p.dstTenant = q.tenant ∧ p.srcTenant = q.remote

/-- A connection datagram with a good tag that reaches this chip, and from whose epoch nothing is learned (R354). -/
def Reached (s : State) (m : ConnMsg) : Prop :=
  isolated s = false ∧ m.port.val ∈ s.rdm.links ∧ m.tagGood = true ∧ canTag s (connKey m.purpose.toNat) = true
  ∧ (m.purpose = 1 → Current s m.srcAddr m.epoch)

/-- A message of the peer under the epoch in force, over an open session, to a head whose cores run (R332, R341). -/
def FromPeer (s : State) (h : PeerHdr) : Prop := s.peer.linkUp = true ∧ s.pins.coresOut = true ∧ h.epoch = s.peer.epoch

/-- The same with a good tag, while the vault can check it (R333). -/
def TaggedPeer (s : State) (h : PeerHdr) : Prop :=
  FromPeer s h ∧ s.sec.vault.out = false ∧ h.tagged = true ∧ h.tagGood = true ∧ canTag s pairKey = true

/-- An ACTIVE head that takes over when it declares the loss of its peer, with nothing waiting at admission (R334, R339, R340). -/
def MayTakeOver (s : State) : Prop :=
  s.pins.pwrFail = false ∧ s.pair.sameHead = false ∧ s.pair.hungOver = false ∧ s.peer.pair1.inReset = false ∧ s.peer.role = .active
  ∧ NoneWaits s

/-- What the loss of the peer leaves (R339): head role SOLE under an epoch, the session gone, the peer's jobs resumed here, the
peer's namespaces loaded beside this head's, and nothing relayed to the peer outstanding. -/
def TookOver (s : State) (cause : Nat) (e : Word16) (t : State) : Prop :=
  t.peer.role = .sole ∧ t.peer.lastCause = cause ∧ t.peer.epoch = e ∧ t.peer.linkUp = false
  ∧ t.peer.takeovers = (s.peer.takeovers + 1) % 2 ^ 64 ∧ t.pair.claimsWait = (cause == 4) ∧ t.pair.kept = [] ∧ t.par.mirrored = []
  ∧ (∀ c ∈ t.hqe.cmds, c.stage ≠ .relayed peerDst) ∧ (∀ e ∈ t.hqe.settle, e.ofPeer = false)
  ∧ (s.pair.handback = false → ∀ n ∈ s.hqe.nss, n.owner = s.glb.headId → ∃ x ∈ t.hqe.nss, x.id = n.id ∧ x.owner = n.owner)
  ∧ Frame [.hqe, .hep, .ing, .bal, .par, .med, .sec, .far, .peer, .pair, .til, .pins, .evr, .freeCtr] s t

/-- What entering SERVICE leaves (R334): nothing staged or mirrored, no module held, no job of this head, under an epoch. -/
def SteppedDown (s : State) (cause : Nat) (e : Word16) (t : State) : Prop :=
  t.peer.role = .service ∧ t.peer.lastCause = cause ∧ t.peer.epoch = e ∧ t.ing.staging = [] ∧ t.ing.mirror = [] ∧ t.par.jobs = []
  ∧ (∀ n, n < 96 → (laneOf t n).st ≠ .held)
  ∧ Frame [.hqe, .hep, .ing, .bal, .par, .med, .snp, .far, .peer, .pair, .til, .pins, .evr] s t

/-- A chain frame that control pair 2 handles, on this chip's port-0 pass (R368, R369). -/
def OnChain (s : State) (h : ChainHdr) : Prop :=
  s.pins.chainDriven = true ∧ (chainPort s h.port).wrapped = false ∧ onPass s h = true ∧ pair2Up s = true

/-- What goes on of another chip's frame: nothing when HOPS reaches 128 (R368). -/
def passedOn (s : State) (h : ChainHdr) (type : Nat) (args : List Nat) : List Output :=
  if 128 ≤ h.hops + 1 then [] else [.chain (outputOf s h) (BitVec.ofNat 8 type) (h.hops + 1) h.origin args]

/-- A frame of this chip leaves through port 1, or through port 0 where port 1 is wrapped (R369). -/
def ownOut (s : State) (type : Nat) (args : List Nat) : Output :=
  .chain (if s.mch.port1.wrapped then 0 else 1) (BitVec.ofNat 8 type) 0 s.glb.unitSerial args

/-- Not both ports of the chain are wrapped. -/
def chainOpen (s : State) : Prop := (s.mch.port0.wrapped && s.mch.port1.wrapped) = false

/-- A frame whose SEQ is neither that of the last completed request nor that of one still being executed (R412). -/
abbrev Fresh (s : State) (f : DwFrame) : Prop :=
  s.svc.stored.map (·.1) ≠ some f.seq ∧ s.svc.busy.map (·.1) ≠ some f.seq

/-- A Dweuno frame that the port takes and has not answered before, and that passes the key check of R413: unchecked in
ROM-SERVICE, otherwise keyed, with the vault at hand. -/
def Asked (s : State) (f : DwFrame) : Prop :=
  portHears s f = true ∧ Fresh s f
  ∧ (s.glb.service = .romService ∨ (keyedFrame f = true ∧ s.sec.vault.out = false ∧ keyPasses s f = true))

/-- The frame's response has gone out, and is kept for a repetition (R412). -/
def Answers (f : DwFrame) (st : Nat) (p : Bytes) (t : State) : Prop :=
  Output.dweuno f.type f.seq (BitVec.ofNat 16 st) p ∈ t.out ∧ t.svc.stored = some (f.seq, f.type, BitVec.ofNat 16 st, p)

/-- The requests of the table of R413 but HELLO, TEST ENTRY and DEBUG ACCESS: the states that allow each, and whether it must be
keyed. -/
def SvcCommand (f : DwFrame) (i : Instr) (l : List Service) (keyed : Bool) : Prop :=
  ((i = .svcReset f ∨ i = .profileSelect f ∨ i = .profileWrite f ∨ ∃ m, i = .eventRead f m)
      ∧ l = [.romService, .normal, .recovery, .test] ∧ keyed = true)
  ∨ ((i = .stageBegin f ∨ i = .stageData f ∨ i = .stageEnd f ∨ i = .activate f) ∧ l = [.romService, .normal] ∧ keyed = true)
  ∨ (i = .keyset f ∧ l = [.normal, .recovery] ∧ keyed = true)
  ∨ ((i = .tamperClear f ∨ i = .reshape f ∨ i = .reEnumerate f ∨ i = .fuse f) ∧ l = [.normal] ∧ keyed = true)
  ∨ ((∃ m, i = .dramSweep f m) ∧ l = [.romService] ∧ keyed = false)

/-- The canonical form of the memories and of the tables that unlisted keys complete: keys rise, and no entry is the default. -/
def Canonical (s : State) : Prop :=
  Memory.wf norDefault s.nor = true ∧ Memory.wf dramDefault s.dram = true ∧ tabWf {} s.cache.slices = true
  ∧ tabWf {} s.sec.slots = true ∧ tabWf {} s.far.lanes = true ∧ tabWf {} s.far.modules = true
  ∧ (∀ m ∈ s.far.modules, tabWf {} m.2.dies = true) ∧ tabWf {} s.rdm.paths = true ∧ tabWf 0 s.mch.table = true
  ∧ tabWf 0 s.til.readFloor = true ∧ tabWf [] s.snp.groups = true ∧ tabWf {} s.drc.queues = true ∧ tabWf 0 s.drc.owed = true
  ∧ tabWf 0 s.drc.temps = true ∧ tabWf 0 s.drc.missed = true ∧ tabWf 0 s.drc.bands = true ∧ tabWf 0 s.drc.draws = true

/-- The number that the next outstanding command takes is above that of every command that is outstanding. -/
def FreshNumbers (s : State) : Prop := ∀ c ∈ s.hqe.cmds, c.id < s.hqe.nextCmd

/-- What no step undoes or changes: the fuses, the serial number and the stepping (R426). -/
def FusesKept (s t : State) : Prop :=
  (s.glb.debugOff = true → t.glb.debugOff = true) ∧ (∀ i : Nat, s.glb.revoked.getLsbD i = true → t.glb.revoked.getLsbD i = true)
  ∧ t.glb.unitSerial = s.glb.unitSerial ∧ t.glb.steppingB0 = s.glb.steppingB0

/-- The service-state changes of R58. -/
def ServiceTable (a b : Service) : Prop :=
  b = a ∨ b = .startUp ∨ (a = .startUp ∧ (b = .normal ∨ b = .recovery ∨ b = .romService)) ∨ (a = .recovery ∧ b = .normal)
  ∨ (a = .normal ∧ b = .test)

end Sys2Proof.Machine
end

