-- ==== Sys2Proof/Certificates/Slice0/Obligations.lean ====
section
/-! DEFINITION. The statements of this row: what the commands of the KL9640 do, by family. Where a statement says that a
command completes, the conclusion is that `exec` answers a next state, with what that state holds and what it leaves
unchanged (`Frame`). -/

open Sys2Proof Sys2Proof.Machine

/-! ### Registers -/

/-- R6, R9: an accepted read of an RC register returns the value from before and clears its counts; any other read clears
nothing. The other fields of the block, and every other part but the violation record of the port, stay. R191: a read of a
digest word returns the word; while DONE is 0 it returns 0, and an accepted one sets EARLY_READ. R409: a 32-bit read of the
low word of a 64-bit EVR register through a port returns it and latches the upper word for that port; the next 32-bit read of
the upper word through the port returns the latched value, whatever the register holds by then, and uses the latch up. The
other port's latches stay. The commands said to complete (exec answers next), on conditions on the state and the operands
alone: sramErrRead, sealErrRead, svcStatusRead, decErrRead, decCrcRead, portLogRead, dgResultRead, evrLowWordRead. -/
def Obligations.RegisterReads : Prop :=
  (
    (∀ (s : State) (r : RegRead), (Instr.sramErrRead r).wf = true →
      Completes (.sramErrRead r) s fun t =>
        t.cache = (if acceptedAccess r.offset r.width = true ∧ reaches s r.req false 0x204 = true
          then { s.cache with parRefetch := 0, scrCe := 0, scrUe := 0 } else s.cache)
        ∧ t.out = [.readData r.req (BitVec.ofNat 64 (readReturns s r))] ∧ Frame [.cache, .hep] s t)
    ∧ (∀ (s : State) (r : RegRead), (Instr.sealErrRead r).wf = true →
      Completes (.sealErrRead r) s fun t =>
        t.sec = (if acceptedAccess r.offset r.width = true ∧ reaches s r.req false 0xA00008 = true
          then { s.sec with repaired := 0, failed := 0 } else s.sec)
        ∧ t.out = [.readData r.req (BitVec.ofNat 64 (readReturns s r))] ∧ Frame [.sec, .hep] s t)
    ∧ (∀ (s : State) (r : RegRead), (Instr.svcStatusRead r).wf = true →
      Completes (.svcStatusRead r) s fun t =>
        t.svc = (if acceptedAccess r.offset r.width = true ∧ reaches s r.req false 0x1300000 = true
          then { s.svc with authFail := 0 } else s.svc)
        ∧ t.out = [.readData r.req (BitVec.ofNat 64 (readReturns s r))] ∧ Frame [.svc, .hep] s t)
    ∧ (∀ (s : State) (r : RegRead), (Instr.decErrRead r).wf = true →
      Completes (.decErrRead r) s fun t =>
        (acceptedAccess r.offset r.width = true → reaches s r.req false 0x900040 = true →
          t.bal.illegal = 0 ∧ t.bal.distance = 0 ∧ t.bal.length = 0 ∧ t.bal.runErr = 0)
        ∧ (acceptedAccess r.offset r.width = false → t.bal = s.bal)
        ∧ t.out = [.readData r.req (BitVec.ofNat 64 (readReturns s r))] ∧ Frame [.bal, .hep] s t)
    ∧ (∀ (s : State) (r : RegRead), (Instr.decCrcRead r).wf = true →
      Completes (.decCrcRead r) s fun t =>
        (acceptedAccess r.offset r.width = true → reaches s r.req false 0x900044 = true → t.bal.crcErr = 0)
        ∧ (acceptedAccess r.offset r.width = false → t.bal = s.bal)
        ∧ t.out = [.readData r.req (BitVec.ofNat 64 (readReturns s r))] ∧ Frame [.bal, .hep] s t)
    ∧ (∀ (s : State) (n : Fin 2) (r : RegRead), (Instr.portLogRead n r).wf = true →
      Completes (.portLogRead n r) s fun t =>
        (acceptedAccess r.offset r.width = true → reaches s r.req false (0x20000C + 0x10000 * n.val) = true →
          (portOf t n).droppedDb = 0 ∧ (portOf t n).subsetViol = 0)
        ∧ (acceptedAccess r.offset r.width = false → (portOf t n).droppedDb = (portOf s n).droppedDb)
        ∧ (portOf t n).cause = (portOf s n).cause ∧ (portOf t n).frozen = (portOf s n).frozen
        ∧ t.out = [.readData r.req (BitVec.ofNat 64 (readReturns s r))] ∧ Frame [.hep] s t))
  ∧ (
    ∀ (s : State) (n : Fin 12) (q : Requester), reaches s q false (0xA02080 + 4 * n.val) = true →
      Completes (.dgResultRead n ⟨q, 0xA02080 + 4 * n.val, 32⟩) s fun t =>
        t.out = [.readData q (BitVec.ofNat 64 (if s.sec.dg.done then numAt s.sec.dg.result (4 * n.val) 4 else 0))]
        ∧ t.sec = { s.sec with dg := { s.sec.dg with earlyRead := !s.sec.dg.done || s.sec.dg.earlyRead } }
        ∧ Frame [.sec] s t)
  ∧ (
    ∀ (s : State) (p : Fin 2) (a : Nat), a ∈ evrPairs → insideSubset s p false a = true →
      Completes (.evrLowWordRead ⟨.host p, a, 32⟩) s fun t =>
        t.out = [.readData (.host p) (BitVec.ofNat 64 ((regWord s a).getD 0))]
        ∧ (latchOf t p).lookup a = some (BitVec.ofNat 32 ((regWord s (a + 4)).getD 0))
        ∧ latchOf t (1 - p) = latchOf s (1 - p) ∧ Frame [.evr] s t
        ∧ ∀ (u : State) (v : Word32), (latchOf u p).lookup a = some v → insideSubset u p false (a + 4) = true →
          Completes (.evrLowWordRead ⟨.host p, a + 4, 32⟩) u fun w =>
            w.out = [.readData (.host p) (BitVec.ofNat 64 v.toNat)] ∧ (latchOf w p).lookup a = none ∧ Frame [.evr] u w)

/-- R10, R29: a 32-bit host access to a word outside the host-permitted subset returns 0 or is discarded: it is counted in
SUBSET_VIOL, which stops at 0xFFFF, and its kind and offset stand in PORTn_VIOL; nothing else changes. An access of any width
completes, records each word it reaches outside, and changes nothing but what its reads' side effects are; a read returns its
words, those outside as 0. R6, R7, R77, R190, R399: what REGISTER_WRITE does to the registers that have no row of their own:
a write of another width is discarded; the lower word of a 64-bit register is staged and changes nothing yet; RW1C bits
clear. The commands said to complete (exec answers next), on conditions on the state and the operands alone:
outsideSubsetAccess, registerWrite. -/
def Obligations.RegisterWritesAndSubset : Prop :=
  (
    (∀ (s : State) (p : Fin 2) (o : BitVec 25) (write : Bool), o.toNat % 4 = 0 → insideSubset s p write o.toNat = false →
      Completes (.outsideSubsetAccess p o 32 write) s fun t =>
        portOf t p = { portOf s p with subsetViol := min 0xFFFF ((portOf s p).subsetViol + 1), violWrite := write, violOffset := o }
        ∧ portOf t (1 - p) = portOf s (1 - p) ∧ t.hep.msix = s.hep.msix
        ∧ t.out = (if write then [] else [.readData (.host p) 0]) ∧ Frame [.hep] s t)
    ∧ (∀ (s : State) (p : Fin 2) (o : BitVec 25) (w : Nat), (Instr.outsideSubsetAccess p o w true).wf = true →
      Completes (.outsideSubsetAccess p o w true) s fun t =>
        portOf t p = portOf (recordAccess (.host p) true o.toNat w s) p ∧ portOf t (1 - p) = portOf s (1 - p) ∧ t.out = [] ∧ Frame [.hep] s t)
    ∧ (∀ (s : State) (p : Fin 2) (o : BitVec 25) (w : Nat), (Instr.outsideSubsetAccess p o w false).wf = true →
      Completes (.outsideSubsetAccess p o w false) s fun t =>
        t.out = [.readData (.host p) (BitVec.ofNat 64 (readReturns s ⟨.host p, o.toNat, w⟩))]
        ∧ Frame [.hep, .cache, .sec, .svc, .bal, .evr] s t))
  ∧ (
    (∀ (s : State) (q : Requester) (o w : Nat) (v : Word64), inBar0 o w = true → acceptedAccess o w = false →
      Completes (.registerWrite ⟨q, .control, o, w, v⟩) s fun t => t.out = [] ∧ Frame [.hep] s t)
    ∧ (∀ (s : State) (p : Fin 2) (v : Word64), s.glb.service ≠ .startUp → s.glb.service ≠ .romService →
      Completes (.registerWrite ⟨.host p, .control, 0x200004 + 0x10000 * p.val, 32, v⟩) s fun t =>
        portOf t p = { portOf s p with cause := (portOf s p).cause &&& ~~~(v.extractLsb' 0 6) }
        ∧ portOf t (1 - p) = portOf s (1 - p) ∧ t.hep.msix = s.hep.msix ∧ t.out = [] ∧ Frame [.hep] s t)
    ∧ (∀ (s : State) (p : Fin 2) (v : Word64), s.glb.service ≠ .startUp → s.glb.service ≠ .romService →
      Completes (.registerWrite ⟨.host p, .control, 0x1200040 + 0x80 * p.val, 32, v⟩) s fun t =>
        rdChan t.evr p = { rdChan s.evr p with low := v.extractLsb' 0 32 } ∧ rdChan t.evr (1 - p) = rdChan s.evr (1 - p)
        ∧ t.evr.ring = s.evr.ring ∧ t.out = [] ∧ Frame [.evr] s t)
    ∧ (∀ (s : State) (v : Word64),
      exec (.registerWrite ⟨.core, .control, 0x1400004, 32, v⟩) s = .next { s with out := [], nvc := { s.nvc with
        maxSusp := v.extractLsb' 16 8, minRun := v.extractLsb' 8 8, tsus := v.extractLsb' 0 8 } })
    ∧ (∀ (s : State) (v : Word64),
      exec (.registerWrite ⟨.core, .control, 0x1400008, 32, v⟩) s = .next { s with out := [], nvc := { s.nvc with
        wrRefused := s.nvc.wrRefused && !v.getLsbD 7, sectorBusy := s.nvc.sectorBusy && !v.getLsbD 6 } })
    ∧ (∀ (s : State) (v : Word64),
      exec (.registerWrite ⟨.core, .control, 0x1500010, 32, v⟩) s
        = .next { s with out := [], wch := { s.wch with restoreLow := v.extractLsb' 0 32 } })
    ∧ (∀ (s : State) (v : Word64),
      exec (.registerWrite ⟨.core, .control, 0xA02004, 32, v⟩) s = .next { s with out := [], sec := { s.sec with dg := { s.sec.dg with
        earlyCmp := s.sec.dg.earlyCmp && !v.getLsbD 5, earlyRead := s.sec.dg.earlyRead && !v.getLsbD 4,
        seqErr := s.sec.dg.seqErr && !v.getLsbD 3, keyErr := s.sec.dg.keyErr && !v.getLsbD 2 } } })
    ∧ (∀ (s : State) (v : Word64),
      exec (.registerWrite ⟨.core, .control, 0xA0200C, 32, v⟩) s
        = .next { s with out := [], sec := { s.sec with dg := { s.sec.dg with lastValid := v.extractLsb' 0 3 } } }))

/-! ### Digest unit, watch domain, configuration NOR -/

/-- R190: START while BUSY is ignored and sets SEQ_ERR; a DG_DATA or DG_LAST write while not BUSY is discarded and sets SEQ_ERR;
an HMAC that names a slot that is not an ACTIVE HMAC slot (type 5, so never a DOMAIN slot) does not start and sets KEY_ERR;
ABORT clears the context and the result. A digest under way is not disturbed by the first three. The commands said to
complete (exec answers next), on conditions on the state and the operands alone: dgStart, dgDataWrite, dgLastWrite, dgAbort. -/
def Obligations.DigestMisuse : Prop :=
  (∀ (s : State) (ctl : Word32), s.sec.dg.busy = true → ctl.getLsbD 31 = true → ctl.getLsbD 30 = false → ctl.getLsbD 29 = false →
    exec (.dgStart ctl) s = .next { s with out := [], sec := { s.sec with dg := { s.sec.dg with seqErr := true } } })
  ∧ (∀ (s : State) (w : Word32), s.sec.dg.busy = false →
    exec (.dgDataWrite w) s = .next { s with out := [], sec := { s.sec with dg := { s.sec.dg with seqErr := true } } })
  ∧ (∀ (s : State) (w : Word32), s.sec.dg.busy = false →
    exec (.dgLastWrite w) s = .next { s with out := [], sec := { s.sec with dg := { s.sec.dg with seqErr := true } } })
  ∧ (∀ (s : State) (ctl : Word32), s.sec.dg.busy = false → ctl.getLsbD 31 = true → ctl.getLsbD 30 = false →
    ctl.getLsbD 29 = false → ctl.getLsbD 1 = true →
    ((slotOf s (ctl.extractLsb' 16 13).toNat).state ≠ .active ∨ (slotOf s (ctl.extractLsb' 16 13).toNat).type ≠ 5) →
    exec (.dgStart ctl) s = .next { s with out := [], sec := { s.sec with dg := { s.sec.dg with
      alg := ctl.extractLsb' 0 2, keySlot := ctl.extractLsb' 16 13, keyErr := true } } })
  ∧ (∀ (s : State) (ctl : Word32), ctl.getLsbD 31 = false → ctl.getLsbD 30 = true → ctl.getLsbD 29 = false →
    Completes (.dgAbort ctl) s fun t =>
      t.sec.dg.busy = false ∧ t.sec.dg.done = false ∧ t.sec.dg.message = [] ∧ t.sec.dg.result = [] ∧ t.sec.dg.lastGiven = false
      ∧ t.sec = { s.sec with dg := t.sec.dg } ∧ t.out = [] ∧ Frame [.sec] s t)

/-- R189, R191, R192: a digest from START over its words to the result, and the compare. A result is the hash of the message
whose words were written, the final word cut to the valid count; a compare looks at the digest's length. The commands said to
complete (exec answers next), on conditions on the state and the operands alone: dgStart, dgDataWrite, dgLastWrite,
digestDone, dgCmp, digestCompareDone. -/
def Obligations.DigestRuns : Prop :=
  (∀ (s : State) (ctl : Word32), s.sec.dg.busy = false → ctl.getLsbD 31 = true → ctl.getLsbD 30 = false →
    ctl.getLsbD 29 = false → ctl.getLsbD 1 = false →
    exec (.dgStart ctl) s = .next { s with out := [], sec := { s.sec with dg := { s.sec.dg with
      alg := ctl.extractLsb' 0 2, keySlot := ctl.extractLsb' 16 13, busy := true, done := false, lastGiven := false,
      message := [], result := [], comparing := false, matched := false, cmpDone := false } } })
  ∧ (∀ (s : State) (w : Word32), s.sec.dg.busy = true → s.sec.dg.lastGiven = false →
    exec (.dgDataWrite w) s = .next { s with out := [], sec := { s.sec with dg := { s.sec.dg with
      message := s.sec.dg.message ++ leBytes 4 w.toNat } } })
  ∧ (∀ (s : State) (w : Word32), s.sec.dg.busy = true → s.sec.dg.lastGiven = false →
    exec (.dgLastWrite w) s = .next { s with out := [], sec := { s.sec with dg := { s.sec.dg with
      message := s.sec.dg.message ++ (leBytes 4 w.toNat).take s.sec.dg.lastValid.toNat, lastGiven := true } } })
  ∧ (∀ s : State, s.sec.dg.busy = true → s.sec.dg.lastGiven = true →
    exec .digestDone s = .next { s with out := [], sec := { s.sec with dg := { s.sec.dg with
      busy := false, done := true, message := [], lastGiven := false,
      result := if s.sec.dg.alg = 0 then sha256 s.sec.dg.message else if s.sec.dg.alg = 1 then sha384 s.sec.dg.message
        else if s.sec.dg.alg = 2 then hmacSha256 (slotOf s s.sec.dg.keySlot.toNat).material s.sec.dg.message
        else hmacSha384 (slotOf s s.sec.dg.keySlot.toNat).material s.sec.dg.message } } })
  ∧ (∀ (s : State) (ctl : Word32), ctl.getLsbD 31 = false → ctl.getLsbD 30 = false → ctl.getLsbD 29 = true →
    s.sec.dg.busy = false →
    Completes (.dgCmp ctl) s fun t =>
      (s.sec.dg.done = true → t.sec.dg.comparing = true ∧ t.sec.dg.earlyCmp = s.sec.dg.earlyCmp)
      ∧ (s.sec.dg.done = false → t.sec.dg.earlyCmp = true ∧ t.sec.dg.cmpDone = true ∧ t.sec.dg.matched = false)
      ∧ t.sec.dg.result = s.sec.dg.result ∧ t.sec.dg.expect = s.sec.dg.expect ∧ t.sec = { s.sec with dg := t.sec.dg }
      ∧ t.out = [] ∧ Frame [.sec] s t)
  ∧ (∀ s : State, s.sec.dg.comparing = true →
    exec .digestCompareDone s = .next { s with out := [], sec := { s.sec with dg := { s.sec.dg with
      comparing := false, cmpDone := true,
      matched := s.sec.dg.result == s.sec.dg.expect.take s.sec.dg.result.length } } })

/-- R399: the lower word of WCH.RESTORE is held on the FAB side; only the write of the upper word crosses, as one WCH write under
R28; taken while VALID is 0 it loads both counters in one step and VALID reads 1; while VALID is 1 it is discarded and sets
WR_LOST. Reads of WCH.RESTORE return 0, and host software has no access to it. The commands said to complete (exec answers
next), on conditions on the state and the operands alone: registerWrite, wchRestoreWrite, wchWriteTaken. -/
def Obligations.WatchRestore : Prop :=
  (∀ (s : State) (v : Word64),
    exec (.registerWrite ⟨.core, .control, 0x1500010, 32, v⟩) s
      = .next { s with out := [], wch := { s.wch with restoreLow := v.extractLsb' 0 32 } })
  ∧ (∀ (s : State) (u : Word32), s.wch.valid = false → s.wch.pending = none →
    exec (.wchRestoreWrite u) s = .next { s with out := [], wch := { s.wch with pending := some (.restore u s.wch.restoreLow) } })
  ∧ (∀ (s : State) (u : Word32), s.wch.valid = true →
    exec (.wchRestoreWrite u) s = .next { s with out := [], wch := { s.wch with wrLost := true } })
  ∧ (∀ (s : State) (c n : Word32), s.wch.valid = false → s.wch.pending = some (.restore c n) →
    Completes .wchWriteTaken s fun t =>
      t.wch = { s.wch with pending := none, valid := true, opSeconds := n.toNat, powerCycles := c.toNat }
      ∧ t.out = [] ∧ Frame [.wch, .evr] s t)
  ∧ (∀ s : State, regWord s 0x1500010 = some 0 ∧ regWord s 0x1500014 = some 0)
  ∧ (∀ (s : State) (p : Fin 2) (write : Bool), insideSubset s p write 0x1500010 = false ∧ insideSubset s p write 0x1500014 = false)

/-- R28, R56, R193, R397: the other writes of the watch domain, and the operating seconds. A write made while WR_PENDING is 1 is
discarded and sets WR_LOST; the write that clears WR_LOST stays on the FAB side; the count stops at its highest value. R41 to
R43: a read of an idle NOR is answered at once; a read that waits suspends a running operation that has run for MIN_RUN, and
is served TSUS later; the operation resumes at MAX_SUSP at the latest. A program or an erase starts when nothing runs, and
changes the contents when it is done. Nothing is issued before the first boot-header read (R35). The commands said to
complete (exec answers next), on conditions on the state and the operands alone: wchRegisterWrite, wchWriteTaken,
opSecondsTick, norReadRequest, nvcMinRunExpiry, nvcTsusExpiry, nvcSuspendLimitExpiry, norProgramRequest, norEraseRequest,
norOperationDone. -/
def Obligations.WatchAndNor : Prop :=
  (
    (∀ (s : State) (w : WchWrite), w ≠ .clearWrLost → (Instr.wchRegisterWrite w).wf = true →
      exec (.wchRegisterWrite w) s = .next (if s.wch.pending = none
        then { s with out := [], wch := { s.wch with pending := some (.other w) } }
        else { s with out := [], wch := { s.wch with wrLost := true } }))
    ∧ (∀ s : State, exec (.wchRegisterWrite .clearWrLost) s = .next { s with out := [], wch := { s.wch with wrLost := false } })
    ∧ (∀ (s : State) (n : Nat), s.wch.pending = some (.other (.failedStarts n)) → n < 256 →
      exec .wchWriteTaken s = .next { s with out := [], wch := { s.wch with pending := none, failedStarts := n } })
    ∧ (∀ s : State, s.wch.pending = some (.other .clearTamper) →
      exec .wchWriteTaken s = .next { s with out := [], wch := { s.wch with pending := none, latched := false, causes := 0 } })
    ∧ (∀ s : State, s.glb.powered = true →
      Completes .opSecondsTick s fun t =>
        t.wch = { s.wch with opSeconds := if s.wch.opSeconds < 0xFFFFFFFF then s.wch.opSeconds + 1 else 0xFFFFFFFF }
        ∧ t.peer = { s.peer with swapLeft := t.peer.swapLeft } ∧ s.peer.swapLeft ≤ t.peer.swapLeft + 1
        ∧ t.out = [] ∧ Frame [.wch, .peer] s t)
    ∧ (∀ s : State, s.glb.powered = false → exec .opSecondsTick s = .next { s with out := [] }))
  ∧ (
    (∀ (s : State) (a n : Nat), (Instr.norReadRequest a n).wf = true → norOpen s = true → s.nvc.running = none →
      s.nvc.suspended = none → s.nvc.readable = true →
      exec (.norReadRequest a n) s = .next { s with out := [.norData a (cellsRead norDefault s.nor a n)] })
    ∧ (∀ (s : State) (a n : Nat), (Instr.norReadRequest a n).wf = true → norOpen s = true → s.nvc.running.isSome = true →
      s.nvc.suspended = none → s.nvc.ranMin = false →
      exec (.norReadRequest a n) s = .next { s with out := [], nvc := { s.nvc with reads := s.nvc.reads ++ [(a, n)] } })
    ∧ (∀ s : State, s.nvc.running.isSome = true → s.nvc.suspended = none → s.nvc.reads ≠ [] →
      exec .nvcMinRunExpiry s = .next { s with out := [.norSuspend], nvc := { s.nvc with
        suspended := s.nvc.running, running := none, readable := false, limitHit := false, ranMin := false } })
    ∧ (∀ (s : State) (o : NorOp) (a n : Nat), s.nvc.suspended = some o → o.erase = false → s.nvc.readable = false →
      s.nvc.reads = [(a, n)] → s.nvc.work = [] →
      exec .nvcTsusExpiry s = .next { s with out := [.norData a (cellsRead norDefault s.nor a n)],
                                             nvc := { s.nvc with readable := true, reads := [] } })
    ∧ (∀ s : State, s.nvc.suspended.isSome = true → s.nvc.running = none → s.nvc.halted = false →
      exec .nvcSuspendLimitExpiry s = .next { s with out := [.norResume], nvc := { s.nvc with
        running := s.nvc.suspended, suspended := none, readable := true, limitHit := false, ranMin := false } })
    ∧ (∀ (s : State) (a : Nat) (d : Bytes), (Instr.norProgramRequest a d).wf = true → norOpen s = true →
      s.nvc.halted = false → s.nvc.running = none → s.nvc.suspended = none →
      exec (.norProgramRequest a d) s = .next (if wouldSet d (cellsRead norDefault s.nor a d.length)
        then { s with out := [], nvc := { s.nvc with wrRefused := true } }
        else { s with out := [.norIssue false a], nvc := { s.nvc with running := some ⟨false, a, d, false⟩, ranMin := false } }))
    ∧ (∀ (s : State) (k : Nat), k < 65536 → norOpen s = true → s.nvc.halted = false → s.nvc.running = none →
      s.nvc.suspended = none →
      exec (.norEraseRequest k) s = .next { s with out := [.norIssue true (0x10000 * k)], nvc := { s.nvc with
        running := some ⟨true, 0x10000 * k, [], false⟩, ranMin := false } })
    ∧ (∀ (s : State) (o : NorOp), s.nvc.running = some o → s.nvc.suspended = none → s.nvc.reads = [] → s.nvc.work = [] →
      s.nvc.limitHit = false → o.drain = false → recorderErase o = false →
      exec .norOperationDone s = .next
        { s with out := [],
                 nvc := { s.nvc with running := none, ranMin := false },
                 nor := if o.erase then cellsClear (0x10000 * (o.addr / 0x10000)) 0x10000 s.nor
                   else cellsWrite norDefault o.data o.addr s.nor })
    ∧ (∀ (s : State) (o : NorOp), s.nvc.running = some o → o.drain = false → recorderErase o = true → s.evr.lost.isZero = true →
      Completes .norOperationDone s fun t =>
        t.nor = cellsClear (0x10000 * (o.addr / 0x10000)) 0x10000 s.nor ∧ (s.evr.drainStop = false → t.evr.drainStop = false)
        ∧ Frame [.nor, .nvc, .evr] s t))

/-! ### Shared cache -/

/-- R20: a write waits in the slice's merging buffer, over the bytes of the same line that already wait; the line goes to DRAM at
LINE_WAIT_EXPIRY. R21 to R25: a hit returns the line with what waits over it; a miss returns nothing yet and makes the stream
wait; a scratchpad double-bit error is counted, recorded and returns nothing, a single-bit error is counted and the word is
delivered; a line arrives whole and is then held, or, with a parity error for the third time, is retired. The commands said
to complete (exec answers next), on conditions on the state and the operands alone: cacheWrite, lineWaitExpiry, cacheRead,
lineFill. -/
def Obligations.CacheLines : Prop :=
  (
    (∀ (s : State) (k : Fin 16) (line : Nat) (off : Fin 128) (d : Bytes), (Instr.cacheWrite k line off d).wf = true →
      (sliceOf s k.val).merging.length < 63 →
      Completes (.cacheWrite k line off d) s fun t =>
        (∀ i : Nat, i < d.length → (pendingBytes (sliceOf t k.val) line).lookup (off.val + i) = d[i]?)
        ∧ t.dram = s.dram ∧ t.out = [] ∧ Frame [.cache] s t)
    ∧ (∀ (s : State) (k : Fin 16) (line : Nat), tabWf {} s.cache.slices = true →
      Completes (.lineWaitExpiry k line) s fun t =>
        pendingBytes (sliceOf t k.val) line = []
        ∧ (∀ a, a < 128 * line ∨ 128 * line + 128 ≤ a → (∀ p ∈ pendingBytes (sliceOf s k.val) line, p.1 < 128) →
            cellRead dramDefault t.dram a = cellRead dramDefault s.dram a)
        ∧ Frame [.cache, .dram] s t))
  ∧ (
    (∀ (s : State) (k : Fin 16) (st a : Nat), lineAwaited (sliceOf s k.val) st = false → hits (sliceOf s k.val) (a / 128) = true →
      exec (.cacheRead k st (.line a false)) s
        = .next { s with out := [.cacheData st (a / 128) (mergedLine s k.val (a / 128))] })
    ∧ (∀ (s : State) (k : Fin 16) (st a : Nat), lineAwaited (sliceOf s k.val) st = false → hits (sliceOf s k.val) (a / 128) = false →
      Completes (.cacheRead k st (.line a false)) s fun t =>
        lineAwaited (sliceOf t k.val) st = true ∧ t.out = [] ∧ Frame [.cache] s t)
    ∧ (∀ (s : State) (k : Fin 16) (st a : Nat),
      Completes (.cacheRead k st (.scratch a 2 none)) s fun t =>
        t.cache = { s.cache with scrUe := min 0xF (s.cache.scrUe + 1) } ∧ t.out = [] ∧ Frame [.cache, .evr] s t)
    ∧ (∀ (s : State) (k : Fin 16) (st a : Nat) (c : Option Nat) (bits : Fin 3), bits ≠ 2 →
      Completes (.cacheRead k st (.scratch a bits c)) s fun t =>
        t.out = [.cacheData st (a / 128) (scratchWord a s)]
        ∧ t.cache.scrCe = (if bits = 1 then min 0xFFF (s.cache.scrCe + 1) else s.cache.scrCe) ∧ t.cache.scrUe = s.cache.scrUe
        ∧ t.cache.slices = s.cache.slices ∧ Frame [.cache, .freeCtr] s t)
    ∧ (∀ (s : State) (k : Fin 16) (line : Nat), line ∈ (sliceOf s k.val).misses → (sliceOf s k.val).queued = [] →
      (sliceOf s k.val).waiting = [] → 0 < sliceLines s k.val → tabWf {} s.cache.slices = true →
      Completes (.lineFill k line false []) s fun t =>
        line ∈ (sliceOf t k.val).lines ∧ line ∉ (sliceOf t k.val).misses ∧ t.out = [] ∧ Frame [.cache] s t)
    ∧ (∀ (s : State) (k : Fin 16) (line : Nat), line ∈ (sliceOf s k.val).misses → (sliceOf s k.val).queued = [] →
      (sliceOf s k.val).waiting = [] → tabGet 0 line (sliceOf s k.val).refetch = 2 → tabWf {} s.cache.slices = true →
      Completes (.lineFill k line true []) s fun t =>
        (sliceOf t k.val).retired = (sliceOf s k.val).retired + 1 ∧ line ∉ (sliceOf t k.val).misses
        ∧ (sliceOf t k.val).lines = (sliceOf s k.val).lines ∧ Frame [.cache, .evr] s t))

/-! ### Resets and start-up -/

/-- R33, R34, R37, R56: each chip-wide reset leaves what `AfterReset` says, with its own cause. A pulse of SYS_RESET_L below 0.5
µs is ignored and one of 1 µs or longer resets; during a power-on reset the cause stays. The commands said to complete (exec
answers next), on conditions on the state and the operands alone: sysResetAssert, testModeAssert, chipCommandReset,
startUpWatchdogExpiry, powerOnReset, supplyFall. -/
def Obligations.ChipWideResets : Prop :=
  (∀ (s : State) (n : Nat), n < 500 → exec (.sysResetAssert n) s = .next { s with out := [] })
  ∧ (∀ (s : State) (n : Nat), 1000 ≤ n → s.glb.powered = true → (s.glb.resetHeld = false ∨ s.glb.cause ≠ .powerOn) →
    Completes (.sysResetAssert n) s fun t => AfterReset .pin s t ∧ t.glb.testMode = s.glb.testMode)
  ∧ (∀ s : State, s.glb.powered = true → (s.glb.resetHeld = false ∨ s.glb.cause ≠ .powerOn) →
    Completes .testModeAssert s fun t => AfterReset .pin s t ∧ t.glb.testMode = true)
  ∧ (∀ s : State, s.glb.resetPending = true →
    Completes .chipCommandReset s fun t => AfterReset .chipCmd s t ∧ t.glb.ovrValid = s.glb.ovrValid ∧ t.sec.meas = s.sec.meas)
  ∧ (∀ s : State, s.glb.service = .startUp → s.glb.resetHeld = false → s.glb.powered = true →
    Completes .startUpWatchdogExpiry s fun t =>
      AfterReset .startWdog s t ∧ t.glb.ovrValid = s.glb.ovrValid ∧ t.sec.meas = s.sec.meas)
  ∧ (∀ (s : State) (b : Bool), s.glb.powered = true →
    Completes (.powerOnReset true b) s fun t =>
      AfterReset .powerOn s t ∧ t.glb.ovrValid = false ∧ t.sec.meas = []
      ∧ t.wch.powerCycles = min 0xFFFFFFFF (s.wch.powerCycles + 1))
  ∧ (∀ s : State, s.glb.powered = true → s.pins.pwrFail = true →
    Completes .supplyFall s fun t => t.glb.powered = false ∧ t.hqe.qps = [] ∧ t.sec.slots = [] ∧ t.dram = []
      ∧ t.wch.swk = s.wch.swk ∧ t.wch.opSeconds = s.wch.opSeconds)

/-- R35, R36, R38: SYS_RESET_L rises (t0) and the straps are latched; NOR_RST_L rises; the PLL locks; the boot ROM starts, or
goes to ROM-SERVICE with cause 0x06 after three failed starts; the listening window closes, or a service request leads to
ROM-SERVICE with cause 0x05. R39, R40, R50, R57, R379: the boot header, the octal mode, the profile, the PCIe ports and the
DRAM. A header, profile or DRAM check that fails leads to ROM-SERVICE with causes 0x01, 0x02 and 0x03. R58, R416, R417: the
firmware bank is read and verified; where the bank tried second fails too, ROM-SERVICE with cause 0x04; the cores are
released; START-UP ends in NORMAL, or in RECOVERY while something awaits replay or resumption; RECOVERY ends. The commands
said to complete (exec answers next), on conditions on the state and the operands alone: sysResetRelease, norRstRelease,
pllLock, bootRomStart, listenWindowClose, bootHeaderRead, norOctalSwitch, profileRead, pcieDetectExit, dramInit,
dramCheckDone, firmwareReadDone, signatureVerifyDone, coreRelease, firmwareReady, recoveryDone. -/
def Obligations.StartUpSequence : Prop :=
  (
    (∀ (s : State) (h : Bool) (p : BitVec 2), s.glb.powered = true → s.glb.resetHeld = true → s.glb.testMode = false →
      Completes (.sysResetRelease h p) s fun t =>
        t.glb = { s.glb with resetHeld := false, headId := h, pinSel := p, step := 1 }
        ∧ t.clk = { s.clk with rails := if s.wch.valid then 0x3FF else 0x37F } ∧ t.nvc = { s.nvc with halted := s.pins.pwrFail }
        ∧ t.out = [] ∧ Frame [.glb, .pins, .clk, .nvc] s t)
    ∧ (∀ s : State, s.glb.powered = true → s.glb.resetHeld = false →
      exec .norRstRelease s = .next { s with out := [], pins := { s.pins with norRstLow := false } })
    ∧ (∀ s : State, starting s = true → s.glb.step = 1 → s.pins.svcRequest = false →
      exec .pllLock s = .next { s with out := [], pins := { s.pins with pllLocked := true }, glb := { s.glb with step := 2 } })
    ∧ (∀ s : State, starting s = true → s.glb.step = 2 → s.pins.norRstLow = false → s.pins.svcRequest = false →
      s.wch.failedStarts < 3 → s.wch.pending = none →
      Completes .bootRomStart s fun t =>
        t.glb = { s.glb with failedRead := s.wch.failedStarts, step := 4 }
        ∧ t.pins = { s.pins with listening := true, chainDriven := true }
        ∧ t.wch = { s.wch with pending := some (.other (.failedStarts (s.wch.failedStarts + 1))) }
        ∧ t.sec.rng = { s.sec.rng with noise := true } ∧ t.evr.accepts = true ∧ t.evr.held = []
        ∧ t.out = [] ∧ Frame [.glb, .pins, .wch, .sec, .evr] s t)
    ∧ (∀ s : State, starting s = true → s.glb.step = 2 → s.pins.norRstLow = false → s.pins.svcRequest = false →
      3 ≤ s.wch.failedStarts →
      Completes .bootRomStart s fun t => t.glb.service = .romService ∧ t.glb.romCause = 6)
    ∧ (∀ s : State, starting s = true → s.pins.listening = true → s.pins.svcRequest = false → 10 ≤ s.glb.step →
      exec .listenWindowClose s
        = .next { s with out := [], glb := { s.glb with step := max 11 s.glb.step }, pins := { s.pins with listening := false } })
    ∧ (∀ s : State, starting s = true → s.glb.step < 10 → exec .listenWindowClose s = .next { s with out := [] })
    ∧ (∀ s : State, starting s = true → s.pins.listening = true → s.pins.svcRequest = true → 10 ≤ s.glb.step →
      Completes .listenWindowClose s fun t => t.glb.service = .romService ∧ t.glb.romCause = 5 ∧ t.pins.svcRequest = false))
  ∧ (
    (∀ (s : State) (b : Bool) (h : BootHeader), starting s = true → s.glb.step = 4 → s.pins.svcRequest = false →
      chooseHeader s = some (b, h) →
      Completes .bootHeaderRead s fun t =>
        t.glb = { s.glb with header := some h, headerSecond := b, step := 5 } ∧ t.out = [] ∧ Frame [.glb, .sec] s t)
    ∧ (∀ s : State, starting s = true → s.glb.step = 4 → s.pins.svcRequest = false → chooseHeader s = none →
      Completes .bootHeaderRead s fun t => t.glb.service = .romService ∧ t.glb.romCause = 1 ∧ Frame [.glb, .pins] s t)
    ∧ (∀ (s : State) (h : BootHeader), starting s = true → s.glb.step = 5 → s.pins.svcRequest = false → s.glb.header = some h →
      Completes .norOctalSwitch s fun t =>
        t.nvc = { s.nvc with octal := true, freqMhz := min h.freq 200, supBand := h.supply == 1,
                             dummy := max (waitStates (min h.freq 200) (h.supply == 1)) h.dummy, tsus := BitVec.ofNat 8 h.tsus }
        ∧ t.glb = { s.glb with step := 6 } ∧ t.out = [] ∧ Frame [.glb, .nvc, .evr] s t)
    ∧ (∀ (s : State) (n : Nat) (l : List ProfRec), starting s = true → s.glb.step = 6 → s.pins.svcRequest = false →
      s.glb.ovrValid = false → checkProfile (profileBytes s s.glb.pinSel.toNat) s.glb.pinSel.toNat = some (n, l) →
      Completes .profileRead s fun t =>
        t.glb = { s.glb with profile := l, activeSel := s.glb.pinSel, step := 7 } ∧ t.out = [] ∧ Frame [.glb, .sec, .hep, .pins] s t)
    ∧ (∀ s : State, starting s = true → s.glb.step = 6 → s.pins.svcRequest = false →
      s.glb.ovrValid = false → checkProfile (profileBytes s s.glb.pinSel.toNat) s.glb.pinSel.toNat = none →
      Completes .profileRead s fun t => t.glb.service = .romService ∧ t.glb.romCause = 2 ∧ Frame [.glb, .pins] s t)
    ∧ (∀ s : State, starting s = true → s.glb.step = 7 → s.pins.svcRequest = false →
      Completes .pcieDetectExit s fun t =>
        t.glb = { s.glb with step := 8 } ∧ t.hep.port0 = { s.hep.port0 with mayTrain := true }
        ∧ t.hep.port1 = { s.hep.port1 with mayTrain := true } ∧ t.out = [] ∧ Frame [.glb, .hep] s t)
    ∧ (∀ (s : State) (slots : List Spd) (temps : List Int), (Instr.dramInit slots temps).wf = true → starting s = true →
      s.glb.step = 8 → s.pins.svcRequest = false →
      populationOk (slots.filter fun r => slotEnabled s.glb.profile r.channel r.slot) = true →
      Completes (.dramInit slots temps) s fun t =>
        t.glb.step = 9 ∧ t.pins = { s.pins with dramReady := true }
        ∧ t.drc.rdimms = (slots.filter fun r => slotEnabled s.glb.profile r.channel r.slot).length
        ∧ Frame [.glb, .pins, .drc, .evr] s t)
    ∧ (∀ (s : State) (slots : List Spd) (temps : List Int), (Instr.dramInit slots temps).wf = true → starting s = true →
      s.glb.step = 8 → s.pins.svcRequest = false →
      populationOk (slots.filter fun r => slotEnabled s.glb.profile r.channel r.slot) = false →
      Completes (.dramInit slots temps) s fun t => t.glb.service = .romService ∧ t.glb.romCause = 3)
    ∧ (∀ s : State, starting s = true → s.glb.step = 9 → s.pins.svcRequest = false →
      exec (.dramCheckDone true) s = .next { s with out := [], glb := { s.glb with step := 10 } })
    ∧ (∀ s : State, starting s = true → s.glb.step = 9 → s.pins.svcRequest = false →
      Completes (.dramCheckDone false) s fun t => t.glb.service = .romService ∧ t.glb.romCause = 3))
  ∧ (
    (∀ s : State, starting s = true → s.glb.step = 10 ∨ s.glb.step = 11 → s.pins.fwRead = false → s.pins.svcRequest = false → s.pins.secondBank = false →
      Completes .firmwareReadDone s fun t =>
        t.glb = { s.glb with step := 12, bankB := firstBank s } ∧ t.pins = { s.pins with fwRead := true }
        ∧ t.out = [] ∧ Frame [.glb, .pins, .sec] s t)
    ∧ (∀ s : State, starting s = true → s.pins.fwRead = true → s.pins.verified = false → s.pins.svcRequest = false →
      bankCheck s s.glb.bankB = 0 →
      exec .signatureVerifyDone s
        = .next { s with out := [], glb := { s.glb with step := 13 }, pins := { s.pins with verified := true } })
    ∧ (∀ s : State, starting s = true → s.pins.fwRead = true → s.pins.verified = false → s.pins.svcRequest = false →
      bankCheck s s.glb.bankB ≠ 0 → s.pins.secondBank = true →
      Completes .signatureVerifyDone s fun t => t.glb.service = .romService ∧ t.glb.romCause = 4)
    ∧ (∀ s : State, starting s = true → s.pins.verified = true → s.pins.coresOut = false → s.pins.svcRequest = false →
      Completes .coreRelease s fun t =>
        t.glb.step = 0xFF ∧ t.pins.coresOut = true ∧ t.pins.lanesIdle = false
        ∧ t.ing.blocks = min (2 ^ 33) (s.drc.sizeGib * 2 ^ 30 / 32) / 2 ^ 28 * 2 ^ 28 / 4096)
    ∧ (∀ s : State, starting s = true → s.pins.coresOut = true → s.sec.rng.st = .seeded → s.peer.linkUp = false →
      s.wch.pending = none →
      Completes .firmwareReady s fun t =>
        t.glb.service = (if needsRecovery s then .recovery else .normal) ∧ t.wch.pending = some (.other (.failedStarts 0)))
    ∧ (∀ s : State, s.glb.service = .recovery → s.plf.records = [] → s.pins.holdup.isSome = true → s.peer.pair0.inReset = false →
      Completes .recoveryDone s fun t =>
        t.glb = { s.glb with service := .normal } ∧ t.rdm = { s.rdm with atomicsOff := true } ∧ t.out = []
        ∧ Frame [.glb, .rdm, .pins, .med] s t))

/-- R454, R455: a reading sets the temperature, its sensor and the peak, and THRIFT behaviour begins at the throttle limit; at
the shutdown limit the flush begins; THERMTRIP_L falls at its deadline. R112 to R114, R431, R438: SET POWER to P2 or P3 waits
for the admitted commands and ends in that state; in role SOLE or during a rebuild it is refused; SET PACE ends when the pace
is in force with its flush parameters; SELECT PROFILE writes the override; CHIP RESET asks for the reset. The commands said
to complete (exec answers next), on conditions on the state and the operands alone: junctionSensorRead, thermtripDeadline,
setPower, powerStateReached, setPace, paceInForce, selectProfile, chipReset. -/
def Obligations.TemperatureAndPower : Prop :=
  (
    (∀ (s : State) (x : Int) (r : List Int), (Instr.junctionSensorRead (x :: r)).wf = true → s.glb.powered = true →
      s.glb.resetHeld = false → (hottest r 1 (x, 0)).1 < s.clk.shutdownC →
      Completes (.junctionSensorRead (x :: r)) s fun t =>
        t.clk.tjNow = (hottest r 1 (x, 0)).1 ∧ t.clk.tjSensor = (hottest r 1 (x, 0)).2
        ∧ (s.clk.tjSeen = true → t.clk.tjPeak = max s.clk.tjPeak (hottest r 1 (x, 0)).1)
        ∧ (s.clk.throttleC ≤ (hottest r 1 (x, 0)).1 → t.clk.throttled = true)
        ∧ ((hottest r 1 (x, 0)).1 ≤ s.clk.throttleC - 5 → t.clk.throttled = false)
        ∧ t.clk.pace = s.clk.pace ∧ Frame [.clk, .ing, .evr] s t)
    ∧ (∀ (s : State) (x : Int) (r : List Int), (Instr.junctionSensorRead (x :: r)).wf = true → s.glb.powered = true →
      s.glb.resetHeld = false → s.clk.shutdownC ≤ (hottest r 1 (x, 0)).1 → s.pins.thermal = false → s.glb.service = .romService →
      Completes (.junctionSensorRead (x :: r)) s fun t => t.pins.thermal = true ∧ t.pins.stat = 7)
    ∧ (∀ s : State, s.pins.thermal = true →
      exec .thermtripDeadline s = .next { s with out := [], pins := { s.pins with thermTrip := true } })
    ∧ (∀ s : State, s.pins.thermal = false → exec .thermtripDeadline s = .next { s with out := [] }))
  ∧ (
    (∀ (s : State) (c : HostCmd) (q : Qp), Fetched s c q → (Instr.setPower c).wf = true → c.d7 = 0 → s.clk.newPower = none →
      Completes (.setPower c) s fun t => Answered c q 0 (pstateCode s) t ∧ Frame [.hqe, .hep] s t)
    ∧ (∀ (s : State) (c : HostCmd) (q : Qp), Fetched s c q → (Instr.setPower c).wf = true → c.d7 ≠ 0 → s.peer.role ≠ .sole →
      rebuilding s = false → s.clk.newPower = none →
      Completes (.setPower c) s fun t =>
        t.clk = { s.clk with newPower := some (Fin.ofNat 4 c.d7, s.hqe.nextCmd) }
        ∧ (∃ d ∈ t.hqe.cmds, d.id = s.hqe.nextCmd ∧ d.cid = c.cid ∧ d.stage = .power) ∧ t.out = [] ∧ Frame [.hqe, .clk] s t)
    ∧ (∀ (s : State) (c : HostCmd) (q : Qp), Fetched s c q → (Instr.setPower c).wf = true → c.d7 ≠ 0 →
      s.peer.role = .sole ∨ rebuilding s = true →
      Completes (.setPower c) s fun t => Answered c q 0x7003 0 t ∧ Frame [.hqe, .hep] s t)
    ∧ (∀ (s : State) (p : Fin 4) (id : Nat) (d : Cmd) (q : Qp), s.clk.newPower = some (p, id) → enteringSleep s = true →
      s.clk.wakeAfter = false → (∀ k, (queueOf s k).reads = []) → Outstanding s id d q →
      Completes .powerStateReached s fun t =>
        t.clk = { s.clk with pstate := p, newPower := none } ∧ Ended d q 0 false 0 p.val t
        ∧ (p = 3 → t.drc.selfRef = true) ∧ (p ≠ 3 → t.drc = s.drc ∧ t.dram = s.dram)
        ∧ Frame [.clk, .evr, .hqe, .hep, .drc, .dram, .freeCtr] s t)
    ∧ (∀ (s : State) (c : HostCmd) (q : Qp), Fetched s c q → (Instr.setPace c).wf = true →
      Completes (.setPace c) s fun t =>
        t.clk = { s.clk with changing := true, newPace := some (paceOf c.d7, s.hqe.nextCmd) }
        ∧ (∃ d ∈ t.hqe.cmds, d.id = s.hqe.nextCmd ∧ d.cid = c.cid ∧ d.stage = .pace) ∧ t.out = [] ∧ Frame [.hqe, .clk] s t)
    ∧ (∀ (s : State) (p : Pace) (id : Nat) (d : Cmd) (q : Qp), s.clk.newPace = some (p, id) →
      s.hqe.cmds.filter (fun c => c.stage == .pace) = [d] → Outstanding s d.id d q →
      Completes .paceInForce s fun t =>
        t.clk = { s.clk with pace := p, changing := false, newPace := none } ∧ Ended d q 0 false 0 0 t
        ∧ (p = .thrift → t.ing = { s.ing with lowPct := 60, highPct := 85, maxAgeMs := 200, idleUs := 250, oldest := t.ing.oldest })
        ∧ (p = .even → t.ing = { s.ing with lowPct := 50, highPct := 75, maxAgeMs := 50, idleUs := 200, oldest := t.ing.oldest })
        ∧ (p = .sprint → t.ing = { s.ing with lowPct := 30, highPct := 60, maxAgeMs := 20, idleUs := 50, oldest := t.ing.oldest })
        ∧ Frame [.clk, .ing, .evr, .hqe, .hep] s t)
    ∧ (∀ (s : State) (c : HostCmd) (q : Qp), Fetched s c q → (Instr.selectProfile c).wf = true →
      Completes (.selectProfile c) s fun t =>
        t.glb = { s.glb with
          ovrValid := !bitOf c.d7 31, ovrSel := if bitOf c.d7 31 then 0 else BitVec.ofNat 2 (bitsOf c.d7 1 0) }
        ∧ Answered c q 0 0 t ∧ Frame [.hqe, .hep, .glb] s t)
    ∧ (∀ (s : State) (c : HostCmd) (q : Qp), Fetched s c q → (Instr.chipReset c).wf = true →
      Completes (.chipReset c) s fun t =>
        t.glb = { s.glb with resetPending := true } ∧ Answered c q 0 0 t ∧ Frame [.hqe, .hep, .glb] s t))

/-! ### Host endpoint -/

/-- R67, R69: a port fundamental reset, a hot reset and a link-down clear the port's link and frozen state, its queue pairs and
MSI-X tables; the freeze causes, the violation registers and AER, the other port, and the namespaces survive. R67, R69, R70:
an FLR of PF0 ends VF Enable and every queue pair of the port, one of a VF that VF's queue pairs; the link and the frozen
state stay. A configuration request of a function that is not implemented is answered with Unsupported Request, one of a
function in clean-up with Request Retry Status. The commands said to complete (exec answers next), on conditions on the state
and the operands alone: perstAssert, perstRelease, hotReset, pcieLinkDown, resetCleanupDone, pf0Flr, vfFlr, d3hotEntry,
d0Return. -/
def Obligations.PortAndFunctionResets : Prop :=
  (
    (∀ (s : State) (p : Fin 2) (n : Nat), 1000 ≤ n →
      Completes (.perstAssert p n) s fun t =>
        portOf t p = { portOf s p with
            perstLow := true, dlUp := false, inDetect := true, width := 0, rate := 0, flit := false, frozen := false, numVf := 0, cleanup := true, cleanFns := List.range ((portOf s p).numVf + 1) }
        ∧ portOf t (1 - p) = portOf s (1 - p) ∧ (∀ q ∈ t.hqe.qps, q.key.f.port ≠ p) ∧ (∀ v ∈ t.hep.msix, v.f.port ≠ p)
        ∧ t.hqe.nss = s.hqe.nss)
    ∧ (∀ (s : State) (p : Fin 2) (n : Nat), n < 1000 → exec (.perstAssert p n) s = .next { s with out := [] })
    ∧ (∀ (s : State) (p : Fin 2),
      Completes (.perstRelease p) s fun t =>
        portOf t p = { portOf s p with perstLow := false } ∧ portOf t (1 - p) = portOf s (1 - p) ∧ t.hep.msix = s.hep.msix
        ∧ t.out = [] ∧ Frame [.hep] s t)
    ∧ (∀ (s : State) (p : Fin 2) (i : Instr), i = .hotReset p ∨ i = .pcieLinkDown p → (portOf s p).dlUp = true →
      Completes i s fun t =>
        portOf t p = { portOf s p with
            dlUp := false, inDetect := true, width := 0, rate := 0, flit := false, frozen := false, numVf := 0, cleanup := true, cleanFns := List.range ((portOf s p).numVf + 1) }
        ∧ portOf t (1 - p) = portOf s (1 - p) ∧ (∀ q ∈ t.hqe.qps, q.key.f.port ≠ p) ∧ (∀ v ∈ t.hep.msix, v.f.port ≠ p)
        ∧ t.hqe.nss = s.hqe.nss)
    ∧ (∀ (s : State) (p : Fin 2),
      Completes (.resetCleanupDone p) s fun t =>
        portOf t p = { portOf s p with cleanup := false, cleanFns := [] } ∧ portOf t (1 - p) = portOf s (1 - p)
        ∧ t.hep.msix = s.hep.msix ∧ t.out = [] ∧ Frame [.hep] s t))
  ∧ (
    (∀ (s : State) (p : Fin 2), 0 ∉ (portOf s p).cleanFns →
      Completes (.pf0Flr p) s fun t =>
        portOf t p = { portOf s p with numVf := 0, cleanup := true, cleanFns := List.range ((portOf s p).numVf + 1) }
        ∧ portOf t (1 - p) = portOf s (1 - p) ∧ (∀ q ∈ t.hqe.qps, q.key.f.port ≠ p) ∧ t.hqe.nss = s.hqe.nss)
    ∧ (∀ (s : State) (f : FnId), f.fn ≠ 0 → f.fn.toNat ≤ (portOf s f.port).numVf → f.fn.toNat ∉ (portOf s f.port).cleanFns →
      Completes (.vfFlr f) s fun t =>
        portOf t f.port = { portOf s f.port with cleanup := true, cleanFns := insertNat f.fn.toNat (portOf s f.port).cleanFns }
        ∧ portOf t (1 - f.port) = portOf s (1 - f.port) ∧ (∀ q ∈ t.hqe.qps, q.key.f ≠ f) ∧ t.hqe.nss = s.hqe.nss)
    ∧ (∀ (s : State) (f : FnId) (i : Instr), i = .d3hotEntry f ∨ i = .d0Return f ∨ i = .vfFlr f ∨ (f.fn = 0 ∧ i = .pf0Flr f.port) →
      (functionUp s f = false → exec i s = .next { s with out := [.config f .unsupported] })
      ∧ (functionUp s f = true → f.fn.toNat ∈ (portOf s f.port).cleanFns → exec i s = .next { s with out := [.config f .retry] })))

/-- R77: a write of 1 to RELEASE ends the frozen state, but only if CAUSE reads 0 at the time of the write; otherwise it has no
effect. Release leaves every queue as it is, frozen; an error that meets R75 after release freezes the port again. The
commands said to complete (exec answers next), on conditions on the state and the operands alone: portRelease,
tlpReceiveError. -/
def Obligations.PortRelease : Prop :=
  (∀ (s : State) (p : Fin 2), (portOf s p).cause = 0 →
    Completes (.portRelease p) s fun t =>
      portOf t p = { portOf s p with frozen := false } ∧ portOf t (1 - p) = portOf s (1 - p) ∧ t.hep.msix = s.hep.msix
      ∧ t.out = [] ∧ Frame [.hep] s t
      ∧ ∀ c : Fin 6, c ≠ 0 → (portOf s p).dlUp = true →
        Completes (.tlpReceiveError p c) t fun u => (portOf u p).frozen = true ∧ (portOf u p).first = c.val)
  ∧ (∀ (s : State) (p : Fin 2), (portOf s p).cause ≠ 0 → exec (.portRelease p) s = .next { s with out := [] })

/-- R61, R62, R71: a port that may leave Detect trains at the highest rate that its partner, its cap and the mode allow; a
partner below 16 GT/s leaves it in Detect. R75, R76: an error freezes the port with its cause, the first since CAUSE was 0 in
FIRST, and an AER message of its severity unless AER masks it; every queue of the port's functions is frozen and nothing is
posted; the other port is unaffected. R72: a poisoned memory write to BAR2 is discarded and counted in DROPPED_DB, one to
BAR0 is discarded; both are recorded in AER and freeze nothing. R64, R78: unmasking a vector whose pending bit is set sends
one message and clears the bit; a function in D3hot keeps its queues and is only noted. The commands said to complete (exec
answers next), on conditions on the state and the operands alone: pcieReceiverDetect, tlpReceiveError, pcieCompletionTimeout,
poisonedTlp, msixUnmask, d3hotEntry, d0Return. -/
def Obligations.PortsTrainAndFreeze : Prop :=
  (
    (∀ (s : State) (p : Fin 2) (r : Fin 4) (w : Fin 6) (flit : Bool), (portOf s p).mayTrain = true → (portOf s p).inDetect = true →
      (portOf s p).perstLow = false → (portOf s p).cleanup = false → r ≠ 0 → (portOf s p).rateCap ≠ 0 → w ≠ 0 →
      Completes (.pcieReceiverDetect p r w flit) s fun t =>
        portOf t p = { portOf s p with
            dlUp := true, inDetect := false, width := w, flit := flit, rate := min (min r (portOf s p).rateCap) (if flit then 3 else 2) }
        ∧ portOf t (1 - p) = portOf s (1 - p) ∧ t.hep.msix = s.hep.msix ∧ t.out = [] ∧ Frame [.hep] s t)
    ∧ (∀ (s : State) (p : Fin 2) (w : Fin 6) (flit : Bool), exec (.pcieReceiverDetect p 0 w flit) s = .next { s with out := [] }))
  ∧ (
    ∀ (s : State) (p : Fin 2) (i : Instr) (c : Fin 6), (i = .tlpReceiveError p c ∧ c ≠ 0) ∨ (i = .pcieCompletionTimeout p ∧ c = 0) →
      (portOf s p).dlUp = true → (portOf s p).frozen = false →
      Completes i s fun t =>
        (portOf t p).frozen = true ∧ (portOf t p).cause = (portOf s p).cause ||| BitVec.ofNat 6 (2 ^ c.val)
        ∧ (portOf t p).first = (if (portOf s p).cause = 0 then c.val else (portOf s p).first) ∧ (portOf t p).dlUp = true
        ∧ (∀ k q, qpOf t k = some q → k.f.port = p → q.frozen.isSome = true)
        ∧ ((portOf s p).aerMask.getLsbD c.val = false → Output.aer p ((portOf s p).aerFatal.getLsbD c.val) c.val ∈ t.out)
        ∧ ((portOf s p).aerMask.getLsbD c.val = true → ∀ x y, Output.aer p x y ∉ t.out)
        ∧ (∀ k n ph h e, Output.completion k n ph h e ∈ t.out → k.f.port ≠ p)
        ∧ portOf t (1 - p) = portOf s (1 - p) ∧ t.hep.msix = s.hep.msix)
  ∧ (
    ∀ (s : State) (p : Fin 2) (k : PoisonKind), k = .bar2Write ∨ k = .bar0Write →
      Completes (.poisonedTlp p k) s fun t =>
        (portOf t p).droppedDb = (if k = .bar2Write then min 0xFFFF ((portOf s p).droppedDb + 1) else (portOf s p).droppedDb)
        ∧ (portOf t p).frozen = (portOf s p).frozen ∧ (portOf t p).aer.getLsbD 8 = true
        ∧ t.out = (if (portOf s p).corrMask.getLsbD 8 then [] else [.aer p false 8])
        ∧ portOf t (1 - p) = portOf s (1 - p) ∧ t.hep.msix = s.hep.msix ∧ Frame [.hep, .freeCtr] s t)
  ∧ (
    (∀ (s : State) (f : FnId) (v : BitVec 11), functionUp s f = true → v.toNat < (if f.fn = 0 then 2048 else 64) →
      f ∉ s.hep.fnMask → (portOf s f.port).frozen = false →
      Completes (.msixUnmask f v) s fun t =>
        t.out = (if (vectorOf s f v.toNat).pending then [.msix f v.toNat] else [])
        ∧ (vectorOf t f v.toNat).masked = false ∧ (vectorOf t f v.toNat).pending = false
        ∧ t.hep.port0 = s.hep.port0 ∧ t.hep.port1 = s.hep.port1 ∧ Frame [.hep] s t)
    ∧ (∀ (s : State) (f : FnId), functionUp s f = true → f.fn.toNat ∉ (portOf s f.port).cleanFns →
      Completes (.d3hotEntry f) s fun t => f ∈ t.hep.d3 ∧ t.hep = { s.hep with d3 := t.hep.d3 } ∧ t.out = [] ∧ Frame [.hep] s t)
    ∧ (∀ (s : State) (f : FnId), functionUp s f = true → f.fn.toNat ∉ (portOf s f.port).cleanFns →
      Completes (.d0Return f) s fun t => f ∉ t.hep.d3 ∧ t.hep = { s.hep with d3 := t.hep.d3 } ∧ t.out = [] ∧ Frame [.hep] s t))

/-! ### Queues -/

/-- R59, R85: a write of ENABLE with valid fields creates the administrative queue pair from the base registers; with fields that
are not valid it sets CFG_ERR and creates nothing; ENABLE 0 deletes it; RESTART ends a freeze. In START-UP, in ROM-SERVICE
and on a frozen port the write is discarded and counted. R87 to R89, R110: a tail within the SQ is taken, one outside it
freezes the queue with cause 3; a head that frees posted entries is taken and posts what waits, another freezes it with cause
4; the interrupt timer signals what is not yet signalled; a failed fetch freezes it with cause 6. The commands said to
complete (exec answers next), on conditions on the state and the operands alone: adminQueueEnable, adminQueueDisable,
adminQueueRestart, sqTailDoorbell, cqHeadDoorbell, cqInterruptTimer, fetchUrCaCompletion. -/
def Obligations.AdminQueueAndDoorbells : Prop :=
  (
    (∀ (s : State) (f : FnId) (cfg : Word32) (id : Nat), (Instr.adminQueueEnable f cfg).wf = true → functionUp s f = true →
      bar2Open s f.port = true → qpOf s (adminKey f) = none → adminCfgOk (cfgFields cfg (adminOf s f)) = true →
      freeQpId s = some id →
      Completes (.adminQueueEnable f cfg) s fun t =>
        (∃ q, qpOf t (adminKey f) = some q ∧ q.id = id ∧ q.admin = true ∧ q.fetch = 0 ∧ q.tail = 0 ∧ q.phase = true ∧ q.frozen = none
          ∧ q.sqLog2 = (cfg.extractLsb' 0 4).toNat ∧ q.cqLog2 = (cfg.extractLsb' 8 4).toNat)
        ∧ (adminOf t f).cfgErr = false ∧ t.out = [] ∧ Frame [.hqe, .freeCtr] s t)
    ∧ (∀ (s : State) (f : FnId) (cfg : Word32), (Instr.adminQueueEnable f cfg).wf = true → functionUp s f = true →
      bar2Open s f.port = true → qpOf s (adminKey f) = none → adminCfgOk (cfgFields cfg (adminOf s f)) = false →
      Completes (.adminQueueEnable f cfg) s fun t =>
        (adminOf t f).cfgErr = true ∧ t.hqe.qps = s.hqe.qps ∧ t.out = [] ∧ Frame [.hqe] s t)
    ∧ (∀ (s : State) (f : FnId) (cfg : Word32), (Instr.adminQueueDisable f cfg).wf = true → functionUp s f = true →
      bar2Open s f.port = true →
      Completes (.adminQueueDisable f cfg) s fun t =>
        qpOf t (adminKey f) = none ∧ (adminOf t f).enable = false ∧ (∀ c ∈ t.hqe.cmds, c.origin = .host → c.q = adminKey f → c.silent = true)
        ∧ t.hqe.cmds.length = s.hqe.cmds.length ∧ t.out = [] ∧ Frame [.hqe] s t)
    ∧ (∀ (s : State) (f : FnId) (cfg : Word32) (b : Bytes) (q : Qp), (Instr.adminQueueRestart f cfg b).wf = true →
      functionUp s f = true → bar2Open s f.port = true → qpOf s (adminKey f) = some q → q.frozen.isSome = true →
      cfg.getLsbD 29 = false →
      Completes (.adminQueueRestart f cfg b) s fun t =>
        qpOf t (adminKey f) = some { q with frozen := none, freezeIdx := 0 } ∧ t.out = [] ∧ Frame [.hqe] s t)
    ∧ (∀ (s : State) (f : FnId) (cfg : Word32) (b : Bytes) (i : Instr), i = .adminQueueEnable f cfg ∨ i = .adminQueueDisable f cfg
        ∨ i = .adminQueueRestart f cfg b → i.wf = true → functionUp s f = true → bar2Open s f.port = false →
      Completes i s fun t =>
        (portOf t f.port).droppedDb = min 0xFFFF ((portOf s f.port).droppedDb + 1) ∧ t.out = [] ∧ Frame [.hep] s t))
  ∧ (
    (∀ (s : State) (k : QKey) (v : Word32) (q : Qp), functionUp s k.f = true → bar2Open s k.f.port = true → qpOf s k = some q →
      v.toNat % 65536 < sqSize q → s.clk.pstate.val < 2 → s.clk.newPower = none →
      Completes (.sqTailDoorbell k v) s fun t =>
        qpOf t k = some { q with tail := v.toNat % 65536 } ∧ t.out = [] ∧ Frame [.hqe] s t)
    ∧ (∀ (s : State) (k : QKey) (v : Word32) (q : Qp), functionUp s k.f = true → bar2Open s k.f.port = true → qpOf s k = some q →
      sqSize q ≤ v.toNat % 65536 → q.frozen = none →
      Completes (.sqTailDoorbell k v) s fun t => (qpOf t k).map (·.frozen) = some (some 3) ∧ (qpOf t k).map (·.tail) = some q.tail)
    ∧ (∀ (s : State) (k : QKey) (v : Word32) (q : Qp), functionUp s k.f = true → bar2Open s k.f.port = true → qpOf s k = some q →
      cqHeadOk q (v.toNat % 65536) = true → q.waiting = [] → s.clk.pstate.val < 2 → s.clk.newPower = none →
      Completes (.cqHeadDoorbell k v) s fun t =>
        qpOf t k = some { q with cqHead := v.toNat % 65536 } ∧ t.out = [] ∧ Frame [.hqe] s t)
    ∧ (∀ (s : State) (k : QKey) (v : Word32) (q : Qp), functionUp s k.f = true → bar2Open s k.f.port = true → qpOf s k = some q →
      cqHeadOk q (v.toNat % 65536) = false → q.frozen = none →
      Completes (.cqHeadDoorbell k v) s fun t => (qpOf t k).map (·.frozen) = some (some 4))
    ∧ (∀ (s : State) (k : QKey) (q : Qp), qpOf s k = some q → q.admin = false → 0 < q.unsig → (portOf s k.f.port).frozen = false →
      Completes (.cqInterruptTimer k) s fun t =>
        (qpOf t k).map (·.unsig) = some 0
        ∧ (if (vectorOf s k.f q.vec).masked || decide (k.f ∈ s.hep.fnMask) then (vectorOf t k.f q.vec).pending = true ∧ t.out = []
           else t.out = [.msix k.f q.vec]) ∧ Frame [.hqe, .hep] s t)
    ∧ (∀ (s : State) (k : QKey) (l : Bool) (h : Bytes) (q : Qp), qpOf s k = some q → fetchable s q = true →
      Completes (.fetchUrCaCompletion k l h) s fun t =>
        (qpOf t k).map (·.frozen) = some (some 6) ∧ (qpOf t k).map (·.fetch) = some ((q.fetch + 1) % sqSize q)))

/-- R92: an entry whose opcode no table lists, or that may not be issued on this queue or function, is fetched and completes with
the status of its check, and changes nothing else; this holds for every row of a command entry. R81, R84, R86: CREATE QP
makes a queue pair at a free index, with the fields of the entry and a queue pair ID in RESULT, ready to run with phase 1.
DELETE QP marks its queue pair, completes with its last admitted command, and frees the index. RESTART QP ends a freeze at
FETCH, or, with FLUSH, past the last valid tail (R111). R92, R104, R460: IDENTIFY and GET LOG write their page to the buffer:
of the device and the tenant, and of the function's queue errors and the tenant's staging credits; the state stays but for
the completion. The commands said to complete (exec answers next), on conditions on the state and the operands alone:
createQp, deleteQp, deleteQpSettled, restartQp, identify, getLog. -/
def Obligations.AdminCommands : Prop :=
  (
    ∀ (s : State) (c : HostCmd) (q : Qp) (st : Word16) (i : Instr), i ∈ [Instr.createQp c, .deleteQp c, .restartQp c, .identify c,
        .getLog c, .setPower c, .setPace c, .selectProfile c, .chipReset c, .createTenant c, .deleteTenant c, .assignFunction c,
        .createNamespace c, .deleteNamespace c, .read c, .write c, .deallocate c, .stateQuery c, .keyImport c, .keyGenerate c,
        .keyExport c, .keyErase c, .keyInfo c, .keyAttach c, .keyCmac c, .cgSet c, .snapCreate c, .snapDelete c, .snapList c,
        .snapExpose c, .replSend c, .replStop c, .replStatus c, .ingest c] →
      i.wf = true → qpOf s c.q = some q → fetchable s q = true → c.ordered = false → cqFull q = false → q.waiting = [] →
      entryCheck c q.admin q.tenant s.glb.service = some st →
      Completes i s fun t => Answered c q st 0 t ∧ Frame [.hqe, .hep] s t)
  ∧ (
    (∀ (s : State) (c : HostCmd) (q : Qp) (id i : Nat), Fetched s c q → (Instr.createQp c).wf = true → i = bitsOf c.d7 15 0 → i ≠ 0 →
      i < indexLimit c.q.f → qpOf s ⟨c.q.f, BitVec.ofNat 16 i⟩ = none →
      (isPf c.q.f = true → (tenantOf s (c.d3C % 4096)).isSome = true) → freeQpId s = some id →
      Completes (.createQp c) s fun t =>
        Answered c q 0 id t
        ∧ (∃ n, qpOf t ⟨c.q.f, BitVec.ofNat 16 i⟩ = some n ∧ n.id = id ∧ n.admin = false
          ∧ n.tenant = (if isPf c.q.f then some (c.d3C % 4096) else fnTenant s c.q.f)
          ∧ n.sqBase = c.dptr0 ∧ n.cqBase.toNat = c.q30 ∧ n.sqLog2 = bitsOf c.d7 27 24 ∧ n.cqLog2 = bitsOf c.d7 27 24
          ∧ n.vec = bitsOf c.d38 10 0 ∧ n.agg = bitsOf c.d38 23 16 ∧ n.timeUs = bitsOf c.d38 31 24
          ∧ n.tail = 0 ∧ n.fetch = 0 ∧ n.phase = true ∧ n.frozen = none ∧ n.deleting = none)
        ∧ Frame [.hqe, .hep, .freeCtr] s t)
    ∧ (∀ (s : State) (c : HostCmd) (q n : Qp), Fetched s c q → (Instr.deleteQp c).wf = true →
      qpOf s ⟨c.q.f, BitVec.ofNat 16 c.d7⟩ = some n → n.deleting = none → c.d7 < indexLimit c.q.f →
      Completes (.deleteQp c) s fun t =>
        (qpOf t ⟨c.q.f, BitVec.ofNat 16 c.d7⟩).map (·.deleting) = some (some s.hqe.nextCmd)
        ∧ (∃ d ∈ t.hqe.cmds, d.id = s.hqe.nextCmd ∧ d.cid = c.cid ∧ d.stage = .deleteQp ⟨c.q.f, BitVec.ofNat 16 c.d7⟩)
        ∧ t.out = [] ∧ Frame [.hqe] s t)
    ∧ (∀ (s : State) (k : QKey) (n q : Qp) (id : Nat) (d : Cmd), qpOf s k = some n → n.deleting = some id → qpSettled s k = true →
      Outstanding s id d q → d.q ≠ k →
      Completes (.deleteQpSettled k) s fun t => qpOf t k = none ∧ Ended d q 0 false 0 0 t ∧ Frame [.hqe, .hep] s t)
    ∧ (∀ (s : State) (c : HostCmd) (q n : Qp) (k : QKey), Fetched s c q → (Instr.restartQp c).wf = true →
      k = ⟨c.q.f, BitVec.ofNat 16 (bitsOf c.d7 15 0)⟩ → qpOf s k = some n → n.frozen.isSome = true →
      n.fetch < sqSize n → n.tail < sqSize n → n.sqLog2 ≤ 14 →
      Completes (.restartQp c) s fun t =>
        Answered c q 0 (if bitOf c.d7 31 then n.tail else n.fetch) t
        ∧ (qpOf t k).map (·.frozen) = some none ∧ (qpOf t k).map (·.tail) = some n.tail
        ∧ (qpOf t k).map (·.fetch) = some (if bitOf c.d7 31 then n.tail else n.fetch) ∧ Frame [.hqe, .hep] s t))
  ∧ (
    (∀ (s : State) (c : HostCmd) (q : Qp), Fetched s c q → (Instr.identify c).wf = true →
      Completes (.identify c) s fun t =>
        Output.hostWrite c.q.f.port c.dptr0 (padTo 4096 (if c.d7 = 0 then devicePage s c.q.f else tenantPage s q.tenant)) ∈ t.out
        ∧ Answered c q 0 0 t ∧ Frame [.hqe, .hep] s t)
    ∧ (∀ (s : State) (c : HostCmd) (q : Qp) (page : Bytes), Fetched s c q → (Instr.getLog c).wf = true →
      (c.d7 = 1 → page = (s.hqe.errLog.filter fun r => r.f == c.q.f).flatMap qErrBytes) →
      (c.d7 = 2 → ∃ x, (if q.admin && isPf c.q.f then some (c.d3C % 4096) else q.tenant).bind (fun n => tenantOf s n) = some x
        ∧ page = creditPage s x (q.admin && isPf c.q.f)) →
      Completes (.getLog c) s fun t =>
        Output.hostWrite c.q.f.port c.dptr0 (padTo 4096 page) ∈ t.out ∧ Answered c q 0 4096 t ∧ Frame [.hqe, .hep] s t))

/-! ### Administrative commands -/

/-- R83, R102, R127, R362, R81: CREATE TENANT takes a free ID, with its guarantee and cap, in a domain of its own with fresh keys
or in its partner's; DELETE TENANT needs it unused, and frees the domain with its last tenant; ASSIGN FUNCTION gives a VF
without queue pairs its tenant or takes it away. R184, R185, R428, R459: CREATE NAMESPACE takes a free NSID with the size,
mode and tenant of the entry and this head as owner; DELETE NAMESPACE holds off new commands, marks its snapshots and
discards what is staged; it ends once nothing of it remains, with its maps gone. The commands said to complete (exec answers
next), on conditions on the state and the operands alone: createTenant, deleteTenant, assignFunction, createNamespace,
deleteNamespace, deleteNamespaceDone. -/
def Obligations.TenantsAndNamespaces : Prop :=
  (
    (∀ (s : State) (c : HostCmd) (q : Qp) (id : Nat) (d : Option Nat), Fetched s c q → (Instr.createTenant c).wf = true →
      (bitOf c.d34 1 = true → bitOf c.d34 0 = false ∧ d = (tenantOf s (c.d38 % 4096)).map (·.domain) ∧ d.isSome = true) →
      (bitOf c.d34 1 = false → d = some id ∧ s.sec.rng.st = .seeded ∧ randomWaits s = false) →
      (bitOf c.d34 0 = true → (∀ a ∈ fedChips s, (pathOf s a).state = 1) ∧ fedAnswer s = 0) →
      s.hqe.tenants.length < 4096 → 2 * (sumG s + c.d7) ≤ stagingLimit s → pickId (usedTenantIds s) 4096 s = some id →
      Completes (.createTenant c) s fun t =>
        Answered c q 0 id t
        ∧ (∃ x, tenantOf t id = some x ∧ x.id = id ∧ x.g = c.d7 ∧ x.c = c.d30 ∧ x.relay = bitOf c.d34 0 ∧ x.shared = bitOf c.d34 1
          ∧ some x.domain = d ∧ x.gHeld = 0 ∧ x.pHeld = 0)
        ∧ (bitOf c.d34 1 = false → domainRec t id = some { id := id } ∧ (slotOf t id).state = .active ∧ (slotOf t id).type = typeDomain)
        ∧ (bitOf c.d34 1 = true → t.sec = s.sec ∧ t.hqe.domains = s.hqe.domains)
        ∧ (bitOf c.d34 0 = true → ∀ a ∈ fedChips s, Output.ether 0 4 a [0, id, c.d7, c.d30] [] ∈ t.out)
        ∧ Frame [.hqe, .hep, .sec, .freeCtr] s t)
    ∧ (∀ (s : State) (c : HostCmd) (q : Qp) (x : Tenant), Fetched s c q → (Instr.deleteTenant c).wf = true →
      tenantOf s c.d3C = some x → tenantInUse s x.id = false → (x.relay = true → fedAnswer s = 0) → tabWf {} s.sec.slots = true →
      Completes (.deleteTenant c) s fun t =>
        Answered c q 0 0 t ∧ tenantOf t c.d3C = none
        ∧ ((s.hqe.tenants.any fun y => y.id != x.id && y.domain == x.domain) = true → t.sec = s.sec ∧ t.hqe.domains = s.hqe.domains)
        ∧ ((s.hqe.tenants.any fun y => y.id != x.id && y.domain == x.domain) = false →
          domainRec t x.domain = none ∧ slotOf t x.domain = {})
        ∧ Frame [.hqe, .hep, .sec, .freeCtr] s t)
    ∧ (∀ (s : State) (c : HostCmd) (q : Qp) (f : FnId), Fetched s c q → (Instr.assignFunction c).wf = true →
      f = ⟨c.q.f.port, BitVec.ofNat 8 (bitsOf c.d7 7 0)⟩ →
      (bitOf c.d7 31 = false → (tenantOf s (bitsOf c.d7 27 16)).isSome = true) →
      (s.hqe.qps.any fun x => x.key.f == f && x.tenant.isSome) = false →
      Completes (.assignFunction c) s fun t =>
        Answered c q 0 0 t ∧ fnTenant t f = (if bitOf c.d7 31 then none else some (bitsOf c.d7 27 16))
        ∧ (∀ g : FnId, g ≠ f → fnTenant t g = fnTenant s g) ∧ Frame [.hqe, .hep] s t))
  ∧ (
    (∀ (s : State) (c : HostCmd) (q : Qp) (id : Nat) (x : Tenant), Fetched s c q → (Instr.createNamespace c).wf = true →
      tenantOf s c.d3C = some x → pickId (usedNsids s) 16384 s = some id →
      (domainUsed s x.domain = true → ∀ r, domainRec s x.domain = some r → r.sealFixed = true → r.seals = bitOf c.d7 6) →
      (bitOf c.d7 5 = true → (slotOf s x.domain).idData = 0 →
        (slotOf s x.domain).state = .active ∧ s.sec.rng.st = .seeded ∧ randomWaits s = false) →
      Completes (.createNamespace c) s fun t =>
        Answered c q 0 id t
        ∧ nsOf t id = some { id := id, tenant := x.id, size := c.start, mode := c.cdw7, owner := s.glb.headId,
                             keySlot := if bitOf c.d7 5 then some x.domain else none }
        ∧ (∀ r, domainRec s x.domain = some r → domainRec t x.domain = some { r with sealFixed := true, seals := bitOf c.d7 6 })
        ∧ (bitOf c.d7 5 = false ∨ (slotOf s x.domain).idData ≠ 0 → t.sec = s.sec) ∧ Frame [.hqe, .hep, .sec, .freeCtr] s t)
    ∧ (∀ (s : State) (c : HostCmd) (q : Qp) (n : Ns), Fetched s c q → (Instr.deleteNamespace c).wf = true → nsOf s c.ns = some n →
      n.deleting = none → (s.snp.snaps.any fun x => x.nsid == n.id && x.exposed.isSome) = false →
      (s.snp.sessions.any fun x => x.nsid == n.id) = false →
      Completes (.deleteNamespace c) s fun t =>
        (nsOf t c.ns).map (·.deleting) = some (some s.hqe.nextCmd)
        ∧ (∃ d ∈ t.hqe.cmds, d.id = s.hqe.nextCmd ∧ d.cid = c.cid ∧ d.stage = .deleteNs)
        ∧ (∀ k x, (t.snp.snaps.find? fun y => y.nsid == c.ns && y.seq == k) = some x → x.st = .deleting)
        ∧ ((∀ d ∈ s.hqe.cmds, d.nsid = c.ns → d.op.toNat < 128) → ∀ e ∈ t.ing.staging, e.nsid = c.ns → e.st ≠ .staged)
        ∧ Frame [.hqe, .hep, .ing, .snp] s t)
    ∧ (∀ (s : State) (n : BitVec 14) (x : Ns) (id : Nat) (d : Cmd) (q : Qp), nsOf s n.toNat = some x → x.deleting = some id →
      nsBusy s n.toNat id = false → (∀ e ∈ s.ing.staging, e.nsid ≠ n.toNat) → (∀ m ∈ s.ing.mirror, m.nsid ≠ n.toNat) →
      Outstanding s id d q →
      Completes (.deleteNamespaceDone n) s fun t =>
        nsOf t n.toNat = none ∧ Ended d q 0 false 0 0 t
        ∧ (x.exposed = none → ∀ m ∈ t.med.maps, m.nsid ≠ n.toNat) ∧ (x.exposed ≠ none → t.med = s.med)
        ∧ Frame [.hqe, .hep, .ing, .med, .snp, .til] s t))

/-! ### I/O commands -/

/-- R91, R92, R94, R95, R363: an I/O command that fails steps 4 or 5 of admission, or whose target chip has no path, is answered
with the status; one that must wait is held behind; in head role SERVICE it goes to the peer, in its turn in the SQ. R106,
R108: STATE QUERY writes one entry for each tag to its result buffer and completes with their number; with WAIT it stays
while a tag is PENDING, at most 100 ms; RELEASE unpins the entries that were read. The commands said to complete (exec
answers next), on conditions on the state and the operands alone: read, write, deallocate, stateQuery, stateQueryWaitEnd. -/
def Obligations.IoRoutingAndQueries : Prop :=
  (
    ∀ (s : State) (c : HostCmd) (q : Qp) (i : Instr), i = .read c ∨ i = .write c ∨ i = .deallocate c → i.wf = true → Fetched s c q →
      (c.remote = true → relayTarget s (c.fed.toNat % 64) = none →
        Completes i s fun t => Answered c q 0x6003 0 t ∧ Frame [.hqe, .hep] s t)
      ∧ (∀ st, c.remote = false → s.pair.swapWait = false → s.peer.role ≠ .service →
        nsCheck s ⟨c, q.tenant, .host⟩ = .fails st →
        Completes i s fun t => Answered c q st 0 t ∧ Frame [.hqe, .hep] s t)
      ∧ (∀ n, c.remote = false → s.pair.swapWait = false → s.peer.role ≠ .service →
        nsCheck s ⟨c, q.tenant, .host⟩ = .ok n → mustWait s ⟨c, q.tenant, .host⟩ = true →
        Completes i s fun t => t.hqe.behind = s.hqe.behind ++ [⟨c, q.tenant, .host⟩] ∧ t.out = [] ∧ Frame [.hqe] s t)
      ∧ (c.remote = false → s.pair.swapWait = false → s.peer.role = .service → s.peer.linkUp = false →
        Completes i s fun t => Answered c q 0x6002 0 t ∧ Frame [.hqe, .hep] s t)
      ∧ (c.remote = false → s.pair.swapWait = false → s.peer.role = .service → s.peer.linkUp = true →
        relayWaits s ⟨c, q.tenant, .host⟩ = true →
        Completes i s fun t => t.hqe.behind = s.hqe.behind ++ [⟨c, q.tenant, .host⟩] ∧ t.out = [] ∧ Frame [.hqe] s t)
      ∧ (c.remote = false → s.pair.swapWait = false → s.peer.role = .service → s.peer.linkUp = true →
        relayWaits s ⟨c, q.tenant, .host⟩ = false →
        Completes i s fun t =>
          (∃ d ∈ t.hqe.cmds, d.id = s.hqe.nextCmd ∧ d.cid = c.cid ∧ d.stage = .relayed peerDst)
          ∧ (i = .write c → ∀ b ∈ c.bufs, Output.hostRead c.q.f.port (BitVec.ofNat 64 b.1) b.2 ∈ t.out)
          ∧ (i ≠ .write c → ∃ a, Output.peerMsg 0x14 s.peer.epoch a [] ∈ t.out) ∧ Frame [.hqe] s t))
  ∧ (
    (∀ (s : State) (c : HostCmd) (q : Qp), Fetched s c q → (Instr.stateQuery c).wf = true → c.remote = false →
      (q.admin = true → isPf c.q.f = true → (tenantOf s (c.d3C % 4096)).isSome = true) →
      (s.glb.service = .recovery → logReplayed s = true) → cmdOf s s.hqe.nextCmd = none →
      (bitOf c.d3C 30 = false ∨ queryPending s (queryTenant c q) (queryTags c) = false →
        Completes (.stateQuery c) s fun t =>
          Output.hostWrite c.q.f.port (BitVec.ofNat 64 c.q30) ((queryTags c).flatMap (queryEntry s (queryTenant c q))) ∈ t.out
          ∧ Answered c q 0 c.d38 t
          ∧ (∀ tn g e, bitOf c.d3C 31 = true → queryTenant c q = some tn → g ∈ queryTags c → settleFind t tn g = some e →
              e.pinned = false)
          ∧ (bitOf c.d3C 31 = false → t.hqe.settle = s.hqe.settle) ∧ Frame [.hqe, .hep] s t)
      ∧ (bitOf c.d3C 30 = true → queryPending s (queryTenant c q) (queryTags c) = true →
        Completes (.stateQuery c) s fun t =>
          (∃ d, cmdOf t s.hqe.nextCmd = some d
            ∧ d.stage = .query (queryTags c) (queryTenant c q) (bitOf c.d3C 31) c.q30 ∧ d.cid = c.cid)
          ∧ t.out = [] ∧ Frame [.hqe] s t))
    ∧ (∀ (s : State) (id : Nat) (timedOut : Bool) (d : Cmd) (q : Qp) (tags : List Word64) (tn : Option Nat) (rel : Bool) (addr : Nat),
      Outstanding s id d q → d.stage = .query tags tn rel addr → timedOut = true ∨ queryPending s tn tags = false →
      Completes (.stateQueryWaitEnd id timedOut) s fun t =>
        Output.hostWrite d.q.f.port (BitVec.ofNat 64 addr) (tags.flatMap (queryEntry s tn)) ∈ t.out
        ∧ Ended d q 0 false 0 tags.length t ∧ Frame [.hqe, .hep] s t))

/-- R96, R100, R202, R205, R187: a READ whose blocks are staged, deallocated or never written is served at once from the newest
copy; one that needs stored chunks gets a job for each; one whose map pages are not cached waits for them; one that needs a
key that is not loaded delivers nothing and completes with 0x7011. R205: a map page that has been read is in the cache, and a
READ that waited for nothing else goes on. The commands said to complete (exec answers next), on conditions on the state and
the operands alone: read, mapPageReadDone. -/
def Obligations.ReadsAreServed : Prop :=
  (
    ∀ (s : State) (c : HostCmd) (q : Qp) (n : Ns), Admissible s c q n → (Instr.read c).wf = true →
      (n.exposed.isSome = true ∨ missingPages s n.id c.start c.blocks = [] →
        (∀ i, i < c.blocks → ∀ m, blockSource s n (c.start + i) ≠ .chunk m) →
        (∀ i, i < c.blocks → badBlock s n (c.start + i) = false) →
        Completes (.read c) s fun t =>
          Answered c q 0 0 t
          ∧ (∀ i, i < c.blocks → blockSource s n (c.start + i) = .zero → ∀ p ∈ scatter c.bufs (i * 4096) (zeros 4096),
              Output.hostWrite c.q.f.port (BitVec.ofNat 64 p.1) p.2 ∈ t.out)
          ∧ (∀ i d, i < c.blocks → blockSource s n (c.start + i) = .data d → ∀ p ∈ scatter c.bufs (i * 4096) (padTo 4096 d),
              Output.hostWrite c.q.f.port (BitVec.ofNat 64 p.1) p.2 ∈ t.out)
          ∧ Frame [.hqe, .hep, .med] s t)
      ∧ (∀ i m, n.exposed.isSome = true ∨ missingPages s n.id c.start c.blocks = [] →
        (∀ e ∈ s.med.chunks, keysLoaded s e = true) → i < c.blocks → blockSource s n (c.start + i) = .chunk m →
        Completes (.read c) s fun t =>
          (∃ d, cmdOf t s.hqe.nextCmd = some d ∧ d.stage = .reading ∧ d.cid = c.cid)
          ∧ (∃ j ∈ t.bal.readJobs, j.cmd = s.hqe.nextCmd ∧ j.chunk = m.chunkA)
          ∧ (∀ k p h w e, Output.completion k p h w e ∉ t.out) ∧ Frame [.hqe, .med, .bal, .ing] s t)
      ∧ (n.exposed = none → missingPages s n.id c.start c.blocks ≠ [] →
        Completes (.read c) s fun t =>
          (∃ d, cmdOf t s.hqe.nextCmd = some d ∧ d.stage = .waitMap ∧ d.cid = c.cid) ∧ s.med.mapFaults ≤ t.med.mapFaults
          ∧ (∀ p a b, Output.hostWrite p a b ∉ t.out) ∧ (∀ k p h w e, Output.completion k p h w e ∉ t.out)
          ∧ Frame [.hqe, .med, .far] s t)
      ∧ (∀ i m e, n.exposed.isSome = true ∨ missingPages s n.id c.start c.blocks = [] → i < c.blocks →
        blockSource s n (c.start + i) = .chunk m → chunkOf s m.chunkA = some e → keysLoaded s e = false →
        Completes (.read c) s fun t =>
          Answered c q 0x7011 0 t ∧ (∀ p a b, Output.hostWrite p a b ∉ t.out) ∧ Frame [.hqe, .hep] s t))
  ∧ (
    ∀ (s : State) (n : BitVec 14) (p : Nat), (Instr.mapPageReadDone n p).wf = true → s.hqe.behind = [] →
      s.med.cached.length < s.med.areas.cachePages →
      (s.hqe.cmds.filter (fun c => c.stage == .waitMap) = [] →
        Completes (.mapPageReadDone n p) s fun t =>
          (n.toNat, p) ∈ t.med.cached ∧ t.hqe = s.hqe ∧ t.out = [] ∧ Frame [.med] s t)
      ∧ (∀ d x, s.hqe.cmds.filter (fun c => c.stage == .waitMap) = [d] → cmdOf s d.id = some d → d.op = 0x80 → d.nsid = n.toNat →
        nsOf s n.toNat = some x → missingPages s d.nsid d.lba d.nblk = [(n.toNat, p)] →
        missingPages (touchPage (n.toNat, p) s) d.nsid d.lba d.nblk = [] →
        Completes (.mapPageReadDone n p) s fun t =>
          (n.toNat, p) ∈ t.med.cached ∧ (∀ e, cmdOf t d.id = some e → e.stage = .reading) ∧ Frame [.med, .hqe, .hep, .bal, .ing] s t))

/-- R99, R102, R103, R105, R118: a WRITE that finds its slots and credits takes an entry with the next generation for each block,
its credits from the guarantee first, and requests its data; with TAGGED it makes a PENDING entry of the settlement log. R99,
R31, R105: arriving data fills its block's entry; with the last block the write's blocks are STAGED, and it completes and its
tag is COMMITTED with all its blocks where no mirror is needed; in role ACTIVE it waits for the peer's acknowledgements.
R103, R120, R106: when room comes free, the write that waits for it is admitted; after 200 µs of waiting it completes with
0x5001, counted for its tenant, and its tag is NOT COMMITTED. R100, R119, R31: a DEALLOCATE needs no data and no credit: its
blocks become STAGED entries that read as zeros, and it completes once they are mirrored, at once where the role needs no
mirror. The commands said to complete (exec answers next), on conditions on the state and the operands alone: write,
writeDataArrived, creditGrant, creditWaitTimeout, deallocate. -/
def Obligations.WritesAreAdmitted : Prop :=
  (
    ∀ (s : State) (c : HostCmd) (q : Qp) (n : Ns) (tn : Nat) (x : Tenant), Admissible s c q n → (Instr.write c).wf = true →
      q.tenant = some tn → tenantOf s tn = some x → missingMap s c.ns c.start c.blocks = [] →
      (∀ d ∈ s.hqe.cmds, waitsAtAdmission d = false) → SlotsFree s c.ns c.start c.blocks →
      (creditState s x c.blocks = .granted → (∀ g, c.tagOf = some g → tagBusy s tn g = false ∧ ownEntries s < settleCap) →
        Completes (.write c) s fun t =>
          Slotted s s.hqe.nextCmd c.ns c.start c.blocks t ∧ tenantOf t tn = some (creditsTaken x c.blocks)
          ∧ (∃ d, cmdOf t s.hqe.nextCmd = some d ∧ d.stage = .filling ∧ d.cid = c.cid)
          ∧ (∀ b ∈ c.bufs, Output.hostRead c.q.f.port (BitVec.ofNat 64 b.1) b.2 ∈ t.out)
          ∧ (∀ g, c.tagOf = some g → ∃ e ∈ t.hqe.settle, isTag tn g e = true ∧ e.outcome = 4 ∧ e.count = 0 ∧ e.pinned = false)
          ∧ (c.tagOf = none → t.hqe.settle = s.hqe.settle) ∧ Frame [.hqe, .ing, .med] s t)
      ∧ (∀ g, c.tagOf = some g → tagBusy s tn g = true → Completes (.write c) s fun t => Answered c q 0x1008 0 t ∧ Frame [.hqe, .hep] s t)
      ∧ (c.tagOf = none → creditState s x c.blocks ≠ .granted →
        Completes (.write c) s fun t =>
          (∃ d, cmdOf t s.hqe.nextCmd = some d ∧ d.stage = .waitCredit ∧ d.cid = c.cid) ∧ t.ing = s.ing ∧ t.out = []
          ∧ Frame [.hqe, .med] s t))
  ∧ (
    ∀ (s : State) (id b : Nat) (data : Bytes) (d : Cmd), (Instr.writeDataArrived id b data).wf = true → cmdOf s id = some d → d.stage = .filling →
      b < d.nblk → b ∉ d.arrived → s.pins.flushing = false →
      (0 ∉ d.arrived → b ≠ 0 →
        Completes (.writeDataArrived id b data) s fun t =>
          cmdOf t id = some { d with arrived := d.arrived ++ [b] }
          ∧ (∀ e, entryOfBlock s id b = some e → entryOfBlock t id b = some { e with data := padTo 4096 data })
          ∧ t.out = [] ∧ Frame [.hqe, .ing] s t)
      ∧ (∀ q, (∀ k, k < d.nblk → k = b ∨ k ∈ d.arrived) → s.peer.role ≠ .active → d.status = 0 → d.good = d.nblk → Outstanding s id d q →
        Completes (.writeDataArrived id b data) s fun t =>
          Ended d q 0 false 0 0 t
          ∧ (∀ g tn x, d.op = 0x81 → d.tag = some g → d.tenant = some tn → settleFind s tn g = some x →
              settleFind t tn g = some { x with outcome := 1, count := d.nblk, at_ := nowS s })
          ∧ Frame [.hqe, .hep, .ing] s t)
      ∧ (∀ k, (∀ j, j < d.nblk → j = b ∨ j ∈ d.arrived) → s.peer.role = .active → d.good = d.nblk → k < d.nblk → k ∉ d.acked →
        Completes (.writeDataArrived id b data) s fun t =>
          (cmdOf t id).map (·.stage) = some .mirroring ∧ (∀ k p h w e, Output.completion k p h w e ∉ t.out) ∧ Frame [.hqe, .ing] s t))
  ∧ (
    (∀ (s : State) (d : Cmd) (tn : Nat) (x : Tenant), s.hqe.cmds.filter waitsAtAdmission = [d] → cmdOf s d.id = some d →
      (∀ e ∈ s.hqe.cmds, e.stage ≠ .waitTag) → s.hqe.behind = [] → d.op = 0x81 → d.origin = .host → d.tenant = some tn →
      tenantOf s tn = some x → SlotsFree s d.nsid d.lba d.nblk → creditState s x d.nblk = .granted →
      s.pins.flushing = false →
      Completes .creditGrant s fun t =>
        Slotted s d.id d.nsid d.lba d.nblk t ∧ tenantOf t tn = some (creditsTaken x d.nblk)
        ∧ (cmdOf t d.id).map (·.stage) = some .filling
        ∧ (∀ b ∈ d.bufs, Output.hostRead d.q.f.port (BitVec.ofNat 64 b.1) b.2 ∈ t.out) ∧ Frame [.hqe, .ing] s t)
    ∧ (∀ (s : State) (id : Nat) (d : Cmd) (q : Qp), Outstanding s id d q → waitsAtAdmission d = true → suspectNow s = false →
      writesHeld s d.nsid = false → s.hqe.behind = [] →
      Completes (.creditWaitTimeout id) s fun t =>
        Ended d q 0x5001 false 0 0 t
        ∧ (∀ tn x, d.tenant = some tn → tenantOf s tn = some x → (tenantOf t tn).map (·.n5001) = some (min 0xFFFFFFFF (x.n5001 + 1)))
        ∧ (∀ g tn x, d.op = 0x81 → d.tag = some g → d.tenant = some tn → 0 < d.nblk → settleFind s tn g = some x →
            settleFind t tn g = some { x with outcome := 2, count := 0, at_ := nowS s })
        ∧ Frame [.hqe, .hep, .ing] s t))
  ∧ (
    ∀ (s : State) (c : HostCmd) (q : Qp) (n : Ns), Admissible s c q n → (Instr.deallocate c).wf = true →
      missingMap s c.ns c.start c.blocks = [] → (∀ d ∈ s.hqe.cmds, waitsAtAdmission d = false) →
      SlotsFree s c.ns c.start c.blocks → (∀ i, i < c.blocks → liveGens s c.ns (c.start + i) = []) →
      (∀ e ∈ s.ing.staging, e.cmd ≠ s.hqe.nextCmd) →
      Completes (.deallocate c) s fun t =>
        (∀ i, i < c.blocks → ∃ e ∈ t.ing.staging, e.cmd = s.hqe.nextCmd ∧ e.nsid = c.ns ∧ e.lba = c.start + i ∧ e.st = .staged
          ∧ e.dealloc = true ∧ e.tenant = none ∧ e.gen = publishedGen s c.ns (c.start + i) + 1)
        ∧ (s.peer.role ≠ .active → Answered c q 0 0 t)
        ∧ (s.peer.role = .active → (∃ d, cmdOf t s.hqe.nextCmd = some d ∧ d.stage = .mirroring)
          ∧ ∀ k p h w e, Output.completion k p h w e ∉ t.out)
        ∧ t.hqe.tenants = s.hqe.tenants ∧ Frame [.hqe, .hep, .ing, .med] s t)

/-! ### Keys and the vault -/

/-- R165 to R177: KEY IMPORT, KEY EXPORT and KEY CMAC wait as requests of the vault engine. Served, KEY IMPORT unwraps a blob of
the type's length into its slot, and restores a LOST slot of the same identifiers; KEY GENERATE fills an EMPTY slot with a
drawn key of its type and owner; KEY ERASE empties a device slot that nothing uses; KEY ATTACH gives an empty namespace its
data key. A key command that fails changes no slot and no namespace. R170, R173, R179: KEY INFO, KEY EXPORT and KEY CMAC
write a descriptor, a wrapped key or a tag to the host, or compare a tag, and change no slot; while the vault is out of
service every key command completes with 0x7011. The commands said to complete (exec answers next), on conditions on the
state and the operands alone: keyImport, keyExport, keyCmac, vaultRequestDone, keyGenerate, keyErase, keyAttach, keyInfo. -/
def Obligations.KeyCommands : Prop :=
  (
    (∀ (s : State) (c : HostCmd) (q : Qp) (i : Instr) (r : VaultReq), i = .keyImport c ∨ i = .keyExport c ∨ i = .keyCmac c →
      i.wf = true → Fetched s c q → s.sec.vault.out = false → keyRequest c = some r →
      Completes i s fun t =>
        t.hqe.behind = s.hqe.behind ++ [⟨c, q.tenant, .host⟩]
        ∧ (s.sec.vault = {} → t.sec.vault = { running := some r })
        ∧ (∀ x, s.sec.vault.running = some x → vaultQueued s.sec.vault < 64 →
            t.sec.vault = { s.sec.vault with normal := s.sec.vault.normal ++ [r] })
        ∧ (∀ x, s.sec.vault.running = some x → 64 ≤ vaultQueued s.sec.vault →
            t.sec.vault = { s.sec.vault with outside := s.sec.vault.outside ++ [r] })
        ∧ t.out = [] ∧ Frame [.hqe, .sec] s t)
    ∧ (∀ (s : State) (c : HostCmd) (q : Qp) (n : Nat) (ty : BitVec 3) (m : Bytes) (k : Slot), Served s c q → c.op = 0x20 →
      n = bitsOf c.d7 12 0 → ty = BitVec.ofNat 3 (bitsOf c.d7 18 16) → slotInRange ty n = true →
      wrapSlotOk s c.d30 (fun o => o == c.d3C) = true → (slotOf s c.d30).state = .active → c.d38 = blobLen ty →
      (if bitOf c.d7 24 then kwpUnwrap (slotOf s c.d30).material (padTo (blobLen ty) c.buf)
        else kwUnwrap (slotOf s c.d30).material (padTo (blobLen ty) c.buf)) = some m →
      m.length = materialLen ty → (tenantOf s c.d3C).isSome = true → (ty = typeDomain → domainOf s c.d3C = n) →
      k = filledSlot ty (if ty = typeDomain then n else c.d3C) (bitOf c.d7 25) m ((m.drop 64).any (· != 0)) → k.idA ≠ 0 →
      (ty = typeDomain → k.idSeal ≠ 0 ∧ ((m.drop 64).any (· != 0) = true → k.idData ≠ 0)) →
      ((slotOf s n).state = .empty ∨ (slotOf s n).state = .active ∧ ty = typeDomain → (ty = typeDomain → domainUsed s n = false) →
        Completes .vaultRequestDone s fun t =>
          Posted c q 0 (k.idA.toNat % 2 ^ 32) t ∧ slotOf t n = k ∧ Frame [.hqe, .hep, .sec] s t)
      ∧ ((slotOf s n).state = .lost → (slotOf s n).type = ty → (slotOf s n).idA = k.idA → (slotOf s n).idSeal = k.idSeal →
        (slotOf s n).idData = k.idData → (ty ≠ typeDomain → (slotOf s n).owner = c.d3C) →
        Completes .vaultRequestDone s fun t =>
          Posted c q 0 (k.idA.toNat % 2 ^ 32) t
          ∧ slotOf t n = { k with exportable := (slotOf s n).exportable, owner := (slotOf s n).owner } ∧ Frame [.hqe, .hep, .sec] s t))
    ∧ (∀ (s : State) (c : HostCmd) (q : Qp) (n : Nat) (ty : BitVec 3), Fetched s c q → (Instr.keyGenerate c).wf = true →
      s.sec.vault.out = false → n = bitsOf c.d7 12 0 → ty = BitVec.ofNat 3 (bitsOf c.d7 18 16) → ty ≠ typeDomain →
      slotInRange ty n = true → (slotOf s n).state = .empty → (tenantOf s c.d3C).isSome = true → s.sec.rng.st = .seeded →
      randomWaits s = false →
      Completes (.keyGenerate c) s fun t =>
        Answered c q 0 ((slotOf t n).idA.toNat % 2 ^ 32) t ∧ (slotOf t n).state = .active ∧ (slotOf t n).type = ty
        ∧ (slotOf t n).owner = c.d3C ∧ (slotOf t n).exportable = bitOf c.d7 25 ∧ (slotOf t n).material.length = materialLen ty
        ∧ (slotOf t n).idA = keyId (keyAt (slotOf t n).material 0) ∧ Frame [.hqe, .hep, .sec, .freeCtr] s t)
    ∧ (∀ (s : State) (c : HostCmd) (q : Qp), Fetched s c q → (Instr.keyErase c).wf = true → s.sec.vault.out = false →
      0x1000 ≤ c.d7 → c.d7 < 0x1FF0 → attachedTo s c.d7 = [] → (∀ x ∈ s.med.chunks, x.keyInfo = c.d7 → x.refs = 0) →
      tabWf {} s.sec.slots = true →
      Completes (.keyErase c) s fun t => Answered c q 0 0 t ∧ slotOf t c.d7 = {} ∧ Frame [.hqe, .hep, .sec] s t)
    ∧ (∀ (s : State) (c : HostCmd) (q : Qp) (x : Ns), Fetched s c q → (Instr.keyAttach c).wf = true → s.sec.vault.out = false →
      nsOf s c.ns = some x → slotInRange typeData c.d7 = true → (slotOf s c.d7).state = .active → (slotOf s c.d7).type = typeData →
      bitOf x.mode.toNat 5 = true → (slotOf s c.d7).owner = x.tenant → nsWritten s c.ns = false →
      Completes (.keyAttach c) s fun t =>
        Answered c q 0 0 t ∧ nsOf t c.ns = some { x with keySlot := some c.d7 } ∧ Frame [.hqe, .hep] s t)
    ∧ (∀ (s : State) (c : HostCmd) (q : Qp) (i : Instr) (f : HostCmd → State → AdminDone),
      (i, f) ∈ [(Instr.keyGenerate c, keyGenerateCmd), (.keyErase c, keyEraseCmd), (.keyAttach c, keyAttachCmd)] →
      i.wf = true → Fetched s c q → s.sec.vault.out = false → randomWaits s = false → (f c s).1 ≠ 0 →
      Completes i s fun t =>
        t.sec.slots = s.sec.slots ∧ t.hqe.nss = s.hqe.nss
        ∧ ((f c s).1 = 0x1002 ∨ (f c s).1 = 0x1009 ∨ (f c s).1 = 0x7002 ∨ (f c s).1 = 0x7011))
    ∧ (∀ (s : State) (c : HostCmd) (q : Qp), Served s c q → c.op = 0x20 ∨ c.op = 0x22 ∨ c.op = 0x26 → (keyServed c s).1 ≠ 0 →
      Completes .vaultRequestDone s fun t =>
        t.sec.slots = s.sec.slots ∧ t.hqe.nss = s.hqe.nss
        ∧ ((keyServed c s).1 = 0x1002 ∨ (keyServed c s).1 = 0x1009 ∨ (keyServed c s).1 = 0x7011)))
  ∧ (
    (∀ (s : State) (c : HostCmd) (q : Qp), Fetched s c q → (Instr.keyInfo c).wf = true → s.sec.vault.out = false →
      Completes (.keyInfo c) s fun t =>
        Output.hostWrite c.q.f.port c.dptr0 (descriptor s c.d7) ∈ t.out ∧ Answered c q 0 0 t ∧ Frame [.hqe, .hep] s t)
    ∧ (∀ (s : State) (c : HostCmd) (q : Qp) (k : Slot), Served s c q → c.op = 0x22 →
      bitsOf c.d7 12 0 < 0x1FF0 → k = slotOf s (bitsOf c.d7 12 0) → k.state = .active → (k.type ≠ typeDomain → k.exportable = true) →
      wrapSlotOk s c.d30 (fun o => if k.type = typeDomain then domainOf s o == bitsOf c.d7 12 0 else o == k.owner) = true →
      (slotOf s c.d30).state = .active → blobLen k.type ≤ c.d38 →
      Completes .vaultRequestDone s fun t =>
        (∃ b, Output.hostWrite c.q.f.port c.dptr0 b ∈ t.out
          ∧ b = (if bitOf c.d7 24 then kwpWrap else kwWrap) (slotOf s c.d30).material
              (if k.type = typeDomain then padTo 128 k.material else k.material))
        ∧ Posted c q 0 (blobLen k.type) t ∧ t.sec.slots = s.sec.slots ∧ Frame [.hqe, .hep, .sec] s t)
    ∧ (∀ (s : State) (c : HostCmd) (q : Qp) (k : Slot), Served s c q → c.op = 0x26 →
      slotInRange typeCmac (bitsOf c.d7 12 0) = true → k = slotOf s (bitsOf c.d7 12 0) → k.type = typeCmac → k.state = .active →
      Completes .vaultRequestDone s fun t =>
        (bitOf c.d7 31 = true → Posted c q 0 (if cmac k.material (padTo c.d38 c.buf) = padTo 16 c.buf2 then 1 else 0) t)
        ∧ (bitOf c.d7 31 = false → Posted c q 0 0 t
          ∧ Output.hostWrite c.q.f.port (BitVec.ofNat 64 c.q30) (cmac k.material (padTo c.d38 c.buf)) ∈ t.out)
        ∧ t.sec.slots = s.sec.slots ∧ Frame [.hqe, .hep, .sec] s t)
    ∧ (∀ (s : State) (c : HostCmd) (q : Qp) (i : Instr), i ∈ [Instr.keyImport c, .keyGenerate c, .keyExport c, .keyErase c, .keyInfo c,
        .keyAttach c, .keyCmac c] → i.wf = true → Fetched s c q → s.sec.vault.out = true →
      Completes i s fun t => Answered c q 0x7011 0 t ∧ Frame [.hqe, .hep] s t))

/-- R175 to R178: an idle engine starts a request at once; a busy one queues it in its class, 64 in all, and takes an URGENT one
ahead by suspending a NORMAL CMAC; the end of a request hands its result over, and the suspended one goes on when no URGENT
one waits; a self-test starts when nothing is queued. R179: a self-test that passes ends; one that fails takes the engine out
of service with nothing left queued, the key commands that waited answered, and a Fault event; a retest after 1 s returns it
with a Notice event, or, failing, is the last, with a Critical event. The commands said to complete (exec answers next), on
conditions on the state and the operands alone: vaultRequest, vaultRequestDone, vaultSelftestDue, vaultSelftestDone,
vaultRetestExpiry. -/
def Obligations.VaultEngine : Prop :=
  (
    (∀ (s : State) (r : VaultReq), (Instr.vaultRequest r).wf = true → s.sec.vault.out = false →
      (s.sec.vault.running = none → s.sec.vault.testing = false → s.sec.vault.urgent = [] → s.sec.vault.normal = [] →
        s.sec.vault.outside = [] → s.sec.vault.suspended = none →
        Completes (.vaultRequest r) s fun t => t.sec.vault.running = some r ∧ vaultQueued t.sec.vault = 0 ∧ t.out = [] ∧ Frame [.sec] s t)
      ∧ (∀ x, s.sec.vault.running = some x → vaultQueued s.sec.vault < 64 → r.urgent = false →
        Completes (.vaultRequest r) s fun t =>
          t.sec = { s.sec with vault := { s.sec.vault with normal := s.sec.vault.normal ++ [r] } } ∧ t.out = [] ∧ Frame [.sec] s t)
      ∧ (∀ x, s.sec.vault.running = some x → vaultQueued s.sec.vault < 64 → r.urgent = true → x.urgent = true ∨ x.op ≠ .cmac →
        Completes (.vaultRequest r) s fun t =>
          t.sec = { s.sec with vault := { s.sec.vault with urgent := s.sec.vault.urgent ++ [r] } } ∧ t.out = [] ∧ Frame [.sec] s t)
      ∧ (∀ x, s.sec.vault.running = some x → s.sec.vault.urgent = [] → s.sec.vault.outside = [] → vaultQueued s.sec.vault < 64 →
        s.sec.vault.suspended = none → r.urgent = true → x.urgent = false → x.op = .cmac →
        Completes (.vaultRequest r) s fun t =>
          t.sec.vault.running = some r ∧ t.sec.vault.suspended = some x ∧ t.sec.vault.normal = s.sec.vault.normal
          ∧ (∃ v, t.sec.vault.saved = some v) ∧ t.out = [] ∧ Frame [.sec, .freeCtr] s t)
      ∧ (∀ x, s.sec.vault.running = some x → 64 ≤ vaultQueued s.sec.vault → r.urgent = false →
        Completes (.vaultRequest r) s fun t =>
          t.sec = { s.sec with vault := { s.sec.vault with outside := s.sec.vault.outside ++ [r] } } ∧ t.out = [] ∧ Frame [.sec] s t)
      ∧ (∀ x l y, s.sec.vault.running = some x → 64 ≤ vaultQueued s.sec.vault → r.urgent = true → x.urgent = true ∨ x.op ≠ .cmac →
        s.sec.vault.normal = l ++ [y] →
        Completes (.vaultRequest r) s fun t =>
          t.sec = { s.sec with vault := { s.sec.vault with
            urgent := s.sec.vault.urgent ++ [r], normal := l, outside := y :: s.sec.vault.outside } } ∧ t.out = [] ∧ Frame [.sec] s t))
    ∧ (∀ (s : State) (r : VaultReq), s.sec.vault.running = some r → r.key = none → s.sec.vault.out = false → s.sec.vault.urgent = [] →
      s.sec.vault.testing = false → s.sec.vault.normal = [] → s.sec.vault.outside = [] →
      Completes .vaultRequestDone s fun t =>
        t.out = [.vaultDone r] ∧ t.sec.vault.running = s.sec.vault.suspended ∧ t.sec.vault.suspended = none
        ∧ (s.sec.vault.suspended = none → t.sec.vault.testing = s.sec.vault.testDue) ∧ Frame [.sec] s t)
    ∧ (∀ (s : State) (r x : VaultReq) (l : List VaultReq), s.sec.vault.running = some r → r.key = none → s.sec.vault.out = false →
      s.sec.vault.urgent = x :: l →
      Completes .vaultRequestDone s fun t => t.out = [.vaultDone r] ∧ t.sec.vault.running = some x ∧ Frame [.sec] s t)
    ∧ (∀ (s : State), s.sec.vault.running = none → s.sec.vault.out = false → s.sec.vault.urgent = [] → s.sec.vault.normal = [] →
      s.sec.vault.suspended = none → s.sec.vault.testing = false →
      Completes .vaultSelftestDue s fun t => t.sec.vault.testing = true ∧ t.out = [] ∧ Frame [.sec] s t))
  ∧ (
    (∀ (s : State), s.sec.vault.testing = true → s.sec.vault.out = false → s.sec.vault.urgent = [] → s.sec.vault.normal = [] →
      s.sec.vault.suspended = none → s.sec.vault.testDue = false →
      Completes (.vaultSelftestDone true) s fun t => t.sec.vault.testing = false ∧ t.sec.vault.out = false ∧ Frame [.sec] s t)
    ∧ (∀ (s : State), s.sec.vault.testing = true → s.sec.vault.out = false →
      Completes (.vaultSelftestDone false) s fun t =>
        t.sec.vault = { out := true, fails := 1 } ∧ (∀ w ∈ t.hqe.behind, keyRequest w.c = none) ∧ Frame [.sec, .evr, .hqe, .hep] s t)
    ∧ (∀ (s : State), s.sec.vault.out = true → s.sec.vault.fails = 1 →
      Completes .vaultRetestExpiry s fun t => t.sec = { s.sec with vault := { s.sec.vault with testing := true } } ∧ t.out = [] ∧ Frame [.sec] s t)
    ∧ (∀ (s : State) (pass : Bool), s.sec.vault.testing = true → s.sec.vault.out = true →
      Completes (.vaultSelftestDone pass) s fun t =>
        t.sec.vault.out = !pass ∧ (pass = true → t.sec.vault.fails = 0) ∧ (pass = false → t.sec.vault = { out := true, fails := 2 })
        ∧ Frame [.sec, .evr, .hqe, .hep] s t))

/-- R193, R194, R398: an alarm latches its cause, erases the SWK and, while the core supplies are up, the material of every slot:
the descriptors of the tenants' slots stay as LOST, device slots are EMPTY, and the DRBG is UNSEEDED unless DISABLED, with
its start tests to run again. A lost watch supply erases the SWK and makes the counters not valid. R196 to R198, R200: the
DRBG is SEEDED once the start tests have passed and it is instantiated; a health-test failure makes it FAILED, the third in a
row DISABLED; a restart tests again; a generate request is served, waits, or gets none by that state; after 2^20 requests it
waits for the reseed; the row-hammer generators take fresh seeds. The commands said to complete (exec answers next), on
conditions on the state and the operands alone: tamperPin, voltAlarm, clockAlarm, tempAlarm, vwatchLost, trngStartTestsDone,
healthTestFail, drbgInstantiated, trngRestartExpiry, drbgReseedTimer, drbgReseedDone, drbgGenerate, rowhammerReseed. -/
def Obligations.AlarmsAndRandom : Prop :=
  (
    (∀ (s : State) (i : Instr) (bit : Nat), s.glb.powered = true →
      ((∃ us, 10 ≤ us ∧ i = .tamperPin us ∧ bit = 0) ∨ (∃ us, 1 ≤ us ∧ s.pins.pwrFail = false ∧ s.pins.sysResetLow = false ∧ i = .voltAlarm us ∧ bit = 1)
        ∨ (∃ us, 10 ≤ us ∧ i = .clockAlarm us ∧ bit = 2) ∨ (∃ c, (c < -40 ∨ 130 < c) ∧ i = .tempAlarm c ∧ bit = 3)) →
      Completes i s fun t =>
        t.wch = { s.wch with swk := none, latched := true, causes := s.wch.causes ||| BitVec.ofNat 5 (2 ^ bit) }
        ∧ (∀ p ∈ t.sec.slots, p.1 < 0x1FF0 ∧ p.2.state = .lost ∧ p.2.material = [])
        ∧ (∀ p ∈ s.sec.slots, p.1 < 0x1FF0 → (p.1, { p.2 with state := .lost, material := [] }) ∈ t.sec.slots)
        ∧ t.sec.rng.st = (if s.sec.rng.st = .disabled then .disabled else .unseeded) ∧ t.sec.rng.tested = false
        ∧ t.sec.persisted = s.sec.persisted ∧ t.out = [] ∧ Frame [.sec, .wch, .evr, .drc] s t)
    ∧ (∀ (s : State) (i : Instr), (∃ us, us < 10 ∧ (i = .tamperPin us ∨ i = .clockAlarm us)) ∨ i = .voltAlarm 0
        ∨ (∃ c, -40 ≤ c ∧ c ≤ 130 ∧ i = .tempAlarm c) → exec i s = .next { s with out := [] })
    ∧ (∀ (s : State),
      Completes .vwatchLost s fun t =>
        t.wch = { s.wch with swk := none, valid := false, latched := true, causes := s.wch.causes ||| 16 } ∧ t.out = [] ∧ Frame [.wch] s t))
  ∧ (
    (∀ (s : State), trngStarting s.sec.rng = true → s.sec.rng.tested = false →
      Completes (.trngStartTestsDone true) s fun t =>
        t.sec = { s.sec with rng := { s.sec.rng with tested := true } } ∧ t.out = [] ∧ Frame [.sec] s t)
    ∧ (∀ (s : State) (i : Instr), (i = .trngStartTestsDone false ∧ trngStarting s.sec.rng = true ∧ s.sec.rng.tested = false)
        ∨ (i = .healthTestFail ∧ s.sec.rng.noise = true ∧ (s.sec.rng.st = .unseeded ∨ s.sec.rng.st = .seeded)) →
      (∀ w ∈ s.hqe.behind, w.c.op ≠ 0x10 ∧ w.c.op ≠ 0x14 ∧ w.c.op ≠ 0x21) →
      Completes i s fun t =>
        t.sec.rng.st = (if 3 ≤ s.sec.rng.retry + 1 then .disabled else .failed) ∧ t.sec.rng.retry = s.sec.rng.retry + 1
        ∧ t.sec.rng.fails = min 0xFF (s.sec.rng.fails + 1) ∧ t.sec.rng.waiting = [] ∧ t.sec.slots = s.sec.slots
        ∧ t.out = s.sec.rng.waiting.map (fun _ => Output.random none) ∧ Frame [.sec, .hqe, .evr] s t)
    ∧ (∀ (s : State), trngStarting s.sec.rng = true → s.sec.rng.tested = true →
      (∀ w ∈ s.hqe.behind, w.c.op ≠ 0x10 ∧ w.c.op ≠ 0x14 ∧ w.c.op ≠ 0x21) →
      s.sec.rng.waiting.length < reseedLimit →
      Completes .drbgInstantiated s fun t =>
        t.sec.rng.st = .seeded ∧ t.sec.rng.retry = 0 ∧ t.sec.rng.requests = s.sec.rng.waiting.length ∧ t.sec.rng.waiting = []
        ∧ (∀ n ∈ s.sec.rng.waiting, ∃ b : Bytes, b.length = n ∧ Output.random (some b) ∈ t.out) ∧ Frame [.sec, .hqe, .freeCtr] s t)
    ∧ (∀ (s : State), s.sec.rng.st = .failed →
      Completes .trngRestartExpiry s fun t =>
        t.sec = { s.sec with rng := { s.sec.rng with restart := true, tested := false } } ∧ t.out = [] ∧ Frame [.sec] s t)
    ∧ (∀ (s : State), s.sec.rng.st = .seeded →
      Completes .drbgReseedTimer s fun t => t.sec = { s.sec with rng := { s.sec.rng with reseeding := true } } ∧ t.out = [] ∧ Frame [.sec] s t)
    ∧ (∀ (s : State), s.sec.rng.st = .seeded → s.sec.rng.reseeding = true → s.sec.rng.waiting.length < 1000000 →
      (∀ w ∈ s.hqe.behind, w.c.op ≠ 0x10 ∧ w.c.op ≠ 0x14 ∧ w.c.op ≠ 0x21) →
      Completes .drbgReseedDone s fun t =>
        t.sec.rng.reseeding = false ∧ t.sec.rng.requests = s.sec.rng.waiting.length ∧ t.sec.rng.waiting = []
        ∧ t.out.length = s.sec.rng.waiting.length ∧ Frame [.sec, .freeCtr, .hqe] s t)
    ∧ (∀ (s : State) (n : Nat), n ≤ 65536 →
      Completes (.drbgGenerate n) s fun t =>
        (s.sec.rng.st = .seeded → s.sec.rng.requests < reseedLimit →
          t.out = [.random (some (freeLong n s))] ∧ t.sec.rng.requests = s.sec.rng.requests + 1 ∧ Frame [.sec, .freeCtr] s t)
        ∧ (s.sec.rng.st = .unseeded ∨ s.sec.rng.st = .seeded ∧ reseedLimit ≤ s.sec.rng.requests →
          t.out = [] ∧ t.sec.rng.waiting = s.sec.rng.waiting ++ [n] ∧ Frame [.sec] s t)
        ∧ (s.sec.rng.st = .failed ∨ s.sec.rng.st = .disabled → t.out = [.random none] ∧ t.sec = s.sec ∧ Frame [.sec] s t))
    ∧ (∀ (s : State), s.sec.rng.st = .seeded → tabWf 0 s.drc.draws = true →
      Completes .rowhammerReseed s fun t =>
        (∀ c, c < 12 → tabGet 0 c t.drc.draws = Config.freeNat (s.freeCtr + c)) ∧ t.sec.rng.st = .seeded ∧ t.out = []
        ∧ Frame [.drc, .sec, .freeCtr] s t))

/-! ### The write path -/

/-- R119, R123: the idle and age limits mark the STAGED entries of their block; the run that is chosen goes to FLUSHING whole,
under one run with its blocks' generations and data; a survivor's mirror area is flushed so too. R124: every chunk that the
chunker cuts from a run of whole blocks is 4,096 to 65,536 bytes long, and it leaves none or at least a block of the run; the
chunk carries those bytes. A run is cut by the chunker that holds it, or one that holds none (R125). The commands said to
complete (exec answers next), on conditions on the state and the operands alone: flushIdleExpiry, flushAgeExpiry,
flushRunChosen, chunkCut. -/
def Obligations.RunsAndChunks : Prop :=
  (
    (∀ (s : State) (n : BitVec 14) (lba : Nat),
      Completes (.flushIdleExpiry n lba) s fun t =>
        t.ing = { s.ing with staging := s.ing.staging.map fun e =>
          if e.nsid = n.toNat ∧ e.lba = lba ∧ e.st = .staged then { e with idle := true } else e }
        ∧ t.out = [] ∧ Frame [.ing] s t)
    ∧ (∀ (s : State) (n : BitVec 14) (lba : Nat),
      Completes (.flushAgeExpiry n lba) s fun t =>
        t.ing = { s.ing with staging := s.ing.staging.map fun e =>
          if e.nsid = n.toNat ∧ e.lba = lba ∧ e.st = .staged then { e with aged := true } else e }
        ∧ t.out = [] ∧ Frame [.ing] s t)
    ∧ (∀ (s : State) (e : StEntry) (l : List StEntry), flushStopped s = false → s.peer.role ≠ .sole → chosenRun s = some (e :: l) →
      Completes .flushRunChosen s fun t =>
        (∃ r, t.ing.runs = s.ing.runs ++ [r] ∧ r.id = s.ing.nextId ∧ r.nsid = e.nsid ∧ r.lba = e.lba ∧ r.n = l.length + 1 ∧ r.pos = 0
          ∧ r.dealloc = e.dealloc ∧ r.gens = (e :: l).map (·.gen))
        ∧ (∀ x ∈ t.ing.staging, x.slot ∈ (e :: l).map (·.slot) → x.st = .flushing ∧ x.run = some s.ing.nextId)
        ∧ t.ing.staging.length = s.ing.staging.length ∧ t.out = [] ∧ Frame [.ing] s t)
    ∧ (∀ (s u : State) (m : MirEntry) (l : List MirEntry), flushStopped s = false → s.peer.role = .sole → u = dropStaleMirror s →
      mirrorRun u = m :: l → forcedRun u = none →
      Completes .flushRunChosen s fun t =>
        (∃ r, t.ing.runs = s.ing.runs ++ [r] ∧ r.id = s.ing.nextId ∧ r.nsid = m.nsid ∧ r.lba = m.lba ∧ r.n = l.length + 1
          ∧ r.fromMirror = true ∧ r.gens = (m :: l).map (·.gen))
        ∧ t.ing.staging = s.ing.staging ∧ t.ing.mirror = u.ing.mirror ∧ t.out = [] ∧ Frame [.ing] s t)
    ∧ (∀ (s : State), flushStopped s = true → exec .flushRunChosen s = .next { s with out := [] }))
  ∧ (
    ∀ (s : State) (id : Nat) (r : Run), runOf s id = some r → r.dealloc = false → asleep s = false → allOut s .chunker = false →
      r.chunker.isSome = true ∨ (freeChunker s).isSome = true →
      4096 ≤ r.data.length - r.pos →
      Completes (.chunkCut id) s fun t =>
        ∃ n c, 4096 ≤ n ∧ n ≤ 65536 ∧ (n = r.data.length - r.pos ∨ n + 4096 ≤ r.data.length - r.pos)
          ∧ (∃ k, runOf t id = some { r with pos := r.pos + n, chunker := k }) ∧ t.ing.chunks = s.ing.chunks ++ [c]
          ∧ c.run = id ∧ c.nsid = r.nsid ∧ c.off = r.pos ∧ c.data = (r.data.drop r.pos).take n ∧ c.stage = .cut
          ∧ t.ing.chunksIn = (s.ing.chunksIn + 1) % 2 ^ 64 ∧ t.out = [] ∧ Frame [.ing, .bal] s t)

/-- R126, R131, R133, R139: a chunk's fingerprint is the HMAC under its domain's K_fp; a match in the container cache raises the
count of its chunk at once; a hook that misses goes to the hook table, and any other chunk is unique, with a chunk table
entry of its own; a pulled container is cached and its searches repeat; an idle namespace's containers close. R134: a
comparison that finds the same bytes lets the match stand; one that finds others, or a stored chunk that fails its checks,
gives the match back, and the chunk is stored as unique. The commands said to complete (exec answers next), on conditions on
the state and the operands alone: fingerprintDone, lookupSearchDone, containerPullDone, containerIdleExpiry,
verifyCompareDone. -/
def Obligations.ChunksResolve : Prop :=
  (
    (∀ (s : State) (id : Nat) (c : Chunk), chunkById s id = some c → c.stage = .cut → anyTakes s .fingerprint = true →
      (slotOf s (nsDomain s c.nsid)).state = .active →
      Completes (.fingerprintDone id) s fun t =>
        (∃ d, chunkById t id = some d ∧ d.fp = hmacSha256 (keyAt (slotOf s (nsDomain s c.nsid)).material 0) c.data ∧ d.data = c.data
          ∧ (bitOf (modeOf s c.nsid) 3 = true → d.stage = .unique ∧ d.no = newChunkNo s)
          ∧ (bitOf (modeOf s c.nsid) 3 = false → isHook d.fp = true → d.stage = .searching))
        ∧ t.out = [] ∧ Frame [.ing, .med] s t)
    ∧ (∀ (s : State) (id k no : Nat) (c : Chunk) (e : ChunkEnt), chunkById s id = some c → c.stage = .searching ∨ c.stage = .again →
      cacheMatch s c = some (k, no) → chunkOf s no = some e → bitOf (modeOf s c.nsid) 4 = false →
      foreignChunk s no = false →
      Completes (.lookupSearchDone id) s fun t =>
        chunkById t id = some { c with stage := .live, no := no, matched := true }
        ∧ chunkOf t no = some { e with refs := e.refs + namingBlocks c } ∧ t.out = [] ∧ Frame [.ing, .med] s t)
    ∧ (∀ (s : State) (id : Nat) (c : Chunk), chunkById s id = some c → c.id = id → c.stage = .searching → cacheMatch s c = none →
      Completes (.lookupSearchDone id) s fun t =>
        (isHook c.fp = true → chunkById t id = some { c with stage := .hookSearch })
        ∧ (isHook c.fp = false → chunkById t id = some { c with stage := .unique, no := newChunkNo s }
          ∧ t.med.chunks = s.med.chunks ++ [newEnt c s] ∧ t.ing.unique = (s.ing.unique + 1) % 2 ^ 64)
        ∧ t.out = [] ∧ Frame [.ing, .med, .evr] s t)
    ∧ (∀ (s : State) (id k : Nat) (c : Chunk), chunkById s id = some c → c.id = id → c.stage = .hookSearch → hookMatch s c = some k →
      (s.ing.containers.any fun x => x.no == k && x.cached) = false →
      Completes (.lookupSearchDone id) s fun t =>
        (chunkById t id).map (·.stage) = some (.pulling k) ∧ t.med = s.med ∧ t.out = [] ∧ Frame [.ing] s t)
    ∧ (∀ (s : State) (k d : Nat) (l : List (Bytes × Nat × Nat)), (Instr.containerPullDone k l d).wf = true →
      (s.ing.chunks.any fun c => c.stage == .pulling k) = true → cachedCount s < s.ing.ccSlots →
      Completes (.containerPullDone k l d) s fun t =>
        (t.ing.containers.find? fun x => x.no == k).map (·.cached) = some true
        ∧ (∀ c ∈ t.ing.chunks, c.stage ≠ .pulling k) ∧ t.ing.pulls = (s.ing.pulls + 1) % 2 ^ 64 ∧ t.out = [] ∧ Frame [.ing] s t)
    ∧ (∀ (s : State) (n : BitVec 14),
      Completes (.containerIdleExpiry n) s fun t =>
        (∀ k ∈ s.ing.containers, k.isOpen = true → k.nsid = n.toNat →
          (t.ing.containers.find? fun x => x.no == k.no).map (·.isOpen) = some false)
        ∧ t.ing.containers.length = s.ing.containers.length ∧ t.out = [] ∧ Frame [.ing] s t))
  ∧ (
    ∀ (s : State) (id : Nat) (got : Option Bytes) (c : Chunk), chunkById s id = some c → c.id = id → c.stage = .verifying →
      (s.bal.decoders.find? fun d => d.chunk == id) = none →
      (got = some c.data →
        Completes (.verifyCompareDone id got) s fun t =>
          chunkById t id = some { c with stage := .live } ∧ t.med = s.med ∧ t.out = [] ∧ Frame [.ing, .bal] s t)
      ∧ (got ≠ some c.data → foreignChunk s c.no = false →
        Completes (.verifyCompareDone id got) s fun t =>
          chunkById t id = some { c with stage := .unique, no := newChunkNo s, matched := false }
          ∧ t.ing.verifyMiss = (s.ing.verifyMiss + 1) % 2 ^ 64 ∧ t.ing.unique = (s.ing.unique + 1) % 2 ^ 64
          ∧ t.med.chunks.length = s.med.chunks.length + 1 ∧ t.out = [] ∧ Frame [.ing, .bal, .med, .evr] s t))

/-- R158, R180 to R183, R289: a unique chunk is encoded as one Bale under its namespace's effort and counted; without encryption
and seal it is ready for packing at once under the next serial; otherwise its padded Bale is encrypted and sealed first. R155
to R157, R161, R162, R186: a seal that holds hands the decrypted Bale to the decompressor; a failure is rebuilt once, and
after that ends the read; a decoded Bale's pieces go to the host and the read completes with its last job; a fragment adds
its space or its bytes; a suspended decode that times out is abandoned. R153, R155 to R157: a chunk of up to 65,536 bytes
stored RAW decodes to itself, with its CRC checked. R142, R164, R188: an engine's test runs, one of its class at a time, and
after the job that it holds; a failure takes it out of service, one retest follows, and a pass brings it back. The commands
said to complete (exec answers next), on conditions on the state and the operands alone: baleEncodeDone, xtsSealDone,
sealCheckDone, baleDecodeDone, decodeOutputFragment, decodeInputFragment, decodeSuspendTimeout, engineSelftestDue,
engineSelftestDone, engineRetestExpiry. -/
def Obligations.BalesAreKept : Prop :=
  (
    (∀ (s : State) (id : Nat) (c : Chunk), chunkById s id = some c → c.stage = .unique → asleep s = false →
      anyTakes s .compressor = true ∨ allOut s .compressor = true →
      (bitOf (modeOf s c.nsid) 5 || bitOf (modeOf s c.nsid) 6) = true →
      Completes (.baleEncodeDone id) s fun t =>
        chunkById t id = some { c with
          bale := encodeBale (effortOf s c.nsid) c.data, stage := .encoded, enc := bitOf (modeOf s c.nsid) 5,
          sealed_ := bitOf (modeOf s c.nsid) 6 }
        ∧ t.bal = countBale (encodeBale (effortOf s c.nsid) c.data) c.data.length s.bal ∧ t.out = [] ∧ Frame [.ing, .bal] s t)
    ∧ (∀ (s : State) (id : Nat) (c : Chunk), chunkById s id = some c → c.stage = .unique → asleep s = false →
      anyTakes s .compressor = true ∨ allOut s .compressor = true →
      bitOf (modeOf s c.nsid) 5 = false → bitOf (modeOf s c.nsid) 6 = false → s.sec.serialNext < s.sec.serialTop →
      Completes (.baleEncodeDone id) s fun t =>
        (∃ d, chunkById t id = some d ∧ d.stage = .stored ∧ d.bale = encodeBale (effortOf s c.nsid) c.data
          ∧ d.stored = padTo (512 * granulesOf d.bale.length) d.bale ∧ d.serial = serialBytes s s.sec.serialNext)
        ∧ t.sec = { s.sec with serialNext := s.sec.serialNext + 1 } ∧ t.out = [] ∧ Frame [.ing, .bal, .sec] s t)
    ∧ (∀ (s : State) (id : Nat) (c : Chunk), chunkById s id = some c → c.stage = .encoded → asleep s = false →
      (c.enc = true ∨ c.sealed_ = true → anyTakes s .xts = true) →
      (slotOf s (nsDomain s c.nsid)).state = .active → (c.enc = true → (slotOf s (nsKeyInfo s c.nsid)).state = .active) →
      s.sec.serialNext < s.sec.serialTop →
      Completes (.xtsSealDone id) s fun t =>
        (∃ d, chunkById t id = some d ∧ d.stage = .stored ∧ d.serial = serialBytes s s.sec.serialNext
          ∧ (c.enc = true → d.stored = xtsGranules true (dataKeys (slotOf s (nsKeyInfo s c.nsid))) d.serial
              (padTo (512 * granulesOf c.bale.length) c.bale))
          ∧ (c.enc = false → d.stored = padTo (512 * granulesOf c.bale.length) c.bale))
        ∧ t.sec = { s.sec with serialNext := s.sec.serialNext + 1 } ∧ t.out = [] ∧ Frame [.ing, .sec] s t))
  ∧ (
    (∀ (s : State) (id : Nat) (stored w : Bytes) (j : ReadJob) (e : ChunkEnt), (Instr.sealCheckDone id stored w).wf = true → jobOf s id = some j →
      chunkOf s j.chunk = some e → j.wanted = none → j.sealOk = false → j.found = [] → j.waybill = [] → keysLoaded s e = true →
      allOut s .xts = false →
      (∀ b, openBale e stored w s = some b →
        Completes (.sealCheckDone id stored w) s fun t =>
          jobOf t id = some { j with bale := b, sealOk := true, waybill := w } ∧ t.out = [] ∧ Frame [.bal] s t)
      ∧ (openBale e stored w s = none → j.rebuilt = false →
        Completes (.sealCheckDone id stored w) s fun t => jobOf t id = some { j with wanted := some 0x3002, bale := [] } ∧ t.out = [] ∧ Frame [.bal] s t)
      ∧ (∀ d q p, openBale e stored w s = none → j.rebuilt = true → (s.bal.readJobs.filter fun x => x.cmd == j.cmd) = [j] →
        Outstanding s j.cmd d q → d.good = d.nblk → j.parts.map (·.1) = [p] → p < d.nblk → p < 256 →
        Completes (.sealCheckDone id stored w) s fun t =>
          Ended d q 0x3002 (decide (0 < p)) p 0 t ∧ t.sec = { s.sec with failed := min 0xFFFF (s.sec.failed + 1) }
          ∧ Frame [.bal, .sec, .med, .hqe, .hep, .evr] s t))
    ∧ (∀ (s : State) (id : Nat) (j : ReadJob) (e : ChunkEnt) (d : Cmd) (q : Qp) (orig : Bytes), jobOf s id = some j →
      chunkOf s j.chunk = some e → j.sealOk = true → allOut s .decompressor = false →
      decodeBale j.bale (some (numAt j.waybill 0x2C 4)) = (0, orig) → (s.bal.readJobs.filter fun x => x.cmd == j.cmd) = [j] →
      Outstanding s j.cmd d q → d.status = 0 → d.poisoned = [] →
      Completes (.baleDecodeDone id) s fun t =>
        (∀ p ∈ j.parts, ∀ x ∈ scatter d.bufs (4096 * p.1 + p.2.1) (bytesAt orig p.2.2.1 p.2.2.2),
          Output.hostWrite d.q.f.port (BitVec.ofNat 64 x.1) x.2 ∈ t.out)
        ∧ Ended d q 0 false 0 0 t ∧ jobOf t id = none ∧ t.bal.decBales = (s.bal.decBales + 1) % 2 ^ 64
        ∧ Frame [.bal, .med, .hqe, .hep] s t)
    ∧ (∀ (s : State) (n : Fin 32) (d : Decoder), (s.bal.decoders.find? fun x => x.engine == n.val) = some d → d.d.result = none →
      (∀ len, Completes (.decodeOutputFragment n len) s fun t =>
        (∃ x, (t.bal.decoders.find? fun y => y.engine == n.val) = some x ∧ x.space = d.space + len ∧ x.input = d.input ∧ x.chunk = d.chunk)
        ∧ t.out = [] ∧ Frame [.bal] s t)
      ∧ (∀ b, Completes (.decodeInputFragment n b) s fun t =>
        (∃ x, (t.bal.decoders.find? fun y => y.engine == n.val) = some x ∧ x.input = (d.input ++ b).take d.lb ∧ x.space = d.space
          ∧ x.chunk = d.chunk)
        ∧ t.out = [] ∧ Frame [.bal] s t)
      ∧ ((∀ c ∈ s.ing.chunks, c.stage ≠ .verifying) →
        Completes (.decodeSuspendTimeout n) s fun t =>
          (∀ x ∈ t.bal.decoders, x.engine ≠ n.val) ∧ t.bal.decRestart = (s.bal.decRestart + 1) % 2 ^ 64 ∧ t.out = [] ∧ Frame [.bal] s t)))
  ∧ (
    ∀ d : Bytes, 1 ≤ d.length → d.length ≤ 65536 → decodeBale (encodeBale 0 d) (some (crc32c d)) = (0, d))
  ∧ (
    ∀ (s : State) (k : EngClass) (n : Fin 32), (Instr.engineSelftestDue k n).wf = true →
      ((engineOf s k n.val).out = false → asleep s = false → engineTesting s k = false →
        holdsJob s k n.val = false → n.val < engineCount k →
        Completes (.engineSelftestDue k n) s fun t =>
          engineOf t k n.val = { engineOf s k n.val with testing := true } ∧ t.out = [] ∧ Frame [.bal] s t)
      ∧ ((engineOf s k n.val).out = false → asleep s = false → engineTesting s k = false → holdsJob s k n.val = true →
        n.val < engineCount k →
        Completes (.engineSelftestDue k n) s fun t =>
          engineOf t k n.val = { engineOf s k n.val with due := true } ∧ t.out = [] ∧ Frame [.bal] s t)
      ∧ ((engineOf s k n.val).testing = true → (engineOf s k n.val).due = false →
        Completes (.engineSelftestDone k n true) s fun t =>
          engineOf t k n.val = { engineOf s k n.val with testing := false, out := false, failed := 0 } ∧ t.out = [] ∧ Frame [.bal, .evr] s t)
      ∧ ((engineOf s k n.val).testing = true → (engineOf s k n.val).due = false →
        Completes (.engineSelftestDone k n false) s fun t =>
          engineOf t k n.val = { engineOf s k n.val with
            testing := false, out := true, failed := if (engineOf s k n.val).out then 2 else 1 }
          ∧ t.out = [] ∧ Frame [.bal, .evr] s t)
      ∧ ((engineOf s k n.val).out = true → (engineOf s k n.val).failed = 1 → (engineOf s k n.val).testing = false →
        Completes (.engineRetestExpiry k n) s fun t =>
          engineOf t k n.val = { engineOf s k n.val with testing := true } ∧ t.out = [] ∧ Frame [.bal] s t))

/-! ### Maps, stripes and segments -/

/-- R118, R139, R202, R206, R459: once every chunk of a run is placed, its map entries are published and journalled as one step,
its staging entries are released and the run ends; it waits while the maps are frozen or the journal has no room; a run of a
namespace that is being deleted publishes nothing. (Said of a journal that stays under the three quarters at which a
checkpoint starts.) R207, R208, R140, R212, R289: a Bale takes the next granules of its stream's stripe; a stripe that waits
too long closes and is programmed; with its programs done its chunks are LIVE and its segment has one more stripe; a failed
program sends the segment to reclamation with its blocks retired. The commands said to complete (exec answers next), on
conditions on the state and the operands alone: mapUpdatePublish, baleAppend, stripeIdleExpiry, stripeProgrammed. -/
def Obligations.MapsAndStripes : Prop :=
  (
    ∀ (s : State) (id : Nat) (r : Run), runOf s id = some r →
      (s.med.frozenMaps = false → asleep s = false → runPlaced s r = true → 4 * (s.med.journal.length + r.n) < 3 * journalCap →
        Completes (.mapUpdatePublish id) s fun t =>
          (r.drop = false → (∀ e ∈ s.ing.staging, e.run = some r.id → e.void = none)
            → (∀ i, i < r.n → ∀ o, mapEntryOf s r.nsid (r.lba + i) = some o → genHigher o.gen (entryOf r (chunksOfRun s id) i).gen = false)
            → (∀ i, i < r.n → mapEntryOf t r.nsid (r.lba + i) = some (entryOf r (chunksOfRun s id) i))
            ∧ t.med.journal = s.med.journal ++ (List.range r.n).map (entryOf r (chunksOfRun s id)) ∧ t.til.published = true)
          ∧ (r.drop = true → t.med.maps = s.med.maps ∧ t.med.journal = s.med.journal ∧ t.til = s.til)
          ∧ (∀ e ∈ t.ing.staging, e.run ≠ some r.id) ∧ runOf t id = none ∧ (∀ c ∈ t.ing.chunks, c.run ≠ id)
          ∧ Frame [.med, .ing, .til, .hqe, .bal] s t)
      ∧ (s.med.frozenMaps = true ∨ runPlaced s r = false ∨ journalCap < s.med.journal.length + r.n →
        exec (.mapUpdatePublish id) s = .next { s with out := [] }))
  ∧ (
    (∀ (s : State) (id : Nat) (c : Chunk) (g : Seg) (k : Stripe) (e : ChunkEnt), chunkById s id = some c → c.stage = .stored → asleep s = false →
      openSegOf s (hostStream s c.nsid) = some g → openStripe s (hostStream s c.nsid) = some k →
      fits g.d k (granulesOf c.bale.length) = true → chunkOf s c.no = some e → hostWaits s = false →
      Completes (.baleAppend id) s fun t =>
        (chunkById t id).map (·.stage) = some .placing
        ∧ chunkOf t c.no = some { e with
            seg := k.seg, stripe := k.stripe, strip := k.next / 128, gran := k.next % 128, granules := granulesOf c.bale.length,
            stored := c.stored, waybill := c.waybill }
        ∧ t.out = [] ∧ Frame [.med, .ing] s t)
    ∧ (∀ (s : State) (id : Nat) (c : Chunk), chunkById s id = some c → openSegOf s (hostStream s c.nsid) = none →
      exec (.baleAppend id) s = .next { s with out := [] })
    ∧ (∀ (s : State) (x : StreamId) (k : Stripe), openStripe s x = some k →
      Completes (.stripeIdleExpiry x) s fun t =>
        (t.med.stripes.find? fun y => y.seg == k.seg && y.stripe == k.stripe).map (·.closed) = some true
        ∧ t.med.stripes.length = s.med.stripes.length ∧ t.med.writeSeq = s.med.writeSeq + 1 ∧ Frame [.med, .far] s t)
    ∧ (∀ (s : State) (seg stripe : Nat) (k : Stripe), (s.med.stripes.find? fun y => y.seg == seg && y.stripe == stripe && y.closed) = some k →
      NoBatches s → Settled s → s.til.objOut = none →
      Completes (.stripeProgrammed seg stripe []) s fun t =>
        (∀ e ∈ s.med.chunks, e.no ∈ k.bales → e.st = .placing → e.seg = seg → 0 < e.refs → { e with st := .live } ∈ t.med.chunks)
        ∧ (∀ y ∈ t.med.stripes, ¬(y.seg = seg ∧ y.stripe = stripe))
        ∧ (segOf t seg).map (·.stripes) = (segOf s seg).map (fun g => g.stripes + 1) ∧ Frame [.med, .ing, .far] s t)
    ∧ (∀ (s : State) (seg stripe : Nat) (k : Stripe) (l : List Nat) (g : Seg), l ≠ [] → segOf s seg = some g →
      (s.med.stripes.find? fun y => y.seg == seg && y.stripe == stripe && y.closed) = some k → NoBatches s → Settled s → s.til.objOut = none →
      Completes (.stripeProgrammed seg stripe l) s fun t =>
        (∃ h, segOf t seg = some h ∧ (h.st = .reclaiming ∨ h.st = .draining) ∧ h.retired = g.retired + l.length)
        ∧ t.med.blocksRet = (s.med.blocksRet + l.length) % 2 ^ 64 ∧ Frame [.med, .ing, .bal, .evr, .far, .til, .par, .sec, .freeCtr] s t))

/-- R209 to R211, R215, R218, R264: the SLC share of a module lies between 0.5 % and 4 %; a stream without an open segment takes
the least-worn FREE or DIRTY one of its kind, erased first if DIRTY, or forms a new one, and host data has none at the
stopped level. R212 to R219: a block whose verify stays within three quarters of the correction limit is verified, and the
last one closes the segment; otherwise the segment is reclaimed with a block retired; the victim of a kind goes to
reclamation; a Bale that moves takes its new place; a drained segment that no read holds is DIRTY, or RETIRED with two blocks
gone; a scan that finds it near its limit refreshes it. The commands said to complete (exec answers next), on conditions on
the state and the operands alone: slcFractionEval, segmentAllocate, blockVerifyDone, reclaimVictimChosen, relocationDone,
segmentDrained, segmentScanDue. -/
def Obligations.SegmentsLive : Prop :=
  (
    (∀ (s : State) (n : Fin 96) (v c : Nat), 0 < c → v ≤ c →
      Completes (.slcFractionEval n v c) s fun t =>
        50 ≤ tabGet 0 n.val t.med.slcPpm ∧ tabGet 0 n.val t.med.slcPpm ≤ 400 ∧ tabGet 0 n.val t.med.slcPpm = slcShare v c
        ∧ t.out = [] ∧ Frame [.med] s t)
    ∧ (∀ (s : State) (x : StreamId), openSegOf s x = none → asleep s = false → 2 ≤ dNow s (slotOfStream s x) →
      dNow s (slotOfStream s x) = (slotOfStream s x).d → (slotOfStream s x).narrow = false → (slotOfStream s x).stopped = false → Settled s → ∀ slc,
      slc = (takesSlc s x && ((leastWorn s x true).isSome || decide (unformed s ≠ 0))) →
      (slc = true ∨ openDense s + dNow s (slotOfStream s x) + parityStrips (slotOfStream s x) ≤ 2048) →
      (s.med.level < 3 ∨ x.kind = 5 ∨ x.reclaim = true →
        (∀ g, leastWorn s x slc = some g →
          Completes (.segmentAllocate x) s fun t =>
            (∃ y, segOf t g.no = some y ∧ y.st = .open_ ∧ y.stream = x ∧ y.slc = slc ∧ y.stripes = 0 ∧ y.verified = [] ∧ y.missing = []
              ∧ (segOf s g.no).map (fun z => if g.st = .dirty ∨ g.slc ≠ slc then z.erases + 1 else z.erases) = some y.erases)
            ∧ Frame [.med, .far, .evr] s t)
        ∧ (leastWorn s x slc = none → unformed s ≠ 0 →
          (∀ n ∈ pickLanes s (slotOfStream s x) (dNow s (slotOfStream s x) + parityStrips (slotOfStream s x)), (spareBlock s n).isSome = true) →
          Completes (.segmentAllocate x) s fun t =>
            (∃ g, t.med.segs = s.med.segs ++ [g] ∧ g.st = .open_ ∧ g.stream = x ∧ g.slc = slc ∧ g.stripes = 0 ∧ g.d = (slotOfStream s x).d
              ∧ g.q = (slotOfStream s x).q ∧ g.layout = (slotOfStream s x).id
              ∧ g.members.map (·.lane) = pickLanes s (slotOfStream s x) (g.d + parityStrips (slotOfStream s x)))
            ∧ t.med.segNext = s.med.segNext + 1 ∧ t.out = [] ∧ Frame [.med, .freeCtr, .evr] s t))
      ∧ (3 ≤ s.med.level → x.kind ≠ 5 → x.reclaim = false →
        Completes (.segmentAllocate x) s fun t => t.med = s.med ∧ t.out = [] ∧ Frame [.par] s t)))
  ∧ (
    (∀ (s : State) (no p n : Nat) (g : Seg), segOf s no = some g → g.st = .closing → p ∉ g.verified →
      (4 * n ≤ 3 * limitOf s g p →
        Completes (.blockVerifyDone no p n []) s fun t =>
          (∃ h, segOf t no = some h ∧ h.verified = g.verified ++ [p]
            ∧ h.st = (if g.verified.length + 1 = g.members.length then .closed else .closing))
          ∧ t.out = [] ∧ Frame [.med] s t)
      ∧ (∀ l, l ≠ [] ∨ 3 * limitOf s g p < 4 * n →
        Completes (.blockVerifyDone no p n l) s fun t =>
          (∃ h, segOf t no = some h ∧ h.retired = g.retired + 1 ∧ h.st = (if segEmpty s no then .draining else .reclaiming))
          ∧ t.med.blocksRet = (s.med.blocksRet + 1) % 2 ^ 64 ∧ Frame [.med, .evr, .far, .til, .par, .sec, .freeCtr] s t))
    ∧ (∀ (s : State) (k : VictimKind) (g : Seg), asleep s = false → foreignNamed s = [] → sharedSeg s = none →
      victimOf s k = some g →
      Completes (.reclaimVictimChosen k) s fun t =>
        (segOf t g.no).map (·.st) = some (if segEmpty s g.no then .draining else .reclaiming)
        ∧ (∀ n, k = .refresh n → t.med.refreshed = (s.med.refreshed + 1) % 2 ^ 64) ∧ Frame [.med, .far] s t)
    ∧ (∀ (s : State) (no : Nat) (e : ChunkEnt) (g h : Seg) (k : Stripe), chunkOf s no = some e → e.st = .live → relocates s e = true →
      copyOf s no = none → asleep s = false → segOf s e.seg = some g → openSegOf s (relocStream g) = some h → openStripe s (relocStream g) = some k →
      fits h.d k e.granules = true →
      Completes (.relocationDone no) s fun t =>
        t.med.copies = s.med.copies ++ [⟨no, placeOf e, k.seg, k.stripe, k.next, false⟩] ∧ t.med.chunks = s.med.chunks
        ∧ t.out = [] ∧ Frame [.med] s t)
    ∧ (∀ (s : State) (no : Nat) (e : ChunkEnt) (c : Copy), chunkOf s no = some e → copyOf s no = some c →
      (e.st = .live → c.done = true → asleep s = false → placeOf e = c.source → (∀ g, segOf s e.seg = some g → g.oldVer = false) →
        foreignChunk s no = false →
        Completes (.relocationDone no) s fun t =>
          chunkOf t no = some { e with seg := c.seg, stripe := c.stripe, strip := c.gran / 128, gran := c.gran % 128 } ∧ copyOf t no = none
          ∧ t.med.relocated = (s.med.relocated + e.granules) % 2 ^ 64 ∧ t.out = [] ∧ Frame [.med, .par] s t)
      ∧ (e.st = .live → c.done = false → exec (.relocationDone no) s = .next { s with out := [] })
      ∧ (e.st ≠ .live → Completes (.relocationDone no) s fun t =>
          copyOf t no = none ∧ t.med.chunks = s.med.chunks ∧ t.out = [] ∧ Frame [.med] s t))
    ∧ (∀ (s : State) (no : Nat) (g : Seg), segOf s no = some g → g.st = .draining → beingRead s g = false →
      Completes (.segmentDrained no) s fun t =>
        (∃ h, segOf t no = some h ∧ h.missing = [] ∧ h.badAt = [] ∧ (2 ≤ g.retired → h.st = .retired)
          ∧ (g.retired < 2 → g.badAt = [] → h.st = .dirty ∧ h.members = g.members))
        ∧ t.out = [] ∧ Frame [.med, .evr, .freeCtr] s t)
    ∧ (∀ (s : State) (no : Nat) (corr : List Nat) (bad : Bool) (g : Seg), segOf s no = some g → g.st = .closed → asleep s = false →
      ((s.med.scanList.filter fun n => (segOf s n).any fun x => x.st == .closed) = [] ∨
        (s.med.scanList.filter fun n => (segOf s n).any fun x => x.st == .closed).head? = some no) →
      Completes (.segmentScanDue no corr bad) s fun t =>
        no ∈ t.med.scanned
        ∧ ((bad = true ∨ halfLimit s g corr = true ∨ 63072000 ≤ nowS s - g.writtenAt) →
          (segOf t no).map (·.st) = some (if segEmpty s no then .draining else .reclaiming)
          ∧ t.med.refreshed = (s.med.refreshed + 1) % 2 ^ 64)
        ∧ (bad = false → halfLimit s g corr = false → nowS s - g.writtenAt < 63072000 →
          segOf t no = some { g with scanned := nowS s } ∧ t.out = [])
        ∧ Frame [.med, .far] s t))

/-! ### Power loss -/

/-- R223 to R225: at start-up the staging that is offered is lowered until the hold-up carries its flush, or the hold-up counts
as absent; afterwards a limit S_lim comes and goes with the budget, never below the guarantees and 65,536 blocks. R44, R60,
R226, R232: PWR_FAIL_L low for 2 µs or longer begins the flush in every state that admits commands, once; in START-UP the
chip holds, in ROM-SERVICE it only stops NOR work; its rise during a flush asks for a reset after it. R68, R226 to R229,
R232: the quiesce settles every command without a completion and freezes the maps; classes 1 to 4 are written in order; with
the last one the record stands with its final mark, and the chip holds, or resets when the power had come back. R230, R231:
the replay in RECOVERY takes the newest saved settlement log, applies the saved journal over the last checkpoint, stages each
saved block whose CRC checks and that nothing newer has replaced, and consumes the records once all their blocks are placed.
A block whose CRC fails, as that of a block saved after an uncorrectable read does (R393), is not staged; it is lost, which a
Critical event names, unless it was mirrored and the peer is there. The commands said to complete (exec answers next), on
conditions on the state and the operands alone: holdupBudgetEval, pwrFailAssert, pwrFailDeassert, quiesceDone,
flushClassDone, flushComplete, flushReplay. -/
def Obligations.PowerLossFlush : Prop :=
  (
    ∀ (s : State),
      (s.pins.holdup.isSome = true → s.glb.service = .startUp →
        Completes .holdupBudgetEval s fun t =>
          (t.pins.holdup = none ∨ budgetMet t t.ing.blocks = true) ∧ (budgetMet s s.ing.blocks = true → t.ing = s.ing ∧ t.pins = s.pins)
          ∧ t.out = [] ∧ Frame [.plf, .ing, .pins, .evr] s t)
      ∧ (s.pins.holdup.isSome = true → s.glb.service ≠ .startUp →
        Completes .holdupBudgetEval s fun t =>
          (budgetMet s s.ing.blocks = true → budgetMet s (stagingLimit s) = true → t.ing.sLim = none)
          ∧ (budgetMet s (stagingLimit s) = false → t.ing.sLim = some (max (bestLimit s (s.ing.blocks / 65536)) (sumG s + 65536)))
          ∧ t.ing.blocks = s.ing.blocks ∧ t.pins = s.pins ∧ Frame [.plf, .ing, .evr] s t)
      ∧ (s.pins.holdup = none →
        Completes .holdupBudgetEval s fun t =>
          t.plf = { s.plf with tAvailNs := 0, tNeedNs := min 6553500000 (tNeedFor s (stagingLimit s)) } ∧ t.out = [] ∧ Frame [.plf] s t))
  ∧ (
    (∀ (s : State) (n : Nat), 2000 ≤ n → s.pins.pwrFail = false → s.glb.resetHeld = false → s.glb.powered = true →
      Completes (.pwrFailAssert n) s fun t =>
        t.pins.pwrFail = true ∧ t.drc.frozen = true ∧ t.drc.selfRef = false ∧ t.nvc.halted = true ∧ t.nvc.work = []
        ∧ (s.glb.service ≠ .startUp → s.glb.service ≠ .romService → s.plf.flush = none → s.pins.flushHold = false →
            (∃ r, t.plf.flush = some ⟨false, 0, r, false⟩ ∧ r.final = false ∧ r.blocks = []) ∧ t.pins.flushing = true ∧ t.peer.aliveOut = false)
        ∧ (s.glb.service = .startUp → t.pins.startHold = true ∧ t.plf = s.plf)
        ∧ (s.glb.service = .romService → t.plf = s.plf)
        ∧ Frame [.pins, .drc, .nvc, .plf, .peer, .med, .far, .evr, .freeCtr] s t)
    ∧ (∀ (s : State) (n : Nat), n < 2000 ∨ s.pins.pwrFail = true → exec (.pwrFailAssert n) s = .next { s with out := [] })
    ∧ (∀ (s : State),
      Completes .pwrFailDeassert s fun t =>
        t.pins = { s.pins with pwrFail := false } ∧ t.plf.flush = s.plf.flush.map (fun f => { f with resetAfter := true })
        ∧ t.plf = { s.plf with flush := t.plf.flush } ∧ t.out = [] ∧ Frame [.pins, .drc, .plf] s t))
  ∧ (
    (∀ (s : State) (f : Flush), s.plf.flush = some f → f.quiesced = false →
      Completes .quiesceDone s fun t =>
        t.plf.flush = some { f with quiesced := true, cls := 1 } ∧ t.med.frozenMaps = true
        ∧ (∀ id d, cmdOf t id = some d → d.silent = true)
        ∧ ∀ k n ph h e, Output.completion k n ph h e ∉ t.out)
    ∧ (∀ (s : State) (f : Flush), s.plf.flush = some f → f.quiesced = true → f.rec_.cls ≠ f.cls → f.cls ≠ 0 →
      Completes .flushClassDone s fun t =>
        (∃ r, t.plf.flush = some { f with rec_ := r, cls := if f.cls = 4 then 4 else f.cls + 1 } ∧ r.cls = f.cls
          ∧ (f.cls = 1 → r.settle = s.hqe.settle) ∧ (f.cls = 2 → r.journal = s.med.oldJournal ++ s.med.journal ∧ r.accs = s.med.accs)
          ∧ (f.cls = 3 → r.blocks = f.rec_.blocks ++ (ownBlocks s).map saveBlock)
          ∧ (f.cls = 4 → r.blocks = f.rec_.blocks ++ s.ing.mirror.map saveBlock)
          ∧ r.marks = f.rec_.marks + classMarks s f.cls)
        ∧ t.out = [] ∧ Frame [.plf] s t)
    ∧ (∀ (s : State) (f : Flush), s.plf.flush = some f → f.rec_.cls = 4 → (∀ k, (queueOf s k).reads = []) →
      (f.resetAfter = false →
        Completes .flushComplete s fun t =>
          t.plf.flush = none
          ∧ (s.plf.records.length ≤ 1 → t.plf.records = s.plf.records ++ [{ f.rec_ with final := true, marks := f.rec_.marks + 1 }])
          ∧ (∀ a b l, s.plf.records = a :: b :: l →
              t.plf.records = [b, savedAgain a { f.rec_ with final := true, marks := f.rec_.marks + 1 }])
          ∧ t.pins.flushing = false ∧ t.pins.flushHold = true ∧ t.drc.selfRef = true ∧ t.glb = s.glb ∧ t.hqe = s.hqe ∧ t.ing = s.ing
          ∧ t.sec = s.sec ∧ t.med = s.med)
      ∧ (f.resetAfter = true → Completes .flushComplete s fun t => AfterReset .chipCmd s t)))
  ∧ (
    ∀ (s : State) (r : FlushRec), s.glb.service = .recovery → s.plf.records = [r] → s.plf.replayStep = 0 → r.lost = [] → s.hqe.cmds = [] →
      s.hqe.behind = [] →
      (r.blocks = [] →
        Completes .flushReplay s fun t =>
          t.plf.records = [] ∧ t.plf.lastClass = r.cls ∧ t.plf.short = !r.final ∧ t.plf.marks = r.marks
          ∧ t.hqe.settle = (if 1 ≤ r.cls.val then r.settle else s.hqe.settle) ∧ t.ing.staging = s.ing.staging ∧ t.med.journal = r.journal
          ∧ Frame [.plf, .hqe, .til, .med, .ing] s t)
      ∧ (∀ m n, r.blocks = [⟨m, n⟩] → n ≠ savedCrc m →
        Completes .flushReplay s fun t =>
          t.plf.records = [] ∧ t.ing.staging = s.ing.staging
          ∧ t.evr = (if r.active = true ∧ s.peer.linkUp = true then s else raise .med .critical 230 0 [m.nsid, m.lba, 1] s).evr
          ∧ Frame [.plf, .hqe, .til, .med, .ing, .evr] s t)
      ∧ (∀ m, r.blocks = [saveBlock m] → m.bad = true →
        Completes .flushReplay s fun t => t.plf.records = [] ∧ t.ing.staging = s.ing.staging)
      ∧ (∀ m w l, r.blocks = [saveBlock m] → m.bad = false → needsStaging (replayMaps s) m = true → freeWays s (setOf s m.nsid m.lba) = w :: l →
        Completes .flushReplay s fun t =>
          (∃ e ∈ t.ing.staging, e.slot = w ∧ e.nsid = m.nsid ∧ e.lba = m.lba ∧ e.gen = m.gen ∧ e.st = .staged ∧ e.data = m.data)
          ∧ t.plf.records = [r] ∧ t.plf.replayStep = 1 ∧ Frame [.plf, .hqe, .til, .med, .ing] s t))

/-! ### Farium lanes -/

/-- R235 to R238: an attempt begins with the bridge's signal; eight good TS1 in a row, then eight good TS2, train the lane, which
then asks for the information page with the credits of TS2; a wrongly cabled module is FAULT; attempts that fail end in LOST,
which retries; SYNC, SKIP and QUIET sets act on an active lane only. R239 to R242: a LINK frame forgets the frames that it
acknowledges and gives credits back; the link timer acknowledges the last frame taken, and the bridge's returns the credits
that it freed; a replay goes out after a SYNC, and after four without progress the link retrains; a frame that is bad or out
of order is NAKed, and nothing is taken until the next SYNC after a bad header. The commands said to complete (exec answers
next), on conditions on the state and the operands alone: laneSignalDetect, ts1Received, ts2Received, laneTrainTimeout,
laneRetryExpiry, syncReceived, skipReceived, skipInterval, quietReceived, fariumRxSilence, mediaClockLaneLoss,
fariumLinkFrame, fariumCompletion, fariumLinkTimer, fariumReplayTimeout. -/
def Obligations.LanesCarryFrames : Prop :=
  (
    (∀ (s : State) (n : Fin 96), (laneOf s n.val).st = .training → (laneOf s n.val).signal = false →
      Completes (.laneSignalDetect n) s fun t =>
        laneOf t n.val = { beginTry (laneOf s n.val) with signal := true } ∧ t.out = [.fariumSet n.val (ts1Set s n.val)] ∧ Frame [.far] s t)
    ∧ (∀ (s : State) (n : Fin 96) (b : Bytes), b.length = 16 → (laneOf s n.val).signal = true → (laneOf s n.val).config = false →
      (laneOf s n.val).active = false →
      Completes (.ts1Received n b) s fun t =>
        (ts1Good s n.val b = false → laneOf t n.val = { laneOf s n.val with ts1 := 0 } ∧ t.out = [])
        ∧ (ts1Good s n.val b = true → (laneOf s n.val).ts1 < 7 →
            laneOf t n.val = { laneOf s n.val with ts1 := (laneOf s n.val).ts1 + 1 } ∧ t.out = [])
        ∧ (ts1Good s n.val b = true → 7 ≤ (laneOf s n.val).ts1 →
            laneOf t n.val = { laneOf s n.val with ts1 := 8, config := true, ts2Sent := (laneOf s n.val).ts2Sent + 1 }
            ∧ t.out = [.fariumSet n.val (ts2Set s n.val)])
        ∧ Frame [.far] s t)
    ∧ (∀ (s : State) (n : Fin 96) (b : Bytes), b.length = 16 → (laneOf s n.val).config = true →
      (laneOf s n.val).st = .training →
      (ts2Good s n.val b = false ∨ (laneOf s n.val).ts2 < 7 ∨ (laneOf s n.val).ts2Sent < 16 →
        Completes (.ts2Received n b) s fun t =>
          laneOf t n.val = { laneOf s n.val with
            ts2 := if ts2Good s n.val b then (laneOf s n.val).ts2 + 1 else 0, ts2Sent := (laneOf s n.val).ts2Sent + 1 }
          ∧ t.out = [.fariumSet n.val (ts2Set s n.val)] ∧ Frame [.far] s t)
      ∧ (ts2Good s n.val b = true → 7 ≤ (laneOf s n.val).ts2 → 16 ≤ (laneOf s n.val).ts2Sent → cabledRight s n.val b = true →
        Completes (.ts2Received n b) s fun t =>
          (laneOf t n.val).active = true ∧ (laneOf t n.val).config = false ∧ (laneOf t n.val).cmdCred = numAt b 4 2 - 1
          ∧ (laneOf t n.val).dataCred = numAt b 6 2 ∧ (laneOf t n.val).seqTx = 1
          ∧ (laneOf t n.val).rate = (if slowTry s (laneOf s n.val) then 1 else 2)
          ∧ (if s.glb.headId then (bridgeOf t n.val).linkB else (bridgeOf t n.val).linkA) = true
          ∧ Output.fariumSet n.val syncSet ∈ t.out ∧ (∃ c g, Output.farium n.val 0x21 c g 0 [] ∈ t.out) ∧ Frame [.far] s t)
      ∧ (ts2Good s n.val b = true → 7 ≤ (laneOf s n.val).ts2 → 16 ≤ (laneOf s n.val).ts2Sent → cabledRight s n.val b = false →
        Completes (.ts2Received n b) s fun t =>
          (laneOf t n.val).st = .fault ∧ (laneOf t n.val).cause = 1 ∧ (laneOf t n.val).active = false ∧ Frame [.far, .med, .ing, .par, .til, .sec, .evr] s t))
    ∧ (∀ (s : State) (n : Fin 96), (laneOf s n.val).st = .training → (laneOf s n.val).active = false →
      Completes (.laneTrainTimeout n) s fun t =>
        ((laneOf s n.val).tries + 1 < tryLimit s →
          laneOf t n.val = { beginTry (laneOf s n.val) with tries := (laneOf s n.val).tries + 1 } ∧ t.med = s.med ∧ t.out = [])
        ∧ (tryLimit s ≤ (laneOf s n.val).tries + 1 →
            (laneOf t n.val).st = .lost ∧ (laneOf t n.val).tries = 0 ∧ (laneOf t n.val).active = false ∧ (laneOf t n.val).signal = false)
        ∧ Frame [.far, .med, .ing, .til, .evr] s t)
    ∧ (∀ (s : State) (n : Fin 96), (laneOf s n.val).st = .lost →
      Completes (.laneRetryExpiry n) s fun t =>
        laneOf t n.val = { beginTry (laneOf s n.val) with st := .training, tries := 0 } ∧ t.out = [] ∧ Frame [.far] s t)
    ∧ (∀ (s : State) (n : Fin 96), (laneOf s n.val).active = true →
      Completes (.syncReceived n) s (fun t => laneOf t n.val = { laneOf s n.val with lfsr := 0x7FFFFFFF, discard := false } ∧ t.out = [] ∧ Frame [.far] s t)
      ∧ exec (.skipReceived n) s = .next { s with out := [] }
      ∧ Completes (.skipInterval n) s (fun t =>
        laneOf t n.val = { laneOf s n.val with sinceSkip := 0 } ∧ t.out = [.fariumSet n.val skipSet] ∧ Frame [.far] s t)
      ∧ ((laneOf s n.val).quiet < 3 → Completes (.quietReceived n) s fun t =>
        laneOf t n.val = { laneOf s n.val with quiet := (laneOf s n.val).quiet + 1 } ∧ t.out = [] ∧ Frame [.far] s t))
    ∧ (∀ (s : State) (n : Fin 96) (i : Instr), (laneOf s n.val).active = true → (bridgeOf s n.val).newParams = [] →
      (i = .quietReceived n ∧ 3 ≤ (laneOf s n.val).quiet)
        ∨ i = .fariumRxSilence n ∨ (i = .mediaClockLaneLoss n ∧ tabGet 0 (n.val / 8) s.far.clkSource = n.val + 1) →
      Completes i s fun t =>
        laneOf t n.val = { beginTry (laneOf s n.val) with
          st := if (laneOf s n.val).st = .fault then .fault else .training, tries := 0,
          retrains := min 0xFF ((laneOf s n.val).retrains + 1), claiming := false }
        ∧ t.out = [] ∧ Frame [.far] s t))
  ∧ (
    ∀ (s : State) (n : Fin 96), (laneOf s n.val).active = true → (laneOf s n.val).discard = false →
      (∀ f : LinkFrame, f.nak = false → f.headerGood = true → (laneOf s n.val).waiting = [] → (laneOf s n.val).again = [] →
        Completes (.fariumLinkFrame n f) s fun t =>
          (laneOf t n.val).unacked = (laneOf s n.val).unacked.filter (fun u => !genAtOrBelow u.seq f.ackSeq)
          ∧ (laneOf t n.val).cmdCred = (laneOf s n.val).cmdCred + f.cmdCredits.toNat
          ∧ (laneOf t n.val).dataCred = (laneOf s n.val).dataCred + f.dataCredits.toNat ∧ t.out = [] ∧ Frame [.far] s t)
      ∧ (∀ f : LinkFrame, f.headerGood = false →
        Completes (.fariumLinkFrame n f) s fun t =>
          laneOf t n.val = { laneOf s n.val with discard := true, sinceLink := 0 } ∧ t.far.crc = (s.far.crc + 1) % 2 ^ 64
          ∧ t.out = [.fariumLink n.val ((laneOf s n.val).seqRx - 1) true] ∧ Frame [.far] s t)
      ∧ (∀ c : FarCompletion, c.lane = n → ¬(c.link.headerGood = true ∧ c.link.payloadGood = true ∧ c.link.seq = (laneOf s n.val).seqRx) →
        Completes (.fariumCompletion c) s fun t =>
          laneOf t n.val = { laneOf s n.val with discard := !c.link.headerGood, sinceLink := 0 }
          ∧ t.out = [.fariumLink n.val ((laneOf s n.val).seqRx - 1) true] ∧ Frame [.far] s t)
      ∧ Completes (.fariumLinkTimer n) s (fun t =>
        laneOf t n.val = { laneOf s n.val with sinceLink := 0 } ∧ Output.fariumLink n.val ((laneOf s n.val).seqRx - 1) false ∈ t.out
        ∧ ((bridgeOf s n.val).linkA = true → Output.bridgeLink n.val 0 (bridgeOf s n.val).freedA.1 (bridgeOf s n.val).freedA.2 ∈ t.out)
        ∧ ((bridgeOf s n.val).linkB = true → Output.bridgeLink n.val 1 (bridgeOf s n.val).freedB.1 (bridgeOf s n.val).freedB.2 ∈ t.out)
        ∧ Frame [.far] s t)
      ∧ ((laneOf s n.val).unacked ≠ [] → (laneOf s n.val).replays < 4 →
        Completes (.fariumReplayTimeout n) s fun t =>
          laneOf t n.val = { laneOf s n.val with replays := (laneOf s n.val).replays + 1 }
          ∧ t.out = .fariumSet n.val syncSet :: (laneOf s n.val).unacked.map (fun f => .farium n.val f.c.op f.claim f.tag f.c.die f.c.payload)
          ∧ t.far.replays = (s.far.replays + (laneOf s n.val).unacked.length) % 2 ^ 64 ∧ Frame [.far] s t)
      ∧ ((laneOf s n.val).unacked ≠ [] → 4 ≤ (laneOf s n.val).replays → (bridgeOf s n.val).newParams = [] →
        Completes (.fariumReplayTimeout n) s fun t => (laneOf t n.val).active = false ∧ t.out = [] ∧ Frame [.far] s t))

/-! ### A module's bridge -/

/-- R237, R244, R251, R259: a NAND operation that the bridge may not serve is completed at once with its status, on the port it
came by and under the current claim, and changes nothing but the credits that are owed; a module whose ports are crossed
serves none. R243, R244, R249, R251 to R254: STATUS and GET INFO answer on either port whatever the claim, and they and CLAIM
are refused when they carry a payload; a PARAM PUSH under the claim keeps its record, if it may be taken, once no operation
of its channel runs; a CLAIM that is higher than the current one and of its port's parity takes the module, and of two in one
arbitration cycle the higher. The commands said to complete (exec answers next), on conditions on the state and the operands
alone: fariumStatus, getInfo, paramPush, claim. -/
def Obligations.BridgesServeClaims : Prop :=
  (
    ∀ (s : State) (f : FarFrame) (i : Instr) (op : Byte), (i, op) ∈ [(Instr.fariumRead f, (0x10 : Byte)), (.fariumProgram f, 0x11), (.partialProgram f, 0x12),
        (.fariumErase f, 0x13), (.fariumSuspend f, 0x14), (.fariumResume f, 0x15), (.dieReset f, 0x17)] → i.wf = true →
      tabWf {} s.far.modules = true →
      (∀ st, crossed (bridgeOf s f.lane.val) = false → nandRefusal s op f = some st →
        Completes i s fun t =>
          t.out = [.bridge f.lane.val f.port op f.tag.toNat st (bridgeOf s f.lane.val).curClaim 0 0 0 []] ∧ OnlyFreed s t
          ∧ (underClaim (bridgeOf s f.lane.val) f = false → st = 0x20))
      ∧ (crossed (bridgeOf s f.lane.val) = true → exec i s = .next { s with out := [] }))
  ∧ (
    (∀ (s : State) (f : FarFrame), (Instr.fariumStatus f).wf = true → f.payload = [] → f.all = false → f.die.toNat < dieCount (bridgeInfo s f.lane.val) →
      tabWf {} s.far.modules = true →
      Completes (.fariumStatus f) s fun t =>
        t.out = [.bridge f.lane.val f.port 0x16 f.tag.toNat 0 (bridgeOf s f.lane.val).curClaim 0 0 0
          (statusRecord (dieOf s f.lane.val f.die.toNat))] ∧ OnlyFreed s t)
    ∧ (∀ (s : State) (f : FarFrame), (Instr.getInfo f).wf = true → f.payload = [] → tabWf {} s.far.modules = true →
      Completes (.getInfo f) s fun t =>
        t.out = [.bridge f.lane.val f.port 0x21 f.tag.toNat 0 (bridgeOf s f.lane.val).curClaim 0 0 0 (infoPage s f.lane.val)] ∧ OnlyFreed s t)
    ∧ (∀ (s : State) (f : FarFrame), (Instr.paramPush f).wf = true → underClaim (bridgeOf s f.lane.val) f = true → f.payload.length = 32 →
      tabWf {} s.far.modules = true → (bridgeOf s f.lane.val).newParams = [] → (∀ q ∈ (bridgeOf s f.lane.val).dies, q.2.queue = []) →
      (recordOk (pageOfBridge s f.lane.val) f.payload = true →
        Completes (.paramPush f) s fun t =>
          ((∀ q ∈ (bridgeOf s f.lane.val).dies, channelOf (bridgeInfo s f.lane.val) q.1 = numAt f.payload 0 1 →
              q.2.running = none ∧ q.2.suspended = none) → tabGet [] (numAt f.payload 0 1) (bridgeOf t f.lane.val).params = f.payload)
          ∧ ((∃ q ∈ (bridgeOf s f.lane.val).dies, channelOf (bridgeInfo s f.lane.val) q.1 = numAt f.payload 0 1
              ∧ (q.2.running.isSome = true ∨ q.2.suspended.isSome = true)) →
              (bridgeOf t f.lane.val).params = (bridgeOf s f.lane.val).params
              ∧ tabGet [] (numAt f.payload 0 1) (bridgeOf t f.lane.val).newParams = f.payload)
          ∧ t.out = [.bridge f.lane.val f.port 0x20 f.tag.toNat 0 (bridgeOf s f.lane.val).curClaim 0 0 0 []] ∧ Frame [.far] s t)
      ∧ (recordOk (pageOfBridge s f.lane.val) f.payload = false →
        Completes (.paramPush f) s fun t =>
          t.out = [.bridge f.lane.val f.port 0x20 f.tag.toNat 0x31 (bridgeOf s f.lane.val).curClaim 0 0 0 []] ∧ OnlyFreed s t))
    ∧ (∀ (s : State) (f : FarFrame) (i : Instr) (op : Byte), (i, op) ∈ [(Instr.fariumStatus f, (0x16 : Byte)), (.getInfo f, 0x21), (.claim f none, 0x30)] →
      i.wf = true → f.payload ≠ [] → tabWf {} s.far.modules = true →
      Completes i s fun t =>
        t.out = [.bridge f.lane.val f.port op f.tag.toNat 0x31 (bridgeOf s f.lane.val).curClaim 0 0 0 []] ∧ OnlyFreed s t)
    ∧ (∀ (s : State) (f : FarFrame), (Instr.claim f none).wf = true → f.payload = [] →
      (claimParity f.port f.claim = true → (bridgeOf s f.lane.val).curClaim.toNat < f.claim.toNat →
        Completes (.claim f none) s fun t =>
          (bridgeOf t f.lane.val).curClaim = f.claim ∧ (bridgeOf t f.lane.val).owner = portCode f.port
          ∧ Output.bridge f.lane.val f.port 0x30 f.tag.toNat 0 f.claim 0 0 0 [] ∈ t.out ∧ Frame [.far] s t)
      ∧ (¬(f.claim = (bridgeOf s f.lane.val).curClaim ∧ (bridgeOf s f.lane.val).owner = portCode f.port) →
        claimParity f.port f.claim = false ∨ f.claim.toNat ≤ (bridgeOf s f.lane.val).curClaim.toNat →
        Completes (.claim f none) s fun t =>
          t.out = [.bridge f.lane.val f.port 0x30 f.tag.toNat 0x21 (bridgeOf s f.lane.val).curClaim 0 0 0 []] ∧ Frame [] s t)
      ∧ (∀ r : FarFrame, (Instr.claim f (some r)).wf = true → r.payload = [] → claimParity (1 - f.port) r.claim = true →
        (bridgeOf s f.lane.val).curClaim.toNat < r.claim.toNat → f.claim.toNat < r.claim.toNat →
        Completes (.claim f (some r)) s fun t =>
          (bridgeOf t f.lane.val).curClaim = r.claim ∧ (bridgeOf t f.lane.val).owner = portCode (1 - f.port)
          ∧ Output.bridge f.lane.val f.port 0x30 f.tag.toNat 0x21 r.claim 0 0 0 [] ∈ t.out
          ∧ Output.bridge f.lane.val (1 - f.port) 0x30 r.tag.toNat 0 r.claim 0 0 0 [] ∈ t.out ∧ Frame [.far] s t)
      ∧ (∀ r : FarFrame, (Instr.claim f (some r)).wf = true → r.payload = [] → claimParity f.port f.claim = true →
        (bridgeOf s f.lane.val).curClaim.toNat < f.claim.toNat → r.claim.toNat ≤ f.claim.toNat →
        Completes (.claim f (some r)) s fun t =>
          (bridgeOf t f.lane.val).curClaim = f.claim ∧ (bridgeOf t f.lane.val).owner = portCode f.port
          ∧ Output.bridge f.lane.val f.port 0x30 f.tag.toNat 0 f.claim 0 0 0 [] ∈ t.out
          ∧ Output.bridge f.lane.val (1 - f.port) 0x30 r.tag.toNat 0x21 f.claim 0 0 0 [] ∈ t.out ∧ Frame [.far] s t)))

/-- R245 to R249: an accepted READ, PROGRAM, PARTIAL PROGRAM or ERASE starts on an idle die, waits behind what runs, or is
completed with 0x33 against the order rules; SUSPEND stops a program or erase and RESUME goes on with it; a reset aborts; the
end of an operation stands in the die status and goes out as a completion, and a failed die is noticed. R221: a read suspends
the die's operation once it has run MIN_RUN and has been suspended fewer times than its limit; otherwise it waits for
MIN_RUN; a suspension ends at MAX_SUSP. The commands said to complete (exec answers next), on conditions on the state and the
operands alone: fariumRead, fariumProgram, partialProgram, fariumErase, fariumSuspend, fariumResume, dieReset,
dieOperationDone, nandSuspend, nandMinRunExpiry, nandSuspendExpiry. -/
def Obligations.DiesRunOperations : Prop :=
  (
    (∀ (s : State) (f : FarFrame) (i : Instr) (op : Byte) (x : Die), (i, op) ∈ [(Instr.fariumRead f, (0x10 : Byte)), (.fariumProgram f, 0x11),
        (.partialProgram f, 0x12), (.fariumErase f, 0x13)] → i.wf = true → crossed (bridgeOf s f.lane.val) = false →
      nandRefusal s op f = none → x = dieOf s f.lane.val f.die.toNat → x.suspended = none →
      tabWf {} s.far.modules = true → tabWf {} (bridgeOf s f.lane.val).dies = true →
      (x.running = none → x.queue = [] → channelHeld s f.lane.val f.die.toNat = false → startOk s ⟨op, f, false⟩ = true →
        Completes i s fun t =>
          (dieOf t f.lane.val f.die.toNat).running = some ⟨op, f, false⟩ ∧ (dieOf t f.lane.val f.die.toNat).st = 1
          ∧ (dieOf t f.lane.val f.die.toNat).op = op ∧ (dieOf t f.lane.val f.die.toNat).claim = f.claim ∧ t.out = [] ∧ Frame [.far] s t)
      ∧ (x.running.isSome = true ∨ channelHeld s f.lane.val f.die.toNat = true →
        Completes i s fun t =>
          dieOf t f.lane.val f.die.toNat = { x with queue := x.queue ++ [⟨op, f, false⟩] } ∧ t.out = [] ∧ Frame [.far] s t)
      ∧ (x.running = none → x.queue = [] → channelHeld s f.lane.val f.die.toNat = false → startOk s ⟨op, f, false⟩ = false →
        Completes i s fun t =>
          t.out = [.bridge f.lane.val f.port op f.tag.toNat 0x33 (bridgeOf s f.lane.val).curClaim 0 0 0 []] ∧ Frame [.far] s t))
    ∧ (∀ (s : State) (f : FarFrame) (x : Die) (o : DieOp), (Instr.fariumSuspend f).wf = true → crossed (bridgeOf s f.lane.val) = false →
      x = dieOf s f.lane.val f.die.toNat → tabWf {} s.far.modules = true → tabWf {} (bridgeOf s f.lane.val).dies = true →
      (nandRefusal s 0x14 f = none → x.running = some o → o.op ≠ 0x10 → x.suspended = none → x.queue = [] →
        Completes (.fariumSuspend f) s fun t =>
          dieOf t f.lane.val f.die.toNat = { x with running := none, suspended := some o, st := 2 }
          ∧ t.out = [.bridge f.lane.val f.port 0x14 f.tag.toNat 0 (bridgeOf s f.lane.val).curClaim o.op.toNat 0 0 []] ∧ Frame [.far] s t)
      ∧ (nandRefusal s 0x14 f = none → x.running = none →
        Completes (.fariumSuspend f) s fun t =>
          t.out = [.bridge f.lane.val f.port 0x14 f.tag.toNat 0x33 (bridgeOf s f.lane.val).curClaim 0 0 0 []] ∧ OnlyFreed s t)
      ∧ (nandRefusal s 0x15 f = none → x.suspended = some o → x.running = none →
        Completes (.fariumResume f) s fun t =>
          (dieOf t f.lane.val f.die.toNat).running = some o ∧ (dieOf t f.lane.val f.die.toNat).suspended = none
          ∧ (dieOf t f.lane.val f.die.toNat).st = 1
          ∧ t.out = [.bridge f.lane.val f.port 0x15 f.tag.toNat 0 (bridgeOf s f.lane.val).curClaim 0 0 0 []] ∧ Frame [.far] s t)
      ∧ (nandRefusal s 0x17 f = none → x.queue = [] →
        Completes (.dieReset f) s fun t =>
          (dieOf t f.lane.val f.die.toNat).running = none ∧ (dieOf t f.lane.val f.die.toNat).suspended = none
          ∧ (dieOf t f.lane.val f.die.toNat).st = 0
          ∧ t.out = [.bridge f.lane.val f.port 0x17 f.tag.toNat 0 (bridgeOf s f.lane.val).curClaim 0 0 0 []] ∧ Frame [.far, .freeCtr] s t))
    ∧ (∀ (s : State) (n : Fin 96) (d : BitVec 9) (r : DieOutcome) (o : DieOp) (x : Die), x = dieOf s n.val d.toNat → x.running = some o →
      x.queue = [] → x.suspended = none → o.silent = false → o.op ≠ 0x10 → tabWf {} s.far.modules = true → tabWf {} (bridgeOf s n.val).dies = true →
      Completes (.dieOperationDone n d r) s fun t =>
        dieOf t n.val d.toNat = { x with running := none, status := r.status, st := if r.status = 0x40 then 3 else 0 }
        ∧ Output.bridge o.f.lane.val o.f.port o.op o.f.tag.toNat r.status (bridgeOf s o.f.lane.val).curClaim 0 r.corr.toNat r.busyUs.toNat []
            ∈ t.out
        ∧ (r.status = 0x40 → (bridgeOf s n.val).owner ≠ 0 → Output.bridgeNotice n.val (ownerPort (bridgeOf s n.val).owner) 2 d.toNat ∈ t.out)
        ∧ (r.status = 0 → o.op = 0x11 → ∀ k ∈ frameKeys o.f, nandOf t n.val k = blockAfter (bridgeInfo s n.val) o (nandOf s n.val k))
        ∧ Frame [.far] s t)
    ∧ (∀ (s : State) (n : Fin 96) (d : BitVec 9) (r : DieOutcome) (o : DieOp) (x : Die), x = dieOf s n.val d.toNat → x.running = some o →
      o.silent = false → o.op = 0x10 → o.f.lane = n → r.status = 0 → frameKeys o.f ≠ [] →
      (∀ k ∈ frameKeys o.f, (nandOf s n.val k).known = true ∧ (nandOf s n.val k).next ≤ o.f.page.toNat) →
      Completes (.dieOperationDone n d r) s fun t =>
        Output.bridge n.val o.f.port 0x10 o.f.tag.toNat 0x11 (bridgeOf s n.val).curClaim 0 r.corr.toNat r.busyUs.toNat
          (List.replicate (512 * ((frameKeys o.f).length * (if o.f.count = 0 then 32 else o.f.count.toNat))) 0xFF) ∈ t.out
        ∧ Frame [.far] s t))
  ∧ (
    ∀ (s : State) (n : Fin 96) (die : BitVec 9) (r : DieRun), dieRunOf s n.val die.toNat = some r →
      (r.held = false → r.ranMin = true → r.count < suspLimit s r →
        Completes (.nandSuspend n die) s fun t =>
          dieRunOf t n.val die.toNat = some { r with held := true, waiting := false, count := r.count + 1 }
          ∧ (maySend s n.val (dieCmd 0x14 die.toNat) = true →
              Output.farium n.val 0x14 (headerClaim s n.val (dieCmd 0x14 die.toNat)) (s.far.nextTag % 1024) die.toNat [] ∈ t.out)
          ∧ Frame [.med, .far] s t)
      ∧ (r.held = false → r.ranMin = false →
        Completes (.nandSuspend n die) s fun t =>
          dieRunOf t n.val die.toNat = some { r with waiting := true } ∧ t.out = [] ∧ Frame [.med] s t)
      ∧ (r.waiting = false →
        Completes (.nandMinRunExpiry n die) s fun t =>
          dieRunOf t n.val die.toNat = some { r with ranMin := true } ∧ t.out = [] ∧ Frame [.med] s t)
      ∧ (r.waiting = true → r.held = false → r.count < suspLimit s r →
        Completes (.nandMinRunExpiry n die) s fun t =>
          dieRunOf t n.val die.toNat = some { r with ranMin := true, held := true, waiting := false, count := r.count + 1 }
          ∧ Frame [.med, .far] s t)
      ∧ (r.held = true →
        Completes (.nandSuspendExpiry n die) s fun t =>
          dieRunOf t n.val die.toNat = some { r with held := false, ranMin := false } ∧ Frame [.med, .far] s t))

/-- R243, R255, R257, R259: a completion names the module's claim and ends its command; GET INFO gives the module's figures, a
won claim is counted, the channel records make it HELD; NOT OWNER and CLAIM LOST make it the peer's; a die that fails is out
of use. A notice does the same without a command. R257, R259: a command that times out is settled by its die's status, or
issued again once, then the die is reset, then it is out of use; a die's status settles what a retrain left open; the claims
of a takeover are sent again, 12 times at most, and a module that has not answered by the deadline is FAULT. The commands
said to complete (exec answers next), on conditions on the state and the operands alone: fariumNotice, fariumCompletion,
fariumCommandTimeout, dieStatusPoll, claimResendTimer, takeoverClaimDeadline. -/
def Obligations.ModulesAnswer : Prop :=
  (
    (∀ (s : State) (n : Fin 96) (k : FrameLink) (aux : Word32), InOrder s n.val k →
      (s.peer.role = .service → (laneOf s n.val).st ≠ .fault →
        Completes (.fariumNotice n ⟨k, 1⟩ aux) s fun t =>
          (laneOf t n.val).st = .peerHeld ∧ (laneOf t n.val).claim = aux
          ∧ t.out = (if (laneOf s n.val).sinceLink + 1 < 32 then [] else [.fariumLink n.val (laneOf s n.val).seqRx false]) ∧ Frame [.far] s t)
      ∧ Completes (.fariumNotice n ⟨k, 2⟩ aux) s
          (fun t => aux.toNat ∈ (laneOf t n.val).diesOut ∧ Frame [.far, .med, .ing, .par, .til, .sec] s t))
    ∧ ∀ (s : State) (c : FarCompletion) (o : FarOut), InOrder s c.lane.val c.link → (laneOf s c.lane.val).sinceLink < 31 →
      (laneOf s c.lane.val).again = [] →
      ((laneOf s c.lane.val).out.find? fun x => x.tag == c.tag.toNat && x.c.op == c.op) = some o → (laneOf s c.lane.val).waiting = [] →
      (c.status = 0x10 → occupies c.op = false →
        Completes (.fariumCompletion c) s fun t =>
          (∀ x ∈ (laneOf t c.lane.val).out, x.tag ≠ c.tag.toNat) ∧ (laneOf t c.lane.val).claim = c.claim
          ∧ (laneOf t c.lane.val).seqRx = (laneOf s c.lane.val).seqRx + 1 ∧ t.far.uncorr = (s.far.uncorr + 1) % 2 ^ 64 ∧ t.out = []
          ∧ Frame [.far] s t)
      ∧ (c.status = 0 → c.op = 0x21 → numAt c.payload 0 4 = 0xFAB10001 → numAt c.payload 4 2 = 1 → s.peer.role = .service →
        (laneOf s c.lane.val).st ≠ .fault →
        Completes (.fariumCompletion c) s fun t =>
          (laneOf t c.lane.val).info = infoOf c.payload
          ∧ ((laneOf t c.lane.val).st = .identified ∨ (laneOf t c.lane.val).st = .peerHeld)
          ∧ (laneOf t c.lane.val).claim = BitVec.ofNat 32 (numAt c.payload 0x3C 4) ∧ (bridgeOf t c.lane.val).page = c.payload ∧ Frame [.far] s t)
      ∧ (c.status = 0 → c.op = 0x20 → (laneOf s c.lane.val).pushing = true → (laneOf s c.lane.val).st = .identified →
        (laneOf s c.lane.val).out = [o] →
        Completes (.fariumCompletion c) s fun t =>
          (laneOf t c.lane.val).st = .held ∧ (laneOf t c.lane.val).pushing = false ∧ t.out = [] ∧ Frame [.far] s t)
      ∧ (c.status = 0 → c.op = 0x30 → (laneOf s c.lane.val).st = .identified → s.peer.detect ≠ .takeover →
        Completes (.fariumCompletion c) s fun t =>
          t.far.claims = (s.far.claims + 1) % 2 ^ 64 ∧ (laneOf t c.lane.val).claiming = false ∧ (laneOf t c.lane.val).st = .identified
          ∧ (laneOf t c.lane.val).pushing = true
          ∧ Frame [.far, .med] s t)
      ∧ (c.status = 0x20 ∨ c.status = 0x22 → s.peer.role = .service → (laneOf s c.lane.val).st ≠ .fault →
        Completes (.fariumCompletion c) s fun t =>
          (laneOf t c.lane.val).st = .peerHeld ∧ (laneOf t c.lane.val).out = [] ∧ t.out = [] ∧ Frame [.far, .med] s t)
      ∧ (c.status = 0x40 →
        Completes (.fariumCompletion c) s fun t =>
          c.die.toNat ∈ (laneOf t c.lane.val).diesOut ∧ Frame [.far, .med, .ing, .par, .til, .sec] s t))
  ∧ (
    (∀ (s : State) (n : Fin 96) (tag : BitVec 10) (st : DieStatus) (o : FarOut),
      ((laneOf s n.val).out.find? fun x => x.tag == tag.toNat) = some o → tabWf {} s.far.lanes = true →
      (o.timeouts = 0 → st.state = 0 → st.tag.toNat = tag.toNat →
        Completes (.fariumCommandTimeout n tag st) s fun t =>
          (∀ x ∈ (laneOf t n.val).out, x.tag ≠ tag.toNat) ∧ t.far.timeouts = (s.far.timeouts + 1) % 2 ^ 64 ∧ t.out = [] ∧ Frame [.far, .med] s t)
      ∧ (o.timeouts = 0 → st.state = 0 → st.tag.toNat ≠ tag.toNat → o.reissued = false → maySend s n.val o.c = true →
        Completes (.fariumCommandTimeout n tag st) s fun t =>
          ((laneOf t n.val).out.find? fun x => x.tag == tag.toNat) = some { o with timeouts := 1, reissued := true }
          ∧ t.out = [.farium n.val o.c.op (headerClaim s n.val o.c) o.tag o.c.die o.c.payload] ∧ Frame [.far] s t)
      ∧ (o.timeouts = 0 → st.state = 0 → st.tag.toNat ≠ tag.toNat → o.reissued = false → maySend s n.val o.c = false →
        Completes (.fariumCommandTimeout n tag st) s fun t =>
          (laneOf t n.val).again = (laneOf s n.val).again ++ [o] ∧ t.out = [] ∧ Frame [.far] s t)
      ∧ (2 ≤ o.timeouts →
        Completes (.fariumCommandTimeout n tag st) s fun t =>
          o.c.die ∈ (laneOf t n.val).diesOut ∧ o ∉ (laneOf t n.val).out ∧ Frame [.far, .med, .ing, .par, .til, .sec] s t))
    ∧ (∀ (s : State) (n : Fin 96) (d : BitVec 9) (st : DieStatus), ((laneOf s n.val).out.any fun o => o.polling && o.c.die == d.toNat) = true →
      st.state ≠ 1 → st.state ≠ 2 → st.state ≠ 3 → tabWf {} s.far.lanes = true →
      Completes (.dieStatusPoll n d st) s fun t =>
        (∀ o ∈ (laneOf t n.val).out, ¬(o.polling = true ∧ o.c.die = d.toNat))
        ∧ (st.status = 0 → (∀ o ∈ (laneOf s n.val).out, o.polling = true → o.c.die = d.toNat → st.tag.toNat = o.tag ∧ st.op = o.c.op) →
            t.out = [])
        ∧ Frame [.far, .med, .til] s t)
    ∧ (∀ (s : State), s.peer.detect = .takeover → s.pair.resends < 12 → s.pins.flushHold = false → s.peer.pair1.inReset = false →
      Completes .claimResendTimer s fun t =>
        t.pair = { s.pair with resends := s.pair.resends + 1 }
        ∧ (∀ n ∈ unclaimed s, maySend s n ⟨0x30, false, 0, 0, 0, 0, 0, 0, []⟩ = true → ∃ v g, Output.farium n 0x30 v g 0 [] ∈ t.out) ∧ Frame [.far, .pair] s t)
    ∧ (∀ (s : State), s.peer.detect = .takeover → s.pair.claimsWait = false →
      Completes .takeoverClaimDeadline s fun t =>
        (∀ n ∈ unclaimed s, (laneOf t n).st = .fault ∧ (laneOf t n).cause = 3) ∧ t.peer = { s.peer with detect := .noPeer }
        ∧ Frame [.far, .med, .ing, .par, .til, .sec, .evr, .peer] s t))

/-! ### Parity -/

/-- R261, R262, R267, R268: the strips of a stripe that are missing, one under P and two under P+Q at most, come back from those
that were read: what `rebuildStrip` gives for a data strip is that strip of the image that the parity was made of. -/
def Obligations.LostStripsComeBack : Prop :=
  ∀ (g : Seg) (k : Nat) (img : Bytes) (src : List (Nat × Option Bytes)) (d : Nat), g.members.length = g.d + redundancy g → g.d ≤ 24 → d < g.d →
    (∀ p b, sourceAt src p = some b → b = stripAt g k img p) →
    (lostStrips g k src).length + (if (sourceAt src (posP g.members.length k)).isNone then 1 else 0)
      + (if g.q = true ∧ (sourceAt src (posQ g.members.length k)).isNone = true then 1 else 0) ≤ redundancy g →
    rebuildStrip g k src d = some (dataStrip img d)

/-- R157, R186, R267 to R269: the reconstruction of a read's lost granules is kept as its one rebuild and counted, and a range
that has lost too much ends the read with 0x3020; of the attempts of a rebuild (the strip that the syndromes name, otherwise
each strip of the Bale) the first that passes its check is kept and the chunk is relocated; without its key, or an engine,
the read ends. R265, R270, R271, R274, R280 to R283: a module LOST for 10 s makes its members missing in every segment with
data; a pass 1 step gives the first segment without redundancy to reclamation, and none left begins pass 2, which moves the
Bales of missing members; without a FREE segment the job waits; a reshape moves the lowest segment of its slot, and a
build-beside copies the lowest old one; no job runs more than two checkpoints ahead; a build-beside starts where the data
fits with a margin of 5 %. R219, R276 to R278: patrol counts a stripe whose Bales pass; a Bale that fails is relocated when
its rebuild passed, and left when it did not; a parity that disagrees has its stripe's LIVE Bales relocated; two members with
uncorrectable pages, or half of a member's correction limit reached, give the segment to reclamation. The commands said to
complete (exec answers next), on conditions on the state and the operands alone: reconstructReadDone, baleRebuildDone,
moduleLostExpiry, jobSegmentStep, jobCheckpointTimer, buildBesideStart, buildBesideDailyNotice, patrolStep,
patrolDailyNotice. -/
def Obligations.ParityJobs : Prop :=
  (
    (∀ (s : State) (id : Nat) (src : List (Nat × Option Bytes)) (j : ReadJob) (e : ChunkEnt) (g : Seg), (Instr.reconstructReadDone id src).wf = true →
      jobOf s id = some j → chunkOf s j.chunk = some e → segOf s j.seg = some g → j.wanted = none → j.sealOk = false → j.rebuilt = false →
      (∀ b, rebuildBale g e src = some b → lostPieces g e src ≠ [] →
        Completes (.reconstructReadDone id src) s fun t =>
          jobOf t id = some { j with found := b, rebuilt := true }
          ∧ t.par = { s.par with degReads := (s.par.degReads + (lostPieces g e src).length) % 2 ^ 64 } ∧ t.out = [] ∧ Frame [.bal, .par] s t)
      ∧ (∀ d q p, rebuildBale g e src = none → (s.bal.readJobs.filter fun x => x.cmd == j.cmd) = [j] →
        Outstanding s j.cmd d q → d.good = d.nblk → j.parts.map (·.1) = [p] → p < d.nblk → p < 256 →
        Completes (.reconstructReadDone id src) s fun t =>
          Ended d q 0x3020 (decide (0 < p)) p 0 t ∧ Frame [.bal, .med, .hqe, .hep] s t))
    ∧ (∀ (s : State) (id : Nat) (src : List (Nat × Option Bytes)) (w : Bytes) (j : ReadJob) (e : ChunkEnt) (v : Word16) (g : Seg)
        (l : List (Bytes × Bytes)), (Instr.baleRebuildDone id ⟨src, w⟩).wf = true → jobOf s id = some j →
      chunkOf s j.chunk = some e → j.wanted = some v → j.rebuilt = false → segOf s j.seg = some g → l = rebuildAttempts g e src w →
      newerFormat w = false →
      (∀ a, keysLoaded s e = true → allOut s .xts = false ∨ (e.sealed_ = false ∧ e.keyInfo = unencrypted) → passing s e l = some a →
        Completes (.baleRebuildDone id ⟨src, w⟩) s fun t =>
          jobOf t id = some { j with
            found := a.1, waybill := a.2, bale := (openBale e a.1 a.2 s).getD [], rebuilt := true, wanted := none, sealOk := true }
          ∧ (e.no, e.seg) ∈ t.med.relocating ∧ chunkOf t e.no = some { e with stored := a.1, waybill := a.2 }
          ∧ (v = 0x3002 → t.sec = { s.sec with repaired := min 0xFFFF (s.sec.repaired + 1) }) ∧ (v ≠ 0x3002 → t.sec = s.sec)
          ∧ Frame [.bal, .med, .sec, .evr, .far] s t)
      ∧ (keysLoaded s e = false ∨ (allOut s .xts = true ∧ (e.sealed_ = true ∨ e.keyInfo ≠ unencrypted)) →
        Completes (.baleRebuildDone id ⟨src, w⟩) s fun t =>
          jobOf t id = none ∧ t.par = s.par ∧ t.sec = s.sec ∧ Frame [.bal, .med, .hqe, .hep] s t)
      ∧ (keysLoaded s e = true → allOut s .xts = false ∨ (e.sealed_ = false ∧ e.keyInfo = unencrypted) → passing s e l = none →
        Completes (.baleRebuildDone id ⟨src, w⟩) s fun t =>
          jobOf t id = none ∧ t.par = { s.par with unrepair := (s.par.unrepair + 1) % 2 ^ 64 }
          ∧ (failedStatus s e l = 0x3002 → t.sec = { s.sec with failed := min 0xFFFF (s.sec.failed + 1) })
          ∧ (failedStatus s e l ≠ 0x3002 → t.sec = s.sec)
          ∧ Frame [.bal, .med, .par, .sec, .hqe, .hep, .evr] s t)))
  ∧ (
    (∀ (s : State) (n : Fin 96), (laneOf s n.val).st = .lost → (laneOf s n.val).longLost = false →
      Completes (.moduleLostExpiry n) s fun t =>
        (laneOf t n.val).longLost = true ∧ (laneOf t n.val).st = .lost
        ∧ (∀ g ∈ t.med.segs, holdsData g = true → ∀ i m, g.members[i]? = some m → m.lane = n.val → i ∈ g.missing)
        ∧ Frame [.far, .med, .ing, .par, .til, .sec, .freeCtr] s t)
    ∧ (∀ (s : State) (j : Job), asleep s = false → s.peer.pair3.inReset = false → s.peer.role ≠ .service →
      s.glb.service = .normal ∨ s.glb.service = .recovery → nextTask s = some j → (s.par.jobs.find? fun x => x.id == j.id) = some j →
      (s.peer.role = .active → 2 ≤ j.unacked → exec .jobSegmentStep s = .next s.quiet)
      ∧ (∀ g, ckptRoom s j 1 = true → (j.kind = .rebuild ∧ j.phase = 1 ∧ firstInPass (s.med.segs.filter passOne) = some g ∧ noRoomFor s g = false)
          ∨ (j.kind = .reshape ∧ passOneWork s = false ∧ (s.med.level = 0 ∨ reclaimWork s = false)
            ∧ lowestSeg (s.med.segs.filter (reshapes j)) = some g) → segOf s g.no = some g →
        Completes .jobSegmentStep s fun t =>
          (∃ h, segOf t g.no = some h ∧ (h.st = .reclaiming ∨ h.st = .draining))
          ∧ (∃ k ∈ t.par.jobs, k.id = j.id ∧ k.cursor = g.no + 1 ∧ k.done = j.done + 1 ∧ k.paused = false) ∧ Frame [.par, .med, .far, .til, .sec, .freeCtr] s t)
      ∧ (ckptRoom s j 2 = true → j.kind = .rebuild → j.phase = 1 → passOneWork s = false → firstInPass (s.med.segs.filter passOne) = none →
        Completes .jobSegmentStep s fun t =>
          (∃ k ∈ t.par.jobs, k.id = j.id ∧ k.phase = 2 ∧ k.cursor = 0) ∧ t.par.ckptSeq = s.par.ckptSeq + 2 ∧ Frame [.par, .med, .far, .til, .sec, .freeCtr] s t)
      ∧ (∀ g, ckptRoom s j 1 = true → j.kind = .rebuild → (j.phase = 1 ∧ firstInPass (s.med.segs.filter passOne) = some g)
          ∨ (j.phase ≠ 1 ∧ firstInPass (s.med.segs.filter (passTwo s)) = some g) → noRoomFor s g = true →
        Completes .jobSegmentStep s fun t =>
          (∃ k ∈ t.par.jobs, k = { j with paused := true }) ∧ t.out = [] ∧ Frame [.par, .evr, .freeCtr] s t)
      ∧ (∀ g, ckptRoom s j 1 = true → j.kind = .rebuild → j.phase ≠ 1 → firstInPass (s.med.segs.filter (passTwo s)) = some g → noRoomFor s g = false →
        Completes .jobSegmentStep s fun t =>
          (∀ e ∈ passTwoBales s g, (e.no, g.no) ∈ t.med.relocating) ∧ t.med.segs = s.med.segs
          ∧ (∃ k ∈ t.par.jobs, k.id = j.id ∧ k.cursor = g.no + 1 ∧ k.done = j.done + 1) ∧ Frame [.par, .med, .far, .til, .sec, .freeCtr] s t)
      ∧ (ckptRoom s j 1 = true → (j.kind = .rebuild ∧ j.phase ≠ 1 ∧ firstInPass (s.med.segs.filter (passTwo s)) = none ∧ stillMoving s = false)
          ∨ (j.kind = .reshape ∧ passOneWork s = false ∧ (s.med.level = 0 ∨ reclaimWork s = false)
            ∧ lowestSeg (s.med.segs.filter (reshapes j)) = none) →
        Completes .jobSegmentStep s fun t => (∀ k ∈ t.par.jobs, k.id ≠ j.id) ∧ Frame [.par, .med, .far, .til, .sec, .freeCtr] s t)
      ∧ (∀ g, ckptRoom s j 1 = true → j.kind = .buildBeside → j.phase ≠ 2 →
        lowestSeg (s.med.segs.filter fun g => g.oldVer && !(besideBales s g).isEmpty) = some g →
        Completes .jobSegmentStep s fun t =>
          (∀ e ∈ besideBales s g, (e.no, g.no) ∈ t.med.relocating) ∧ t.med.segs = s.med.segs
          ∧ (∃ k ∈ t.par.jobs, k.id = j.id ∧ k.cursor = g.no + 1 ∧ k.done = j.done + 1) ∧ Frame [.par, .med, .far, .til, .sec, .freeCtr] s t))
    ∧ (∀ (s : State), s.peer.pair3.inReset = false → asleep s = false → (s.par.jobs.map (·.id)).Nodup →
      (∀ a ∈ s.par.jobs, ∀ b ∈ s.par.jobs, sameJob (ckptOf s a) (ckptOf s b) = true → a = b) →
      Completes .jobCheckpointTimer s fun t =>
        t.par.ckptSeq = s.par.ckptSeq + (s.par.jobs.filter fun j => ckptRoom s j 1).length
        ∧ (∀ j ∈ s.par.jobs, ckptRoom s j 1 = true → ∃ c ∈ t.par.ckpts, sameJob c (ckptOf s j) = true ∧ c.cursor = j.cursor ∧ c.phase = BitVec.ofNat 8 j.phase)
        ∧ (s.peer.role = .active → s.peer.linkUp = true → ∀ j ∈ s.par.jobs, ckptRoom s j 1 = true → ∃ c, sameJob c (ckptOf s j) = true
            ∧ Output.peerMsg 0x17 s.peer.epoch [] (ckptBytes c) ∈ t.out)
        ∧ Frame [.par, .med, .far, .til, .sec] s t)
    ∧ (∀ (s : State), s.par.old = true → (s.par.jobs.any fun j => j.kind == .buildBeside || j.kind == .reshape) = false → s.peer.role ≠ .service →
      (105 * oldGranules s ≤ 100 * freeGranules s →
        Completes .buildBesideStart s fun t =>
          (∃ j ∈ t.par.jobs, j.kind = .buildBeside ∧ j.id = s.par.nextJob ∧ j.phase = 1 ∧ j.done = 0) ∧ t.par.waiting = false
          ∧ t.par.ckptSeq = s.par.ckptSeq + 1 ∧ Frame [.par, .med, .far, .til, .sec] s t)
      ∧ (100 * freeGranules s < 105 * oldGranules s →
        Completes .buildBesideStart s fun t => t.par = { s.par with waiting := true } ∧ t.out = [] ∧ Frame [.par] s t))
    ∧ (∀ (s : State), s.par.waiting = true →
      Completes .buildBesideDailyNotice s fun t => t.evr = (raise .par .fault 283 0 [] s).evr ∧ t.out = [] ∧ Frame [.evr] s t))
  ∧ (
    (∀ (s : State) (f : PatrolFinding) (g : Seg), segOf s f.seg = some g → g.st = .closed → g.missing = [] → f.stripe < g.stripes →
      asleep s = false →
      (f.failed = [] → f.badMembers.length < 2 → halfLimit s g f.corr = false → f.parityAgrees = true →
        Completes (.patrolStep f) s fun t =>
          t.par = { s.par with stripes := (s.par.stripes + 1) % 2 ^ 64, cursor := (f.seg, f.stripe + 1) } ∧ t.out = [] ∧ Frame [.par] s t)
      ∧ (f.failed = [] → f.badMembers.length < 2 → halfLimit s g f.corr = false → f.parityAgrees = false →
        Completes (.patrolStep f) s fun t =>
          (∀ e ∈ stripeBales s f.seg f.stripe, (e.no, f.seg) ∈ t.med.relocating) ∧ t.med.segs = s.med.segs
          ∧ t.par = { s.par with
            stripes := (s.par.stripes + 1) % 2 ^ 64, cursor := (f.seg, f.stripe + 1), mismatch := (s.par.mismatch + 1) % 2 ^ 64 }
          ∧ Frame [.par, .med, .evr, .far] s t)
      ∧ (∀ no, f.failed = [no] → no ∈ (stripeBales s f.seg f.stripe).map (·.no) → f.badMembers.length < 2 → halfLimit s g f.corr = false →
        Completes (.patrolStep f) s fun t =>
          (no ∈ f.rebuilt → (no, f.seg) ∈ t.med.relocating ∧ t.par = { s.par with
            stripes := (s.par.stripes + 1) % 2 ^ 64, cursor := (f.seg, f.stripe + 1), repaired := (s.par.repaired + 1) % 2 ^ 64 })
          ∧ (no ∉ f.rebuilt → t.med = s.med ∧ t.par = { s.par with
            stripes := (s.par.stripes + 1) % 2 ^ 64, cursor := (f.seg, f.stripe + 1), unrepair := (s.par.unrepair + 1) % 2 ^ 64 })
          ∧ t.med.segs = s.med.segs ∧ Frame [.par, .med, .evr, .far] s t)
      ∧ (2 ≤ f.badMembers.length ∨ halfLimit s g f.corr = true →
        Completes (.patrolStep f) s fun t =>
          (∃ h, segOf t f.seg = some h ∧ (h.st = .reclaiming ∨ h.st = .draining)) ∧ t.par.stripes = (s.par.stripes + 1) % 2 ^ 64
          ∧ Frame [.par, .med, .evr, .far] s t))
    ∧ (∀ (s : State), patrolBehind s = true →
      Completes .patrolDailyNotice s fun t => t.evr = (raise .par .notice 276 0 [] s).evr ∧ t.out = [] ∧ Frame [.evr] s t)
    ∧ (∀ (s : State), patrolBehind s = false → exec .patrolDailyNotice s = .next s.quiet))

/-! ### Tilask -/

/-- R285, R295, R298, R299, R308: a superblock gives the array and its READ_FLOOR, with the newest root record beside it, and a
FORMAT above 3 makes the module FAULT; a module without one takes one; a checkpoint writes its objects and switches the
journal, is recorded when half of the held modules have the root that names it, and only then becomes current; the switch of
a build-beside is made with it. R300, R301, R403, R406: up to eight records of NOR in sequence order go to two held modules
as one granule; programmed on every copy, the records are in the area under their first marks; a failed copy is written
again; the oldest 1,022 become an archive object that chains on the one before, and take their second marks once its stripe
has programmed. The commands said to complete (exec answers next), on conditions on the state and the operands alone:
superblockRead, rootRecorded, checkpointDue, checkpointComplete, archiveGranuleWrite, archiveGranuleDone, archiveObjectWrite,
stripeProgrammed. -/
def Obligations.CheckpointsAndRecords : Prop :=
  (
    (∀ (s : State) (n : Fin 96) (b : Bytes) (k : Fin 2) (m : Nat) (r : Bytes), (Instr.superblockRead n b ⟨k, m, r⟩).wf = true →
      (laneOf s n.val).st = .held → tabWf 0 s.til.readFloor = true →
      (superblockOk b = true → numAt b 4 2 ≤ 3 →
        Completes (.superblockRead n b ⟨k, m, r⟩) s fun t =>
          t.til.arrayId = (if s.til.arrayId = [] then bytesAt b 8 16 else s.til.arrayId)
          ∧ tabGet 0 n.val t.til.readFloor = max 1 (numAt b 6 2) ∧ tabGet (0, 0) n.val t.til.roots = (k.val, max 1 m)
          ∧ t.par.old = (s.par.old || decide (numAt b 6 2 < 3))
          ∧ (numAt r 0 4 = 0x71A52007 → crcOk r = true →
              t.til.rootEpoch.toNat = max s.til.rootEpoch.toNat (numAt r 0x28 2) ∧ t.til.rootSeq = max s.til.rootSeq (numAt r 8 8)
              ∧ t.sec.serialTop = max s.sec.serialTop (numAt r 0x20 8))
          ∧ (crcOk r = false → t.til.rootEpoch = s.til.rootEpoch ∧ t.til.rootSeq = s.til.rootSeq ∧ t.sec = s.sec)
          ∧ t.out = [] ∧ Frame [.til, .par, .sec] s t)
      ∧ (numAt b 0 4 = 0x71A55B01 → 3 < numAt b 4 2 →
        Completes (.superblockRead n b ⟨k, m, r⟩) s fun t =>
          (laneOf t n.val).st = .fault ∧ (laneOf t n.val).cause = 5 ∧ t.til.readFloor = s.til.readFloor ∧ t.til.roots = s.til.roots
          ∧ Frame [.far, .med, .ing, .par, .til, .sec, .evr] s t)
      ∧ (numAt b 0 4 ≠ 0x71A55B01 →
        Completes (.superblockRead n b ⟨k, m, r⟩) s fun t =>
          tabGet 0 n.val t.til.readFloor = 3 ∧ (s.til.arrayId ≠ [] → t.til.arrayId = s.til.arrayId)
          ∧ (s.til.arrayId = [] → t.til.arrayId.length = 16) ∧ tabGet (0, 0) n.val t.til.roots = (0, 2)
          ∧ t.til.rootSeq = s.til.rootSeq + 1 ∧ Frame [.til, .par, .far, .med, .freeCtr] s t))
    ∧ (∀ (s : State) (l : List Nat), s.til.rootOut = true → ((heldLanes s).filter fun n => decide (n ∈ l)) ≠ [] →
      (heldLanes s).length ≤ 2 * ((heldLanes s).filter fun n => decide (n ∈ l)).length →
      Completes (.rootRecorded l) s fun t =>
        t.til = { s.til with
          recorded := (heldLanes s).filter fun n => decide (n ∈ l), rootOut := false, rooted := s.til.writing && s.til.rootNames }
        ∧ t.sec = { s.sec with serialTop := s.sec.serialNew.getD s.sec.serialTop, serialNew := none } ∧ t.out = [] ∧ Frame [.til, .sec] s t)
    ∧ (∀ (s : State), s.til.writing = false → inService s = true → (heldLanes s).isEmpty = false → s.pins.flushing = false →
      Completes .checkpointDue s fun t =>
        ((writeTrees (serveWriteBack s)).1 = true →
          t.til.writing = true ∧ t.til.rooted = false ∧ t.til.due = false ∧ t.til.ckptSeq = s.til.ckptSeq + 1 ∧ t.til.published = false
          ∧ t.til.hooksNew = s.ing.hooks ∧ t.med.dirty = [] ∧ t.med.oldJournal = s.med.oldJournal ++ s.med.journal ∧ t.med.journal = []
          ∧ t.til.newPages = t.med.pages)
        ∧ ((writeTrees (serveWriteBack s)).1 = false →
          t.til.writing = false ∧ t.til.due = true ∧ t.til.ckptSeq = s.til.ckptSeq ∧ t.med.oldJournal = s.med.oldJournal
          ∧ t.med.journal = s.med.journal)
        ∧ Frame [.til, .med, .far, .sec, .snp] s t)
    ∧ (∀ (s : State), s.til.writing = true → s.til.rooted = true → NoBatches s →
      Completes .checkpointComplete s fun t =>
        t.til.writing = false ∧ t.til.current = s.til.ckptSeq ∧ t.til.currentObj = s.til.headObj ∧ t.til.ckptPages = s.til.newPages
        ∧ t.til.hooks = s.til.hooksNew ∧ t.med.oldJournal = [] ∧ t.med.journal = s.med.journal
        ∧ (s.par.old = false → (s.med.segs.any fun g => g.oldVer) = false →
            ∀ n ∈ heldLanes s, tabGet 0 n t.til.readFloor = max 3 (tabGet 0 n s.til.readFloor))
        ∧ ((s.par.jobs.any fun j => j.kind == .buildBeside && j.phase == 2) = true → t.par.old = false ∧ ∀ g ∈ t.med.segs, g.oldVer = false)
        ∧ ((s.par.jobs.any fun j => j.kind == .buildBeside && j.phase == 2) = false → t.par = s.par)
        ∧ Frame [.til, .med, .par, .far, .sec] s t)
    ∧ (∀ (s : State), (s.til.writing && s.til.rooted) = false → NoBatches s → exec .checkpointComplete s = .next s.quiet))
  ∧ (
    (∀ (s : State), s.til.granule = [] → waitingSlots s ≠ [] → (heldLanes s).isEmpty = false →
      s.glb.service = .normal ∨ s.glb.service = .recovery → logReplayed s = true → s.peer.pair3.inReset = false →
      Completes .archiveGranuleWrite s fun t =>
        t.til.granule = ((waitingSlots s).take 8).map (fun p => norRead s (slotAddr p.2.1 p.2.2) 64)
        ∧ t.til.rotation = s.til.rotation + 2 ∧ t.til.archived = s.til.archived ∧ Frame [.til, .far, .med] s t)
    ∧ (∀ (s : State), s.til.granule ≠ [] →
      (Memory.wf norDefault s.nor = true → s.nvc.halted = false →
        Completes (.archiveGranuleDone true) s fun t =>
          t.til = { s.til with archived := s.til.archived ++ s.til.granule, granule := [] }
          ∧ (∀ p ∈ slotsOf s s.til.granule, markOf s p.2.1 p.2.2 = 0 ∨ markOf s p.2.1 p.2.2 = 1 → markOf t p.2.1 p.2.2 = 1)
          ∧ (∀ b ∈ s.til.granule, recSeq b < t.evr.archSeq) ∧ t.out = [] ∧ Frame [.til, .nor, .evr] s t)
      ∧ Completes (.archiveGranuleDone false) s (fun t =>
        t.til.granule = s.til.granule ∧ t.til.rotation = s.til.rotation + 2 ∧ t.til.archived = s.til.archived ∧ Frame [.til, .far, .med] s t))
    ∧ (∀ (s : State), s.til.archived ≠ [] → s.til.objOut = none → (heldLanes s).isEmpty = false → s.peer.pair3.inReset = false →
      inService s = true → (∀ o ∈ s.med.objs, o.obj < s.med.nextObj) →
      Completes .archiveObjectWrite s fun t =>
        t.til.archived = s.til.archived
        ∧ (t.til.objOut = none ∨ (t.til.objOut = some s.med.nextObj ∧ (recOf t s.med.nextObj).map (·.body)
            = some (archiveBytes (newestOfKind s 11) s.til.chain (s.til.archived.take 1022))))
        ∧ Frame [.til, .med, .far, .sec] s t)
    ∧ (∀ (s : State) (seg stripe o : Nat) (k : Stripe) (r : ObjRec),
      (s.med.stripes.find? fun y => y.seg == seg && y.stripe == stripe && y.closed) = some k → NoBatches s → Settled s →
      s.til.objOut = some o → recOf s o = some r → r.seg = seg → r.stripe = stripe → s.nvc.halted = false → Memory.wf norDefault s.nor = true →
      Completes (.stripeProgrammed seg stripe []) s fun t =>
        t.til.objOut = none ∧ t.til.archived = s.til.archived.drop (numAt r.body 6 2) ∧ t.til.chain = bytesAt r.body 0x50 48
        ∧ t.til.objLast = numAt r.body 0x10 8
        ∧ (∀ p ∈ slotsOf s (s.til.archived.take (numAt r.body 6 2)), markOf s p.2.1 p.2.2 ≠ 3 → markOf t p.2.1 p.2.2 = 2)
        ∧ Frame [.til, .nor, .far, .med, .ing] s t))

/-! ### Snapshots -/

/-- R312, R316 to R319: on the head that owns the namespace, CG SET makes, changes or removes a group; SNAP DELETE marks a
COMPLETE snapshot that nothing uses, and the end of its walk frees it; SNAP LIST writes the descriptors that fit; SNAP EXPOSE
makes a read-only namespace of a snapshot. R313 to R315: SNAP CREATE holds writes to its members; at the cut every STAGED
block of the members is chosen for flush, their snapshots are PENDING with one group number, and the hold ends; once those
flushes are published the trees freeze, and the command ends with the number. The commands said to complete (exec answers
next), on conditions on the state and the operands alone: cgSet, snapDelete, snapList, snapExpose, snapDeleteWalkEnd,
snapCreate, snapCut, snapComplete. -/
def Obligations.SnapshotsAreCut : Prop :=
  (
    (∀ (s : State) (c : HostCmd) (q : Qp), Fetched s c q → s.peer.role ≠ .service →
      (∀ l, (Instr.cgSet c).wf = true → l = (if bitOf c.d7 31 then [] else nsidList c) →
        (s.snp.snaps.any fun x => x.st == .pending && x.group == some (c.d7 % 4096)) = false →
        (∀ n ∈ l ++ tabGet [] (c.d7 % 4096) s.snp.groups, sessOf s n = none) → (bitOf c.d7 31 = false → c.d38 ≤ 256 ∧ membersOk s (c.d7 % 4096) l = true) →
        tabWf [] s.snp.groups = true →
        Completes (.cgSet c) s fun t =>
          Answered c q 0 l.length t ∧ tabGet [] (c.d7 % 4096) t.snp.groups = l
          ∧ (∀ g, g ≠ c.d7 % 4096 → tabGet [] g t.snp.groups = tabGet [] g s.snp.groups) ∧ Frame [.hqe, .hep, .snp] s t)
      ∧ (∀ x, (Instr.snapDelete c).wf = true → nsStatus s c.ns = none → completeSnap s c.ns c.d7 = some x → x.exposed = none → x.base = false →
        beingSent s c.ns c.d7 = false →
        Completes (.snapDelete c) s fun t =>
          Answered c q 0 0 t ∧ snapOf t c.ns c.d7 = some { x with st := .deleting } ∧ Frame [.hqe, .hep, .snp] s t)
      ∧ (∀ l, (Instr.snapList c).wf = true → nsStatus s c.ns = none → l = (s.snp.snaps.filter fun x => x.nsid == c.ns).take (c.d38 / 128) →
        Completes (.snapList c) s fun t =>
          Answered c q 0 l.length t
          ∧ (l ≠ [] → Output.hostWrite c.q.f.port (BitVec.ofNat 64 c.dptr0.toNat) (l.flatMap (snapBytes s)) ∈ t.out) ∧ Frame [.hqe, .hep] s t)
      ∧ (∀ x n id, (Instr.snapExpose c).wf = true → nsStatus s c.ns = none → nsOf s c.ns = some n → completeSnap s c.ns c.d7 = some x →
        x.exposed = none → pickId (usedNsids s) 16384 s = some id →
        Completes (.snapExpose c) s fun t =>
          Answered c q 0 id t ∧ snapOf t c.ns c.d7 = some { x with exposed := some id }
          ∧ nsOf t id = some { id := id, tenant := n.tenant, size := n.size, mode := n.mode, owner := s.glb.headId, keySlot := n.keySlot,
                               exposed := some (c.ns, c.d7) }
          ∧ Frame [.hqe, .hep, .snp, .freeCtr] s t))
    ∧ (∀ (s : State) (n : BitVec 14) (k : Nat) (x : Snap), snapOf s n.toNat k = some x → x.st = .deleting →
      Completes (.snapDeleteWalkEnd n k) s fun t =>
        snapOf t n.toNat k = none ∧ ((∀ p ∈ x.pages, stillNamed s n.toNat k p = true) → t.med = s.med) ∧ (s.peer.linkUp = false → t.out = [])
        ∧ Frame [.snp, .med, .ing] s t))
  ∧ (
    (∀ (s : State) (c : HostCmd) (q : Qp), Fetched s c q → s.peer.role ≠ .service → (Instr.snapCreate c).wf = true → snapMembers s c ≠ [] →
      (∀ n ∈ snapMembers s c, nsStatus s n = none ∧ snapCount s n < 1024) →
      Completes (.snapCreate c) s fun t =>
        (∃ d ∈ t.hqe.cmds, d.id = s.hqe.nextCmd ∧ d.cid = c.cid ∧ d.stage = .snap (padTo 32 c.buf) (snapGroup c))
        ∧ t.snp.holds = s.snp.holds ++ [(s.hqe.nextCmd, snapMembers s c)] ∧ t.snp.snaps = s.snp.snaps ∧ t.out = [] ∧ Frame [.hqe, .snp] s t)
    ∧ (∀ (s : State) (id : Nat) (d : Cmd) (h : Nat × List Nat) (label : Bytes) (g : Option Nat), cmdOf s id = some d →
      (s.snp.holds.find? fun h => h.1 == id) = some h → d.stage = .snap label g →
      (cutReady s h.2 = true → NoneWaits s →
        Completes (.snapCut id) s fun t =>
          t.snp.snaps = s.snp.snaps ++ h.2.map (pendingSnap s id label g) ∧ (∀ x ∈ t.snp.holds, x.1 ≠ id)
          ∧ t.snp.cgSeq = (if g.isSome then s.snp.cgSeq + 1 else s.snp.cgSeq)
          ∧ (∀ e ∈ t.ing.staging, e.nsid ∈ h.2 → e.st ≠ .staged) ∧ t.out = [] ∧ Frame [.snp, .ing] s t)
      ∧ (cutReady s h.2 = false → exec (.snapCut id) s = .next s.quiet))
    ∧ (∀ (s : State) (id : Nat) (d : Cmd) (q : Qp) (x : Snap) (l : List Snap), (s.snp.snaps.filter fun x => x.st == .pending && x.cmd == some id) = x :: l →
      (s.ing.runs.any fun r => (x :: l).any fun y => y.nsid == r.nsid) = false → (∀ y ∈ x :: l, snapOf s y.nsid y.seq = some y) →
      Outstanding s id d q → NoBatches s →
      Completes (.snapComplete id) s fun t =>
        Ended d q 0 false 0 (if x.group.isSome then x.cgSeq else x.seq) t
        ∧ (∀ y ∈ x :: l, ∃ z, snapOf t y.nsid y.seq = some z ∧ z.st = .complete ∧ z.cmd = none
          ∧ ((∀ n, nsOf s y.nsid = some n → n.exposed = none) → z.tree = s.med.maps.filter fun m => m.nsid == y.nsid))
        ∧ Frame [.snp, .hqe, .hep] s t))

/-! ### Replication -/

/-- R320 to R322, R325, R329: on the head that owns the namespace, REPL PAIR and INGEST make its session, with a writable source
or a target whose keys agree and that is empty; REPL SEND starts a COMPLETE snapshot of an idle source; REPL STOP ends the
session; REPL STATUS writes its record. R323 to R325, R327, R329: on the target side, a batch in turn joins its session and
is answered with NEED, a Bale that passes its checks is held under a new chunk number, one that fails is asked for once more
and then makes the session FAULTED, END takes the replica snapshot; on the source side, NEED releases the batch's Caravan,
COMMIT retires the oldest batch, and END_ACK makes the sent snapshot the base. R326, R328: RESUME drops what is not committed
and names where the walk goes on; RESUME_AT makes a suspended source walk from there; a REFUSE ends the session on a key or
version mismatch and suspends it otherwise; silence with a batch outstanding suspends it; a suspended source asks again.
R433: a message that arrives wakes a chip in P2 or P3. The commands said to complete (exec answers next), on conditions on
the state and the operands alone: replPair, ingest, replSend, replStop, replStatus, offer, bales, end_, need, commit, endAck,
resume, resumeAt, replRefuse, replSessionTimeout, replRetryTimer. -/
def Obligations.ReplicationRuns : Prop :=
  (
    ∀ (s : State) (c : HostCmd) (q : Qp), Fetched s c q → s.peer.role ≠ .service → nsStatus s c.ns = none →
      (∀ ids sl n, (Instr.replPair c ids sl).wf = true → nsOf s c.ns = some n → sessOf s c.ns = none → pairingOk s c.buf = true →
        (c.d7 = 1 →
          Completes (.replPair c ids sl) s fun t =>
            Answered c q 0 0 t ∧ sessOf t c.ns = some (newSess c.ns .source c.buf) ∧ t.hqe.nss = s.hqe.nss
            ∧ Frame [.hqe, .hep, .snp, .rdm, .freeCtr] s t)
        ∧ (c.d7 = 2 → nsEmpty s c.ns = true → keysAgree s n ids sl = true →
          Completes (.replPair c ids sl) s fun t =>
            Answered c q 0 0 t ∧ sessOf t c.ns = some (newSess c.ns .target c.buf) ∧ nsOf t c.ns = some { n with target := true }
            ∧ Frame [.hqe, .hep, .snp] s t))
      ∧ (∀ n, (Instr.ingest c).wf = true → nsOf s c.ns = some n → sessOf s c.ns = none → pairingOk s c.buf = true → nsEmpty s c.ns = true →
        Completes (.ingest c) s fun t =>
          Answered c q 0 0 t ∧ sessOf t c.ns = some (newSess c.ns .ingest c.buf) ∧ nsOf t c.ns = some { n with target := true }
          ∧ Frame [.hqe, .hep, .snp] s t)
      ∧ (∀ x, (Instr.replSend c).wf = true → sessOf s c.ns = some x → x.role = .source → (completeSnap s c.ns c.d7).isSome = true →
        x.st = .idle ∨ x.st = .faulted →
        Completes (.replSend c) s fun t =>
          Answered c q 0 0 t ∧ (∃ y, sessOf t c.ns = some y ∧ y.st = .sending ∧ y.sendSeq = c.d7 ∧ y.session = x.session ∧ y.nextBatch = 0)
          ∧ Frame [.hqe, .hep, .snp, .rdm, .freeCtr] s t)
      ∧ (∀ x, (Instr.replStop c).wf = true → sessOf s c.ns = some x →
        Completes (.replStop c) s fun t =>
          Answered c q 0 0 t ∧ sessOf t c.ns = none ∧ (nsOf t c.ns).map (·.target) = some false
          ∧ (∀ y ∈ t.snp.snaps, y.nsid = c.ns → y.base = false) ∧ Frame [.hqe, .hep, .snp, .med, .ing] s t)
      ∧ ((Instr.replStatus c).wf = true →
        Completes (.replStatus c) s fun t =>
          Answered c q 0 0 t ∧ Output.hostWrite c.q.f.port (BitVec.ofNat 64 c.dptr0.toNat) (replBytes (sessOf s c.ns)) ∈ t.out
          ∧ Frame [.hqe, .hep] s t))
  ∧ (
    (∀ (s : State) (h : ReplHdr) (x : Sess), Heard s h false x →
      (∀ first next chunks blocks, (Instr.offer h first next chunks blocks).wf = true → x.st ≠ .suspended →
        (∀ i b, x.batches[i]? = some b → b.no = x.nextBatch + i) → x.batches.length < 8 → h.batch.toNat = x.nextBatch + x.batches.length →
        Completes (.offer h first next chunks blocks) s fun t =>
          (∃ y, sessOf t x.nsid = some y ∧ y.st = .sending ∧ y.sendSeq = h.snapSeq.toNat ∧ y.nextBatch + y.batches.length = h.batch.toNat + 1)
          ∧ ((connOf s x.session).isSome = true → ∃ l m, Output.repl 0x02 x.session l m ∈ t.out)
          ∧ Frame [.snp, .med, .ing, .til, .rdm, .freeCtr] s t)
      ∧ (∀ it b, (Instr.bales h [it]).wf = true → x.batches = [b] → b.no = h.batch.toNat → it.index ∈ b.asked →
        (baleGood s x b it = true → chunkOf s (newChunkNo s) = none →
          Completes (.bales h [it]) s fun t =>
            (∃ y z, sessOf t x.nsid = some y ∧ y.batches = [z] ∧ z.held = b.held ++ [(it.index, newChunkNo s)] ∧ it.index ∉ z.asked)
            ∧ chunkOf t (newChunkNo s) = some (baleEnt s x b it) ∧ t.out = [] ∧ Frame [.snp, .med, .ing] s t)
        ∧ (baleGood s x b it = false → it.index ∉ b.retried → batchPlaced s b = false →
          Completes (.bales h [it]) s fun t =>
            (∃ y, sessOf t x.nsid = some y ∧ y.batches = [{ b with retried := b.retried ++ [it.index] }])
            ∧ ((connOf s x.session).isSome = true → ∃ l m, Output.repl 0x02 x.session l m ∈ t.out) ∧ Frame [.snp, .rdm] s t)
        ∧ (baleGood s x b it = false → it.index ∈ b.retried →
          Completes (.bales h [it]) s fun t =>
            (∃ y, sessOf t x.nsid = some y ∧ y.st = .faulted ∧ y.batches = []) ∧ (s.peer.linkUp = false → t.out = []) ∧ Frame [.snp, .med, .ing, .evr] s t))
      ∧ (∀ label sec k, (Instr.end_ h label sec).wf = true → x.st = .sending → x.batches = [] → snapCount s x.nsid < 1024 →
        k = tabGet 0 x.nsid s.snp.nextSeq + 1 → snapOf s x.nsid k = none →
        Completes (.end_ h label sec) s fun t =>
          (∃ y, snapOf t x.nsid k = some y ∧ y.st = .complete ∧ y.replica = true ∧ y.base = (x.role == .target) ∧ y.srcSeq = h.snapSeq.toNat
            ∧ y.tree = (treeOf s x.nsid).1)
          ∧ (x.role = .target → ∃ y, sessOf t x.nsid = some y ∧ y.st = .idle ∧ y.baseSeq = k) ∧ (x.role = .ingest → sessOf t x.nsid = none)
          ∧ ((connOf s x.session).isSome = true → ∃ l m, Output.repl 0x06 x.session l m ∈ t.out) ∧ Frame [.snp, .rdm, .hqe] s t))
    ∧ (∀ (s : State) (h : ReplHdr) (x : Sess), Heard s h true x →
      (∀ bits q c, (Instr.need h bits).wf = true → connOf s x.session = some q → caravanOf s c.id = some c →
        (s.rdm.caravans.find? fun c => c.trigger == q.qpn && c.st == .armed
          && c.elements.any fun e => e.kind == 6 && bytesAt e.template 0x14 4 == beBytes 4 h.batch.toNat) = some c →
        Completes (.need h bits) s fun t =>
          t.rdm.carRun = s.rdm.carRun + 1 ∧ (∀ d, caravanOf t c.id = some d → d.st = .running ∧ d.gate = bits) ∧ Frame [.snp, .rdm] s t)
      ∧ (∀ b r, x.batches = b :: r → b.no = h.batch.toNat →
        Completes (.commit h) s fun t =>
          (∃ y l, sessOf t x.nsid = some y ∧ y.nextBatch = b.no + 1 ∧ y.nextLba = b.next ∧ y.batches = r ++ l) ∧ Frame [.snp, .rdm] s t)
      ∧ (∀ k, x.st = .sending → x.ended = true → h.snapSeq.toNat = x.sendSeq →
        Completes (.endAck h k) s fun t =>
          (∃ y, sessOf t x.nsid = some y ∧ y.st = .idle ∧ y.baseSeq = x.sendSeq ∧ y.sendSeq = 0 ∧ y.ended = false)
          ∧ (∀ y ∈ t.snp.snaps, y.nsid = x.nsid → (y.base = true ↔ y.seq = x.sendSeq)) ∧ t.out = [] ∧ Frame [.snp] s t)))
  ∧ (
    (∀ (s : State) (h : ReplHdr) (x : Sess), Heard s h false x →
      Completes (.resume h) s fun t =>
        (∃ y, sessOf t x.nsid = some y ∧ y.st = .sending ∧ y.batches = [] ∧ y.nextBatch = x.nextBatch ∧ y.nextLba = x.nextLba)
        ∧ ((connOf s x.session).isSome = true → ∃ l m, Output.repl 0x08 x.session l m ∈ t.out) ∧ Frame [.snp, .med, .ing, .rdm] s t)
    ∧ (∀ (s : State) (h : ReplHdr) (x : Sess), s.clk.pstate = 2 ∨ s.clk.pstate = 3 → Heard { s with clk := { s.clk with pstate := 0 } } h false x →
      Completes (.resume h) s fun t => asleep t = false ∧ ∃ y, sessOf t x.nsid = some y ∧ y.st = .sending)
    ∧ (∀ (s : State) (h : ReplHdr) (x : Sess) (b l : Nat), Heard s h true x → (Instr.resumeAt h b l).wf = true → x.st = .suspended →
      Completes (.resumeAt h b l) s fun t =>
        (∃ y, sessOf t x.nsid = some y ∧ y.st = .sending ∧ y.nextBatch = b ∧ y.nextLba = l) ∧ Frame [.snp, .rdm] s t)
    ∧ (∀ (s : State) (h : ReplHdr) (x : Sess) (r : Word16), isolated s = false → h.crcGood = true → sessBy s h.session = some x →
      sessOf s x.nsid = some x →
      (r = 2 ∨ r = 3 → Completes (.replRefuse h r) s fun t => sessOf t x.nsid = none ∧ (s.peer.linkUp = false → t.out = []) ∧ Frame [.snp, .hqe, .med, .ing] s t)
      ∧ (r ≠ 2 → r ≠ 3 → Completes (.replRefuse h r) s fun t =>
        (∃ y, sessOf t x.nsid = some y ∧ y.batches = [] ∧ y.st = (if x.st = .sending then .suspended else x.st)) ∧ (s.peer.linkUp = false → t.out = [])
        ∧ Frame [.snp, .med, .ing] s t))
    ∧ (∀ (s : State) (k : Word64) (x : Sess), sessBy s k = some x → sessOf s x.nsid = some x → x.batches ≠ [] →
      Completes (.replSessionTimeout k) s fun t =>
        (∃ y, sessOf t x.nsid = some y ∧ y.batches = [] ∧ y.st = (if x.st = .sending then .suspended else x.st)) ∧ (s.peer.linkUp = false → t.out = [])
        ∧ Frame [.snp, .med, .ing] s t)
    ∧ (∀ (s : State) (k : Word64) (x : Sess), sessBy s k = some x → sessOf s x.nsid = some x → x.role = .source → x.st = .suspended →
      isolated s = false → (connOf s x.session).isSome = true →
      Completes (.replRetryTimer k) s fun t => (∃ l m, Output.repl 0x07 x.session l m ∈ t.out) ∧ Frame [.snp, .rdm] s t))

/-! ### The peer link -/

/-- R330, R331, R337: lanes lost retrain the link at a lower width, and the eighth replay without progress retrains it; the
control word of pair 1 keeps BEAT and PEER_ALIVE_OUT going, and its lapse drops both; a BEAT goes out with this head's
figures, and one that arrives shows the peer's and makes it present. R341: a message under an older epoch is answered with
STALE and counted, and has no other effect; a newer epoch makes a head that serves enter SERVICE, and is adopted. The
commands said to complete (exec answers next), on conditions on the state and the operands alone: peerLaneLoss,
peerReplayTimeout, wdogWrite, wdogLapse, beatTimer, beat, stale. -/
def Obligations.PeerLinkAndEpochs : Prop :=
  (
    (∀ (s : State) (n : Nat), n < 12 → min (linkWidth n) s.peer.lanes ≠ s.peer.lanes →
      Completes (.peerLaneLoss n) s fun t =>
        t.peer = { s.peer with
          lanes := linkWidth n, noProgress := 0, retrains := if linkWidth n = 0 then s.peer.retrains else (s.peer.retrains + 1) % 2 ^ 64 }
        ∧ t.out = [] ∧ Frame [.peer] s t)
    ∧ (∀ s : State, s.peer.lanes ≠ 0 →
      Completes .peerReplayTimeout s fun t =>
        t.peer = { s.peer with
          replays := (s.peer.replays + 1) % 2 ^ 64, noProgress := if s.peer.noProgress = 7 then 0 else s.peer.noProgress + 1,
          retrains := if s.peer.noProgress = 7 then (s.peer.retrains + 1) % 2 ^ 64 else s.peer.retrains }
        ∧ t.out = [] ∧ Frame [.peer] s t)
    ∧ (∀ (s : State) (v : Word32), s.peer.pair1.inReset = false →
      Completes (.wdogWrite v) s fun t =>
        t.peer = { s.peer with wdog := v, wdogFresh := true, aliveOut := aliveNow t } ∧ t.out = [] ∧ Frame [.peer] s t)
    ∧ (∀ s : State,
      Completes .wdogLapse s fun t => t.peer = { s.peer with wdogFresh := false, aliveOut := false } ∧ t.out = [] ∧ Frame [.peer] s t)
    ∧ (∀ s : State, beats s = true → s.peer.lanes ≠ 0 → s.peer.linkUp = true → s.pair.swapWait = false → s.pair.handback = false →
      Completes .beatTimer s fun t =>
        t.out = [.peerMsg 0x01 s.peer.epoch [roleCode s.peer.role, serviceCode s.glb.service, s.pair.ownFw.toNat, occupied s, (stampSeconds s).toNat] []]
        ∧ Frame [] s t)
    ∧ (∀ (s : State) (h : PeerHdr) (r : Role) (v : Service) (fw : Word32) (o k : Nat), FromPeer s h → o < 2 ^ 16 → k < 2 ^ 32 →
      suspectNow s = false →
      Completes (.beat h r v fw o k) s fun t =>
        t.pair = { s.pair with fwVersion := fw, occupancy := o, seconds := k, service := v } ∧ t.peer.peerRole = some r
        ∧ t.peer.aliveIn = (s.peer.aliveIn || r != .service) ∧ t.peer.role = s.peer.role ∧ t.peer.epoch = s.peer.epoch
        ∧ t.peer.detect = (if s.peer.detect = .noPeer then .present else s.peer.detect) ∧ t.out = [] ∧ Frame [.peer, .pair] s t)
    ∧ (∀ (s : State) (h : PeerHdr) (r : Role) (v : Service) (fw : Word32) (o k : Nat), FromPeer s h → o < 2 ^ 16 → k < 2 ^ 32 →
      suspectNow s = true → NoneWaits s →
      Completes (.beat h r v fw o k) s fun t => t.peer.detect = .present ∧ t.peer.role = s.peer.role ∧ Frame [.peer, .pair] s t))
  ∧ (
    (∀ (s : State) (h : PeerHdr) (i : Instr), s.peer.linkUp = true → s.pins.coresOut = true → genHigher s.peer.epoch h.epoch = true → i.wf = true →
      (∃ e, i = .stale h e) ∨ (∃ r v fw o k, i = .beat h r v fw o k) ∨ (∃ n l g w, i = .mirrorAck h n l g ∨ i = .release h n l g ∨ i = .powerLoss h w)
        ∨ (∃ c d, i = .ref h c d) ∨ (∃ j b, i = .jobcopy h j b) ∨ (∃ p, i = .pairFault h p) ∨ (∃ l, i = .peerStagingLimit h l)
        ∨ (∃ n l g w k b c d, i = .mirror h n l g w k b c d) ∨ (∃ w g n o k, i = .settle h w g n o k) ∨ (∃ c w r, i = .relay h c w r)
        ∨ (∃ n d b p g k, i = .granule h n d b p g k) →
      Completes i s fun t =>
        t.out = [.peerMsg 0x2F s.peer.epoch [s.peer.epoch.toNat] []] ∧ t.peer = { s.peer with stale := s.peer.stale + 1 } ∧ Frame [.peer] s t)
    ∧ (∀ (s : State) (h : PeerHdr) (e : Word16), FromPeer s h →
      (genHigher e s.peer.epoch = false →
        Completes (.stale h e) s fun t => t.peer = { s.peer with noProgress := 0, peerEpoch := h.epoch } ∧ t.out = [] ∧ Frame [.peer] s t)
      ∧ (genHigher e s.peer.epoch = true → s.peer.pair1.inReset = false → s.peer.role ≠ .service → s.hqe.behind = [] →
        Completes (.stale h e) s fun t => SteppedDown s 6 e t)
      ∧ (genHigher e s.peer.epoch = true → s.peer.pair1.inReset = false → s.peer.role = .service →
        Completes (.stale h e) s fun t => t.peer.epoch = e ∧ t.peer.role = .service ∧ Frame [.peer] s t)))

/-- R116, R334, R342: a HELLO opens the session and is answered, the smaller staging size holds, and a head that has no role
takes ACTIVE, SERVICE beside a SOLE peer (asking to return) or beside a head of its own number (Critical), or by its number
where the keys differ; without a HELLO the role is chosen alone. R139, R274, R333, R336, R345: granules are read for the
peer; a REF changes a count, and never raises one at 0; a job checkpoint is kept and acknowledged; SYNC keeps slots and
tenants the same, and without a good tag is a Fault event. The commands said to complete (exec answers next), on conditions
on the state and the operands alone: hello, helloTimeout, granule, ref, jobcopy, sync. -/
def Obligations.RolesAndCopies : Prop :=
  (
    (∀ (s : State) (h : PeerHdr) (n : Word64) (hd : Bool) (fw : Word32) (k : Nat) (key : Word64) (r : Role), s.pins.coresOut = true →
      s.peer.linkUp = false → s.peer.pair1.inReset = false →
      (rolesOpen s = false →
        Completes (.hello h n hd fw k key r) s fun t =>
          t.peer.linkUp = true ∧ t.pair.paired = true ∧ t.pair.serial = n ∧ t.ing.blocks = min k s.ing.blocks ∧ t.peer.role = s.peer.role
          ∧ t.out.length = 1 ∧ Frame [.peer, .pair, .ing, .evr] s t)
      ∧ (rolesOpen s = true → s.peer.roleChosen = false →
        (hd ≠ s.glb.headId → r ≠ .sole → key = (slotOf s pairKey).idA →
          Completes (.hello h n hd fw k key r) s fun t =>
            t.peer.role = .active ∧ t.peer.linkUp = true ∧ t.peer.epoch = startEpoch r h.epoch s ∧ t.ing.blocks = min k s.ing.blocks
            ∧ Frame [.peer, .pair, .ing, .evr, .til, .pins, .far, .med] s t)
        ∧ (hd ≠ s.glb.headId → r = .sole → s.pair.sameHead = false → s.pair.hungOver = false →
          Completes (.hello h n hd fw k key r) s fun t =>
            t.peer.role = .service ∧ t.pair.returning = true ∧ Frame [.peer, .pair, .ing, .evr, .til, .pins, .far, .med] s t)
        ∧ (hd = s.glb.headId →
          Completes (.hello h n hd fw k key r) s fun t =>
            t.peer.role = .service ∧ t.pair.sameHead = true ∧ Frame [.peer, .pair, .ing, .evr, .til, .pins, .far, .med] s t)
        ∧ (hd ≠ s.glb.headId → r ≠ .sole → key ≠ (slotOf s pairKey).idA →
          Completes (.hello h n hd fw k key r) s fun t =>
            t.peer.role = (if s.glb.headId then .service else .sole) ∧ Frame [.peer, .pair, .ing, .evr, .til, .pins, .far, .med] s t)))
    ∧ (∀ (s : State) (present lost sole : Bool), s.peer.roleChosen = false → s.peer.linkUp = false → rolesOpen s = true → s.peer.pair1.inReset = false →
      (lost = true →
        Completes (.helloTimeout present lost sole) s fun t =>
          t.peer.role = .sole ∧ t.peer.epoch = s.til.rootEpoch + 256 ∧ Frame [.peer, .til, .pins, .far, .med] s t)
      ∧ (lost = false → present = true →
        Completes (.helloTimeout present lost sole) s fun t =>
          t.peer.role = (if sole = true ∨ s.glb.headId = true then .service else .sole) ∧ t.peer.epoch = s.til.rootEpoch + 256
          ∧ Frame [.peer, .til, .pins, .far, .med, .evr] s t)
      ∧ (lost = false → present = false → exec (.helloTimeout present lost sole) s = .next s.quiet)))
  ∧ (
    (∀ (s : State) (h : PeerHdr), FromPeer s h →
      (∀ (n : Fin 96) d b p g k, (laneOf s n.val).st = .held →
        Completes (.granule h n d b p g k) s fun t =>
          t.pair = { s.pair with granules := s.pair.granules ++ [(n.val, d.toNat, b, p, g, k)] } ∧ Frame [.peer, .pair, .far] s t)
      ∧ (∀ no e (k : Nat), chunkOf s no = some e → raisable s no k = true →
        Completes (.ref h no k) s fun t => chunkOf t no = some { e with refs := e.refs + k } ∧ t.out = [] ∧ Frame [.peer, .med] s t)
      ∧ (∀ no (k : Nat), raisable s no k = false →
        Completes (.ref h no k) s fun t => t.out = [] ∧ Frame [.peer] s t)
      ∧ (∀ no e, chunkOf s no = some e → no ≠ 0 →
        Completes (.ref h no (-1)) s fun t =>
          chunkOf t no = some { e with refs := e.refs - 1, st := if e.refs ≤ 1 then .dead else e.st } ∧ t.out = [] ∧ Frame [.peer, .med, .ing] s t)
      ∧ (∀ c,
        Completes (.jobcopy h c false) s (fun t =>
          t.par = { s.par with mirrored := s.par.mirrored.filter (fun x => !sameJob x c) ++ [c] }
          ∧ t.out = [.peerMsg 0x17 s.peer.epoch [1] (ckptBytes c)] ∧ Frame [.peer, .par] s t)
        ∧ Completes (.jobcopy h c true) s fun t =>
          t.par.jobs = s.par.jobs.map (fun j => if sameJob (ckptOf s j) c then { j with unacked := j.unacked - 1 } else j)
          ∧ t.out = [] ∧ Frame [.peer, .par] s t))
    ∧ (∀ (s : State) (h : PeerHdr), TaggedPeer s h →
      (∀ (n : BitVec 13) ty o x m, n.toNat < 0x1FF0 →
        Completes (.sync h (.slotFill n ty o x m)) s fun t =>
          (slotOf t n.toNat).state = .active ∧ (slotOf t n.toNat).type = ty ∧ (slotOf t n.toNat).owner = o ∧ (slotOf t n.toNat).material = m
          ∧ (slotOf t n.toNat).exportable = x ∧ t.out = [] ∧ Frame [.peer, .sec] s t)
      ∧ (∀ (n : BitVec 13), n.toNat < 0x1FF0 → tabWf {} s.sec.slots = true →
        Completes (.sync h (.slotErase n)) s fun t => slotOf t n.toNat = {} ∧ t.out = [] ∧ Frame [.peer, .sec] s t)
      ∧ (∀ id g c d a b,
        Completes (.sync h (.tenantSet id g c d a b)) s fun t =>
          tenantOf t id = some { id := id, g := g, c := c, relay := a, shared := b, domain := d } ∧ t.out = [] ∧ Frame [.peer, .hqe] s t)
      ∧ (∀ id x, tenantOf s id = some x →
        Completes (.sync h (.tenantDelete id)) s fun t => tenantOf t id = none ∧ t.out = [] ∧ Frame [.peer, .hqe, .sec] s t))
    ∧ (∀ (s : State) (h : PeerHdr) (i : SyncItem), s.peer.linkUp = true → s.pins.coresOut = true → s.sec.vault.out = false →
      h.tagged = false ∨ h.tagGood = false →
      Completes (.sync h i) s fun t => t.evr = (raise .peer .fault 333 0 [0x18] s).evr ∧ t.out = [] ∧ Frame [.evr] s t))

/-- R31, R94, R105, R121, R122, R225: a MIRROR is stored and acknowledged; its acknowledgement completes the write; RELEASE drops
the entries that it covers; SETTLE copies the peer's log entry; a relayed query is answered over the link, and a relayed
command completes with its result; the peer's staging limit holds here too. The commands said to complete (exec answers
next), on conditions on the state and the operands alone: mirror, mirrorAck, release, settle, relay, peerStagingLimit. -/
def Obligations.WritesAreMirrored : Prop :=
  (∀ (s : State) (h : PeerHdr) (n : BitVec 14) (l : Nat) (g : Word16), FromPeer s h → l < 2 ^ 64 →
    (∀ tn tag b k d, tn < 4096 → b < k → d.length = 4096 → s.peer.role = .active → asleep s = false → s.clk.newPower = none →
      Completes (.mirror h n l g tn tag b k d) s fun t =>
        (∃ m ∈ t.ing.mirror, m.nsid = n.toNat ∧ m.lba = l ∧ m.gen = g ∧ m.data = d ∧ m.tenant = tn ∧ m.tag = tag ∧ m.block = b ∧ m.nblk = k)
        ∧ t.out = [.peerMsg 0x11 s.peer.epoch [n.toNat, l, g.toNat] []] ∧ Frame [.peer, .ing] s t)
    ∧ (∀ d q, (s.hqe.cmds.find? fun c => c.nsid == n.toNat && decide (c.lba ≤ l) && c.gens[l - c.lba]? == some g) = some d →
      Outstanding s d.id d q → d.stage = .mirroring → d.status = 0 → d.good = d.nblk → (∀ b, b < d.nblk → b = l - d.lba ∨ b ∈ d.acked) →
      Completes (.mirrorAck h n l g) s fun t =>
        Ended d q 0 false 0 0 t ∧ (∀ e ∈ t.ing.staging, e.nsid = n.toNat → e.lba = l → e.gen = g → e.mirrored = true)
        ∧ Frame [.peer, .ing, .hqe, .hep] s t)
    ∧ Completes (.release h n l g) s (fun t =>
      t.ing = { s.ing with mirror := s.ing.mirror.filter fun m => !(m.nsid == n.toNat && m.lba == l && genAtOrBelow m.gen g) }
      ∧ t.out = [] ∧ Frame [.peer, .ing] s t))
  ∧ (∀ (s : State) (h : PeerHdr) (tn : Nat) (g : Word64) (n : BitVec 14) (o : Fin 5) (k : Nat), FromPeer s h → tn < 4096 → k < 2 ^ 16 →
    Completes (.settle h tn g n o k) s fun t =>
      (∃ e, (t.hqe.settle.filter fun e => e.ofPeer && e.tenant == tn && e.tag == g) = [e] ∧ e.nsid = n.toNat ∧ e.outcome = o ∧ e.count = k)
      ∧ (t.hqe.settle.filter fun e => !e.ofPeer) = (s.hqe.settle.filter fun e => !e.ofPeer) ∧ t.out = [] ∧ Frame [.peer, .hqe] s t)
  ∧ (∀ (s : State) (h : PeerHdr) (c : HostCmd) (w : Option Nat), FromPeer s h →
    (∀ x q st k r data n, (s.hqe.cmds.find? fun x => x.stage == .relayed peerDst && x.q == c.q && x.cid == c.cid) = some x →
      Outstanding s x.id x q → n = (if st ≠ 0 ∧ 0 < k ∧ k < x.nblk then k else 0) →
      Completes (.relay h c w (some (st, k, r, data))) s fun t => Ended x q st (decide (0 < n)) n r t ∧ Frame [.peer, .hqe, .hep] s t)
    ∧ (c.op = 0x88 → s.glb.service = .normal → bitOf c.d3C 30 = false → bitOf c.d3C 31 = false → cmdOf s s.hqe.nextCmd = none →
      Completes (.relay h c w none) s fun t =>
        t.out = [.peerMsg 0x14 s.peer.epoch [1, c.q.f.port.val, c.q.f.fn.toNat, c.q.idx.toNat, c.cid.toNat, 0, 0, (queryTags c).length]
          ((queryTags c).flatMap (queryEntry s w))]
        ∧ t.hqe.cmds = s.hqe.cmds ∧ t.hqe.settle = s.hqe.settle ∧ Frame [.peer, .hqe] s t))
  ∧ (∀ (s : State) (h : PeerHdr) (l : Option Nat), FromPeer s h → NoneWaits s →
    Completes (.peerStagingLimit h l) s fun t => t.ing = { s.ing with peerSLim := l } ∧ t.out = [] ∧ Frame [.peer, .ing] s t)

/-! ### Loss of the peer -/

/-- R228, R337 to R341: silence makes the peer SUSPECT and asks the chain; with PEER_ALIVE_IN low the loss is declared, otherwise
SPLIT, in which head 1 yields and head 0 takes over; PEER_ALIVE_IN falling, PAIR_FAULT of pair 1, HANDOVER and POWER_LOSS
count as a loss where R337 and R340 say so, and the claims of the last wait for FLUSH_DONE or its deadline. R116, R344: a
SOLE head grants a return when its conditions hold, under a new epoch with the returning head's namespaces kept back, and
records a Notice otherwise; the returning head becomes ACTIVE, claims each module that is released, and owns its namespaces
at HANDBACK_DONE; a role swap that is due stops admission on the head whose turn it is. The commands said to complete (exec
answers next), on conditions on the state and the operands alone: heartbeatLoss, confirmDeadline, splitYield,
splitLossDeadline, peerAliveInFall, pairFault, powerLoss, handover, powerLossClaimDeadline, flushDone, returnReq,
returnGrant, moduleRelease, handbackDone, returnReqTimer, roleSwapDue. -/
def Obligations.LossAndReturn : Prop :=
  (
    (∀ s : State, s.peer.detect = .present → s.pins.pwrFail = false → s.peer.pair1.inReset = false →
      Completes .heartbeatLoss s fun t =>
        t.peer = { s.peer with detect := .suspect, missed := (s.peer.missed + 3) % 2 ^ 64 }
        ∧ ((s.mch.port0.wrapped && s.mch.port1.wrapped) = false → t.out.length = 1) ∧ Frame [.peer] s t)
    ∧ (∀ (s : State) (a : Option Bool), s.peer.detect = .suspect → s.peer.pair1.inReset = false →
      (s.peer.aliveIn = true →
        Completes (.confirmDeadline a) s fun t =>
          t.peer = { s.peer with detect := .split } ∧ t.pair = { s.pair with chainAnswer := a } ∧ t.out = [] ∧ Frame [.peer, .pair, .evr] s t)
      ∧ (s.peer.aliveIn = false → MayTakeOver s →
        Completes (.confirmDeadline a) s (TookOver s 1 ((if genHigher s.peer.peerEpoch s.peer.epoch then s.peer.peerEpoch else s.peer.epoch) + 1))))
    ∧ (∀ s : State, s.peer.detect = .split → s.peer.pair1.inReset = false →
      (s.glb.headId = true → s.peer.role ≠ .service → NoneWaits s →
        Completes .splitYield s fun t => SteppedDown s 2 (s.peer.epoch + 1) t ∧ t.peer.detect = .noPeer)
      ∧ (s.glb.headId = false → MayTakeOver s →
        Completes .splitLossDeadline s (TookOver s 2 ((if genHigher s.peer.peerEpoch s.peer.epoch then s.peer.peerEpoch else s.peer.epoch) + 1))))
    ∧ (∀ (s : State) (n : Nat), 2000 ≤ n → s.peer.aliveIn = true →
      (s.peer.detect = .present → s.peer.peerRole ≠ some .service →
        Completes (.peerAliveInFall n) s fun t => t.peer = { s.peer with aliveIn := false } ∧ t.out = [] ∧ Frame [.peer, .evr] s t)
      ∧ ((s.peer.detect = .split ∧ s.glb.headId = false) ∨ (s.peer.detect = .present ∧ s.peer.peerRole = some .service) → MayTakeOver s →
        Completes (.peerAliveInFall n) s fun t =>
          TookOver s (if s.peer.detect = .split then 2 else 1)
            ((if genHigher s.peer.peerEpoch s.peer.epoch then s.peer.peerEpoch else s.peer.epoch) + 1) t
          ∧ t.peer.aliveIn = false))
    ∧ (∀ (s : State) (h : PeerHdr), FromPeer s h → MayTakeOver s →
      (s.peer.aliveIn = false → Completes (.pairFault h 1) s (TookOver s 5 (s.peer.epoch + 1)))
      ∧ (∀ p : Fin 4, p ≠ 1 ∨ s.peer.aliveIn = true →
        Completes (.pairFault h p) s fun t => t.peer.role = .active ∧ t.out = [] ∧ Frame [.peer] s t)
      ∧ (∀ k, Completes (.powerLoss h k) s (TookOver s 4 (s.peer.epoch + 1)))
      ∧ (TaggedPeer s h → Completes (.handover h) s (TookOver s 3 (s.peer.epoch + 1))))
    ∧ (∀ (s : State) (i : Instr), s.pair.claimsWait = true → i = .powerLossClaimDeadline ∨ (∃ h, i = .flushDone h) →
      Completes i s fun t =>
        t.pair = { s.pair with claimsWait := false }
        ∧ (s.pins.flushHold = false → s.peer.pair1.inReset = false → ∀ n, n < 96 → (laneOf s n).st = .peerHeld → (laneOf s n).active = true → (laneOf t n).claiming = true)
        ∧ Frame [.pair, .far, .peer, .med] s t)
    ∧ (∀ (s : State) (i : Instr), s.pair.claimsWait = false → i = .powerLossClaimDeadline ∨ (∃ h, i = .flushDone h) → exec i s = .next s.quiet))
  ∧ (
    (∀ (s : State) (h : PeerHdr), TaggedPeer s h →
      (∀ fw, s.peer.role = .sole → s.peer.pair1.inReset = false →
        (s.glb.service = .normal → noFirstPass s = true → fw = s.pair.ownFw → (∀ e ∈ s.ing.staging, e.slot < s.ing.blocks) →
          Completes (.returnReq h fw) s fun t =>
            t.peer.role = .active ∧ t.peer.epoch = s.peer.epoch + 1 ∧ t.peer.lastCause = 7 ∧ t.pair.handback = true
            ∧ t.pair.kept = (s.hqe.nss.filter fun n => n.owner != s.glb.headId).map (·.id)
            ∧ Output.peerMsg 0x25 (s.peer.epoch + 1) [] [] ∈ t.out ∧ Frame [.peer, .pair, .til, .pins, .far, .med] s t)
        ∧ (s.glb.service ≠ .normal ∨ noFirstPass s = false ∨ fw ≠ s.pair.ownFw →
          Completes (.returnReq h fw) s fun t => t.peer.role = .sole ∧ t.out = [] ∧ Frame [.peer, .evr] s t))
      ∧ (s.peer.role = .service → s.pair.returning = true → s.pair.hungOver = false →
        Completes (.returnGrant h) s fun t =>
          t.peer.role = .active ∧ t.peer.lastCause = 7 ∧ t.pair.returning = false
          ∧ t.pair.kept = (s.hqe.nss.filter fun n => n.owner == s.glb.headId).map (·.id) ∧ (rootLanes s = [] → t.out = [])
          ∧ Frame [.peer, .pair, .til, .pins, .far, .med] s t)
      ∧ (∀ n : Fin 96, s.peer.role = .active → (laneOf s n.val).st = .peerHeld → isHome s n.val = true → s.peer.pair1.inReset = false →
        maySend s n.val ⟨0x30, false, 0, 0, 0, 0, 0, 0, []⟩ = true →
        Completes (.moduleRelease h n) s fun t =>
          (laneOf t n.val).claiming = true ∧ (∃ v k, t.out = [.farium n.val 0x30 v k 0 []]) ∧ Frame [.peer, .far] s t)
      ∧ (s.peer.role = .active → NoneWaits s →
        Completes (.handbackDone h) s fun t =>
          t.pair = { s.pair with kept := [] } ∧ (∀ n ∈ s.hqe.nss, n.owner ≠ s.glb.headId → n ∈ t.hqe.nss)
          ∧ (∀ m ∈ s.med.maps, (∃ n ∈ s.hqe.nss, n.id = m.nsid ∧ n.owner ≠ s.glb.headId) → m ∈ t.med.maps) ∧ t.out = []
          ∧ Frame [.peer, .pair, .hqe, .med, .freeCtr] s t))
    ∧ (∀ s : State, s.peer.role = .service → s.pair.returning = true → s.peer.pair1.inReset = false → s.pair.sameHead = false →
      s.pair.hungOver = false → canTag s pairKey = true → s.peer.linkUp = true →
      Completes .returnReqTimer s fun t => t.out = [.peerMsg 0x24 s.peer.epoch [s.pair.ownFw.toNat] []] ∧ Frame [] s t)
    ∧ (∀ s : State, s.peer.swapDays ≠ 0 → s.pair.swapWait = false →
      (swapAllowed s = true → s.peer.swapHead = s.glb.headId → s.til.current ≤ s.til.ckptSeq →
        Completes .roleSwapDue s fun t =>
          t.peer = { s.peer with swapHead := !s.peer.swapHead, swapLeft := s.peer.swapDays }
          ∧ t.pair = { s.pair with swapWait := true, resetAfter := false, ckptAt := s.til.ckptSeq } ∧ t.out = [] ∧ Frame [.peer, .pair] s t)
      ∧ (swapAllowed s = true → s.peer.swapHead ≠ s.glb.headId →
        Completes .roleSwapDue s fun t =>
          t.peer = { s.peer with swapHead := !s.peer.swapHead, swapLeft := s.peer.swapDays } ∧ t.pair = { s.pair with swapPeer := true }
          ∧ t.out = [] ∧ Frame [.peer, .pair] s t)
      ∧ (swapAllowed s = false →
        Completes .roleSwapDue s fun t => t.evr = (raise .peer .notice 344 1 [] s).evr ∧ t.out = [] ∧ Frame [.evr] s t)))

/-! ### Return, role swap, control pairs -/

/-- R33, R275, R343: a lockstep mismatch holds its pair in reset, counts it and tells the peer, pauses the jobs of pair 3, and in
START-UP resets the chip for pair 0; the pair runs again from its image; a second mismatch within 600 s, or a pair that is
not back in time, hands an ACTIVE head over. The commands said to complete (exec answers next), on conditions on the state
and the operands alone: lockstepMismatch, pairRestart, pairReturnDeadline, pair3PauseDeadline. -/
def Obligations.ControlPairsFail : Prop :=
  (∀ (s : State) (p : Fin 4), s.glb.powered = true → s.glb.resetHeld = false →
    (¬(s.glb.service = .startUp ∧ p = 0) → tooSoon s p.val = false →
      Completes (.lockstepMismatch p) s fun t =>
        pairOf t p.val = { pairOf s p.val with inReset := true, faults := min 0xFF ((pairOf s p.val).faults + 1), lastAt := some (nowS s) }
        ∧ (s.peer.linkUp = true → t.out = [.peerMsg 0x20 s.peer.epoch [p.val] []]) ∧ t.peer.aliveOut = aliveNow t
        ∧ (p = 3 → ∀ j ∈ t.par.jobs, j.paused = true) ∧ t.peer.role = s.peer.role ∧ Frame [.peer, .svc, .par] s t)
    ∧ (s.glb.service = .startUp → p = 0 → Completes (.lockstepMismatch p) s fun t => AfterReset .lockstep0 s t)
    ∧ (¬(s.glb.service = .startUp ∧ p = 0) → tooSoon s p.val = true → s.peer.role = .active → s.hqe.behind = [] →
      Completes (.lockstepMismatch p) s fun t =>
        t.peer.role = .service ∧ t.pair.hungOver = true ∧ t.peer.epoch = s.peer.epoch + 1
        ∧ Frame [.hqe, .hep, .ing, .bal, .par, .med, .snp, .far, .peer, .pair, .til, .pins, .evr, .svc] s t))
  ∧ (∀ (s : State) (p : Fin 4), (pairOf s p.val).inReset = true →
    (p ≠ 1 →
      Completes (.pairRestart p) s fun t =>
        pairOf t p.val = { pairOf s p.val with inReset := false } ∧ (p = 3 → ∀ j ∈ t.par.jobs, j.paused = false) ∧ t.out = []
        ∧ Frame [.peer, .par] s t)
    ∧ (p = 1 → s.peer.roleChosen = true → s.peer.role = .service →
      Completes (.pairRestart p) s fun t =>
        t.peer = { s.peer with pair1 := { s.peer.pair1 with inReset := false }, aliveOut := aliveNow t } ∧ t.out = [] ∧ Frame [.peer] s t)
    ∧ (p = 1 → s.peer.roleChosen = true → s.peer.role = .sole →
      Completes (.pairRestart p) s fun t =>
        t.peer = { s.peer with pair1 := { s.peer.pair1 with inReset := false }, aliveOut := aliveNow t } ∧ Frame [.peer, .far, .med] s t)
    ∧ (p = 1 → s.peer.roleChosen = true → s.peer.role = .active → s.hqe.behind = [] →
      Completes (.pairRestart p) s fun t => SteppedDown s 5 (s.peer.epoch + 1) t ∧ t.peer.linkUp = false)
    ∧ (s.peer.role = .active → s.hqe.behind = [] →
      Completes (.pairReturnDeadline p) s fun t => SteppedDown s 5 (s.peer.epoch + 1) t ∧ t.pair.hungOver = true)
    ∧ (p = 3 → s.peer.role = .active → s.hqe.behind = [] →
      Completes .pair3PauseDeadline s fun t => SteppedDown s 5 (s.peer.epoch + 1) t ∧ t.pair.hungOver = true))
  ∧ (∀ (s : State) (p : Fin 4), (pairOf s p.val).inReset = false →
    exec (.pairReturnDeadline p) s = .next s.quiet ∧ (p = 3 → exec .pair3PauseDeadline s = .next s.quiet))

/-! ### The RDMA engine -/

/-- R346 to R353: a SEND in sequence goes to the posted buffer and is acknowledged, without a receive it draws an RNR NAK;
another tenant's packet, a remote READ or WRITE, and an atomic in NORMAL put the connection into the error state; an atomic
where it is served changes the word and answers with the old one; acknowledgements, RNR NAKs and timeouts are counted, seven
retries at most. The commands said to complete (exec answers next), on conditions on the state and the operands alone:
roceSendReceived, roceReadWriteRequest, atomicRequest, roceAckReceived, rnrNakReceived, ackTimeout, rateIdleReset. -/
def Obligations.ConnectionsCarryMessages : Prop :=
  (∀ (s : State) (p : Packet) (q : RcQp), p.ok = true → Arrives s p q →
    (∀ r l, p.psn = q.psn → q.receives = r :: l → q.got + p.bytes.length ≤ r.2.1 →
      (q.qpn ∈ s.rdm.inFlight ∨ regionOk s q.pd (r.1 + q.got) p.bytes.length (·.write) = true) →
      Completes (.roceSendReceived p) s fun t =>
        t.dram = cellsWrite dramDefault p.bytes (r.1 + q.got) s.dram ∧ Output.ether q.port 1 q.remoteQp [p.psn, p.ts.toNat] [] ∈ t.out
        ∧ (rcOf t q.qpn).map (·.psn) = some ((q.psn + 1) % 2 ^ 24)
        ∧ (rcOf t q.qpn).map (·.got) = some (if p.lastOfMsg then 0 else q.got + p.bytes.length) ∧ Frame [.rdm, .dram, .freeCtr] s t)
    ∧ (p.psn = q.psn → q.receives = [] →
      Completes (.roceSendReceived p) s fun t => t.out = [.ether q.port 3 q.remoteQp [p.psn, 1] []] ∧ Frame [] s t)
    ∧ Completes (.roceReadWriteRequest p) s (fun t =>
      Output.ether q.port 2 q.remoteQp [p.psn, 1] [] ∈ t.out ∧ (rcOf t q.qpn).map (·.st) = some .error ∧ Frame [.rdm, .snp, .med, .ing] s t)
    ∧ (∀ region a cas v cmp, a < 2 ^ 64 →
      (s.rdm.atomicsOff = false → s.glb.service = .startUp ∨ s.glb.service = .test ∨ s.glb.service = .recovery → q.pd = deviceTenant →
        a % 8 = 0 → regionOk s q.pd a 8 (fun r => r.id == region && r.atomic) = true →
        Completes (.atomicRequest p region a cas v cmp) s fun t =>
          t.out = [.ether q.port 7 q.remoteQp [p.psn, p.ts.toNat, (dramWord s a).toNat] []]
          ∧ t.dram = cellsWrite dramDefault (leBytes 8 (if cas then (if dramWord s a = cmp then v else dramWord s a) else dramWord s a + v).toNat) a s.dram
          ∧ (rcOf t q.qpn).map (·.psn) = some ((p.psn + 1) % 2 ^ 24) ∧ Frame [.rdm, .dram] s t)
      ∧ (s.glb.service = .normal →
        Completes (.atomicRequest p region a cas v cmp) s fun t =>
          Output.ether q.port 2 q.remoteQp [p.psn, 1] [] ∈ t.out ∧ (rcOf t q.qpn).map (·.st) = some .error ∧ t.dram = s.dram
          ∧ Frame [.rdm, .snp, .med, .ing, .evr] s t)))
  ∧ (∀ (s : State) (p : Packet) (q : RcQp), p.ok = true → isolated s = false → p.port.val ∈ s.rdm.links → p.supported = true → p.tver = true →
    readyRc s p.qpn = some q → p.dstTenant ≠ q.tenant ∨ p.srcTenant ≠ q.remote →
    Completes (.roceSendReceived p) s fun t =>
      t.rdm.tenantRej = s.rdm.tenantRej + 1 ∧ (rcOf t q.qpn).map (·.st) = some .error ∧ t.dram = s.dram
      ∧ Frame [.rdm, .snp, .med, .ing, .evr] s t)
  ∧ (∀ (s : State) (n : Nat) (q : RcQp), n < 2 ^ 24 → readyRc s n = some q →
    (∀ psn k ts, psn < 2 ^ 24 → isolated s = false →
      Completes (.roceAckReceived n psn k ts) s fun t => rcOf t n = some (takeSample psn k s (takeAck psn q)) ∧ t.out = [] ∧ Frame [.rdm] s t)
    ∧ (isolated s = false → q.rnr < 7 →
      Completes (.rnrNakReceived n) s fun t =>
        rcOf t n = some { q with rnr := q.rnr + 1 } ∧ t.out = [.ether q.port 0 q.remoteQp [] []] ∧ Frame [.rdm] s t)
    ∧ (isolated s = false → 7 ≤ q.rnr → q.purpose ≠ 1 →
      Completes (.rnrNakReceived n) s fun t => (rcOf t n).map (·.st) = some .error ∧ Frame [.rdm, .snp, .med, .ing] s t)
    ∧ (q.retries < 7 →
      Completes (.ackTimeout n) s fun t =>
        rcOf t n = some { q with retries := q.retries + 1 } ∧ t.out = [.ether q.port 0 q.remoteQp [] []] ∧ Frame [.rdm] s t)
    ∧ (7 ≤ q.retries → q.purpose ≠ 1 →
      Completes (.ackTimeout n) s fun t => (rcOf t n).map (·.st) = some .error ∧ Frame [.rdm, .snp, .med, .ing] s t)
    ∧ Completes (.rateIdleReset n) s (fun t => rcOf t n = some { q with rate := rInit s } ∧ t.out = [] ∧ Frame [.rdm] s t))

/-- R353: a rule change marks the old entry at once and completes when no message under the old rule is left in transit; after
its timeout what is left is abandoned. R355 to R357: a receive that names an ARMED Caravan on its queue pair releases it with
its gate bits, and any other is counted; CANCEL returns an ARMED one to IDLE only; an element that fails ends its Caravan
with its index and cause, and one that succeeds is done, its data in its buffer. The commands said to complete (exec answers
next), on conditions on the state and the operands alone: rdmaRuleChange, ruleChangeTimeout, caravanRelease, caravanCancel,
caravanElementDone. -/
def Obligations.CaravansRun : Prop :=
  (
    (∀ (s : State) (r : RdmaRule),
      Completes (.rdmaRuleChange r) s fun t =>
        (∀ n x, r = .invalidateRegion n → (t.rdm.regions.find? fun y => y.id == n) = some x → x.valid = false)
        ∧ (∀ n a b c x, r = .permissions n a b c → (t.rdm.regions.find? fun y => y.id == n) = some x → x.read = a ∧ x.write = b ∧ x.atomic = c)
        ∧ (∀ n, r = .deleteDomain n → n ∈ t.rdm.pdsGone) ∧ (r = .enterNormal → t.rdm.atomicsOff = true)
        ∧ (s.rdm.inFlight = [] → underOldRule s r = [] → Output.ruleDone r ∈ t.out ∧ t.rdm.changes = [])
        ∧ (s.rdm.inFlight ≠ [] ∨ underOldRule s r ≠ [] → t.out = [] ∧ t.rdm.changes = s.rdm.changes ++ [r]) ∧ t.rdm.qps = s.rdm.qps
        ∧ Frame [.rdm] s t)
    ∧ (∀ (s : State),
      Completes .ruleChangeTimeout s fun t =>
        t.rdm.inFlight = [] ∧ t.rdm.changes = [] ∧ (∀ r ∈ s.rdm.changes, Output.ruleDone r ∈ t.out)
        ∧ (∀ n ∈ s.rdm.inFlight, ∀ q, rcOf t n = some q → q.st = .error) ∧ Frame [.rdm, .snp, .med, .ing] s t))
  ∧ (
    (∀ (s : State) (id n : Nat) (gate : List Nat), n < 2 ^ 24 →
      (∀ c, caravanOf s id = some c → c.st = .armed → c.trigger = n →
        Completes (.caravanRelease id n gate false) s fun t =>
          t.rdm.carRun = s.rdm.carRun + 1 ∧ (∀ d, caravanOf t id = some d → d.st = .running ∧ d.gate = gate) ∧ Frame [.rdm] s t)
      ∧ ((∀ c, caravanOf s id = some c → ¬(c.st = .armed ∧ c.trigger = n)) →
        Completes (.caravanRelease id n gate false) s fun t =>
          t.rdm = { s.rdm with carMiss := s.rdm.carMiss + 1 } ∧ t.out = [] ∧ Frame [.rdm] s t)
      ∧ exec (.caravanRelease id n gate true) s = .next s.quiet)
    ∧ (∀ (s : State) (id : Nat) (c : Caravan), caravanOf s id = some c →
      (c.st = .armed → Completes (.caravanCancel id) s fun t => t.out = [.caravanState id 0] ∧ caravanOf t id = none ∧ Frame [.rdm] s t)
      ∧ (c.st ≠ .armed → Completes (.caravanCancel id) s fun t => t.out = [.caravanState id 2] ∧ Frame [] s t)
      ∧ (∀ i e failed, c.elements[i]? = some e → e.ran = true → e.done = false →
        (failed.isSome = true ∨ elementBad s c e = true → failed ≠ some 0x3020 →
          Completes (.caravanElementDone id i failed) s fun t =>
            t.out = [.caravan id (some (i, failed.getD 0))] ∧ caravanOf t id = none ∧ Frame [.rdm] s t)
        ∧ (failed = none → elementBad s c e = false →
          Completes (.caravanElementDone id i failed) s fun t =>
            (∀ d, caravanOf t id = some d → (d.elements[i]?).map (·.done) = some true)
            ∧ (e.kind = 3 → t.dram = cellsWrite dramDefault ((objectAt s e.addr2).take e.len) e.addr s.dram)
            ∧ (e.kind = 4 → t.dram = cellsWrite dramDefault (cellsRead dramDefault s.dram e.addr e.len) e.addr2 s.dram)
            ∧ (e.kind ≠ 3 → e.kind ≠ 4 → t.dram = s.dram) ∧ Frame [.rdm, .dram] s t))))

/-- R354: a CONNECT that may be made gives a ready connection under the lowest free number and ACCEPT, any other REJECT; an
ACCEPT completes the connection that waits for it; a REJECT ends it. R346, R359 to R361: an announce goes out on every port
in use; one that arrives for the right serial puts its port into the path set, and for another serial it marks the address
DUPLICATE with a Critical event; a bad one is counted; expiry and a link that goes down take the port out. The commands said
to complete (exec answers next), on conditions on the state and the operands alone: connect, accept, reject, announceTimer,
announceReceived, pathExpiry, ethernetLinkChange. -/
def Obligations.ConnectionsAndPaths : Prop :=
  (
    ∀ (s : State) (m : ConnMsg), m.qpn < 2 ^ 24 → m.psn < 2 ^ 24 → m.arrayId.length = 16 → Reached s m →
      (∀ n, s.rdm.qps.find? (sameConnect m) = none → connectOk s m = true → freeQpn s = some n →
        Completes (.connect m) s fun t =>
          (∃ q, rcOf t n = some q ∧ q.st = .ready ∧ q.remoteQp = m.qpn ∧ q.psn = m.psn ∧ q.mtu = m.mtu ∧ q.session = m.session
            ∧ q.epoch = m.epoch ∧ q.receives = firstReceives n)
          ∧ (∃ r ∈ t.rdm.regions, r.id = n ∧ r.valid = true) ∧ (∃ b, Output.ether m.port.val 6 m.srcAddr [2] b ∈ t.out)
          ∧ Frame [.rdm, .freeCtr] s t)
      ∧ (s.rdm.qps.find? (sameConnect m) = none → connectOk s m = false →
        Completes (.connect m) s fun t => (∃ b, t.out = [.ether m.port.val 6 m.srcAddr [3] b]) ∧ Frame [.freeCtr] s t)
      ∧ (∀ q, asked s m = some q → rcOf s q.qpn = some q →
        Completes (.accept m) s fun t =>
          (∃ x, rcOf t q.qpn = some x ∧ x.st = .ready ∧ x.remoteQp = m.qpn ∧ x.psn = m.psn ∧ x.epoch = m.epoch)
          ∧ (∃ r ∈ t.rdm.regions, r.id = q.qpn ∧ r.valid = true) ∧ Frame [.rdm, .snp] s t)
      ∧ (∀ q, asked s m = some q →
        Completes (.reject m) s fun t => rcOf t q.qpn = none ∧ Frame [.rdm, .snp, .med, .ing] s t))
  ∧ (
    (∀ (s : State), s.rdm.fedState = 1 → canTag s federationKey = true →
      Completes .announceTimer s fun t =>
        t.out = s.rdm.links.map (fun p => Output.ether p 5 0 [] (tagged s federationKey (announceBody s p)))
        ∧ t.rdm = { s.rdm with round := (s.rdm.round + 1) % 2 ^ 32 } ∧ Frame [.rdm] s t)
    ∧ (∀ (s : State) (x : Announce), x.fedId.length = 5 → isolated s = false → x.port.val ∈ s.rdm.links →
      (x.tagGood = false ∨ canTag s federationKey = false ∨ padTo 5 x.fedId ≠ padTo 5 s.mch.fedId ∨ x.version ≠ 1
          ∨ tabGet 0 x.address.toNat s.mch.table = 0 →
        Completes (.announceReceived x) s fun t => t.rdm = { s.rdm with annBad := s.rdm.annBad + 1 } ∧ t.out = [] ∧ Frame [.rdm] s t)
      ∧ (x.tagGood = true → canTag s federationKey = true → padTo 5 x.fedId = padTo 5 s.mch.fedId → x.version = 1 →
        tabGet 0 x.address.toNat s.mch.table ≠ 0 →
        (tabGet 0 x.address.toNat s.mch.table = x.serial →
          ¬(s.mch.addrValid = true ∧ x.address.toNat / 2 = s.mch.address.toNat / 2) → (pathOf s x.address.toNat).state ≠ 2 →
          genHigher (pathOf s x.address.toNat).epoch x.epoch = false → x.lateUs ≤ 1000 →
          Completes (.announceReceived x) s fun t =>
            (pathOf t x.address.toNat).state = 1 ∧ x.port.val ∈ (pathOf t x.address.toNat).ports
            ∧ (pathOf t x.address.toNat).serial = x.serial ∧ (pathOf t x.address.toNat).round = x.round.toNat
            ∧ Frame [.rdm, .hqe, .hep, .freeCtr] s t)
        ∧ (tabGet 0 x.address.toNat s.mch.table ≠ x.serial →
          Completes (.announceReceived x) s fun t =>
            (pathOf t x.address.toNat).state = 2 ∧ (pathOf t x.address.toNat).ports = [] ∧ Frame [.rdm, .hqe, .hep, .evr, .snp, .med, .ing] s t)))
    ∧ (∀ (s : State) (a : BitVec 6) (p : Fin 4), tabWf {} s.rdm.paths = true →
      Completes (.pathExpiry a p) s fun t =>
        (pathOf t a.toNat).ports = (pathOf s a.toNat).ports.filter (· != p.val)
        ∧ (∀ b, b ≠ a.toNat → pathOf t b = pathOf s b)
        ∧ ((pathOf s a.toNat).state = 1 → (∀ x ∈ (pathOf s a.toNat).ports, x = p.val) → (pathOf t a.toNat).state = 0)
        ∧ Frame [.rdm, .hqe, .hep] s t)
    ∧ (∀ (s : State) (p : Fin 4), tabWf {} s.rdm.paths = true →
      Completes (.ethernetLinkChange p true) s (fun t => t.rdm = { s.rdm with links := insertNat p.val s.rdm.links } ∧ t.out = [] ∧ Frame [.rdm] s t)
      ∧ Completes (.ethernetLinkChange p false) s fun t =>
        p.val ∉ t.rdm.links ∧ (∀ a, p.val ∉ (pathOf t a).ports) ∧ Frame [.rdm, .hqe, .hep] s t))

/-! ### The federation -/

/-- R341, R362 to R365: a relayed STATE QUERY of a federated tenant is answered over the federation, and a request under an older
epoch is refused and counted; RELAY_RSP completes the host command; a refused relay goes once more to the address it is told
of, and a second refusal, or a timeout, completes the command; tenant messages store and delete contexts. The commands said
to complete (exec answers next), on conditions on the state and the operands alone: relayReq, relayRsp, relayRefuse,
relayTimeout, federatedTenantMessage. -/
def Obligations.RelaysBetweenChips : Prop :=
  (∀ (s : State) (a id tn : Nat) (e target : Word16) (c : HostCmd) (data : Bytes), (Instr.relayReq a e target id tn c data).wf = true →
    isolated s = false →
    (Current s a e → genHigher s.peer.epoch target = false → s.glb.service = .normal → fedTenant s tn = true → s.peer.role ≠ .service →
      c.op = 0x88 → bitOf c.d3C 30 = false → bitOf c.d3C 31 = false → cmdOf s s.hqe.nextCmd = none →
      Completes (.relayReq a e target id tn c data) s fun t =>
        t.out = [.repl 0x42 (BitVec.ofNat 64 id) [a, 0, 0, 0, (queryTags (relayedEntry c data)).length]
          ((queryTags (relayedEntry c data)).flatMap (queryEntry s (some tn)))]
        ∧ t.hqe.cmds = s.hqe.cmds ∧ t.hqe.settle = s.hqe.settle ∧ t.hqe.nextCmd = s.hqe.nextCmd + 1 ∧ Frame [.hqe] s t)
    ∧ (staleFrom s a e = true ∨ (Current s a e ∧ genHigher s.peer.epoch target = true) →
      Completes (.relayReq a e target id tn c data) s fun t =>
        t.out = [.repl 0x43 (BitVec.ofNat 64 id) [a, 1, s.peer.epoch.toNat, servingAddr s] []]
        ∧ t.rdm = { s.rdm with relayStale := s.rdm.relayStale + 1 } ∧ Frame [.rdm] s t))
  ∧ (∀ (s : State) (id : Nat) (r : Relay) (d : Cmd) (q : Qp), relayOf s id = some r → Outstanding s r.cmd d q →
    (∀ e st part (k result : Word32) data n, isolated s = false → Current s r.target e →
      n = (if part = true ∧ st ≠ 0 ∧ 0 < k.toNat ∧ k.toNat < d.nblk then k.toNat else 0) →
      Completes (.relayRsp e id st part k result data) s fun t =>
        Ended d q st (decide (0 < n)) n result.toNat t ∧ relayOf t id = none
        ∧ (d.op = 0x88 → Output.hostWrite d.q.f.port (BitVec.ofNat 64 r.entry.q30) data ∈ t.out) ∧ Frame [.rdm, .hqe, .hep] s t)
    ∧ (∀ (e reason : Word16) (a : BitVec 6), isolated s = false → Current s a.toNat e →
      (r.resent = true →
        Completes (.relayRefuse id reason e a) s fun t =>
          Ended d q 0x6001 false 0 0 t ∧ relayOf t id = none ∧ Frame [.rdm, .hqe, .hep] s t)
      ∧ (r.resent = false → (s.rdm.relays.find? fun x => x.cmd == r.cmd) = some r → (s.rdm.relays.find? fun x => x.id == id) = some r →
        Completes (.relayRefuse id reason e a) s fun t =>
          (∃ x, relayOf t id = some x ∧ x.resent = true ∧ x.target = a.toNat ∧ x.epoch = e)
          ∧ (∃ l b, Output.repl 0x41 (BitVec.ofNat 64 id) (a.toNat :: l) b ∈ t.out) ∧ Frame [.rdm] s t))
    ∧ Completes (.relayTimeout id) s (fun t => Ended d q 0x6003 false 0 0 t ∧ relayOf t id = none ∧ Frame [.rdm, .hqe, .hep] s t))
  ∧ (∀ (s : State) (a : Nat) (e : Word16), isolated s = false → canTag s federationKey = true → Current s a e →
    (∀ id g c, tenantOf s id = none → s.hqe.tenants.length < 4096 → id ∉ s.hqe.domains.map (·.id) → 2 * (sumG s + g) ≤ stagingLimit s →
      s.sec.rng.st = .seeded →
      Completes (.federatedTenantMessage a e true (.store id g c)) s fun t =>
        (∃ x, tenantOf t id = some x ∧ x.g = g ∧ x.c = c ∧ x.relay = true ∧ x.shared = false ∧ x.domain = id)
        ∧ Output.ether 0 9 a [0] [] ∈ t.out ∧ Frame [.hqe, .sec, .freeCtr] s t)
    ∧ (∀ id x, tenantOf s id = some x → x.relay = true → tenantInUse s id = false →
      Completes (.federatedTenantMessage a e true (.delete id)) s fun t =>
        tenantOf t id = none ∧ Output.ether 0 9 a [0] [] ∈ t.out ∧ Frame [.hqe, .sec, .freeCtr] s t))

/-! ### The management chain -/

/-- R367, R369, R370: silence, a BREAK on a port that is up, and the sixteenth bad frame within 1 ms break a port, which wraps
and is counted; it sends BREAK until it qualifies, then LINK_OK, and opens once LINK_OK has gone both ways. R371, R377, R378:
a candidate whose ELECT comes back is the master; a higher-ranked ELECT goes on and a lower one is absorbed; TIME makes its
hearers members and sets their clock with 320 ns for each hop; of two masters the lower-ranked stops. The commands said to
complete (exec answers next), on conditions on the state and the operands alone: chainLinkSilent, chainBreak, chainBadFrame,
chainBreakTimer, chainPortQualify, chainLinkOk, elect, time, electTimer, masterTimeout, timeTimer, fedTimeInfoTimer. -/
def Obligations.ChainPortsAndMaster : Prop :=
  (
    ∀ (s : State) (p : Fin 2), s.pins.chainDriven = true →
      (∀ i, (i = .chainLinkSilent p ∧ (chainPort s p).link ≠ 1) ∨ (i = .chainBreak p ∧ (chainPort s p).link = 0)
          ∨ (∃ u, i = .chainBadFrame p u ∧ (chainPort s p).link ≠ 1 ∧ 15 ≤ ((chainPort s p).bad.filter fun x => decide (u < x + 1000)).length) →
        Completes i s fun t =>
          chainPort t p = { link := 1, wrapped := true, breaks := min 0xFFFF ((chainPort s p).breaks + 1) } ∧ chainPort t (1 - p) = chainPort s (1 - p)
          ∧ t.mch.role = s.mch.role ∧ t.mch.table = s.mch.table ∧ t.out = [] ∧ Frame [.mch, .evr] s t)
      ∧ ((chainPort s p).link ≠ 0 → exec (.chainBreak p) s = .next s.quiet)
      ∧ (∀ u, (chainPort s p).link ≠ 1 → ((chainPort s p).bad.filter fun x => decide (u < x + 1000)).length < 15 →
        Completes (.chainBadFrame p u) s fun t =>
          chainPort t p = { chainPort s p with bad := ((chainPort s p).bad.filter fun x => decide (u < x + 1000)) ++ [u] }
          ∧ t.mch.crcErr = (s.mch.crcErr + 1) % 2 ^ 64 ∧ t.out = [] ∧ Frame [.mch] s t)
      ∧ ((chainPort s p).link = 1 →
        Completes (.chainBreakTimer p) s (fun t => t.out = [.chain p 0x01 0 s.glb.unitSerial []] ∧ Frame [] s t)
        ∧ Completes (.chainPortQualify p) s (fun t => chainPort t p = { chainPort s p with link := 2 } ∧ t.out = [] ∧ Frame [.mch] s t)
        ∧ Completes (.chainLinkOk p) s fun t => chainPort t p = { chainPort s p with gotOk := true } ∧ t.out = [] ∧ Frame [.mch] s t)
      ∧ ((chainPort s p).link = 2 → (chainPort s p).gotOk = false →
        Completes (.chainBreakTimer p) s fun t =>
          chainPort t p = { chainPort s p with sentOk := true } ∧ t.out = [.chain p 0x02 0 s.glb.unitSerial []] ∧ Frame [.mch] s t)
      ∧ (∀ i, (chainPort s p).link = 2 → (i = .chainBreakTimer p ∧ (chainPort s p).gotOk = true) ∨ (i = .chainLinkOk p ∧ (chainPort s p).sentOk = true) →
        Completes i s fun t =>
          chainPort t p = { chainPort s p with link := 0, wrapped := false, sentOk := false, gotOk := false } ∧ Frame [.mch, .evr] s t))
  ∧ (
    (∀ (s : State) (h : ChainHdr) (g : Word16) (hd : Bool), OnChain s h →
      (s.mch.role = .candidate → h.origin = s.glb.unitSerial → s.mch.gen ≠ 0 →
        Completes (.elect h g hd) s fun t => t.mch = { s.mch with role := .master, joining := false } ∧ t.out = [] ∧ Frame [.mch] s t)
      ∧ (s.mch.role = .candidate → h.origin = s.glb.unitSerial → s.mch.gen = 0 →
        Completes (.elect h g hd) s fun t => t.mch.role = .master ∧ t.mch.gen = 1 ∧ t.mch.enumOut = true ∧ Frame [.mch] s t)
      ∧ (s.mch.role = .candidate → h.origin ≠ s.glb.unitSerial →
        Completes (.elect h g hd) s fun t =>
          t.out = (if outranked s g hd h.origin then passedOn s h 0x10 [g.toNat, if hd then 1 else 0] else [])
          ∧ t.mch.role = .candidate ∧ Frame [.mch] s t)
      ∧ (s.mch.role ≠ .candidate → h.origin ≠ s.glb.unitSerial →
        Completes (.elect h g hd) s fun t => t.out = passedOn s h 0x10 [g.toNat, if hd then 1 else 0] ∧ t.mch.role = s.mch.role ∧ Frame [.mch] s t)
      ∧ (∀ (x : Word64) (b : Bool), h.origin ≠ s.glb.unitSerial →
        (s.mch.role ≠ .master →
          Completes (.time h x g hd b) s fun t =>
            t.mch.role = .member ∧ t.mch.fedTime = x + BitVec.ofNat 64 (320 * h.hops) ∧ t.out = passedOn s h 0x30 [x.toNat] ∧ Frame [.mch] s t)
        ∧ (s.mch.role = .master → outranked s g hd h.origin = true →
          Completes (.time h x g hd b) s fun t => t.mch.role = .member ∧ t.mch.enumOut = false ∧ t.out = passedOn s h 0x30 [x.toNat] ∧ Frame [.mch] s t)
        ∧ (s.mch.role = .master → outranked s g hd h.origin = false → b = true →
          Completes (.time h x g hd b) s fun t => t.mch.role = .master ∧ t.mch.fedTime = s.mch.fedTime ∧ t.out = passedOn s h 0x30 [x.toNat] ∧ Frame [.mch] s t)))
    ∧ (∀ s : State, pair2Up s = true →
      (s.mch.role = .candidate → chainOpen s →
        Completes .electTimer s fun t => t.out = [ownOut s 0x10 [s.mch.gen.toNat, if s.glb.headId then 1 else 0]] ∧ Frame [] s t)
      ∧ (s.mch.role ≠ .master → Completes .masterTimeout s fun t => t.mch = { s.mch with role := .candidate } ∧ t.out = [] ∧ Frame [.mch] s t)
      ∧ (∀ x : Word64, s.mch.role = .master → chainOpen s →
        Completes (.timeTimer x) s fun t => t.mch = { s.mch with fedTime := x } ∧ t.out = [ownOut s 0x30 [x.toNat]] ∧ Frame [.mch] s t)
      ∧ Completes .fedTimeInfoTimer s (fun t =>
        t.evr = (raise .mch .info 377 0 [s.mch.fedTime.toNat, (stampSeconds s).toNat] s).evr ∧ t.out = [] ∧ Frame [.evr] s t)))

/-- R372 to R375: ENUM gives each chip of the federation its address by the rule of parity and goes on; back at the master the
table is broadcast, and a member takes it group by group; the master's ENUM and table are sent again; a notice of a duplicate
has the master enumerate anew under the next GEN. R341, R373, R374, R376, R378: the master gives a joiner an address, or
none, and answers; the answer gives the joiner its address, or a Critical event; QUERY is filled by its target and read by
its sender; EPOCH is sent, and a newer one adopted for both addresses of the pair. The commands said to complete (exec
answers next), on conditions on the state and the operands alone: enum, table, enumTimeout, tableRebroadcastTimer,
reenumDelayExpiry, duplicate, join, joinTimer, epochTimer, joinAck, query, epoch. -/
def Obligations.ChainMembers : Prop :=
  (
    (∀ (s : State) (h : ChainHdr) (n : Byte) (lh : Bool) (g : Word16) (f : Bytes) (x : Word64), OnChain s h → f.length = 5 →
      (h.origin ≠ s.glb.unitSerial → f = ownFedId s →
        Completes (.enum h n lh g f x) s fun t =>
          (∀ a, a = enumAddress s.glb.headId s.pair.paired s.pair.serial n lh x →
            t.mch.addrValid = (a != 0xFF) ∧ (a ≠ 0xFF → t.mch.address = a.setWidth 6 ∧ a.toNat ≤ 63 ∧ a.toNat % 2 = if s.glb.headId then 1 else 0)
            ∧ t.out = passedOn s h 0x11 [(if a = 0xFF then n else a + 1).toNat, if s.glb.headId then 1 else 0, g.toNat, leNat f, s.glb.unitSerial.toNat])
          ∧ Frame [.mch] s t)
      ∧ (h.origin ≠ s.glb.unitSerial → f ≠ ownFedId s →
        Completes (.enum h n lh g f x) s fun t =>
          t.mch.addrValid = false ∧ t.out = passedOn s h 0x11 [n.toNat, if lh then 1 else 0, g.toNat, leNat f, x.toNat] ∧ Frame [.mch] s t)
      ∧ (h.origin = s.glb.unitSerial → s.mch.role = .master → s.mch.enumOut = true → g = s.mch.gen →
        Completes (.enum h n lh g f x) s fun t =>
          t.mch.enumOut = false ∧ t.mch.groups = List.range 8 ∧ t.mch.enums = (s.mch.enums + 1) % 2 ^ 64
          ∧ t.rdm.fedState = (if s.mch.addrValid then 1 else 0) ∧ Frame [.mch, .rdm, .hqe, .hep, .evr, .freeCtr] s t))
    ∧ (∀ (s : State) (h : ChainHdr) (g : Word16) (k : Fin 8) (b : Byte) (f : Bytes) (l : List Word64), OnChain s h → f.length = 5 → l.length = 8 →
      h.origin ≠ s.glb.unitSerial → s.mch.role ≠ .master → tabWf 0 s.mch.table = true → s.mch.groups.length ≠ 7 ∨ k.val ∈ s.mch.groups →
      Completes (.table h g k b f l) s fun t =>
        t.mch.gen = g ∧ k.val ∈ t.mch.groups ∧ (∀ i, i < 8 → tabGet 0 (8 * k.val + i) t.mch.table = l.getD i 0) ∧ t.mch.fedId = f
        ∧ (g = s.mch.gen → ∀ a, a / 8 ≠ k.val → tabGet 0 a t.mch.table = tabGet 0 a s.mch.table)
        ∧ (g ≠ s.mch.gen → ∀ a, a / 8 ≠ k.val → tabGet 0 a t.mch.table = 0) ∧ Frame [.mch] s t)
    ∧ (∀ s : State, pair2Up s = true → s.mch.role = .master → chainOpen s →
      (s.mch.enumOut = true →
        Completes .enumTimeout s fun t =>
          t.out = [ownOut s 0x11 [s.mch.address.toNat + 1, if s.glb.headId then 1 else 0, s.mch.gen.toNat, leNat s.mch.fedId, s.glb.unitSerial.toNat]]
          ∧ Frame [.mch] s t)
      ∧ (s.mch.enumOut = false → Completes .tableRebroadcastTimer s fun t => t.out.length = 8 ∧ Frame [] s t)
      ∧ (s.mch.reenum = true →
        Completes .reenumDelayExpiry s fun t =>
          t.mch.gen = s.mch.gen + 1 ∧ t.mch.reenum = false ∧ t.mch.enumOut = true ∧ t.mch.fedId = ownFedId s ∧ Frame [.mch] s t))
    ∧ (∀ (s : State) (h : ChainHdr) (a : Byte) (x y : Word64), OnChain s h →
      Completes (.duplicate h a x y) s fun t =>
        (pathOf t a.toNat).state = 2 ∧ (pathOf t a.toNat).ports = [] ∧ (s.mch.role = .master → t.mch.reenum = true)
        ∧ (x = s.glb.unitSerial ∨ y = s.glb.unitSerial → t.rdm.fedState = 2 ∧ t.rdm.qps = [])
        ∧ Frame [.mch, .rdm, .hqe, .hep, .snp, .med, .ing] s t))
  ∧ (
    (∀ (s : State) (h : ChainHdr) (hd : Bool) (x : Word64), OnChain s h → h.origin ≠ s.glb.unitSerial → s.mch.role = .master → s.mch.enumOut = false →
      chainOpen s →
      (∀ a, joinAddress s h.origin hd x = some a → h.origin ≠ 0 →
        Completes (.join h hd x) s fun t =>
          tabGet 0 a t.mch.table = h.origin ∧ ownOut s 0x14 [a, h.origin.toNat] ∈ t.out ∧ Frame [.mch] s t)
      ∧ (joinAddress s h.origin hd x = none →
        Completes (.join h hd x) s fun t =>
          t.mch.table = s.mch.table ∧ ownOut s 0x14 [0xFF, h.origin.toNat] ∈ t.out ∧ Frame [.mch] s t))
    ∧ (∀ s : State, pair2Up s = true → chainOpen s →
      (s.mch.joining = true →
        Completes .joinTimer s fun t =>
          t.out = [ownOut s 0x13 [if s.glb.headId then 1 else 0, if s.pair.paired then s.pair.serial.toNat else 0]] ∧ Frame [] s t)
      ∧ (s.mch.addrValid = true →
        Completes .epochTimer s fun t =>
          t.out = [ownOut s 0x31 [s.mch.address.toNat, roleCode s.peer.role, serviceCode s.glb.service, s.peer.epoch.toNat]] ∧ Frame [] s t))
    ∧ (∀ (s : State) (h : ChainHdr) (a : Byte), OnChain s h → s.mch.joining = true →
      (a.toNat ≤ 63 → s.mch.fedId = ownFedId s →
        Completes (.joinAck h a s.glb.unitSerial) s fun t =>
          t.mch.joining = false ∧ t.mch.addrValid = true ∧ t.mch.address = a.setWidth 6 ∧ (pathOf t a.toNat).state = 3
          ∧ t.rdm.fedState = (if s.rdm.fedState = 2 then 2 else 1) ∧ Frame [.mch, .rdm] s t)
      ∧ (63 < a.toNat →
        Completes (.joinAck h a s.glb.unitSerial) s fun t =>
          t.mch.joining = false ∧ t.mch.addrValid = s.mch.addrValid ∧ t.mch.address = s.mch.address ∧ Frame [.mch, .evr] s t))
    ∧ (∀ (s : State) (h : ChainHdr) (r : Bytes) (x : Word64), s.pins.chainDriven = true → (chainPort s h.port).wrapped = false → onPass s h = true →
      r.length = 8 →
      (h.origin = s.glb.unitSerial →
        Completes (.query h r x) s fun t => t.pair = { s.pair with chainAnswer := some (r != zeros 8) } ∧ t.out = [] ∧ Frame [.pair] s t)
      ∧ (h.origin ≠ s.glb.unitSerial →
        Completes (.query h r x) s fun t =>
          t.out = passedOn s h 0x20 [leNat (if x = s.glb.unitSerial then queryReply s else r), x.toNat] ∧ Frame [.mch] s t))
    ∧ (∀ (s : State) (h : ChainHdr) (a : Byte) (r : Role) (v : Service) (e : Word16), OnChain s h → h.origin ≠ s.glb.unitSerial →
      ¬(s.mch.addrValid = true ∧ a.toNat / 2 = s.mch.address.toNat / 2) → e ≠ 0 →
      (pathOf s a.toNat).epoch = 0 ∨ genHigher e (pathOf s a.toNat).epoch = true →
      Completes (.epoch h a r v e) s fun t =>
        (pathOf t a.toNat).epoch = e ∧ (pathOf t (a.toNat ^^^ 1)).epoch = e ∧ (pathOf t a.toNat).role = Fin.ofNat 4 (roleCode r)
        ∧ (∀ b, b ≠ a.toNat → b ≠ a.toNat ^^^ 1 → pathOf t b = pathOf s b) ∧ Frame [.rdm, .hqe, .hep, .mch] s t))

/-! ### The DRAM controller -/

/-- R381 to R383: a reading moves a channel's band up at once and down only below the bound less the hysteresis; the third
missing reading in a row puts the channel into the highest band. R387, R391: a refresh is postponed while reads wait and
fewer than four are owed, and otherwise goes with those owed, over precharged banks; the scrub takes the lines in turn, and
an uncorrectable one is rewritten poisoned. The commands said to complete (exec answers next), on conditions on the state and
the operands alone: dramTempReading, refreshDue, scrubStep. -/
def Obligations.DramUpkeep : Prop :=
  (
    ∀ (s : State) (l : List (Option Int)) (c : Nat), (Instr.dramTempReading l).wf = true → s.pins.dramReady = true → c < 12 →
      tabWf 0 s.drc.temps = true → tabWf 0 s.drc.missed = true → tabWf 0 s.drc.bands = true →
      (∀ x : Int, l[c]? = some (some x) →
        Completes (.dramTempReading l) s fun t =>
          tabGet 0 c t.drc.temps = x ∧ tabGet 0 c t.drc.missed = 0
          ∧ (s.drc.frozen = true → bandOf t c = bandOf s c)
          ∧ (s.drc.frozen = false →
              (∀ j, j < s.drc.nbands → lowerBound s.drc j ≤ x → 0 < j → j ≤ bandOf t c)
              ∧ (bandOf s c < bandOf t c → bandOf t c < s.drc.nbands ∧ lowerBound s.drc (bandOf t c) ≤ x)
              ∧ (bandOf t c < bandOf s c → x < lowerBound s.drc (bandOf s c) - Int.ofNat s.drc.hyst
                  ∧ (0 < bandOf t c → lowerBound s.drc (bandOf t c) - Int.ofNat s.drc.hyst ≤ x)))
          ∧ Frame [.drc, .evr] s t)
      ∧ (l[c]? = some none →
        Completes (.dramTempReading l) s fun t =>
          tabGet 0 c t.drc.temps = tabGet 0 c s.drc.temps ∧ tabGet 0 c t.drc.missed = min (tabGet 0 c s.drc.missed + 1) 3
          ∧ (tabGet 0 c s.drc.missed = 2 → s.drc.frozen = false → bandOf t c = s.drc.nbands - 1)
          ∧ (tabGet 0 c s.drc.missed ≠ 2 → bandOf t c = bandOf s c) ∧ Frame [.drc, .evr] s t))
  ∧ (
    (∀ (s : State) (c : Fin 12) (r : Fin 4) (w : Bool) (n : Nat), s.pins.dramReady = true → s.drc.selfRef = false →
      rankPresent s r.val = true → tabGet 0 (4 * c.val + r.val) s.drc.owed = n → tabWf 0 s.drc.owed = true →
      tabWf {} s.drc.queues = true →
      (w = true → n < 4 →
        Completes (.refreshDue c r w) s fun t =>
          tabGet 0 (4 * c.val + r.val) t.drc.owed = n + 1 ∧ t.drc.queues = s.drc.queues ∧ t.out = [] ∧ Frame [.drc] s t)
      ∧ (w = false ∨ 4 ≤ n →
        Completes (.refreshDue c r w) s fun t =>
          tabGet 0 (4 * c.val + r.val) t.drc.owed = 0
          ∧ (t.out.filter fun o => decide (o = .dramRefresh c r.val)).length = n + 1
          ∧ (∀ k, k = 2 * c.val ∨ k = 2 * c.val + 1 → ∀ x ∈ (queueOf t k).openRows, rankOfBank x.1 ≠ r.val)
          ∧ (∀ k, k ≠ 2 * c.val → k ≠ 2 * c.val + 1 → queueOf t k = queueOf s k) ∧ Frame [.drc] s t))
    ∧ (∀ (s : State) (e : Fin 3), s.pins.dramReady = true → s.drc.selfRef = false → s.pins.pwrFail = false → asleep s = false →
      s.drc.scrubLine < dramLines s →
      Completes (.scrubStep s.drc.scrubLine e) s fun t =>
        t.drc.scrubLine = (if s.drc.scrubLine + 1 = dramLines s then 0 else s.drc.scrubLine + 1)
        ∧ (e = 2 ∨ s.drc.scrubLine ∈ s.drc.poisoned →
            s.drc.scrubLine ∈ t.drc.poisoned ∧ t.drc.ue = (s.drc.ue + 1) % 2 ^ 64 ∧ t.drc.ce = s.drc.ce
            ∧ t.out = [.dramWrite s.drc.scrubLine (cellsRead dramDefault s.dram (64 * s.drc.scrubLine) 64)])
        ∧ (e ≠ 2 → s.drc.scrubLine ∉ s.drc.poisoned →
            t.drc.ue = s.drc.ue ∧ t.drc.ce = (if e = 1 then (s.drc.ce + 1) % 2 ^ 64 else s.drc.ce) ∧ t.drc.poisoned = s.drc.poisoned)
        ∧ Frame [.drc, .evr] s t))

/-- R24, R73, R385, R389, R390: a read into an idle subchannel returns the line at once; a corrected error is counted, an
uncorrectable one returns poison, and one that nobody else holds ends its command, or, in a read buffer, goes to the host
with the poison mark; a staged block is read again from the peer's mirror; a write waits, and 48 waiting writes drain to 16.
The commands said to complete (exec answers next), on conditions on the state and the operands alone: dramRequest. -/
def Obligations.DramRequests : Prop :=
  ∀ (s : State) (r : DramReq) (q : DramQ), (Instr.dramRequest r).wf = true → s.pins.dramReady = true → s.drc.selfRef = false →
    r.line < dramLines s → (∀ i, i < 4 → tabGet 0 (4 * r.channel.val + i) s.drc.owed ≠ 4) → tabWf {} s.drc.queues = true →
    queueOf s (2 * r.channel.val + r.sub.val) = q → q.reads = [] → q.draining = false → (∀ x ∈ q.writes, x.write = true) →
    (r.write = true → q.writes.length < 47 →
      Completes (.dramRequest r) s fun t =>
        (queueOf t (2 * r.channel.val + r.sub.val)).writes
          = (q.writes.map fun x => { x with waitedUs := x.waitedUs + r.waitedUs }) ++ [{ r with waitedUs := 0 }]
        ∧ t.dram = s.dram ∧ t.out = [] ∧ Frame [.drc] s t)
    ∧ (r.write = true → q.writes.length = 47 →
      Completes (.dramRequest r) s fun t =>
        (queueOf t (2 * r.channel.val + r.sub.val)).writes.length = 16
        ∧ (∀ a, a / 64 ≠ r.line → (∀ x ∈ q.writes, a / 64 ≠ x.line) →
            cellRead dramDefault t.dram a = cellRead dramDefault s.dram a)
        ∧ Frame [.drc, .dram] s t)
    ∧ (r.write = false → q.writes = [] →
      (r.ecc ≠ 2 → r.line ∉ s.drc.poisoned →
        Completes (.dramRequest r) s fun t =>
          .dramData r.channel r.line false (cellsRead dramDefault s.dram (64 * r.line) 64) ∈ t.out
          ∧ t.drc.ce = (if r.ecc = 1 then (s.drc.ce + 1) % 2 ^ 64 else s.drc.ce) ∧ t.drc.ue = s.drc.ue ∧ Frame [.drc, .evr] s t)
      ∧ (r.ecc = 2 ∨ r.line ∈ s.drc.poisoned → r.slot = none → r.copyElsewhere = true →
        Completes (.dramRequest r) s fun t =>
          .dramData r.channel r.line true (cellsRead dramDefault s.dram (64 * r.line) 64) ∈ t.out
          ∧ t.drc.ue = (s.drc.ue + 1) % 2 ^ 64 ∧ Frame [.drc] s t)
      ∧ (∀ (n : Nat) (e : StEntry), r.ecc = 2 ∨ r.line ∈ s.drc.poisoned → r.slot = some n →
        (s.ing.staging.find? fun x => x.slot == n) = some e →
        (s.peer.role = .active → s.peer.linkUp = true → e.st ≠ .filling →
          Completes (.dramRequest r) s fun t =>
            .mirrorRead e.nsid e.lba e.gen ∈ t.out ∧ (r.copyElsewhere = true → Frame [.drc] s t)
            ∧ (r.copyElsewhere = false → ∀ x, (t.ing.staging.find? fun x => x.slot == n) = some x → x.bad = true))
        ∧ (s.peer.role ≠ .active ∨ s.peer.linkUp = false ∨ e.st = .filling →
          Completes (.dramRequest r) s fun t =>
            (∀ x y z, .mirrorRead x y z ∉ t.out) ∧ (r.cmd = none → Frame [.drc, .evr, .ing] s t)))
      ∧ (∀ (id : Nat) (d : Cmd) (p : Qp), r.ecc = 2 ∨ r.line ∈ s.drc.poisoned → r.slot = none → r.copyElsewhere = false → r.cmd = some id →
        Outstanding s id d p →
        (d.op ≠ 0x81 → d.op ≠ 0x82 → r.block = none ∨ d.stage ≠ .reading →
          Completes (.dramRequest r) s fun t => Ended d p 0x7010 false 0 0 t ∧ Frame [.drc, .evr, .hqe, .hep] s t)
        ∧ (∀ b : Nat, r.block = some b → d.stage = .reading → b < d.nblk → d.id = id →
          Completes (.dramRequest r) s fun t =>
            (∀ x ∈ scatter d.bufs (4096 * b) (freeLong 4096 s), .hostPoison d.q.f.port (BitVec.ofNat 64 x.1) x.2 ∈ t.out)
            ∧ (∃ e, cmdOf t id = some e ∧ e.good = min b d.good ∧ (b < d.good → e.status = 0x3001) ∧ (d.good ≤ b → e.status = d.status))
            ∧ Frame [.drc, .evr, .hqe, .freeCtr] s t)))

/-! ### The event recorder -/

/-- R394, R395, R396, R400, R401: an offered record is held before the ring accepts records, four for each block; afterwards it
is suppressed beyond its pair's limit, refused at its severity's limit, and otherwise enters the ring under the next number.
R396, R401, R403, R404, R408: a second boundary reports what was suppressed; the base lies above every number that the NOR
holds, and the held records follow SESSION; a completed program stands in the NOR and its records wait no more; a read
channel copies a record, or says that it is not issued yet or no longer in the ring. The commands said to complete (exec
answers next), on conditions on the state and the operands alone: eventOffered, secondBoundary, sequenceBaseSet,
norRecordProgramDone, evrReadRequest. -/
def Obligations.EventRecorder : Prop :=
  (
    ∀ (s : State) (e : OfferedEvent) (r : EvRec), (Instr.eventOffered e).wf = true →
      newRec e.blk e.sev (.listed e.code) [] e.payload s = r →
      (s.evr.accepts = false →
        Completes (.eventOffered e) s fun t =>
          ((s.evr.held.filter fun h => h.blk == e.blk).length < 4 → t.evr = { s.evr with held := s.evr.held ++ [r] })
          ∧ (4 ≤ (s.evr.held.filter fun h => h.blk == e.blk).length →
              t.evr.held = s.evr.held ∧ t.evr.ring = s.evr.ring ∧ t.evr.refused = s.evr.refused.add e.sev 0xFF)
          ∧ t.out = [] ∧ Frame [.evr] s t)
      ∧ (s.evr.accepts = true → secondLimit s.evr e.sev ≠ 0 →
        secondLimit s.evr e.sev ≤ pairCount s.evr e.blk (.listed e.code) → s.evr.lost.isZero = true →
        Completes (.eventOffered e) s fun t =>
          t.evr.ring = s.evr.ring ∧ t.evr.head = s.evr.head ∧ t.evr.counts = s.evr.counts
          ∧ t.evr.suppr = countSuppressed r s.evr.suppr ∧ t.out = [] ∧ Frame [.evr] s t)
      ∧ (s.evr.accepts = true → s.evr.baseSet = true →
        secondLimit s.evr e.sev = 0 ∨ pairCount s.evr e.blk (.listed e.code) < secondLimit s.evr e.sev →
        (pendingCount s.evr.ring < ringLimit e.sev → s.evr.lost.isZero = true →
          Completes (.eventOffered e) s fun t =>
            t.evr.head = s.evr.head + 1 ∧ t.evr.ring = makeRoom s.evr.ring ++ [{ r with seq := some s.evr.head, pending := true }]
            ∧ t.evr.refused = s.evr.refused ∧ t.out = [] ∧ Frame [.evr] s t)
        ∧ (ringLimit e.sev ≤ pendingCount s.evr.ring →
          Completes (.eventOffered e) s fun t =>
            t.evr.head = s.evr.head ∧ t.evr.ring = s.evr.ring ∧ t.evr.refused = s.evr.refused.add e.sev 0xFF
            ∧ t.evr.lost = s.evr.lost.add e.sev 0xFFFFFFFF ∧ t.out = [] ∧ Frame [.evr] s t)))
  ∧ (
    (∀ s : State, s.evr.baseSet = true → pendingCount s.evr.ring + s.evr.suppr.length ≤ 768 → s.svc.authSecond = 0 →
      Completes .secondBoundary s fun t =>
        t.evr.counts = [] ∧ t.evr.suppr = [] ∧ t.evr.head = s.evr.head + s.evr.suppr.length
        ∧ (∀ p, s.evr.suppr.getLast? = some p →
            (t.evr.ring.getLast?.map fun x => (x.sev, x.code, x.payload)) = some (p.2.2.1, .listed 0x3403,
              leBytes 1 (blkNo p.1) ++ leBytes 2 (p.2.1.num p.1) ++ leBytes 4 p.2.2.2 ++ leBytes 4 s.evr.supSecond.toNat))
        ∧ t.out = [] ∧ Frame [.evr] s t)
    ∧ (∀ s : State, s.svc.authSecond ≠ 0 →
      Completes .secondBoundary s fun t => t.svc = { s.svc with authSecond := 0 } ∧ t.out = [] ∧ Frame [.evr, .svc] s t)
    ∧ (∀ s : State, s.evr.baseSet = true → exec .sequenceBaseSet s = .next s.quiet)
    ∧ (∀ s : State, s.evr.baseSet = false → s.evr.accepts = true → s.pins.coresOut = true → badSlots s = [] → s.evr.ring.length ≤ 1022 →
      Completes .sequenceBaseSet s fun t =>
        ∀ b, b = (if norHighest s = 0 then 1 else norHighest s + 4096) →
          t.evr.baseSet = true ∧ t.evr.norSeq = norHighest s ∧ t.evr.head = b + 1 + s.evr.ring.length
          ∧ (t.evr.ring.map fun x => x.seq) = (List.range (s.evr.ring.length + 1)).map (fun i => some (b + i))
          ∧ (t.evr.ring.head?.map fun x => x.code) = some (.listed 0x3401)
          ∧ (∀ k i v, (k, i) ∈ usedSlots s.nor → slotRecord s k i = some v → v.1 < b) ∧ (∀ o ∈ t.out, ∃ a, o = .norIssue true a)
          ∧ Frame [.evr, .nvc] s t)
    ∧ (∀ (s : State) (o : NorOp), s.nvc.running = some o → o.drain = true → o.erase = false → 0 < s.evr.inFlight →
      s.evr.inFlight ≤ (pendingRecs s.evr).length → o.addr = slotAddr s.evr.sector s.evr.slot →
      o.data = ((pendingRecs s.evr).take s.evr.inFlight).flatMap EvRec.bytes → s.evr.lost.isZero = true → 3 ≤ (erasedSectors s).length →
      Memory.wf norDefault s.nor = true → norOpen s = true →
      Completes .norRecordProgramDone s fun t =>
        (∀ i e, i < s.evr.inFlight → (pendingRecs s.evr)[i]? = some e → norRead t (slotAddr s.evr.sector (s.evr.slot + i)) 64 = e.bytes)
        ∧ pendingRecs t.evr = (pendingRecs s.evr).drop s.evr.inFlight ∧ t.evr.head = s.evr.head ∧ Frame [.evr, .nor, .nvc] s t)
    ∧ (∀ s : State, s.nvc.running = none → s.nvc.suspended = none → s.nvc.reads = [] → drainAllowed s = true → s.evr.inFlight = 0 →
      pendingRecs s.evr ≠ [] → 0 < s.evr.sectorSeq → s.evr.slot < 960 →
      (∀ a, slotAddr s.evr.sector s.evr.slot ≤ a → a < slotAddr s.evr.sector s.evr.slot + 256 → cellRead norDefault s.nor a = 0xFF) →
      s.evr.lost.isZero = true → 3 ≤ (erasedSectors s).length → Memory.wf norDefault s.nor = true →
      Completes .norRecordProgramDone s fun t =>
        ∀ n, n = min (pendingRecs s.evr).length (min (4 - s.evr.slot % 4) (960 - s.evr.slot)) →
          .norIssue false (slotAddr s.evr.sector s.evr.slot) ∈ t.out
          ∧ (∀ i e, i < n → (pendingRecs s.evr)[i]? = some e → norRead t (slotAddr s.evr.sector (s.evr.slot + i)) 64 = e.bytes)
          ∧ pendingRecs t.evr = (pendingRecs s.evr).drop n ∧ Frame [.evr, .nor, .nvc] s t)
    ∧ (∀ (s : State) (p : Fin 2) (u : Word32) (n : Nat), n = u.toNat * 2 ^ 32 + (rdChan s.evr p).low.toNat →
      Completes (.evrReadRequest p u) s fun t =>
        (s.evr.head ≤ n → (rdChan t.evr p).result = 1)
        ∧ (n < s.evr.head → ∀ e, (s.evr.ring.find? fun x => x.seq == some n) = some e →
            (rdChan t.evr p).result = 0 ∧ (rdChan t.evr p).win = e.bytes)
        ∧ (n < s.evr.head → (∀ e ∈ s.evr.ring, e.seq ≠ some n) → (rdChan t.evr p).result = 2)
        ∧ (rdChan t.evr p).done = true ∧ (rdChan t.evr p).low = (rdChan s.evr p).low
        ∧ rdChan t.evr (1 - p) = rdChan s.evr (1 - p) ∧ t.evr.ring = s.evr.ring ∧ t.out = [] ∧ Frame [.evr] s t))

/-! ### The service port -/

/-- R411 to R413, R415, R427: a frame of a chip in reset, or with a bad CRC, gets nothing; a repeated SEQ its response again, or
IN_PROGRESS while its request runs; a request in a state that the table does not allow STATE; a keyed one AUTH_UNAVAILABLE
without the vault, and AUTH where its tag or SEQ fails or it should be keyed. An unlisted type gets STATE. The commands said
to complete (exec answers next), on conditions on the state and the operands alone: dweunoUnlistedFrame, dweunoHello,
svcRxLockChange. -/
def Obligations.FramesAreAnswered : Prop :=
  (∀ (s : State) (f : DwFrame) (i : Instr) (l : List Service) (k : Bool), SvcCommand f i l k → i.wf = true →
    (portHears s f = false → exec i s = .next s.quiet)
    ∧ (portHears s f = true →
      (∀ (y : Byte) (st : Word16) (p : Bytes), s.svc.stored = some (f.seq, y, st, p) →
        Completes i s fun t => t.out = [.dweuno y f.seq st p] ∧ Frame [] s t)
      ∧ (∀ y : Byte, s.svc.busy = some (f.seq, y) → s.svc.stored.map (·.1) ≠ some f.seq →
        Completes i s fun t => t.out = [.dweuno y f.seq 1 []] ∧ Frame [] s t)
      ∧ (Fresh s f →
        (s.glb.service ∉ l → Completes i s fun t => Answers f 0x21 [] t ∧ Frame [.svc] s t)
        ∧ (s.glb.service ∈ l → s.glb.service ≠ .romService → keyedFrame f = true → s.sec.vault.out = true →
          Completes i s fun t => Answers f 0x24 [] t ∧ t.svc.authFail = s.svc.authFail ∧ Frame [.svc] s t)
        ∧ (s.glb.service ∈ l → s.glb.service ≠ .romService →
          (keyedFrame f = true ∧ s.sec.vault.out = false ∧ keyPasses s f = false)
            ∨ (keyedFrame f = false ∧ k = true ∧ (i = .keyset f → firstEnrolment s f = false)) →
          Completes i s fun t =>
            Answers f 0x20 [] t ∧ t.svc.authFail = min 0xFFFF (s.svc.authFail + 1) ∧ Frame [.svc] s t))))
  ∧ (∀ (s : State) (f : DwFrame), (Instr.dweunoUnlistedFrame f).wf = true → portHears s f = true →
    Fresh s f →
    Completes (.dweunoUnlistedFrame f) s fun t => Answers f 0x21 [] t ∧ Frame [.svc] s t)
  ∧ (∀ (s : State) (f : DwFrame), (Instr.dweunoHello f).wf = true → portHears s f = true →
    Fresh s f →
    (s.glb.service ≠ .startUp → keyedFrame f = false ∨ Asked s f →
      Completes (.dweunoHello f) s fun t =>
        Answers f 0 (helloPayload s t.svc.nonce) t ∧ t.svc.keyedSeq = none ∧ t.svc.nonce = freeBytes 8 s ∧ Frame [.svc, .freeCtr] s t)
    ∧ (s.glb.service = .startUp → bitOf f.flags.toNat 7 = true → s.pins.listening = true →
      Completes (.dweunoHello f) s fun t =>
        t.pins = { s.pins with svcRequest := true } ∧ t.svc.nonce = freeBytes 8 s ∧ Frame [.svc, .pins, .freeCtr] s t)
    ∧ (s.glb.service = .startUp → bitOf f.flags.toNat 7 = false ∨ s.pins.listening = false →
      Completes (.dweunoHello f) s fun t => Answers f 0x21 [] t ∧ Frame [.svc] s t))
  ∧ (∀ (s : State) (b : Bool), s.glb.powered = true → s.glb.resetHeld = false →
    Completes (.svcRxLockChange b) s fun t => t.svc = { s.svc with link := b } ∧ t.out = [] ∧ Frame [.svc] s t)

/-- R416, R418 to R421: STAGE BEGIN erases the bank that does not run, STAGE DATA programs it, STAGE END checks it, and until it
has ended OK the bank fails R416; ACTIVATE makes both boot headers prefer it, with the settings of the staged bank for the
next profile fit or forced. R53, R422: PROFILE SELECT sets or clears the override; PROFILE WRITE gathers a profile and stores
it when it passes R50. A field outside its range does nothing. The commands said to complete (exec answers next), on
conditions on the state and the operands alone: stageBegin, stageData, stageEnd, activate, profileSelect, profileWrite. -/
def Obligations.FirmwareAndProfiles : Prop :=
  (
    ∀ (s : State) (f : DwFrame), Asked s f → s.glb.service = .romService ∨ s.glb.service = .normal → s.nvc.halted = false →
      (∀ b : Bool, (Instr.stageBegin f).wf = true → s.svc.stage ≠ 3 → f.payload.length = 8 → numAt f.payload 0 1 = (if b then 1 else 0) →
        numAt f.payload 4 4 ≤ bankSize → s.glb.service = .romService ∨ b ≠ s.glb.bankB →
        Completes (.stageBegin f) s fun t =>
          Answers f 0 [] t ∧ t.svc.stage = 1 ∧ t.svc.stageBankB = b ∧ t.svc.stageLen = numAt f.payload 4 4 ∧ t.svc.stagedOk = false
          ∧ (∀ a, cellRead norDefault t.nor a
              = if bankAddr b ≤ a ∧ a < bankAddr b + bankSize then 0xFF else cellRead norDefault s.nor a)
          ∧ bankCheck t b ≠ 0 ∧ t.glb = (setUnfinished b true s).glb ∧ Frame [.svc, .nor, .glb] s t)
      ∧ (∀ a : Nat, (Instr.stageData f).wf = true → s.svc.stage = 1 → 4 ≤ f.payload.length →
        numAt f.payload 0 4 + (f.payload.length - 4) ≤ s.svc.stageLen → a = bankAddr s.svc.stageBankB + numAt f.payload 0 4 →
        (wouldSet (f.payload.drop 4) (norRead s a (f.payload.length - 4)) = false → Memory.wf norDefault s.nor = true →
          Completes (.stageData f) s fun t =>
            Answers f 0 [] t ∧ norRead t a (f.payload.length - 4) = f.payload.drop 4
            ∧ (∀ x, x < a ∨ a + (f.payload.length - 4) ≤ x → cellRead norDefault t.nor x = cellRead norDefault s.nor x)
            ∧ Frame [.svc, .nor] s t)
        ∧ (wouldSet (f.payload.drop 4) (norRead s a (f.payload.length - 4)) = true →
          Completes (.stageData f) s fun t =>
            Answers f 0 [] t ∧ t.nvc = { s.nvc with wrRefused := true } ∧ Frame [.svc, .nvc] s t))
      ∧ ((Instr.stageEnd f).wf = true → s.svc.stage = 1 →
        (∀ d, d = bankCheck (setUnfinished s.svc.stageBankB false s) s.svc.stageBankB → d ≠ 0 →
          Completes (.stageEnd f) s fun t =>
            Answers f 0x30 [BitVec.ofNat 8 d] t ∧ t.svc.stage = 0 ∧ t.svc.stagedOk = false ∧ Frame [.svc, .evr] s t)
        ∧ (bankCheck (setUnfinished s.svc.stageBankB false s) s.svc.stageBankB = 0 →
          Completes (.stageEnd f) s fun t =>
            Answers f 0 ((List.range 4).flatMap fun n => leBytes 8 (settingMask s s.svc.stageBankB n)) t
            ∧ t.svc.stage = 2 ∧ t.svc.stagedOk = true ∧ t.glb = (setUnfinished s.svc.stageBankB false s).glb ∧ Frame [.svc, .evr, .glb] s t))
      ∧ (∀ n m : Nat, (Instr.activate f).wf = true → s.svc.stage ≠ 1 → s.svc.stage ≠ 3 → s.svc.stagedOk = true → s.peer.pair0.inReset = false →
        f.payload = [BitVec.ofNat 8 n] → n < 8 →
        m = (if s.glb.ovrValid then s.glb.ovrSel else s.glb.pinSel).toNat →
        (n = 0 ∨ n = 1 ∨ n = 4 ∨ n = 5 → 4 ≤ n ∨ settingMask s s.svc.stageBankB m = 0 → bankCheck s s.svc.stageBankB = 0 →
          Completes (.activate f) s fun t =>
            Answers f 0 [] t ∧ norRead t 0 64 = buildHeader (activeHeader s) ∧ norRead t 0x10000 64 = buildHeader (activeHeader s)
            ∧ (∀ x, 0x20000 ≤ x → cellRead norDefault t.nor x = cellRead norDefault s.nor x)
            ∧ t.glb = { s.glb with resetPending := decide (n % 2 = 1) || s.glb.resetPending } ∧ Frame [.svc, .nor, .evr, .sec, .glb] s t)
        ∧ ((n = 0 ∨ n = 1) ∧ settingMask s s.svc.stageBankB m ≠ 0 ∨ n = 2 ∨ n = 6 ∨ (n = 3 ∨ n = 7) ∧ mayHandOver s = false →
          Completes (.activate f) s fun t => Answers f 0x31 [] t ∧ Frame [.svc] s t)
        ∧ (n = 3 ∨ n = 7 → 4 ≤ n ∨ settingMask s s.svc.stageBankB m = 0 → mayHandOver s = true → s.peer.role = .active →
          bankCheck s s.svc.stageBankB = 0 → s.til.current ≤ s.til.ckptSeq →
          Completes (.activate f) s fun t =>
            norRead t 0 64 = buildHeader (activeHeader s) ∧ t.svc.busy = some (f.seq, f.type) ∧ t.pair.swapWait = true
            ∧ t.pair.resetAfter = true ∧ t.out = [] ∧ t.glb = s.glb ∧ Frame [.svc, .nor, .evr, .sec, .pair] s t)
        ∧ (n = 4 ∨ n = 5 → bankCheck s s.svc.stageBankB ≠ 0 →
          Completes (.activate f) s fun t =>
            Answers f 0x30 [BitVec.ofNat 8 (bankCheck s s.svc.stageBankB)] t ∧ t.svc.stagedOk = false ∧ Frame [.svc, .evr] s t)))
  ∧ (
    ∀ (s : State) (f : DwFrame), Asked s f → s.glb.service ≠ .startUp →
      ((Instr.profileSelect f).wf = true → f.payload.length = 2 → numAt f.payload 0 1 ≤ 3 →
        (numAt f.payload 1 1 = 0 →
          Completes (.profileSelect f) s fun t =>
            Answers f 0 [] t ∧ t.glb = { s.glb with ovrValid := true, ovrSel := BitVec.ofNat 2 (numAt f.payload 0 1) } ∧ Frame [.glb, .svc] s t)
        ∧ (numAt f.payload 1 1 = 1 →
          Completes (.profileSelect f) s fun t =>
            Answers f 0 [] t ∧ t.glb = { s.glb with ovrValid := false, ovrSel := 0 } ∧ Frame [.glb, .svc] s t)
        ∧ (1 < numAt f.payload 1 1 → Completes (.profileSelect f) s fun t => Answers f 0x11 [] t ∧ Frame [.svc] s t))
      ∧ (∀ d : Bytes, (Instr.profileWrite f).wf = true → 8 ≤ f.payload.length → f.payload.drop 8 = d → numAt f.payload 0 1 ≤ 3 →
        numAt f.payload 4 4 + d.length ≤ 65536 →
        (s.svc.stage = 1 ∨ s.svc.stage = 3 → Completes (.profileWrite f) s fun t => Answers f 0x23 [] t ∧ Frame [.svc] s t)
        ∧ (s.svc.stage ≠ 1 → s.svc.stage ≠ 3 → numAt f.payload 1 1 = 0 →
          Completes (.profileWrite f) s fun t =>
            Answers f 0 [] t
            ∧ (∀ i, t.svc.profile.getD i 0 = if numAt f.payload 4 4 ≤ i ∧ i < numAt f.payload 4 4 + d.length
                then d.getD (i - numAt f.payload 4 4) 0 else s.svc.profile.getD i 0)
            ∧ Frame [.svc] s t)
        ∧ (s.svc.stage ≠ 1 → s.svc.stage ≠ 3 → numAt f.payload 1 1 = 1 → s.svc.profile = [] → numAt f.payload 4 4 = 0 → s.nvc.halted = false →
          ((checkProfile (padTo 65536 d) (numAt f.payload 0 1)).isSome = true →
            Completes (.profileWrite f) s fun t =>
              Answers f 0 [] t ∧ norRead t (profileAddr (numAt f.payload 0 1)) d.length = d
              ∧ (∀ x, x < profileAddr (numAt f.payload 0 1) ∨ profileAddr (numAt f.payload 0 1) + 0x10000 ≤ x →
                  cellRead norDefault t.nor x = cellRead norDefault s.nor x)
              ∧ Frame [.svc, .nor] s t)
          ∧ (checkProfile (padTo 65536 d) (numAt f.payload 0 1) = none →
            Completes (.profileWrite f) s fun t => Answers f 0x11 [] t ∧ Frame [.svc] s t))))

/-- R58, R384, R414, R415, R423, R425 to R427: what the other requests do when they are asked: RESET, EVENT READ, KEYSET, TAMPER
CLEAR, RE-ENUMERATE, RESHAPE, DRAM SWEEP, FUSE, TEST ENTRY and DEBUG ACCESS. The commands said to complete (exec answers
next), on conditions on the state and the operands alone: svcReset, eventRead, dramSweep, tamperClear, reEnumerate, reshape,
testEntry, fuse, keyset, debugAccess. -/
def Obligations.ServiceRequests : Prop :=
  (∀ (s : State) (f : DwFrame), Asked s f → s.glb.service ≠ .startUp →
    ((Instr.svcReset f).wf = true →
      Completes (.svcReset f) s fun t => Answers f 0 [] t ∧ t.glb = { s.glb with resetPending := true } ∧ Frame [.glb, .svc] s t)
    ∧ (∀ media, (Instr.eventRead f media).wf = true → f.payload.length = 11 → 1 ≤ numAt f.payload 8 2 → numAt f.payload 8 2 ≤ 63 →
      (numAt f.payload 10 1 = 0 →
        Completes (.eventRead f media) s fun t =>
          Answers f 0 (pickRecords (numAt f.payload 0 8) (numAt f.payload 8 2) (ringRecords s)).flatten t ∧ Frame [.svc] s t)
      ∧ (numAt f.payload 10 1 = 1 →
        Completes (.eventRead f media) s fun t =>
          Answers f 0 (pickRecords (numAt f.payload 0 8) (numAt f.payload 8 2) (norRecords s)).flatten t ∧ Frame [.svc] s t)
      ∧ (numAt f.payload 10 1 = 2 →
        Completes (.eventRead f media) s fun t =>
          (s.glb.service ≠ .normal → Answers f 0x21 [] t)
          ∧ (s.glb.service = .normal →
              Answers f 0 (pickRecords (numAt f.payload 0 8) (numAt f.payload 8 2) (media.map fun b => (recSeq b, b))).flatten t)
          ∧ Frame [.svc] s t)))
  ∧ (∀ (s : State) (f : DwFrame), Asked s f → s.glb.service = .romService → ∀ maps, (Instr.dramSweep f maps).wf = true →
    f.payload.length = 4 → numAt f.payload 0 1 ≤ 11 → numAt f.payload 1 1 ≤ 3 → numAt f.payload 2 1 ≤ 1 →
    numAt f.payload 3 1 ≤ (if numAt f.payload 2 1 = 0 then 2 else 5) → maps.length = (if numAt f.payload 2 1 = 0 then 1 else 20) →
    Completes (.dramSweep f maps) s fun t =>
      Answers f 0 maps.flatten t
      ∧ (∀ a, cellRead dramDefault t.dram a = if a / 256 % 12 = numAt f.payload 0 1 then 0 else cellRead dramDefault s.dram a)
      ∧ Frame [.svc, .dram] s t)
  ∧ (∀ (s : State) (f : DwFrame), Asked s f → s.glb.service = .normal →
    ((Instr.tamperClear f).wf = true → s.wch.pending = none →
      Completes (.tamperClear f) s fun t =>
        Answers f 0 [] t ∧ t.wch = { s.wch with pending := some (.other .clearTamper) } ∧ Frame [.svc, .wch] s t)
    ∧ ((Instr.reEnumerate f).wf = true →
      (s.mch.role = .master → pair2Up s = true →
        Completes (.reEnumerate f) s fun t =>
          Answers f 0 [] t ∧ t.mch.gen = s.mch.gen + 1 ∧ t.mch.enumOut = true ∧ t.mch.fedId = ownFedId s ∧ Frame [.svc, .mch] s t)
      ∧ (s.mch.role ≠ .master → Completes (.reEnumerate f) s fun t => Answers f 0x21 [] t ∧ Frame [.svc] s t))
    ∧ (∀ (n d : Nat) (l : Layout), (Instr.reshape f).wf = true → f.payload.length = 16 → numAt f.payload 0 1 = n → numAt f.payload 1 1 = d →
      n ≤ 2 → numAt f.payload 2 1 ≤ 1 →
      l = { id := s.par.nextLay, d := d, q := numAt f.payload 2 1 == 1,
            elig := (List.range 96).filter fun k => bitOf (numAt f.payload (4 + k / 8) 1) (k % 8) } →
      (s.peer.role = .service → Completes (.reshape f) s fun t => Answers f 0x21 [] t ∧ Frame [.svc] s t)
      ∧ (s.peer.role ≠ .service → reshapeRefused s n l = true →
        Completes (.reshape f) s fun t => Answers f 0x31 [] t ∧ Frame [.svc, .evr] s t)
      ∧ (s.peer.role ≠ .service → reshapeRefused s n l = false →
        Completes (.reshape f) s fun t =>
          Answers f 0 [] t ∧ slotLayout t n = l ∧ t.par.nextLay = s.par.nextLay + 1
          ∧ (∃ j ∈ t.par.jobs, j.id = s.par.nextJob ∧ j.kind = .reshape)
          ∧ Frame [.svc, .par, .med, .far, .til, .sec] s t))
    ∧ ((Instr.testEntry f).wf = true →
      (s.glb.debugOff = true → Completes (.testEntry f) s fun t => Answers f 0x22 [] t ∧ Frame [.svc] s t)
      ∧ (s.glb.debugOff = false → s.peer.role = .service → s.peer.pair0.inReset = false →
        Completes (.testEntry f) s fun t =>
          Answers f 0 [] t ∧ t.glb = { s.glb with service := .test } ∧ Frame [.svc, .glb, .pins, .sec, .rdm] s t)
      ∧ (s.glb.debugOff = false → s.peer.role ≠ .service →
        Completes (.testEntry f) s fun t => Answers f 0x21 [] t ∧ Frame [.svc, .evr] s t))
    ∧ ((Instr.fuse f).wf = true → f.payload.length = 8 → numAt f.payload 4 4 = 0xF05E9640 →
      (numAt f.payload 0 1 = 1 →
        Completes (.fuse f) s fun t => Answers f 0 [] t ∧ t.glb = { s.glb with debugOff := true } ∧ Frame [.svc, .glb, .evr] s t)
      ∧ (∀ i : Fin 4, numAt f.payload 0 1 = 2 → numAt f.payload 1 1 = i.val →
        (mayRevoke s i.val = true →
          Completes (.fuse f) s fun t =>
            Answers f 0 [] t ∧ t.glb = { s.glb with revoked := s.glb.revoked ||| BitVec.ofNat 4 (2 ^ i.val) } ∧ Frame [.svc, .glb, .evr] s t)
        ∧ (mayRevoke s i.val = false → Completes (.fuse f) s fun t => Answers f 0x31 [] t ∧ Frame [.svc] s t))))
  ∧ (∀ (s : State) (f : DwFrame) (n : Nat) (k : Bytes), (Instr.keyset f).wf = true → s.glb.service = .normal ∨ s.glb.service = .recovery →
    f.payload = leBytes 2 n ++ [BitVec.ofNat 8 0, 0] ++ leBytes 2 32 ++ k → k.length = 32 → keyedFrame f = false → portHears s f = true →
    Fresh s f → n = 0x1FF3 → (slotOf s n).state = .empty →
    Completes (.keyset f) s fun t =>
      Answers f 0 [] t ∧ (slotOf t n).state = .active ∧ (slotOf t n).material = k
      ∧ (∀ m, m ≠ n → slotOf t m = slotOf s m) ∧ Frame [.svc, .sec, .evr] s t)
  ∧ (∀ (s : State) (f : DwFrame) (n : Nat) (k : Bytes), Asked s f → (Instr.keyset f).wf = true →
    s.glb.service = .normal ∨ s.glb.service = .recovery → 6 ≤ f.payload.length → numAt f.payload 4 2 = f.payload.length - 6 →
    numAt f.payload 0 2 = n → numAt f.payload 2 1 = 1 → n ∈ deviceSlots → keysetKey s f = some k →
    (n ≠ 0x1FF0 ∨ s.peer.role ≠ .active →
      Completes (.keyset f) s fun t =>
        Answers f 0 [] t ∧ (slotOf t n).state = .active ∧ (slotOf t n).material = k
        ∧ (∀ m, m ≠ n → slotOf t m = slotOf s m) ∧ Frame [.svc, .sec, .evr] s t)
    ∧ (n = 0x1FF0 → s.peer.role = .active → Completes (.keyset f) s fun t => Answers f 0x31 [] t ∧ Frame [.svc] s t))
  ∧ (∀ (s : State) (f : DwFrame), Asked s f → (Instr.debugAccess f).wf = true →
    (s.glb.service ≠ .startUp → s.glb.debugOff = true →
      Completes (.debugAccess f) s fun t => Answers f 0x22 [] t ∧ Frame [.svc] s t)
    ∧ (s.glb.debugOff = false → s.glb.service ≠ .test →
      Completes (.debugAccess f) s fun t => Answers f 0x21 [] t ∧ Frame [.svc] s t)
    ∧ (s.glb.debugOff = false → s.glb.service = .test → f.payload.length = 16 →
      (numAt f.payload 8 1 = 0 → Completes (.debugAccess f) s fun t => ∃ v : Nat, Answers f 0 (leBytes 4 v) t
        ∧ v = readReturns { s with svc := { s.svc with keyedSeq := some f.seq }, out := [] } ⟨.debug, numAt f.payload 0 8, 32⟩)
      ∧ (numAt f.payload 8 1 = 1 → numAt f.payload 0 8 = 0x1400004 →
        Completes (.debugAccess f) s fun t =>
          Answers f 0 [] t ∧ t.nvc.tsus.toNat = numAt f.payload 12 4 % 256 ∧ Frame [.svc, .nvc] s t)))

/-! ### Every step -/

/-- A step takes the command at the front of the queue and is `exec` of it with the queue's rest; on an empty queue the block
idles (the model's choice, log entry 1). -/
def Obligations.StepRunsTheFront : Prop :=
  (∀ (c : Instr) (s : State), step { s with pending := c :: s.pending } = exec c s)
  ∧ (∀ s : State, s.pending = [] → step s = .next s)

/-- Every command of the table completes, in every state, when its operands are such as its row gives (`Instr.wf`): exec answers
a next state and leaves the queue alone; what that state holds, the other statements say row by row. Operands that no row
gives stop by name, and never answer a next state (the model's choice, log entry 3). -/
def Obligations.EveryCommandCompletes : Prop :=
  (∀ (i : Instr) (s : State), i.wf = true → ∃ t, exec i s = .next t ∧ t.pending = s.pending)
  ∧ (∀ (i : Instr) (s : State), i.wf = false → ∃ n, exec i s = .fault (.illFormed n))

/-- The state after reset has the canonical form and fresh command numbers, waits with an empty queue in START-UP, and holds the
reset values that R33 and the register tables give. -/
def Obligations.ResetIsCanonical : Prop :=
  Canonical State.reset ∧ FreshNumbers State.reset ∧ State.reset.pending = [] ∧ State.reset.glb.service = .startUp
  ∧ State.reset.hqe.cmds = [] ∧ State.reset.sec.slots = [] ∧ State.reset.glb.step = 0

/-- Every step keeps the canonical form of the memories and tables. Every step keeps the numbers of outstanding commands below
the next number, so that no two outstanding commands share one by admission. -/
def Obligations.StepsKeepTheForm : Prop :=
  (
    ∀ s t : State, Canonical s → step s = .next t → Canonical t)
  ∧ (
    ∀ s t : State, FreshNumbers s → step s = .next t → FreshNumbers t)

/-- R426, R427: no step clears a fuse or changes the serial number; and while DEBUG_OFF is 1 no step leads to TEST. -/
def Obligations.FusesAreOneTime : Prop :=
  ∀ s t : State, step s = .next t →
    FusesKept s t ∧ (s.glb.debugOff = true → s.glb.service ≠ .test → t.glb.service ≠ .test)

/-- R58: each step changes the service state only as the table gives, and only TEST ENTRY leads to TEST. A step takes exactly the
front command from the queue and leaves the rest in order. The commands said to complete (exec answers next), on conditions
on the state and the operands alone: testEntry. -/
def Obligations.ServiceChangesFollowTheTable : Prop :=
  ∀ s t : State, step s = .next t →
    ServiceTable s.glb.service t.glb.service ∧ t.pending = s.pending.tail
    ∧ (s.glb.service ≠ .test → t.glb.service = .test → ∃ f, s.pending.head? = some (.testEntry f))
end

