-- ==== Sys2Proof/Laws/Ops.lean ====
section
/-! SUPPORT. What the shared operations can do: a well-formed command runs its effect, an iteration keeps what each of its
steps keeps, an event changes the recorder alone. -/

namespace Sys2Proof.Machine

/-- A well-formed command runs. -/
theorem run_of_wf {i : Instr} (h : i.wf = true) (f : State → State) (s : State) : run i f s = .next (f s.quiet) := by
  simp only [run, h, if_true, State.quiet]

/-- An ill-formed command stops. -/
theorem run_of_not_wf {i : Instr} (h : i.wf = false) (f : State → State) (s : State) :
    run i f s = .fault (.illFormed "operand outside its field") := by
  simp [run, h]

/-- A command that runs completes where its effect has the property. -/
theorem completes_of_run {i : Instr} {f : State → State} {s : State} {p : State → Prop} (he : exec i s = run i f s)
    (h : i.wf = true) (hp : p (f s.quiet)) : Completes i s p :=
  ⟨f s.quiet, he.trans (run_of_wf h f s), hp⟩

/-- An iteration keeps what each step keeps. -/
theorem forEach_keeps {α β : Type} (g : State → β) (f : α → State → State) (h : ∀ x s, g (f x s) = g s) (l : List α)
    (s : State) : g (forEach l f s) = g s := by
  induction l generalizing s with
  | nil => rfl
  | cons x xs ih => exact (ih (f x s)).trans (h x s)

/-- An iteration keeps a property that each step keeps. -/
theorem forEach_induct {α : Type} (p : State → Prop) (f : α → State → State) (h : ∀ x s, p s → p (f x s)) (l : List α)
    (s : State) (hs : p s) : p (forEach l f s) := by
  induction l generalizing s with
  | nil => exact hs
  | cons x xs ih => exact ih (f x s) (h x s hs)

theorem Frame.refl (l : List Part) (s : State) : Frame l s s := by
  intro p _ _; cases p <;> rfl

theorem Frame.trans {l : List Part} {s t u : State} (h : Frame l s t) (k : Frame l t u) : Frame l s u := by
  intro p hp ho
  have a := h p hp ho
  have b := k p hp ho
  cases p <;> exact Eq.trans b a

theorem Frame.mono {l m : List Part} {s t : State} (hs : ∀ p, p ∈ l → p ∈ m) (h : Frame l s t) : Frame m s t :=
  fun p hp ho => h p (fun hl => hp (hs p hl)) ho

/-- Past outputs are no part of a frame. -/
theorem Frame.quiet (l : List Part) (s : State) : Frame l s s.quiet := by
  intro p _ h; cases p <;> first | rfl | exact absurd rfl h

/-- An iteration stays within the frame of its steps. -/
theorem forEach_frame {α : Type} {l : List Part} {f : α → State → State} (h : ∀ x s, Frame l s (f x s)) (xs : List α)
    (s : State) : Frame l s (forEach xs f s) := by
  induction xs generalizing s with
  | nil => exact Frame.refl l s
  | cons x xs ih => exact (h x s).trans (ih (f x s))

/-! ### Events -/

theorem lostCheck_evr (s : State) : ∃ e, lostCheck s = { s with evr := e } := by
  unfold lostCheck; split
  · exact ⟨_, rfl⟩
  · exact ⟨s.evr, rfl⟩

/-- A record changes the recorder alone. -/
theorem offerRec_evr (e : EvRec) (s : State) : ∃ v, offerRec e s = { s with evr := v } := by
  unfold offerRec; split
  · obtain ⟨v, hv⟩ := lostCheck_evr { s with evr := limited e s.evr }
    exact ⟨v, hv⟩
  · split
    · exact ⟨_, rfl⟩
    · exact ⟨_, rfl⟩

theorem raise_evr (b : Blk) (v : Sev) (r n : Nat) (a : List Nat) (s : State) : ∃ e, raise b v r n a s = { s with evr := e } :=
  offerRec_evr _ s

theorem raiseListed_evr (b : Blk) (v : Sev) (c : Nat) (p : Bytes) (s : State) :
    ∃ e, raiseListed b v c p s = { s with evr := e } :=
  offerRec_evr _ s

theorem raiseIf_evr (c : Bool) (b : Blk) (v : Sev) (r n : Nat) (a : List Nat) (s : State) :
    ∃ e, raiseIf c b v r n a s = { s with evr := e } := by
  unfold raiseIf; split
  · exact raise_evr b v r n a s
  · exact ⟨s.evr, rfl⟩

/-! ### Choices among numbers and ways -/

/-- A search that finds nothing has met only used numbers. -/
theorem lowestFree_none {used : List Nat} {n k : Nat} (h : lowestFree used n k = none) : ∀ i, i < n → k + i ∈ used := by
  induction n generalizing k with
  | zero => intro i hi; omega
  | succ n ih =>
    by_cases hk : k ∈ used
    · intro i hi
      rcases i with _ | i
      · simpa using hk
      · have := ih (by simpa [lowestFree, hk] using h) i (by omega)
        rwa [Nat.add_right_comm, Nat.add_assoc] at this
    · simp [lowestFree, hk] at h

/-- A free number is found while fewer than `bound` are used. -/
theorem pickId_found {used : List Nat} {bound : Nat} (s : State) (h : used.length < bound) :
    ∃ id, pickId used bound s = some id := by
  by_contra hn
  have hn : pickId used bound s = none := by
    cases hp : pickId used bound s with
    | none => rfl
    | some x => exact absurd ⟨x, hp⟩ hn
  unfold pickId at hn
  cases h1 : lowestFree used (bound - freePick bound s) (freePick bound s) with
  | some x => simp [h1] at hn
  | none =>
    have h2 : lowestFree used (freePick bound s) 0 = none := by simpa [h1] using hn
    have hall : Finset.range bound ⊆ used.toFinset := by
      intro i hi
      rw [List.mem_toFinset]
      by_cases hk : i < freePick bound s
      · simpa using lowestFree_none h2 i hk
      · have := lowestFree_none h1 (i - freePick bound s) (by have := Finset.mem_range.mp hi; omega)
        rwa [Nat.add_sub_cancel' (by omega)] at this
    have h3 := Finset.card_le_card hall
    have h4 := used.toFinset_card_le
    simp at h3; omega

/-- Ways are found for blocks while all the slots held and asked for are at most the ways of a set. -/
theorem pickSlots_found (s : State) (nsid : Nat) : ∀ (n lba : Nat) (acc : List Nat),
    s.ing.staging.length + acc.length + n ≤ 8 → (pickSlots s nsid n lba acc).isSome = true
  | 0, _, _, _ => rfl
  | n + 1, lba, acc, h => by
    unfold pickSlots
    split
    · next w hw => exact pickSlots_found s nsid n (lba + 1) (acc ++ [w]) (by simp; omega)
    · next hw =>
      exfalso
      have hall : (Finset.range 8).image (fun w => 8 * setOf s nsid lba + w)
          ⊆ (s.ing.staging.map (·.slot) ++ acc).toFinset := by
        intro x hx
        obtain ⟨w, hw8, rfl⟩ := Finset.mem_image.mp hx
        rw [List.mem_toFinset, List.mem_append]
        by_contra hno
        push Not at hno
        have := List.find?_eq_none.mp hw (8 * setOf s nsid lba + w) (by
          simp only [freeWays, List.mem_filter, List.mem_map, List.mem_range]
          refine ⟨⟨w, Finset.mem_range.mp hw8, rfl⟩, ?_⟩
          simp only [Bool.not_eq_true', List.any_eq_false, beq_iff_eq]
          intro e he hs
          exact hno.1 (List.mem_map.mpr ⟨e, he, hs⟩))
        simp [hno.2] at this
      have h3 := Finset.card_le_card hall
      rw [Finset.card_image_of_injective _ (fun a b h => by simpa using h)] at h3
      have h4 := (s.ing.staging.map (·.slot) ++ acc).toFinset_card_le
      simp at h3 h4; omega

end Sys2Proof.Machine
end

