-- ==== Sys2Proof/Laws/State.lean ====
section
/-! SUPPORT. What the updates of State leave alone: one lemma for each other part, so that no proof unfolds a record update. -/

namespace Sys2Proof.Machine

/-! `State.quiet` touches `out` alone. -/

@[simp] theorem quiet_glb (s : State) : s.quiet.glb = s.glb := rfl
@[simp] theorem quiet_pins (s : State) : s.quiet.pins = s.pins := rfl
@[simp] theorem quiet_clk (s : State) : s.quiet.clk = s.clk := rfl
@[simp] theorem quiet_cache (s : State) : s.quiet.cache = s.cache := rfl
@[simp] theorem quiet_nvc (s : State) : s.quiet.nvc = s.nvc := rfl
@[simp] theorem quiet_wch (s : State) : s.quiet.wch = s.wch := rfl
@[simp] theorem quiet_hep (s : State) : s.quiet.hep = s.hep := rfl
@[simp] theorem quiet_hqe (s : State) : s.quiet.hqe = s.hqe := rfl
@[simp] theorem quiet_ing (s : State) : s.quiet.ing = s.ing := rfl
@[simp] theorem quiet_bal (s : State) : s.quiet.bal = s.bal := rfl
@[simp] theorem quiet_sec (s : State) : s.quiet.sec = s.sec := rfl
@[simp] theorem quiet_med (s : State) : s.quiet.med = s.med := rfl
@[simp] theorem quiet_plf (s : State) : s.quiet.plf = s.plf := rfl
@[simp] theorem quiet_far (s : State) : s.quiet.far = s.far := rfl
@[simp] theorem quiet_par (s : State) : s.quiet.par = s.par := rfl
@[simp] theorem quiet_til (s : State) : s.quiet.til = s.til := rfl
@[simp] theorem quiet_snp (s : State) : s.quiet.snp = s.snp := rfl
@[simp] theorem quiet_peer (s : State) : s.quiet.peer = s.peer := rfl
@[simp] theorem quiet_pair (s : State) : s.quiet.pair = s.pair := rfl
@[simp] theorem quiet_rdm (s : State) : s.quiet.rdm = s.rdm := rfl
@[simp] theorem quiet_mch (s : State) : s.quiet.mch = s.mch := rfl
@[simp] theorem quiet_drc (s : State) : s.quiet.drc = s.drc := rfl
@[simp] theorem quiet_evr (s : State) : s.quiet.evr = s.evr := rfl
@[simp] theorem quiet_svc (s : State) : s.quiet.svc = s.svc := rfl
@[simp] theorem quiet_nor (s : State) : s.quiet.nor = s.nor := rfl
@[simp] theorem quiet_dram (s : State) : s.quiet.dram = s.dram := rfl
@[simp] theorem quiet_freeCtr (s : State) : s.quiet.freeCtr = s.freeCtr := rfl
@[simp] theorem quiet_pending (s : State) : s.quiet.pending = s.pending := rfl

/-! `emit` touches `out` alone. -/

@[simp] theorem emit_glb (o : Output) (s : State) : (emit o s).glb = s.glb := rfl
@[simp] theorem emit_pins (o : Output) (s : State) : (emit o s).pins = s.pins := rfl
@[simp] theorem emit_clk (o : Output) (s : State) : (emit o s).clk = s.clk := rfl
@[simp] theorem emit_cache (o : Output) (s : State) : (emit o s).cache = s.cache := rfl
@[simp] theorem emit_nvc (o : Output) (s : State) : (emit o s).nvc = s.nvc := rfl
@[simp] theorem emit_wch (o : Output) (s : State) : (emit o s).wch = s.wch := rfl
@[simp] theorem emit_hep (o : Output) (s : State) : (emit o s).hep = s.hep := rfl
@[simp] theorem emit_hqe (o : Output) (s : State) : (emit o s).hqe = s.hqe := rfl
@[simp] theorem emit_ing (o : Output) (s : State) : (emit o s).ing = s.ing := rfl
@[simp] theorem emit_bal (o : Output) (s : State) : (emit o s).bal = s.bal := rfl
@[simp] theorem emit_sec (o : Output) (s : State) : (emit o s).sec = s.sec := rfl
@[simp] theorem emit_med (o : Output) (s : State) : (emit o s).med = s.med := rfl
@[simp] theorem emit_plf (o : Output) (s : State) : (emit o s).plf = s.plf := rfl
@[simp] theorem emit_far (o : Output) (s : State) : (emit o s).far = s.far := rfl
@[simp] theorem emit_par (o : Output) (s : State) : (emit o s).par = s.par := rfl
@[simp] theorem emit_til (o : Output) (s : State) : (emit o s).til = s.til := rfl
@[simp] theorem emit_snp (o : Output) (s : State) : (emit o s).snp = s.snp := rfl
@[simp] theorem emit_peer (o : Output) (s : State) : (emit o s).peer = s.peer := rfl
@[simp] theorem emit_pair (o : Output) (s : State) : (emit o s).pair = s.pair := rfl
@[simp] theorem emit_rdm (o : Output) (s : State) : (emit o s).rdm = s.rdm := rfl
@[simp] theorem emit_mch (o : Output) (s : State) : (emit o s).mch = s.mch := rfl
@[simp] theorem emit_drc (o : Output) (s : State) : (emit o s).drc = s.drc := rfl
@[simp] theorem emit_evr (o : Output) (s : State) : (emit o s).evr = s.evr := rfl
@[simp] theorem emit_svc (o : Output) (s : State) : (emit o s).svc = s.svc := rfl
@[simp] theorem emit_nor (o : Output) (s : State) : (emit o s).nor = s.nor := rfl
@[simp] theorem emit_dram (o : Output) (s : State) : (emit o s).dram = s.dram := rfl
@[simp] theorem emit_freeCtr (o : Output) (s : State) : (emit o s).freeCtr = s.freeCtr := rfl
@[simp] theorem emit_pending (o : Output) (s : State) : (emit o s).pending = s.pending := rfl

/-! `tick` touches `freeCtr` alone. -/

@[simp] theorem tick_glb (s : State) : (tick s).glb = s.glb := rfl
@[simp] theorem tick_pins (s : State) : (tick s).pins = s.pins := rfl
@[simp] theorem tick_clk (s : State) : (tick s).clk = s.clk := rfl
@[simp] theorem tick_cache (s : State) : (tick s).cache = s.cache := rfl
@[simp] theorem tick_nvc (s : State) : (tick s).nvc = s.nvc := rfl
@[simp] theorem tick_wch (s : State) : (tick s).wch = s.wch := rfl
@[simp] theorem tick_hep (s : State) : (tick s).hep = s.hep := rfl
@[simp] theorem tick_hqe (s : State) : (tick s).hqe = s.hqe := rfl
@[simp] theorem tick_ing (s : State) : (tick s).ing = s.ing := rfl
@[simp] theorem tick_bal (s : State) : (tick s).bal = s.bal := rfl
@[simp] theorem tick_sec (s : State) : (tick s).sec = s.sec := rfl
@[simp] theorem tick_med (s : State) : (tick s).med = s.med := rfl
@[simp] theorem tick_plf (s : State) : (tick s).plf = s.plf := rfl
@[simp] theorem tick_far (s : State) : (tick s).far = s.far := rfl
@[simp] theorem tick_par (s : State) : (tick s).par = s.par := rfl
@[simp] theorem tick_til (s : State) : (tick s).til = s.til := rfl
@[simp] theorem tick_snp (s : State) : (tick s).snp = s.snp := rfl
@[simp] theorem tick_peer (s : State) : (tick s).peer = s.peer := rfl
@[simp] theorem tick_pair (s : State) : (tick s).pair = s.pair := rfl
@[simp] theorem tick_rdm (s : State) : (tick s).rdm = s.rdm := rfl
@[simp] theorem tick_mch (s : State) : (tick s).mch = s.mch := rfl
@[simp] theorem tick_drc (s : State) : (tick s).drc = s.drc := rfl
@[simp] theorem tick_evr (s : State) : (tick s).evr = s.evr := rfl
@[simp] theorem tick_svc (s : State) : (tick s).svc = s.svc := rfl
@[simp] theorem tick_nor (s : State) : (tick s).nor = s.nor := rfl
@[simp] theorem tick_dram (s : State) : (tick s).dram = s.dram := rfl
@[simp] theorem tick_out (s : State) : (tick s).out = s.out := rfl
@[simp] theorem tick_pending (s : State) : (tick s).pending = s.pending := rfl

/-! `tickLong` touches `freeCtr` alone. -/

@[simp] theorem tickLong_glb (n : Nat) (s : State) : (tickLong n s).glb = s.glb := rfl
@[simp] theorem tickLong_pins (n : Nat) (s : State) : (tickLong n s).pins = s.pins := rfl
@[simp] theorem tickLong_clk (n : Nat) (s : State) : (tickLong n s).clk = s.clk := rfl
@[simp] theorem tickLong_cache (n : Nat) (s : State) : (tickLong n s).cache = s.cache := rfl
@[simp] theorem tickLong_nvc (n : Nat) (s : State) : (tickLong n s).nvc = s.nvc := rfl
@[simp] theorem tickLong_wch (n : Nat) (s : State) : (tickLong n s).wch = s.wch := rfl
@[simp] theorem tickLong_hep (n : Nat) (s : State) : (tickLong n s).hep = s.hep := rfl
@[simp] theorem tickLong_hqe (n : Nat) (s : State) : (tickLong n s).hqe = s.hqe := rfl
@[simp] theorem tickLong_ing (n : Nat) (s : State) : (tickLong n s).ing = s.ing := rfl
@[simp] theorem tickLong_bal (n : Nat) (s : State) : (tickLong n s).bal = s.bal := rfl
@[simp] theorem tickLong_sec (n : Nat) (s : State) : (tickLong n s).sec = s.sec := rfl
@[simp] theorem tickLong_med (n : Nat) (s : State) : (tickLong n s).med = s.med := rfl
@[simp] theorem tickLong_plf (n : Nat) (s : State) : (tickLong n s).plf = s.plf := rfl
@[simp] theorem tickLong_far (n : Nat) (s : State) : (tickLong n s).far = s.far := rfl
@[simp] theorem tickLong_par (n : Nat) (s : State) : (tickLong n s).par = s.par := rfl
@[simp] theorem tickLong_til (n : Nat) (s : State) : (tickLong n s).til = s.til := rfl
@[simp] theorem tickLong_snp (n : Nat) (s : State) : (tickLong n s).snp = s.snp := rfl
@[simp] theorem tickLong_peer (n : Nat) (s : State) : (tickLong n s).peer = s.peer := rfl
@[simp] theorem tickLong_pair (n : Nat) (s : State) : (tickLong n s).pair = s.pair := rfl
@[simp] theorem tickLong_rdm (n : Nat) (s : State) : (tickLong n s).rdm = s.rdm := rfl
@[simp] theorem tickLong_mch (n : Nat) (s : State) : (tickLong n s).mch = s.mch := rfl
@[simp] theorem tickLong_drc (n : Nat) (s : State) : (tickLong n s).drc = s.drc := rfl
@[simp] theorem tickLong_evr (n : Nat) (s : State) : (tickLong n s).evr = s.evr := rfl
@[simp] theorem tickLong_svc (n : Nat) (s : State) : (tickLong n s).svc = s.svc := rfl
@[simp] theorem tickLong_nor (n : Nat) (s : State) : (tickLong n s).nor = s.nor := rfl
@[simp] theorem tickLong_dram (n : Nat) (s : State) : (tickLong n s).dram = s.dram := rfl
@[simp] theorem tickLong_out (n : Nat) (s : State) : (tickLong n s).out = s.out := rfl
@[simp] theorem tickLong_pending (n : Nat) (s : State) : (tickLong n s).pending = s.pending := rfl

/-! `modCmd` touches `hqe` alone. -/

@[simp] theorem modCmd_glb (id : Nat) (f : Cmd → Cmd) (s : State) : (modCmd id f s).glb = s.glb := rfl
@[simp] theorem modCmd_pins (id : Nat) (f : Cmd → Cmd) (s : State) : (modCmd id f s).pins = s.pins := rfl
@[simp] theorem modCmd_clk (id : Nat) (f : Cmd → Cmd) (s : State) : (modCmd id f s).clk = s.clk := rfl
@[simp] theorem modCmd_cache (id : Nat) (f : Cmd → Cmd) (s : State) : (modCmd id f s).cache = s.cache := rfl
@[simp] theorem modCmd_nvc (id : Nat) (f : Cmd → Cmd) (s : State) : (modCmd id f s).nvc = s.nvc := rfl
@[simp] theorem modCmd_wch (id : Nat) (f : Cmd → Cmd) (s : State) : (modCmd id f s).wch = s.wch := rfl
@[simp] theorem modCmd_hep (id : Nat) (f : Cmd → Cmd) (s : State) : (modCmd id f s).hep = s.hep := rfl
@[simp] theorem modCmd_ing (id : Nat) (f : Cmd → Cmd) (s : State) : (modCmd id f s).ing = s.ing := rfl
@[simp] theorem modCmd_bal (id : Nat) (f : Cmd → Cmd) (s : State) : (modCmd id f s).bal = s.bal := rfl
@[simp] theorem modCmd_sec (id : Nat) (f : Cmd → Cmd) (s : State) : (modCmd id f s).sec = s.sec := rfl
@[simp] theorem modCmd_med (id : Nat) (f : Cmd → Cmd) (s : State) : (modCmd id f s).med = s.med := rfl
@[simp] theorem modCmd_plf (id : Nat) (f : Cmd → Cmd) (s : State) : (modCmd id f s).plf = s.plf := rfl
@[simp] theorem modCmd_far (id : Nat) (f : Cmd → Cmd) (s : State) : (modCmd id f s).far = s.far := rfl
@[simp] theorem modCmd_par (id : Nat) (f : Cmd → Cmd) (s : State) : (modCmd id f s).par = s.par := rfl
@[simp] theorem modCmd_til (id : Nat) (f : Cmd → Cmd) (s : State) : (modCmd id f s).til = s.til := rfl
@[simp] theorem modCmd_snp (id : Nat) (f : Cmd → Cmd) (s : State) : (modCmd id f s).snp = s.snp := rfl
@[simp] theorem modCmd_peer (id : Nat) (f : Cmd → Cmd) (s : State) : (modCmd id f s).peer = s.peer := rfl
@[simp] theorem modCmd_pair (id : Nat) (f : Cmd → Cmd) (s : State) : (modCmd id f s).pair = s.pair := rfl
@[simp] theorem modCmd_rdm (id : Nat) (f : Cmd → Cmd) (s : State) : (modCmd id f s).rdm = s.rdm := rfl
@[simp] theorem modCmd_mch (id : Nat) (f : Cmd → Cmd) (s : State) : (modCmd id f s).mch = s.mch := rfl
@[simp] theorem modCmd_drc (id : Nat) (f : Cmd → Cmd) (s : State) : (modCmd id f s).drc = s.drc := rfl
@[simp] theorem modCmd_evr (id : Nat) (f : Cmd → Cmd) (s : State) : (modCmd id f s).evr = s.evr := rfl
@[simp] theorem modCmd_svc (id : Nat) (f : Cmd → Cmd) (s : State) : (modCmd id f s).svc = s.svc := rfl
@[simp] theorem modCmd_nor (id : Nat) (f : Cmd → Cmd) (s : State) : (modCmd id f s).nor = s.nor := rfl
@[simp] theorem modCmd_dram (id : Nat) (f : Cmd → Cmd) (s : State) : (modCmd id f s).dram = s.dram := rfl
@[simp] theorem modCmd_freeCtr (id : Nat) (f : Cmd → Cmd) (s : State) : (modCmd id f s).freeCtr = s.freeCtr := rfl
@[simp] theorem modCmd_out (id : Nat) (f : Cmd → Cmd) (s : State) : (modCmd id f s).out = s.out := rfl
@[simp] theorem modCmd_pending (id : Nat) (f : Cmd → Cmd) (s : State) : (modCmd id f s).pending = s.pending := rfl

/-! `dropCmd` touches `hqe` alone. -/

@[simp] theorem dropCmd_glb (id : Nat) (s : State) : (dropCmd id s).glb = s.glb := rfl
@[simp] theorem dropCmd_pins (id : Nat) (s : State) : (dropCmd id s).pins = s.pins := rfl
@[simp] theorem dropCmd_clk (id : Nat) (s : State) : (dropCmd id s).clk = s.clk := rfl
@[simp] theorem dropCmd_cache (id : Nat) (s : State) : (dropCmd id s).cache = s.cache := rfl
@[simp] theorem dropCmd_nvc (id : Nat) (s : State) : (dropCmd id s).nvc = s.nvc := rfl
@[simp] theorem dropCmd_wch (id : Nat) (s : State) : (dropCmd id s).wch = s.wch := rfl
@[simp] theorem dropCmd_hep (id : Nat) (s : State) : (dropCmd id s).hep = s.hep := rfl
@[simp] theorem dropCmd_ing (id : Nat) (s : State) : (dropCmd id s).ing = s.ing := rfl
@[simp] theorem dropCmd_bal (id : Nat) (s : State) : (dropCmd id s).bal = s.bal := rfl
@[simp] theorem dropCmd_sec (id : Nat) (s : State) : (dropCmd id s).sec = s.sec := rfl
@[simp] theorem dropCmd_med (id : Nat) (s : State) : (dropCmd id s).med = s.med := rfl
@[simp] theorem dropCmd_plf (id : Nat) (s : State) : (dropCmd id s).plf = s.plf := rfl
@[simp] theorem dropCmd_far (id : Nat) (s : State) : (dropCmd id s).far = s.far := rfl
@[simp] theorem dropCmd_par (id : Nat) (s : State) : (dropCmd id s).par = s.par := rfl
@[simp] theorem dropCmd_til (id : Nat) (s : State) : (dropCmd id s).til = s.til := rfl
@[simp] theorem dropCmd_snp (id : Nat) (s : State) : (dropCmd id s).snp = s.snp := rfl
@[simp] theorem dropCmd_peer (id : Nat) (s : State) : (dropCmd id s).peer = s.peer := rfl
@[simp] theorem dropCmd_pair (id : Nat) (s : State) : (dropCmd id s).pair = s.pair := rfl
@[simp] theorem dropCmd_rdm (id : Nat) (s : State) : (dropCmd id s).rdm = s.rdm := rfl
@[simp] theorem dropCmd_mch (id : Nat) (s : State) : (dropCmd id s).mch = s.mch := rfl
@[simp] theorem dropCmd_drc (id : Nat) (s : State) : (dropCmd id s).drc = s.drc := rfl
@[simp] theorem dropCmd_evr (id : Nat) (s : State) : (dropCmd id s).evr = s.evr := rfl
@[simp] theorem dropCmd_svc (id : Nat) (s : State) : (dropCmd id s).svc = s.svc := rfl
@[simp] theorem dropCmd_nor (id : Nat) (s : State) : (dropCmd id s).nor = s.nor := rfl
@[simp] theorem dropCmd_dram (id : Nat) (s : State) : (dropCmd id s).dram = s.dram := rfl
@[simp] theorem dropCmd_freeCtr (id : Nat) (s : State) : (dropCmd id s).freeCtr = s.freeCtr := rfl
@[simp] theorem dropCmd_out (id : Nat) (s : State) : (dropCmd id s).out = s.out := rfl
@[simp] theorem dropCmd_pending (id : Nat) (s : State) : (dropCmd id s).pending = s.pending := rfl

/-! `modQp` touches `hqe` alone. -/

@[simp] theorem modQp_glb (k : QKey) (f : Qp → Qp) (s : State) : (modQp k f s).glb = s.glb := rfl
@[simp] theorem modQp_pins (k : QKey) (f : Qp → Qp) (s : State) : (modQp k f s).pins = s.pins := rfl
@[simp] theorem modQp_clk (k : QKey) (f : Qp → Qp) (s : State) : (modQp k f s).clk = s.clk := rfl
@[simp] theorem modQp_cache (k : QKey) (f : Qp → Qp) (s : State) : (modQp k f s).cache = s.cache := rfl
@[simp] theorem modQp_nvc (k : QKey) (f : Qp → Qp) (s : State) : (modQp k f s).nvc = s.nvc := rfl
@[simp] theorem modQp_wch (k : QKey) (f : Qp → Qp) (s : State) : (modQp k f s).wch = s.wch := rfl
@[simp] theorem modQp_hep (k : QKey) (f : Qp → Qp) (s : State) : (modQp k f s).hep = s.hep := rfl
@[simp] theorem modQp_ing (k : QKey) (f : Qp → Qp) (s : State) : (modQp k f s).ing = s.ing := rfl
@[simp] theorem modQp_bal (k : QKey) (f : Qp → Qp) (s : State) : (modQp k f s).bal = s.bal := rfl
@[simp] theorem modQp_sec (k : QKey) (f : Qp → Qp) (s : State) : (modQp k f s).sec = s.sec := rfl
@[simp] theorem modQp_med (k : QKey) (f : Qp → Qp) (s : State) : (modQp k f s).med = s.med := rfl
@[simp] theorem modQp_plf (k : QKey) (f : Qp → Qp) (s : State) : (modQp k f s).plf = s.plf := rfl
@[simp] theorem modQp_far (k : QKey) (f : Qp → Qp) (s : State) : (modQp k f s).far = s.far := rfl
@[simp] theorem modQp_par (k : QKey) (f : Qp → Qp) (s : State) : (modQp k f s).par = s.par := rfl
@[simp] theorem modQp_til (k : QKey) (f : Qp → Qp) (s : State) : (modQp k f s).til = s.til := rfl
@[simp] theorem modQp_snp (k : QKey) (f : Qp → Qp) (s : State) : (modQp k f s).snp = s.snp := rfl
@[simp] theorem modQp_peer (k : QKey) (f : Qp → Qp) (s : State) : (modQp k f s).peer = s.peer := rfl
@[simp] theorem modQp_pair (k : QKey) (f : Qp → Qp) (s : State) : (modQp k f s).pair = s.pair := rfl
@[simp] theorem modQp_rdm (k : QKey) (f : Qp → Qp) (s : State) : (modQp k f s).rdm = s.rdm := rfl
@[simp] theorem modQp_mch (k : QKey) (f : Qp → Qp) (s : State) : (modQp k f s).mch = s.mch := rfl
@[simp] theorem modQp_drc (k : QKey) (f : Qp → Qp) (s : State) : (modQp k f s).drc = s.drc := rfl
@[simp] theorem modQp_evr (k : QKey) (f : Qp → Qp) (s : State) : (modQp k f s).evr = s.evr := rfl
@[simp] theorem modQp_svc (k : QKey) (f : Qp → Qp) (s : State) : (modQp k f s).svc = s.svc := rfl
@[simp] theorem modQp_nor (k : QKey) (f : Qp → Qp) (s : State) : (modQp k f s).nor = s.nor := rfl
@[simp] theorem modQp_dram (k : QKey) (f : Qp → Qp) (s : State) : (modQp k f s).dram = s.dram := rfl
@[simp] theorem modQp_freeCtr (k : QKey) (f : Qp → Qp) (s : State) : (modQp k f s).freeCtr = s.freeCtr := rfl
@[simp] theorem modQp_out (k : QKey) (f : Qp → Qp) (s : State) : (modQp k f s).out = s.out := rfl
@[simp] theorem modQp_pending (k : QKey) (f : Qp → Qp) (s : State) : (modQp k f s).pending = s.pending := rfl

/-! `modTenant` touches `hqe` alone. -/

@[simp] theorem modTenant_glb (n : Nat) (f : Tenant → Tenant) (s : State) : (modTenant n f s).glb = s.glb := rfl
@[simp] theorem modTenant_pins (n : Nat) (f : Tenant → Tenant) (s : State) : (modTenant n f s).pins = s.pins := rfl
@[simp] theorem modTenant_clk (n : Nat) (f : Tenant → Tenant) (s : State) : (modTenant n f s).clk = s.clk := rfl
@[simp] theorem modTenant_cache (n : Nat) (f : Tenant → Tenant) (s : State) : (modTenant n f s).cache = s.cache := rfl
@[simp] theorem modTenant_nvc (n : Nat) (f : Tenant → Tenant) (s : State) : (modTenant n f s).nvc = s.nvc := rfl
@[simp] theorem modTenant_wch (n : Nat) (f : Tenant → Tenant) (s : State) : (modTenant n f s).wch = s.wch := rfl
@[simp] theorem modTenant_hep (n : Nat) (f : Tenant → Tenant) (s : State) : (modTenant n f s).hep = s.hep := rfl
@[simp] theorem modTenant_ing (n : Nat) (f : Tenant → Tenant) (s : State) : (modTenant n f s).ing = s.ing := rfl
@[simp] theorem modTenant_bal (n : Nat) (f : Tenant → Tenant) (s : State) : (modTenant n f s).bal = s.bal := rfl
@[simp] theorem modTenant_sec (n : Nat) (f : Tenant → Tenant) (s : State) : (modTenant n f s).sec = s.sec := rfl
@[simp] theorem modTenant_med (n : Nat) (f : Tenant → Tenant) (s : State) : (modTenant n f s).med = s.med := rfl
@[simp] theorem modTenant_plf (n : Nat) (f : Tenant → Tenant) (s : State) : (modTenant n f s).plf = s.plf := rfl
@[simp] theorem modTenant_far (n : Nat) (f : Tenant → Tenant) (s : State) : (modTenant n f s).far = s.far := rfl
@[simp] theorem modTenant_par (n : Nat) (f : Tenant → Tenant) (s : State) : (modTenant n f s).par = s.par := rfl
@[simp] theorem modTenant_til (n : Nat) (f : Tenant → Tenant) (s : State) : (modTenant n f s).til = s.til := rfl
@[simp] theorem modTenant_snp (n : Nat) (f : Tenant → Tenant) (s : State) : (modTenant n f s).snp = s.snp := rfl
@[simp] theorem modTenant_peer (n : Nat) (f : Tenant → Tenant) (s : State) : (modTenant n f s).peer = s.peer := rfl
@[simp] theorem modTenant_pair (n : Nat) (f : Tenant → Tenant) (s : State) : (modTenant n f s).pair = s.pair := rfl
@[simp] theorem modTenant_rdm (n : Nat) (f : Tenant → Tenant) (s : State) : (modTenant n f s).rdm = s.rdm := rfl
@[simp] theorem modTenant_mch (n : Nat) (f : Tenant → Tenant) (s : State) : (modTenant n f s).mch = s.mch := rfl
@[simp] theorem modTenant_drc (n : Nat) (f : Tenant → Tenant) (s : State) : (modTenant n f s).drc = s.drc := rfl
@[simp] theorem modTenant_evr (n : Nat) (f : Tenant → Tenant) (s : State) : (modTenant n f s).evr = s.evr := rfl
@[simp] theorem modTenant_svc (n : Nat) (f : Tenant → Tenant) (s : State) : (modTenant n f s).svc = s.svc := rfl
@[simp] theorem modTenant_nor (n : Nat) (f : Tenant → Tenant) (s : State) : (modTenant n f s).nor = s.nor := rfl
@[simp] theorem modTenant_dram (n : Nat) (f : Tenant → Tenant) (s : State) : (modTenant n f s).dram = s.dram := rfl
@[simp] theorem modTenant_freeCtr (n : Nat) (f : Tenant → Tenant) (s : State) : (modTenant n f s).freeCtr = s.freeCtr := rfl
@[simp] theorem modTenant_out (n : Nat) (f : Tenant → Tenant) (s : State) : (modTenant n f s).out = s.out := rfl
@[simp] theorem modTenant_pending (n : Nat) (f : Tenant → Tenant) (s : State) : (modTenant n f s).pending = s.pending := rfl

/-! `putVector` touches `hep` alone. -/

@[simp] theorem putVector_glb (e : Vector_) (s : State) : (putVector e s).glb = s.glb := rfl
@[simp] theorem putVector_pins (e : Vector_) (s : State) : (putVector e s).pins = s.pins := rfl
@[simp] theorem putVector_clk (e : Vector_) (s : State) : (putVector e s).clk = s.clk := rfl
@[simp] theorem putVector_cache (e : Vector_) (s : State) : (putVector e s).cache = s.cache := rfl
@[simp] theorem putVector_nvc (e : Vector_) (s : State) : (putVector e s).nvc = s.nvc := rfl
@[simp] theorem putVector_wch (e : Vector_) (s : State) : (putVector e s).wch = s.wch := rfl
@[simp] theorem putVector_hqe (e : Vector_) (s : State) : (putVector e s).hqe = s.hqe := rfl
@[simp] theorem putVector_ing (e : Vector_) (s : State) : (putVector e s).ing = s.ing := rfl
@[simp] theorem putVector_bal (e : Vector_) (s : State) : (putVector e s).bal = s.bal := rfl
@[simp] theorem putVector_sec (e : Vector_) (s : State) : (putVector e s).sec = s.sec := rfl
@[simp] theorem putVector_med (e : Vector_) (s : State) : (putVector e s).med = s.med := rfl
@[simp] theorem putVector_plf (e : Vector_) (s : State) : (putVector e s).plf = s.plf := rfl
@[simp] theorem putVector_far (e : Vector_) (s : State) : (putVector e s).far = s.far := rfl
@[simp] theorem putVector_par (e : Vector_) (s : State) : (putVector e s).par = s.par := rfl
@[simp] theorem putVector_til (e : Vector_) (s : State) : (putVector e s).til = s.til := rfl
@[simp] theorem putVector_snp (e : Vector_) (s : State) : (putVector e s).snp = s.snp := rfl
@[simp] theorem putVector_peer (e : Vector_) (s : State) : (putVector e s).peer = s.peer := rfl
@[simp] theorem putVector_pair (e : Vector_) (s : State) : (putVector e s).pair = s.pair := rfl
@[simp] theorem putVector_rdm (e : Vector_) (s : State) : (putVector e s).rdm = s.rdm := rfl
@[simp] theorem putVector_mch (e : Vector_) (s : State) : (putVector e s).mch = s.mch := rfl
@[simp] theorem putVector_drc (e : Vector_) (s : State) : (putVector e s).drc = s.drc := rfl
@[simp] theorem putVector_evr (e : Vector_) (s : State) : (putVector e s).evr = s.evr := rfl
@[simp] theorem putVector_svc (e : Vector_) (s : State) : (putVector e s).svc = s.svc := rfl
@[simp] theorem putVector_nor (e : Vector_) (s : State) : (putVector e s).nor = s.nor := rfl
@[simp] theorem putVector_dram (e : Vector_) (s : State) : (putVector e s).dram = s.dram := rfl
@[simp] theorem putVector_freeCtr (e : Vector_) (s : State) : (putVector e s).freeCtr = s.freeCtr := rfl
@[simp] theorem putVector_out (e : Vector_) (s : State) : (putVector e s).out = s.out := rfl
@[simp] theorem putVector_pending (e : Vector_) (s : State) : (putVector e s).pending = s.pending := rfl

/-! `modEntry` touches `ing` alone. -/

@[simp] theorem modEntry_glb (n : Nat) (f : StEntry → StEntry) (s : State) : (modEntry n f s).glb = s.glb := rfl
@[simp] theorem modEntry_pins (n : Nat) (f : StEntry → StEntry) (s : State) : (modEntry n f s).pins = s.pins := rfl
@[simp] theorem modEntry_clk (n : Nat) (f : StEntry → StEntry) (s : State) : (modEntry n f s).clk = s.clk := rfl
@[simp] theorem modEntry_cache (n : Nat) (f : StEntry → StEntry) (s : State) : (modEntry n f s).cache = s.cache := rfl
@[simp] theorem modEntry_nvc (n : Nat) (f : StEntry → StEntry) (s : State) : (modEntry n f s).nvc = s.nvc := rfl
@[simp] theorem modEntry_wch (n : Nat) (f : StEntry → StEntry) (s : State) : (modEntry n f s).wch = s.wch := rfl
@[simp] theorem modEntry_hep (n : Nat) (f : StEntry → StEntry) (s : State) : (modEntry n f s).hep = s.hep := rfl
@[simp] theorem modEntry_hqe (n : Nat) (f : StEntry → StEntry) (s : State) : (modEntry n f s).hqe = s.hqe := rfl
@[simp] theorem modEntry_bal (n : Nat) (f : StEntry → StEntry) (s : State) : (modEntry n f s).bal = s.bal := rfl
@[simp] theorem modEntry_sec (n : Nat) (f : StEntry → StEntry) (s : State) : (modEntry n f s).sec = s.sec := rfl
@[simp] theorem modEntry_med (n : Nat) (f : StEntry → StEntry) (s : State) : (modEntry n f s).med = s.med := rfl
@[simp] theorem modEntry_plf (n : Nat) (f : StEntry → StEntry) (s : State) : (modEntry n f s).plf = s.plf := rfl
@[simp] theorem modEntry_far (n : Nat) (f : StEntry → StEntry) (s : State) : (modEntry n f s).far = s.far := rfl
@[simp] theorem modEntry_par (n : Nat) (f : StEntry → StEntry) (s : State) : (modEntry n f s).par = s.par := rfl
@[simp] theorem modEntry_til (n : Nat) (f : StEntry → StEntry) (s : State) : (modEntry n f s).til = s.til := rfl
@[simp] theorem modEntry_snp (n : Nat) (f : StEntry → StEntry) (s : State) : (modEntry n f s).snp = s.snp := rfl
@[simp] theorem modEntry_peer (n : Nat) (f : StEntry → StEntry) (s : State) : (modEntry n f s).peer = s.peer := rfl
@[simp] theorem modEntry_pair (n : Nat) (f : StEntry → StEntry) (s : State) : (modEntry n f s).pair = s.pair := rfl
@[simp] theorem modEntry_rdm (n : Nat) (f : StEntry → StEntry) (s : State) : (modEntry n f s).rdm = s.rdm := rfl
@[simp] theorem modEntry_mch (n : Nat) (f : StEntry → StEntry) (s : State) : (modEntry n f s).mch = s.mch := rfl
@[simp] theorem modEntry_drc (n : Nat) (f : StEntry → StEntry) (s : State) : (modEntry n f s).drc = s.drc := rfl
@[simp] theorem modEntry_evr (n : Nat) (f : StEntry → StEntry) (s : State) : (modEntry n f s).evr = s.evr := rfl
@[simp] theorem modEntry_svc (n : Nat) (f : StEntry → StEntry) (s : State) : (modEntry n f s).svc = s.svc := rfl
@[simp] theorem modEntry_nor (n : Nat) (f : StEntry → StEntry) (s : State) : (modEntry n f s).nor = s.nor := rfl
@[simp] theorem modEntry_dram (n : Nat) (f : StEntry → StEntry) (s : State) : (modEntry n f s).dram = s.dram := rfl
@[simp] theorem modEntry_freeCtr (n : Nat) (f : StEntry → StEntry) (s : State) : (modEntry n f s).freeCtr = s.freeCtr := rfl
@[simp] theorem modEntry_out (n : Nat) (f : StEntry → StEntry) (s : State) : (modEntry n f s).out = s.out := rfl
@[simp] theorem modEntry_pending (n : Nat) (f : StEntry → StEntry) (s : State) : (modEntry n f s).pending = s.pending := rfl

/-! `modRun` touches `ing` alone. -/

@[simp] theorem modRun_glb (id : Nat) (f : Run → Run) (s : State) : (modRun id f s).glb = s.glb := rfl
@[simp] theorem modRun_pins (id : Nat) (f : Run → Run) (s : State) : (modRun id f s).pins = s.pins := rfl
@[simp] theorem modRun_clk (id : Nat) (f : Run → Run) (s : State) : (modRun id f s).clk = s.clk := rfl
@[simp] theorem modRun_cache (id : Nat) (f : Run → Run) (s : State) : (modRun id f s).cache = s.cache := rfl
@[simp] theorem modRun_nvc (id : Nat) (f : Run → Run) (s : State) : (modRun id f s).nvc = s.nvc := rfl
@[simp] theorem modRun_wch (id : Nat) (f : Run → Run) (s : State) : (modRun id f s).wch = s.wch := rfl
@[simp] theorem modRun_hep (id : Nat) (f : Run → Run) (s : State) : (modRun id f s).hep = s.hep := rfl
@[simp] theorem modRun_hqe (id : Nat) (f : Run → Run) (s : State) : (modRun id f s).hqe = s.hqe := rfl
@[simp] theorem modRun_bal (id : Nat) (f : Run → Run) (s : State) : (modRun id f s).bal = s.bal := rfl
@[simp] theorem modRun_sec (id : Nat) (f : Run → Run) (s : State) : (modRun id f s).sec = s.sec := rfl
@[simp] theorem modRun_med (id : Nat) (f : Run → Run) (s : State) : (modRun id f s).med = s.med := rfl
@[simp] theorem modRun_plf (id : Nat) (f : Run → Run) (s : State) : (modRun id f s).plf = s.plf := rfl
@[simp] theorem modRun_far (id : Nat) (f : Run → Run) (s : State) : (modRun id f s).far = s.far := rfl
@[simp] theorem modRun_par (id : Nat) (f : Run → Run) (s : State) : (modRun id f s).par = s.par := rfl
@[simp] theorem modRun_til (id : Nat) (f : Run → Run) (s : State) : (modRun id f s).til = s.til := rfl
@[simp] theorem modRun_snp (id : Nat) (f : Run → Run) (s : State) : (modRun id f s).snp = s.snp := rfl
@[simp] theorem modRun_peer (id : Nat) (f : Run → Run) (s : State) : (modRun id f s).peer = s.peer := rfl
@[simp] theorem modRun_pair (id : Nat) (f : Run → Run) (s : State) : (modRun id f s).pair = s.pair := rfl
@[simp] theorem modRun_rdm (id : Nat) (f : Run → Run) (s : State) : (modRun id f s).rdm = s.rdm := rfl
@[simp] theorem modRun_mch (id : Nat) (f : Run → Run) (s : State) : (modRun id f s).mch = s.mch := rfl
@[simp] theorem modRun_drc (id : Nat) (f : Run → Run) (s : State) : (modRun id f s).drc = s.drc := rfl
@[simp] theorem modRun_evr (id : Nat) (f : Run → Run) (s : State) : (modRun id f s).evr = s.evr := rfl
@[simp] theorem modRun_svc (id : Nat) (f : Run → Run) (s : State) : (modRun id f s).svc = s.svc := rfl
@[simp] theorem modRun_nor (id : Nat) (f : Run → Run) (s : State) : (modRun id f s).nor = s.nor := rfl
@[simp] theorem modRun_dram (id : Nat) (f : Run → Run) (s : State) : (modRun id f s).dram = s.dram := rfl
@[simp] theorem modRun_freeCtr (id : Nat) (f : Run → Run) (s : State) : (modRun id f s).freeCtr = s.freeCtr := rfl
@[simp] theorem modRun_out (id : Nat) (f : Run → Run) (s : State) : (modRun id f s).out = s.out := rfl
@[simp] theorem modRun_pending (id : Nat) (f : Run → Run) (s : State) : (modRun id f s).pending = s.pending := rfl

/-! `modChunk` touches `ing` alone. -/

@[simp] theorem modChunk_glb (id : Nat) (f : Chunk → Chunk) (s : State) : (modChunk id f s).glb = s.glb := rfl
@[simp] theorem modChunk_pins (id : Nat) (f : Chunk → Chunk) (s : State) : (modChunk id f s).pins = s.pins := rfl
@[simp] theorem modChunk_clk (id : Nat) (f : Chunk → Chunk) (s : State) : (modChunk id f s).clk = s.clk := rfl
@[simp] theorem modChunk_cache (id : Nat) (f : Chunk → Chunk) (s : State) : (modChunk id f s).cache = s.cache := rfl
@[simp] theorem modChunk_nvc (id : Nat) (f : Chunk → Chunk) (s : State) : (modChunk id f s).nvc = s.nvc := rfl
@[simp] theorem modChunk_wch (id : Nat) (f : Chunk → Chunk) (s : State) : (modChunk id f s).wch = s.wch := rfl
@[simp] theorem modChunk_hep (id : Nat) (f : Chunk → Chunk) (s : State) : (modChunk id f s).hep = s.hep := rfl
@[simp] theorem modChunk_hqe (id : Nat) (f : Chunk → Chunk) (s : State) : (modChunk id f s).hqe = s.hqe := rfl
@[simp] theorem modChunk_bal (id : Nat) (f : Chunk → Chunk) (s : State) : (modChunk id f s).bal = s.bal := rfl
@[simp] theorem modChunk_sec (id : Nat) (f : Chunk → Chunk) (s : State) : (modChunk id f s).sec = s.sec := rfl
@[simp] theorem modChunk_med (id : Nat) (f : Chunk → Chunk) (s : State) : (modChunk id f s).med = s.med := rfl
@[simp] theorem modChunk_plf (id : Nat) (f : Chunk → Chunk) (s : State) : (modChunk id f s).plf = s.plf := rfl
@[simp] theorem modChunk_far (id : Nat) (f : Chunk → Chunk) (s : State) : (modChunk id f s).far = s.far := rfl
@[simp] theorem modChunk_par (id : Nat) (f : Chunk → Chunk) (s : State) : (modChunk id f s).par = s.par := rfl
@[simp] theorem modChunk_til (id : Nat) (f : Chunk → Chunk) (s : State) : (modChunk id f s).til = s.til := rfl
@[simp] theorem modChunk_snp (id : Nat) (f : Chunk → Chunk) (s : State) : (modChunk id f s).snp = s.snp := rfl
@[simp] theorem modChunk_peer (id : Nat) (f : Chunk → Chunk) (s : State) : (modChunk id f s).peer = s.peer := rfl
@[simp] theorem modChunk_pair (id : Nat) (f : Chunk → Chunk) (s : State) : (modChunk id f s).pair = s.pair := rfl
@[simp] theorem modChunk_rdm (id : Nat) (f : Chunk → Chunk) (s : State) : (modChunk id f s).rdm = s.rdm := rfl
@[simp] theorem modChunk_mch (id : Nat) (f : Chunk → Chunk) (s : State) : (modChunk id f s).mch = s.mch := rfl
@[simp] theorem modChunk_drc (id : Nat) (f : Chunk → Chunk) (s : State) : (modChunk id f s).drc = s.drc := rfl
@[simp] theorem modChunk_evr (id : Nat) (f : Chunk → Chunk) (s : State) : (modChunk id f s).evr = s.evr := rfl
@[simp] theorem modChunk_svc (id : Nat) (f : Chunk → Chunk) (s : State) : (modChunk id f s).svc = s.svc := rfl
@[simp] theorem modChunk_nor (id : Nat) (f : Chunk → Chunk) (s : State) : (modChunk id f s).nor = s.nor := rfl
@[simp] theorem modChunk_dram (id : Nat) (f : Chunk → Chunk) (s : State) : (modChunk id f s).dram = s.dram := rfl
@[simp] theorem modChunk_freeCtr (id : Nat) (f : Chunk → Chunk) (s : State) : (modChunk id f s).freeCtr = s.freeCtr := rfl
@[simp] theorem modChunk_out (id : Nat) (f : Chunk → Chunk) (s : State) : (modChunk id f s).out = s.out := rfl
@[simp] theorem modChunk_pending (id : Nat) (f : Chunk → Chunk) (s : State) : (modChunk id f s).pending = s.pending := rfl

/-! `modSeg` touches `med` alone. -/

@[simp] theorem modSeg_glb (n : Nat) (f : Seg → Seg) (s : State) : (modSeg n f s).glb = s.glb := rfl
@[simp] theorem modSeg_pins (n : Nat) (f : Seg → Seg) (s : State) : (modSeg n f s).pins = s.pins := rfl
@[simp] theorem modSeg_clk (n : Nat) (f : Seg → Seg) (s : State) : (modSeg n f s).clk = s.clk := rfl
@[simp] theorem modSeg_cache (n : Nat) (f : Seg → Seg) (s : State) : (modSeg n f s).cache = s.cache := rfl
@[simp] theorem modSeg_nvc (n : Nat) (f : Seg → Seg) (s : State) : (modSeg n f s).nvc = s.nvc := rfl
@[simp] theorem modSeg_wch (n : Nat) (f : Seg → Seg) (s : State) : (modSeg n f s).wch = s.wch := rfl
@[simp] theorem modSeg_hep (n : Nat) (f : Seg → Seg) (s : State) : (modSeg n f s).hep = s.hep := rfl
@[simp] theorem modSeg_hqe (n : Nat) (f : Seg → Seg) (s : State) : (modSeg n f s).hqe = s.hqe := rfl
@[simp] theorem modSeg_ing (n : Nat) (f : Seg → Seg) (s : State) : (modSeg n f s).ing = s.ing := rfl
@[simp] theorem modSeg_bal (n : Nat) (f : Seg → Seg) (s : State) : (modSeg n f s).bal = s.bal := rfl
@[simp] theorem modSeg_sec (n : Nat) (f : Seg → Seg) (s : State) : (modSeg n f s).sec = s.sec := rfl
@[simp] theorem modSeg_plf (n : Nat) (f : Seg → Seg) (s : State) : (modSeg n f s).plf = s.plf := rfl
@[simp] theorem modSeg_far (n : Nat) (f : Seg → Seg) (s : State) : (modSeg n f s).far = s.far := rfl
@[simp] theorem modSeg_par (n : Nat) (f : Seg → Seg) (s : State) : (modSeg n f s).par = s.par := rfl
@[simp] theorem modSeg_til (n : Nat) (f : Seg → Seg) (s : State) : (modSeg n f s).til = s.til := rfl
@[simp] theorem modSeg_snp (n : Nat) (f : Seg → Seg) (s : State) : (modSeg n f s).snp = s.snp := rfl
@[simp] theorem modSeg_peer (n : Nat) (f : Seg → Seg) (s : State) : (modSeg n f s).peer = s.peer := rfl
@[simp] theorem modSeg_pair (n : Nat) (f : Seg → Seg) (s : State) : (modSeg n f s).pair = s.pair := rfl
@[simp] theorem modSeg_rdm (n : Nat) (f : Seg → Seg) (s : State) : (modSeg n f s).rdm = s.rdm := rfl
@[simp] theorem modSeg_mch (n : Nat) (f : Seg → Seg) (s : State) : (modSeg n f s).mch = s.mch := rfl
@[simp] theorem modSeg_drc (n : Nat) (f : Seg → Seg) (s : State) : (modSeg n f s).drc = s.drc := rfl
@[simp] theorem modSeg_evr (n : Nat) (f : Seg → Seg) (s : State) : (modSeg n f s).evr = s.evr := rfl
@[simp] theorem modSeg_svc (n : Nat) (f : Seg → Seg) (s : State) : (modSeg n f s).svc = s.svc := rfl
@[simp] theorem modSeg_nor (n : Nat) (f : Seg → Seg) (s : State) : (modSeg n f s).nor = s.nor := rfl
@[simp] theorem modSeg_dram (n : Nat) (f : Seg → Seg) (s : State) : (modSeg n f s).dram = s.dram := rfl
@[simp] theorem modSeg_freeCtr (n : Nat) (f : Seg → Seg) (s : State) : (modSeg n f s).freeCtr = s.freeCtr := rfl
@[simp] theorem modSeg_out (n : Nat) (f : Seg → Seg) (s : State) : (modSeg n f s).out = s.out := rfl
@[simp] theorem modSeg_pending (n : Nat) (f : Seg → Seg) (s : State) : (modSeg n f s).pending = s.pending := rfl

/-! `modJobOf` touches `par` alone. -/

@[simp] theorem modJobOf_glb (id : Nat) (f : Job → Job) (s : State) : (modJobOf id f s).glb = s.glb := rfl
@[simp] theorem modJobOf_pins (id : Nat) (f : Job → Job) (s : State) : (modJobOf id f s).pins = s.pins := rfl
@[simp] theorem modJobOf_clk (id : Nat) (f : Job → Job) (s : State) : (modJobOf id f s).clk = s.clk := rfl
@[simp] theorem modJobOf_cache (id : Nat) (f : Job → Job) (s : State) : (modJobOf id f s).cache = s.cache := rfl
@[simp] theorem modJobOf_nvc (id : Nat) (f : Job → Job) (s : State) : (modJobOf id f s).nvc = s.nvc := rfl
@[simp] theorem modJobOf_wch (id : Nat) (f : Job → Job) (s : State) : (modJobOf id f s).wch = s.wch := rfl
@[simp] theorem modJobOf_hep (id : Nat) (f : Job → Job) (s : State) : (modJobOf id f s).hep = s.hep := rfl
@[simp] theorem modJobOf_hqe (id : Nat) (f : Job → Job) (s : State) : (modJobOf id f s).hqe = s.hqe := rfl
@[simp] theorem modJobOf_ing (id : Nat) (f : Job → Job) (s : State) : (modJobOf id f s).ing = s.ing := rfl
@[simp] theorem modJobOf_bal (id : Nat) (f : Job → Job) (s : State) : (modJobOf id f s).bal = s.bal := rfl
@[simp] theorem modJobOf_sec (id : Nat) (f : Job → Job) (s : State) : (modJobOf id f s).sec = s.sec := rfl
@[simp] theorem modJobOf_med (id : Nat) (f : Job → Job) (s : State) : (modJobOf id f s).med = s.med := rfl
@[simp] theorem modJobOf_plf (id : Nat) (f : Job → Job) (s : State) : (modJobOf id f s).plf = s.plf := rfl
@[simp] theorem modJobOf_far (id : Nat) (f : Job → Job) (s : State) : (modJobOf id f s).far = s.far := rfl
@[simp] theorem modJobOf_til (id : Nat) (f : Job → Job) (s : State) : (modJobOf id f s).til = s.til := rfl
@[simp] theorem modJobOf_snp (id : Nat) (f : Job → Job) (s : State) : (modJobOf id f s).snp = s.snp := rfl
@[simp] theorem modJobOf_peer (id : Nat) (f : Job → Job) (s : State) : (modJobOf id f s).peer = s.peer := rfl
@[simp] theorem modJobOf_pair (id : Nat) (f : Job → Job) (s : State) : (modJobOf id f s).pair = s.pair := rfl
@[simp] theorem modJobOf_rdm (id : Nat) (f : Job → Job) (s : State) : (modJobOf id f s).rdm = s.rdm := rfl
@[simp] theorem modJobOf_mch (id : Nat) (f : Job → Job) (s : State) : (modJobOf id f s).mch = s.mch := rfl
@[simp] theorem modJobOf_drc (id : Nat) (f : Job → Job) (s : State) : (modJobOf id f s).drc = s.drc := rfl
@[simp] theorem modJobOf_evr (id : Nat) (f : Job → Job) (s : State) : (modJobOf id f s).evr = s.evr := rfl
@[simp] theorem modJobOf_svc (id : Nat) (f : Job → Job) (s : State) : (modJobOf id f s).svc = s.svc := rfl
@[simp] theorem modJobOf_nor (id : Nat) (f : Job → Job) (s : State) : (modJobOf id f s).nor = s.nor := rfl
@[simp] theorem modJobOf_dram (id : Nat) (f : Job → Job) (s : State) : (modJobOf id f s).dram = s.dram := rfl
@[simp] theorem modJobOf_freeCtr (id : Nat) (f : Job → Job) (s : State) : (modJobOf id f s).freeCtr = s.freeCtr := rfl
@[simp] theorem modJobOf_out (id : Nat) (f : Job → Job) (s : State) : (modJobOf id f s).out = s.out := rfl
@[simp] theorem modJobOf_pending (id : Nat) (f : Job → Job) (s : State) : (modJobOf id f s).pending = s.pending := rfl

/-! `setSlot` touches `sec` alone. -/

@[simp] theorem setSlot_glb (n : Nat) (k : Slot) (s : State) : (setSlot n k s).glb = s.glb := rfl
@[simp] theorem setSlot_pins (n : Nat) (k : Slot) (s : State) : (setSlot n k s).pins = s.pins := rfl
@[simp] theorem setSlot_clk (n : Nat) (k : Slot) (s : State) : (setSlot n k s).clk = s.clk := rfl
@[simp] theorem setSlot_cache (n : Nat) (k : Slot) (s : State) : (setSlot n k s).cache = s.cache := rfl
@[simp] theorem setSlot_nvc (n : Nat) (k : Slot) (s : State) : (setSlot n k s).nvc = s.nvc := rfl
@[simp] theorem setSlot_wch (n : Nat) (k : Slot) (s : State) : (setSlot n k s).wch = s.wch := rfl
@[simp] theorem setSlot_hep (n : Nat) (k : Slot) (s : State) : (setSlot n k s).hep = s.hep := rfl
@[simp] theorem setSlot_hqe (n : Nat) (k : Slot) (s : State) : (setSlot n k s).hqe = s.hqe := rfl
@[simp] theorem setSlot_ing (n : Nat) (k : Slot) (s : State) : (setSlot n k s).ing = s.ing := rfl
@[simp] theorem setSlot_bal (n : Nat) (k : Slot) (s : State) : (setSlot n k s).bal = s.bal := rfl
@[simp] theorem setSlot_med (n : Nat) (k : Slot) (s : State) : (setSlot n k s).med = s.med := rfl
@[simp] theorem setSlot_plf (n : Nat) (k : Slot) (s : State) : (setSlot n k s).plf = s.plf := rfl
@[simp] theorem setSlot_far (n : Nat) (k : Slot) (s : State) : (setSlot n k s).far = s.far := rfl
@[simp] theorem setSlot_par (n : Nat) (k : Slot) (s : State) : (setSlot n k s).par = s.par := rfl
@[simp] theorem setSlot_til (n : Nat) (k : Slot) (s : State) : (setSlot n k s).til = s.til := rfl
@[simp] theorem setSlot_snp (n : Nat) (k : Slot) (s : State) : (setSlot n k s).snp = s.snp := rfl
@[simp] theorem setSlot_peer (n : Nat) (k : Slot) (s : State) : (setSlot n k s).peer = s.peer := rfl
@[simp] theorem setSlot_pair (n : Nat) (k : Slot) (s : State) : (setSlot n k s).pair = s.pair := rfl
@[simp] theorem setSlot_rdm (n : Nat) (k : Slot) (s : State) : (setSlot n k s).rdm = s.rdm := rfl
@[simp] theorem setSlot_mch (n : Nat) (k : Slot) (s : State) : (setSlot n k s).mch = s.mch := rfl
@[simp] theorem setSlot_drc (n : Nat) (k : Slot) (s : State) : (setSlot n k s).drc = s.drc := rfl
@[simp] theorem setSlot_evr (n : Nat) (k : Slot) (s : State) : (setSlot n k s).evr = s.evr := rfl
@[simp] theorem setSlot_svc (n : Nat) (k : Slot) (s : State) : (setSlot n k s).svc = s.svc := rfl
@[simp] theorem setSlot_nor (n : Nat) (k : Slot) (s : State) : (setSlot n k s).nor = s.nor := rfl
@[simp] theorem setSlot_dram (n : Nat) (k : Slot) (s : State) : (setSlot n k s).dram = s.dram := rfl
@[simp] theorem setSlot_freeCtr (n : Nat) (k : Slot) (s : State) : (setSlot n k s).freeCtr = s.freeCtr := rfl
@[simp] theorem setSlot_out (n : Nat) (k : Slot) (s : State) : (setSlot n k s).out = s.out := rfl
@[simp] theorem setSlot_pending (n : Nat) (k : Slot) (s : State) : (setSlot n k s).pending = s.pending := rfl

/-! `modVault` touches `sec` alone. -/

@[simp] theorem modVault_glb (f : Vault → Vault) (s : State) : (modVault f s).glb = s.glb := rfl
@[simp] theorem modVault_pins (f : Vault → Vault) (s : State) : (modVault f s).pins = s.pins := rfl
@[simp] theorem modVault_clk (f : Vault → Vault) (s : State) : (modVault f s).clk = s.clk := rfl
@[simp] theorem modVault_cache (f : Vault → Vault) (s : State) : (modVault f s).cache = s.cache := rfl
@[simp] theorem modVault_nvc (f : Vault → Vault) (s : State) : (modVault f s).nvc = s.nvc := rfl
@[simp] theorem modVault_wch (f : Vault → Vault) (s : State) : (modVault f s).wch = s.wch := rfl
@[simp] theorem modVault_hep (f : Vault → Vault) (s : State) : (modVault f s).hep = s.hep := rfl
@[simp] theorem modVault_hqe (f : Vault → Vault) (s : State) : (modVault f s).hqe = s.hqe := rfl
@[simp] theorem modVault_ing (f : Vault → Vault) (s : State) : (modVault f s).ing = s.ing := rfl
@[simp] theorem modVault_bal (f : Vault → Vault) (s : State) : (modVault f s).bal = s.bal := rfl
@[simp] theorem modVault_med (f : Vault → Vault) (s : State) : (modVault f s).med = s.med := rfl
@[simp] theorem modVault_plf (f : Vault → Vault) (s : State) : (modVault f s).plf = s.plf := rfl
@[simp] theorem modVault_far (f : Vault → Vault) (s : State) : (modVault f s).far = s.far := rfl
@[simp] theorem modVault_par (f : Vault → Vault) (s : State) : (modVault f s).par = s.par := rfl
@[simp] theorem modVault_til (f : Vault → Vault) (s : State) : (modVault f s).til = s.til := rfl
@[simp] theorem modVault_snp (f : Vault → Vault) (s : State) : (modVault f s).snp = s.snp := rfl
@[simp] theorem modVault_peer (f : Vault → Vault) (s : State) : (modVault f s).peer = s.peer := rfl
@[simp] theorem modVault_pair (f : Vault → Vault) (s : State) : (modVault f s).pair = s.pair := rfl
@[simp] theorem modVault_rdm (f : Vault → Vault) (s : State) : (modVault f s).rdm = s.rdm := rfl
@[simp] theorem modVault_mch (f : Vault → Vault) (s : State) : (modVault f s).mch = s.mch := rfl
@[simp] theorem modVault_drc (f : Vault → Vault) (s : State) : (modVault f s).drc = s.drc := rfl
@[simp] theorem modVault_evr (f : Vault → Vault) (s : State) : (modVault f s).evr = s.evr := rfl
@[simp] theorem modVault_svc (f : Vault → Vault) (s : State) : (modVault f s).svc = s.svc := rfl
@[simp] theorem modVault_nor (f : Vault → Vault) (s : State) : (modVault f s).nor = s.nor := rfl
@[simp] theorem modVault_dram (f : Vault → Vault) (s : State) : (modVault f s).dram = s.dram := rfl
@[simp] theorem modVault_freeCtr (f : Vault → Vault) (s : State) : (modVault f s).freeCtr = s.freeCtr := rfl
@[simp] theorem modVault_out (f : Vault → Vault) (s : State) : (modVault f s).out = s.out := rfl
@[simp] theorem modVault_pending (f : Vault → Vault) (s : State) : (modVault f s).pending = s.pending := rfl

/-! `modDg` touches `sec` alone. -/

@[simp] theorem modDg_glb (f : Dg → Dg) (s : State) : (modDg f s).glb = s.glb := rfl
@[simp] theorem modDg_pins (f : Dg → Dg) (s : State) : (modDg f s).pins = s.pins := rfl
@[simp] theorem modDg_clk (f : Dg → Dg) (s : State) : (modDg f s).clk = s.clk := rfl
@[simp] theorem modDg_cache (f : Dg → Dg) (s : State) : (modDg f s).cache = s.cache := rfl
@[simp] theorem modDg_nvc (f : Dg → Dg) (s : State) : (modDg f s).nvc = s.nvc := rfl
@[simp] theorem modDg_wch (f : Dg → Dg) (s : State) : (modDg f s).wch = s.wch := rfl
@[simp] theorem modDg_hep (f : Dg → Dg) (s : State) : (modDg f s).hep = s.hep := rfl
@[simp] theorem modDg_hqe (f : Dg → Dg) (s : State) : (modDg f s).hqe = s.hqe := rfl
@[simp] theorem modDg_ing (f : Dg → Dg) (s : State) : (modDg f s).ing = s.ing := rfl
@[simp] theorem modDg_bal (f : Dg → Dg) (s : State) : (modDg f s).bal = s.bal := rfl
@[simp] theorem modDg_med (f : Dg → Dg) (s : State) : (modDg f s).med = s.med := rfl
@[simp] theorem modDg_plf (f : Dg → Dg) (s : State) : (modDg f s).plf = s.plf := rfl
@[simp] theorem modDg_far (f : Dg → Dg) (s : State) : (modDg f s).far = s.far := rfl
@[simp] theorem modDg_par (f : Dg → Dg) (s : State) : (modDg f s).par = s.par := rfl
@[simp] theorem modDg_til (f : Dg → Dg) (s : State) : (modDg f s).til = s.til := rfl
@[simp] theorem modDg_snp (f : Dg → Dg) (s : State) : (modDg f s).snp = s.snp := rfl
@[simp] theorem modDg_peer (f : Dg → Dg) (s : State) : (modDg f s).peer = s.peer := rfl
@[simp] theorem modDg_pair (f : Dg → Dg) (s : State) : (modDg f s).pair = s.pair := rfl
@[simp] theorem modDg_rdm (f : Dg → Dg) (s : State) : (modDg f s).rdm = s.rdm := rfl
@[simp] theorem modDg_mch (f : Dg → Dg) (s : State) : (modDg f s).mch = s.mch := rfl
@[simp] theorem modDg_drc (f : Dg → Dg) (s : State) : (modDg f s).drc = s.drc := rfl
@[simp] theorem modDg_evr (f : Dg → Dg) (s : State) : (modDg f s).evr = s.evr := rfl
@[simp] theorem modDg_svc (f : Dg → Dg) (s : State) : (modDg f s).svc = s.svc := rfl
@[simp] theorem modDg_nor (f : Dg → Dg) (s : State) : (modDg f s).nor = s.nor := rfl
@[simp] theorem modDg_dram (f : Dg → Dg) (s : State) : (modDg f s).dram = s.dram := rfl
@[simp] theorem modDg_freeCtr (f : Dg → Dg) (s : State) : (modDg f s).freeCtr = s.freeCtr := rfl
@[simp] theorem modDg_out (f : Dg → Dg) (s : State) : (modDg f s).out = s.out := rfl
@[simp] theorem modDg_pending (f : Dg → Dg) (s : State) : (modDg f s).pending = s.pending := rfl

/-! `modRng` touches `sec` alone. -/

@[simp] theorem modRng_glb (f : Rng → Rng) (s : State) : (modRng f s).glb = s.glb := rfl
@[simp] theorem modRng_pins (f : Rng → Rng) (s : State) : (modRng f s).pins = s.pins := rfl
@[simp] theorem modRng_clk (f : Rng → Rng) (s : State) : (modRng f s).clk = s.clk := rfl
@[simp] theorem modRng_cache (f : Rng → Rng) (s : State) : (modRng f s).cache = s.cache := rfl
@[simp] theorem modRng_nvc (f : Rng → Rng) (s : State) : (modRng f s).nvc = s.nvc := rfl
@[simp] theorem modRng_wch (f : Rng → Rng) (s : State) : (modRng f s).wch = s.wch := rfl
@[simp] theorem modRng_hep (f : Rng → Rng) (s : State) : (modRng f s).hep = s.hep := rfl
@[simp] theorem modRng_hqe (f : Rng → Rng) (s : State) : (modRng f s).hqe = s.hqe := rfl
@[simp] theorem modRng_ing (f : Rng → Rng) (s : State) : (modRng f s).ing = s.ing := rfl
@[simp] theorem modRng_bal (f : Rng → Rng) (s : State) : (modRng f s).bal = s.bal := rfl
@[simp] theorem modRng_med (f : Rng → Rng) (s : State) : (modRng f s).med = s.med := rfl
@[simp] theorem modRng_plf (f : Rng → Rng) (s : State) : (modRng f s).plf = s.plf := rfl
@[simp] theorem modRng_far (f : Rng → Rng) (s : State) : (modRng f s).far = s.far := rfl
@[simp] theorem modRng_par (f : Rng → Rng) (s : State) : (modRng f s).par = s.par := rfl
@[simp] theorem modRng_til (f : Rng → Rng) (s : State) : (modRng f s).til = s.til := rfl
@[simp] theorem modRng_snp (f : Rng → Rng) (s : State) : (modRng f s).snp = s.snp := rfl
@[simp] theorem modRng_peer (f : Rng → Rng) (s : State) : (modRng f s).peer = s.peer := rfl
@[simp] theorem modRng_pair (f : Rng → Rng) (s : State) : (modRng f s).pair = s.pair := rfl
@[simp] theorem modRng_rdm (f : Rng → Rng) (s : State) : (modRng f s).rdm = s.rdm := rfl
@[simp] theorem modRng_mch (f : Rng → Rng) (s : State) : (modRng f s).mch = s.mch := rfl
@[simp] theorem modRng_drc (f : Rng → Rng) (s : State) : (modRng f s).drc = s.drc := rfl
@[simp] theorem modRng_evr (f : Rng → Rng) (s : State) : (modRng f s).evr = s.evr := rfl
@[simp] theorem modRng_svc (f : Rng → Rng) (s : State) : (modRng f s).svc = s.svc := rfl
@[simp] theorem modRng_nor (f : Rng → Rng) (s : State) : (modRng f s).nor = s.nor := rfl
@[simp] theorem modRng_dram (f : Rng → Rng) (s : State) : (modRng f s).dram = s.dram := rfl
@[simp] theorem modRng_freeCtr (f : Rng → Rng) (s : State) : (modRng f s).freeCtr = s.freeCtr := rfl
@[simp] theorem modRng_out (f : Rng → Rng) (s : State) : (modRng f s).out = s.out := rfl
@[simp] theorem modRng_pending (f : Rng → Rng) (s : State) : (modRng f s).pending = s.pending := rfl

/-! `modLane` touches `far` alone. -/

@[simp] theorem modLane_glb (n : Nat) (f : Lane → Lane) (s : State) : (modLane n f s).glb = s.glb := rfl
@[simp] theorem modLane_pins (n : Nat) (f : Lane → Lane) (s : State) : (modLane n f s).pins = s.pins := rfl
@[simp] theorem modLane_clk (n : Nat) (f : Lane → Lane) (s : State) : (modLane n f s).clk = s.clk := rfl
@[simp] theorem modLane_cache (n : Nat) (f : Lane → Lane) (s : State) : (modLane n f s).cache = s.cache := rfl
@[simp] theorem modLane_nvc (n : Nat) (f : Lane → Lane) (s : State) : (modLane n f s).nvc = s.nvc := rfl
@[simp] theorem modLane_wch (n : Nat) (f : Lane → Lane) (s : State) : (modLane n f s).wch = s.wch := rfl
@[simp] theorem modLane_hep (n : Nat) (f : Lane → Lane) (s : State) : (modLane n f s).hep = s.hep := rfl
@[simp] theorem modLane_hqe (n : Nat) (f : Lane → Lane) (s : State) : (modLane n f s).hqe = s.hqe := rfl
@[simp] theorem modLane_ing (n : Nat) (f : Lane → Lane) (s : State) : (modLane n f s).ing = s.ing := rfl
@[simp] theorem modLane_bal (n : Nat) (f : Lane → Lane) (s : State) : (modLane n f s).bal = s.bal := rfl
@[simp] theorem modLane_sec (n : Nat) (f : Lane → Lane) (s : State) : (modLane n f s).sec = s.sec := rfl
@[simp] theorem modLane_med (n : Nat) (f : Lane → Lane) (s : State) : (modLane n f s).med = s.med := rfl
@[simp] theorem modLane_plf (n : Nat) (f : Lane → Lane) (s : State) : (modLane n f s).plf = s.plf := rfl
@[simp] theorem modLane_par (n : Nat) (f : Lane → Lane) (s : State) : (modLane n f s).par = s.par := rfl
@[simp] theorem modLane_til (n : Nat) (f : Lane → Lane) (s : State) : (modLane n f s).til = s.til := rfl
@[simp] theorem modLane_snp (n : Nat) (f : Lane → Lane) (s : State) : (modLane n f s).snp = s.snp := rfl
@[simp] theorem modLane_peer (n : Nat) (f : Lane → Lane) (s : State) : (modLane n f s).peer = s.peer := rfl
@[simp] theorem modLane_pair (n : Nat) (f : Lane → Lane) (s : State) : (modLane n f s).pair = s.pair := rfl
@[simp] theorem modLane_rdm (n : Nat) (f : Lane → Lane) (s : State) : (modLane n f s).rdm = s.rdm := rfl
@[simp] theorem modLane_mch (n : Nat) (f : Lane → Lane) (s : State) : (modLane n f s).mch = s.mch := rfl
@[simp] theorem modLane_drc (n : Nat) (f : Lane → Lane) (s : State) : (modLane n f s).drc = s.drc := rfl
@[simp] theorem modLane_evr (n : Nat) (f : Lane → Lane) (s : State) : (modLane n f s).evr = s.evr := rfl
@[simp] theorem modLane_svc (n : Nat) (f : Lane → Lane) (s : State) : (modLane n f s).svc = s.svc := rfl
@[simp] theorem modLane_nor (n : Nat) (f : Lane → Lane) (s : State) : (modLane n f s).nor = s.nor := rfl
@[simp] theorem modLane_dram (n : Nat) (f : Lane → Lane) (s : State) : (modLane n f s).dram = s.dram := rfl
@[simp] theorem modLane_freeCtr (n : Nat) (f : Lane → Lane) (s : State) : (modLane n f s).freeCtr = s.freeCtr := rfl
@[simp] theorem modLane_out (n : Nat) (f : Lane → Lane) (s : State) : (modLane n f s).out = s.out := rfl
@[simp] theorem modLane_pending (n : Nat) (f : Lane → Lane) (s : State) : (modLane n f s).pending = s.pending := rfl

/-! `modBridge` touches `far` alone. -/

@[simp] theorem modBridge_glb (n : Nat) (f : Module → Module) (s : State) : (modBridge n f s).glb = s.glb := rfl
@[simp] theorem modBridge_pins (n : Nat) (f : Module → Module) (s : State) : (modBridge n f s).pins = s.pins := rfl
@[simp] theorem modBridge_clk (n : Nat) (f : Module → Module) (s : State) : (modBridge n f s).clk = s.clk := rfl
@[simp] theorem modBridge_cache (n : Nat) (f : Module → Module) (s : State) : (modBridge n f s).cache = s.cache := rfl
@[simp] theorem modBridge_nvc (n : Nat) (f : Module → Module) (s : State) : (modBridge n f s).nvc = s.nvc := rfl
@[simp] theorem modBridge_wch (n : Nat) (f : Module → Module) (s : State) : (modBridge n f s).wch = s.wch := rfl
@[simp] theorem modBridge_hep (n : Nat) (f : Module → Module) (s : State) : (modBridge n f s).hep = s.hep := rfl
@[simp] theorem modBridge_hqe (n : Nat) (f : Module → Module) (s : State) : (modBridge n f s).hqe = s.hqe := rfl
@[simp] theorem modBridge_ing (n : Nat) (f : Module → Module) (s : State) : (modBridge n f s).ing = s.ing := rfl
@[simp] theorem modBridge_bal (n : Nat) (f : Module → Module) (s : State) : (modBridge n f s).bal = s.bal := rfl
@[simp] theorem modBridge_sec (n : Nat) (f : Module → Module) (s : State) : (modBridge n f s).sec = s.sec := rfl
@[simp] theorem modBridge_med (n : Nat) (f : Module → Module) (s : State) : (modBridge n f s).med = s.med := rfl
@[simp] theorem modBridge_plf (n : Nat) (f : Module → Module) (s : State) : (modBridge n f s).plf = s.plf := rfl
@[simp] theorem modBridge_par (n : Nat) (f : Module → Module) (s : State) : (modBridge n f s).par = s.par := rfl
@[simp] theorem modBridge_til (n : Nat) (f : Module → Module) (s : State) : (modBridge n f s).til = s.til := rfl
@[simp] theorem modBridge_snp (n : Nat) (f : Module → Module) (s : State) : (modBridge n f s).snp = s.snp := rfl
@[simp] theorem modBridge_peer (n : Nat) (f : Module → Module) (s : State) : (modBridge n f s).peer = s.peer := rfl
@[simp] theorem modBridge_pair (n : Nat) (f : Module → Module) (s : State) : (modBridge n f s).pair = s.pair := rfl
@[simp] theorem modBridge_rdm (n : Nat) (f : Module → Module) (s : State) : (modBridge n f s).rdm = s.rdm := rfl
@[simp] theorem modBridge_mch (n : Nat) (f : Module → Module) (s : State) : (modBridge n f s).mch = s.mch := rfl
@[simp] theorem modBridge_drc (n : Nat) (f : Module → Module) (s : State) : (modBridge n f s).drc = s.drc := rfl
@[simp] theorem modBridge_evr (n : Nat) (f : Module → Module) (s : State) : (modBridge n f s).evr = s.evr := rfl
@[simp] theorem modBridge_svc (n : Nat) (f : Module → Module) (s : State) : (modBridge n f s).svc = s.svc := rfl
@[simp] theorem modBridge_nor (n : Nat) (f : Module → Module) (s : State) : (modBridge n f s).nor = s.nor := rfl
@[simp] theorem modBridge_dram (n : Nat) (f : Module → Module) (s : State) : (modBridge n f s).dram = s.dram := rfl
@[simp] theorem modBridge_freeCtr (n : Nat) (f : Module → Module) (s : State) : (modBridge n f s).freeCtr = s.freeCtr := rfl
@[simp] theorem modBridge_out (n : Nat) (f : Module → Module) (s : State) : (modBridge n f s).out = s.out := rfl
@[simp] theorem modBridge_pending (n : Nat) (f : Module → Module) (s : State) : (modBridge n f s).pending = s.pending := rfl

/-! `modSlice` touches `cache` alone. -/

@[simp] theorem modSlice_glb (n : Nat) (f : Slice → Slice) (s : State) : (modSlice n f s).glb = s.glb := rfl
@[simp] theorem modSlice_pins (n : Nat) (f : Slice → Slice) (s : State) : (modSlice n f s).pins = s.pins := rfl
@[simp] theorem modSlice_clk (n : Nat) (f : Slice → Slice) (s : State) : (modSlice n f s).clk = s.clk := rfl
@[simp] theorem modSlice_nvc (n : Nat) (f : Slice → Slice) (s : State) : (modSlice n f s).nvc = s.nvc := rfl
@[simp] theorem modSlice_wch (n : Nat) (f : Slice → Slice) (s : State) : (modSlice n f s).wch = s.wch := rfl
@[simp] theorem modSlice_hep (n : Nat) (f : Slice → Slice) (s : State) : (modSlice n f s).hep = s.hep := rfl
@[simp] theorem modSlice_hqe (n : Nat) (f : Slice → Slice) (s : State) : (modSlice n f s).hqe = s.hqe := rfl
@[simp] theorem modSlice_ing (n : Nat) (f : Slice → Slice) (s : State) : (modSlice n f s).ing = s.ing := rfl
@[simp] theorem modSlice_bal (n : Nat) (f : Slice → Slice) (s : State) : (modSlice n f s).bal = s.bal := rfl
@[simp] theorem modSlice_sec (n : Nat) (f : Slice → Slice) (s : State) : (modSlice n f s).sec = s.sec := rfl
@[simp] theorem modSlice_med (n : Nat) (f : Slice → Slice) (s : State) : (modSlice n f s).med = s.med := rfl
@[simp] theorem modSlice_plf (n : Nat) (f : Slice → Slice) (s : State) : (modSlice n f s).plf = s.plf := rfl
@[simp] theorem modSlice_far (n : Nat) (f : Slice → Slice) (s : State) : (modSlice n f s).far = s.far := rfl
@[simp] theorem modSlice_par (n : Nat) (f : Slice → Slice) (s : State) : (modSlice n f s).par = s.par := rfl
@[simp] theorem modSlice_til (n : Nat) (f : Slice → Slice) (s : State) : (modSlice n f s).til = s.til := rfl
@[simp] theorem modSlice_snp (n : Nat) (f : Slice → Slice) (s : State) : (modSlice n f s).snp = s.snp := rfl
@[simp] theorem modSlice_peer (n : Nat) (f : Slice → Slice) (s : State) : (modSlice n f s).peer = s.peer := rfl
@[simp] theorem modSlice_pair (n : Nat) (f : Slice → Slice) (s : State) : (modSlice n f s).pair = s.pair := rfl
@[simp] theorem modSlice_rdm (n : Nat) (f : Slice → Slice) (s : State) : (modSlice n f s).rdm = s.rdm := rfl
@[simp] theorem modSlice_mch (n : Nat) (f : Slice → Slice) (s : State) : (modSlice n f s).mch = s.mch := rfl
@[simp] theorem modSlice_drc (n : Nat) (f : Slice → Slice) (s : State) : (modSlice n f s).drc = s.drc := rfl
@[simp] theorem modSlice_evr (n : Nat) (f : Slice → Slice) (s : State) : (modSlice n f s).evr = s.evr := rfl
@[simp] theorem modSlice_svc (n : Nat) (f : Slice → Slice) (s : State) : (modSlice n f s).svc = s.svc := rfl
@[simp] theorem modSlice_nor (n : Nat) (f : Slice → Slice) (s : State) : (modSlice n f s).nor = s.nor := rfl
@[simp] theorem modSlice_dram (n : Nat) (f : Slice → Slice) (s : State) : (modSlice n f s).dram = s.dram := rfl
@[simp] theorem modSlice_freeCtr (n : Nat) (f : Slice → Slice) (s : State) : (modSlice n f s).freeCtr = s.freeCtr := rfl
@[simp] theorem modSlice_out (n : Nat) (f : Slice → Slice) (s : State) : (modSlice n f s).out = s.out := rfl
@[simp] theorem modSlice_pending (n : Nat) (f : Slice → Slice) (s : State) : (modSlice n f s).pending = s.pending := rfl

/-! `modPath` touches `rdm` alone. -/

@[simp] theorem modPath_glb (n : Nat) (f : Path → Path) (s : State) : (modPath n f s).glb = s.glb := rfl
@[simp] theorem modPath_pins (n : Nat) (f : Path → Path) (s : State) : (modPath n f s).pins = s.pins := rfl
@[simp] theorem modPath_clk (n : Nat) (f : Path → Path) (s : State) : (modPath n f s).clk = s.clk := rfl
@[simp] theorem modPath_cache (n : Nat) (f : Path → Path) (s : State) : (modPath n f s).cache = s.cache := rfl
@[simp] theorem modPath_nvc (n : Nat) (f : Path → Path) (s : State) : (modPath n f s).nvc = s.nvc := rfl
@[simp] theorem modPath_wch (n : Nat) (f : Path → Path) (s : State) : (modPath n f s).wch = s.wch := rfl
@[simp] theorem modPath_hep (n : Nat) (f : Path → Path) (s : State) : (modPath n f s).hep = s.hep := rfl
@[simp] theorem modPath_hqe (n : Nat) (f : Path → Path) (s : State) : (modPath n f s).hqe = s.hqe := rfl
@[simp] theorem modPath_ing (n : Nat) (f : Path → Path) (s : State) : (modPath n f s).ing = s.ing := rfl
@[simp] theorem modPath_bal (n : Nat) (f : Path → Path) (s : State) : (modPath n f s).bal = s.bal := rfl
@[simp] theorem modPath_sec (n : Nat) (f : Path → Path) (s : State) : (modPath n f s).sec = s.sec := rfl
@[simp] theorem modPath_med (n : Nat) (f : Path → Path) (s : State) : (modPath n f s).med = s.med := rfl
@[simp] theorem modPath_plf (n : Nat) (f : Path → Path) (s : State) : (modPath n f s).plf = s.plf := rfl
@[simp] theorem modPath_far (n : Nat) (f : Path → Path) (s : State) : (modPath n f s).far = s.far := rfl
@[simp] theorem modPath_par (n : Nat) (f : Path → Path) (s : State) : (modPath n f s).par = s.par := rfl
@[simp] theorem modPath_til (n : Nat) (f : Path → Path) (s : State) : (modPath n f s).til = s.til := rfl
@[simp] theorem modPath_snp (n : Nat) (f : Path → Path) (s : State) : (modPath n f s).snp = s.snp := rfl
@[simp] theorem modPath_peer (n : Nat) (f : Path → Path) (s : State) : (modPath n f s).peer = s.peer := rfl
@[simp] theorem modPath_pair (n : Nat) (f : Path → Path) (s : State) : (modPath n f s).pair = s.pair := rfl
@[simp] theorem modPath_mch (n : Nat) (f : Path → Path) (s : State) : (modPath n f s).mch = s.mch := rfl
@[simp] theorem modPath_drc (n : Nat) (f : Path → Path) (s : State) : (modPath n f s).drc = s.drc := rfl
@[simp] theorem modPath_evr (n : Nat) (f : Path → Path) (s : State) : (modPath n f s).evr = s.evr := rfl
@[simp] theorem modPath_svc (n : Nat) (f : Path → Path) (s : State) : (modPath n f s).svc = s.svc := rfl
@[simp] theorem modPath_nor (n : Nat) (f : Path → Path) (s : State) : (modPath n f s).nor = s.nor := rfl
@[simp] theorem modPath_dram (n : Nat) (f : Path → Path) (s : State) : (modPath n f s).dram = s.dram := rfl
@[simp] theorem modPath_freeCtr (n : Nat) (f : Path → Path) (s : State) : (modPath n f s).freeCtr = s.freeCtr := rfl
@[simp] theorem modPath_out (n : Nat) (f : Path → Path) (s : State) : (modPath n f s).out = s.out := rfl
@[simp] theorem modPath_pending (n : Nat) (f : Path → Path) (s : State) : (modPath n f s).pending = s.pending := rfl

/-! `modRc` touches `rdm` alone. -/

@[simp] theorem modRc_glb (n : Nat) (f : RcQp → RcQp) (s : State) : (modRc n f s).glb = s.glb := rfl
@[simp] theorem modRc_pins (n : Nat) (f : RcQp → RcQp) (s : State) : (modRc n f s).pins = s.pins := rfl
@[simp] theorem modRc_clk (n : Nat) (f : RcQp → RcQp) (s : State) : (modRc n f s).clk = s.clk := rfl
@[simp] theorem modRc_cache (n : Nat) (f : RcQp → RcQp) (s : State) : (modRc n f s).cache = s.cache := rfl
@[simp] theorem modRc_nvc (n : Nat) (f : RcQp → RcQp) (s : State) : (modRc n f s).nvc = s.nvc := rfl
@[simp] theorem modRc_wch (n : Nat) (f : RcQp → RcQp) (s : State) : (modRc n f s).wch = s.wch := rfl
@[simp] theorem modRc_hep (n : Nat) (f : RcQp → RcQp) (s : State) : (modRc n f s).hep = s.hep := rfl
@[simp] theorem modRc_hqe (n : Nat) (f : RcQp → RcQp) (s : State) : (modRc n f s).hqe = s.hqe := rfl
@[simp] theorem modRc_ing (n : Nat) (f : RcQp → RcQp) (s : State) : (modRc n f s).ing = s.ing := rfl
@[simp] theorem modRc_bal (n : Nat) (f : RcQp → RcQp) (s : State) : (modRc n f s).bal = s.bal := rfl
@[simp] theorem modRc_sec (n : Nat) (f : RcQp → RcQp) (s : State) : (modRc n f s).sec = s.sec := rfl
@[simp] theorem modRc_med (n : Nat) (f : RcQp → RcQp) (s : State) : (modRc n f s).med = s.med := rfl
@[simp] theorem modRc_plf (n : Nat) (f : RcQp → RcQp) (s : State) : (modRc n f s).plf = s.plf := rfl
@[simp] theorem modRc_far (n : Nat) (f : RcQp → RcQp) (s : State) : (modRc n f s).far = s.far := rfl
@[simp] theorem modRc_par (n : Nat) (f : RcQp → RcQp) (s : State) : (modRc n f s).par = s.par := rfl
@[simp] theorem modRc_til (n : Nat) (f : RcQp → RcQp) (s : State) : (modRc n f s).til = s.til := rfl
@[simp] theorem modRc_snp (n : Nat) (f : RcQp → RcQp) (s : State) : (modRc n f s).snp = s.snp := rfl
@[simp] theorem modRc_peer (n : Nat) (f : RcQp → RcQp) (s : State) : (modRc n f s).peer = s.peer := rfl
@[simp] theorem modRc_pair (n : Nat) (f : RcQp → RcQp) (s : State) : (modRc n f s).pair = s.pair := rfl
@[simp] theorem modRc_mch (n : Nat) (f : RcQp → RcQp) (s : State) : (modRc n f s).mch = s.mch := rfl
@[simp] theorem modRc_drc (n : Nat) (f : RcQp → RcQp) (s : State) : (modRc n f s).drc = s.drc := rfl
@[simp] theorem modRc_evr (n : Nat) (f : RcQp → RcQp) (s : State) : (modRc n f s).evr = s.evr := rfl
@[simp] theorem modRc_svc (n : Nat) (f : RcQp → RcQp) (s : State) : (modRc n f s).svc = s.svc := rfl
@[simp] theorem modRc_nor (n : Nat) (f : RcQp → RcQp) (s : State) : (modRc n f s).nor = s.nor := rfl
@[simp] theorem modRc_dram (n : Nat) (f : RcQp → RcQp) (s : State) : (modRc n f s).dram = s.dram := rfl
@[simp] theorem modRc_freeCtr (n : Nat) (f : RcQp → RcQp) (s : State) : (modRc n f s).freeCtr = s.freeCtr := rfl
@[simp] theorem modRc_out (n : Nat) (f : RcQp → RcQp) (s : State) : (modRc n f s).out = s.out := rfl
@[simp] theorem modRc_pending (n : Nat) (f : RcQp → RcQp) (s : State) : (modRc n f s).pending = s.pending := rfl

/-! `modSess` touches `snp` alone. -/

@[simp] theorem modSess_glb (n : Nat) (f : Sess → Sess) (s : State) : (modSess n f s).glb = s.glb := rfl
@[simp] theorem modSess_pins (n : Nat) (f : Sess → Sess) (s : State) : (modSess n f s).pins = s.pins := rfl
@[simp] theorem modSess_clk (n : Nat) (f : Sess → Sess) (s : State) : (modSess n f s).clk = s.clk := rfl
@[simp] theorem modSess_cache (n : Nat) (f : Sess → Sess) (s : State) : (modSess n f s).cache = s.cache := rfl
@[simp] theorem modSess_nvc (n : Nat) (f : Sess → Sess) (s : State) : (modSess n f s).nvc = s.nvc := rfl
@[simp] theorem modSess_wch (n : Nat) (f : Sess → Sess) (s : State) : (modSess n f s).wch = s.wch := rfl
@[simp] theorem modSess_hep (n : Nat) (f : Sess → Sess) (s : State) : (modSess n f s).hep = s.hep := rfl
@[simp] theorem modSess_hqe (n : Nat) (f : Sess → Sess) (s : State) : (modSess n f s).hqe = s.hqe := rfl
@[simp] theorem modSess_ing (n : Nat) (f : Sess → Sess) (s : State) : (modSess n f s).ing = s.ing := rfl
@[simp] theorem modSess_bal (n : Nat) (f : Sess → Sess) (s : State) : (modSess n f s).bal = s.bal := rfl
@[simp] theorem modSess_sec (n : Nat) (f : Sess → Sess) (s : State) : (modSess n f s).sec = s.sec := rfl
@[simp] theorem modSess_med (n : Nat) (f : Sess → Sess) (s : State) : (modSess n f s).med = s.med := rfl
@[simp] theorem modSess_plf (n : Nat) (f : Sess → Sess) (s : State) : (modSess n f s).plf = s.plf := rfl
@[simp] theorem modSess_far (n : Nat) (f : Sess → Sess) (s : State) : (modSess n f s).far = s.far := rfl
@[simp] theorem modSess_par (n : Nat) (f : Sess → Sess) (s : State) : (modSess n f s).par = s.par := rfl
@[simp] theorem modSess_til (n : Nat) (f : Sess → Sess) (s : State) : (modSess n f s).til = s.til := rfl
@[simp] theorem modSess_peer (n : Nat) (f : Sess → Sess) (s : State) : (modSess n f s).peer = s.peer := rfl
@[simp] theorem modSess_pair (n : Nat) (f : Sess → Sess) (s : State) : (modSess n f s).pair = s.pair := rfl
@[simp] theorem modSess_rdm (n : Nat) (f : Sess → Sess) (s : State) : (modSess n f s).rdm = s.rdm := rfl
@[simp] theorem modSess_mch (n : Nat) (f : Sess → Sess) (s : State) : (modSess n f s).mch = s.mch := rfl
@[simp] theorem modSess_drc (n : Nat) (f : Sess → Sess) (s : State) : (modSess n f s).drc = s.drc := rfl
@[simp] theorem modSess_evr (n : Nat) (f : Sess → Sess) (s : State) : (modSess n f s).evr = s.evr := rfl
@[simp] theorem modSess_svc (n : Nat) (f : Sess → Sess) (s : State) : (modSess n f s).svc = s.svc := rfl
@[simp] theorem modSess_nor (n : Nat) (f : Sess → Sess) (s : State) : (modSess n f s).nor = s.nor := rfl
@[simp] theorem modSess_dram (n : Nat) (f : Sess → Sess) (s : State) : (modSess n f s).dram = s.dram := rfl
@[simp] theorem modSess_freeCtr (n : Nat) (f : Sess → Sess) (s : State) : (modSess n f s).freeCtr = s.freeCtr := rfl
@[simp] theorem modSess_out (n : Nat) (f : Sess → Sess) (s : State) : (modSess n f s).out = s.out := rfl
@[simp] theorem modSess_pending (n : Nat) (f : Sess → Sess) (s : State) : (modSess n f s).pending = s.pending := rfl

/-! `modQueue` touches `drc` alone. -/

@[simp] theorem modQueue_glb (k : Nat) (f : DramQ → DramQ) (s : State) : (modQueue k f s).glb = s.glb := rfl
@[simp] theorem modQueue_pins (k : Nat) (f : DramQ → DramQ) (s : State) : (modQueue k f s).pins = s.pins := rfl
@[simp] theorem modQueue_clk (k : Nat) (f : DramQ → DramQ) (s : State) : (modQueue k f s).clk = s.clk := rfl
@[simp] theorem modQueue_cache (k : Nat) (f : DramQ → DramQ) (s : State) : (modQueue k f s).cache = s.cache := rfl
@[simp] theorem modQueue_nvc (k : Nat) (f : DramQ → DramQ) (s : State) : (modQueue k f s).nvc = s.nvc := rfl
@[simp] theorem modQueue_wch (k : Nat) (f : DramQ → DramQ) (s : State) : (modQueue k f s).wch = s.wch := rfl
@[simp] theorem modQueue_hep (k : Nat) (f : DramQ → DramQ) (s : State) : (modQueue k f s).hep = s.hep := rfl
@[simp] theorem modQueue_hqe (k : Nat) (f : DramQ → DramQ) (s : State) : (modQueue k f s).hqe = s.hqe := rfl
@[simp] theorem modQueue_ing (k : Nat) (f : DramQ → DramQ) (s : State) : (modQueue k f s).ing = s.ing := rfl
@[simp] theorem modQueue_bal (k : Nat) (f : DramQ → DramQ) (s : State) : (modQueue k f s).bal = s.bal := rfl
@[simp] theorem modQueue_sec (k : Nat) (f : DramQ → DramQ) (s : State) : (modQueue k f s).sec = s.sec := rfl
@[simp] theorem modQueue_med (k : Nat) (f : DramQ → DramQ) (s : State) : (modQueue k f s).med = s.med := rfl
@[simp] theorem modQueue_plf (k : Nat) (f : DramQ → DramQ) (s : State) : (modQueue k f s).plf = s.plf := rfl
@[simp] theorem modQueue_far (k : Nat) (f : DramQ → DramQ) (s : State) : (modQueue k f s).far = s.far := rfl
@[simp] theorem modQueue_par (k : Nat) (f : DramQ → DramQ) (s : State) : (modQueue k f s).par = s.par := rfl
@[simp] theorem modQueue_til (k : Nat) (f : DramQ → DramQ) (s : State) : (modQueue k f s).til = s.til := rfl
@[simp] theorem modQueue_snp (k : Nat) (f : DramQ → DramQ) (s : State) : (modQueue k f s).snp = s.snp := rfl
@[simp] theorem modQueue_peer (k : Nat) (f : DramQ → DramQ) (s : State) : (modQueue k f s).peer = s.peer := rfl
@[simp] theorem modQueue_pair (k : Nat) (f : DramQ → DramQ) (s : State) : (modQueue k f s).pair = s.pair := rfl
@[simp] theorem modQueue_rdm (k : Nat) (f : DramQ → DramQ) (s : State) : (modQueue k f s).rdm = s.rdm := rfl
@[simp] theorem modQueue_mch (k : Nat) (f : DramQ → DramQ) (s : State) : (modQueue k f s).mch = s.mch := rfl
@[simp] theorem modQueue_evr (k : Nat) (f : DramQ → DramQ) (s : State) : (modQueue k f s).evr = s.evr := rfl
@[simp] theorem modQueue_svc (k : Nat) (f : DramQ → DramQ) (s : State) : (modQueue k f s).svc = s.svc := rfl
@[simp] theorem modQueue_nor (k : Nat) (f : DramQ → DramQ) (s : State) : (modQueue k f s).nor = s.nor := rfl
@[simp] theorem modQueue_dram (k : Nat) (f : DramQ → DramQ) (s : State) : (modQueue k f s).dram = s.dram := rfl
@[simp] theorem modQueue_freeCtr (k : Nat) (f : DramQ → DramQ) (s : State) : (modQueue k f s).freeCtr = s.freeCtr := rfl
@[simp] theorem modQueue_out (k : Nat) (f : DramQ → DramQ) (s : State) : (modQueue k f s).out = s.out := rfl
@[simp] theorem modQueue_pending (k : Nat) (f : DramQ → DramQ) (s : State) : (modQueue k f s).pending = s.pending := rfl

@[simp] theorem quiet_out (s : State) : s.quiet.out = [] := rfl
@[simp] theorem emit_out (o : Output) (s : State) : (emit o s).out = s.out ++ [o] := rfl
@[simp] theorem quiet_quiet (s : State) : s.quiet.quiet = s.quiet := rfl

end Sys2Proof.Machine
end

