-- ==== Sys2Proof/Laws/Tab.lean ====
section
/-! SUPPORT. The laws of sparse tables, of the two memories and of byte strings: read after write, writes elsewhere, and the
canonical form, which every memory operation keeps. -/

namespace Sys2Proof.Machine

/-! ### Tables -/

/-- A write leaves every other key alone. -/
theorem tabGet_tabPut_of_ne {α : Type} [DecidableEq α] (d v : α) {m n : Nat} (h : m ≠ n) (t : Tab α) :
    tabGet d m (tabPut d n v t) = tabGet d m t := by
  induction t with
  | nil => simp only [tabPut]; split <;> simp [tabGet, Ne.symm h]
  | cons p t ih =>
    obtain ⟨k, w⟩ := p
    simp only [tabPut]
    split
    · rename_i hk; subst hk
      split <;> simp [tabGet, Ne.symm h]
    · split
      · split <;> simp [tabGet, Ne.symm h]
      · simp only [tabGet, ih]

/-- A key below every listed one holds the default. -/
theorem tabGet_of_lt {α : Type} [DecidableEq α] (d : α) {n lo : Nat} (h : n < lo) {t : Tab α} (hw : tabWfFrom d lo t = true) :
    tabGet d n t = d := by
  induction t generalizing lo with
  | nil => rfl
  | cons p t ih =>
    obtain ⟨k, w⟩ := p
    simp only [tabWfFrom, Bool.and_eq_true, decide_eq_true_eq] at hw
    obtain ⟨⟨hk, -⟩, ht⟩ := hw
    simp only [tabGet]
    rw [if_neg (by omega)]
    exact ih (by omega) ht

/-- A value that is not the default is read back, whatever the table. -/
theorem tabGet_tabPut_of_value {α : Type} [DecidableEq α] {d v : α} (hv : v ≠ d) (n : Nat) (t : Tab α) :
    tabGet d n (tabPut d n v t) = v := by
  induction t with
  | nil => simp [tabPut, hv, tabGet]
  | cons p t ih =>
    obtain ⟨k, w⟩ := p
    simp only [tabPut]
    split
    · simp [tabGet]
    · rename_i hk
      split
      · simp [tabGet]
      · simp only [tabGet, if_neg hk, ih]

theorem tabGet_tabPut_from {α : Type} [DecidableEq α] (d v : α) (n : Nat) {lo : Nat} {t : Tab α} (hw : tabWfFrom d lo t = true) :
    tabGet d n (tabPut d n v t) = v := by
  by_cases hv : v = d
  · subst hv
    induction t generalizing lo with
    | nil => simp [tabPut, tabGet]
    | cons p t ih =>
      obtain ⟨k, w⟩ := p
      simp only [tabWfFrom, Bool.and_eq_true, decide_eq_true_eq] at hw
      obtain ⟨⟨-, -⟩, ht⟩ := hw
      simp only [tabPut, if_true]
      split
      · rename_i hk; subst hk; exact tabGet_of_lt v (Nat.lt_succ_self k) ht
      · rename_i hk
        split
        · rename_i hlt
          simp only [tabGet, if_neg hk]
          exact tabGet_of_lt v (by omega) ht
        · simp only [tabGet, if_neg hk]; exact ih ht
  · exact tabGet_tabPut_of_value hv n t

/-- Read after write, in a table in canonical form. -/
theorem tabGet_tabPut {α : Type} [DecidableEq α] (d v : α) (n : Nat) {t : Tab α} (hw : tabWf d t = true) :
    tabGet d n (tabPut d n v t) = v := tabGet_tabPut_from d v n hw

theorem tabWfFrom_mono {α : Type} [DecidableEq α] (d : α) {lo hi : Nat} (h : lo ≤ hi) {t : Tab α} (hw : tabWfFrom d hi t = true) :
    tabWfFrom d lo t = true := by
  cases t with
  | nil => rfl
  | cons p t =>
    obtain ⟨k, w⟩ := p
    simp only [tabWfFrom, Bool.and_eq_true, decide_eq_true_eq] at hw ⊢
    exact ⟨⟨by omega, hw.1.2⟩, hw.2⟩

theorem tabWfFrom_tabPut {α : Type} [DecidableEq α] (d v : α) (n : Nat) {lo : Nat} {t : Tab α} (hw : tabWfFrom d lo t = true) :
    tabWfFrom d (min lo n) (tabPut d n v t) = true := by
  induction t generalizing lo with
  | nil => simp only [tabPut]; split <;> simp [tabWfFrom, *]
  | cons p t ih =>
    obtain ⟨k, w⟩ := p
    have hw' := hw
    simp only [tabWfFrom, Bool.and_eq_true, decide_eq_true_eq] at hw
    obtain ⟨⟨hk, hwd⟩, ht⟩ := hw
    simp only [tabPut]
    split
    · rename_i e; subst e
      split
      · exact tabWfFrom_mono d (by omega) ht
      · rename_i hv
        simp only [tabWfFrom, Bool.and_eq_true, decide_eq_true_eq]
        exact ⟨⟨by omega, hv⟩, ht⟩
    · split
      · rename_i hlt
        split
        · exact tabWfFrom_mono d (by omega) hw'
        · rename_i hv
          simp only [tabWfFrom, Bool.and_eq_true, decide_eq_true_eq]
          exact ⟨⟨by omega, hv⟩, ⟨⟨by omega, hwd⟩, ht⟩⟩
      · rename_i hne hlt
        simp only [tabWfFrom, Bool.and_eq_true, decide_eq_true_eq]
        refine ⟨⟨by omega, hwd⟩, ?_⟩
        have := ih ht
        rwa [show min (k + 1) n = k + 1 by omega] at this

/-- A write keeps the canonical form. -/
theorem tabWf_tabPut {α : Type} [DecidableEq α] (d v : α) (n : Nat) {t : Tab α} (hw : tabWf d t = true) :
    tabWf d (tabPut d n v t) = true := by
  have := tabWfFrom_tabPut d v n hw
  rwa [show min 0 n = 0 by omega] at this

theorem tabWf_tabMod {α : Type} [DecidableEq α] (d : α) (n : Nat) (f : α → α) {t : Tab α} (hw : tabWf d t = true) :
    tabWf d (tabMod d n f t) = true := tabWf_tabPut d _ n hw

theorem tabWfFrom_filter {α : Type} [DecidableEq α] (d : α) (p : Nat × α → Bool) {lo : Nat} {t : Tab α} (hw : tabWfFrom d lo t = true) :
    tabWfFrom d lo (t.filter p) = true := by
  induction t generalizing lo with
  | nil => rfl
  | cons q t ih =>
    obtain ⟨k, w⟩ := q
    simp only [tabWfFrom, Bool.and_eq_true, decide_eq_true_eq] at hw
    obtain ⟨⟨hk, hd⟩, ht⟩ := hw
    by_cases hp : p (k, w) = true
    · rw [List.filter_cons_of_pos hp]
      simp only [tabWfFrom, Bool.and_eq_true, decide_eq_true_eq]
      exact ⟨⟨hk, hd⟩, ih ht⟩
    · rw [List.filter_cons_of_neg hp]
      exact tabWfFrom_mono d (by omega) (ih ht)

/-- Dropping entries keeps the canonical form. -/
theorem tabWf_filter {α : Type} [DecidableEq α] (d : α) (p : Nat × α → Bool) {t : Tab α} (hw : tabWf d t = true) :
    tabWf d (t.filter p) = true := tabWfFrom_filter d p hw

theorem tabWfFrom_map_filter {α β : Type} [DecidableEq α] [DecidableEq β] (d : α) (e : β) (f : α → β) {lo : Nat} {t : Tab α}
    (hw : tabWfFrom d lo t = true) :
    tabWfFrom e lo ((t.map fun p => (p.1, f p.2)).filter fun p => p.2 != e) = true := by
  induction t generalizing lo with
  | nil => rfl
  | cons q t ih =>
    obtain ⟨k, w⟩ := q
    simp only [tabWfFrom, Bool.and_eq_true, decide_eq_true_eq] at hw
    obtain ⟨⟨hk, -⟩, ht⟩ := hw
    simp only [List.map_cons]
    by_cases hp : f w = e
    · rw [List.filter_cons_of_neg (by simp [hp])]
      exact tabWfFrom_mono e (by omega) (ih ht)
    · rw [List.filter_cons_of_pos (by simp [hp])]
      simp only [tabWfFrom, Bool.and_eq_true, decide_eq_true_eq]
      exact ⟨⟨hk, hp⟩, ih ht⟩

/-- Changing every entry and dropping those that became the default keeps the canonical form. -/
theorem tabWf_map_filter {α β : Type} [DecidableEq α] [DecidableEq β] (d : α) (e : β) (f : α → β) {t : Tab α} (hw : tabWf d t = true) :
    tabWf e ((t.map fun p => (p.1, f p.2)).filter fun p => p.2 != e) = true := tabWfFrom_map_filter d e f hw

/-! ### Memories -/

/-- A write of a byte string leaves every byte outside it alone. -/
theorem cellRead_cellsWrite_of_out (d : Byte) (b : Bytes) {a x : Nat} (h : x < a ∨ a + b.length ≤ x) (m : List Host.Cell) :
    cellRead d (cellsWrite d b a m) x = cellRead d m x := by
  induction b generalizing a m with
  | nil => rfl
  | cons y ys ih =>
    simp only [List.length_cons] at h
    simp only [cellsWrite]
    rw [ih (by omega)]
    exact tabGet_tabPut_of_ne d y (by omega) m

/-- Every write of a byte string keeps the canonical form. -/
theorem wf_cellsWrite (d : Byte) (b : Bytes) (a : Nat) {m : List Host.Cell} (hw : Memory.wf d m = true) :
    Memory.wf d (cellsWrite d b a m) = true := by
  induction b generalizing a m with
  | nil => exact hw
  | cons y ys ih => exact ih (a + 1) (tabWf_tabPut d y a hw)

/-- An erase keeps the canonical form. -/
theorem wf_cellsClear (d : Byte) (a n : Nat) {m : List Host.Cell} (hw : Memory.wf d m = true) :
    Memory.wf d (cellsClear a n m) = true := tabWf_filter d _ hw

/-- A written byte is read back. -/
theorem cellRead_cellsWrite (d : Byte) (b : Bytes) (a i : Nat) (hi : i < b.length) {m : List Host.Cell} (hw : Memory.wf d m = true) :
    cellRead d (cellsWrite d b a m) (a + i) = b.getD i 0 := by
  induction b generalizing a i m with
  | nil => exact absurd hi (by simp)
  | cons y ys ih =>
    simp only [cellsWrite]
    cases i with
    | zero =>
      rw [Nat.add_zero, cellRead_cellsWrite_of_out d ys (by omega)]
      exact tabGet_tabPut d y a hw
    | succ j =>
      rw [show a + (j + 1) = a + 1 + j by omega, ih (a + 1) j (by simpa using hi) (tabWf_tabPut d y a hw)]
      simp

@[simp] theorem cellsRead_length (d : Byte) (m : List Host.Cell) (a n : Nat) : (cellsRead d m a n).length = n := by
  simp [cellsRead]

/-- A written byte string is read back. -/
theorem cellsRead_cellsWrite (d : Byte) (b : Bytes) (a : Nat) {m : List Host.Cell} (hw : Memory.wf d m = true) :
    cellsRead d (cellsWrite d b a m) a b.length = b := by
  refine List.ext_getElem (by simp) fun i h1 h2 => ?_
  simp only [cellsRead, List.getElem_map, List.getElem_range]
  rw [cellRead_cellsWrite d b a i h2 hw, List.getD_eq_getElem _ _ h2]

theorem tabGet_filter {α : Type} (d : α) (p : Nat → Bool) (n : Nat) (t : Tab α) :
    tabGet d n (t.filter fun c => p c.1) = if p n = true then tabGet d n t else d := by
  induction t with
  | nil => simp [tabGet]
  | cons q t ih =>
    obtain ⟨k, w⟩ := q
    by_cases hp : p k = true
    · rw [List.filter_cons_of_pos (by simpa using hp)]
      simp only [tabGet, ih]
      by_cases hk : k = n
      · subst hk; simp [hp]
      · simp [hk]
    · rw [List.filter_cons_of_neg (by simpa using hp)]
      simp only [tabGet, ih]
      by_cases hk : k = n
      · subst hk; simp [hp]
      · simp [hk]

/-- An erase leaves the default in its range and nothing else changed. -/
theorem cellRead_cellsClear (d : Byte) (a n x : Nat) (m : List Host.Cell) :
    cellRead d (cellsClear a n m) x = if x < a ∨ a + n ≤ x then cellRead d m x else d := by
  have h := tabGet_filter d (fun k => decide (k < a) || decide (a + n ≤ k)) x m
  simpa [cellRead, cellsClear] using h

/-! ### Byte strings -/

@[simp] theorem leBytes_length (k n : Nat) : (leBytes k n).length = k := by simp [leBytes]

@[simp] theorem zeros_length (n : Nat) : (zeros n).length = n := by simp [zeros]

@[simp] theorem bytesAt_length (b : Bytes) (a n : Nat) : (bytesAt b a n).length = n := by
  simp only [bytesAt, List.length_take, List.length_append, List.length_drop, List.length_replicate]; omega

@[simp] theorem padTo_length (n : Nat) (b : Bytes) : (padTo n b).length = n := bytesAt_length b 0 n

end Sys2Proof.Machine
end

