-- ==== Sys2Proof/Tests/Slice0.lean ====
section
/-! SUPPORT. Tests of one step each on small states, and for every obligation, named in the test, a state and operands
that meet its hypotheses (one test for each clause, at a boundary value where the clause has one). -/

namespace Sys2Proof.Tests
open Sys2Proof Sys2Proof.Machine

def onGlb (f : Glb → Glb) (s : State) : State := { s with glb := f s.glb }
def onPins (f : Pins → Pins) (s : State) : State := { s with pins := f s.pins }
def onClk (f : Clk → Clk) (s : State) : State := { s with clk := f s.clk }
def onCache (f : Cache → Cache) (s : State) : State := { s with cache := f s.cache }
def onNvc (f : Nvc → Nvc) (s : State) : State := { s with nvc := f s.nvc }
def onWch (f : Wch → Wch) (s : State) : State := { s with wch := f s.wch }
def onHep (f : Hep → Hep) (s : State) : State := { s with hep := f s.hep }
def onHqe (f : Hqe → Hqe) (s : State) : State := { s with hqe := f s.hqe }
def onIng (f : Ing → Ing) (s : State) : State := { s with ing := f s.ing }
def onBal (f : Bal → Bal) (s : State) : State := { s with bal := f s.bal }
def onSec (f : Sec → Sec) (s : State) : State := { s with sec := f s.sec }
def onMed (f : Med → Med) (s : State) : State := { s with med := f s.med }
def onPlf (f : Plf → Plf) (s : State) : State := { s with plf := f s.plf }
def onFar (f : Far → Far) (s : State) : State := { s with far := f s.far }
def onPar (f : Par → Par) (s : State) : State := { s with par := f s.par }
def onTil (f : Til → Til) (s : State) : State := { s with til := f s.til }
def onSnp (f : Snp → Snp) (s : State) : State := { s with snp := f s.snp }
def onPeer (f : Peer → Peer) (s : State) : State := { s with peer := f s.peer }
def onPair (f : Pairing → Pairing) (s : State) : State := { s with pair := f s.pair }
def onRdm (f : Rdm → Rdm) (s : State) : State := { s with rdm := f s.rdm }
def onMch (f : Mch → Mch) (s : State) : State := { s with mch := f s.mch }
def onDrc (f : Drc → Drc) (s : State) : State := { s with drc := f s.drc }
def onEvr (f : Evr → Evr) (s : State) : State := { s with evr := f s.evr }
def onSvc (f : Svc → Svc) (s : State) : State := { s with svc := f s.svc }
def onNor (m : List Host.Cell) (s : State) : State := { s with nor := m }
def onDram (m : List Host.Cell) (s : State) : State := { s with dram := m }
def wProfile (slot : Nat) (recs : Bytes) : Bytes :=
  let body := recs ++ zeros 8
  let head := leBytes 4 0x9640F11E ++ leBytes 2 2 ++ leBytes 2 slot ++ leBytes 4 (0x20 + body.length) ++ zeros 16
  head ++ leBytes 4 (crc32c (head ++ body)) ++ body
def wDimms : List Spd := (List.range 12).map fun c => ⟨Fin.ofNat 12 c, 0, 64, 1, true, true, true, true, 7⟩
def s0 : State := {}
/-- In service, ports up. -/
def sN : State := onGlb (fun x => { x with service := .normal, resetHeld := false }) s0
def f0 : FnId := ⟨0, 0⟩
def kA : QKey := ⟨f0, 0⟩
def kI : QKey := ⟨f0, 1⟩
def qA : Qp := { newQp kA 5 true none 0x10000 0x20000 4 4 0 1 0 with tail := 3 }
def qI : Qp := { newQp kI 6 false (some 1) 0x30000 0x40000 4 4 1 1 0 with tail := 3 }
/-- An entry of the administrative queue, and one of the I/O queue. -/
def cA (op : Byte) : HostCmd :=
  { q := kA, opcode := op, flags := 0, cid := 0x77, nsid := 0, fed := 0, rsv7 := 0, hostTag := 0, lba := 0, nblk := 0, cdw7 := 0, dptr0 := 0,
    dlistLen := 0, rsv2c := 0, cdw12 := 0, cdw13 := 0, cdw14 := 0, cdw15 := 0, dlist := [], buf := [], buf2 := [] }
def cI (op : Byte) (lba : Word64) (n : Word32) : HostCmd := { cA op with q := kI, nsid := 1, lba := lba, nblk := n, dptr0 := 0x1000 }
/-- In service, with an administrative and an I/O queue pair of PF0 of port 0, one tenant with a namespace. -/
def sH : State :=
  { sN with
    pins := { sN.pins with coresOut := true, dramReady := true, norRstLow := false, chainDriven := true },
    hep := { sN.hep with port0 := { sN.hep.port0 with dlUp := true, mayTrain := true, inDetect := false } },
    hqe := { sN.hqe with qps := [qA, qI], tenants := [{ id := 1, g := 100, c := 100, relay := false, shared := false, domain := 1 }],
                         domains := [{ id := 1 }], nss := [{ id := 1, tenant := 1, size := 1000, mode := 0, owner := false }] },
    ing := { sN.ing with blocks := 2 ^ 21 },
    peer := { sN.peer with role := .sole, epoch := 3 } }
/-- An outstanding command of the administrative queue. -/
def cmdW (id : Nat) (k : QKey) (op : Byte) (stage : CmdStage) : Cmd :=
  { id := id, q := k, cid := 0x55, op := op, tenant := some 1, nsid := 1, lba := 0, nblk := 1, tag := none, bufs := [(0x1000, 4096)], stage := stage,
    origin := .host, ordered := false, silent := false, arrived := [], gens := [], acked := [], status := 0, good := 1, gathered := [] }
/-- The same with outstanding commands. -/
def sC (l : List Cmd) : State := { sH with hqe := { sH.hqe with cmds := l, nextCmd := 20 } }
def dgBusy : State := onSec (fun x => { x with dg := { x.dg with busy := true } }) s0
/-- A frame with the keyed flag and the tag that the service key gives it. -/
def kf (s : State) (f : DwFrame) : DwFrame := let g := { f with flags := 2 }; { g with tag := cmac ((slotOf s 0x1FF3).material.take 32) (taggedPart s g) }
theorem keyed_kf (s : State) (f : DwFrame) : keyedFrame (kf s f) = true := by
  have e : (kf s f).flags = 2 := by simp only [kf]
  unfold keyedFrame; rw [e]; decide +kernel
theorem asked_kf (s : State) (f : DwFrame) (h1 : portHears s f = true) (h2 : (s.svc.stored, s.svc.busy) = (none, none)) (h3 : s.sec.vault.out = false)
    (h4 : (slotOf s 0x1FF3).state = .active)
    (h5 : (match s.svc.keyedSeq with | some n => decide (n.toNat < f.seq.toNat) | none => true) = true) : Asked s (kf s f) := by
  have hs : s.svc.stored = none := congrArg Prod.fst h2
  have hb : s.svc.busy = none := congrArg Prod.snd h2
  have hf : Fresh s (kf s f) := by simp [Fresh, hs, hb]
  refine And.intro h1 (And.intro hf (.inr ⟨keyed_kf s f, h3, ?_⟩))
  have e : taggedPart s (kf s f) = taggedPart s { f with flags := 2 } := by unfold kf; generalize cmac _ _ = y; simp only [taggedPart]
  have g : (kf s f).tag = cmac ((slotOf s 0x1FF3).material.take 32) (taggedPart s { f with flags := 2 }) := by simp only [kf]
  have q : (kf s f).seq = f.seq := by simp only [kf]
  clear hf
  generalize kf s f = k at *
  unfold keyPasses
  rw [e, g, q]
  simp only [serviceKey, h4]
  generalize cmac _ _ = y
  simp only [beq_self_eq_true, Bool.true_and]
  exact h5
end Sys2Proof.Tests

set_option Elab.async false

namespace Sys2Proof.Tests.A
set_option Elab.async false
open Sys2Proof Sys2Proof.Machine Sys2Proof.Tests

set_option maxHeartbeats 4000000
def wA1 : State := onCache (fun x => { x with parRefetch := 5, scrCe := 1}) s0
def wA2 : State := onSec (fun x => { x with repaired := 5, failed := 1}) sN
def wA3 : State := onSvc (fun x => { x with authFail := 1}) sN
def wA4 : State := onBal (fun x => { x with illegal := 1}) sN
def wA5 : State := onBal (fun x => { x with crcErr := 1}) sN
def wA6 : State := onHep (fun x => { x with port1 := {x.port1 with droppedDb := 5, subsetViol := 3}}) sN
def wA7 : State := onSec (fun x => { x with dg := { x.dg with done := true, result := List.replicate 32 7 } }) sN
def wA8 : State := onEvr (fun x => { x with head := 0x1234567890 }) sN
def wA9 : State := onEvr (fun x => { x with latch1 := [(evrPairs.head!, 0x12)] }) sN
def wA10 : State := onHep (fun x => { x with port1 := {x.port1 with subsetViol := 0xFFFF}}) sN
def wA11 : State := onHep (fun x => { x with port1 := {x.port1 with cause := 0x3F}}) sN
def wA12 : State := onNvc (fun x => { x with wrRefused := true, sectorBusy := true }) sN
def wA13 : State := onSec (fun x => { x with dg := { x.dg with seqErr := true, earlyCmp := true } }) sN
def wA14 : State := onSec (fun x => { x with slots := [(3, { type := 1, state := .active })] }) s0
def wA15 : State := onSec (fun x => { x with dg := { x.dg with lastValid := 2 } }) dgBusy
def wA16 : State := onSec (fun x => { x with dg := { x.dg with lastGiven := true, alg := 1, message := [1,2] } }) dgBusy
def wA17 : State := onSec (fun x => { x with dg := { x.dg with done := true } }) s0
def wA18 : State := onSec (fun x => { x with dg := { x.dg with comparing := true, result := List.replicate 32 1, expect := List.replicate 48 1 } }) s0
def wA19 : State := onWch (fun x => { x with valid := false, restoreLow := 9 }) s0
def wA20 : State := onWch (fun x => { x with valid := false, pending := some (.restore 3 4) }) s0
def wA21 : State := onWch (fun x => { x with pending := some (.other .clearTamper) }) s0
def wA22 : State := onWch (fun x => { x with wrLost := true }) s0
def wA23 : State := onWch (fun x => { x with pending := some (.other (.failedStarts 9)) }) s0
def wA24 : State := onWch (fun x => { x with latched := true, causes := 3, pending := some (.other (.clearTamper)) }) s0
def wA25 : State := onWch (fun x => { x with opSeconds := 0xFFFFFFFF }) s0
def wA26 : State := onPeer (fun x => { x with swapLeft := 3 }) (onWch (fun x => { x with opSeconds := 86399 }) s0)
def wA27 : State := onGlb (fun x => { x with powered := false }) s0
def wA28 : State := onPins (fun x => { x with norRstLow := false }) sN
def wA29 : State := onNvc (fun x => { x with running := some ⟨true, 0x10000, [], false⟩ }) (onPins (fun x => { x with norRstLow := false }) sN)
def wA30 : State := onNvc (fun x => { x with running := some ⟨true, 0x10000, [], false⟩, reads := [(3,4)] }) s0
def wA31 : State := onNvc (fun x => { x with suspended := some ⟨false, 0x10000, [1], false⟩, reads := [(3,4)], readable := false }) s0
def wA32 : State := onNvc (fun x => { x with suspended := some ⟨false, 0x10000, [1], false⟩ }) s0
def wA33 : State := onNor [(16, 0)] (onPins (fun x => { x with norRstLow := false }) sN)
def wA34 : State := onNvc (fun x => { x with running := some ⟨false, 16, [1,2,3,4], false⟩ }) s0
def wA35 : State := onNor [(16, 1), (0x10000, 3)] (onNvc (fun x => { x with running := some ⟨true, 0x10000, [], false⟩ }) s0)
def wA36 : State := onNor [(0x6100000, 1), (0x6110000, 3)] (onNvc (fun x => { x with running := some ⟨true, 0x6100000, [], false⟩ }) s0)
theorem test_met_RegisterReads_CountersClearOnRead_1 :
    ∃ (_s : State) (r : RegRead), (Instr.sramErrRead r).wf = true :=
  ⟨s0, ⟨.core, 0x204, 32⟩, by decide +kernel⟩
theorem test_met_RegisterReads_CountersClearOnRead_2 :
    ∃ (_s : State) (r : RegRead), (Instr.sealErrRead r).wf = true :=
  ⟨wA2, ⟨.core, 0xA00008, 32⟩, by decide +kernel⟩
theorem test_met_RegisterReads_CountersClearOnRead_3 :
    ∃ (_s : State) (r : RegRead), (Instr.svcStatusRead r).wf = true :=
  ⟨wA3, ⟨.host 1, 0x1300000, 32⟩, by decide +kernel⟩
theorem test_met_RegisterReads_CountersClearOnRead_4 :
    ∃ (_s : State) (r : RegRead), (Instr.decErrRead r).wf = true :=
  ⟨wA4, ⟨.core, 0x900040, 64⟩, by decide +kernel⟩
theorem test_met_RegisterReads_CountersClearOnRead_5 :
    ∃ (_s : State) (r : RegRead), (Instr.decCrcRead r).wf = true :=
  ⟨wA5, ⟨.core, 0x900044, 32⟩, by decide +kernel⟩
theorem test_met_RegisterReads_CountersClearOnRead_6 :
    ∃ (_s : State) (n : Fin 2) (r : RegRead), (Instr.portLogRead n r).wf = true :=
  ⟨wA6, 1, ⟨.host 1, 0x21000C, 32⟩, by decide +kernel⟩
theorem test_met_RegisterReads_DigestWordRead_1 :
    ∃ (s : State) (n : Fin 12) (q : Requester), reaches s q false (10494080 + 4 * ↑n) = true :=
  ⟨wA7, 11, .core, by decide +kernel⟩
theorem test_met_RegisterReads_EvrLowWordLatches_1 :
    ∃ (s : State) (p : Fin 2) (a : ℕ), a ∈ evrPairs ∧ insideSubset s p false a = true :=
  ⟨wA8, 1, evrPairs.head!, by decide +kernel⟩
theorem test_met_RegisterWritesAndSubset_OutsideSubsetAccess_1 :
    ∃ (s : State) (p : Fin 2) (o : BitVec 25) (write : Bool), o.toNat % 4 = 0 ∧ insideSubset s p write o.toNat = false :=
  ⟨sN, 0, 0x1500010, true, by decide +kernel⟩
theorem test_met_RegisterWritesAndSubset_OutsideSubsetAccess_2 :
    ∃ (_s : State) (p : Fin 2) (o : BitVec 25) (w : ℕ), (Instr.outsideSubsetAccess p o w true).wf = true :=
  ⟨sN, 0, 0x1500011, 8, by decide +kernel⟩
theorem test_met_RegisterWritesAndSubset_OutsideSubsetAccess_3 :
    ∃ (_s : State) (p : Fin 2) (o : BitVec 25) (w : ℕ), (Instr.outsideSubsetAccess p o w false).wf = true :=
  ⟨sN, 0, 0x200004, 32, by decide +kernel⟩
theorem test_met_RegisterWritesAndSubset_RegisterWrites_1 :
    ∃ (_s : State) (_q : Requester) (o : ℕ) (w : ℕ) (_v : Word64), inBar0 o w = true ∧ acceptedAccess o w = false :=
  ⟨sN, .host 0, 0x200004, 16, 7, by decide +kernel⟩
theorem test_met_RegisterWritesAndSubset_RegisterWrites_2 :
    ∃ (s : State) (_p : Fin 2) (_v : Word64), s.glb.service ≠ Service.startUp ∧ s.glb.service ≠ Service.romService :=
  ⟨wA11, 1, 0x15, by decide +kernel⟩
theorem test_met_DigestMisuse_1 :
    ∃ (s : State) (ctl : Word32), s.sec.dg.busy = true ∧ BitVec.getLsbD ctl 31 = true ∧ BitVec.getLsbD ctl 30 = false ∧ BitVec.getLsbD ctl 29 = false :=
  ⟨dgBusy, 0x80000000, by decide +kernel⟩
theorem test_met_DigestMisuse_2 :
    ∃ (s : State) (_w : Word32), s.sec.dg.busy = false :=
  ⟨s0, 7, by decide +kernel⟩
theorem test_met_DigestMisuse_3 :
    ∃ (s : State) (ctl : Word32), s.sec.dg.busy = false ∧ BitVec.getLsbD ctl 31 = true ∧ BitVec.getLsbD ctl 30 = false ∧ BitVec.getLsbD ctl 29 = false ∧ BitVec.getLsbD ctl 1 = true ∧ ((slotOf s (BitVec.extractLsb' 16 13 ctl).toNat).state ≠ SlotState.active ∨ (slotOf s (BitVec.extractLsb' 16 13 ctl).toNat).type ≠ 5) :=
  ⟨s0, 0x80000002, by decide +kernel⟩
theorem test_met_DigestMisuse_4 :
    ∃ (_s : State) (ctl : Word32), BitVec.getLsbD ctl 31 = false ∧ BitVec.getLsbD ctl 30 = true ∧ BitVec.getLsbD ctl 29 = false :=
  ⟨dgBusy, 0x40000000, by decide +kernel⟩
theorem test_met_DigestRuns_1 :
    ∃ (s : State) (ctl : Word32), s.sec.dg.busy = false ∧ BitVec.getLsbD ctl 31 = true ∧ BitVec.getLsbD ctl 30 = false ∧ BitVec.getLsbD ctl 29 = false ∧ BitVec.getLsbD ctl 1 = false :=
  ⟨s0, 0x80000001, by decide +kernel⟩
theorem test_met_DigestRuns_2 :
    ∃ (s : State) (_w : Word32), s.sec.dg.busy = true ∧ s.sec.dg.lastGiven = false :=
  ⟨dgBusy, 0x61626364, by decide +kernel⟩
theorem test_met_DigestRuns_3 :
    ∃ (s : State), s.sec.dg.busy = true ∧ s.sec.dg.lastGiven = true :=
  ⟨wA16, by decide +kernel⟩
theorem test_met_DigestRuns_4 :
    ∃ (s : State) (ctl : Word32), BitVec.getLsbD ctl 31 = false ∧ BitVec.getLsbD ctl 30 = false ∧ BitVec.getLsbD ctl 29 = true ∧ s.sec.dg.busy = false :=
  ⟨s0, 0x20000000, by decide +kernel⟩
theorem test_met_DigestRuns_5 :
    ∃ (s : State), s.sec.dg.comparing = true :=
  ⟨wA18, by decide +kernel⟩
theorem test_met_WatchRestore_1 :
    ∃ (s : State) (_u : Word32), s.wch.valid = false ∧ s.wch.pending = none :=
  ⟨wA19, 5, by decide +kernel⟩
theorem test_met_WatchRestore_2 :
    ∃ (s : State) (_u : Word32), s.wch.valid = true :=
  ⟨s0, 5, by decide +kernel⟩
theorem test_met_WatchRestore_3 :
    ∃ (s : State) (c : Word32) (n : Word32), s.wch.valid = false ∧ s.wch.pending = some (WchPending.restore c n) :=
  ⟨wA20, 3, 4, by decide +kernel⟩
theorem test_met_WatchAndNor_WatchDomain_1 :
    ∃ (_s : State) (w : WchWrite), w ≠ WchWrite.clearWrLost ∧ (Instr.wchRegisterWrite w).wf = true :=
  ⟨s0, .failedStarts 4, by decide +kernel⟩
theorem test_met_WatchAndNor_WatchDomain_2 :
    ∃ (s : State) (n : ℕ), s.wch.pending = some (WchPending.other (WchWrite.failedStarts n)) ∧ n < 256 :=
  ⟨wA23, 9, by decide +kernel⟩
theorem test_met_WatchAndNor_WatchDomain_3 :
    ∃ (s : State), s.wch.pending = some (WchPending.other WchWrite.clearTamper) :=
  ⟨wA24, by decide +kernel⟩
theorem test_met_WatchAndNor_WatchDomain_4 :
    ∃ (s : State), s.glb.powered = true :=
  ⟨wA25, by decide +kernel⟩
theorem test_met_WatchAndNor_WatchDomain_5 :
    ∃ (s : State), s.glb.powered = false :=
  ⟨wA27, by decide +kernel⟩
theorem test_met_WatchAndNor_NorController_1 :
    ∃ (s : State) (a : ℕ) (n : ℕ), (Instr.norReadRequest a n).wf = true ∧ norOpen s = true ∧ s.nvc.running = none ∧ s.nvc.suspended = none ∧ s.nvc.readable = true :=
  ⟨wA28, 5, 3, by decide +kernel⟩
theorem test_met_WatchAndNor_NorController_2 :
    ∃ (s : State) (a : ℕ) (n : ℕ), (Instr.norReadRequest a n).wf = true ∧ norOpen s = true ∧ s.nvc.running.isSome = true ∧ s.nvc.suspended = none ∧ s.nvc.ranMin = false :=
  ⟨wA29, 5, 3, by decide +kernel⟩
theorem test_met_WatchAndNor_NorController_3 :
    ∃ (s : State), s.nvc.running.isSome = true ∧ s.nvc.suspended = none ∧ s.nvc.reads ≠ [] :=
  ⟨wA30, by decide +kernel⟩
theorem test_met_WatchAndNor_NorController_4 :
    ∃ (s : State) (o : NorOp) (a : ℕ) (n : ℕ), s.nvc.suspended = some o ∧ o.erase = false ∧ s.nvc.readable = false ∧ s.nvc.reads = [(a, n)] ∧ s.nvc.work = [] :=
  ⟨wA31, ⟨false, 0x10000, [1], false⟩, 3, 4, by decide +kernel⟩
theorem test_met_WatchAndNor_NorController_5 :
    ∃ (s : State), s.nvc.suspended.isSome = true ∧ s.nvc.running = none ∧ s.nvc.halted = false :=
  ⟨wA32, by decide +kernel⟩
theorem test_met_WatchAndNor_NorController_6 :
    ∃ (s : State) (a : ℕ) (d : Bytes), (Instr.norProgramRequest a d).wf = true ∧ norOpen s = true ∧ s.nvc.halted = false ∧ s.nvc.running = none ∧ s.nvc.suspended = none :=
  ⟨wA28, 16, List.replicate 4 0x11, by decide +kernel⟩
theorem test_met_WatchAndNor_NorController_7 :
    ∃ (s : State) (k : ℕ), k < 65536 ∧ norOpen s = true ∧ s.nvc.halted = false ∧ s.nvc.running = none ∧ s.nvc.suspended = none :=
  ⟨wA28, 65535, by decide +kernel⟩
theorem test_met_WatchAndNor_NorController_8 :
    ∃ (s : State) (o : NorOp), s.nvc.running = some o ∧ s.nvc.suspended = none ∧ s.nvc.reads = [] ∧ s.nvc.work = [] ∧ s.nvc.limitHit = false ∧ o.drain = false ∧ recorderErase o = false :=
  ⟨wA34, ⟨false, 16, [1,2,3,4], false⟩, by decide +kernel⟩
theorem test_met_WatchAndNor_NorController_9 :
    ∃ (s : State) (o : NorOp), s.nvc.running = some o ∧ o.drain = false ∧ recorderErase o = true ∧ s.evr.lost.isZero = true :=
  ⟨wA36, ⟨true, 0x6100000, [], false⟩, by decide +kernel⟩
end Sys2Proof.Tests.A

set_option Elab.async false

namespace Sys2Proof.Tests.C
set_option Elab.async false
open Sys2Proof Sys2Proof.Machine Sys2Proof.Tests

set_option maxHeartbeats 4000000
def wC1 : State := onCache (fun x => { x with slices := [(3, { merging := [(77, [(0, 9), (126, 8)])] })] }) s0
def wC2 : State := onCache (fun x => { x with slices := [(3, { lines := [8], merging := [(77, [(0, 9), (126, 8)])] })] }) s0
def wC3 : State := onCache (fun x => { x with slices := [(3, { lines := [8] })] }) s0
def wC4 : State := onCache (fun x => { x with slices := [(3, { misses := [8] })] }) s0
def wC5 : State := onCache (fun x => { x with slices := [(3, { misses := [8], refetch := [(8, 2)] })] }) s0
def wC6 : State := onGlb (fun x => { x with debugOff := true, resetHeld := true, cause := .pin, testMode := true }) s0
def wC7 : State := onGlb (fun x => { x with resetPending := true, ovrValid := true }) (onSec (fun x => { x with meas := [(1,[3])] }) sN)
def wC8 : State := onGlb (fun x => { x with resetHeld := false }) s0
def wC9 : State := onGlb (fun x => { x with ovrValid := true }) (onWch (fun x => { x with powerCycles := 0xFFFFFFFF}) sN)
def wC10 : State := onPins (fun x => { x with pwrFail := true }) (onSec (fun x => { x with slots := [(1,{state := .active})] }) sN)
def wC11 : State := onGlb (fun x => { x with resetHeld := false, step := 1 }) s0
def wC12 : State := onPins (fun x => { x with norRstLow := false }) (onWch (fun x => { x with failedStarts := 2 }) (onGlb (fun x => { x with resetHeld := false, step := 2 }) s0))
def wC13 : State := onPins (fun x => { x with norRstLow := false }) (onWch (fun x => { x with failedStarts := 3 }) (onGlb (fun x => { x with resetHeld := false, step := 2 }) s0))
def wC14 : State := onPins (fun x => { x with listening := true }) (onGlb (fun x => { x with resetHeld := false, step := 10 }) s0)
def wC15 : State := onGlb (fun x => { x with resetHeld := false, step := 9 }) s0
def wC16 : State := onPins (fun x => { x with listening := true, svcRequest := true }) (onGlb (fun x => { x with resetHeld := false, step := 10 }) s0)
def wC17 : State := onNor (cellsWrite norDefault (buildHeader ⟨false, 100, 8, 0, 40, 1⟩) 0 (cellsWrite norDefault (buildHeader ⟨true, 200, 10, 1, 40, 2⟩) 0x10000 [])) (onGlb (fun x => { x with resetHeld := false, step := 4 }) s0)
def wC18 : State := onGlb (fun x => { x with resetHeld := false, step := 4 }) s0
def wC19 : State := onGlb (fun x => { x with resetHeld := false, step := 5, header := some ⟨true, 250, 10, 1, 40, 2⟩ }) s0
def wC20 : State := onGlb (fun x => { x with resetHeld := false, step := 6 }) s0
def wC21 : State := onGlb (fun x => { x with resetHeld := false, step := 7 }) s0
def wC22 : State := onGlb (fun x => { x with resetHeld := false, step := 8 }) s0
def wC23 : State := onGlb (fun x => { x with resetHeld := false, step := 11 }) s0
def wC24 : State := onPins (fun x => { x with fwRead := true, secondBank := true }) (onGlb (fun x => { x with resetHeld := false, step := 12 }) s0)
def wC25 : State := onPins (fun x => { x with verified := true }) (onGlb (fun x => { x with resetHeld := false, step := 13 }) s0)
def wC26 : State := onSec (fun x => { x with rng := { x.rng with st := .seeded } }) (onPins (fun x => { x with coresOut := true }) (onGlb (fun x => { x with resetHeld := false, step := 13 }) s0))
def wC27 : State := onPins (fun x => { x with holdup := some (1,2,3) }) (onGlb (fun x => { x with resetHeld := false, service := .recovery }) s0)
def wC28 : State := onClk (fun x => { x with tjSeen := true, tjPeak := 50 }) sN
def wC29 : State := onClk (fun x => { x with throttled := true }) sN
def wC30 : State := onGlb (fun x => { x with service := .romService }) sN
def wC31 : State := onPins (fun x => { x with thermal := true }) sN
def wC32 : State := onNor (cellsWrite norDefault (wProfile 2 (leBytes 4 0x0401 ++ leBytes 4 8 ++ leBytes 8 5)) 0x40000 []) (onGlb (fun x => { x with resetHeld := false, step := 6, pinSel := 2 }) s0)
theorem test_met_CacheLines_CacheMerging_1 :
    ∃ (s : State) (k : Fin 16) (line : ℕ) (off : Fin 128) (d : Bytes), (Instr.cacheWrite k line off d).wf = true ∧ (sliceOf s ↑k).merging.length < 63 :=
  ⟨s0, 3, 77, 126, [1, 2], by decide +kernel⟩
theorem test_met_CacheLines_CacheMerging_2 :
    ∃ (s : State) (_k : Fin 16) (_line : ℕ), tabWf { } s.cache.slices = true :=
  ⟨wC1, 3, 77, by decide +kernel⟩
theorem test_met_CacheLines_CacheReads_1 :
    ∃ (s : State) (k : Fin 16) (st : ℕ) (a : ℕ), lineAwaited (sliceOf s ↑k) st = false ∧ hits (sliceOf s ↑k) (a / 128) = true :=
  ⟨wC2, 3, 5, 1024, by decide +kernel⟩
theorem test_met_CacheLines_CacheReads_2 :
    ∃ (s : State) (k : Fin 16) (st : ℕ) (a : ℕ), lineAwaited (sliceOf s ↑k) st = false ∧ hits (sliceOf s ↑k) (a / 128) = false :=
  ⟨wC3, 3, 5, 1023, by decide +kernel⟩
theorem test_met_CacheLines_CacheReads_3 :
    ∃ (_s : State) (_k : Fin 16) (_st : ℕ) (_a : ℕ) (_c : Option ℕ) (bits : Fin 3), bits ≠ 2 :=
  ⟨s0, 3, 5, 1023, none, 0, by decide +kernel⟩
theorem test_met_CacheLines_CacheReads_4 :
    ∃ (s : State) (k : Fin 16) (line : ℕ), line ∈ (sliceOf s ↑k).misses ∧ (sliceOf s ↑k).queued = [] ∧ (sliceOf s ↑k).waiting = [] ∧ 0 < sliceLines s ↑k ∧ tabWf { } s.cache.slices = true :=
  ⟨wC4, 3, 8, by decide +kernel⟩
theorem test_met_CacheLines_CacheReads_5 :
    ∃ (s : State) (k : Fin 16) (line : ℕ), line ∈ (sliceOf s ↑k).misses ∧ (sliceOf s ↑k).queued = [] ∧ (sliceOf s ↑k).waiting = [] ∧ tabGet 0 line (sliceOf s ↑k).refetch = 2 ∧ tabWf { } s.cache.slices = true :=
  ⟨wC5, 3, 8, by decide +kernel⟩
theorem test_met_ChipWideResets_1 :
    ∃ (_s : State) (n : ℕ), n < 500 :=
  ⟨s0, 499, by decide +kernel⟩
theorem test_met_ChipWideResets_2 :
    ∃ (s : State) (n : ℕ), 1000 ≤ n ∧ s.glb.powered = true ∧ (s.glb.resetHeld = false ∨ s.glb.cause ≠ ResetCause.powerOn) :=
  ⟨sN, 1000, by decide +kernel⟩
theorem test_met_ChipWideResets_3 :
    ∃ (s : State), s.glb.powered = true ∧ (s.glb.resetHeld = false ∨ s.glb.cause ≠ ResetCause.powerOn) :=
  ⟨sN, by decide +kernel⟩
theorem test_met_ChipWideResets_4 :
    ∃ (s : State), s.glb.resetPending = true :=
  ⟨wC7, by decide +kernel⟩
theorem test_met_ChipWideResets_5 :
    ∃ (s : State), s.glb.service = Service.startUp ∧ s.glb.resetHeld = false ∧ s.glb.powered = true :=
  ⟨wC8, by decide +kernel⟩
theorem test_met_ChipWideResets_6 :
    ∃ (s : State) (_b : Bool), s.glb.powered = true :=
  ⟨wC9, true, by decide +kernel⟩
theorem test_met_ChipWideResets_7 :
    ∃ (s : State), s.glb.powered = true ∧ s.pins.pwrFail = true :=
  ⟨wC10, by decide +kernel⟩
theorem test_met_StartUpSequence_StartUpBegins_1 :
    ∃ (s : State) (_h : Bool) (_p : BitVec 2), s.glb.powered = true ∧ s.glb.resetHeld = true ∧ s.glb.testMode = false :=
  ⟨s0, true, 2, by decide +kernel⟩
theorem test_met_StartUpSequence_StartUpBegins_2 :
    ∃ (s : State), s.glb.powered = true ∧ s.glb.resetHeld = false :=
  ⟨wC8, by decide +kernel⟩
theorem test_met_StartUpSequence_StartUpBegins_3 :
    ∃ (s : State), starting s = true ∧ s.glb.step = 1 ∧ s.pins.svcRequest = false :=
  ⟨wC11, by decide +kernel⟩
theorem test_met_StartUpSequence_StartUpBegins_4 :
    ∃ (s : State), starting s = true ∧ s.glb.step = 2 ∧ s.pins.norRstLow = false ∧ s.pins.svcRequest = false ∧ s.wch.failedStarts < 3 ∧ s.wch.pending = none :=
  ⟨wC12, by decide +kernel⟩
theorem test_met_StartUpSequence_StartUpBegins_5 :
    ∃ (s : State), starting s = true ∧ s.glb.step = 2 ∧ s.pins.norRstLow = false ∧ s.pins.svcRequest = false ∧ 3 ≤ s.wch.failedStarts :=
  ⟨wC13, by decide +kernel⟩
theorem test_met_StartUpSequence_StartUpBegins_6 :
    ∃ (s : State), starting s = true ∧ s.pins.listening = true ∧ s.pins.svcRequest = false ∧ 10 ≤ s.glb.step :=
  ⟨wC14, by decide +kernel⟩
theorem test_met_StartUpSequence_StartUpBegins_7 :
    ∃ (s : State), starting s = true ∧ s.glb.step < 10 :=
  ⟨wC15, by decide +kernel⟩
theorem test_met_StartUpSequence_StartUpBegins_8 :
    ∃ (s : State), starting s = true ∧ s.pins.listening = true ∧ s.pins.svcRequest = true ∧ 10 ≤ s.glb.step :=
  ⟨wC16, by decide +kernel⟩
theorem test_met_StartUpSequence_StartUpReads_1 :
    ∃ (s : State) (b : Bool) (h : BootHeader), starting s = true ∧ s.glb.step = 4 ∧ s.pins.svcRequest = false ∧ chooseHeader s = some (b, h) :=
  ⟨wC17, true, ⟨true, 200, 10, 1, 40, 2⟩, by decide +kernel⟩
theorem test_met_StartUpSequence_StartUpReads_2 :
    ∃ (s : State), starting s = true ∧ s.glb.step = 4 ∧ s.pins.svcRequest = false ∧ chooseHeader s = none :=
  ⟨wC18, by decide +kernel⟩
theorem test_met_StartUpSequence_StartUpReads_3 :
    ∃ (s : State) (h : BootHeader), starting s = true ∧ s.glb.step = 5 ∧ s.pins.svcRequest = false ∧ s.glb.header = some h :=
  ⟨wC19, ⟨true, 250, 10, 1, 40, 2⟩, by decide +kernel⟩
theorem test_met_StartUpSequence_StartUpReads_4 :
    ∃ (s : State), starting s = true ∧ s.glb.step = 6 ∧ s.pins.svcRequest = false ∧ s.glb.ovrValid = false ∧ checkProfile (profileBytes s s.glb.pinSel.toNat) s.glb.pinSel.toNat = none :=
  ⟨wC20, by decide +kernel⟩
theorem test_met_StartUpSequence_StartUpReads_5 :
    ∃ (s : State), starting s = true ∧ s.glb.step = 7 ∧ s.pins.svcRequest = false :=
  ⟨wC21, by decide +kernel⟩
theorem test_met_StartUpSequence_StartUpReads_6 :
    ∃ (s : State) (slots : List Spd) (temps : List ℤ), (Instr.dramInit slots temps).wf = true ∧ starting s = true ∧ s.glb.step = 8 ∧ s.pins.svcRequest = false ∧ populationOk (List.filter (fun r => slotEnabled s.glb.profile r.channel r.slot) slots) = false :=
  ⟨wC22, [], List.replicate 12 20, by decide +kernel⟩
theorem test_met_StartUpSequence_StartUpReads_7 :
    ∃ (s : State), starting s = true ∧ s.glb.step = 9 ∧ s.pins.svcRequest = false :=
  ⟨wC15, by decide +kernel⟩
theorem test_met_StartUpSequence_StartUpEnds_1 :
    ∃ (s : State), starting s = true ∧ (s.glb.step = 10 ∨ s.glb.step = 11) ∧ s.pins.fwRead = false ∧ s.pins.svcRequest = false ∧ s.pins.secondBank = false :=
  ⟨wC23, by decide +kernel⟩
theorem test_met_StartUpSequence_StartUpEnds_2 :
    ∃ (s : State), starting s = true ∧ s.pins.fwRead = true ∧ s.pins.verified = false ∧ s.pins.svcRequest = false ∧ bankCheck s s.glb.bankB ≠ 0 ∧ s.pins.secondBank = true :=
  ⟨wC24, by decide +kernel⟩
theorem test_met_StartUpSequence_StartUpEnds_3 :
    ∃ (s : State), starting s = true ∧ s.pins.verified = true ∧ s.pins.coresOut = false ∧ s.pins.svcRequest = false :=
  ⟨wC25, by decide +kernel⟩
theorem test_met_StartUpSequence_StartUpEnds_4 :
    ∃ (s : State), starting s = true ∧ s.pins.coresOut = true ∧ s.sec.rng.st = RngState.seeded ∧ s.peer.linkUp = false ∧ s.wch.pending = none :=
  ⟨wC26, by decide +kernel⟩
theorem test_met_StartUpSequence_StartUpEnds_5 :
    ∃ (s : State), s.glb.service = Service.recovery ∧ s.plf.records = [] ∧ s.pins.holdup.isSome = true ∧ s.peer.pair0.inReset = false :=
  ⟨wC27, by decide +kernel⟩
theorem test_met_TemperatureAndPower_JunctionTemperature_1 :
    ∃ (s : State) (x : ℤ) (r : List ℤ), (Instr.junctionSensorRead (x :: r)).wf = true ∧ s.glb.powered = true ∧ s.glb.resetHeld = false ∧ (hottest r 1 (x, 0)).1 < s.clk.shutdownC :=
  ⟨wC28, 104, 105 :: List.replicate 14 90, by decide +kernel⟩
theorem test_met_TemperatureAndPower_JunctionTemperature_2 :
    ∃ (s : State) (x : ℤ) (r : List ℤ), (Instr.junctionSensorRead (x :: r)).wf = true ∧ s.glb.powered = true ∧ s.glb.resetHeld = false ∧ s.clk.shutdownC ≤ (hottest r 1 (x, 0)).1 ∧ s.pins.thermal = false ∧ s.glb.service = Service.romService :=
  ⟨wC30, 115, List.replicate 15 0, by decide +kernel⟩
theorem test_met_TemperatureAndPower_JunctionTemperature_3 :
    ∃ (s : State), s.pins.thermal = true :=
  ⟨wC31, by decide +kernel⟩
theorem test_met_TemperatureAndPower_JunctionTemperature_4 :
    ∃ (s : State), s.pins.thermal = false :=
  ⟨sN, by decide +kernel⟩
theorem test_met_StartUpSequence_StartUpReads_8 :
    ∃ (s : State) (n : ℕ) (l : List ProfRec), starting s = true ∧ s.glb.step = 6 ∧ s.pins.svcRequest = false ∧ s.glb.ovrValid = false ∧ checkProfile (profileBytes s s.glb.pinSel.toNat) s.glb.pinSel.toNat = some (n, l) :=
  ⟨wC32, 56, [⟨0x0401, 0, leBytes 8 5⟩], by decide +kernel⟩
theorem test_met_StartUpSequence_StartUpReads_9 :
    ∃ (s : State) (slots : List Spd) (temps : List ℤ), (Instr.dramInit slots temps).wf = true ∧ starting s = true ∧ s.glb.step = 8 ∧ s.pins.svcRequest = false ∧ populationOk (List.filter (fun r => slotEnabled s.glb.profile r.channel r.slot) slots) = true :=
  ⟨wC22, wDimms, List.replicate 12 20, by decide +kernel⟩
end Sys2Proof.Tests.C

set_option Elab.async false

namespace Sys2Proof.Tests.D
set_option Elab.async false
open Sys2Proof Sys2Proof.Machine Sys2Proof.Tests

set_option maxHeartbeats 4000000
def wD1 : State := onHep (fun x => {x with port1 := {x.port1 with perstLow := true}}) sH
def wD2 : State := onHep (fun x => {x with port1 := {x.port1 with cleanup := true, cleanFns := [0,1]}}) sH
def wD3 : State := onHep (fun x => {x with port0 := {x.port0 with numVf := 3}}) sH
def wD4 : State := onHep (fun x => {x with port0 := {x.port0 with numVf := 3, cleanFns := [3], cleanup := true}}) sH
def wD5 : State := onHep (fun x => {x with port0 := {x.port0 with numVf := 3, cleanFns := [0], cleanup := true}}) sH
def wD6 : State := onHep (fun x => {x with port1 := {x.port1 with mayTrain := true}}) sH
def wD7 : State := onHep (fun x => {x with port1 := {x.port1 with mayTrain := true, rateCap := 1}}) sH
def wD8 : State := onHep (fun x => {x with port0 := {x.port0 with frozen := true}}) sH
def wD9 : State := onHep (fun x => {x with port1 := {x.port1 with frozen := true, cause := 1}}) sH
def wD10 : State := onHep (fun x => {x with port0 := {x.port0 with cause := 2, first := 1}}) sH
def wD11 : State := onHep (fun x => {x with port0 := {x.port0 with droppedDb := 0xFFFF}}) sH
def wD12 : State := onHep (fun x => {x with msix := [⟨f0, 2047, 0x1000, 5, true, true⟩]}) sH
def wD13 : State := onHep (fun x => {x with d3 := [f0]}) sH
def wD14 : State := onHqe (fun x => {x with qps := [qI], admin := [{ f := f0, asq := 0x1000, acq := 0x2000 }]}) sH
def wD15 : State := onHqe (fun x => {x with qps := [qI], admin := [{ f := f0, asq := 0x1800, acq := 0x2000 }]}) sH
def wD16 : State := onHqe (fun x => {x with qps := [{ qA with frozen := some 3, freezeIdx := 2 }, qI]}) sH
def wD17 : State := onHqe (fun x => {x with qps := [{ qI with cqTail := 5 }]}) sH
def wD18 : State := onHqe (fun x => {x with qps := [{ qI with unsig := 5 }]}) sH
def wD19 : State := onHep (fun x => {x with msix := [⟨f0, 1, 0x1000, 5, false, false⟩]}) (onHqe (fun x => {x with qps := [{ qI with unsig := 5 }]}) sH)
theorem test_met_PortAndFunctionResets_PortResets_1 :
    ∃ (_s : State) (_p : Fin 2) (n : ℕ), 1000 ≤ n :=
  ⟨sH, 0, 1000, by decide +kernel⟩
theorem test_met_PortAndFunctionResets_PortResets_2 :
    ∃ (_s : State) (_p : Fin 2) (n : ℕ), n < 1000 :=
  ⟨sH, 0, 999, by decide +kernel⟩
theorem test_met_PortAndFunctionResets_PortResets_3 :
    ∃ (s : State) (p : Fin 2) (i : Instr), (i = Instr.hotReset p ∨ i = Instr.pcieLinkDown p) ∧ (portOf s p).dlUp = true :=
  ⟨sH, 0, .hotReset 0, by decide +kernel⟩
theorem test_met_PortAndFunctionResets_FunctionResets_1 :
    ∃ (s : State) (p : Fin 2), 0 ∉ (portOf s p).cleanFns :=
  ⟨wD3, 0, by decide +kernel⟩
theorem test_met_PortAndFunctionResets_FunctionResets_2 :
    ∃ (s : State) (f : FnId) (i : Instr), (i = Instr.d3hotEntry f ∨ i = Instr.d0Return f ∨ i = Instr.vfFlr f ∨ f.fn = 0 ∧ i = Instr.pf0Flr f.port) ∧ functionUp s f = false :=
  ⟨wD4, ⟨0, 4⟩, .d3hotEntry ⟨0, 4⟩, by decide +kernel⟩
theorem test_met_PortAndFunctionResets_FunctionResets_3 :
    ∃ (s : State) (f : FnId) (i : Instr), (i = Instr.d3hotEntry f ∨ i = Instr.d0Return f ∨ i = Instr.vfFlr f ∨ f.fn = 0 ∧ i = Instr.pf0Flr f.port) ∧ functionUp s f = true ∧ f.fn.toNat ∈ (portOf s f.port).cleanFns :=
  ⟨wD4, ⟨0, 3⟩, .d3hotEntry ⟨0, 3⟩, by decide +kernel⟩
theorem test_met_PortAndFunctionResets_FunctionResets_4 :
    ∃ (s : State) (f : FnId), f.fn ≠ 0 ∧ f.fn.toNat ≤ (portOf s f.port).numVf ∧ f.fn.toNat ∉ (portOf s f.port).cleanFns :=
  ⟨wD3, ⟨0, 3⟩, by decide +kernel⟩
theorem test_met_PortsTrainAndFreeze_LinkTraining_1 :
    ∃ (s : State) (p : Fin 2) (r : Fin 4) (w : Fin 6) (_flit : Bool), (portOf s p).mayTrain = true ∧ (portOf s p).inDetect = true ∧ (portOf s p).perstLow = false ∧ (portOf s p).cleanup = false ∧ r ≠ 0 ∧ (portOf s p).rateCap ≠ 0 ∧ w ≠ 0 :=
  ⟨wD6, 1, 3, 5, false, by decide +kernel⟩
theorem test_met_PortRelease_1 :
    ∃ (s : State) (p : Fin 2), (portOf s p).cause = 0 :=
  ⟨wD8, 0, by decide +kernel⟩
theorem test_met_PortRelease_2 :
    ∃ (s : State) (p : Fin 2), (portOf s p).cause ≠ 0 :=
  ⟨wD9, 1, by decide +kernel⟩
theorem test_met_PortsTrainAndFreeze_PortFreeze_1 :
    ∃ (s : State) (p : Fin 2) (i : Instr) (c : Fin 6), (i = Instr.tlpReceiveError p c ∧ c ≠ 0 ∨ i = Instr.pcieCompletionTimeout p ∧ c = 0) ∧ (portOf s p).dlUp = true ∧ (portOf s p).frozen = false :=
  ⟨sH, 0, .tlpReceiveError 0 5, 5, by decide +kernel⟩
theorem test_met_PortsTrainAndFreeze_PoisonedWrites_1 :
    ∃ (_s : State) (_p : Fin 2) (k : PoisonKind), (k = PoisonKind.bar2Write ∨ k = PoisonKind.bar0Write) :=
  ⟨wD11, 0, .bar2Write, by decide +kernel⟩
theorem test_met_PortsTrainAndFreeze_VectorsAndPower_1 :
    ∃ (s : State) (f : FnId) (v : BitVec 11), functionUp s f = true ∧ (v.toNat < if f.fn = 0 then 2048 else 64) ∧ f ∉ s.hep.fnMask ∧ (portOf s f.port).frozen = false :=
  ⟨wD12, f0, 2047, by decide +kernel⟩
theorem test_met_PortsTrainAndFreeze_VectorsAndPower_2 :
    ∃ (s : State) (f : FnId), functionUp s f = true ∧ f.fn.toNat ∉ (portOf s f.port).cleanFns :=
  ⟨sH, f0, by decide +kernel⟩
theorem test_met_AdminQueueAndDoorbells_AdministrativeQueue_1 :
    ∃ (s : State) (f : FnId) (cfg : Word32) (id : ℕ), (Instr.adminQueueEnable f cfg).wf = true ∧ functionUp s f = true ∧ bar2Open s f.port = true ∧ qpOf s (adminKey f) = none ∧ adminCfgOk (cfgFields cfg (adminOf s f)) = true ∧ freeQpId s = some id :=
  by
  obtain ⟨id, h⟩ := pickId_found wD14 (used := wD14.hqe.qps.map (·.id)) (bound := 65536) (by decide)
  exact ⟨wD14, f0, 0x80000C04, id, by decide +kernel, by decide +kernel, by decide +kernel, by decide +kernel, by decide +kernel, h⟩
theorem test_met_AdminQueueAndDoorbells_AdministrativeQueue_2 :
    ∃ (s : State) (f : FnId) (cfg : Word32), (Instr.adminQueueEnable f cfg).wf = true ∧ functionUp s f = true ∧ bar2Open s f.port = true ∧ qpOf s (adminKey f) = none ∧ adminCfgOk (cfgFields cfg (adminOf s f)) = false :=
  ⟨wD15, f0, 0x80000C04, by decide +kernel⟩
theorem test_met_AdminQueueAndDoorbells_AdministrativeQueue_3 :
    ∃ (s : State) (f : FnId) (cfg : Word32), (Instr.adminQueueDisable f cfg).wf = true ∧ functionUp s f = true ∧ bar2Open s f.port = true :=
  ⟨sH, f0, 0x00000C04, by decide +kernel⟩
theorem test_met_AdminQueueAndDoorbells_AdministrativeQueue_4 :
    ∃ (s : State) (f : FnId) (cfg : Word32) (b : Bytes) (q : Qp), (Instr.adminQueueRestart f cfg b).wf = true ∧ functionUp s f = true ∧ bar2Open s f.port = true ∧ qpOf s (adminKey f) = some q ∧ q.frozen.isSome = true ∧ BitVec.getLsbD cfg 29 = false :=
  ⟨wD16, f0, 0xC0000C04, [], { qA with frozen := some 3, freezeIdx := 2 }, by decide +kernel⟩
theorem test_met_AdminQueueAndDoorbells_AdministrativeQueue_5 :
    ∃ (s : State) (f : FnId) (cfg : Word32) (b : Bytes) (i : Instr), (i = Instr.adminQueueEnable f cfg ∨ i = Instr.adminQueueDisable f cfg ∨ i = Instr.adminQueueRestart f cfg b) ∧ i.wf = true ∧ functionUp s f = true ∧ bar2Open s f.port = false :=
  ⟨wD8, f0, 0x00000C04, [], .adminQueueDisable f0 0x00000C04, by decide +kernel⟩
theorem test_met_AdminQueueAndDoorbells_Doorbells_1 :
    ∃ (s : State) (k : QKey) (v : Word32) (q : Qp), functionUp s k.f = true ∧ bar2Open s k.f.port = true ∧ qpOf s k = some q ∧ BitVec.toNat v % 65536 < sqSize q ∧ ↑s.clk.pstate < 2 ∧ s.clk.newPower = none :=
  ⟨sH, kI, 15, qI, by decide +kernel⟩
theorem test_met_AdminQueueAndDoorbells_Doorbells_2 :
    ∃ (s : State) (k : QKey) (v : Word32) (q : Qp), functionUp s k.f = true ∧ bar2Open s k.f.port = true ∧ qpOf s k = some q ∧ sqSize q ≤ BitVec.toNat v % 65536 ∧ q.frozen = none :=
  ⟨sH, kI, 16, qI, by decide +kernel⟩
theorem test_met_AdminQueueAndDoorbells_Doorbells_3 :
    ∃ (s : State) (k : QKey) (v : Word32) (q : Qp), functionUp s k.f = true ∧ bar2Open s k.f.port = true ∧ qpOf s k = some q ∧ cqHeadOk q (BitVec.toNat v % 65536) = true ∧ q.waiting = [] ∧ ↑s.clk.pstate < 2 ∧ s.clk.newPower = none :=
  ⟨wD17, kI, 5, { qI with cqTail := 5 }, by decide +kernel⟩
theorem test_met_AdminQueueAndDoorbells_Doorbells_4 :
    ∃ (s : State) (k : QKey) (v : Word32) (q : Qp), functionUp s k.f = true ∧ bar2Open s k.f.port = true ∧ qpOf s k = some q ∧ cqHeadOk q (BitVec.toNat v % 65536) = false ∧ q.frozen = none :=
  ⟨wD17, kI, 6, { qI with cqTail := 5 }, by decide +kernel⟩
theorem test_met_AdminQueueAndDoorbells_Doorbells_5 :
    ∃ (s : State) (k : QKey) (q : Qp), qpOf s k = some q ∧ q.admin = false ∧ 0 < q.unsig ∧ (portOf s k.f.port).frozen = false :=
  ⟨wD18, kI, { qI with unsig := 5 }, by decide +kernel⟩
theorem test_met_AdminQueueAndDoorbells_Doorbells_6 :
    ∃ (s : State) (k : QKey) (_l : Bool) (_h : Bytes) (q : Qp), qpOf s k = some q ∧ fetchable s q = true :=
  ⟨sH, kI, true, zeros 32, qI, by decide +kernel⟩
theorem test_met_AdminCommands_EntryChecksAnswer_1 :
    ∃ (s : State) (c : HostCmd) (q : Qp) (st : Word16) (i : Instr), i ∈ [Instr.snapExpose c, Instr.replSend c, Instr.replStop c, Instr.replStatus c, Instr.ingest c, Instr.cgSet c, Instr.snapCreate c, Instr.snapDelete c, Instr.snapList c, Instr.keyErase c, Instr.keyInfo c, Instr.keyAttach c, Instr.keyCmac c, Instr.stateQuery c, Instr.keyImport c, Instr.keyGenerate c, Instr.keyExport c, Instr.createNamespace c, Instr.deleteNamespace c, Instr.read c, Instr.write c, Instr.deallocate c, Instr.chipReset c, Instr.createTenant c, Instr.deleteTenant c, Instr.assignFunction c, Instr.getLog c, Instr.setPower c, Instr.setPace c, Instr.selectProfile c, Instr.createQp c, Instr.deleteQp c, Instr.restartQp c, Instr.identify c] ∧ i.wf = true ∧ qpOf s c.q = some q ∧ fetchable s q = true ∧ c.ordered = false ∧ cqFull q = false ∧ q.waiting = [] ∧ entryCheck c q.admin q.tenant s.glb.service = some st :=
  ⟨sH, { cI 0x82 0 0 with dptr0 := 0 }, qI, 0x1004, .deallocate { cI 0x82 0 0 with dptr0 := 0 }, by simp, by decide +kernel⟩
end Sys2Proof.Tests.D

set_option Elab.async false

namespace Sys2Proof.Tests.E
set_option Elab.async false
open Sys2Proof Sys2Proof.Machine Sys2Proof.Tests

set_option maxHeartbeats 4000000
def wE1 : State := onHqe (fun x => {x with qps := [qA, { qI with deleting := some 9 }]}) (sC [cmdW 9 kA 2 (.deleteQp kI)])
def wE2 : State := onHqe (fun x => {x with qps := [qA, { qI with frozen := some 3, freezeIdx := 9, fetch := 2 }]}) sH
def wE3 : State := onPeer (fun x => {x with role := .active}) sH
def wE4 : State := onClk (fun x => {x with newPower := some (3, 9)}) (sC [cmdW 9 kA 6 .power])
def wE5 : State := onClk (fun x => {x with newPower := some (2, 9)}) (sC [cmdW 9 kA 6 .power])
def wE6 : State := onClk (fun x => {x with newPace := some (.thrift, 9), changing := true}) (sC [cmdW 9 kA 7 .pace])
def wE7 : State := onClk (fun x => {x with newPace := some (.sprint, 9), changing := true}) (sC [cmdW 9 kA 7 .pace])
def wE8 : State := onSec (fun x => {x with rng := {x.rng with st := .seeded}}) sH
def wE9 : State := onHqe (fun x => {x with nss := [], qps := [qA], tenants := [{ id := 1, g := 100, c := 100, relay := false, shared := false, domain := 1 }]}) sH
def wE10 : State := onSec (fun x => {x with slots := [(1, filledSlot typeDomain 1 true (List.replicate 128 7) false)], rng := {x.rng with st := .seeded}}) sH
def wE11 : State := onHqe (fun x => {x with nss := [{ id := 1, tenant := 1, size := 1000, mode := 0, owner := false, deleting := some 9 }]}) (sC [{ cmdW 9 kA 0x15 .deleteNs with nsid := 0 }])
theorem test_met_AdminCommands_QueuePairCommands_1 :
    ∃ (s : State) (c : HostCmd) (q : Qp) (id : ℕ) (i : ℕ), Fetched s c q ∧ (Instr.createQp c).wf = true ∧ i = bitsOf c.d7 15 0 ∧ i ≠ 0 ∧ i < indexLimit c.q.f ∧ qpOf s { f := c.q.f, idx := BitVec.ofNat 16 i } = none ∧ (isPf c.q.f = true → (tenantOf s (c.d3C % 4096)).isSome = true) ∧ freeQpId s = some id :=
  by
  obtain ⟨id, h⟩ := pickId_found sH (used := sH.hqe.qps.map (·.id)) (bound := 65536) (by decide)
  exact ⟨sH, { cA 1 with cdw7 := 0x04000002, dptr0 := 0x5000, cdw12 := 0x6000, cdw14 := 0x01020003, cdw15 := 1 }, qA, id, 2, by unfold Fetched; decide +kernel, by decide +kernel, by decide +kernel, by decide +kernel, by decide +kernel, by decide +kernel, by decide +kernel, h⟩
theorem test_met_AdminCommands_QueuePairCommands_2 :
    ∃ (s : State) (c : HostCmd) (q : Qp) (n : Qp), Fetched s c q ∧ (Instr.deleteQp c).wf = true ∧ qpOf s { f := c.q.f, idx := BitVec.ofNat 16 c.d7 } = some n ∧ n.deleting = none ∧ c.d7 < indexLimit c.q.f :=
  ⟨sH, { cA 2 with cdw7 := 1 }, qA, qI, by unfold Fetched; decide +kernel⟩
theorem test_met_AdminCommands_QueuePairCommands_3 :
    ∃ (s : State) (k : QKey) (n : Qp) (q : Qp) (id : ℕ) (d : Cmd), qpOf s k = some n ∧ n.deleting = some id ∧ qpSettled s k = true ∧ Outstanding s id d q ∧ d.q ≠ k :=
  ⟨wE1, kI, { qI with deleting := some 9 }, qA, 9, cmdW 9 kA 2 (.deleteQp kI), by unfold Outstanding; decide +kernel⟩
theorem test_met_AdminCommands_QueuePairCommands_4 :
    ∃ (s : State) (c : HostCmd) (q : Qp) (n : Qp) (k : QKey), Fetched s c q ∧ (Instr.restartQp c).wf = true ∧ k = { f := c.q.f, idx := BitVec.ofNat 16 (bitsOf c.d7 15 0) } ∧ qpOf s k = some n ∧ n.frozen.isSome = true ∧ n.fetch < sqSize n ∧ n.tail < sqSize n ∧ n.sqLog2 ≤ 14 :=
  ⟨wE2, { cA 3 with cdw7 := 0x80000001 }, qA, { qI with frozen := some 3, freezeIdx := 9, fetch := 2 }, kI, by unfold Fetched; decide +kernel⟩
theorem test_met_AdminCommands_IdentifyAndLogs_1 :
    ∃ (s : State) (c : HostCmd) (q : Qp), Fetched s c q ∧ (Instr.identify c).wf = true :=
  ⟨sH, { cA 4 with dptr0 := 0x5000 }, qA, by unfold Fetched; decide +kernel⟩
theorem test_met_AdminCommands_IdentifyAndLogs_2 :
    ∃ (s : State) (c : HostCmd) (q : Qp) (page : Bytes), Fetched s c q ∧ (Instr.getLog c).wf = true ∧ (c.d7 = 1 → page = List.flatMap qErrBytes (List.filter (fun r => r.f == c.q.f) s.hqe.errLog)) ∧ (c.d7 = 2 → ∃ x, ((if (q.admin && isPf c.q.f) = true then some (c.d3C % 4096) else q.tenant).bind fun n => tenantOf s n) = some x ∧ page = creditPage s x (q.admin && isPf c.q.f)) :=
  ⟨sH, { cA 5 with dptr0 := 0x5000, cdw7 := 1 }, qA, [], by unfold Fetched; decide +kernel⟩
theorem test_met_TemperatureAndPower_PowerAndPace_1 :
    ∃ (s : State) (c : HostCmd) (q : Qp), Fetched s c q ∧ (Instr.setPower c).wf = true ∧ c.d7 = 0 ∧ s.clk.newPower = none :=
  ⟨sH, { cA 6 with cdw7 := 0 }, qA, by unfold Fetched; decide +kernel⟩
theorem test_met_TemperatureAndPower_PowerAndPace_2 :
    ∃ (s : State) (c : HostCmd) (q : Qp), Fetched s c q ∧ (Instr.setPower c).wf = true ∧ c.d7 ≠ 0 ∧ s.peer.role ≠ Role.sole ∧ rebuilding s = false ∧ s.clk.newPower = none :=
  ⟨wE3, { cA 6 with cdw7 := 3 }, qA, by unfold Fetched; decide +kernel⟩
theorem test_met_TemperatureAndPower_PowerAndPace_3 :
    ∃ (s : State) (c : HostCmd) (q : Qp), Fetched s c q ∧ (Instr.setPower c).wf = true ∧ c.d7 ≠ 0 ∧ (s.peer.role = Role.sole ∨ rebuilding s = true) :=
  ⟨sH, { cA 6 with cdw7 := 2 }, qA, by unfold Fetched; decide +kernel⟩
theorem test_met_TemperatureAndPower_PowerAndPace_4 :
    ∃ (s : State) (p : Fin 4) (id : ℕ) (d : Cmd) (q : Qp), s.clk.newPower = some (p, id) ∧ enteringSleep s = true ∧ s.clk.wakeAfter = false ∧ (∀ (k : ℕ), (queueOf s k).reads = []) ∧ Outstanding s id d q :=
  ⟨wE4, 3, 9, cmdW 9 kA 6 .power, qA, by decide +kernel, by decide +kernel, by decide +kernel, fun _ => rfl, by unfold Outstanding; decide +kernel⟩
theorem test_met_TemperatureAndPower_PowerAndPace_5 :
    ∃ (s : State) (c : HostCmd) (q : Qp), Fetched s c q ∧ (Instr.setPace c).wf = true :=
  ⟨sH, { cA 7 with cdw7 := 2 }, qA, by unfold Fetched; decide +kernel⟩
theorem test_met_TemperatureAndPower_PowerAndPace_6 :
    ∃ (s : State) (p : Pace) (id : ℕ) (d : Cmd) (q : Qp), s.clk.newPace = some (p, id) ∧ List.filter (fun c => c.stage == CmdStage.pace) s.hqe.cmds = [d] ∧ Outstanding s d.id d q :=
  ⟨wE6, .thrift, 9, cmdW 9 kA 7 .pace, qA, by unfold Outstanding; decide +kernel⟩
theorem test_met_TemperatureAndPower_PowerAndPace_7 :
    ∃ (s : State) (c : HostCmd) (q : Qp), Fetched s c q ∧ (Instr.selectProfile c).wf = true :=
  ⟨sH, { cA 8 with cdw7 := 3 }, qA, by unfold Fetched; decide +kernel⟩
theorem test_met_TemperatureAndPower_PowerAndPace_8 :
    ∃ (s : State) (c : HostCmd) (q : Qp), Fetched s c q ∧ (Instr.chipReset c).wf = true :=
  ⟨sH, { cA 9 with cdw7 := 0x96400001 }, qA, by unfold Fetched; decide +kernel⟩
theorem test_met_TenantsAndNamespaces_TenantCommands_1 :
    ∃ (s : State) (c : HostCmd) (q : Qp) (id : ℕ) (d : Option ℕ), Fetched s c q ∧ (Instr.createTenant c).wf = true ∧ (bitOf c.d34 1 = true → bitOf c.d34 0 = false ∧ d = Option.map (fun x => x.domain) (tenantOf s (c.d38 % 4096)) ∧ d.isSome = true) ∧ (bitOf c.d34 1 = false → d = some id ∧ s.sec.rng.st = RngState.seeded ∧ randomWaits s = false) ∧ (bitOf c.d34 0 = true → (∀ a ∈ fedChips s, (pathOf s a).state = 1) ∧ fedAnswer s = 0) ∧ s.hqe.tenants.length < 4096 ∧ 2 * (sumG s + c.d7) ≤ stagingLimit s ∧ pickId (usedTenantIds s) 4096 s = some id :=
  by
  obtain ⟨id, h⟩ := pickId_found wE8 (used := usedTenantIds wE8) (bound := 4096) (by decide +kernel)
  refine ⟨wE8, { cA 0x10 with cdw7 := 256, cdw12 := 500 }, qA, id, some id, by unfold Fetched; decide +kernel, by decide +kernel, ?_, fun _ => ⟨rfl, by decide +kernel⟩, by decide +kernel, by decide +kernel, by decide +kernel, h⟩
  intro hb
  exact absurd hb (by decide +kernel)
theorem test_met_TenantsAndNamespaces_TenantCommands_2 :
    ∃ (s : State) (c : HostCmd) (q : Qp) (x : Tenant), Fetched s c q ∧ (Instr.deleteTenant c).wf = true ∧ tenantOf s c.d3C = some x ∧ tenantInUse s x.id = false ∧ (x.relay = true → fedAnswer s = 0) ∧ tabWf { } s.sec.slots = true :=
  ⟨wE9, { cA 0x11 with cdw15 := 1 }, qA, { id := 1, g := 100, c := 100, relay := false, shared := false, domain := 1 }, by unfold Fetched; decide +kernel⟩
theorem test_met_TenantsAndNamespaces_TenantCommands_3 :
    ∃ (s : State) (c : HostCmd) (q : Qp) (f : FnId), Fetched s c q ∧ (Instr.assignFunction c).wf = true ∧ f = { port := c.q.f.port, fn := BitVec.ofNat 8 (bitsOf c.d7 7 0) } ∧ (bitOf c.d7 31 = false → (tenantOf s (bitsOf c.d7 27 16)).isSome = true) ∧ (s.hqe.qps.any fun x => x.key.f == f && x.tenant.isSome) = false :=
  ⟨sH, { cA 0x12 with cdw7 := 0x00010003 }, qA, ⟨0, 3⟩, by unfold Fetched; decide +kernel⟩
theorem test_met_TenantsAndNamespaces_NamespaceCommands_1 :
    ∃ (s : State) (c : HostCmd) (q : Qp) (id : ℕ) (x : Tenant), Fetched s c q ∧ (Instr.createNamespace c).wf = true ∧ tenantOf s c.d3C = some x ∧ pickId (usedNsids s) 16384 s = some id ∧ (domainUsed s x.domain = true → ∀ (r : Domain), domainRec s x.domain = some r → r.sealFixed = true → r.seals = bitOf c.d7 6) ∧ (bitOf c.d7 5 = true → (slotOf s x.domain).idData = 0 → (slotOf s x.domain).state = SlotState.active ∧ s.sec.rng.st = RngState.seeded ∧ randomWaits s = false) :=
  by
  obtain ⟨id, h⟩ := pickId_found sH (used := usedNsids sH) (bound := 16384) (by decide +kernel)
  exact ⟨sH, { cA 0x14 with lba := 5000, cdw7 := 0x41, cdw15 := 1 }, qA, id, { id := 1, g := 100, c := 100, relay := false, shared := false, domain := 1 }, by unfold Fetched; decide +kernel, by decide +kernel, by decide +kernel, h, fun _ r hr => (by decide +kernel : ∀ r ∈ domainRec sH 1, r.sealFixed = true → r.seals = true) r hr, fun hb => absurd hb (by decide +kernel)⟩
theorem test_met_TenantsAndNamespaces_NamespaceCommands_2 :
    ∃ (s : State) (c : HostCmd) (q : Qp) (n : Ns), Fetched s c q ∧ (Instr.deleteNamespace c).wf = true ∧ nsOf s c.ns = some n ∧ n.deleting = none ∧ (s.snp.snaps.any fun x => x.nsid == n.id && x.exposed.isSome) = false ∧ (s.snp.sessions.any fun x => x.nsid == n.id) = false :=
  ⟨sH, { cA 0x15 with nsid := 1 }, qA, { id := 1, tenant := 1, size := 1000, mode := 0, owner := false }, by unfold Fetched; decide +kernel⟩
theorem test_met_TenantsAndNamespaces_NamespaceCommands_3 :
    ∃ (s : State) (n : BitVec 14) (x : Ns) (id : ℕ) (d : Cmd) (q : Qp), nsOf s n.toNat = some x ∧ x.deleting = some id ∧ nsBusy s n.toNat id = false ∧ (∀ e ∈ s.ing.staging, e.nsid ≠ n.toNat) ∧ (∀ m ∈ s.ing.mirror, m.nsid ≠ n.toNat) ∧ Outstanding s id d q :=
  ⟨wE11, 1, { id := 1, tenant := 1, size := 1000, mode := 0, owner := false, deleting := some 9 }, 9, { cmdW 9 kA 0x15 .deleteNs with nsid := 0 }, qA, by unfold Outstanding; decide +kernel⟩
end Sys2Proof.Tests.E

set_option Elab.async false

namespace Sys2Proof.Tests.F
set_option Elab.async false
open Sys2Proof Sys2Proof.Machine Sys2Proof.Tests

set_option maxHeartbeats 4000000
def nN : Ns := { id := 1, tenant := 1, size := 1000, mode := 0, owner := false }
def tN : Tenant := { id := 1, g := 100, c := 100, relay := false, shared := false, domain := 1 }
def sD : State := onDrc (fun x => {x with sizeGib := 1536}) sH
def eS (lba : Nat) (g : Word16) (st : StState) (cmd blk : Nat) (d : Bytes) : StEntry :=
  { slot := 8*lba+blk, nsid := 1, lba := lba, gen := g, st := st, mirrored := false, data := d, dealloc := false, cmd := cmd, block := blk, tenant := some 1, tag := none, nblk := 1, order := lba, idle := false, aged := false, run := none, old := none }
def mE (lba chunk : Nat) : MapEntry := { nsid := 1, lba := lba, chunkA := chunk, offA := 0, chunkB := 0, gen := 3 }
def cE (no key : Nat) : ChunkEnt := { no := no, refs := 1, seg := 2, stripe := 0, strip := 0, gran := 0, granules := 2, len := 4096, st := .live, keyInfo := key, domain := 1, nsid := 1, sealed_ := false, waybill := zeros 128, stored := zeros 512 }
def cRem (op : Byte) (lba : Word64) (n : Word32) : HostCmd := { cI op lba n with flags := 0x08, fed := 5 }
def cTag (lba : Word64) (n : Word32) (g : Word64) : HostCmd := { cI 0x81 lba n with flags := 1, hostTag := g }
def sMap : State := onMed (fun x => {x with maps := [mE 3 9], chunks := [cE 9 0x1FFF], cached := [(1,0), (0,0)], areas := { cachePages := 100, dirBytes := 4096 }}) sD
def stl (g : Word64) (o : Fin 5) (pin : Bool) : Settle := { tenant := 1, tag := g, nsid := 1, outcome := o, count := 0, pinned := pin, qp := 6, at_ := 0, order := 0, ofPeer := false }
def cDe (lba : Word64) (n : Word32) : HostCmd := { cI 0x82 lba n with dptr0 := 0 }
def dW (st : CmdStage) (n : Nat) (arr : List Nat) : Cmd := { cmdW 7 kI 0x81 st with nblk := n, arrived := arr, good := n, gens := (List.range n).map fun i => BitVec.ofNat 16 (i+1), tag := some 0xAB }
def sW (st : CmdStage) (n : Nat) (arr : List Nat) : State := onIng (fun x => {x with staging := (List.range n).map fun i => eS i (BitVec.ofNat 16 (i+1)) .filling 7 i [] }) (onHqe (fun x => {x with settle := [stl 0xAB 4 false]}) (sC [dW st n arr]))
def qrB : HostCmd := { cI 0x88 0 0 with nsid := 0, dptr0 := 0x100, cdw12 := 0x200, cdw14 := 2, buf := leBytes 8 0xAB ++ leBytes 8 0xAC }
def sQ (o : Fin 5) : State := onHqe (fun x => {x with settle := [stl 0xAB o true]}) sH
def wF1 : State := onHqe (fun x => {x with nss := x.nss.map fun n => {n with hold := true}}) sH
def wF2 : State := onPeer (fun x => {x with role := .service}) sH
def wF3 : State := onHqe (fun x => {x with behind := [⟨cI 0x81 1 1, some 1, .host⟩]}) (onPeer (fun x => {x with role := .service, linkUp := true}) sH)
def wF4 : State := onPeer (fun x => {x with role := .service, linkUp := true}) sH
def wF5 : State := onIng (fun x => {x with staging := [eS 1 4 .staged 3 0 (List.replicate 4096 7)]}) sD
def wF6 : State := onMed (fun x => {x with cached := []}) sMap
def wF7 : State := onMed (fun x => {x with chunks := [cE 9 5]}) sMap
def wF8 : State := onHqe (fun x => {x with settle := [stl 0xAB 4 false]}) sD
def wF9 : State := onHqe (fun x => {x with tenants := x.tenants.map fun t => {t with g := 1, c := 1, pHeld := 1}}) sD
def wF10 : State := onPeer (fun x => {x with role := .active, linkUp := true}) sD
def wF11 : State := onPeer (fun x => {x with role := .active, linkUp := true}) (sW .filling 3 [0,2])
def wF12 : State := onIng (fun x => {x with staging := []}) (sW .waitCredit 2 [])
def wF13 : State := onIng (fun x => {x with staging := []}) (sW .waitGen 2 [])
def wF14 : State := onMed (fun x => {x with areas := { cachePages := 100, dirBytes := 4096 }}) sD
def wF15 : State := onHqe (fun x => {x with cmds := [{ cmdW 7 kI 0x80 .waitMap with lba := 2, nblk := 2 }], nextCmd := 20}) (onMed (fun x => {x with cached := [(0,0)]}) sMap)
def wF16 : State := onHqe (fun x => {x with settle := [stl 0xAB 4 true]}) (sC [cmdW 7 kI 0x88 (.query [0xAB] (some 1) true 0x200)])
def wF17 : State := onHqe (fun x => {x with settle := [stl 0xAB 1 true]}) (sC [cmdW 7 kI 0x88 (.query [0xAB] (some 1) true 0x200)])
theorem test_met_IoRoutingAndQueries_IoRouting_1 :
    ∃ (s : State) (c : HostCmd) (q : Qp) (i : Instr), (i = Instr.read c ∨ i = Instr.write c ∨ i = Instr.deallocate c) ∧ i.wf = true ∧ Fetched s c q ∧ c.remote = true ∧ relayTarget s (BitVec.toNat c.fed % 64) = none :=
  ⟨sH, cRem 0x80 0 1, qI, .read (cRem 0x80 0 1), by unfold Fetched; decide +kernel⟩
theorem test_met_IoRoutingAndQueries_IoRouting_2 :
    ∃ (s : State) (c : HostCmd) (q : Qp) (i : Instr) (st : Word16), (i = Instr.read c ∨ i = Instr.write c ∨ i = Instr.deallocate c) ∧ i.wf = true ∧ Fetched s c q ∧ c.remote = false ∧ s.pair.swapWait = false ∧ s.peer.role ≠ Role.service ∧ nsCheck s { c := c, tenant := q.tenant, origin := Origin.host } = NsCheck.fails st :=
  ⟨sH, cI 0x80 999 2, qI, .read (cI 0x80 999 2), 0x1003, by unfold Fetched; decide +kernel⟩
theorem test_met_IoRoutingAndQueries_IoRouting_3 :
    ∃ (s : State) (c : HostCmd) (q : Qp) (i : Instr) (n : Ns), (i = Instr.read c ∨ i = Instr.write c ∨ i = Instr.deallocate c) ∧ i.wf = true ∧ Fetched s c q ∧ c.remote = false ∧ s.pair.swapWait = false ∧ s.peer.role ≠ Role.service ∧ nsCheck s { c := c, tenant := q.tenant, origin := Origin.host } = NsCheck.ok n ∧ mustWait s { c := c, tenant := q.tenant, origin := Origin.host } = true :=
  ⟨wF1, cI 0x81 0 1, qI, .write (cI 0x81 0 1), { nN with hold := true }, by unfold Fetched; decide +kernel⟩
theorem test_met_IoRoutingAndQueries_IoRouting_4 :
    ∃ (s : State) (c : HostCmd) (q : Qp) (i : Instr), (i = Instr.read c ∨ i = Instr.write c ∨ i = Instr.deallocate c) ∧ i.wf = true ∧ Fetched s c q ∧ c.remote = false ∧ s.pair.swapWait = false ∧ s.peer.role = Role.service ∧ s.peer.linkUp = false :=
  ⟨wF2, cI 0x81 0 1, qI, .write (cI 0x81 0 1), by unfold Fetched; decide +kernel⟩
theorem test_met_IoRoutingAndQueries_IoRouting_5 :
    ∃ (s : State) (c : HostCmd) (q : Qp) (i : Instr), (i = Instr.read c ∨ i = Instr.write c ∨ i = Instr.deallocate c) ∧ i.wf = true ∧ Fetched s c q ∧ c.remote = false ∧ s.pair.swapWait = false ∧ s.peer.role = Role.service ∧ s.peer.linkUp = true ∧ relayWaits s { c := c, tenant := q.tenant, origin := Origin.host } = true :=
  ⟨wF3, cI 0x80 0 2, qI, .read (cI 0x80 0 2), by unfold Fetched; decide +kernel⟩
theorem test_met_IoRoutingAndQueries_IoRouting_6 :
    ∃ (s : State) (c : HostCmd) (q : Qp) (i : Instr), (i = Instr.read c ∨ i = Instr.write c ∨ i = Instr.deallocate c) ∧ i.wf = true ∧ Fetched s c q ∧ c.remote = false ∧ s.pair.swapWait = false ∧ s.peer.role = Role.service ∧ s.peer.linkUp = true ∧ relayWaits s { c := c, tenant := q.tenant, origin := Origin.host } = false :=
  ⟨wF4, cI 0x81 0 2, qI, .write (cI 0x81 0 2), by unfold Fetched; decide +kernel⟩
theorem test_met_ReadsAreServed_1 :
    ∃ (s : State) (c : HostCmd) (q : Qp) (n : Ns), Admissible s c q n ∧ (Instr.read c).wf = true ∧ (n.exposed.isSome = true ∨ missingPages s n.id c.start c.blocks = []) ∧ (∀ i < c.blocks, ∀ (m : MapEntry), blockSource s n (c.start + i) ≠ BlockSource.chunk m) ∧ (∀ i < c.blocks, badBlock s n (c.start + i) = false) :=
  ⟨sD, cI 0x80 0 2, qI, nN, by unfold Admissible Fetched; decide +kernel, by decide +kernel, by decide +kernel, by intro i h m; match i, h with | 0, _ => exact nofun | 1, _ => exact nofun, by decide +kernel⟩
theorem test_met_ReadsAreServed_2 :
    ∃ (s : State) (c : HostCmd) (q : Qp) (n : Ns) (i : ℕ) (m : MapEntry), Admissible s c q n ∧ (Instr.read c).wf = true ∧ (n.exposed.isSome = true ∨ missingPages s n.id c.start c.blocks = []) ∧ (∀ e ∈ s.med.chunks, keysLoaded s e = true) ∧ i < c.blocks ∧ blockSource s n (c.start + i) = BlockSource.chunk m :=
  ⟨sMap, cI 0x80 2 2, qI, nN, 1, mE 3 9, by unfold Admissible Fetched; decide +kernel⟩
theorem test_met_ReadsAreServed_3 :
    ∃ (s : State) (c : HostCmd) (q : Qp) (n : Ns), Admissible s c q n ∧ (Instr.read c).wf = true ∧ n.exposed = none ∧ missingPages s n.id c.start c.blocks ≠ [] :=
  ⟨wF6, cI 0x80 2 2, qI, nN, by unfold Admissible Fetched; decide +kernel⟩
theorem test_met_ReadsAreServed_4 :
    ∃ (s : State) (c : HostCmd) (q : Qp) (n : Ns) (i : ℕ) (m : MapEntry) (e : ChunkEnt), Admissible s c q n ∧ (Instr.read c).wf = true ∧ (n.exposed.isSome = true ∨ missingPages s n.id c.start c.blocks = []) ∧ i < c.blocks ∧ blockSource s n (c.start + i) = BlockSource.chunk m ∧ chunkOf s m.chunkA = some e ∧ keysLoaded s e = false :=
  ⟨wF7, cI 0x80 2 2, qI, nN, 1, mE 3 9, cE 9 5, by unfold Admissible Fetched; decide +kernel⟩
theorem test_met_WritesAreAdmitted_1 :
    ∃ (s : State) (c : HostCmd) (q : Qp) (n : Ns) (tn : ℕ) (x : Tenant), Admissible s c q n ∧ (Instr.write c).wf = true ∧ q.tenant = some tn ∧ tenantOf s tn = some x ∧ missingMap s c.ns c.start c.blocks = [] ∧ (∀ d ∈ s.hqe.cmds, waitsAtAdmission d = false) ∧ SlotsFree s c.ns c.start c.blocks ∧ creditState s x c.blocks = CreditState.granted ∧ (∀ (g : Word64), c.tagOf = some g → tagBusy s tn g = false ∧ ownEntries s < settleCap) :=
  ⟨sD, cTag 4 3 0xAB, qI, nN, 1, tN, by unfold Admissible Fetched; decide +kernel, by decide +kernel, by decide +kernel, by decide +kernel, by decide +kernel, by decide +kernel, ⟨by decide +kernel, pickSlots_found _ _ _ _ _ (by decide +kernel), by decide +kernel, by decide +kernel⟩, by decide +kernel, by intro g h; obtain rfl : (0xAB : Word64) = g := Option.some.inj h; decide +kernel⟩
theorem test_met_WritesAreAdmitted_2 :
    ∃ (s : State) (c : HostCmd) (q : Qp) (n : Ns) (tn : ℕ) (x : Tenant) (g : Word64), Admissible s c q n ∧ (Instr.write c).wf = true ∧ q.tenant = some tn ∧ tenantOf s tn = some x ∧ missingMap s c.ns c.start c.blocks = [] ∧ (∀ d ∈ s.hqe.cmds, waitsAtAdmission d = false) ∧ SlotsFree s c.ns c.start c.blocks ∧ c.tagOf = some g ∧ tagBusy s tn g = true :=
  ⟨wF8, cTag 4 3 0xAB, qI, nN, 1, tN, 0xAB, by unfold Admissible Fetched; decide +kernel, by decide +kernel, by decide +kernel, by decide +kernel, by decide +kernel, by decide +kernel, ⟨by decide +kernel, pickSlots_found _ _ _ _ _ (by decide +kernel), by decide +kernel, by decide +kernel⟩, by decide +kernel⟩
theorem test_met_WritesAreAdmitted_3 :
    ∃ (s : State) (c : HostCmd) (q : Qp) (n : Ns) (tn : ℕ) (x : Tenant), Admissible s c q n ∧ (Instr.write c).wf = true ∧ q.tenant = some tn ∧ tenantOf s tn = some x ∧ missingMap s c.ns c.start c.blocks = [] ∧ (∀ d ∈ s.hqe.cmds, waitsAtAdmission d = false) ∧ SlotsFree s c.ns c.start c.blocks ∧ c.tagOf = none ∧ creditState s x c.blocks ≠ CreditState.granted :=
  ⟨wF9, cI 0x81 4 3, qI, nN, 1, { tN with g := 1, c := 1, pHeld := 1}, by unfold Admissible Fetched; decide +kernel, by decide +kernel, by decide +kernel, by decide +kernel, by decide +kernel, by decide +kernel, ⟨by decide +kernel, pickSlots_found _ _ _ _ _ (by decide +kernel), by decide +kernel, by decide +kernel⟩, by decide +kernel⟩
theorem test_met_WritesAreAdmitted_DeallocatesComplete_1 :
    ∃ (s : State) (c : HostCmd) (q : Qp) (n : Ns), Admissible s c q n ∧ (Instr.deallocate c).wf = true ∧ missingMap s c.ns c.start c.blocks = [] ∧ (∀ d ∈ s.hqe.cmds, waitsAtAdmission d = false) ∧ SlotsFree s c.ns c.start c.blocks ∧ (∀ i < c.blocks, liveGens s c.ns (c.start + i) = []) ∧ (∀ e ∈ s.ing.staging, e.cmd ≠ s.hqe.nextCmd) :=
  ⟨sD, cDe 4 2, qI, nN, by unfold Admissible Fetched; decide +kernel, by decide +kernel, by decide +kernel, by decide +kernel, ⟨by decide +kernel, pickSlots_found _ _ _ _ _ (by decide +kernel), by decide +kernel, by decide +kernel⟩, by decide +kernel⟩
theorem test_met_WritesAreAdmitted_WriteDataArrives_1 :
    ∃ (s : State) (id : ℕ) (b : ℕ) (data : Bytes) (d : Cmd), (Instr.writeDataArrived id b data).wf = true ∧ cmdOf s id = some d ∧ d.stage = CmdStage.filling ∧ b < d.nblk ∧ b ∉ d.arrived ∧ s.pins.flushing = false ∧ 0 ∉ d.arrived ∧ b ≠ 0 :=
  ⟨sW .filling 3 [2], 7, 1, List.replicate 4096 9, dW .filling 3 [2], by decide +kernel⟩
theorem test_met_WritesAreAdmitted_WriteDataArrives_2 :
    ∃ (s : State) (id : ℕ) (b : ℕ) (data : Bytes) (d : Cmd) (q : Qp), (Instr.writeDataArrived id b data).wf = true ∧ cmdOf s id = some d ∧ d.stage = CmdStage.filling ∧ b < d.nblk ∧ b ∉ d.arrived ∧ s.pins.flushing = false ∧ (∀ k < d.nblk, k = b ∨ k ∈ d.arrived) ∧ s.peer.role ≠ Role.active ∧ d.status = 0 ∧ d.good = d.nblk ∧ Outstanding s id d q :=
  ⟨sW .filling 3 [0,2], 7, 1, List.replicate 4096 9, dW .filling 3 [0,2], qI, by unfold Outstanding; decide +kernel⟩
theorem test_met_WritesAreAdmitted_WriteDataArrives_3 :
    ∃ (s : State) (id : ℕ) (b : ℕ) (data : Bytes) (d : Cmd) (k : ℕ), (Instr.writeDataArrived id b data).wf = true ∧ cmdOf s id = some d ∧ d.stage = CmdStage.filling ∧ b < d.nblk ∧ b ∉ d.arrived ∧ s.pins.flushing = false ∧ (∀ j < d.nblk, j = b ∨ j ∈ d.arrived) ∧ s.peer.role = Role.active ∧ d.good = d.nblk ∧ k < d.nblk ∧ k ∉ d.acked :=
  ⟨wF11, 7, 1, List.replicate 4096 9, dW .filling 3 [0,2], 1, by decide +kernel⟩
theorem test_met_WritesAreAdmitted_CreditWaits_1 :
    ∃ (s : State) (d : Cmd) (tn : ℕ) (x : Tenant), List.filter waitsAtAdmission s.hqe.cmds = [d] ∧ cmdOf s d.id = some d ∧ (∀ e ∈ s.hqe.cmds, e.stage ≠ CmdStage.waitTag) ∧ s.hqe.behind = [] ∧ d.op = 129 ∧ d.origin = Origin.host ∧ d.tenant = some tn ∧ tenantOf s tn = some x ∧ SlotsFree s d.nsid d.lba d.nblk ∧ creditState s x d.nblk = CreditState.granted ∧ s.pins.flushing = false :=
  ⟨wF12, dW .waitCredit 2 [], 1, tN, by decide +kernel, by decide +kernel, by decide +kernel, by decide +kernel, by decide +kernel, by decide +kernel, by decide +kernel, by decide +kernel, ⟨by decide +kernel, pickSlots_found _ _ _ _ _ (by decide +kernel), by decide +kernel, by decide +kernel⟩, by decide +kernel⟩
theorem test_met_WritesAreAdmitted_CreditWaits_2 :
    ∃ (s : State) (id : ℕ) (d : Cmd) (q : Qp), Outstanding s id d q ∧ waitsAtAdmission d = true ∧ suspectNow s = false ∧ writesHeld s d.nsid = false ∧ s.hqe.behind = [] :=
  ⟨wF12, 7, dW .waitCredit 2 [], qI, by unfold Outstanding; decide +kernel⟩
theorem test_met_ReadsAreServed_MapPagesArrive_1 :
    ∃ (s : State) (n : BitVec 14) (p : ℕ), (Instr.mapPageReadDone n p).wf = true ∧ s.hqe.behind = [] ∧ s.med.cached.length < s.med.areas.cachePages ∧ List.filter (fun c => c.stage == CmdStage.waitMap) s.hqe.cmds = [] :=
  ⟨wF14, 1, 5, by decide +kernel⟩
theorem test_met_ReadsAreServed_MapPagesArrive_2 :
    ∃ (s : State) (n : BitVec 14) (p : ℕ) (d : Cmd) (x : Ns), (Instr.mapPageReadDone n p).wf = true ∧ s.hqe.behind = [] ∧ s.med.cached.length < s.med.areas.cachePages ∧ List.filter (fun c => c.stage == CmdStage.waitMap) s.hqe.cmds = [d] ∧ cmdOf s d.id = some d ∧ d.op = 128 ∧ d.nsid = n.toNat ∧ nsOf s n.toNat = some x ∧ missingPages s d.nsid d.lba d.nblk = [(n.toNat, p)] ∧ missingPages (touchPage (n.toNat, p) s) d.nsid d.lba d.nblk = [] :=
  ⟨wF15, 1, 0, { cmdW 7 kI 0x80 .waitMap with lba := 2, nblk := 2 }, nN, by decide +kernel⟩
theorem test_met_IoRoutingAndQueries_StateQueries_1 :
    ∃ (s : State) (c : HostCmd) (q : Qp), Fetched s c q ∧ (Instr.stateQuery c).wf = true ∧ c.remote = false ∧ (q.admin = true → isPf c.q.f = true → (tenantOf s (c.d3C % 4096)).isSome = true) ∧ (s.glb.service = Service.recovery → logReplayed s = true) ∧ cmdOf s s.hqe.nextCmd = none ∧ (bitOf c.d3C 30 = false ∨ queryPending s (queryTenant c q) (queryTags c) = false) :=
  ⟨sQ 1, qrB, qI, by unfold Fetched; decide +kernel⟩
theorem test_met_IoRoutingAndQueries_StateQueries_2 :
    ∃ (s : State) (c : HostCmd) (q : Qp), Fetched s c q ∧ (Instr.stateQuery c).wf = true ∧ c.remote = false ∧ (q.admin = true → isPf c.q.f = true → (tenantOf s (c.d3C % 4096)).isSome = true) ∧ (s.glb.service = Service.recovery → logReplayed s = true) ∧ cmdOf s s.hqe.nextCmd = none ∧ bitOf c.d3C 30 = true ∧ queryPending s (queryTenant c q) (queryTags c) = true :=
  ⟨sQ 4, { qrB with cdw15 := 0x40000000 }, qI, by unfold Fetched; decide +kernel⟩
theorem test_met_IoRoutingAndQueries_StateQueries_3 :
    ∃ (s : State) (id : ℕ) (timedOut : Bool) (d : Cmd) (q : Qp) (tags : List Word64) (tn : Option ℕ) (rel : Bool) (addr : ℕ), Outstanding s id d q ∧ d.stage = CmdStage.query tags tn rel addr ∧ (timedOut = true ∨ queryPending s tn tags = false) :=
  ⟨wF16, 7, true, cmdW 7 kI 0x88 (.query [0xAB] (some 1) true 0x200), qI, [0xAB], some 1, true, 0x200, by unfold Outstanding; decide +kernel⟩
end Sys2Proof.Tests.F

set_option Elab.async false

namespace Sys2Proof.Tests.G
set_option Elab.async false
open Sys2Proof Sys2Proof.Machine Sys2Proof.Tests

set_option maxHeartbeats 4000000
def bK (n : Nat) : Bytes := (List.range n).map fun i => BitVec.ofNat 8 (3*i+1)
def ks (t : BitVec 3) (o : Nat) (m : Bytes) : Slot := { type := t, state := .active, owner := o, exportable := true, material := m, idA := 77, idSeal := if t = typeDomain then 78 else 0, idData := if t = typeDomain then 79 else 0 }
def slotsK : Tab Slot := [(1, ks typeDomain 1 (bK 128)), (0x1000, ks typeWrap 1 (bK 32)), (0x1001, ks typeCmac 1 (bK 32)), (0x1002, ks typeData 1 (bK 64))]
def sK : State := onSec (fun x => {x with slots := slotsK, rng := {x.rng with st := .seeded}}) sH
def bK2 (n : Nat) : Bytes := (List.range n).map fun i => BitVec.ofNat 8 (5*i+9)
def cImp (n : Nat) (b : Bytes) : HostCmd := { cA 0x20 with cdw7 := BitVec.ofNat 32 (n + 0x30000), dptr0 := 0x1000, cdw12 := 0x1000, cdw14 := 40, cdw15 := 1, buf := b }
def wrB : Bytes := [99, 13, 205, 94, 88, 81, 77, 8, 199, 21, 34, 178, 243, 133, 45, 114, 112, 142, 247, 109, 101, 141, 198, 222, 79, 141, 126, 92, 240, 36, 132, 211, 173, 217, 224, 25, 131, 41, 183, 79]
def kD : Slot := { type := typeWrap, state := .active, owner := 1, exportable := false, material := bK2 32, idA := 773124553887210299 }
def cGen (n ty : Nat) : HostCmd := { cA 0x21 with cdw7 := BitVec.ofNat 32 (n + ty * 65536 + 0x2000000), cdw15 := 1 }
def vq (u : Bool) (o : VaultOp) : VaultReq := ⟨u, o, 5, 10, none⟩
def sVr (c : HostCmd) (s : State) : State := onHqe (fun x => {x with behind := [⟨c, none, .host⟩]}) (onSec (fun x => {x with vault := {x.vault with running := keyRequest c}}) s)
def cExp (n m : Nat) : HostCmd := { cA 0x22 with cdw7 := BitVec.ofNat 32 n, dptr0 := 0x100, cdw12 := 0x1000, cdw14 := BitVec.ofNat 32 m }
def cMac (n : Nat) (b : Bytes) : HostCmd := { cA 0x26 with cdw7 := BitVec.ofNat 32 n, dptr0 := 0x100, cdw12 := 0x200, cdw14 := 4, buf := bK 4, buf2 := b }
def kR (c : HostCmd) : VaultReq := (keyRequest c).getD (vq false .wrap)
def wG1 : State := onSec (fun x => {x with vault := {x.vault with running := some (vq true .cmac)}}) sK
def wG2 : State := onSec (fun x => {x with vault := {x.vault with running := some (vq true .cmac), normal := List.replicate 64 (vq false .wrap)}}) sK
def wG3 : State := onHqe (fun x => {x with nss := x.nss.map fun n => {n with mode := 0x20}}) sK
def wG4 : State := onSec (fun x => {x with rng := {x.rng with st := .failed}}) sK
def wG5 : State := onSec (fun x => {x with vault := {x.vault with out := true}}) sK
def wG6 : State := onSec (fun x => {x with vault := {x.vault with running := some (vq true .cmac)}}) s0
def wG7 : State := onSec (fun x => {x with vault := {x.vault with running := some (vq false .cmac), normal := [vq false .wrap]}}) s0
def wG8 : State := onSec (fun x => {x with vault := {x.vault with running := some (vq true .cmac), normal := List.replicate 64 (vq false .wrap)}}) s0
def wG9 : State := onSec (fun x => {x with vault := {x.vault with running := some (vq true .cmac), suspended := some (vq false .cmac)}}) s0
def wG10 : State := onSec (fun x => {x with vault := {x.vault with running := some (vq true .cmac), testDue := true}}) s0
def wG11 : State := onSec (fun x => {x with vault := {x.vault with running := some (vq true .cmac), urgent := [vq true .wrap]}}) s0
def wG12 : State := onSec (fun x => {x with vault := {x.vault with testing := true}}) s0
def wG13 : State := onSec (fun x => {x with vault := {x.vault with testing := true, normal := [vq false .wrap]}}) sH
def wG14 : State := onSec (fun x => {x with vault := {x.vault with out := true, fails := 1}}) s0
def wG15 : State := onSec (fun x => {x with vault := {x.vault with testing := true, out := true, fails := 1}}) sH
def wG16 : State := onSec (fun x => {x with slots := x.slots ++ [(0x1FF1, ks typeWrap 0 (bK 32))]}) sK
def wG17 : State := onPins (fun x => {x with sysResetLow := false}) sK
def wG18 : State := onSec (fun x => {x with rng := {x.rng with noise := true}}) sH
def wG19 : State := onSec (fun x => {x with rng := {x.rng with noise := true, st := .seeded}}) sH
def wG20 : State := onSec (fun x => {x with rng := {x.rng with noise := true, retry := 2, waiting := [5,6]}}) sH
def wG21 : State := onSec (fun x => {x with rng := {x.rng with noise := true, tested := true, waiting := [5,40]}}) sH
def wG22 : State := onSec (fun x => {x with rng := {x.rng with st := .failed}}) sH
def wG23 : State := onSec (fun x => {x with rng := {x.rng with st := .seeded, reseeding := true, waiting := [5]}}) sH
theorem test_met_KeyCommands_KeySlotCommands_1 :
    ∃ (s : State) (c : HostCmd) (q : Qp) (i : Instr) (r : VaultReq), (i = Instr.keyImport c ∨ i = Instr.keyExport c ∨ i = Instr.keyCmac c) ∧ i.wf = true ∧ Fetched s c q ∧ s.sec.vault.out = false ∧ keyRequest c = some r :=
  ⟨sK, cImp 0x1004 (zeros 40), qA, .keyImport (cImp 0x1004 (zeros 40)), kR (cImp 0x1004 (zeros 40)), by unfold Fetched; decide +kernel⟩
theorem test_met_KeyCommands_KeySlotCommands_4 :
    ∃ (s : State) (c : HostCmd) (q : Qp) (n : ℕ) (ty : BitVec 3), Fetched s c q ∧ (Instr.keyGenerate c).wf = true ∧ s.sec.vault.out = false ∧ n = bitsOf c.d7 12 0 ∧ ty = BitVec.ofNat 3 (bitsOf c.d7 18 16) ∧ ty ≠ typeDomain ∧ slotInRange ty n = true ∧ (slotOf s n).state = SlotState.empty ∧ (tenantOf s c.d3C).isSome = true ∧ s.sec.rng.st = RngState.seeded ∧ randomWaits s = false :=
  ⟨sK, cGen 0x1004 2, qA, 0x1004, 2, by unfold Fetched; decide +kernel⟩
theorem test_met_KeyCommands_KeySlotCommands_5 :
    ∃ (s : State) (c : HostCmd) (q : Qp), Fetched s c q ∧ (Instr.keyErase c).wf = true ∧ s.sec.vault.out = false ∧ 4096 ≤ c.d7 ∧ c.d7 < 8176 ∧ attachedTo s c.d7 = [] ∧ (∀ x ∈ s.med.chunks, x.keyInfo = c.d7 → x.refs = 0) ∧ tabWf { } s.sec.slots = true :=
  ⟨sK, { cA 0x23 with cdw7 := 0x1002 }, qA, by unfold Fetched; decide +kernel⟩
theorem test_met_KeyCommands_KeySlotCommands_6 :
    ∃ (s : State) (c : HostCmd) (q : Qp) (x : Ns), Fetched s c q ∧ (Instr.keyAttach c).wf = true ∧ s.sec.vault.out = false ∧ nsOf s c.ns = some x ∧ slotInRange typeData c.d7 = true ∧ (slotOf s c.d7).state = SlotState.active ∧ (slotOf s c.d7).type = typeData ∧ bitOf (BitVec.toNat x.mode) 5 = true ∧ (slotOf s c.d7).owner = x.tenant ∧ nsWritten s c.ns = false :=
  ⟨wG3, { cA 0x25 with nsid := 1, cdw7 := 0x1002 }, qA, { id := 1, tenant := 1, size := 1000, mode := 0x20, owner := false }, by unfold Fetched; decide +kernel⟩
theorem test_met_KeyCommands_KeySlotCommands_7 :
    ∃ (s : State) (c : HostCmd) (q : Qp) (i : Instr) (f : HostCmd → State → AdminDone), (i, f) ∈ [(Instr.keyGenerate c, keyGenerateCmd), (Instr.keyErase c, keyEraseCmd), (Instr.keyAttach c, keyAttachCmd)] ∧ i.wf = true ∧ Fetched s c q ∧ s.sec.vault.out = false ∧ randomWaits s = false ∧ (f c s).1 ≠ 0 :=
  ⟨wG4, cGen 0x1004 2, qA, .keyGenerate (cGen 0x1004 2), keyGenerateCmd, by simp, by decide +kernel, by unfold Fetched; decide +kernel, by decide +kernel, by decide +kernel, by decide +kernel⟩
theorem test_met_KeyCommands_KeySlotCommands_8 :
    ∃ (s : State) (c : HostCmd) (q : Qp), Served s c q ∧ (c.op = 32 ∨ c.op = 34 ∨ c.op = 38) ∧ (keyServed c s).1 ≠ 0 :=
  ⟨sVr { cImp 0x1002 (zeros 40) with cdw14 := 3 } sK, { cImp 0x1002 (zeros 40) with cdw14 := 3 }, qA, by unfold Served; decide +kernel, by decide +kernel, by decide +kernel⟩
theorem test_met_KeyCommands_KeyOutputCommands_1 :
    ∃ (s : State) (c : HostCmd) (q : Qp), Fetched s c q ∧ (Instr.keyInfo c).wf = true ∧ s.sec.vault.out = false :=
  ⟨sK, { cA 0x24 with cdw7 := 0x1002, dptr0 := 0x100 }, qA, by unfold Fetched; decide +kernel⟩
theorem test_met_KeyCommands_KeyOutputCommands_2 :
    ∃ (s : State) (c : HostCmd) (q : Qp) (k : Slot), Served s c q ∧ c.op = 34 ∧ bitsOf c.d7 12 0 < 8176 ∧ k = slotOf s (bitsOf c.d7 12 0) ∧ k.state = SlotState.active ∧ (k.type ≠ typeDomain → k.exportable = true) ∧ ((wrapSlotOk s c.d30 fun o => if k.type = typeDomain then domainOf s o == bitsOf c.d7 12 0 else o == k.owner) = true) ∧ (slotOf s c.d30).state = SlotState.active ∧ blobLen k.type ≤ c.d38 :=
  ⟨sVr (cExp 0x1002 500) sK, cExp 0x1002 500, qA, ks typeData 1 (bK 64), by unfold Served; decide +kernel, by decide +kernel, by decide +kernel, by decide +kernel, by decide +kernel, by decide +kernel, by decide +kernel, by decide +kernel, by decide +kernel⟩
theorem test_met_KeyCommands_KeyOutputCommands_3 :
    ∃ (s : State) (c : HostCmd) (q : Qp) (k : Slot), Served s c q ∧ c.op = 38 ∧ slotInRange typeCmac (bitsOf c.d7 12 0) = true ∧ k = slotOf s (bitsOf c.d7 12 0) ∧ k.type = typeCmac ∧ k.state = SlotState.active :=
  ⟨sVr (cMac 0x1001 []) sK, cMac 0x1001 [], qA, ks typeCmac 1 (bK 32), by unfold Served; decide +kernel, by decide +kernel, by decide +kernel, by decide +kernel, by decide +kernel, by decide +kernel⟩
theorem test_met_KeyCommands_KeyOutputCommands_4 :
    ∃ (s : State) (c : HostCmd) (q : Qp) (i : Instr), i ∈ [Instr.keyImport c, Instr.keyGenerate c, Instr.keyExport c, Instr.keyErase c, Instr.keyInfo c, Instr.keyAttach c, Instr.keyCmac c] ∧ i.wf = true ∧ Fetched s c q ∧ s.sec.vault.out = true :=
  ⟨wG5, { cA 0x23 with cdw7 := 0x1002 }, qA, .keyErase { cA 0x23 with cdw7 := 0x1002 }, by unfold Fetched; decide +kernel⟩
theorem test_met_VaultEngine_VaultRequests_1 :
    ∃ (s : State) (r : VaultReq), (Instr.vaultRequest r).wf = true ∧ s.sec.vault.out = false ∧ s.sec.vault.running = none ∧ s.sec.vault.testing = false ∧ s.sec.vault.urgent = [] ∧ s.sec.vault.normal = [] ∧ s.sec.vault.outside = [] ∧ s.sec.vault.suspended = none :=
  ⟨s0, vq false .wrap, by decide +kernel⟩
theorem test_met_VaultEngine_VaultRequests_2 :
    ∃ (s : State) (r : VaultReq) (x : VaultReq), (Instr.vaultRequest r).wf = true ∧ s.sec.vault.out = false ∧ s.sec.vault.running = some x ∧ vaultQueued s.sec.vault < 64 ∧ r.urgent = false :=
  ⟨wG6, vq false .wrap, vq true .cmac, by decide +kernel⟩
theorem test_met_VaultEngine_VaultRequests_3 :
    ∃ (s : State) (r : VaultReq) (x : VaultReq), (Instr.vaultRequest r).wf = true ∧ s.sec.vault.out = false ∧ s.sec.vault.running = some x ∧ vaultQueued s.sec.vault < 64 ∧ r.urgent = true ∧ (x.urgent = true ∨ x.op ≠ VaultOp.cmac) :=
  ⟨wG6, vq true .wrap, vq true .cmac, by decide +kernel⟩
theorem test_met_VaultEngine_VaultRequests_4 :
    ∃ (s : State) (r : VaultReq) (x : VaultReq), (Instr.vaultRequest r).wf = true ∧ s.sec.vault.out = false ∧ s.sec.vault.running = some x ∧ s.sec.vault.urgent = [] ∧ s.sec.vault.outside = [] ∧ vaultQueued s.sec.vault < 64 ∧ s.sec.vault.suspended = none ∧ r.urgent = true ∧ x.urgent = false ∧ x.op = VaultOp.cmac :=
  ⟨wG7, vq true .wrap, vq false .cmac, by decide +kernel⟩
theorem test_met_VaultEngine_VaultRequests_5 :
    ∃ (s : State) (r : VaultReq) (x : VaultReq), (Instr.vaultRequest r).wf = true ∧ s.sec.vault.out = false ∧ s.sec.vault.running = some x ∧ 64 ≤ vaultQueued s.sec.vault ∧ r.urgent = false :=
  ⟨wG8, vq false .wrap, vq true .cmac, by decide +kernel⟩
theorem test_met_VaultEngine_VaultRequests_6 :
    ∃ (s : State) (r : VaultReq) (x : VaultReq) (l : List VaultReq) (y : VaultReq), (Instr.vaultRequest r).wf = true ∧ s.sec.vault.out = false ∧ s.sec.vault.running = some x ∧ 64 ≤ vaultQueued s.sec.vault ∧ r.urgent = true ∧ (x.urgent = true ∨ x.op ≠ VaultOp.cmac) ∧ s.sec.vault.normal = l ++ [y] :=
  ⟨wG8, vq true .wrap, vq true .cmac, List.replicate 63 (vq false .wrap), vq false .wrap, by decide +kernel⟩
theorem test_met_VaultEngine_VaultRequests_7 :
    ∃ (s : State) (r : VaultReq), s.sec.vault.running = some r ∧ r.key = none ∧ s.sec.vault.out = false ∧ s.sec.vault.urgent = [] ∧ s.sec.vault.testing = false ∧ s.sec.vault.normal = [] ∧ s.sec.vault.outside = [] :=
  ⟨wG9, vq true .cmac, by decide +kernel⟩
theorem test_met_VaultEngine_VaultRequests_8 :
    ∃ (s : State) (r : VaultReq) (x : VaultReq) (l : List VaultReq), s.sec.vault.running = some r ∧ r.key = none ∧ s.sec.vault.out = false ∧ s.sec.vault.urgent = x :: l :=
  ⟨wG11, vq true .cmac, vq true .wrap, [], by decide +kernel⟩
theorem test_met_VaultEngine_VaultRequests_9 :
    ∃ (s : State), s.sec.vault.running = none ∧ s.sec.vault.out = false ∧ s.sec.vault.urgent = [] ∧ s.sec.vault.normal = [] ∧ s.sec.vault.suspended = none ∧ s.sec.vault.testing = false :=
  ⟨s0, by decide +kernel⟩
theorem test_met_VaultEngine_VaultSelfTest_1 :
    ∃ (s : State), s.sec.vault.testing = true ∧ s.sec.vault.out = false ∧ s.sec.vault.urgent = [] ∧ s.sec.vault.normal = [] ∧ s.sec.vault.suspended = none ∧ s.sec.vault.testDue = false :=
  ⟨wG12, by decide +kernel⟩
theorem test_met_VaultEngine_VaultSelfTest_2 :
    ∃ (s : State), s.sec.vault.testing = true ∧ s.sec.vault.out = false :=
  ⟨wG13, by decide +kernel⟩
theorem test_met_VaultEngine_VaultSelfTest_3 :
    ∃ (s : State), s.sec.vault.out = true ∧ s.sec.vault.fails = 1 :=
  ⟨wG14, by decide +kernel⟩
theorem test_met_VaultEngine_VaultSelfTest_4 :
    ∃ (s : State) (_pass : Bool), s.sec.vault.testing = true ∧ s.sec.vault.out = true :=
  ⟨wG15, true, by decide +kernel⟩
theorem test_met_AlarmsAndRandom_Alarms_1 :
    ∃ (s : State) (i : Instr) (bit : ℕ), s.glb.powered = true ∧ ((∃ us, 10 ≤ us ∧ i = Instr.tamperPin us ∧ bit = 0) ∨ (∃ us, 1 ≤ us ∧ s.pins.pwrFail = false ∧ s.pins.sysResetLow = false ∧ i = Instr.voltAlarm us ∧ bit = 1) ∨ (∃ us, 10 ≤ us ∧ i = Instr.clockAlarm us ∧ bit = 2) ∨ ∃ c, (c < -40 ∨ 130 < c) ∧ i = Instr.tempAlarm c ∧ bit = 3) :=
  ⟨wG16, .tamperPin 10, 0, by decide +kernel, .inl ⟨10, by decide, rfl, rfl⟩⟩
theorem test_met_AlarmsAndRandom_Alarms_2 :
    ∃ (_s : State) (i : Instr), ((∃ us < 10, i = Instr.tamperPin us ∨ i = Instr.clockAlarm us) ∨ i = Instr.voltAlarm 0 ∨ ∃ c, -40 ≤ c ∧ c ≤ 130 ∧ i = Instr.tempAlarm c) :=
  ⟨sK, .clockAlarm 9, .inl ⟨9, by decide, .inr rfl⟩⟩
theorem test_met_AlarmsAndRandom_RandomSource_1 :
    ∃ (s : State), trngStarting s.sec.rng = true ∧ s.sec.rng.tested = false :=
  ⟨wG18, by decide +kernel⟩
theorem test_met_AlarmsAndRandom_RandomSource_2 :
    ∃ (s : State) (i : Instr), (i = Instr.trngStartTestsDone false ∧ trngStarting s.sec.rng = true ∧ s.sec.rng.tested = false ∨ i = Instr.healthTestFail ∧ s.sec.rng.noise = true ∧ (s.sec.rng.st = RngState.unseeded ∨ s.sec.rng.st = RngState.seeded)) ∧ (∀ w ∈ s.hqe.behind, w.c.op ≠ 16 ∧ w.c.op ≠ 20 ∧ w.c.op ≠ 33) :=
  ⟨wG19, .healthTestFail, by decide +kernel⟩
theorem test_met_AlarmsAndRandom_RandomSource_3 :
    ∃ (s : State), trngStarting s.sec.rng = true ∧ s.sec.rng.tested = true ∧ (∀ w ∈ s.hqe.behind, w.c.op ≠ 16 ∧ w.c.op ≠ 20 ∧ w.c.op ≠ 33) ∧ s.sec.rng.waiting.length < reseedLimit :=
  ⟨wG21, by decide +kernel⟩
theorem test_met_AlarmsAndRandom_RandomSource_4 :
    ∃ (s : State), s.sec.rng.st = RngState.failed :=
  ⟨wG22, by decide +kernel⟩
theorem test_met_AlarmsAndRandom_RandomSource_5 :
    ∃ (s : State), s.sec.rng.st = RngState.seeded :=
  ⟨sK, by decide +kernel⟩
theorem test_met_AlarmsAndRandom_RandomSource_6 :
    ∃ (s : State), s.sec.rng.st = RngState.seeded ∧ s.sec.rng.reseeding = true ∧ s.sec.rng.waiting.length < 1000000 ∧ (∀ w ∈ s.hqe.behind, w.c.op ≠ 16 ∧ w.c.op ≠ 20 ∧ w.c.op ≠ 33) :=
  ⟨wG23, by decide +kernel⟩
theorem test_met_AlarmsAndRandom_RandomSource_7 :
    ∃ (_s : State) (n : ℕ), n ≤ 65536 :=
  ⟨sK, 40, by decide +kernel⟩
theorem test_met_AlarmsAndRandom_RandomSource_8 :
    ∃ (s : State), s.sec.rng.st = RngState.seeded ∧ tabWf 0 s.drc.draws = true :=
  ⟨sK, by decide +kernel⟩
end Sys2Proof.Tests.G

set_option Elab.async false

namespace Sys2Proof.Tests.H
set_option Elab.async false
open Sys2Proof Sys2Proof.Machine Sys2Proof.Tests

set_option maxHeartbeats 4000000
def bK (n : Nat) : Bytes := (List.range n).map fun i => BitVec.ofNat 8 (3*i+1)
def ks (t : BitVec 3) (o : Nat) (m : Bytes) : Slot := filledSlot t o true m false
def slotsK : Tab Slot := [(1, filledSlot typeDomain 1 true (bK 128) true), (0x1002, ks typeData 1 (bK 64))]
def sK : State := onIng (fun x => {x with ccSlots := 8, buckets := 4, hookCap := 16}) (onDrc (fun x => {x with sizeGib := 1536}) (onSec (fun x => {x with slots := slotsK, rng := {x.rng with st := .seeded}, serialNext := 5, serialTop := 50}) sH))
def sM (m : Word32) (k : Option Nat) : State := onHqe (fun x => {x with nss := x.nss.map fun n => {n with mode := m, keySlot := k}}) sK
def eS (lba : Nat) (st : StState) (d : Bytes) : StEntry :=
  { slot := lba, nsid := 1, lba := lba, gen := 2, st := st, mirrored := false, data := d, dealloc := false, cmd := 3, block := 0, tenant := some 1, tag := none, nblk := 1, order := lba, idle := true, aged := false, run := none, old := none }
def r0 (n : Nat) : Run := { id := 5, nsid := 1, lba := 10, n := n, pos := 0, dealloc := false, drop := false, fromMirror := false, gens := List.replicate n 2, data := bK (4096 * n) }
def mI (lba : Nat) : MirEntry := ⟨1, lba, 4, bK 8, 1, none, 0, 1, false⟩
def sMi : State := onIng (fun x => {x with mirror := [mI 5, mI 6]}) sK
def c0 (st : ChunkStage) (fp : Bytes) : Chunk := { id := 8, run := 5, nsid := 1, off := 0, data := bK 48, fp := fp, stage := st, window := 0, started := false, no := 0, matched := false, bale := [], enc := false, sealed_ := false, serial := [], waybill := [], stored := [] }
def fpH : Bytes := 3 :: bK 31
def fpN : Bytes := 77 :: bK 31
def cE (no key : Nat) : ChunkEnt := { no := no, refs := 1, seg := 2, stripe := 0, strip := 0, gran := 0, granules := 2, len := 5000, st := .live, keyInfo := key, domain := 1, nsid := 1, sealed_ := false, waybill := zeros 128, stored := zeros 1024 }
def kont (no : Nat) (es : List CEntry) (c : Bool) : Container := { no := no, domain := 1, nsid := 1, entries := es, isOpen := false, cached := c, touched := 0 }
def sR : State := onIng (fun x => {x with runs := [r0 4], nextId := 9}) sK
def sC1 (c : Chunk) : State := onIng (fun x => {x with runs := [r0 4], nextId := 9, chunks := [c]}) sK
def sC1m (c : Chunk) (m : Word32) (k : Option Nat) : State := onIng (fun x => {x with runs := [r0 4], nextId := 9, chunks := [c]}) (sM m k)
def en0 (out : Bool) (f : Nat) (t : Bool) : Engine := ⟨.xts, 3, out, f, false, t⟩
def jb (re : Bool) : ReadJob := { id := 30, cmd := 7, chunk := 9, found := [], waybill := [], bale := [], rebuilt := re, wanted := none, sealOk := false, seg := 2, parts := [(0, 0, 0, 4096)] }
def wbO : Bytes := zeros 8 ++ leBytes 4 600 ++ zeros 116
def sJ (j : ReadJob) (s : Bool) : State := onBal (fun x => {x with readJobs := [j]}) (onMed (fun x => {x with chunks := [{cE 9 0x1FFF with sealed_ := s}]}) (onHqe (fun x => {x with cmds := [cmdW 7 kI 0x80 .reading], nextCmd := 20}) sK))
def balR : Bytes := encodeBale 0 (bK 48)
def jd : ReadJob := { jb false with sealOk := true, bale := balR, waybill := zeros 0x2C ++ leBytes 4 (crc32c (bK 48)) ++ zeros 80 }
def dcr : Decoder := { engine := 4, chunk := 8, lb := 100, input := balR.take 10, space := 0, d := {} }
def wH1 : State := onIng (fun x => {x with staging := [eS 1 .staged [], eS 2 .staged []]}) sK
def wH2 : State := onIng (fun x => {x with staging := [eS 1 .staged (bK 8), eS 2 .staged (bK 8), eS 4 .filling []]}) (onPeer (fun x => {x with role := .active}) sK)
def wH3 : State := onIng (fun x => {x with staging := [{eS 1 .staged [] with dealloc := true}, eS 2 .staged (bK 8), eS 4 .filling []]}) (onPeer (fun x => {x with role := .active}) sK)
def wH4 : State := onPins (fun x => {x with flushing := true}) sK
def wH5 : State := onIng (fun x => {x with runs := [r0 2]}) sR
def wH6 : State := onIng (fun x => {x with runs := [{r0 4 with pos := 12288}]}) sR
def wH7 : State := onMed (fun x => {x with chunks := [cE 9 0x1FFF]}) (onIng (fun x => {x with containers := [kont 3 [⟨fpN, 9, 0x1FFF, false⟩] true]}) (sC1 (c0 .searching fpN)))
def wH8 : State := onIng (fun x => {x with hooks := [⟨numAt fpH 9 8 % 4, bytesAt fpH 1 8, 1, 3⟩]}) (sC1 (c0 .hookSearch fpH))
def wH9 : State := onIng (fun x => {x with containers := [{kont 3 [] true with isOpen := true}]}) sK
def wH10 : State := onMed (fun x => {x with chunks := [cE 9 0x1FFF]}) (sC1 {c0 .verifying fpN with no := 9, matched := true})
def wH11 : State := onIng (fun x => {x with runs := [{ r0 4 with chunker := some 3 }]}) sK
def wH12 : State := onBal (fun x => {x with engines := [en0 true 1 true]}) sH
def wH13 : State := onBal (fun x => {x with engines := [en0 false 0 true]}) sH
def wH14 : State := onBal (fun x => {x with engines := [en0 true 1 false]}) sH
def wH15 : State := onBal (fun x => {x with decoders := [dcr]}) sK
theorem test_met_RunsAndChunks_FlushRuns_1 :
    ∃ (s : State) (e : StEntry) (l : List StEntry), flushStopped s = false ∧ s.peer.role ≠ Role.sole ∧ chosenRun s = some (e :: l) :=
  ⟨wH2, eS 1 .staged (bK 8), [eS 2 .staged (bK 8)], by decide +kernel⟩
theorem test_met_RunsAndChunks_FlushRuns_2 :
    ∃ (s : State) (u : State) (m : MirEntry) (l : List MirEntry), flushStopped s = false ∧ s.peer.role = Role.sole ∧ u = dropStaleMirror s ∧ mirrorRun u = m :: l ∧ forcedRun u = none :=
  ⟨sMi, dropStaleMirror sMi, mI 5, [mI 6], by decide +kernel⟩
theorem test_met_RunsAndChunks_FlushRuns_3 :
    ∃ (s : State), flushStopped s = true :=
  ⟨wH4, by decide +kernel⟩
theorem test_met_RunsAndChunks_ChunkBounds_1 :
    ∃ (s : State) (id : ℕ) (r : Run), runOf s id = some r ∧ r.dealloc = false ∧ asleep s = false ∧ allOut s EngClass.chunker = false ∧ (r.chunker.isSome = true ∨ (freeChunker s).isSome = true) ∧ 4096 ≤ List.length r.data - r.pos :=
  ⟨wH5, 5, r0 2, by first | decide +kernel | rfl, by first | decide +kernel | rfl, by first | decide +kernel | rfl, by first | decide +kernel | rfl, by first | decide +kernel | rfl, by first | decide +kernel | rfl⟩
theorem test_met_ChunksResolve_ChunkResolution_1 :
    ∃ (s : State) (id : ℕ) (c : Chunk), chunkById s id = some c ∧ c.stage = ChunkStage.cut ∧ anyTakes s EngClass.fingerprint = true ∧ (slotOf s (nsDomain s c.nsid)).state = SlotState.active :=
  ⟨sC1 (c0 .cut []), 8, c0 .cut [], by decide +kernel⟩
theorem test_met_ChunksResolve_ChunkResolution_2 :
    ∃ (s : State) (id : ℕ) (k : ℕ) (no : ℕ) (c : Chunk) (e : ChunkEnt), chunkById s id = some c ∧ (c.stage = ChunkStage.searching ∨ c.stage = ChunkStage.again) ∧ cacheMatch s c = some (k, no) ∧ chunkOf s no = some e ∧ bitOf (modeOf s c.nsid) 4 = false ∧ foreignChunk s no = false :=
  ⟨wH7, 8, 3, 9, c0 .searching fpN, cE 9 0x1FFF, by decide +kernel⟩
theorem test_met_ChunksResolve_ChunkResolution_3 :
    ∃ (s : State) (id : ℕ) (c : Chunk), chunkById s id = some c ∧ c.id = id ∧ c.stage = ChunkStage.searching ∧ cacheMatch s c = none :=
  ⟨sC1 (c0 .searching fpN), 8, c0 .searching fpN, by decide +kernel⟩
theorem test_met_ChunksResolve_ChunkResolution_4 :
    ∃ (s : State) (id : ℕ) (k : ℕ) (c : Chunk), chunkById s id = some c ∧ c.id = id ∧ c.stage = ChunkStage.hookSearch ∧ hookMatch s c = some k ∧ (s.ing.containers.any fun x => x.no == k && x.cached) = false :=
  ⟨wH8, 8, 3, c0 .hookSearch fpH, by decide +kernel⟩
theorem test_met_ChunksResolve_ChunkResolution_5 :
    ∃ (s : State) (k : ℕ) (d : ℕ) (l : List (Bytes × ℕ × ℕ)), (Instr.containerPullDone k l d).wf = true ∧ (s.ing.chunks.any fun c => c.stage == ChunkStage.pulling k) = true ∧ cachedCount s < s.ing.ccSlots :=
  ⟨sC1 (c0 (.pulling 3) fpH), 3, 1, [(fpH, 9, 0x1FFF)], by decide +kernel⟩
theorem test_met_ChunksResolve_VerifyOnMatch_1 :
    ∃ (s : State) (id : ℕ) (got : Option Bytes) (c : Chunk), chunkById s id = some c ∧ c.id = id ∧ c.stage = ChunkStage.verifying ∧ List.find? (fun d => d.chunk == id) s.bal.decoders = none ∧ got = some c.data :=
  ⟨wH10, 8, some (bK 48), {c0 .verifying fpN with no := 9, matched := true}, by decide +kernel⟩
theorem test_met_ChunksResolve_VerifyOnMatch_2 :
    ∃ (s : State) (id : ℕ) (got : Option Bytes) (c : Chunk), chunkById s id = some c ∧ c.id = id ∧ c.stage = ChunkStage.verifying ∧ List.find? (fun d => d.chunk == id) s.bal.decoders = none ∧ got ≠ some c.data ∧ foreignChunk s c.no = false :=
  ⟨wH10, 8, some (bK 5), {c0 .verifying fpN with no := 9, matched := true}, by decide +kernel⟩
theorem test_met_BalesAreKept_EngineTests_1 :
    ∃ (s : State) (k : EngClass) (n : Fin 32), (Instr.engineSelftestDue k n).wf = true ∧ (engineOf s k ↑n).out = false ∧ asleep s = false ∧ engineTesting s k = false ∧ holdsJob s k ↑n = false ∧ ↑n < engineCount k :=
  ⟨sH, .xts, 3, by decide +kernel⟩
theorem test_met_BalesAreKept_EngineTests_2 :
    ∃ (s : State) (k : EngClass) (n : Fin 32), (Instr.engineSelftestDue k n).wf = true ∧ (engineOf s k ↑n).out = false ∧ asleep s = false ∧ engineTesting s k = false ∧ holdsJob s k ↑n = true ∧ ↑n < engineCount k :=
  ⟨wH11, .chunker, 3, by decide +kernel⟩
theorem test_met_BalesAreKept_EngineTests_3 :
    ∃ (s : State) (k : EngClass) (n : Fin 32), (Instr.engineSelftestDue k n).wf = true ∧ (engineOf s k ↑n).testing = true ∧ (engineOf s k ↑n).due = false :=
  ⟨wH12, .xts, 3, by decide +kernel⟩
theorem test_met_BalesAreKept_EngineTests_4 :
    ∃ (s : State) (k : EngClass) (n : Fin 32), (Instr.engineSelftestDue k n).wf = true ∧ (engineOf s k ↑n).out = true ∧ (engineOf s k ↑n).failed = 1 ∧ (engineOf s k ↑n).testing = false :=
  ⟨wH14, .xts, 3, by decide +kernel⟩
theorem test_met_BalesAreKept_BalesAreStored_1 :
    ∃ (s : State) (id : ℕ) (c : Chunk), chunkById s id = some c ∧ c.stage = ChunkStage.unique ∧ asleep s = false ∧ (anyTakes s EngClass.compressor = true ∨ allOut s EngClass.compressor = true) ∧ (bitOf (modeOf s c.nsid) 5 || bitOf (modeOf s c.nsid) 6) = true :=
  ⟨sC1m (c0 .unique fpN) 0x20 (some 0x1002), 8, c0 .unique fpN, by decide +kernel⟩
theorem test_met_BalesAreKept_BalesAreStored_2 :
    ∃ (s : State) (id : ℕ) (c : Chunk), chunkById s id = some c ∧ c.stage = ChunkStage.unique ∧ asleep s = false ∧ (anyTakes s EngClass.compressor = true ∨ allOut s EngClass.compressor = true) ∧ bitOf (modeOf s c.nsid) 5 = false ∧ bitOf (modeOf s c.nsid) 6 = false ∧ s.sec.serialNext < s.sec.serialTop :=
  ⟨sC1 (c0 .unique fpN), 8, c0 .unique fpN, by decide +kernel⟩
theorem test_met_BalesAreKept_BalesAreStored_3 :
    ∃ (s : State) (id : ℕ) (c : Chunk), chunkById s id = some c ∧ c.stage = ChunkStage.encoded ∧ asleep s = false ∧ (c.enc = true ∨ c.sealed_ = true → anyTakes s EngClass.xts = true) ∧ (slotOf s (nsDomain s c.nsid)).state = SlotState.active ∧ (c.enc = true → (slotOf s (nsKeyInfo s c.nsid)).state = SlotState.active) ∧ s.sec.serialNext < s.sec.serialTop :=
  ⟨sC1m {c0 .encoded fpN with bale := encodeBale 0 (bK 600), enc := true, sealed_ := true} 0x60 (some 0x1002), 8, {c0 .encoded fpN with bale := encodeBale 0 (bK 600), enc := true, sealed_ := true}, by first | decide +kernel | rfl, by first | decide +kernel | rfl, by first | decide +kernel | rfl, by first | decide +kernel | rfl, by first | decide +kernel | rfl, by first | decide +kernel | rfl, by first | decide +kernel | rfl⟩
theorem test_met_BalesAreKept_BalesAreRead_1 :
    ∃ (s : State) (id : ℕ) (stored : Bytes) (w : Bytes) (j : ReadJob) (e : ChunkEnt) (b : Bytes), (Instr.sealCheckDone id stored w).wf = true ∧ jobOf s id = some j ∧ chunkOf s j.chunk = some e ∧ j.wanted = none ∧ j.sealOk = false ∧ j.found = [] ∧ j.waybill = [] ∧ keysLoaded s e = true ∧ allOut s EngClass.xts = false ∧ openBale e stored w s = some b :=
  ⟨sJ (jb false) false, 30, zeros 1024, wbO, jb false, cE 9 0x1FFF, zeros 600, by decide +kernel⟩
theorem test_met_BalesAreKept_BalesAreRead_2 :
    ∃ (s : State) (id : ℕ) (stored : Bytes) (w : Bytes) (j : ReadJob) (e : ChunkEnt), (Instr.sealCheckDone id stored w).wf = true ∧ jobOf s id = some j ∧ chunkOf s j.chunk = some e ∧ j.wanted = none ∧ j.sealOk = false ∧ j.found = [] ∧ j.waybill = [] ∧ keysLoaded s e = true ∧ allOut s EngClass.xts = false ∧ openBale e stored w s = none ∧ j.rebuilt = false :=
  ⟨sJ (jb false) true, 30, zeros 1024, wbO, jb false, {cE 9 0x1FFF with sealed_ := true}, by decide +kernel⟩
theorem test_met_BalesAreKept_BalesAreRead_3 :
    ∃ (s : State) (id : ℕ) (stored : Bytes) (w : Bytes) (j : ReadJob) (e : ChunkEnt) (d : Cmd) (q : Qp) (p : ℕ), (Instr.sealCheckDone id stored w).wf = true ∧ jobOf s id = some j ∧ chunkOf s j.chunk = some e ∧ j.wanted = none ∧ j.sealOk = false ∧ j.found = [] ∧ j.waybill = [] ∧ keysLoaded s e = true ∧ allOut s EngClass.xts = false ∧ openBale e stored w s = none ∧ j.rebuilt = true ∧ List.filter (fun x => x.cmd == j.cmd) s.bal.readJobs = [j] ∧ Outstanding s j.cmd d q ∧ d.good = d.nblk ∧ List.map (fun x => x.1) j.parts = [p] ∧ p < d.nblk ∧ p < 256 :=
  ⟨sJ (jb true) true, 30, zeros 1024, wbO, jb true, {cE 9 0x1FFF with sealed_ := true}, cmdW 7 kI 0x80 .reading, qI, 0, by unfold Outstanding; decide +kernel⟩
theorem test_met_BalesAreKept_BalesAreRead_4 :
    ∃ (s : State) (id : ℕ) (j : ReadJob) (e : ChunkEnt) (d : Cmd) (q : Qp) (orig : Bytes), jobOf s id = some j ∧ chunkOf s j.chunk = some e ∧ j.sealOk = true ∧ allOut s EngClass.decompressor = false ∧ decodeBale j.bale (some (numAt j.waybill 44 4)) = (0, orig) ∧ List.filter (fun x => x.cmd == j.cmd) s.bal.readJobs = [j] ∧ Outstanding s j.cmd d q ∧ d.status = 0 ∧ d.poisoned = [] :=
  ⟨sJ jd false, 30, jd, cE 9 0x1FFF, cmdW 7 kI 0x80 .reading, qI, bK 48, by unfold Outstanding; decide +kernel⟩
theorem test_met_BalesAreKept_BalesAreRead_5 :
    ∃ (s : State) (n : Fin 32) (d : Decoder) (_len : ℕ), List.find? (fun x => x.engine == ↑n) s.bal.decoders = some d ∧ d.d.result = none :=
  ⟨wH15, 4, dcr, 100, by decide +kernel⟩
theorem test_met_BalesAreKept_BalesAreRead_6 :
    ∃ (s : State) (n : Fin 32) (d : Decoder) (_b : Bytes), List.find? (fun x => x.engine == ↑n) s.bal.decoders = some d ∧ d.d.result = none :=
  ⟨wH15, 4, dcr, [1,2,3], by decide +kernel⟩
theorem test_met_BalesAreKept_BalesAreRead_7 :
    ∃ (s : State) (n : Fin 32) (d : Decoder), List.find? (fun x => x.engine == ↑n) s.bal.decoders = some d ∧ d.d.result = none ∧ (∀ c ∈ s.ing.chunks, c.stage ≠ ChunkStage.verifying) :=
  ⟨wH15, 4, dcr, by decide +kernel⟩
theorem test_met_BalesAreKept_RawBaleDecodes_1 :
    ∃ (d : Bytes), 1 ≤ List.length d ∧ List.length d ≤ 65536 :=
  ⟨bK 5, by decide +kernel⟩
end Sys2Proof.Tests.H

set_option Elab.async false

namespace Sys2Proof.Tests.I
set_option Elab.async false
open Sys2Proof Sys2Proof.Machine Sys2Proof.Tests

set_option maxHeartbeats 4000000
def bK (n : Nat) : Bytes := (List.range n).map fun i => BitVec.ofNat 8 (3*i+1)
def mi : ModInfo := { channels := 4, perChan := 4, planes := 2, bits := 3, blocks := 100, pagesD := 768, pagesS := 256, limit := 72, partials := 4, rated := 3000, tSlcUs := 200, u := 1, page := zeros 0x44 ++ (List.range 8).flatMap (fun k => leBytes 2 (8 + k)) ++ zeros 100 }
def lnH : Lane := { st := .held, active := true, claim := 7, cmdCred := 20, dataCred := 200, info := mi }
def sL : State := onTil (fun x => {x with readFloor := (List.range 8).map fun n => (n, 1)}) <| onPar (fun x => {x with ordinary := {id := 1, d := 4, q := true, elig := List.range 8}, archive := {id := 2, d := 4, q := true, elig := List.range 8}, metadata := {id := 3, d := 4, q := true, elig := List.range 8}}) (onFar (fun x => {x with lanes := (List.range 8).map fun n => (n, lnH)}) (onDrc (fun x => {x with sizeGib := 1536}) sH))
def mem6 : List Member := (List.range 6).map fun n => ⟨n, 0, 0, 20⟩
def sg (no : Nat) (st : SegState) (x : StreamId) : Seg := { no := no, st := st, stream := x, slc := false, d := 4, q := true, layout := 1, members := mem6, missing := [], stripes := 5, capacity := 192, verified := [], erases := 3, writtenAt := 0, closedAt := 0, readers := 0, retired := 0, oldVer := false }
def x0 : StreamId := ⟨0, false⟩
def st0 (no : Nat) (x : StreamId) (closed : Bool) : Stripe := { stream := x, seg := no, stripe := 5, next := 16, bales := [9], closed := closed }
def r0 (d : Bool) : Run := { id := 5, nsid := 1, lba := 10, n := 2, pos := 16, dealloc := d, drop := false, fromMirror := false, gens := [2,3], data := bK 16 }
def c0 (st : ChunkStage) : Chunk := { id := 8, run := 5, nsid := 1, off := 0, data := bK 16, fp := zeros 32, stage := st, window := 0, started := false, no := 9, matched := false, bale := bK 700, enc := false, sealed_ := false, serial := bK 12, waybill := zeros 128, stored := zeros 1024 }
def cE (no : Nat) (st : ChunkSt) : ChunkEnt := { no := no, refs := 1, seg := 2, stripe := 0, strip := 0, gran := 0, granules := 2, len := 5000, st := st, keyInfo := 0x1FFF, domain := 1, nsid := 1, sealed_ := false, waybill := zeros 128, stored := zeros 1024 }
def eS (lba : Nat) : StEntry :=
  { slot := lba, nsid := 1, lba := lba, gen := BitVec.ofNat 16 (lba - 8), st := .flushing, mirrored := false, data := bK 8, dealloc := false, cmd := 3, block := 0, tenant := some 1, tag := none, nblk := 1, order := lba, idle := true, aged := false, run := some 5, old := none }
def sP (drop : Bool) : State := onMed (fun x => {x with chunks := [cE 9 .live], cached := [(1,0)]}) (onIng (fun x => {x with runs := [{r0 false with drop := drop}], chunks := [c0 .live], staging := [eS 10, eS 11, {eS 12 with run := none, st := .staged}]}) sL)
def sg2 (f : Med → Med) : State := onMed f (onMed (fun x => {x with chunks := [cE 9 .live], segNext := 50, writeSeq := 7}) sL)
def dr : DieRun := { lane := 3, die := 2, erase := true, ranMin := true, count := 1, waiting := false, held := false }
def sDr (r : DieRun) : State := onMed (fun x => {x with dieRuns := [r]}) sL
def frec (c : Fin 5) : FlushRec := { marks := 3, final := false, cls := c, events := [], settle := [], journal := [], accs := [], blocks := [], lost := [], active := false }
def mir (lba : Nat) : MirEntry := { nsid := 1, lba := lba, gen := 4, data := bK 8, tenant := 1, tag := none, block := 0, nblk := 1 }
def sFl (f : Flush) : State := onPlf (fun x => {x with flush := some f}) (onPins (fun x => {x with flushing := true}) (onIng (fun x => {x with mirror := [mir 3], staging := [{eS 12 with st := .staged, run := none}]}) sL))
def wI1 : State := onMed (fun x => {x with frozenMaps := true}) (sP false)
def wI2 : State := onIng (fun x => {x with chunks := [{c0 .stored with no := 10}]}) (sg2 (fun x => {x with chunks := [cE 9 .live, cE 10 .placing], segs := [sg 4 .open_ x0], stripes := [st0 4 x0 false]}))
def wI3 : State := onIng (fun x => {x with chunks := [{c0 .stored with no := 10}]}) (sg2 (fun x => x))
def wI4 : State := onMed (fun x => {x with level := 3}) sL
def wI5 : State := onWch (fun x => {x with opSeconds := 63072000}) (sg2 (fun x => {x with segs := [sg 2 .closed x0]}))
def wI6 : State := onWch (fun x => {x with opSeconds := 63072000}) (sg2 (fun x => {x with segs := [sg 4 .closed x0]}))
def wI7 : State := onGlb (fun x => {x with service := .startUp}) (onPins (fun x => {x with holdup := some (50000, 110, 60)}) sL)
def wI8 : State := onGlb (fun x => {x with service := .startUp}) (onPins (fun x => {x with holdup := some (3000000, 110, 60)}) sL)
def wI9 : State := onPins (fun x => {x with holdup := some (3000000, 110, 60)}) sL
def wI10 : State := onPins (fun x => {x with holdup := some (50000, 110, 60)}) sL
def wI11 : State := onGlb (fun x => {x with service := .startUp}) sL
def wI12 : State := onGlb (fun x => {x with service := .romService}) sL
def wI13 : State := onPins (fun x => {x with pwrFail := true}) (sFl ⟨true, 2, frec 1, false⟩)
def wI14 : State := onHqe (fun x => {x with cmds := [cmdW 7 kI 0x80 .reading, cmdW 8 kI 0x81 .filling, cmdW 9 kI 0x81 .waitCredit]}) (sFl ⟨false, 0, frec 0, false⟩)
def wI15 : State := onPlf (fun x => {x with records := [{frec 4 with final := true}]}) (onGlb (fun x => {x with service := .recovery}) sL)
def wI16 : State := onPlf (fun x => {x with records := [{frec 4 with blocks := [saveBlock (mir 3)]}]}) (onGlb (fun x => {x with service := .recovery}) sL)
def wI17 : State := onPlf (fun x => {x with records := [{frec 4 with blocks := [⟨mir 3, 5⟩]}]}) (onGlb (fun x => {x with service := .recovery}) sL)
def wI18 : State := onPlf (fun x => {x with records := [{frec 4 with active := true, blocks := [⟨mir 3, 5⟩]}]}) (onGlb (fun x => {x with service := .recovery}) sL)
def wI19 : State := onPlf (fun x => {x with records := [{frec 4 with blocks := [saveBlock {mir 3 with bad := true}]}]}) (onGlb (fun x => {x with service := .recovery}) sL)
theorem test_met_MapsAndStripes_MapUpdatesPublish_1 :
    ∃ (s : State) (id : ℕ) (r : Run), runOf s id = some r ∧ s.med.frozenMaps = false ∧ asleep s = false ∧ runPlaced s r = true ∧ 4 * (s.med.journal.length + r.n) < 3 * journalCap :=
  ⟨sP false, 5, r0 false, by decide +kernel⟩
theorem test_met_MapsAndStripes_MapUpdatesPublish_2 :
    ∃ (s : State) (id : ℕ) (r : Run), runOf s id = some r ∧ (s.med.frozenMaps = true ∨ runPlaced s r = false ∨ journalCap < s.med.journal.length + r.n) :=
  ⟨wI1, 5, r0 false, by decide +kernel⟩
theorem test_met_MapsAndStripes_StripesFill_1 :
    ∃ (s : State) (id : ℕ) (c : Chunk) (g : Seg) (k : Stripe) (e : ChunkEnt), chunkById s id = some c ∧ c.stage = ChunkStage.stored ∧ asleep s = false ∧ openSegOf s (hostStream s c.nsid) = some g ∧ openStripe s (hostStream s c.nsid) = some k ∧ fits g.d k (granulesOf (List.length c.bale)) = true ∧ chunkOf s c.no = some e ∧ hostWaits s = false :=
  ⟨wI2, 8, {c0 .stored with no := 10}, sg 4 .open_ x0, st0 4 x0 false, cE 10 .placing, by decide +kernel⟩
theorem test_met_MapsAndStripes_StripesFill_2 :
    ∃ (s : State) (id : ℕ) (c : Chunk), chunkById s id = some c ∧ openSegOf s (hostStream s c.nsid) = none :=
  ⟨wI3, 8, {c0 .stored with no := 10}, by decide +kernel⟩
theorem test_met_MapsAndStripes_StripesFill_3 :
    ∃ (s : State) (x : StreamId) (k : Stripe), openStripe s x = some k :=
  ⟨sg2 (fun x => {x with segs := [sg 4 .open_ x0], stripes := [st0 4 x0 false]}), x0, st0 4 x0 false, by decide +kernel⟩
theorem test_met_MapsAndStripes_StripesFill_4 :
    ∃ (s : State) (seg : ℕ) (stripe : ℕ) (k : Stripe), List.find? (fun y => y.seg == seg && y.stripe == stripe && y.closed) s.med.stripes = some k ∧ NoBatches s ∧ Settled s ∧ s.til.objOut = none :=
  ⟨sg2 (fun x => {x with chunks := [{cE 9 .placing with seg := 4, stripe := 5}], segs := [sg 4 .open_ x0], stripes := [st0 4 x0 true]}), 4, 5, st0 4 x0 true, by decide +kernel, by unfold NoBatches; decide +kernel, by unfold Settled; decide +kernel, by decide +kernel⟩
theorem test_met_MapsAndStripes_StripesFill_5 :
    ∃ (s : State) (seg : ℕ) (stripe : ℕ) (k : Stripe) (l : List ℕ) (g : Seg), l ≠ [] ∧ segOf s seg = some g ∧ List.find? (fun y => y.seg == seg && y.stripe == stripe && y.closed) s.med.stripes = some k ∧ NoBatches s ∧ Settled s ∧ s.til.objOut = none :=
  ⟨sg2 (fun x => {x with chunks := [{cE 9 .placing with seg := 4, stripe := 5}], segs := [sg 4 .open_ x0], stripes := [st0 4 x0 true]}), 4, 5, st0 4 x0 true, [1,2], sg 4 .open_ x0, by decide +kernel, by decide +kernel, by decide +kernel, by unfold NoBatches; decide +kernel, by unfold Settled; decide +kernel, by decide +kernel⟩
theorem test_met_SegmentsLive_SegmentsAllocate_1 :
    ∃ (_s : State) (_n : Fin 96) (v : ℕ) (c : ℕ), 0 < c ∧ v ≤ c :=
  ⟨sL, 3, 0, 100, by decide +kernel⟩
theorem test_met_SegmentsLive_SegmentsAllocate_3 :
    ∃ (s : State) (x : StreamId) (slc : Bool) (g : Seg), openSegOf s x = none ∧ asleep s = false ∧ 2 ≤ dNow s (slotOfStream s x) ∧ dNow s (slotOfStream s x) = (slotOfStream s x).d ∧ (slotOfStream s x).narrow = false ∧ (slotOfStream s x).stopped = false ∧ Settled s ∧ slc = (takesSlc s x && ((leastWorn s x true).isSome || decide (unformed s ≠ 0))) ∧ (slc = true ∨ openDense s + dNow s (slotOfStream s x) + parityStrips (slotOfStream s x) ≤ 2048) ∧ (s.med.level < 3 ∨ x.kind = 5 ∨ x.reclaim = true) ∧ leastWorn s x slc = some g :=
  ⟨sg2 (fun x => {x with segs := [sg 4 .dirty x0, {sg 6 .free ⟨1, false⟩ with erases := 2, members := [⟨1,1,1,21⟩], missing := [1]}]}), x0, false, {sg 6 .free ⟨1, false⟩ with erases := 2, members := [⟨1,1,1,21⟩], missing := [1]}, by decide +kernel, by decide +kernel, by decide +kernel, by decide +kernel, by decide +kernel, by decide +kernel, by unfold Settled; decide +kernel, by decide +kernel, by decide +kernel, by decide +kernel, by decide +kernel⟩
theorem test_met_SegmentsLive_SegmentsAllocate_4 :
    ∃ (s : State) (x : StreamId) (slc : Bool), openSegOf s x = none ∧ asleep s = false ∧ 2 ≤ dNow s (slotOfStream s x) ∧ dNow s (slotOfStream s x) = (slotOfStream s x).d ∧ (slotOfStream s x).narrow = false ∧ (slotOfStream s x).stopped = false ∧ Settled s ∧ slc = (takesSlc s x && ((leastWorn s x true).isSome || decide (unformed s ≠ 0))) ∧ (slc = true ∨ openDense s + dNow s (slotOfStream s x) + parityStrips (slotOfStream s x) ≤ 2048) ∧ 3 ≤ s.med.level ∧ x.kind ≠ 5 ∧ x.reclaim = false :=
  ⟨wI4, x0, false, by decide +kernel, by decide +kernel, by decide +kernel, by decide +kernel, by decide +kernel, by decide +kernel, by unfold Settled; decide +kernel, by decide +kernel, by decide +kernel, by decide +kernel, by decide +kernel, by decide +kernel⟩
theorem test_met_SegmentsLive_SegmentsLifeCycle_1 :
    ∃ (s : State) (no : ℕ) (p : ℕ) (n : ℕ) (g : Seg), segOf s no = some g ∧ g.st = SegState.closing ∧ p ∉ g.verified ∧ 4 * n ≤ 3 * limitOf s g p :=
  ⟨sg2 (fun x => {x with segs := [sg 4 .closing x0]}), 4, 2, 54, sg 4 .closing x0, by decide +kernel⟩
theorem test_met_SegmentsLive_SegmentsLifeCycle_2 :
    ∃ (s : State) (no : ℕ) (p : ℕ) (n : ℕ) (g : Seg) (l : List ℕ), segOf s no = some g ∧ g.st = SegState.closing ∧ p ∉ g.verified ∧ (l ≠ [] ∨ 3 * limitOf s g p < 4 * n) :=
  ⟨sg2 (fun x => {x with segs := [sg 4 .closing x0]}), 4, 2, 55, sg 4 .closing x0, [], by decide +kernel⟩
theorem test_met_SegmentsLive_SegmentsLifeCycle_3 :
    ∃ (s : State) (k : VictimKind) (g : Seg), asleep s = false ∧ foreignNamed s = [] ∧ sharedSeg s = none ∧ victimOf s k = some g :=
  ⟨wI5, .refresh 2, sg 2 .closed x0, by decide +kernel⟩
theorem test_met_SegmentsLive_SegmentsLifeCycle_4 :
    ∃ (s : State) (no : ℕ) (e : ChunkEnt) (g : Seg) (h : Seg) (k : Stripe), chunkOf s no = some e ∧ e.st = ChunkSt.live ∧ relocates s e = true ∧ copyOf s no = none ∧ asleep s = false ∧ segOf s e.seg = some g ∧ openSegOf s (relocStream g) = some h ∧ openStripe s (relocStream g) = some k ∧ fits h.d k e.granules = true :=
  ⟨sg2 (fun x => {x with segs := [sg 2 .reclaiming x0, sg 4 .open_ ⟨1, true⟩], stripes := [st0 4 ⟨1, true⟩ false]}), 9, cE 9 .live, sg 2 .reclaiming x0, sg 4 .open_ ⟨1, true⟩, st0 4 ⟨1, true⟩ false, by decide +kernel⟩
theorem test_met_SegmentsLive_SegmentsLifeCycle_5 :
    ∃ (s : State) (no : ℕ) (e : ChunkEnt) (c : Copy), chunkOf s no = some e ∧ copyOf s no = some c ∧ e.st = ChunkSt.live ∧ c.done = true ∧ asleep s = false ∧ placeOf e = c.source ∧ (∀ (g : Seg), segOf s e.seg = some g → g.oldVer = false) ∧ foreignChunk s no = false :=
  ⟨sg2 (fun x => {x with chunks := [cE 9 .live], copies := [⟨9, (2, 0, 0), 4, 5, 17, true⟩], segs := [sg 2 .reclaiming x0, sg 4 .open_ ⟨1, true⟩]}), 9, cE 9 .live, ⟨9, (2, 0, 0), 4, 5, 17, true⟩, by decide +kernel⟩
theorem test_met_SegmentsLive_SegmentsLifeCycle_6 :
    ∃ (s : State) (no : ℕ) (e : ChunkEnt) (c : Copy), chunkOf s no = some e ∧ copyOf s no = some c ∧ e.st = ChunkSt.live ∧ c.done = false :=
  ⟨sg2 (fun x => {x with chunks := [cE 9 .live], copies := [⟨9, (2, 0, 0), 4, 5, 17, false⟩], segs := [sg 2 .reclaiming x0, sg 4 .open_ ⟨1, true⟩]}), 9, cE 9 .live, ⟨9, (2, 0, 0), 4, 5, 17, false⟩, by decide +kernel⟩
theorem test_met_SegmentsLive_SegmentsLifeCycle_7 :
    ∃ (s : State) (no : ℕ) (e : ChunkEnt) (c : Copy), chunkOf s no = some e ∧ copyOf s no = some c ∧ e.st ≠ ChunkSt.live :=
  ⟨sg2 (fun x => {x with chunks := [cE 9 .dead], copies := [⟨9, (2, 0, 0), 4, 5, 17, true⟩], segs := [sg 2 .reclaiming x0, sg 4 .open_ ⟨1, true⟩]}), 9, cE 9 .dead, ⟨9, (2, 0, 0), 4, 5, 17, true⟩, by decide +kernel⟩
theorem test_met_SegmentsLive_SegmentsLifeCycle_8 :
    ∃ (s : State) (no : ℕ) (g : Seg), segOf s no = some g ∧ g.st = SegState.draining ∧ beingRead s g = false :=
  ⟨sg2 (fun x => {x with segs := [{sg 4 .draining x0 with retired := 2}]}), 4, {sg 4 .draining x0 with retired := 2}, by decide +kernel⟩
theorem test_met_SegmentsLive_SegmentsLifeCycle_9 :
    ∃ (s : State) (no : ℕ) (_corr : List ℕ) (_bad : Bool) (g : Seg), segOf s no = some g ∧ g.st = SegState.closed ∧ asleep s = false ∧ (List.filter (fun n => Option.any (fun x => x.st == SegState.closed) (segOf s n)) s.med.scanList = [] ∨ (List.filter (fun n => Option.any (fun x => x.st == SegState.closed) (segOf s n)) s.med.scanList).head? = some no) :=
  ⟨sg2 (fun x => {x with segs := [sg 2 .closed x0]}), 2, [36], false, sg 2 .closed x0, by decide +kernel⟩
theorem test_met_DiesRunOperations_NandSuspends_1 :
    ∃ (s : State) (n : Fin 96) (die : BitVec 9) (r : DieRun), dieRunOf s (↑n) die.toNat = some r ∧ r.held = false ∧ r.ranMin = true ∧ r.count < suspLimit s r :=
  ⟨sDr dr, 3, 2, dr, by decide +kernel⟩
theorem test_met_DiesRunOperations_NandSuspends_2 :
    ∃ (s : State) (n : Fin 96) (die : BitVec 9) (r : DieRun), dieRunOf s (↑n) die.toNat = some r ∧ r.held = false ∧ r.ranMin = false :=
  ⟨sDr {dr with ranMin := false}, 3, 2, {dr with ranMin := false}, by decide +kernel⟩
theorem test_met_DiesRunOperations_NandSuspends_3 :
    ∃ (s : State) (n : Fin 96) (die : BitVec 9) (r : DieRun), dieRunOf s (↑n) die.toNat = some r ∧ r.waiting = false :=
  ⟨sDr {dr with ranMin := false}, 3, 2, {dr with ranMin := false}, by decide +kernel⟩
theorem test_met_DiesRunOperations_NandSuspends_4 :
    ∃ (s : State) (n : Fin 96) (die : BitVec 9) (r : DieRun), dieRunOf s (↑n) die.toNat = some r ∧ r.waiting = true ∧ r.held = false ∧ r.count < suspLimit s r :=
  ⟨sDr {dr with ranMin := false, waiting := true}, 3, 2, {dr with ranMin := false, waiting := true}, by decide +kernel⟩
theorem test_met_DiesRunOperations_NandSuspends_5 :
    ∃ (s : State) (n : Fin 96) (die : BitVec 9) (r : DieRun), dieRunOf s (↑n) die.toNat = some r ∧ r.held = true :=
  ⟨sDr {dr with held := true}, 3, 2, {dr with held := true}, by decide +kernel⟩
theorem test_met_PowerLossFlush_HoldUpBudget_1 :
    ∃ (s : State), s.pins.holdup.isSome = true ∧ s.glb.service = Service.startUp :=
  ⟨wI7, by decide +kernel⟩
theorem test_met_PowerLossFlush_HoldUpBudget_2 :
    ∃ (s : State), s.pins.holdup.isSome = true ∧ s.glb.service ≠ Service.startUp :=
  ⟨wI9, by decide +kernel⟩
theorem test_met_PowerLossFlush_HoldUpBudget_3 :
    ∃ (s : State), s.pins.holdup = none :=
  ⟨sL, by decide +kernel⟩
theorem test_met_PowerLossFlush_PowerFails_1 :
    ∃ (s : State) (n : ℕ), 2000 ≤ n ∧ s.pins.pwrFail = false ∧ s.glb.resetHeld = false ∧ s.glb.powered = true :=
  ⟨sL, 2000, by decide +kernel⟩
theorem test_met_PowerLossFlush_PowerFails_2 :
    ∃ (s : State) (n : ℕ), (n < 2000 ∨ s.pins.pwrFail = true) :=
  ⟨sL, 1999, by decide +kernel⟩
theorem test_met_PowerLossFlush_FlushInFourClasses_1 :
    ∃ (s : State) (f : Flush), s.plf.flush = some f ∧ f.quiesced = false :=
  ⟨wI14, ⟨false, 0, frec 0, false⟩, by decide +kernel⟩
theorem test_met_PowerLossFlush_FlushInFourClasses_2 :
    ∃ (s : State) (f : Flush), s.plf.flush = some f ∧ f.quiesced = true ∧ f.rec_.cls ≠ f.cls ∧ f.cls ≠ 0 :=
  ⟨sFl ⟨true, 1, frec 0, false⟩, ⟨true, 1, frec 0, false⟩, by decide +kernel⟩
theorem test_met_PowerLossFlush_FlushInFourClasses_3 :
    ∃ (s : State) (f : Flush), s.plf.flush = some f ∧ f.rec_.cls = 4 ∧ (∀ (k : ℕ), (queueOf s k).reads = []) ∧ f.resetAfter = false :=
  ⟨sFl ⟨true, 4, frec 4, false⟩, ⟨true, 4, frec 4, false⟩, by decide +kernel, by decide +kernel, fun _ => rfl, by decide +kernel⟩
theorem test_met_PowerLossFlush_FlushInFourClasses_4 :
    ∃ (s : State) (f : Flush), s.plf.flush = some f ∧ f.rec_.cls = 4 ∧ (∀ (k : ℕ), (queueOf s k).reads = []) ∧ f.resetAfter = true :=
  ⟨sFl ⟨true, 4, frec 4, true⟩, ⟨true, 4, frec 4, true⟩, by decide +kernel, by decide +kernel, fun _ => rfl, by decide +kernel⟩
theorem test_met_PowerLossFlush_FlushReplays_1 :
    ∃ (s : State) (r : FlushRec), s.glb.service = Service.recovery ∧ s.plf.records = [r] ∧ s.plf.replayStep = 0 ∧ r.lost = [] ∧ s.hqe.cmds = [] ∧ s.hqe.behind = [] ∧ r.blocks = [] :=
  ⟨wI15, {frec 4 with final := true}, by decide +kernel⟩
theorem test_met_PowerLossFlush_FlushReplays_2 :
    ∃ (s : State) (r : FlushRec) (m : MirEntry) (w : ℕ) (l : List ℕ), s.glb.service = Service.recovery ∧ s.plf.records = [r] ∧ s.plf.replayStep = 0 ∧ r.lost = [] ∧ s.hqe.cmds = [] ∧ s.hqe.behind = [] ∧ r.blocks = [saveBlock m] ∧ m.bad = false ∧ needsStaging (replayMaps s) m = true ∧ freeWays s (Machine.setOf s m.nsid m.lba) = w :: l :=
  ⟨wI16, {frec 4 with blocks := [saveBlock (mir 3)]}, mir 3, 8 * setOf sL 1 3, (List.range 7).map fun i => 8 * setOf sL 1 3 + i + 1, by first | rfl | decide +kernel, by first | rfl | decide +kernel, by first | rfl | decide +kernel, by first | rfl | decide +kernel, by first | rfl | decide +kernel, by first | rfl | decide +kernel, by first | rfl | decide +kernel, by first | rfl | decide +kernel, by first | rfl | decide +kernel, by first | rfl | decide +kernel⟩
theorem test_met_PowerLossFlush_FlushReplays_3 :
    ∃ (s : State) (r : FlushRec) (m : MirEntry) (n : ℕ), s.glb.service = Service.recovery ∧ s.plf.records = [r] ∧ s.plf.replayStep = 0 ∧ r.lost = [] ∧ s.hqe.cmds = [] ∧ s.hqe.behind = [] ∧ r.blocks = [{ m := m, crc := n }] ∧ n ≠ savedCrc m :=
  ⟨wI17, {frec 4 with blocks := [⟨mir 3, 5⟩]}, mir 3, 5, by decide +kernel⟩
theorem test_met_PowerLossFlush_FlushReplays_4 :
    ∃ (s : State) (r : FlushRec) (m : MirEntry), s.glb.service = Service.recovery ∧ s.plf.records = [r] ∧ s.plf.replayStep = 0 ∧ r.lost = [] ∧ s.hqe.cmds = [] ∧ s.hqe.behind = [] ∧ r.blocks = [saveBlock m] ∧ m.bad = true :=
  ⟨wI19, {frec 4 with blocks := [saveBlock {mir 3 with bad := true}]}, {mir 3 with bad := true}, by decide +kernel⟩
end Sys2Proof.Tests.I

set_option Elab.async false

namespace Sys2Proof.Tests.J
set_option Elab.async false
open Sys2Proof Sys2Proof.Machine Sys2Proof.Tests

set_option maxHeartbeats 4000000
def bK (n : Nat) : Bytes := (List.range n).map fun i => BitVec.ofNat 8 (3*i+1)
def pgB : Bytes := leBytes 4 0xFAB10001 ++ leBytes 2 1 ++ zeros 10 ++ [4,4,2,3] ++ leBytes 4 100 ++ leBytes 2 768 ++ leBytes 2 256 ++ zeros 4 ++ leBytes 2 72 ++ [4,0] ++ leBytes 4 3000 ++ zeros 6 ++ leBytes 2 200 ++ zeros 8 ++ leBytes 4 131072 ++ leBytes 4 7 ++ [1, 3, 3, 0] ++ (List.range 8).flatMap (fun k => leBytes 2 (8 + k)) ++ zeros 12 ++ (List.range 16).flatMap (fun _ => ([0, 4] : Bytes)) ++ zeros (512 - 0x60 - 32)
def mi : ModInfo := infoOf pgB
def ln : Lane := { st := .training, tries := 1 }
def sT (f : Lane → Lane) : State := onFar (fun x => {x with lanes := [(3, f ln)]}) sH
def lnH : Lane := { st := .held, active := true, claim := 7, cmdCred := 20, dataCred := 200, info := mi }
def sA (f : Lane → Lane) : State := onFar (fun x => {x with lanes := [(3, f lnH)]}) sH
def ts (k : Byte) (l : Byte) (f : Byte) : Bytes := withCrc ([k, 1, l, f] ++ leBytes 2 64 ++ leBytes 2 512 ++ leBytes 4 0xABCD)
def ff : FarFrame := { lane := 3, port := 1, slc := true, all := false, claim := 7, tag := 5, die := 2, block := 20, page := 0, planes := 1, offset := 0, count := 0, payload := [] }
def fPr : FarFrame := { ff with payload := zeros 16384 }
def fPp : FarFrame := { ff with payload := zeros 512, count := 1 }
def md : Module := { curClaim := 7, owner := 2, laneA := 0xFF, laneB := 3, linkB := true, params := [(0, zeros 32)], page := pgB, blocks := [(2 * 2^26 + 20, {slc := true})] }
def sB (f : Module → Module) : State := onFar (fun x => {x with modules := [(3, f md)]}) sH
def opR : DieOp := ⟨0x10, {ff with count := 1}, false⟩
def opE : DieOp := ⟨0x13, ff, false⟩
def opW : DieOp := ⟨0x11, fPr, false⟩
def dW (f : Die → Die) : Module → Module := fun m => {m with dies := [(2, f {})]}
def fo (op : Byte) (die : Nat) : FarOut := { tag := 5, c := { op := op, slc := false, die := die, block := 20, page := 0, planes := 1, offset := 0, count := 1, payload := [] }, timeouts := 0, reissued := false, polling := false }
def sn (a b : Nat) : Sent := ⟨BitVec.ofNat 16 a, b, 5, 7, (fo 0x11 2).c⟩
def fc (op : Byte) (st : Word16) (p : Bytes) : FarCompletion := { link := ⟨0, true, true⟩, lane := 3, op := op, claim := 7, tag := 5, die := 2, status := st, corr := 0, busyUs := 0, aux := 9, payload := p, nowMs := 100 }
def dst (s : Byte) (t : Word16) : DieStatus := { state := s, op := 0x11, status := 0, tag := t, page := 0, block := 20, claim := 7 }
def wJ1 : State := onFar (fun x => {x with clkSource := [(0, 4)]}) (sA (fun l => {l with unacked := [sn 1 20]}))
def wJ2 : State := onFar (fun x => {x with modules := [(3, {dW (fun d => {d with running := some opR, st := 1}) md with blocks := [(2 * 2^26 + 20, {slc := true, known := true})]})]}) sH
def wJ3 : State := onPeer (fun x => {x with role := .service}) (sA id)
def wJ4 : State := onPeer (fun x => {x with role := .service}) (sA (fun l => {l with st := .training, out := [fo 0x21 0]}))
def wJ5 : State := onPeer (fun x => {x with role := .service}) (sA (fun l => {l with out := [fo 0x10 2]}))
def wJ6 : State := onPeer (fun x => {x with detect := .takeover}) (sA (fun l => {l with st := .peerHeld, claiming := true}))
theorem test_met_LanesCarryFrames_LanesTrain_1 :
    ∃ (s : State) (n : Fin 96), (laneOf s ↑n).st = LaneState.training ∧ (laneOf s ↑n).signal = false :=
  ⟨sT id, 3, by decide +kernel⟩
theorem test_met_LanesCarryFrames_LanesTrain_2 :
    ∃ (s : State) (n : Fin 96) (b : Bytes), List.length b = 16 ∧ (laneOf s ↑n).signal = true ∧ (laneOf s ↑n).config = false ∧ (laneOf s ↑n).active = false :=
  ⟨sT (fun l => {l with signal := true}), 3, ts 0x1E 3 3, by decide +kernel⟩
theorem test_met_LanesCarryFrames_LanesTrain_3 :
    ∃ (s : State) (n : Fin 96) (b : Bytes), List.length b = 16 ∧ (laneOf s ↑n).config = true ∧ (laneOf s ↑n).st = LaneState.training ∧ (ts2Good s (↑n) b = false ∨ (laneOf s ↑n).ts2 < 7 ∨ (laneOf s ↑n).ts2Sent < 16) :=
  ⟨sT (fun l => {l with config := true, ts2 := 6}), 3, ts 0x2D 3 2, by decide +kernel⟩
theorem test_met_LanesCarryFrames_LanesTrain_4 :
    ∃ (s : State) (n : Fin 96) (b : Bytes), List.length b = 16 ∧ (laneOf s ↑n).config = true ∧ (laneOf s ↑n).st = LaneState.training ∧ ts2Good s (↑n) b = true ∧ 7 ≤ (laneOf s ↑n).ts2 ∧ 16 ≤ (laneOf s ↑n).ts2Sent ∧ cabledRight s (↑n) b = true :=
  ⟨sT (fun l => {l with config := true, ts2 := 7, ts2Sent := 16}), 3, ts 0x2D 3 2, by decide +kernel⟩
theorem test_met_LanesCarryFrames_LanesTrain_5 :
    ∃ (s : State) (n : Fin 96) (b : Bytes), List.length b = 16 ∧ (laneOf s ↑n).config = true ∧ (laneOf s ↑n).st = LaneState.training ∧ ts2Good s (↑n) b = true ∧ 7 ≤ (laneOf s ↑n).ts2 ∧ 16 ≤ (laneOf s ↑n).ts2Sent ∧ cabledRight s (↑n) b = false :=
  ⟨sT (fun l => {l with config := true, ts2 := 7, ts2Sent := 16}), 3, ts 0x2D 4 2, by decide +kernel⟩
theorem test_met_LanesCarryFrames_LanesTrain_6 :
    ∃ (s : State) (n : Fin 96), (laneOf s ↑n).st = LaneState.training ∧ (laneOf s ↑n).active = false :=
  ⟨sT id, 3, by decide +kernel⟩
theorem test_met_LanesCarryFrames_LanesTrain_7 :
    ∃ (s : State) (n : Fin 96), (laneOf s ↑n).st = LaneState.lost :=
  ⟨sT (fun l => {l with st := .lost, tries := 2}), 3, by decide +kernel⟩
theorem test_met_LanesCarryFrames_LanesTrain_8 :
    ∃ (s : State) (n : Fin 96), (laneOf s ↑n).active = true ∧ (laneOf s ↑n).quiet < 3 :=
  ⟨sA id, 3, by decide +kernel⟩
theorem test_met_LanesCarryFrames_LanesTrain_9 :
    ∃ (s : State) (n : Fin 96) (i : Instr), (laneOf s ↑n).active = true ∧ (bridgeOf s ↑n).newParams = [] ∧ (i = Instr.quietReceived n ∧ 3 ≤ (laneOf s ↑n).quiet ∨ i = Instr.fariumRxSilence n ∨ i = Instr.mediaClockLaneLoss n ∧ tabGet 0 (↑n / 8) s.far.clkSource = ↑n + 1) :=
  ⟨sA (fun l => {l with quiet := 3}), 3, .quietReceived 3, by decide +kernel⟩
theorem test_met_LanesCarryFrames_LanesKeepFrames_1 :
    ∃ (s : State) (n : Fin 96) (f : LinkFrame), (laneOf s ↑n).active = true ∧ (laneOf s ↑n).discard = false ∧ f.nak = false ∧ f.headerGood = true ∧ (laneOf s ↑n).waiting = [] ∧ (laneOf s ↑n).again = [] :=
  ⟨sA (fun l => {l with unacked := [sn 1 20, sn 2 30]}), 3, ⟨true, 1, false, 2, 3⟩, by decide +kernel⟩
theorem test_met_LanesCarryFrames_LanesKeepFrames_2 :
    ∃ (s : State) (n : Fin 96) (f : LinkFrame), (laneOf s ↑n).active = true ∧ (laneOf s ↑n).discard = false ∧ f.headerGood = false :=
  ⟨sA (fun l => {l with unacked := [sn 1 20]}), 3, ⟨false, 1, true, 2, 3⟩, by decide +kernel⟩
theorem test_met_LanesCarryFrames_LanesKeepFrames_3 :
    ∃ (s : State) (n : Fin 96) (c : FarCompletion), (laneOf s ↑n).active = true ∧ (laneOf s ↑n).discard = false ∧ c.lane = n ∧ (¬(c.link.headerGood = true ∧ c.link.payloadGood = true ∧ c.link.seq = (laneOf s ↑n).seqRx)) :=
  ⟨sA (fun l => {l with seqRx := 8}), 3, {fc 0x20 0 [] with link := ⟨9, true, true⟩}, by decide +kernel⟩
theorem test_met_LanesCarryFrames_LanesKeepFrames_4 :
    ∃ (s : State) (n : Fin 96), (laneOf s ↑n).active = true ∧ (laneOf s ↑n).discard = false :=
  ⟨sA (fun l => {l with unacked := [sn 1 20, sn 2 30], seqRx := 9}), 3, by decide +kernel⟩
theorem test_met_LanesCarryFrames_LanesKeepFrames_5 :
    ∃ (s : State) (n : Fin 96), (laneOf s ↑n).active = true ∧ (laneOf s ↑n).discard = false ∧ (laneOf s ↑n).unacked ≠ [] ∧ (laneOf s ↑n).replays < 4 :=
  ⟨sA (fun l => {l with unacked := [sn 1 20, sn 2 30]}), 3, by decide +kernel⟩
theorem test_met_LanesCarryFrames_LanesKeepFrames_6 :
    ∃ (s : State) (n : Fin 96), (laneOf s ↑n).active = true ∧ (laneOf s ↑n).discard = false ∧ (laneOf s ↑n).unacked ≠ [] ∧ 4 ≤ (laneOf s ↑n).replays ∧ (bridgeOf s ↑n).newParams = [] :=
  ⟨sA (fun l => {l with unacked := [sn 1 20, sn 2 30], replays := 4}), 3, by decide +kernel⟩
theorem test_met_BridgesServeClaims_BridgeRefuses_1 :
    ∃ (s : State) (f : FarFrame) (i : Instr) (op : Byte) (st : Word16), (i, op) ∈ [(Instr.fariumRead f, 16), (Instr.fariumProgram f, 17), (Instr.partialProgram f, 18), (Instr.fariumErase f, 19), (Instr.fariumSuspend f, 20), (Instr.fariumResume f, 21), (Instr.dieReset f, 23)] ∧ i.wf = true ∧ tabWf { } s.far.modules = true ∧ crossed (bridgeOf s ↑f.lane) = false ∧ nandRefusal s op f = some st :=
  ⟨sB id, {ff with claim := 6}, .fariumRead {ff with claim := 6}, 0x10, 0x20, by decide +kernel⟩
theorem test_met_BridgesServeClaims_BridgeRefuses_2 :
    ∃ (s : State) (f : FarFrame) (i : Instr) (op : Byte), (i, op) ∈ [(Instr.fariumRead f, 16), (Instr.fariumProgram f, 17), (Instr.partialProgram f, 18), (Instr.fariumErase f, 19), (Instr.fariumSuspend f, 20), (Instr.fariumResume f, 21), (Instr.dieReset f, 23)] ∧ i.wf = true ∧ tabWf { } s.far.modules = true ∧ crossed (bridgeOf s ↑f.lane) = true :=
  ⟨sB (fun m => {m with laneA := 4}), ff, .dieReset ff, 0x17, by decide +kernel⟩
theorem test_met_DiesRunOperations_1 :
    ∃ (s : State) (f : FarFrame) (i : Instr) (op : Byte) (x : Die), (i, op) ∈ [(Instr.fariumRead f, 16), (Instr.fariumProgram f, 17), (Instr.partialProgram f, 18), (Instr.fariumErase f, 19)] ∧ i.wf = true ∧ crossed (bridgeOf s ↑f.lane) = false ∧ nandRefusal s op f = none ∧ x = dieOf s (↑f.lane) f.die.toNat ∧ x.suspended = none ∧ tabWf { } s.far.modules = true ∧ tabWf { } (bridgeOf s ↑f.lane).dies = true ∧ x.running = none ∧ x.queue = [] ∧ channelHeld s (↑f.lane) f.die.toNat = false ∧ startOk s { op := op, f := f, silent := false } = true :=
  ⟨sB id, ff, .fariumRead ff, 0x10, {}, by decide +kernel⟩
theorem test_met_DiesRunOperations_2 :
    ∃ (s : State) (f : FarFrame) (i : Instr) (op : Byte) (x : Die), (i, op) ∈ [(Instr.fariumRead f, 16), (Instr.fariumProgram f, 17), (Instr.partialProgram f, 18), (Instr.fariumErase f, 19)] ∧ i.wf = true ∧ crossed (bridgeOf s ↑f.lane) = false ∧ nandRefusal s op f = none ∧ x = dieOf s (↑f.lane) f.die.toNat ∧ x.suspended = none ∧ tabWf { } s.far.modules = true ∧ tabWf { } (bridgeOf s ↑f.lane).dies = true ∧ (x.running.isSome = true ∨ channelHeld s (↑f.lane) f.die.toNat = true) :=
  ⟨sB (dW fun d => {d with running := some opE, st := 1}), ff, .fariumRead ff, 0x10, {running := some opE, st := 1}, by decide +kernel⟩
theorem test_met_DiesRunOperations_3 :
    ∃ (s : State) (f : FarFrame) (i : Instr) (op : Byte) (x : Die), (i, op) ∈ [(Instr.fariumRead f, 16), (Instr.fariumProgram f, 17), (Instr.partialProgram f, 18), (Instr.fariumErase f, 19)] ∧ i.wf = true ∧ crossed (bridgeOf s ↑f.lane) = false ∧ nandRefusal s op f = none ∧ x = dieOf s (↑f.lane) f.die.toNat ∧ x.suspended = none ∧ tabWf { } s.far.modules = true ∧ tabWf { } (bridgeOf s ↑f.lane).dies = true ∧ x.running = none ∧ x.queue = [] ∧ channelHeld s (↑f.lane) f.die.toNat = false ∧ startOk s { op := op, f := f, silent := false } = false :=
  ⟨sB id, {fPp with page := 3}, .partialProgram {fPp with page := 3}, 0x12, {}, by decide +kernel⟩
theorem test_met_DiesRunOperations_4 :
    ∃ (s : State) (f : FarFrame) (x : Die) (o : DieOp), (Instr.fariumSuspend f).wf = true ∧ crossed (bridgeOf s ↑f.lane) = false ∧ x = dieOf s (↑f.lane) f.die.toNat ∧ tabWf { } s.far.modules = true ∧ tabWf { } (bridgeOf s ↑f.lane).dies = true ∧ nandRefusal s 20 f = none ∧ x.running = some o ∧ o.op ≠ 16 ∧ x.suspended = none ∧ x.queue = [] :=
  ⟨sB (dW fun d => {d with running := some opE, st := 1}), ff, {running := some opE, st := 1}, opE, by decide +kernel⟩
theorem test_met_DiesRunOperations_5 :
    ∃ (s : State) (f : FarFrame) (x : Die) (_o : DieOp), (Instr.fariumSuspend f).wf = true ∧ crossed (bridgeOf s ↑f.lane) = false ∧ x = dieOf s (↑f.lane) f.die.toNat ∧ tabWf { } s.far.modules = true ∧ tabWf { } (bridgeOf s ↑f.lane).dies = true ∧ nandRefusal s 20 f = none ∧ x.running = none :=
  ⟨sB id, ff, {}, opE, by decide +kernel⟩
theorem test_met_DiesRunOperations_6 :
    ∃ (s : State) (f : FarFrame) (x : Die) (o : DieOp), (Instr.fariumSuspend f).wf = true ∧ crossed (bridgeOf s ↑f.lane) = false ∧ x = dieOf s (↑f.lane) f.die.toNat ∧ tabWf { } s.far.modules = true ∧ tabWf { } (bridgeOf s ↑f.lane).dies = true ∧ nandRefusal s 21 f = none ∧ x.suspended = some o ∧ x.running = none :=
  ⟨sB (dW fun d => {d with suspended := some opE, st := 2}), ff, {suspended := some opE, st := 2}, opE, by decide +kernel⟩
theorem test_met_DiesRunOperations_7 :
    ∃ (s : State) (f : FarFrame) (x : Die) (_o : DieOp), (Instr.fariumSuspend f).wf = true ∧ crossed (bridgeOf s ↑f.lane) = false ∧ x = dieOf s (↑f.lane) f.die.toNat ∧ tabWf { } s.far.modules = true ∧ tabWf { } (bridgeOf s ↑f.lane).dies = true ∧ nandRefusal s 23 f = none ∧ x.queue = [] :=
  ⟨sB (dW fun d => {d with suspended := some opE, st := 2}), ff, {suspended := some opE, st := 2}, opE, by decide +kernel⟩
theorem test_met_DiesRunOperations_8 :
    ∃ (s : State) (n : Fin 96) (d : BitVec 9) (r : DieOutcome) (o : DieOp) (x : Die), x = dieOf s (↑n) d.toNat ∧ x.running = some o ∧ o.silent = false ∧ o.op = 16 ∧ o.f.lane = n ∧ r.status = 0 ∧ frameKeys o.f ≠ [] ∧ (∀ k ∈ frameKeys o.f, (nandOf s (↑n) k).known = true ∧ (nandOf s (↑n) k).next ≤ BitVec.toNat o.f.page) :=
  ⟨wJ2, 3, 2, ⟨0, 5, 77, []⟩, opR, {running := some opR, st := 1}, by decide +kernel⟩
theorem test_met_DiesRunOperations_9 :
    ∃ (s : State) (n : Fin 96) (d : BitVec 9) (_r : DieOutcome) (o : DieOp) (x : Die), x = dieOf s (↑n) d.toNat ∧ x.running = some o ∧ x.queue = [] ∧ x.suspended = none ∧ o.silent = false ∧ o.op ≠ 16 ∧ tabWf { } s.far.modules = true ∧ tabWf { } (bridgeOf s ↑n).dies = true :=
  ⟨sB (dW fun d => {d with running := some opE, st := 1}), 3, 2, ⟨0, 5, 77, []⟩, opE, {running := some opE, st := 1}, by decide +kernel⟩
theorem test_met_BridgesServeClaims_BridgeClaims_1 :
    ∃ (s : State) (f : FarFrame), (Instr.fariumStatus f).wf = true ∧ f.payload = [] ∧ f.all = false ∧ f.die.toNat < dieCount (bridgeInfo s ↑f.lane) ∧ tabWf { } s.far.modules = true :=
  ⟨sB id, ff, by decide +kernel⟩
theorem test_met_BridgesServeClaims_BridgeClaims_2 :
    ∃ (s : State) (f : FarFrame), (Instr.getInfo f).wf = true ∧ f.payload = [] ∧ tabWf { } s.far.modules = true :=
  ⟨sB id, ff, by decide +kernel⟩
theorem test_met_BridgesServeClaims_BridgeClaims_3 :
    ∃ (s : State) (f : FarFrame), (Instr.paramPush f).wf = true ∧ underClaim (bridgeOf s ↑f.lane) f = true ∧ List.length f.payload = 32 ∧ tabWf { } s.far.modules = true ∧ (bridgeOf s ↑f.lane).newParams = [] ∧ (∀ q ∈ (bridgeOf s ↑f.lane).dies, q.2.queue = []) ∧ recordOk (pageOfBridge s ↑f.lane) f.payload = true :=
  ⟨sB id, {ff with payload := [1, 4] ++ zeros 30}, by decide +kernel⟩
theorem test_met_BridgesServeClaims_BridgeClaims_4 :
    ∃ (s : State) (f : FarFrame), (Instr.paramPush f).wf = true ∧ underClaim (bridgeOf s ↑f.lane) f = true ∧ List.length f.payload = 32 ∧ tabWf { } s.far.modules = true ∧ (bridgeOf s ↑f.lane).newParams = [] ∧ (∀ q ∈ (bridgeOf s ↑f.lane).dies, q.2.queue = []) ∧ recordOk (pageOfBridge s ↑f.lane) f.payload = false :=
  ⟨sB id, {ff with payload := [4, 4] ++ zeros 30}, by decide +kernel⟩
theorem test_met_BridgesServeClaims_BridgeClaims_5 :
    ∃ (s : State) (f : FarFrame) (i : Instr) (op : Byte), (i, op) ∈ [(Instr.fariumStatus f, 22), (Instr.getInfo f, 33), (Instr.claim f none, 48)] ∧ i.wf = true ∧ f.payload ≠ [] ∧ tabWf { } s.far.modules = true :=
  ⟨sB id, {ff with payload := zeros 16}, .getInfo {ff with payload := zeros 16}, 0x21, by decide +kernel⟩
theorem test_met_BridgesServeClaims_BridgeClaims_6 :
    ∃ (s : State) (f : FarFrame), (Instr.claim f none).wf = true ∧ f.payload = [] ∧ claimParity f.port f.claim = true ∧ BitVec.toNat (bridgeOf s ↑f.lane).curClaim < BitVec.toNat f.claim :=
  ⟨sB id, {ff with claim := 9}, by decide +kernel⟩
theorem test_met_BridgesServeClaims_BridgeClaims_7 :
    ∃ (s : State) (f : FarFrame), (Instr.claim f none).wf = true ∧ f.payload = [] ∧ (¬(f.claim = (bridgeOf s ↑f.lane).curClaim ∧ (bridgeOf s ↑f.lane).owner = portCode f.port)) ∧ (claimParity f.port f.claim = false ∨ BitVec.toNat f.claim ≤ BitVec.toNat (bridgeOf s ↑f.lane).curClaim) :=
  ⟨sB id, {ff with claim := 10}, by decide +kernel⟩
theorem test_met_BridgesServeClaims_BridgeClaims_8 :
    ∃ (s : State) (f : FarFrame) (r : FarFrame), (Instr.claim f none).wf = true ∧ f.payload = [] ∧ (Instr.claim f (some r)).wf = true ∧ r.payload = [] ∧ claimParity (1 - f.port) r.claim = true ∧ BitVec.toNat (bridgeOf s ↑f.lane).curClaim < BitVec.toNat r.claim ∧ BitVec.toNat f.claim < BitVec.toNat r.claim :=
  ⟨sB id, {ff with claim := 9}, {ff with claim := 10, port := 0}, by decide +kernel⟩
theorem test_met_BridgesServeClaims_BridgeClaims_9 :
    ∃ (s : State) (f : FarFrame) (r : FarFrame), (Instr.claim f none).wf = true ∧ f.payload = [] ∧ (Instr.claim f (some r)).wf = true ∧ r.payload = [] ∧ claimParity f.port f.claim = true ∧ BitVec.toNat (bridgeOf s ↑f.lane).curClaim < BitVec.toNat f.claim ∧ BitVec.toNat r.claim ≤ BitVec.toNat f.claim :=
  ⟨sB id, {ff with claim := 9}, {ff with claim := 8, port := 0}, by decide +kernel⟩
theorem test_met_ModulesAnswer_ModuleCompletions_1 :
    ∃ (s : State) (n : Fin 96) (k : FrameLink) (_aux : Word32), InOrder s (↑n) k ∧ s.peer.role = Role.service ∧ (laneOf s ↑n).st ≠ LaneState.fault :=
  ⟨wJ3, 3, ⟨0, true, true⟩, 9, by unfold InOrder; decide +kernel, by decide +kernel, by decide +kernel⟩
theorem test_met_ModulesAnswer_ModuleCompletions_2 :
    ∃ (s : State) (n : Fin 96) (k : FrameLink) (_aux : Word32), InOrder s (↑n) k :=
  ⟨sA id, 3, ⟨0, true, true⟩, 9, by unfold InOrder; decide +kernel⟩
theorem test_met_ModulesAnswer_ModuleCompletions_3 :
    ∃ (s : State) (c : FarCompletion) (o : FarOut), InOrder s (↑c.lane) c.link ∧ (laneOf s ↑c.lane).sinceLink < 31 ∧ (laneOf s ↑c.lane).again = [] ∧ List.find? (fun x => x.tag == c.tag.toNat && x.c.op == c.op) (laneOf s ↑c.lane).out = some o ∧ (laneOf s ↑c.lane).waiting = [] ∧ c.status = 16 ∧ occupies c.op = false :=
  ⟨sA (fun l => {l with out := [fo 0x20 0]}), fc 0x20 0x10 [], fo 0x20 0, by unfold InOrder; decide +kernel, by decide +kernel, by decide +kernel, by decide +kernel, by decide +kernel, by decide +kernel, by decide +kernel⟩
theorem test_met_ModulesAnswer_ModuleCompletions_4 :
    ∃ (s : State) (c : FarCompletion) (o : FarOut), InOrder s (↑c.lane) c.link ∧ (laneOf s ↑c.lane).sinceLink < 31 ∧ (laneOf s ↑c.lane).again = [] ∧ List.find? (fun x => x.tag == c.tag.toNat && x.c.op == c.op) (laneOf s ↑c.lane).out = some o ∧ (laneOf s ↑c.lane).waiting = [] ∧ c.status = 0 ∧ c.op = 33 ∧ numAt c.payload 0 4 = 4205903873 ∧ numAt c.payload 4 2 = 1 ∧ s.peer.role = Role.service ∧ (laneOf s ↑c.lane).st ≠ LaneState.fault :=
  ⟨wJ4, fc 0x21 0 pgB, fo 0x21 0, by unfold InOrder; decide +kernel, by decide +kernel, by decide +kernel, by decide +kernel, by decide +kernel, by decide +kernel, by decide +kernel, by decide +kernel, by decide +kernel, by decide +kernel, by decide +kernel⟩
theorem test_met_ModulesAnswer_ModuleCompletions_5 :
    ∃ (s : State) (c : FarCompletion) (o : FarOut), InOrder s (↑c.lane) c.link ∧ (laneOf s ↑c.lane).sinceLink < 31 ∧ (laneOf s ↑c.lane).again = [] ∧ List.find? (fun x => x.tag == c.tag.toNat && x.c.op == c.op) (laneOf s ↑c.lane).out = some o ∧ (laneOf s ↑c.lane).waiting = [] ∧ c.status = 0 ∧ c.op = 32 ∧ (laneOf s ↑c.lane).pushing = true ∧ (laneOf s ↑c.lane).st = LaneState.identified ∧ (laneOf s ↑c.lane).out = [o] :=
  ⟨sA (fun l => {l with st := .identified, pushing := true, out := [fo 0x20 0]}), fc 0x20 0 [], fo 0x20 0, by unfold InOrder; decide +kernel, by decide +kernel, by decide +kernel, by decide +kernel, by decide +kernel, by decide +kernel, by decide +kernel, by decide +kernel, by decide +kernel, by decide +kernel⟩
theorem test_met_ModulesAnswer_ModuleCompletions_6 :
    ∃ (s : State) (c : FarCompletion) (o : FarOut), InOrder s (↑c.lane) c.link ∧ (laneOf s ↑c.lane).sinceLink < 31 ∧ (laneOf s ↑c.lane).again = [] ∧ List.find? (fun x => x.tag == c.tag.toNat && x.c.op == c.op) (laneOf s ↑c.lane).out = some o ∧ (laneOf s ↑c.lane).waiting = [] ∧ c.status = 0 ∧ c.op = 48 ∧ (laneOf s ↑c.lane).st = LaneState.identified ∧ s.peer.detect ≠ Detect.takeover :=
  ⟨sA (fun l => {l with st := .identified, claiming := true, out := [fo 0x30 0]}), fc 0x30 0 [], fo 0x30 0, by unfold InOrder; decide +kernel, by decide +kernel, by decide +kernel, by decide +kernel, by decide +kernel, by decide +kernel, by decide +kernel, by decide +kernel, by decide +kernel⟩
theorem test_met_ModulesAnswer_ModuleCompletions_7 :
    ∃ (s : State) (c : FarCompletion) (o : FarOut), InOrder s (↑c.lane) c.link ∧ (laneOf s ↑c.lane).sinceLink < 31 ∧ (laneOf s ↑c.lane).again = [] ∧ List.find? (fun x => x.tag == c.tag.toNat && x.c.op == c.op) (laneOf s ↑c.lane).out = some o ∧ (laneOf s ↑c.lane).waiting = [] ∧ (c.status = 32 ∨ c.status = 34) ∧ s.peer.role = Role.service ∧ (laneOf s ↑c.lane).st ≠ LaneState.fault :=
  ⟨wJ5, fc 0x10 0x20 [], fo 0x10 2, by unfold InOrder; decide +kernel, by decide +kernel, by decide +kernel, by decide +kernel, by decide +kernel, by decide +kernel, by decide +kernel, by decide +kernel⟩
theorem test_met_ModulesAnswer_ModuleCompletions_8 :
    ∃ (s : State) (c : FarCompletion) (o : FarOut), InOrder s (↑c.lane) c.link ∧ (laneOf s ↑c.lane).sinceLink < 31 ∧ (laneOf s ↑c.lane).again = [] ∧ List.find? (fun x => x.tag == c.tag.toNat && x.c.op == c.op) (laneOf s ↑c.lane).out = some o ∧ (laneOf s ↑c.lane).waiting = [] ∧ c.status = 64 :=
  ⟨sA (fun l => {l with out := [fo 0x11 2]}), fc 0x11 0x40 [], fo 0x11 2, by unfold InOrder; decide +kernel, by decide +kernel, by decide +kernel, by decide +kernel, by decide +kernel, by decide +kernel⟩
theorem test_met_ModulesAnswer_CommandTimeouts_1 :
    ∃ (s : State) (n : Fin 96) (tag : BitVec 10) (st : DieStatus) (o : FarOut), List.find? (fun x => x.tag == tag.toNat) (laneOf s ↑n).out = some o ∧ tabWf { } s.far.lanes = true ∧ o.timeouts = 0 ∧ st.state = 0 ∧ BitVec.toNat st.tag = tag.toNat :=
  ⟨sA (fun l => {l with out := [fo 0x11 2]}), 3, 5, dst 0 5, fo 0x11 2, by decide +kernel⟩
theorem test_met_ModulesAnswer_CommandTimeouts_2 :
    ∃ (s : State) (n : Fin 96) (tag : BitVec 10) (st : DieStatus) (o : FarOut), List.find? (fun x => x.tag == tag.toNat) (laneOf s ↑n).out = some o ∧ tabWf { } s.far.lanes = true ∧ o.timeouts = 0 ∧ st.state = 0 ∧ BitVec.toNat st.tag ≠ tag.toNat ∧ o.reissued = false ∧ maySend s (↑n) o.c = true :=
  ⟨sA (fun l => {l with out := [fo 0x11 2]}), 3, 5, dst 0 6, fo 0x11 2, by decide +kernel⟩
theorem test_met_ModulesAnswer_CommandTimeouts_3 :
    ∃ (s : State) (n : Fin 96) (tag : BitVec 10) (_st : DieStatus) (o : FarOut), List.find? (fun x => x.tag == tag.toNat) (laneOf s ↑n).out = some o ∧ tabWf { } s.far.lanes = true ∧ 2 ≤ o.timeouts :=
  ⟨sA (fun l => {l with out := [{fo 0x11 2 with timeouts := 2, reissued := true}]}), 3, 5, dst 0 6, {fo 0x11 2 with timeouts := 2, reissued := true}, by decide +kernel⟩
theorem test_met_ModulesAnswer_CommandTimeouts_4 :
    ∃ (s : State) (n : Fin 96) (tag : BitVec 10) (st : DieStatus) (o : FarOut), List.find? (fun x => x.tag == tag.toNat) (laneOf s ↑n).out = some o ∧ tabWf { } s.far.lanes = true ∧ o.timeouts = 0 ∧ st.state = 0 ∧ BitVec.toNat st.tag ≠ tag.toNat ∧ o.reissued = false ∧ maySend s (↑n) o.c = false :=
  ⟨sA (fun l => {l with out := [fo 0x11 2], cmdCred := 0}), 3, 5, dst 0 6, fo 0x11 2, by decide +kernel⟩
theorem test_met_ModulesAnswer_CommandTimeouts_5 :
    ∃ (s : State) (n : Fin 96) (d : BitVec 9) (st : DieStatus), ((laneOf s ↑n).out.any fun o => o.polling && o.c.die == d.toNat) = true ∧ st.state ≠ 1 ∧ st.state ≠ 2 ∧ st.state ≠ 3 ∧ tabWf { } s.far.lanes = true :=
  ⟨sA (fun l => {l with out := [{fo 0x11 2 with polling := true}]}), 3, 2, dst 0 6, by decide +kernel⟩
theorem test_met_ModulesAnswer_CommandTimeouts_6 :
    ∃ (s : State), s.peer.detect = Detect.takeover ∧ s.pair.resends < 12 ∧ s.pins.flushHold = false ∧ s.peer.pair1.inReset = false :=
  ⟨wJ6, by decide +kernel⟩
theorem test_met_ModulesAnswer_CommandTimeouts_7 :
    ∃ (s : State), s.peer.detect = Detect.takeover ∧ s.pair.claimsWait = false :=
  ⟨wJ6, by decide +kernel⟩
end Sys2Proof.Tests.J

set_option Elab.async false

namespace Sys2Proof.Tests.K
set_option Elab.async false
open Sys2Proof Sys2Proof.Machine Sys2Proof.Tests

set_option maxHeartbeats 4000000
def bK (n : Nat) : Bytes := (List.range n).map fun i => BitVec.ofNat 8 (3*i+1)
def mi : ModInfo := { channels := 4, perChan := 4, planes := 2, bits := 3, blocks := 100, pagesD := 768, pagesS := 256, limit := 72, partials := 4, rated := 3000, tSlcUs := 200, u := 131072, page := zeros 0x44 ++ (List.range 8).flatMap (fun k => leBytes 2 (8 + k)) ++ zeros 100 }
def lnH : Lane := { st := .held, active := true, claim := 7, cmdCred := 20, dataCred := 200, info := mi }
def sL : State := onTil (fun x => {x with readFloor := (List.range 8).map fun n => (n, 1)}) <| onPar (fun x => {x with ordinary := {id := 1, d := 4, q := true, elig := List.range 8}, archive := {id := 2, d := 4, q := true, elig := List.range 8}, metadata := {id := 3, d := 4, q := true, elig := List.range 8}}) (onFar (fun x => {x with lanes := (List.range 8).map fun n => (n, lnH)}) (onDrc (fun x => {x with sizeGib := 1536}) sH))
def mem6 : List Member := (List.range 6).map fun n => ⟨n, 0, 0, 20⟩
def sg (no : Nat) (st : SegState) (x : StreamId) : Seg := { no := no, st := st, stream := x, slc := false, d := 4, q := true, layout := 1, members := mem6, missing := [], stripes := 5, capacity := 192, verified := [], erases := 3, writtenAt := 0, closedAt := 0, readers := 0, retired := 0, oldVer := false }
def x0 : StreamId := ⟨0, false⟩
def st0 (no : Nat) (x : StreamId) (closed : Bool) : Stripe := { stream := x, seg := no, stripe := 5, next := 16, bales := [9], closed := closed }
def r0 (d : Bool) : Run := { id := 5, nsid := 1, lba := 10, n := 2, pos := 8192, dealloc := d, drop := false, fromMirror := false, gens := [2,3], data := bK 8192 }
def c0 (st : ChunkStage) : Chunk := { id := 8, run := 5, nsid := 1, off := 0, data := bK 8192, fp := zeros 32, stage := st, window := 0, started := false, no := 9, matched := false, bale := bK 700, enc := false, sealed_ := false, serial := bK 12, waybill := zeros 128, stored := zeros 1024 }
def cE (no : Nat) (st : ChunkSt) : ChunkEnt := { no := no, refs := 1, seg := 2, stripe := 0, strip := 0, gran := 0, granules := 2, len := 5000, st := st, keyInfo := 0x1FFF, domain := 1, nsid := 1, sealed_ := false, waybill := zeros 128, stored := zeros 1024 }
def eS (lba : Nat) : StEntry :=
  { slot := lba, nsid := 1, lba := lba, gen := BitVec.ofNat 16 (lba - 8), st := .flushing, mirrored := false, data := bK 4096, dealloc := false, cmd := 3, block := 0, tenant := some 1, tag := none, nblk := 1, order := lba, idle := true, aged := false, run := some 5, old := none }
def sP (drop : Bool) : State := onMed (fun x => {x with chunks := [cE 9 .live], cached := [(1,0)]}) (onIng (fun x => {x with runs := [{r0 false with drop := drop}], chunks := [c0 .live], staging := [eS 10, eS 11, {eS 12 with run := none, st := .staged}]}) sL)
def sg2 (f : Med → Med) : State := onMed f (onMed (fun x => {x with chunks := [cE 9 .live], segNext := 50, writeSeq := 7}) sL)
def dr : DieRun := { lane := 3, die := 2, erase := true, ranMin := true, count := 1, waiting := false, held := false }
def sDr (r : DieRun) : State := onMed (fun x => {x with dieRuns := [r]}) sL
def frec (c : Fin 5) : FlushRec := { marks := 3, final := false, cls := c, events := [], settle := [], journal := [], accs := [], blocks := [], lost := [], active := false }
def mir (lba : Nat) : MirEntry := { nsid := 1, lba := lba, gen := 4, data := bK 4096, tenant := 1, tag := none, block := 0, nblk := 1 }
def sFl (f : Flush) : State := onPlf (fun x => {x with flush := some f}) (onPins (fun x => {x with flushing := true}) (onIng (fun x => {x with mirror := [mir 3], staging := [{eS 12 with st := .staged, run := none}]}) sL))
def img : Bytes := (List.range 262144).map fun i => BitVec.ofNat 8 (i / 7 + 13 * i)
def g4 : Seg := sg 2 .closed x0
def srcs (k : Nat) (l : List Nat) : List (Nat × Option Bytes) := (List.range 6).map fun p => (p, if p ∈ l then none else some (stripAt g4 k img p))
def ch : ChunkEnt := { cE 9 .live with stripe := 1, strip := 0, gran := 126, granules := 4, stored := zeros 2048, len := 1500 }
def jb (w : Option Word16) : ReadJob := { id := 30, cmd := 7, chunk := 9, found := [], waybill := [], bale := [], rebuilt := false, wanted := w, sealOk := false, seg := 2, parts := [(0, 0, 0, 4096)] }
def sJ (j : ReadJob) : State := onBal (fun x => {x with readJobs := [j]}) (onMed (fun x => {x with chunks := [ch], segs := [g4]}) (onHqe (fun x => {x with cmds := [cmdW 7 kI 0x80 .reading], nextCmd := 20}) sL))
def balR : Bytes := encodeBale 0 (bK 1500)
def wbG : Bytes := zeros 8 ++ leBytes 4 balR.length ++ zeros 0x20 ++ leBytes 4 (crc32c (bK 1500)) ++ zeros 80
def jobR (k : JobKind) (p : Nat) : Job := ⟨4, k, p, false, true, 0, 0, {}, [2], 0xFFFF, 0, 0, 0, 0, 0⟩
def mis (n : Nat) (l : List Nat) : Seg := { sg n .closed x0 with missing := l }
def sJb (j : Job) (l : List Seg) : State := onPar (fun x => {x with jobs := [j], nextJob := 5}) (onMed (fun x => {x with segs := l, segNext := 50, chunks := [{cE 9 .live with seg := 2}]}) sL)
def noRoom (s : State) : State := onFar (fun x => {x with lanes := x.lanes.map fun p => (p.1, {p.2 with info := {p.2.info with blocks := 0}})}) s
def pf : PatrolFinding := { seg := 2, stripe := 0, failed := [], rebuilt := [], parityAgrees := true, badMembers := [], corr := [3] }
def sPt : State := onMed (fun x => {x with segs := [g4], chunks := [cE 9 .live]}) sL
def sbk (f fl : Nat) : Bytes := let b := leBytes 4 0x71A55B01 ++ leBytes 2 f ++ leBytes 2 fl ++ bK 16 ++ zeros (512 - 28); withCrc b
def imgB : Bytes := img.take (126*512) ++ padTo 2048 balR ++ img.drop (126*512+2048)
def srcC : List (Nat × Option Bytes) := (List.range 6).map fun p => let x := stripAt g4 1 imgB p; (p, some (if p = posD 6 1 0 true then x.take (126*512) ++ [7] ++ x.drop (126*512+1) else x))
def sJk (j : ReadJob) : State := onMed (fun x => {x with chunks := [{ch with keyInfo := 0x1002}]}) (sJ j)
def rr : Bytes := withCrc (leBytes 4 0x71A52007 ++ zeros 4 ++ leBytes 8 9 ++ zeros 16 ++ leBytes 8 70 ++ leBytes 2 4 ++ zeros 82)
def rec_ (n : Nat) : Bytes := withCrc (leBytes 8 n ++ zeros 52)
def wK1 : State := onMed (fun x => {x with segs := [g4, sg 4 .open_ x0, sg 5 .free x0]}) (onFar (fun x => {x with lanes := x.lanes.map fun p => if p.1 = 2 then (2, {p.2 with st := .lost, active := false}) else p}) sL)
def wK2 : State := onPeer (fun x => {x with role := .active}) (sJb {jobR .rebuild 1 with unacked := 2} [mis 2 [0,1]])
def wK3 : State := onPeer (fun x => {x with role := .active, linkUp := true}) (sJb (jobR .rebuild 1) [])
def wK4 : State := onPar (fun x => {x with old := true}) sL
def wK5 : State := onPar (fun x => {x with waiting := true}) sL
def wK6 : State := onMed (fun x => {x with chunks := []}) sPt
def wK7 : State := onPar (fun x => {x with maxMbps := 0}) sPt
def wK8 : State := onPar (fun x => {x with maxMbps := 50}) sL
def wK9 : State := onTil (fun x => {x with writing := true, rootOut := true}) sL
def wK10 : State := onTil (fun x => {x with writing := true, rooted := true, ckptSeq := 5}) sL
def wK11 : State := onPar (fun x => {x with old := true, jobs := [jobR .buildBeside 2]}) (onTil (fun x => {x with writing := true, rooted := true, ckptSeq := 5}) (onMed (fun x => {x with segs := [{g4 with oldVer := true}, {sg 4 .closed x0 with layout := 9}]}) sL))
def wK12 : State := onTil (fun x => {x with writing := true}) sL
theorem test_met_ParityJobs_DegradedReads_5 :
    ∃ (s : State) (id : ℕ) (src : List (ℕ × Option Bytes)) (w : Bytes) (j : ReadJob) (e : ChunkEnt) (v : Word16) (g : Seg) (l : List (Bytes × Bytes)), (Instr.baleRebuildDone id { sources := src, waybill := w }).wf = true ∧ jobOf s id = some j ∧ chunkOf s j.chunk = some e ∧ j.wanted = some v ∧ j.rebuilt = false ∧ segOf s j.seg = some g ∧ l = rebuildAttempts g e src w ∧ newerFormat w = false ∧ keysLoaded s e = true ∧ (allOut s EngClass.xts = false ∨ e.sealed_ = false ∧ e.keyInfo = unencrypted) ∧ passing s e l = none :=
  ⟨sJ (jb (some 0x3002)), 30, srcs 1 [0,1,2,3,4,5], wbG, jb (some 0x3002), ch, 0x3002, g4, rebuildAttempts g4 ch (srcs 1 [0,1,2,3,4,5]) wbG, by decide +kernel⟩
theorem test_met_ParityJobs_JobsRun_1 :
    ∃ (s : State) (n : Fin 96), (laneOf s ↑n).st = LaneState.lost ∧ (laneOf s ↑n).longLost = false :=
  ⟨wK1, 2, by decide +kernel⟩
theorem test_met_ParityJobs_JobsRun_2 :
    ∃ (s : State) (j : Job), asleep s = false ∧ s.peer.pair3.inReset = false ∧ s.peer.role ≠ Role.service ∧ (s.glb.service = Service.normal ∨ s.glb.service = Service.recovery) ∧ nextTask s = some j ∧ List.find? (fun x => x.id == j.id) s.par.jobs = some j ∧ s.peer.role = Role.active ∧ 2 ≤ j.unacked :=
  ⟨wK2, {jobR .rebuild 1 with unacked := 2}, by decide +kernel⟩
theorem test_met_ParityJobs_JobsRun_3 :
    ∃ (s : State) (j : Job) (g : Seg), asleep s = false ∧ s.peer.pair3.inReset = false ∧ s.peer.role ≠ Role.service ∧ (s.glb.service = Service.normal ∨ s.glb.service = Service.recovery) ∧ nextTask s = some j ∧ List.find? (fun x => x.id == j.id) s.par.jobs = some j ∧ ckptRoom s j 1 = true ∧ (j.kind = JobKind.rebuild ∧ j.phase = 1 ∧ firstInPass (List.filter passOne s.med.segs) = some g ∧ noRoomFor s g = false ∨ j.kind = JobKind.reshape ∧ passOneWork s = false ∧ (s.med.level = 0 ∨ reclaimWork s = false) ∧ lowestSeg (List.filter (reshapes j) s.med.segs) = some g) ∧ segOf s g.no = some g :=
  ⟨sJb (jobR .rebuild 1) [mis 2 [0,1]], jobR .rebuild 1, mis 2 [0,1], by decide +kernel⟩
theorem test_met_ParityJobs_JobsRun_4 :
    ∃ (s : State) (j : Job), asleep s = false ∧ s.peer.pair3.inReset = false ∧ s.peer.role ≠ Role.service ∧ (s.glb.service = Service.normal ∨ s.glb.service = Service.recovery) ∧ nextTask s = some j ∧ List.find? (fun x => x.id == j.id) s.par.jobs = some j ∧ ckptRoom s j 2 = true ∧ j.kind = JobKind.rebuild ∧ j.phase = 1 ∧ passOneWork s = false ∧ firstInPass (List.filter passOne s.med.segs) = none :=
  ⟨sJb (jobR .rebuild 1) [mis 2 [0]], jobR .rebuild 1, by decide +kernel⟩
theorem test_met_ParityJobs_JobsRun_5 :
    ∃ (s : State) (j : Job) (g : Seg), asleep s = false ∧ s.peer.pair3.inReset = false ∧ s.peer.role ≠ Role.service ∧ (s.glb.service = Service.normal ∨ s.glb.service = Service.recovery) ∧ nextTask s = some j ∧ List.find? (fun x => x.id == j.id) s.par.jobs = some j ∧ ckptRoom s j 1 = true ∧ j.kind = JobKind.rebuild ∧ (j.phase = 1 ∧ firstInPass (List.filter passOne s.med.segs) = some g ∨ j.phase ≠ 1 ∧ firstInPass (List.filter (passTwo s) s.med.segs) = some g) ∧ noRoomFor s g = true :=
  ⟨noRoom (sJb (jobR .rebuild 1) [mis 2 [0,1]]), jobR .rebuild 1, mis 2 [0,1], by decide +kernel⟩
theorem test_met_ParityJobs_JobsRun_6 :
    ∃ (s : State) (j : Job) (g : Seg), asleep s = false ∧ s.peer.pair3.inReset = false ∧ s.peer.role ≠ Role.service ∧ (s.glb.service = Service.normal ∨ s.glb.service = Service.recovery) ∧ nextTask s = some j ∧ List.find? (fun x => x.id == j.id) s.par.jobs = some j ∧ ckptRoom s j 1 = true ∧ j.kind = JobKind.rebuild ∧ j.phase ≠ 1 ∧ firstInPass (List.filter (passTwo s) s.med.segs) = some g ∧ noRoomFor s g = false :=
  ⟨sJb (jobR .rebuild 2) [mis 2 [1]], jobR .rebuild 2, mis 2 [1], by decide +kernel⟩
theorem test_met_ParityJobs_JobsRun_7 :
    ∃ (s : State) (j : Job), asleep s = false ∧ s.peer.pair3.inReset = false ∧ s.peer.role ≠ Role.service ∧ (s.glb.service = Service.normal ∨ s.glb.service = Service.recovery) ∧ nextTask s = some j ∧ List.find? (fun x => x.id == j.id) s.par.jobs = some j ∧ ckptRoom s j 1 = true ∧ (j.kind = JobKind.rebuild ∧ j.phase ≠ 1 ∧ firstInPass (List.filter (passTwo s) s.med.segs) = none ∧ stillMoving s = false ∨ j.kind = JobKind.reshape ∧ passOneWork s = false ∧ (s.med.level = 0 ∨ reclaimWork s = false) ∧ lowestSeg (List.filter (reshapes j) s.med.segs) = none) :=
  ⟨sJb (jobR .rebuild 2) [mis 2 [0]], jobR .rebuild 2, by decide +kernel⟩
theorem test_met_ParityJobs_JobsRun_8 :
    ∃ (s : State) (j : Job) (g : Seg), asleep s = false ∧ s.peer.pair3.inReset = false ∧ s.peer.role ≠ Role.service ∧ (s.glb.service = Service.normal ∨ s.glb.service = Service.recovery) ∧ nextTask s = some j ∧ List.find? (fun x => x.id == j.id) s.par.jobs = some j ∧ ckptRoom s j 1 = true ∧ j.kind = JobKind.buildBeside ∧ j.phase ≠ 2 ∧ lowestSeg (List.filter (fun g => g.oldVer && !(besideBales s g).isEmpty) s.med.segs) = some g :=
  ⟨sJb (jobR .buildBeside 1) [{mis 2 [] with oldVer := true}], jobR .buildBeside 1, {mis 2 [] with oldVer := true}, by decide +kernel⟩
theorem test_met_ParityJobs_JobsRun_9 :
    ∃ (s : State), s.peer.pair3.inReset = false ∧ asleep s = false ∧ (List.map (fun x => x.id) s.par.jobs).Nodup ∧ (∀ a ∈ s.par.jobs, ∀ b ∈ s.par.jobs, sameJob (ckptOf s a) (ckptOf s b) = true → a = b) :=
  ⟨sJb (jobR .rebuild 1) [], by decide +kernel⟩
theorem test_met_ParityJobs_JobsRun_10 :
    ∃ (s : State), s.par.old = true ∧ (s.par.jobs.any fun j => j.kind == JobKind.buildBeside || j.kind == JobKind.reshape) = false ∧ s.peer.role ≠ Role.service ∧ 105 * oldGranules s ≤ 100 * freeGranules s :=
  ⟨wK4, by decide +kernel⟩
theorem test_met_ParityJobs_JobsRun_11 :
    ∃ (s : State), s.par.old = true ∧ (s.par.jobs.any fun j => j.kind == JobKind.buildBeside || j.kind == JobKind.reshape) = false ∧ s.peer.role ≠ Role.service ∧ 100 * freeGranules s < 105 * oldGranules s :=
  ⟨noRoom (onMed (fun x => {x with chunks := [{cE 9 .live with seg := 2}], segs := [{mis 2 [] with oldVer := true}]}) (onPar (fun x => {x with old := true}) sL)), by decide +kernel⟩
theorem test_met_ParityJobs_JobsRun_12 :
    ∃ (s : State), s.par.waiting = true :=
  ⟨wK5, by decide +kernel⟩
theorem test_met_ParityJobs_PatrolActs_1 :
    ∃ (s : State) (f : PatrolFinding) (g : Seg), segOf s f.seg = some g ∧ g.st = SegState.closed ∧ g.missing = [] ∧ f.stripe < g.stripes ∧ asleep s = false ∧ f.failed = [] ∧ f.badMembers.length < 2 ∧ halfLimit s g f.corr = false ∧ f.parityAgrees = true :=
  ⟨sPt, pf, g4, by decide +kernel⟩
theorem test_met_ParityJobs_PatrolActs_2 :
    ∃ (s : State) (f : PatrolFinding) (g : Seg), segOf s f.seg = some g ∧ g.st = SegState.closed ∧ g.missing = [] ∧ f.stripe < g.stripes ∧ asleep s = false ∧ f.failed = [] ∧ f.badMembers.length < 2 ∧ halfLimit s g f.corr = false ∧ f.parityAgrees = false :=
  ⟨sPt, {pf with parityAgrees := false}, g4, by decide +kernel⟩
theorem test_met_ParityJobs_PatrolActs_3 :
    ∃ (s : State) (f : PatrolFinding) (g : Seg) (no : ℕ), segOf s f.seg = some g ∧ g.st = SegState.closed ∧ g.missing = [] ∧ f.stripe < g.stripes ∧ asleep s = false ∧ f.failed = [no] ∧ no ∈ List.map (fun x => x.no) (stripeBales s f.seg f.stripe) ∧ f.badMembers.length < 2 ∧ halfLimit s g f.corr = false :=
  ⟨sPt, {pf with failed := [9], rebuilt := [9]}, g4, 9, by decide +kernel⟩
theorem test_met_ParityJobs_PatrolActs_4 :
    ∃ (s : State) (f : PatrolFinding) (g : Seg), segOf s f.seg = some g ∧ g.st = SegState.closed ∧ g.missing = [] ∧ f.stripe < g.stripes ∧ asleep s = false ∧ (2 ≤ f.badMembers.length ∨ halfLimit s g f.corr = true) :=
  ⟨sPt, {pf with badMembers := [1,2]}, g4, by decide +kernel⟩
theorem test_met_ParityJobs_PatrolActs_5 :
    ∃ (s : State), patrolBehind s = true :=
  ⟨wK7, by decide +kernel⟩
theorem test_met_ParityJobs_PatrolActs_6 :
    ∃ (s : State), patrolBehind s = false :=
  ⟨wK8, by decide +kernel⟩
theorem test_met_CheckpointsAndRecords_Checkpoints_2 :
    ∃ (s : State) (n : Fin 96) (b : Bytes) (k : Fin 2) (m : ℕ) (r : Bytes), (Instr.superblockRead n b { block := k, next := m, root := r }).wf = true ∧ (laneOf s ↑n).st = LaneState.held ∧ tabWf 0 s.til.readFloor = true ∧ numAt b 0 4 = 1906662145 ∧ 3 < numAt b 4 2 :=
  ⟨sL, 3, sbk 4 2, 0, 5, rr, by decide +kernel⟩
theorem test_met_CheckpointsAndRecords_Checkpoints_3 :
    ∃ (s : State) (n : Fin 96) (b : Bytes) (k : Fin 2) (m : ℕ) (r : Bytes), (Instr.superblockRead n b { block := k, next := m, root := r }).wf = true ∧ (laneOf s ↑n).st = LaneState.held ∧ tabWf 0 s.til.readFloor = true ∧ numAt b 0 4 ≠ 1906662145 :=
  ⟨sL, 3, zeros 512, 0, 5, rr, by decide +kernel⟩
theorem test_met_CheckpointsAndRecords_Checkpoints_4 :
    ∃ (s : State) (l : List ℕ), s.til.rootOut = true ∧ List.filter (fun n => decide (n ∈ l)) (heldLanes s) ≠ [] ∧ (heldLanes s).length ≤ 2 * (List.filter (fun n => decide (n ∈ l)) (heldLanes s)).length :=
  ⟨wK9, [0,1,2,3,90], by decide +kernel⟩
theorem test_met_CheckpointsAndRecords_Checkpoints_5 :
    ∃ (s : State), s.til.writing = false ∧ inService s = true ∧ (heldLanes s).isEmpty = false ∧ s.pins.flushing = false :=
  ⟨sL, by decide +kernel⟩
theorem test_met_CheckpointsAndRecords_Checkpoints_6 :
    ∃ (s : State), s.til.writing = true ∧ s.til.rooted = true ∧ NoBatches s :=
  ⟨wK10, by unfold NoBatches; decide +kernel⟩
theorem test_met_CheckpointsAndRecords_Checkpoints_7 :
    ∃ (s : State), (s.til.writing && s.til.rooted) = false ∧ NoBatches s :=
  ⟨wK12, by unfold NoBatches; decide +kernel⟩
end Sys2Proof.Tests.K

set_option Elab.async false

namespace Sys2Proof.Tests.K2
set_option Elab.async false
open Sys2Proof Sys2Proof.Machine Sys2Proof.Tests

set_option maxHeartbeats 4000000
def bK (n : Nat) : Bytes := (List.range n).map fun i => BitVec.ofNat 8 (3*i+1)
def mi : ModInfo := { channels := 4, perChan := 4, planes := 2, bits := 3, blocks := 100, pagesD := 768, pagesS := 256, limit := 72, partials := 4, rated := 3000, tSlcUs := 200, u := 131072, page := zeros 0x44 ++ (List.range 8).flatMap (fun k => leBytes 2 (8 + k)) ++ zeros 100 }
def lnH : Lane := { st := .held, active := true, claim := 7, cmdCred := 20, dataCred := 200, info := mi }
def sL : State := onTil (fun x => {x with readFloor := (List.range 8).map fun n => (n, 1)}) <| onPar (fun x => {x with ordinary := {id := 1, d := 4, q := true, elig := List.range 8}, archive := {id := 2, d := 4, q := true, elig := List.range 8}, metadata := {id := 3, d := 4, q := true, elig := List.range 8}}) (onFar (fun x => {x with lanes := (List.range 8).map fun n => (n, lnH)}) (onDrc (fun x => {x with sizeGib := 1536}) sH))
def mem6 : List Member := (List.range 6).map fun n => ⟨n, 0, 0, 20⟩
def sg (no : Nat) (st : SegState) (x : StreamId) : Seg := { no := no, st := st, stream := x, slc := false, d := 4, q := true, layout := 1, members := mem6, missing := [], stripes := 5, capacity := 192, verified := [], erases := 3, writtenAt := 0, closedAt := 0, readers := 0, retired := 0, oldVer := false }
def x0 : StreamId := ⟨0, false⟩
def st0 (no : Nat) (x : StreamId) (closed : Bool) : Stripe := { stream := x, seg := no, stripe := 5, next := 16, bales := [9], closed := closed }
def r0 (d : Bool) : Run := { id := 5, nsid := 1, lba := 10, n := 2, pos := 8192, dealloc := d, drop := false, fromMirror := false, gens := [2,3], data := bK 8192 }
def c0 (st : ChunkStage) : Chunk := { id := 8, run := 5, nsid := 1, off := 0, data := bK 8192, fp := zeros 32, stage := st, window := 0, started := false, no := 9, matched := false, bale := bK 700, enc := false, sealed_ := false, serial := bK 12, waybill := zeros 128, stored := zeros 1024 }
def cE (no : Nat) (st : ChunkSt) : ChunkEnt := { no := no, refs := 1, seg := 2, stripe := 0, strip := 0, gran := 0, granules := 2, len := 5000, st := st, keyInfo := 0x1FFF, domain := 1, nsid := 1, sealed_ := false, waybill := zeros 128, stored := zeros 1024 }
def eS (lba : Nat) : StEntry :=
  { slot := lba, nsid := 1, lba := lba, gen := BitVec.ofNat 16 (lba - 8), st := .flushing, mirrored := false, data := bK 4096, dealloc := false, cmd := 3, block := 0, tenant := some 1, tag := none, nblk := 1, order := lba, idle := true, aged := false, run := some 5, old := none }
def sP (drop : Bool) : State := onMed (fun x => {x with chunks := [cE 9 .live], cached := [(1,0)]}) (onIng (fun x => {x with runs := [{r0 false with drop := drop}], chunks := [c0 .live], staging := [eS 10, eS 11, {eS 12 with run := none, st := .staged}]}) sL)
def sg2 (f : Med → Med) : State := onMed f (onMed (fun x => {x with chunks := [cE 9 .live], segNext := 50, writeSeq := 7}) sL)
def dr : DieRun := { lane := 3, die := 2, erase := true, ranMin := true, count := 1, waiting := false, held := false }
def sDr (r : DieRun) : State := onMed (fun x => {x with dieRuns := [r]}) sL
def frec (c : Fin 5) : FlushRec := { marks := 3, final := false, cls := c, events := [], settle := [], journal := [], accs := [], blocks := [], lost := [], active := false }
def mir (lba : Nat) : MirEntry := { nsid := 1, lba := lba, gen := 4, data := bK 4096, tenant := 1, tag := none, block := 0, nblk := 1 }
def sFl (f : Flush) : State := onPlf (fun x => {x with flush := some f}) (onPins (fun x => {x with flushing := true}) (onIng (fun x => {x with mirror := [mir 3], staging := [{eS 12 with st := .staged, run := none}]}) sL))
def img : Bytes := (List.range 262144).map fun i => BitVec.ofNat 8 (i / 7 + 13 * i)
def g4 : Seg := sg 2 .closed x0
def srcs (k : Nat) (l : List Nat) : List (Nat × Option Bytes) := (List.range 6).map fun p => (p, if p ∈ l then none else some (stripAt g4 k img p))
def ch : ChunkEnt := { cE 9 .live with stripe := 1, strip := 0, gran := 126, granules := 4, stored := zeros 2048, len := 1500 }
def jb (w : Option Word16) : ReadJob := { id := 30, cmd := 7, chunk := 9, found := [], waybill := [], bale := [], rebuilt := false, wanted := w, sealOk := false, seg := 2, parts := [(0, 0, 0, 4096)] }
def sJ (j : ReadJob) : State := onBal (fun x => {x with readJobs := [j]}) (onMed (fun x => {x with chunks := [ch], segs := [g4]}) (onHqe (fun x => {x with cmds := [cmdW 7 kI 0x80 .reading], nextCmd := 20}) sL))
def balR : Bytes := encodeBale 0 (bK 1500)
def wbG : Bytes := zeros 8 ++ leBytes 4 balR.length ++ zeros 0x20 ++ leBytes 4 (crc32c (bK 1500)) ++ zeros 80
def jobR (k : JobKind) (p : Nat) : Job := ⟨4, k, p, false, true, 0, 0, {}, [2], 0xFFFF, 0, 0, 0, 0, 0⟩
def mis (n : Nat) (l : List Nat) : Seg := { sg n .closed x0 with missing := l }
def sJb (j : Job) (l : List Seg) : State := onPar (fun x => {x with jobs := [j], nextJob := 5}) (onMed (fun x => {x with segs := l, segNext := 50, chunks := [{cE 9 .live with seg := 2}]}) sL)
def noRoom (s : State) : State := onFar (fun x => {x with lanes := x.lanes.map fun p => (p.1, {p.2 with info := {p.2.info with blocks := 0}})}) s
def pf : PatrolFinding := { seg := 2, stripe := 0, failed := [], rebuilt := [], parityAgrees := true, badMembers := [], corr := [3] }
def sPt : State := onMed (fun x => {x with segs := [g4], chunks := [cE 9 .live]}) sL
def sbk (f fl : Nat) : Bytes := let b := leBytes 4 0x71A55B01 ++ leBytes 2 f ++ leBytes 2 fl ++ bK 16 ++ zeros (512 - 28); withCrc b
def imgB : Bytes := img.take (126*512) ++ padTo 2048 balR ++ img.drop (126*512+2048)
def srcC : List (Nat × Option Bytes) := (List.range 6).map fun p => let x := stripAt g4 1 imgB p; (p, some (if p = posD 6 1 0 true then x.take (126*512) ++ [7] ++ x.drop (126*512+1) else x))
def sJk (j : ReadJob) : State := onMed (fun x => {x with chunks := [{ch with keyInfo := 0x1002}]}) (sJ j)
def rr : Bytes := withCrc (leBytes 4 0x71A52007 ++ zeros 4 ++ leBytes 8 9 ++ zeros 16 ++ leBytes 8 70 ++ leBytes 2 4 ++ zeros 82)
def rec_ (n : Nat) : Bytes := withCrc (leBytes 8 n ++ zeros 52)
def sec (n : Nat) : Bytes := sectorHeader sL.glb.unitSerial n
def cells (a : Nat) (b : Bytes) : List Host.Cell := (List.range b.length).filterMap fun i => if b.getD i 0 = 0xFF then none else some (a + i, b.getD i 0)
def norR : List Host.Cell := cells (sectorAddr 0) (sec 1) ++ cells (slotAddr 0 0) (rec_ 1) ++ cells (slotAddr 0 1) (rec_ 2)
def sNr : State := onPlf (fun x => {x with records := []}) (onNor norR sL)
def oBody : Bytes := zeros 6 ++ leBytes 2 2 ++ zeros 8 ++ leBytes 8 2 ++ zeros 56 ++ bK 48
def oRec : ObjRec := ⟨77, 0, 0, 0, zeros 12, oBody, 0, 6, 5, 0, 4, false⟩
def kSt : Stripe := ⟨⟨5, false⟩, 6, 5, 4, [], true⟩
def sObj : State := onTil (fun x => {x with archived := [rec_ 1, rec_ 2, rec_ 3], objOut := some 77}) (onMed (fun x => {x with stripes := [kSt], objs := [oRec], segs := [sg 6 .open_ ⟨5, false⟩]}) sNr)
def wK21 : State := onTil (fun x => {x with granule := [rec_ 1, rec_ 2]}) sNr
def wK22 : State := onTil (fun x => {x with archived := [rec_ 1, rec_ 2]}) sNr
theorem test_met_CheckpointsAndRecords_RecordsAreArchived_1 :
    ∃ (s : State), s.til.granule = [] ∧ waitingSlots s ≠ [] ∧ (heldLanes s).isEmpty = false ∧ (s.glb.service = Service.normal ∨ s.glb.service = Service.recovery) ∧ logReplayed s = true ∧ s.peer.pair3.inReset = false :=
  ⟨sNr, by decide +kernel⟩
theorem test_met_CheckpointsAndRecords_RecordsAreArchived_2 :
    ∃ (s : State), s.til.granule ≠ [] ∧ Memory.wf norDefault s.nor = true ∧ s.nvc.halted = false :=
  ⟨wK21, by decide +kernel⟩
theorem test_met_CheckpointsAndRecords_RecordsAreArchived_3 :
    ∃ (s : State), s.til.granule ≠ [] :=
  ⟨wK21, by decide +kernel⟩
theorem test_met_CheckpointsAndRecords_RecordsAreArchived_4 :
    ∃ (s : State) (seg : ℕ) (stripe : ℕ) (o : ℕ) (k : Stripe) (r : ObjRec), List.find? (fun y => y.seg == seg && y.stripe == stripe && y.closed) s.med.stripes = some k ∧ NoBatches s ∧ Settled s ∧ s.til.objOut = some o ∧ recOf s o = some r ∧ r.seg = seg ∧ r.stripe = stripe ∧ s.nvc.halted = false ∧ Memory.wf norDefault s.nor = true :=
  ⟨sObj, 6, 5, 77, kSt, oRec, by decide +kernel, by unfold NoBatches; decide +kernel, by unfold Settled; decide +kernel, by decide +kernel, by decide +kernel, by decide +kernel, by decide +kernel, by decide +kernel, by decide +kernel⟩
theorem test_met_CheckpointsAndRecords_RecordsAreArchived_5 :
    ∃ (s : State), s.til.archived ≠ [] ∧ s.til.objOut = none ∧ (heldLanes s).isEmpty = false ∧ s.peer.pair3.inReset = false ∧ inService s = true ∧ (∀ o ∈ s.med.objs, o.obj < s.med.nextObj) :=
  ⟨wK22, by decide +kernel⟩
end Sys2Proof.Tests.K2

set_option Elab.async false

namespace Sys2Proof.Tests.L
set_option Elab.async false
open Sys2Proof Sys2Proof.Machine Sys2Proof.Tests

set_option maxHeartbeats 4000000
def bK (n : Nat) : Bytes := (List.range n).map fun i => BitVec.ofNat 8 (3*i+1)
def nN1 : Ns := { id := 1, tenant := 1, size := 1000, mode := 0, owner := false }
def ssn (r : ReplRole) (st : ReplSt) : Sess := { nsid := 1, role := r, st := st, session := 5, pairing := bK 48, epoch := 3, baseSeq := 0, sendSeq := 0, nextBatch := 4, nextLba := 10, bytes := 0, batches := [], walked := false, ended := false }
def bat : Batch := { no := 4, first := 10, next := 20, chunks := [⟨bK 32, 1500, bK 12⟩], blocks := [⟨10, 0, 0, 0, false⟩], held := [], asked := [0], retried := [] }
def rc : RcQp := { qpn := 70, st := .ready, pd := 1, tenant := 1, remote := 1, remoteQp := 80, epoch := 3, purpose := 2, session := 5, addr := 9, port := 0, psn := 0, sendPsn := 0, mtu := 4096, receives := [], got := 0, unacked := 0, rnr := 0, retries := 0, rate := 400000000000, avg := 0, prevAvg := 0, updated := 0 }
def sZ : State := onDrc (fun x => {x with sizeGib := 1536}) (onRdm (fun x => {x with links := [0,1], qps := [rc]}) sH)
def sS (x : Sess) : State := onSnp (fun y => {y with sessions := [x]}) sZ
def snp1 (q : Nat) (st : SnapSt) : Snap := { nsid := 1, seq := q, st := st, group := none, cgSeq := 0, seconds := 0, cycles := 0, label := bK 32, exposed := none, replica := false, base := false, srcSeq := 0, srcNsid := 0, srcArray := [], cmd := none, tree := [], pages := [] }
def sSn (l : List Snap) : State := onSnp (fun y => {y with snaps := l, nextSeq := [(1, 5)]}) sZ
def hdr (b : Nat) : ReplHdr := { version := 2, epoch := 3, session := 5, snapSeq := 9, batch := BitVec.ofNat 32 b, count := 1, last := true, crcGood := true, srcAddr := 9 }
def eS (lba : Nat) (st : StState) : StEntry :=
  { slot := lba, nsid := 1, lba := lba, gen := 2, st := st, mirrored := false, data := bK 4096, dealloc := false, cmd := 3, block := 0, tenant := some 1, tag := none, nblk := 1, order := lba, idle := true, aged := false, run := none, old := none }
def cSn (op : Byte) : HostCmd := { cA op with nsid := 1 }
def balR : Bytes := encodeBale 0 (bK 1500)
def wbG : Bytes := withCrc (leBytes 4 0 ++ [0, 0] ++ leBytes 2 3 ++ leBytes 4 balR.length ++ leBytes 4 1500 ++ zeros 16 ++ bK 12 ++ leBytes 4 (crc32c (bK 1500)) ++ bK 32 ++ zeros 44)
def itG : BaleItem := ⟨0, wbG, padTo 1536 balR⟩
def itB : BaleItem := ⟨0, zeros 128, padTo 1536 balR⟩
def prB : Bytes := leBytes 8 6 ++ bK 34 ++ zeros 22
def carv : Caravan := { id := 3, st := .armed, owner := 0, trigger := 70, gate := [], elements := [{ kind := 6, gated := false, fence := false, gateBit := 0, first := 0, last := 0, target := 0, len := 64, addr := 0, addr2 := 0, template := zeros 0x14 ++ beBytes 4 4 ++ zeros 40, done := false, ran := false, started := false }] }
def wL1 : State := onSnp (fun x => {x with groups := [(3, [1])]}) sZ
def wL2 : State := onMed (fun x => {x with pages := [⟨1, 0, 9, 0⟩]}) (sSn [{snp1 4 .deleting with pages := [(0, 9)]}])
def wL3 : State := onSnp (fun x => {x with holds := [(7, [1])]}) (onIng (fun x => {x with staging := [eS 3 .staged, eS 4 .filling]}) (onHqe (fun x => {x with cmds := [cmdW 7 kA 0x31 (.snap (bK 32) none)]}) sZ))
def wL4 : State := onSnp (fun x => {x with holds := [(7, [1])]}) (onIng (fun x => {x with staging := [eS 3 .staged]}) (onHqe (fun x => {x with cmds := [cmdW 7 kA 0x31 (.snap (bK 32) (some 3))]}) sZ))
def wL5 : State := onSnp (fun x => {x with holds := [(7, [1])], snaps := [snp1 4 .pending]}) (onHqe (fun x => {x with cmds := [cmdW 7 kA 0x31 (.snap (bK 32) none)]}) sZ)
def wL6 : State := onHqe (fun x => {x with cmds := [cmdW 7 kA 0x31 (.snap (bK 32) none)]}) (sSn [{snp1 5 .pending with cmd := some 7}])
def wL7 : State := onSnp (fun y => {y with sessions := [ssn .source .idle]}) (sSn [snp1 4 .complete])
def wL8 : State := onSnp (fun y => {y with sessions := [ssn .target .idle]}) (sSn [{snp1 4 .complete with base := true}])
def wL9 : State := onRdm (fun x => {x with caravans := [carv]}) (sS {ssn .source .sending with batches := [bat]})
def wL10 : State := onSnp (fun y => {y with snaps := [snp1 9 .complete, {snp1 4 .complete with base := true}]}) (sS {ssn .source .sending with ended := true, sendSeq := 9})
def wL11 : State := onClk (fun x => {x with pstate := 3}) (sS {ssn .target .suspended with batches := [bat]})
theorem test_met_SnapshotsAreCut_SnapshotCommands_1 :
    ∃ (s : State) (c : HostCmd) (q : Qp) (l : List ℕ), Fetched s c q ∧ s.peer.role ≠ Role.service ∧ (Instr.cgSet c).wf = true ∧ (l = if bitOf c.d7 31 = true then [] else nsidList c) ∧ (s.snp.snaps.any fun x => x.st == SnapSt.pending && x.group == some (c.d7 % 4096)) = false ∧ (∀ n ∈ l ++ tabGet [] (c.d7 % 4096) s.snp.groups, sessOf s n = none) ∧ (bitOf c.d7 31 = false → c.d38 ≤ 256 ∧ membersOk s (c.d7 % 4096) l = true) ∧ tabWf [] s.snp.groups = true :=
  ⟨sZ, { cSn 0x30 with nsid := 0, cdw7 := 3, cdw14 := 1, dptr0 := 0x1000, buf := [1, 0] }, qA, [1], by unfold Fetched; decide +kernel⟩
theorem test_met_SnapshotsAreCut_SnapshotCommands_2 :
    ∃ (s : State) (c : HostCmd) (q : Qp) (x : Snap), Fetched s c q ∧ s.peer.role ≠ Role.service ∧ (Instr.snapDelete c).wf = true ∧ nsStatus s c.ns = none ∧ completeSnap s c.ns c.d7 = some x ∧ x.exposed = none ∧ x.base = false ∧ beingSent s c.ns c.d7 = false :=
  ⟨sSn [snp1 4 .complete], { cSn 0x32 with cdw7 := 4 }, qA, snp1 4 .complete, by unfold Fetched; decide +kernel⟩
theorem test_met_SnapshotsAreCut_SnapshotCommands_3 :
    ∃ (s : State) (c : HostCmd) (q : Qp) (l : List Snap), Fetched s c q ∧ s.peer.role ≠ Role.service ∧ (Instr.snapList c).wf = true ∧ nsStatus s c.ns = none ∧ l = List.take (c.d38 / 128) (List.filter (fun x => x.nsid == c.ns) s.snp.snaps) :=
  ⟨sSn [snp1 4 .complete, snp1 5 .complete], { cSn 0x33 with cdw14 := 256, dptr0 := 0x1000 }, qA, [snp1 4 .complete, snp1 5 .complete], by unfold Fetched; decide +kernel⟩
theorem test_met_SnapshotsAreCut_SnapshotCommands_4 :
    ∃ (s : State) (c : HostCmd) (q : Qp) (x : Snap) (n : Ns) (id : ℕ), Fetched s c q ∧ s.peer.role ≠ Role.service ∧ (Instr.snapExpose c).wf = true ∧ nsStatus s c.ns = none ∧ nsOf s c.ns = some n ∧ completeSnap s c.ns c.d7 = some x ∧ x.exposed = none ∧ pickId (usedNsids s) 16384 s = some id :=
  by
  obtain ⟨id, h⟩ := pickId_found (sSn [snp1 4 .complete, snp1 5 .complete]) (used := usedNsids (sSn [snp1 4 .complete, snp1 5 .complete])) (bound := 16384) (by decide +kernel)
  exact ⟨sSn [snp1 4 .complete, snp1 5 .complete], { cSn 0x34 with cdw7 := 5 }, qA, snp1 5 .complete, nN1, id, by unfold Fetched; decide +kernel, by decide +kernel, by decide +kernel, by decide +kernel, by decide +kernel, by decide +kernel, by decide +kernel, h⟩
theorem test_met_SnapshotsAreCut_SnapshotCommands_5 :
    ∃ (s : State) (n : BitVec 14) (k : ℕ) (x : Snap), snapOf s n.toNat k = some x ∧ x.st = SnapSt.deleting :=
  ⟨wL2, 1, 4, {snp1 4 .deleting with pages := [(0, 9)]}, by decide +kernel⟩
theorem test_met_SnapshotsAreCut_1 :
    ∃ (s : State) (c : HostCmd) (q : Qp), Fetched s c q ∧ s.peer.role ≠ Role.service ∧ (Instr.snapCreate c).wf = true ∧ snapMembers s c ≠ [] ∧ (∀ n ∈ snapMembers s c, nsStatus s n = none ∧ snapCount s n < 1024) :=
  ⟨sZ, { cSn 0x31 with dptr0 := 0x1000, buf := bK 32 }, qA, by unfold Fetched; decide +kernel⟩
theorem test_met_SnapshotsAreCut_2 :
    ∃ (s : State) (id : ℕ) (d : Cmd) (h : ℕ × List ℕ) (label : Bytes) (g : Option ℕ), cmdOf s id = some d ∧ List.find? (fun h => h.1 == id) s.snp.holds = some h ∧ d.stage = CmdStage.snap label g ∧ cutReady s h.2 = true ∧ NoneWaits s :=
  ⟨wL3, 7, cmdW 7 kA 0x31 (.snap (bK 32) none), (7, [1]), bK 32, none, by unfold NoneWaits; decide +kernel⟩
theorem test_met_SnapshotsAreCut_3 :
    ∃ (s : State) (id : ℕ) (d : Cmd) (h : ℕ × List ℕ) (label : Bytes) (g : Option ℕ), cmdOf s id = some d ∧ List.find? (fun h => h.1 == id) s.snp.holds = some h ∧ d.stage = CmdStage.snap label g ∧ cutReady s h.2 = false :=
  ⟨wL5, 7, cmdW 7 kA 0x31 (.snap (bK 32) none), (7, [1]), bK 32, none, by decide +kernel⟩
theorem test_met_SnapshotsAreCut_4 :
    ∃ (s : State) (id : ℕ) (d : Cmd) (q : Qp) (x : Snap) (l : List Snap), List.filter (fun x => x.st == SnapSt.pending && x.cmd == some id) s.snp.snaps = x :: l ∧ (s.ing.runs.any fun r => (x :: l).any fun y => y.nsid == r.nsid) = false ∧ (∀ y ∈ x :: l, snapOf s y.nsid y.seq = some y) ∧ Outstanding s id d q ∧ NoBatches s :=
  ⟨wL6, 7, cmdW 7 kA 0x31 (.snap (bK 32) none), qA, {snp1 5 .pending with cmd := some 7}, [], by unfold Outstanding NoBatches; decide +kernel⟩
theorem test_met_ReplicationRuns_ReplicationCommands_1 :
    ∃ (s : State) (c : HostCmd) (q : Qp) (ids : List Word64) (sl : Bool) (n : Ns), Fetched s c q ∧ s.peer.role ≠ Role.service ∧ nsStatus s c.ns = none ∧ (Instr.replPair c ids sl).wf = true ∧ nsOf s c.ns = some n ∧ sessOf s c.ns = none ∧ pairingOk s c.buf = true ∧ c.d7 = 1 :=
  ⟨sZ, { cSn 0x38 with cdw7 := 1, dptr0 := 0x1000, buf := prB }, qA, [], false, nN1, by unfold Fetched; decide +kernel⟩
theorem test_met_ReplicationRuns_ReplicationCommands_2 :
    ∃ (s : State) (c : HostCmd) (q : Qp) (ids : List Word64) (sl : Bool) (n : Ns), Fetched s c q ∧ s.peer.role ≠ Role.service ∧ nsStatus s c.ns = none ∧ (Instr.replPair c ids sl).wf = true ∧ nsOf s c.ns = some n ∧ sessOf s c.ns = none ∧ pairingOk s c.buf = true ∧ c.d7 = 2 ∧ nsEmpty s c.ns = true ∧ keysAgree s n ids sl = true :=
  ⟨sZ, { cSn 0x38 with cdw7 := 2, dptr0 := 0x1000, buf := prB }, qA, [0,0,0], false, nN1, by unfold Fetched; decide +kernel⟩
theorem test_met_ReplicationRuns_ReplicationCommands_3 :
    ∃ (s : State) (c : HostCmd) (q : Qp) (n : Ns), Fetched s c q ∧ s.peer.role ≠ Role.service ∧ nsStatus s c.ns = none ∧ (Instr.ingest c).wf = true ∧ nsOf s c.ns = some n ∧ sessOf s c.ns = none ∧ pairingOk s c.buf = true ∧ nsEmpty s c.ns = true :=
  ⟨sZ, { cSn 0x3C with dptr0 := 0x1000, buf := prB }, qA, nN1, by unfold Fetched; decide +kernel⟩
theorem test_met_ReplicationRuns_ReplicationCommands_4 :
    ∃ (s : State) (c : HostCmd) (q : Qp) (x : Sess), Fetched s c q ∧ s.peer.role ≠ Role.service ∧ nsStatus s c.ns = none ∧ (Instr.replSend c).wf = true ∧ sessOf s c.ns = some x ∧ x.role = ReplRole.source ∧ (completeSnap s c.ns c.d7).isSome = true ∧ (x.st = ReplSt.idle ∨ x.st = ReplSt.faulted) :=
  ⟨wL7, { cSn 0x39 with cdw7 := 4 }, qA, ssn .source .idle, by unfold Fetched; decide +kernel⟩
theorem test_met_ReplicationRuns_ReplicationCommands_5 :
    ∃ (s : State) (c : HostCmd) (q : Qp) (x : Sess), Fetched s c q ∧ s.peer.role ≠ Role.service ∧ nsStatus s c.ns = none ∧ (Instr.replStop c).wf = true ∧ sessOf s c.ns = some x :=
  ⟨wL8, cSn 0x3A, qA, ssn .target .idle, by unfold Fetched; decide +kernel⟩
theorem test_met_ReplicationRuns_ReplicationCommands_6 :
    ∃ (s : State) (c : HostCmd) (q : Qp), Fetched s c q ∧ s.peer.role ≠ Role.service ∧ nsStatus s c.ns = none ∧ (Instr.replStatus c).wf = true :=
  ⟨sS (ssn .target .idle), { cSn 0x3B with dptr0 := 0x1000 }, qA, by unfold Fetched; decide +kernel⟩
theorem test_met_ReplicationRuns_1 :
    ∃ (s : State) (h : ReplHdr) (x : Sess) (first : ℕ) (next : ℕ) (chunks : List ChunkRec) (blocks : List BlockRec), Heard s h false x ∧ (Instr.offer h first next chunks blocks).wf = true ∧ x.st ≠ ReplSt.suspended ∧ (∀ (i : ℕ) (b : Batch), x.batches[i]? = some b → b.no = x.nextBatch + i) ∧ x.batches.length < 8 ∧ BitVec.toNat h.batch = x.nextBatch + x.batches.length :=
  ⟨sS (ssn .target .idle), hdr 4, ssn .target .idle, 10, 20, [⟨bK 32, 1500, bK 12⟩], [⟨10, 0, 0, 0, false⟩], by unfold Heard; decide +kernel, by decide +kernel, by decide +kernel, by intro i b h; simp [ssn] at h, by decide +kernel, by decide +kernel⟩
theorem test_met_ReplicationRuns_3 :
    ∃ (s : State) (h : ReplHdr) (x : Sess) (it : BaleItem) (b : Batch), Heard s h false x ∧ (Instr.bales h [it]).wf = true ∧ x.batches = [b] ∧ b.no = BitVec.toNat h.batch ∧ it.index ∈ b.asked ∧ baleGood s x b it = false ∧ it.index ∉ b.retried ∧ batchPlaced s b = false :=
  ⟨sS {ssn .target .sending with batches := [bat]}, hdr 4, {ssn .target .sending with batches := [bat]}, itB, bat, by unfold Heard; decide +kernel⟩
theorem test_met_ReplicationRuns_4 :
    ∃ (s : State) (h : ReplHdr) (x : Sess) (it : BaleItem) (b : Batch), Heard s h false x ∧ (Instr.bales h [it]).wf = true ∧ x.batches = [b] ∧ b.no = BitVec.toNat h.batch ∧ it.index ∈ b.asked ∧ baleGood s x b it = false ∧ it.index ∈ b.retried :=
  ⟨sS {ssn .target .sending with batches := [{bat with retried := [0]}]}, hdr 4, {ssn .target .sending with batches := [{bat with retried := [0]}]}, itB, {bat with retried := [0]}, by unfold Heard; decide +kernel⟩
theorem test_met_ReplicationRuns_5 :
    ∃ (s : State) (h : ReplHdr) (x : Sess) (label : Bytes) (sec : Word32) (k : ℕ), Heard s h false x ∧ (Instr.end_ h label sec).wf = true ∧ x.st = ReplSt.sending ∧ x.batches = [] ∧ snapCount s x.nsid < 1024 ∧ k = tabGet 0 x.nsid s.snp.nextSeq + 1 ∧ snapOf s x.nsid k = none :=
  ⟨sS {ssn .target .sending with sendSeq := 9}, hdr 4, {ssn .target .sending with sendSeq := 9}, bK 32, 77, 1, by unfold Heard; decide +kernel⟩
theorem test_met_ReplicationRuns_6 :
    ∃ (s : State) (h : ReplHdr) (x : Sess) (bits : List ℕ) (q : RcQp) (c : Caravan), Heard s h true x ∧ (Instr.need h bits).wf = true ∧ connOf s x.session = some q ∧ caravanOf s c.id = some c ∧ List.find? (fun c => c.trigger == q.qpn && c.st == CarSt.armed && c.elements.any fun e => e.kind == 6 && bytesAt e.template 20 4 == beBytes 4 (BitVec.toNat h.batch)) s.rdm.caravans = some c :=
  ⟨wL9, hdr 4, {ssn .source .sending with batches := [bat]}, [0], rc, carv, by unfold Heard; decide +kernel⟩
theorem test_met_ReplicationRuns_7 :
    ∃ (s : State) (h : ReplHdr) (x : Sess) (b : Batch) (r : List Batch), Heard s h true x ∧ x.batches = b :: r ∧ b.no = BitVec.toNat h.batch :=
  ⟨sS {ssn .source .sending with batches := [bat], sendSeq := 9}, hdr 4, {ssn .source .sending with batches := [bat], sendSeq := 9}, bat, [], by unfold Heard; decide +kernel⟩
theorem test_met_ReplicationRuns_8 :
    ∃ (s : State) (h : ReplHdr) (x : Sess) (_k : Word32), Heard s h true x ∧ x.st = ReplSt.sending ∧ x.ended = true ∧ BitVec.toNat h.snapSeq = x.sendSeq :=
  ⟨wL10, hdr 4, {ssn .source .sending with ended := true, sendSeq := 9}, 44, by unfold Heard; decide +kernel⟩
theorem test_met_ReplicationRuns_ReplicationResumes_1 :
    ∃ (s : State) (h : ReplHdr) (x : Sess), Heard s h false x :=
  ⟨sS {ssn .target .sending with batches := [bat]}, hdr 4, {ssn .target .sending with batches := [bat]}, by unfold Heard; decide +kernel⟩
theorem test_met_ReplicationRuns_ReplicationResumes_2 :
    ∃ (s : State) (h : ReplHdr) (x : Sess), (s.clk.pstate = 2 ∨ s.clk.pstate = 3) ∧ Heard { glb := s.glb, pins := s.pins, clk := have __src := s.clk; { pace := __src.pace, changing := __src.changing, newPace := __src.newPace, newPower := __src.newPower, wakeAfter := __src.wakeAfter, throttled := __src.throttled, throttleC := __src.throttleC, shutdownC := __src.shutdownC, tjNow := __src.tjNow, tjSensor := __src.tjSensor, tjPeak := __src.tjPeak, tjSeen := __src.tjSeen, rails := __src.rails }, cache := s.cache, nvc := s.nvc, wch := s.wch, hep := s.hep, hqe := s.hqe, ing := s.ing, bal := s.bal, sec := s.sec, med := s.med, plf := s.plf, far := s.far, par := s.par, til := s.til, snp := s.snp, peer := s.peer, pair := s.pair, rdm := s.rdm, mch := s.mch, drc := s.drc, evr := s.evr, svc := s.svc, nor := s.nor, dram := s.dram, freeCtr := s.freeCtr, out := s.out, pending := s.pending } h false x :=
  ⟨wL11, hdr 4, {ssn .target .suspended with batches := [bat]}, by unfold Heard; decide +kernel⟩
theorem test_met_ReplicationRuns_ReplicationResumes_3 :
    ∃ (s : State) (h : ReplHdr) (x : Sess) (b : ℕ) (l : ℕ), Heard s h true x ∧ (Instr.resumeAt h b l).wf = true ∧ x.st = ReplSt.suspended :=
  ⟨sS {ssn .source .suspended with sendSeq := 9}, hdr 4, {ssn .source .suspended with sendSeq := 9}, 2, 7, by unfold Heard; decide +kernel⟩
theorem test_met_ReplicationRuns_ReplicationResumes_4 :
    ∃ (s : State) (h : ReplHdr) (x : Sess) (r : Word16), isolated s = false ∧ h.crcGood = true ∧ sessBy s h.session = some x ∧ sessOf s x.nsid = some x ∧ (r = 2 ∨ r = 3) :=
  ⟨sS {ssn .source .sending with batches := [bat]}, hdr 4, {ssn .source .sending with batches := [bat]}, 2, by decide +kernel⟩
theorem test_met_ReplicationRuns_ReplicationResumes_5 :
    ∃ (s : State) (h : ReplHdr) (x : Sess) (r : Word16), isolated s = false ∧ h.crcGood = true ∧ sessBy s h.session = some x ∧ sessOf s x.nsid = some x ∧ r ≠ 2 ∧ r ≠ 3 :=
  ⟨sS {ssn .source .sending with batches := [bat]}, hdr 4, {ssn .source .sending with batches := [bat]}, 4, by decide +kernel⟩
theorem test_met_ReplicationRuns_ReplicationResumes_6 :
    ∃ (s : State) (k : Word64) (x : Sess), sessBy s k = some x ∧ sessOf s x.nsid = some x ∧ x.batches ≠ [] :=
  ⟨sS {ssn .source .sending with batches := [bat]}, 5, {ssn .source .sending with batches := [bat]}, by decide +kernel⟩
theorem test_met_ReplicationRuns_ReplicationResumes_7 :
    ∃ (s : State) (k : Word64) (x : Sess), sessBy s k = some x ∧ sessOf s x.nsid = some x ∧ x.role = ReplRole.source ∧ x.st = ReplSt.suspended ∧ isolated s = false ∧ (connOf s x.session).isSome = true :=
  ⟨sS (ssn .source .suspended), 5, ssn .source .suspended, by decide +kernel⟩
end Sys2Proof.Tests.L

set_option Elab.async false

namespace Sys2Proof.Tests.M
set_option Elab.async false
open Sys2Proof Sys2Proof.Machine Sys2Proof.Tests

set_option maxHeartbeats 4000000
def bK (n : Nat) : Bytes := (List.range n).map fun i => BitVec.ofNat 8 (3*i+1)
def sP : State := onDrc (fun x => {x with sizeGib := 1536}) (onSec (fun x => {x with slots := [(1, filledSlot typeDomain 1 true (bK 128) true), (0x1FF0, {type := typeWrap, state := .active, material := bK 32, idA := 77})]}) (onPeer (fun x => {x with role := .active, linkUp := true, lanes := 12, detect := .present, epoch := 3, peerEpoch := 3, wdogFresh := true, aliveIn := true, aliveOut := true, peerRole := some .active, roleChosen := true}) sH))
def sT : State := onSec (fun x => {x with slots := [(1, filledSlot typeDomain 1 true (bK 128) true), (0x1FF0, {type := typeCmac, state := .active, material := bK 32, idA := 77})]}) sP
def h3 : PeerHdr := ⟨3, true, true⟩
def hO : PeerHdr := ⟨2, true, true⟩
def mir (n lba : Nat) (g : Word16) : MirEntry := { nsid := n, lba := lba, gen := g, data := bK 4096, tenant := 1, tag := some 5, block := 0, nblk := 1 }
def eS (lba cmd blk : Nat) (g : Word16) : StEntry :=
  { slot := lba, nsid := 1, lba := lba, gen := g, st := .staged, mirrored := false, data := bK 4096, dealloc := false, cmd := cmd, block := blk, tenant := some 1, tag := none, nblk := 2, order := lba, idle := false, aged := false, run := none, old := none }
def dM : Cmd := { cmdW 7 kI 0x81 .mirroring with nblk := 2, lba := 4, gens := [6, 9], acked := [0], good := 2 }
def sM : State := onIng (fun x => {x with staging := [eS 4 7 0 6, eS 5 7 1 9]}) (onHqe (fun x => {x with cmds := [dM], nextCmd := 20, tenants := x.tenants.map fun t => {t with gHeld := 2}}) sP)
def dR : Cmd := { cmdW 7 kI 0x80 (.relayed peerDst) with nblk := 4 }
def lnH : Lane := { st := .held, active := true, claim := 6, cmdCred := 20, dataCred := 200 }
def sLn (f : Lane → Lane) (s : State) : State := onFar (fun x => {x with lanes := [(2, f lnH), (3, f lnH)]}) s
def cE (no : Nat) (st : ChunkSt) (r : Nat) : ChunkEnt := { no := no, refs := r, seg := 2, stripe := 0, strip := 0, gran := 0, granules := 2, len := 5000, st := st, keyInfo := 0x1FFF, domain := 1, nsid := 1, sealed_ := false, waybill := zeros 128, stored := zeros 1024 }
def sCh (r : Nat) : State := onMed (fun x => {x with chunks := [cE 9 .live r]}) sP
def jb : Job := ⟨4, .rebuild, 1, false, true, 0, 0, {}, [2], 0xFFFF, 0, 0, 0, 0, 1⟩
def sJb : State := onPar (fun x => {x with jobs := [jb], mirrored := [ckptOf sP jb]}) sP
def sSt : State := onHqe (fun x => {x with cmds := [cmdW 7 kI 0x81 .filling, cmdW 8 kI 0x80 .reading, {dR with id := 9}], nextCmd := 20, settle := [⟨1, 5, 1, 4, 0, false, 6, 0, 0, true⟩, ⟨1, 6, 1, 4, 0, false, 6, 0, 0, false⟩]}) (onIng (fun x => {x with staging := [{eS 4 7 0 6 with st := .filling}, eS 6 3 0 1], mirror := [mir 1 9 4]}) (sLn id sJb))
def cQ : HostCmd := { cI 0x88 0 0 with nsid := 0, dptr0 := 0x100, cdw12 := 0x200, cdw14 := 1, buf := leBytes 8 0xAB }
def wM1 : State := onPeer (fun x => {x with noProgress := 7}) sP
def wM2 : State := onPeer (fun x => {x with wdogFresh := false, aliveOut := false}) sP
def wM3 : State := onPeer (fun x => {x with detect := .noPeer, aliveIn := false}) sP
def wM4 : State := onPeer (fun x => {x with detect := .suspect}) sP
def wM5 : State := onPeer (fun x => {x with role := .service}) sP
def wM6 : State := onGlb (fun x => {x with service := .startUp}) (onPeer (fun x => {x with linkUp := false, role := .service, roleChosen := false}) sP)
def wM7 : State := onPeer (fun x => {x with linkUp := false, role := .service, roleChosen := false}) (sLn (fun l => {l with st := .identified}) sP)
def wM8 : State := onGlb (fun x => {x with headId := true}) (onPeer (fun x => {x with linkUp := false, role := .service, roleChosen := false}) (sLn (fun l => {l with st := .identified}) sP))
def wM9 : State := onIng (fun x => {x with mirror := [mir 1 5 4]}) sP
def wM10 : State := onIng (fun x => {x with mirror := [mir 1 5 4, mir 1 5 7, mir 1 6 1]}) sP
def wM11 : State := onHqe (fun x => {x with cmds := [{dR with cid := 0x77}]}) sP
def wM12 : State := onPeer (fun x => {x with detect := .suspect}) sSt
def wM13 : State := onPeer (fun x => {x with detect := .suspect, aliveIn := false}) sSt
def wM14 : State := onGlb (fun x => {x with headId := true}) (onPeer (fun x => {x with detect := .split}) sSt)
def wM15 : State := onPeer (fun x => {x with detect := .split}) sSt
def wM16 : State := onPeer (fun x => {x with peerRole := some .service}) sSt
def wM17 : State := onPeer (fun x => {x with aliveIn := false}) sSt
def wM18 : State := onSec (fun x => {x with slots := sT.sec.slots}) sSt
def wM19 : State := onPair (fun x => {x with claimsWait := true}) (sLn (fun l => {l with st := .peerHeld}) sP)
def wM20 : State := onPair (fun x => {x with ownFw := 5}) (onPeer (fun x => {x with role := .sole}) (onSec (fun x => {x with slots := sT.sec.slots}) sP))
def wM21 : State := onPair (fun x => {x with returning := true}) (onPeer (fun x => {x with role := .service}) sT)
def wM22 : State := onPair (fun x => {x with kept := [1]}) sT
def wM23 : State := onPair (fun x => {x with service := .normal}) (onMed (fun x => {x with segs := [⟨60, .free, ⟨0, false⟩, false, 1, false, 0, [], [], 0, 0, [], 0, 0, 0, 0, 0, false, [], 0⟩]}) (sP))
def wM24 : State := onPair (fun x => {x with service := .normal}) (onMed (fun x => {x with segs := [⟨60, .free, ⟨0, false⟩, false, 1, false, 0, [], [], 0, 0, [], 0, 0, 0, 0, 0, false, [], 0⟩]}) (onPair (fun x => {x with service := .normal}) (onPar (fun x => {x with ordinary := {id := 1, d := 1, q := false, elig := [2,3]}}) (sLn (fun l => {l with info := {l.info with channels := 4, perChan := 4, planes := 1, blocks := 50}}) sP))))
def wM25 : State := onPair (fun x => {x with service := .normal}) (onMed (fun x => {x with segs := [⟨60, .free, ⟨0, false⟩, false, 1, false, 0, [], [], 0, 0, [], 0, 0, 0, 0, 0, false, [], 0⟩]}) (onPair (fun x => {x with service := .normal}) (onPeer (fun x => {x with swapHead := true}) (onPar (fun x => {x with ordinary := {id := 1, d := 1, q := false, elig := [2,3]}}) (sLn (fun l => {l with info := {l.info with channels := 4, perChan := 4, planes := 1, blocks := 50}}) sP)))))
def wM26 : State := onGlb (fun x => {x with service := .startUp}) sP
def wM27 : State := onPeer (fun x => {x with pair3 := {x.pair3 with lastAt := some 0}}) sSt
def wM28 : State := onPeer (fun x => {x with pair1 := {x.pair1 with lastAt := some 0}}) sSt
def wM29 : State := onPeer (fun x => {x with pair3 := {x.pair3 with inReset := true}}) sSt
def wM30 : State := onPeer (fun x => {x with role := .sole, pair1 := {x.pair3 with inReset := true}}) sSt
def wM31 : State := onPeer (fun x => {x with role := .service, pair1 := {x.pair3 with inReset := true}}) sSt
def wM32 : State := onPeer (fun x => {x with pair1 := {x.pair3 with inReset := true}}) sSt
def wM33 : State := onPeer (fun x => {x with pair0 := {x.pair3 with inReset := true}}) sSt
theorem test_met_PeerLinkAndEpochs_PeerLinkBeats_1 :
    ∃ (s : State) (n : ℕ), n < 12 ∧ min (linkWidth n) s.peer.lanes ≠ s.peer.lanes :=
  ⟨sP, 9, by decide +kernel⟩
theorem test_met_PeerLinkAndEpochs_PeerLinkBeats_2 :
    ∃ (s : State), s.peer.lanes ≠ 0 :=
  ⟨sP, by decide +kernel⟩
theorem test_met_PeerLinkAndEpochs_PeerLinkBeats_3 :
    ∃ (s : State) (_v : Word32), s.peer.pair1.inReset = false :=
  ⟨wM2, 9, by decide +kernel⟩
theorem test_met_PeerLinkAndEpochs_PeerLinkBeats_4 :
    ∃ (s : State), beats s = true ∧ s.peer.lanes ≠ 0 ∧ s.peer.linkUp = true ∧ s.pair.swapWait = false ∧ s.pair.handback = false :=
  ⟨sP, by decide +kernel⟩
theorem test_met_PeerLinkAndEpochs_PeerLinkBeats_5 :
    ∃ (s : State) (h : PeerHdr) (_r : Role) (_v : Service) (_fw : Word32) (o : ℕ) (k : ℕ), FromPeer s h ∧ o < 2 ^ 16 ∧ k < 2 ^ 32 ∧ suspectNow s = false :=
  ⟨sP, h3, .service, .normal, 5, 6, 7, by unfold FromPeer; decide +kernel⟩
theorem test_met_PeerLinkAndEpochs_PeerLinkBeats_6 :
    ∃ (s : State) (h : PeerHdr) (_r : Role) (_v : Service) (_fw : Word32) (o : ℕ) (k : ℕ), FromPeer s h ∧ o < 2 ^ 16 ∧ k < 2 ^ 32 ∧ suspectNow s = true ∧ NoneWaits s :=
  ⟨wM4, h3, .active, .normal, 5, 6, 7, by unfold NoneWaits FromPeer; decide +kernel⟩
theorem test_met_PeerLinkAndEpochs_EpochsSupersede_1 :
    ∃ (s : State) (h : PeerHdr) (i : Instr), s.peer.linkUp = true ∧ s.pins.coresOut = true ∧ genHigher s.peer.epoch h.epoch = true ∧ i.wf = true ∧ ((∃ e, i = Instr.stale h e) ∨ (∃ r v fw o k, i = Instr.beat h r v fw o k) ∨ (∃ n l g w, i = Instr.mirrorAck h n l g ∨ i = Instr.release h n l g ∨ i = Instr.powerLoss h w) ∨ (∃ c d, i = Instr.ref h c d) ∨ (∃ j b, i = Instr.jobcopy h j b) ∨ (∃ p, i = Instr.pairFault h p) ∨ (∃ l, i = Instr.peerStagingLimit h l) ∨ (∃ n l g w k b c d, i = Instr.mirror h n l g w k b c d) ∨ (∃ w g n o k, i = Instr.settle h w g n o k) ∨ (∃ c w r, i = Instr.relay h c w r) ∨ ∃ n d b p g k, i = Instr.granule h n d b p g k) :=
  ⟨sP, hO, .stale hO 9, by decide +kernel, by decide +kernel, by decide +kernel, by decide +kernel, .inl ⟨9, rfl⟩⟩
theorem test_met_PeerLinkAndEpochs_EpochsSupersede_2 :
    ∃ (s : State) (h : PeerHdr) (e : Word16), FromPeer s h ∧ genHigher e s.peer.epoch = false :=
  ⟨sP, h3, 3, by unfold FromPeer; decide +kernel⟩
theorem test_met_PeerLinkAndEpochs_EpochsSupersede_3 :
    ∃ (s : State) (h : PeerHdr) (e : Word16), FromPeer s h ∧ genHigher e s.peer.epoch = true ∧ s.peer.pair1.inReset = false ∧ s.peer.role ≠ Role.service ∧ s.hqe.behind = [] :=
  ⟨sSt, h3, 5, by unfold FromPeer; decide +kernel⟩
theorem test_met_PeerLinkAndEpochs_EpochsSupersede_4 :
    ∃ (s : State) (h : PeerHdr) (e : Word16), FromPeer s h ∧ genHigher e s.peer.epoch = true ∧ s.peer.pair1.inReset = false ∧ s.peer.role = Role.service :=
  ⟨wM5, h3, 5, by unfold FromPeer; decide +kernel⟩
theorem test_met_RolesAndCopies_RolesAreChosen_1 :
    ∃ (s : State) (_h : PeerHdr) (_n : Word64) (_hd : Bool) (_fw : Word32) (_k : ℕ) (_key : Word64) (_r : Role), s.pins.coresOut = true ∧ s.peer.linkUp = false ∧ s.peer.pair1.inReset = false ∧ rolesOpen s = false :=
  ⟨wM6, h3, 9, true, 5, 100, 77, .service, by decide +kernel⟩
theorem test_met_RolesAndCopies_RolesAreChosen_2 :
    ∃ (s : State) (_h : PeerHdr) (_n : Word64) (hd : Bool) (_fw : Word32) (_k : ℕ) (key : Word64) (r : Role), s.pins.coresOut = true ∧ s.peer.linkUp = false ∧ s.peer.pair1.inReset = false ∧ rolesOpen s = true ∧ s.peer.roleChosen = false ∧ hd ≠ s.glb.headId ∧ r ≠ Role.sole ∧ key = (slotOf s pairKey).idA :=
  ⟨wM7, h3, 9, true, 5, 100, 77, .active, by decide +kernel⟩
theorem test_met_RolesAndCopies_RolesAreChosen_3 :
    ∃ (s : State) (_h : PeerHdr) (_n : Word64) (hd : Bool) (_fw : Word32) (_k : ℕ) (_key : Word64) (r : Role), s.pins.coresOut = true ∧ s.peer.linkUp = false ∧ s.peer.pair1.inReset = false ∧ rolesOpen s = true ∧ s.peer.roleChosen = false ∧ hd ≠ s.glb.headId ∧ r = Role.sole ∧ s.pair.sameHead = false ∧ s.pair.hungOver = false :=
  ⟨wM7, h3, 9, true, 5, 100, 77, .sole, by decide +kernel⟩
theorem test_met_RolesAndCopies_RolesAreChosen_4 :
    ∃ (s : State) (_h : PeerHdr) (_n : Word64) (hd : Bool) (_fw : Word32) (_k : ℕ) (_key : Word64) (_r : Role), s.pins.coresOut = true ∧ s.peer.linkUp = false ∧ s.peer.pair1.inReset = false ∧ rolesOpen s = true ∧ s.peer.roleChosen = false ∧ hd = s.glb.headId :=
  ⟨wM7, h3, 9, false, 5, 100, 77, .service, by decide +kernel⟩
theorem test_met_RolesAndCopies_RolesAreChosen_5 :
    ∃ (s : State) (_h : PeerHdr) (_n : Word64) (hd : Bool) (_fw : Word32) (_k : ℕ) (key : Word64) (r : Role), s.pins.coresOut = true ∧ s.peer.linkUp = false ∧ s.peer.pair1.inReset = false ∧ rolesOpen s = true ∧ s.peer.roleChosen = false ∧ hd ≠ s.glb.headId ∧ r ≠ Role.sole ∧ key ≠ (slotOf s pairKey).idA :=
  ⟨wM7, h3, 9, true, 5, 100, 78, .service, by decide +kernel⟩
theorem test_met_RolesAndCopies_RolesAreChosen_6 :
    ∃ (s : State) (_present : Bool) (lost : Bool) (_sole : Bool), s.peer.roleChosen = false ∧ s.peer.linkUp = false ∧ rolesOpen s = true ∧ s.peer.pair1.inReset = false ∧ lost = true :=
  ⟨wM7, false, true, false, by decide +kernel⟩
theorem test_met_RolesAndCopies_RolesAreChosen_7 :
    ∃ (s : State) (present : Bool) (lost : Bool) (_sole : Bool), s.peer.roleChosen = false ∧ s.peer.linkUp = false ∧ rolesOpen s = true ∧ s.peer.pair1.inReset = false ∧ lost = false ∧ present = true :=
  ⟨wM7, true, false, false, by decide +kernel⟩
theorem test_met_RolesAndCopies_RolesAreChosen_8 :
    ∃ (s : State) (present : Bool) (lost : Bool) (_sole : Bool), s.peer.roleChosen = false ∧ s.peer.linkUp = false ∧ rolesOpen s = true ∧ s.peer.pair1.inReset = false ∧ lost = false ∧ present = false :=
  ⟨wM7, false, false, true, by decide +kernel⟩
theorem test_met_WritesAreMirrored_1 :
    ∃ (s : State) (h : PeerHdr) (_n : BitVec 14) (l : ℕ) (_g : Word16) (tn : ℕ) (_tag : Option Word64) (b : ℕ) (k : ℕ) (d : Bytes), FromPeer s h ∧ l < 2 ^ 64 ∧ tn < 4096 ∧ b < k ∧ List.length d = 4096 ∧ s.peer.role = Role.active ∧ asleep s = false ∧ s.clk.newPower = none :=
  ⟨sP, h3, 1, 5, 6, 1, none, 0, 1, bK 4096, by unfold FromPeer; decide +kernel⟩
theorem test_met_WritesAreMirrored_2 :
    ∃ (s : State) (h : PeerHdr) (n : BitVec 14) (l : ℕ) (g : Word16) (d : Cmd) (q : Qp), FromPeer s h ∧ l < 2 ^ 64 ∧ List.find? (fun c => c.nsid == n.toNat && decide (c.lba ≤ l) && c.gens[l - c.lba]? == some g) s.hqe.cmds = some d ∧ Outstanding s d.id d q ∧ d.stage = CmdStage.mirroring ∧ d.status = 0 ∧ d.good = d.nblk ∧ (∀ b < d.nblk, b = l - d.lba ∨ b ∈ d.acked) :=
  ⟨sM, h3, 1, 5, 9, dM, qI, by unfold Outstanding FromPeer; decide +kernel⟩
theorem test_met_WritesAreMirrored_3 :
    ∃ (s : State) (h : PeerHdr) (_n : BitVec 14) (l : ℕ) (_g : Word16), FromPeer s h ∧ l < 2 ^ 64 :=
  ⟨wM10, h3, 1, 5, 6, by unfold FromPeer; decide +kernel⟩
theorem test_met_WritesAreMirrored_4 :
    ∃ (s : State) (h : PeerHdr) (tn : ℕ) (_g : Word64) (_n : BitVec 14) (_o : Fin 5) (k : ℕ), FromPeer s h ∧ tn < 4096 ∧ k < 2 ^ 16 :=
  ⟨sSt, h3, 1, 5, 1, 1, 3, by unfold FromPeer; decide +kernel⟩
theorem test_met_WritesAreMirrored_5 :
    ∃ (s : State) (h : PeerHdr) (c : HostCmd) (_w : Option ℕ) (x : Cmd) (q : Qp) (st : Word16) (k : ℕ) (_r : ℕ) (_data : Bytes) (n : ℕ), FromPeer s h ∧ List.find? (fun x => x.stage == CmdStage.relayed peerDst && x.q == c.q && x.cid == c.cid) s.hqe.cmds = some x ∧ Outstanding s x.id x q ∧ (n = if st ≠ 0 ∧ 0 < k ∧ k < x.nblk then k else 0) :=
  ⟨wM11, h3, cI 0x80 0 4, none, {dR with cid := 0x77}, qI, 0, 0, 9, [], 0, by unfold Outstanding FromPeer; decide +kernel⟩
theorem test_met_WritesAreMirrored_6 :
    ∃ (s : State) (h : PeerHdr) (c : HostCmd) (_w : Option ℕ), FromPeer s h ∧ c.op = 136 ∧ s.glb.service = Service.normal ∧ bitOf c.d3C 30 = false ∧ bitOf c.d3C 31 = false ∧ cmdOf s s.hqe.nextCmd = none :=
  ⟨sP, h3, cQ, some 1, by unfold FromPeer; decide +kernel⟩
theorem test_met_WritesAreMirrored_7 :
    ∃ (s : State) (h : PeerHdr) (_l : Option ℕ), FromPeer s h ∧ NoneWaits s :=
  ⟨sP, h3, some 500, by unfold NoneWaits FromPeer; decide +kernel⟩
theorem test_met_RolesAndCopies_HeadsKeepTheSame_1 :
    ∃ (s : State) (h : PeerHdr) (n : Fin 96) (_d : BitVec 9) (_b : ℕ) (_p : ℕ) (_g : ℕ) (_k : ℕ), FromPeer s h ∧ (laneOf s ↑n).st = LaneState.held :=
  ⟨sLn id sP, h3, 3, 1, 2, 3, 4, 5, by unfold FromPeer; decide +kernel⟩
theorem test_met_RolesAndCopies_HeadsKeepTheSame_2 :
    ∃ (s : State) (h : PeerHdr) (no : ℕ) (e : ChunkEnt) (k : ℕ), FromPeer s h ∧ chunkOf s no = some e ∧ raisable s no k = true :=
  ⟨sCh 4, h3, 9, cE 9 .live 4, 6, by unfold FromPeer; decide +kernel⟩
theorem test_met_RolesAndCopies_HeadsKeepTheSame_3 :
    ∃ (s : State) (h : PeerHdr) (no : ℕ) (k : ℕ), FromPeer s h ∧ raisable s no k = false :=
  ⟨sCh 0, h3, 9, 6, by unfold FromPeer; decide +kernel⟩
theorem test_met_RolesAndCopies_HeadsKeepTheSame_4 :
    ∃ (s : State) (h : PeerHdr) (no : ℕ) (e : ChunkEnt), FromPeer s h ∧ chunkOf s no = some e ∧ no ≠ 0 :=
  ⟨sCh 1, h3, 9, cE 9 .live 1, by unfold FromPeer; decide +kernel⟩
theorem test_met_RolesAndCopies_HeadsKeepTheSame_5 :
    ∃ (s : State) (h : PeerHdr) (_c : JobCkpt), FromPeer s h :=
  ⟨sJb, h3, ckptOf sP jb, by unfold FromPeer; decide +kernel⟩
theorem test_met_RolesAndCopies_HeadsKeepTheSame_6 :
    ∃ (s : State) (h : PeerHdr) (n : BitVec 13) (_ty : BitVec 3) (_o : ℕ) (_x : Bool) (_m : Bytes), TaggedPeer s h ∧ n.toNat < 8176 :=
  ⟨sT, h3, 0x1005, 2, 1, true, bK 64, by unfold TaggedPeer FromPeer; decide +kernel⟩
theorem test_met_RolesAndCopies_HeadsKeepTheSame_7 :
    ∃ (s : State) (h : PeerHdr) (n : BitVec 13), TaggedPeer s h ∧ n.toNat < 8176 ∧ tabWf { } s.sec.slots = true :=
  ⟨sT, h3, 1, by unfold TaggedPeer FromPeer; decide +kernel⟩
theorem test_met_RolesAndCopies_HeadsKeepTheSame_8 :
    ∃ (s : State) (h : PeerHdr) (_id : ℕ) (_g : ℕ) (_c : ℕ) (_d : ℕ) (_a : Bool) (_b : Bool), TaggedPeer s h :=
  ⟨sT, h3, 5, 10, 20, 5, true, false, by unfold TaggedPeer FromPeer; decide +kernel⟩
theorem test_met_RolesAndCopies_HeadsKeepTheSame_9 :
    ∃ (s : State) (h : PeerHdr) (id : ℕ) (x : Tenant), TaggedPeer s h ∧ tenantOf s id = some x :=
  ⟨sT, h3, 1, { id := 1, g := 100, c := 100, relay := false, shared := false, domain := 1 }, by unfold TaggedPeer FromPeer; decide +kernel⟩
theorem test_met_RolesAndCopies_HeadsKeepTheSame_10 :
    ∃ (s : State) (h : PeerHdr) (_i : SyncItem), s.peer.linkUp = true ∧ s.pins.coresOut = true ∧ s.sec.vault.out = false ∧ (h.tagged = false ∨ h.tagGood = false) :=
  ⟨sT, ⟨3, true, false⟩, .tenantDelete 1, by decide +kernel⟩
theorem test_met_LossAndReturn_LossIsDeclared_1 :
    ∃ (s : State), s.peer.detect = Detect.present ∧ s.pins.pwrFail = false ∧ s.peer.pair1.inReset = false :=
  ⟨sSt, by decide +kernel⟩
theorem test_met_LossAndReturn_LossIsDeclared_2 :
    ∃ (s : State) (_a : Option Bool), s.peer.detect = Detect.suspect ∧ s.peer.pair1.inReset = false ∧ s.peer.aliveIn = true :=
  ⟨wM12, some true, by decide +kernel⟩
theorem test_met_LossAndReturn_LossIsDeclared_3 :
    ∃ (s : State) (_a : Option Bool), s.peer.detect = Detect.suspect ∧ s.peer.pair1.inReset = false ∧ s.peer.aliveIn = false ∧ MayTakeOver s :=
  ⟨wM13, none, by unfold MayTakeOver NoneWaits; decide +kernel⟩
theorem test_met_LossAndReturn_LossIsDeclared_4 :
    ∃ (s : State), s.peer.detect = Detect.split ∧ s.peer.pair1.inReset = false ∧ s.glb.headId = true ∧ s.peer.role ≠ Role.service ∧ NoneWaits s :=
  ⟨wM14, by unfold NoneWaits; decide +kernel⟩
theorem test_met_LossAndReturn_LossIsDeclared_5 :
    ∃ (s : State), s.peer.detect = Detect.split ∧ s.peer.pair1.inReset = false ∧ s.glb.headId = false ∧ MayTakeOver s :=
  ⟨wM15, by unfold MayTakeOver NoneWaits; decide +kernel⟩
theorem test_met_LossAndReturn_LossIsDeclared_6 :
    ∃ (s : State) (n : ℕ), 2000 ≤ n ∧ s.peer.aliveIn = true ∧ s.peer.detect = Detect.present ∧ s.peer.peerRole ≠ some Role.service :=
  ⟨sSt, 2000, by decide +kernel⟩
theorem test_met_LossAndReturn_LossIsDeclared_7 :
    ∃ (s : State) (n : ℕ), 2000 ≤ n ∧ s.peer.aliveIn = true ∧ (s.peer.detect = Detect.split ∧ s.glb.headId = false ∨ s.peer.detect = Detect.present ∧ s.peer.peerRole = some Role.service) ∧ MayTakeOver s :=
  ⟨wM15, 2000, by unfold MayTakeOver NoneWaits; decide +kernel⟩
theorem test_met_LossAndReturn_LossIsDeclared_8 :
    ∃ (s : State) (h : PeerHdr), FromPeer s h ∧ MayTakeOver s ∧ s.peer.aliveIn = false :=
  ⟨wM17, h3, by unfold MayTakeOver NoneWaits FromPeer; decide +kernel⟩
theorem test_met_LossAndReturn_LossIsDeclared_9 :
    ∃ (s : State) (h : PeerHdr) (p : Fin 4), FromPeer s h ∧ MayTakeOver s ∧ (p ≠ 1 ∨ s.peer.aliveIn = true) :=
  ⟨sSt, h3, 1, by unfold MayTakeOver NoneWaits FromPeer; decide +kernel⟩
theorem test_met_LossAndReturn_LossIsDeclared_10 :
    ∃ (s : State) (h : PeerHdr) (_k : ℕ), FromPeer s h ∧ MayTakeOver s :=
  ⟨sSt, h3, 50, by unfold MayTakeOver NoneWaits FromPeer; decide +kernel⟩
theorem test_met_LossAndReturn_LossIsDeclared_11 :
    ∃ (s : State) (h : PeerHdr), FromPeer s h ∧ MayTakeOver s ∧ TaggedPeer s h :=
  ⟨wM18, h3, by unfold TaggedPeer MayTakeOver NoneWaits FromPeer; decide +kernel⟩
theorem test_met_LossAndReturn_LossIsDeclared_12 :
    ∃ (s : State) (i : Instr), s.pair.claimsWait = true ∧ (i = Instr.powerLossClaimDeadline ∨ ∃ h, i = Instr.flushDone h) :=
  ⟨wM19, .powerLossClaimDeadline, by decide +kernel, .inl rfl⟩
theorem test_met_LossAndReturn_LossIsDeclared_13 :
    ∃ (s : State) (i : Instr), s.pair.claimsWait = false ∧ (i = Instr.powerLossClaimDeadline ∨ ∃ h, i = Instr.flushDone h) :=
  ⟨sSt, .powerLossClaimDeadline, by decide +kernel, .inl rfl⟩
theorem test_met_LossAndReturn_HeadsReturn_1 :
    ∃ (s : State) (h : PeerHdr) (fw : Word32), TaggedPeer s h ∧ s.peer.role = Role.sole ∧ s.peer.pair1.inReset = false ∧ s.glb.service = Service.normal ∧ noFirstPass s = true ∧ fw = s.pair.ownFw ∧ (∀ e ∈ s.ing.staging, e.slot < s.ing.blocks) :=
  ⟨wM20, h3, 5, by unfold TaggedPeer FromPeer; decide +kernel⟩
theorem test_met_LossAndReturn_HeadsReturn_2 :
    ∃ (s : State) (h : PeerHdr) (fw : Word32), TaggedPeer s h ∧ s.peer.role = Role.sole ∧ s.peer.pair1.inReset = false ∧ (s.glb.service ≠ Service.normal ∨ noFirstPass s = false ∨ fw ≠ s.pair.ownFw) :=
  ⟨wM20, h3, 6, by unfold TaggedPeer FromPeer; decide +kernel⟩
theorem test_met_LossAndReturn_HeadsReturn_3 :
    ∃ (s : State) (h : PeerHdr), TaggedPeer s h ∧ s.peer.role = Role.service ∧ s.pair.returning = true ∧ s.pair.hungOver = false :=
  ⟨wM21, h3, by unfold TaggedPeer FromPeer; decide +kernel⟩
theorem test_met_LossAndReturn_HeadsReturn_4 :
    ∃ (s : State) (h : PeerHdr) (n : Fin 96), TaggedPeer s h ∧ s.peer.role = Role.active ∧ (laneOf s ↑n).st = LaneState.peerHeld ∧ isHome s ↑n = true ∧ s.peer.pair1.inReset = false ∧ maySend s ↑n { op := 48, slc := false, die := 0, block := 0, page := 0, planes := 0, offset := 0, count := 0, payload := [] } = true :=
  ⟨sLn (fun l => {l with st := .peerHeld}) sT, h3, 2, by unfold TaggedPeer FromPeer; decide +kernel⟩
theorem test_met_LossAndReturn_HeadsReturn_5 :
    ∃ (s : State) (h : PeerHdr), TaggedPeer s h ∧ s.peer.role = Role.active ∧ NoneWaits s :=
  ⟨wM22, h3, by unfold TaggedPeer NoneWaits FromPeer; decide +kernel⟩
theorem test_met_LossAndReturn_HeadsReturn_6 :
    ∃ (s : State), s.peer.role = Role.service ∧ s.pair.returning = true ∧ s.peer.pair1.inReset = false ∧ s.pair.sameHead = false ∧ s.pair.hungOver = false ∧ canTag s pairKey = true ∧ s.peer.linkUp = true :=
  ⟨wM21, by decide +kernel⟩
theorem test_met_LossAndReturn_HeadsReturn_7 :
    ∃ (s : State), s.peer.swapDays ≠ 0 ∧ s.pair.swapWait = false ∧ swapAllowed s = true ∧ s.peer.swapHead = s.glb.headId ∧ s.til.current ≤ s.til.ckptSeq :=
  ⟨wM23, by decide +kernel⟩
theorem test_met_LossAndReturn_HeadsReturn_8 :
    ∃ (s : State), s.peer.swapDays ≠ 0 ∧ s.pair.swapWait = false ∧ swapAllowed s = false :=
  ⟨sP, by decide +kernel⟩
theorem test_met_LossAndReturn_HeadsReturn_9 :
    ∃ (s : State), s.peer.swapDays ≠ 0 ∧ s.pair.swapWait = false ∧ swapAllowed s = true ∧ s.peer.swapHead ≠ s.glb.headId :=
  ⟨wM25, by decide +kernel⟩
theorem test_met_ControlPairsFail_1 :
    ∃ (s : State) (p : Fin 4), s.glb.powered = true ∧ s.glb.resetHeld = false ∧ (¬(s.glb.service = Service.startUp ∧ p = 0)) ∧ tooSoon s ↑p = false :=
  ⟨sJb, 3, by decide +kernel⟩
theorem test_met_ControlPairsFail_2 :
    ∃ (s : State) (p : Fin 4), s.glb.powered = true ∧ s.glb.resetHeld = false ∧ s.glb.service = Service.startUp ∧ p = 0 :=
  ⟨wM26, 0, by decide +kernel⟩
theorem test_met_ControlPairsFail_3 :
    ∃ (s : State) (p : Fin 4), s.glb.powered = true ∧ s.glb.resetHeld = false ∧ (¬(s.glb.service = Service.startUp ∧ p = 0)) ∧ tooSoon s ↑p = true ∧ s.peer.role = Role.active ∧ s.hqe.behind = [] :=
  ⟨wM27, 3, by decide +kernel⟩
theorem test_met_ControlPairsFail_4 :
    ∃ (s : State) (p : Fin 4), (pairOf s ↑p).inReset = true ∧ p ≠ 1 :=
  ⟨wM29, 3, by decide +kernel⟩
theorem test_met_ControlPairsFail_5 :
    ∃ (s : State) (p : Fin 4), (pairOf s ↑p).inReset = true ∧ p = 1 ∧ s.peer.roleChosen = true ∧ s.peer.role = Role.sole :=
  ⟨wM30, 1, by decide +kernel⟩
theorem test_met_ControlPairsFail_6 :
    ∃ (s : State) (p : Fin 4), (pairOf s ↑p).inReset = true ∧ p = 1 ∧ s.peer.roleChosen = true ∧ s.peer.role = Role.service :=
  ⟨wM31, 1, by decide +kernel⟩
theorem test_met_ControlPairsFail_7 :
    ∃ (s : State) (p : Fin 4), (pairOf s ↑p).inReset = true ∧ p = 1 ∧ s.peer.roleChosen = true ∧ s.peer.role = Role.active ∧ s.hqe.behind = [] :=
  ⟨wM32, 1, by decide +kernel⟩
theorem test_met_ControlPairsFail_8 :
    ∃ (s : State) (p : Fin 4), (pairOf s ↑p).inReset = true ∧ s.peer.role = Role.active ∧ s.hqe.behind = [] :=
  ⟨wM33, 0, by decide +kernel⟩
theorem test_met_ControlPairsFail_9 :
    ∃ (s : State) (p : Fin 4), (pairOf s ↑p).inReset = true ∧ p = 3 ∧ s.peer.role = Role.active ∧ s.hqe.behind = [] :=
  ⟨wM29, 3, by decide +kernel⟩
theorem test_met_ControlPairsFail_10 :
    ∃ (s : State) (p : Fin 4), (pairOf s ↑p).inReset = false ∧ p = 3 :=
  ⟨sSt, 3, by decide +kernel⟩
end Sys2Proof.Tests.M

set_option Elab.async false

namespace Sys2Proof.Tests.N
set_option Elab.async false
open Sys2Proof Sys2Proof.Machine Sys2Proof.Tests

set_option maxHeartbeats 4000000
def bK (n : Nat) : Bytes := (List.range n).map fun i => BitVec.ofNat 8 (3*i+1)
def rc : RcQp := { qpn := 70, st := .ready, pd := 0x1000, tenant := 0x1000, remote := 0x1000, remoteQp := 80, epoch := 3, purpose := 1, session := 0, addr := 9, port := 0, psn := 5, sendPsn := 20, mtu := 4096, receives := [(0x10000, 8192, none)], got := 0, unacked := 6, rnr := 0, retries := 0, rate := 200000000000, avg := 5000, prevAvg := 6000, updated := 3 }
def reg (n : Nat) : Region := { id := n, pd := 0x1000, base := 0x10000, len := 0x10000, read := true, write := true, atomic := true, valid := true }
def sR (f : RcQp → RcQp) : State := onMch (fun x => {x with addrValid := true, address := 4, table := [(4, 0x44), (9, 0x99)], fedId := bK 5}) (onSec (fun x => {x with slots := [(0x1FF1, {type := typeCmac, state := .active, material := bK 32, idA := 77}), (0x1FF2, {type := typeCmac, state := .active, material := bK 32, idA := 78})], rng := {x.rng with st := .seeded}}) (onRdm (fun x => {x with links := [0,1], fedState := 1, qps := [f rc], regions := [reg 70], paths := [(9, {state := 1, ports := [0], epoch := 7, serial := 0x99})]}) sH))
def pk : Packet := { port := 0, qpn := 70, psn := 5, supported := true, tver := true, srcTenant := 0x1000, dstTenant := 0x1000, epoch := 7, targetEpoch := 3, ts := 55, bytes := bK 100, lastOfMsg := false }
def cm : ConnMsg := { purpose := 1, epoch := 7, qpn := 90, psn := 33, mtu := 4096, tenant := 0x1000, session := 0, arrayId := bK 16, serial := 0x99, srcAddr := 9, port := 0, tagGood := true }
def el (k : Nat) : Element := { kind := k, gated := false, fence := false, gateBit := 0, first := 0, last := 0, target := 0, len := 64, addr := 0x10000, addr2 := 0x10100, template := zeros 64, done := false, ran := true, started := true }
def car (st : CarSt) (l : List Element) : Caravan := { id := 3, st := st, owner := 0, trigger := 70, gate := [], elements := l }
def sCv (c : Caravan) : State := onRdm (fun x => {x with caravans := [c]}) (sR id)
def an : Announce := { port := 1, sendPort := 0, version := 1, fedId := bK 5, address := 9, role := .sole, service := .normal, epoch := 7, round := 12, serial := 0x99, tagGood := true, lateUs := 900 }
def dF : Cmd := { cmdW 7 kI 0x80 (.relayed 9) with nblk := 4, origin := .host }
def rl (re : Bool) : Relay := { id := 30, cmd := 7, target := 9, resent := re, sent := true, epoch := 7, entry := cI 0x80 0 4 }
def sRl (re : Bool) : State := onRdm (fun x => {x with relays := [rl re]}) (onHqe (fun x => {x with cmds := [dF], nextCmd := 20}) (sR id))
def cQ : HostCmd := { cI 0x88 0 0 with nsid := 0, dptr0 := 0x100, cdw12 := 0x200, cdw14 := 1 }
def sF : State := onHqe (fun x => {x with tenants := x.tenants.map fun t => {t with relay := true}, settle := [⟨1, 0xAB, 1, 1, 4, true, 6, 0, 0, false⟩]}) (sR id)
def wN1 : State := onGlb (fun x => {x with service := .recovery}) (sR id)
def wN2 : State := onRdm (fun x => {x with inFlight := [70]}) (sR id)
def wN3 : State := onRdm (fun x => {x with inFlight := [70], changes := [.enterNormal, .deleteDomain 4]}) (sR id)
def wN4 : State := onRdm (fun x => {x with paths := []}) (sR id)
def wN5 : State := onHqe (fun x => {x with qps := [], nss := []}) sF
theorem test_met_ConnectionsCarryMessages_1 :
    ∃ (s : State) (p : Packet) (q : RcQp) (r : ℕ × ℕ × Option ℕ) (l : List (ℕ × ℕ × Option ℕ)), p.ok = true ∧ Arrives s p q ∧ p.psn = q.psn ∧ q.receives = r :: l ∧ q.got + List.length p.bytes ≤ r.2.1 ∧ (q.qpn ∈ s.rdm.inFlight ∨ (regionOk s q.pd (r.1 + q.got) (List.length p.bytes) fun x => x.write) = true) :=
  ⟨sR id, pk, rc, (0x10000, 8192, none), [], by unfold Arrives; decide +kernel⟩
theorem test_met_ConnectionsCarryMessages_2 :
    ∃ (s : State) (p : Packet) (q : RcQp), p.ok = true ∧ Arrives s p q ∧ p.psn = q.psn ∧ q.receives = [] :=
  ⟨sR (fun q => {q with receives := []}), pk, {rc with receives := []}, by unfold Arrives; decide +kernel⟩
theorem test_met_ConnectionsCarryMessages_3 :
    ∃ (s : State) (p : Packet) (q : RcQp), p.ok = true ∧ Arrives s p q :=
  ⟨sR id, pk, rc, by unfold Arrives; decide +kernel⟩
theorem test_met_ConnectionsCarryMessages_4 :
    ∃ (s : State) (p : Packet) (q : RcQp) (region : ℕ) (a : ℕ) (_cas : Bool) (_v : Word64) (_cmp : Word64), p.ok = true ∧ Arrives s p q ∧ a < 2 ^ 64 ∧ s.rdm.atomicsOff = false ∧ (s.glb.service = Service.startUp ∨ s.glb.service = Service.test ∨ s.glb.service = Service.recovery) ∧ q.pd = deviceTenant ∧ a % 8 = 0 ∧ (regionOk s q.pd a 8 fun r => r.id == region && r.atomic) = true :=
  ⟨wN1, pk, rc, 70, 0x10008, true, 9, 0, by unfold Arrives; decide +kernel⟩
theorem test_met_ConnectionsCarryMessages_5 :
    ∃ (s : State) (p : Packet) (q : RcQp) (_region : ℕ) (a : ℕ) (_cas : Bool) (_v : Word64) (_cmp : Word64), p.ok = true ∧ Arrives s p q ∧ a < 2 ^ 64 ∧ s.glb.service = Service.normal :=
  ⟨sR id, pk, rc, 70, 0x10008, false, 9, 0, by unfold Arrives; decide +kernel⟩
theorem test_met_ConnectionsCarryMessages_6 :
    ∃ (s : State) (p : Packet) (q : RcQp), p.ok = true ∧ isolated s = false ∧ ↑p.port ∈ s.rdm.links ∧ p.supported = true ∧ p.tver = true ∧ readyRc s p.qpn = some q ∧ (p.dstTenant ≠ q.tenant ∨ p.srcTenant ≠ q.remote) :=
  ⟨sR id, {pk with srcTenant := 5}, rc, by decide +kernel⟩
theorem test_met_ConnectionsCarryMessages_7 :
    ∃ (s : State) (n : ℕ) (q : RcQp) (psn : ℕ) (_k : ℕ) (_ts : Word32), n < 2 ^ 24 ∧ readyRc s n = some q ∧ psn < 2 ^ 24 ∧ isolated s = false :=
  ⟨sR id, 70, rc, 17, 4000, 6, by decide +kernel⟩
theorem test_met_ConnectionsCarryMessages_8 :
    ∃ (s : State) (n : ℕ) (q : RcQp), n < 2 ^ 24 ∧ readyRc s n = some q ∧ isolated s = false ∧ q.rnr < 7 :=
  ⟨sR id, 70, rc, by decide +kernel⟩
theorem test_met_ConnectionsCarryMessages_9 :
    ∃ (s : State) (n : ℕ) (q : RcQp), n < 2 ^ 24 ∧ readyRc s n = some q ∧ isolated s = false ∧ 7 ≤ q.rnr ∧ q.purpose ≠ 1 :=
  ⟨sR (fun q => {q with rnr := 7, purpose := 2, session := 6}), 70, {rc with rnr := 7, purpose := 2, session := 6}, by decide +kernel⟩
theorem test_met_ConnectionsCarryMessages_10 :
    ∃ (s : State) (n : ℕ) (q : RcQp), n < 2 ^ 24 ∧ readyRc s n = some q ∧ q.retries < 7 :=
  ⟨sR id, 70, rc, by decide +kernel⟩
theorem test_met_ConnectionsCarryMessages_11 :
    ∃ (s : State) (n : ℕ) (q : RcQp), n < 2 ^ 24 ∧ readyRc s n = some q ∧ 7 ≤ q.retries ∧ q.purpose ≠ 1 :=
  ⟨sR (fun q => {q with retries := 7, purpose := 2, session := 6}), 70, {rc with retries := 7, purpose := 2, session := 6}, by decide +kernel⟩
theorem test_met_ConnectionsCarryMessages_12 :
    ∃ (s : State) (n : ℕ) (q : RcQp), n < 2 ^ 24 ∧ readyRc s n = some q :=
  ⟨sR id, 70, rc, by decide +kernel⟩
theorem test_met_ConnectionsAndPaths_ConnectionsAreMade_1 :
    ∃ (s : State) (m : ConnMsg) (n : ℕ), m.qpn < 2 ^ 24 ∧ m.psn < 2 ^ 24 ∧ List.length m.arrayId = 16 ∧ Reached s m ∧ List.find? (sameConnect m) s.rdm.qps = none ∧ connectOk s m = true ∧ freeQpn s = some n :=
  ⟨sR id, cm, ((freeQpn (sR id)).getD 0), by decide +kernel, by decide +kernel, by decide +kernel, by unfold Reached Current; decide +kernel, by decide +kernel, by decide +kernel, by decide +kernel⟩
theorem test_met_ConnectionsAndPaths_ConnectionsAreMade_2 :
    ∃ (s : State) (m : ConnMsg), m.qpn < 2 ^ 24 ∧ m.psn < 2 ^ 24 ∧ List.length m.arrayId = 16 ∧ Reached s m ∧ List.find? (sameConnect m) s.rdm.qps = none ∧ connectOk s m = false :=
  ⟨sR id, {cm with mtu := 5}, by decide +kernel, by decide +kernel, by decide +kernel, by unfold Reached Current; decide +kernel, by decide +kernel, by decide +kernel⟩
theorem test_met_ConnectionsAndPaths_ConnectionsAreMade_3 :
    ∃ (s : State) (m : ConnMsg) (q : RcQp), m.qpn < 2 ^ 24 ∧ m.psn < 2 ^ 24 ∧ List.length m.arrayId = 16 ∧ Reached s m ∧ asked s m = some q ∧ rcOf s q.qpn = some q :=
  ⟨sR (fun q => {q with st := .connecting}), cm, {rc with st := .connecting}, by decide +kernel, by decide +kernel, by decide +kernel, by unfold Reached Current; decide +kernel, by decide +kernel, by decide +kernel⟩
theorem test_met_ConnectionsAndPaths_ConnectionsAreMade_4 :
    ∃ (s : State) (m : ConnMsg) (q : RcQp), m.qpn < 2 ^ 24 ∧ m.psn < 2 ^ 24 ∧ List.length m.arrayId = 16 ∧ Reached s m ∧ asked s m = some q :=
  ⟨sR (fun q => {q with st := .connecting}), cm, {rc with st := .connecting}, by decide +kernel, by decide +kernel, by decide +kernel, by unfold Reached Current; decide +kernel, by decide +kernel⟩
theorem test_met_CaravansRun_1 :
    ∃ (s : State) (id : ℕ) (n : ℕ) (_gate : List ℕ) (c : Caravan), n < 2 ^ 24 ∧ caravanOf s id = some c ∧ c.st = CarSt.armed ∧ c.trigger = n :=
  ⟨sCv (car .armed [el 4]), 3, 70, [1], car .armed [el 4], by decide +kernel⟩
theorem test_met_CaravansRun_2 :
    ∃ (s : State) (id : ℕ) (n : ℕ) (_gate : List ℕ), n < 2 ^ 24 ∧ (∀ (c : Caravan), caravanOf s id = some c → ¬(c.st = CarSt.armed ∧ c.trigger = n)) :=
  ⟨sCv (car .armed [{el 4 with ran := false}]), 3, 71, [1], by decide +kernel⟩
theorem test_met_CaravansRun_3 :
    ∃ (_s : State) (_id : ℕ) (n : ℕ) (_gate : List ℕ), n < 2 ^ 24 :=
  ⟨sCv (car .armed [el 4]), 3, 70, [1], by decide +kernel⟩
theorem test_met_CaravansRun_4 :
    ∃ (s : State) (id : ℕ) (c : Caravan), caravanOf s id = some c ∧ c.st = CarSt.armed :=
  ⟨sCv (car .armed [el 4]), 3, car .armed [el 4], by decide +kernel⟩
theorem test_met_CaravansRun_5 :
    ∃ (s : State) (id : ℕ) (c : Caravan), caravanOf s id = some c ∧ c.st ≠ CarSt.armed :=
  ⟨sCv (car .running [el 4]), 3, car .running [el 4], by decide +kernel⟩
theorem test_met_CaravansRun_6 :
    ∃ (s : State) (id : ℕ) (c : Caravan) (i : ℕ) (e : Element) (failed : Option ℕ), caravanOf s id = some c ∧ c.elements[i]? = some e ∧ e.ran = true ∧ e.done = false ∧ (failed.isSome = true ∨ elementBad s c e = true) ∧ failed ≠ some 12320 :=
  ⟨sCv (car .running [el 4, el 3]), 3, car .running [el 4, el 3], 1, el 3, some 9, by decide +kernel⟩
theorem test_met_CaravansRun_7 :
    ∃ (s : State) (id : ℕ) (c : Caravan) (i : ℕ) (e : Element) (failed : Option ℕ), caravanOf s id = some c ∧ c.elements[i]? = some e ∧ e.ran = true ∧ e.done = false ∧ failed = none ∧ elementBad s c e = false :=
  ⟨sCv (car .running [el 4, {el 3 with ran := false}]), 3, car .running [el 4, {el 3 with ran := false}], 0, el 4, none, by decide +kernel⟩
theorem test_met_ConnectionsAndPaths_FederationPaths_1 :
    ∃ (s : State), s.rdm.fedState = 1 ∧ canTag s federationKey = true :=
  ⟨sR id, by decide +kernel⟩
theorem test_met_ConnectionsAndPaths_FederationPaths_2 :
    ∃ (s : State) (x : Announce), List.length x.fedId = 5 ∧ isolated s = false ∧ ↑x.port ∈ s.rdm.links ∧ (x.tagGood = false ∨ canTag s federationKey = false ∨ padTo 5 x.fedId ≠ padTo 5 s.mch.fedId ∨ x.version ≠ 1 ∨ tabGet 0 x.address.toNat s.mch.table = 0) :=
  ⟨sR id, {an with version := 2}, by decide +kernel⟩
theorem test_met_ConnectionsAndPaths_FederationPaths_3 :
    ∃ (s : State) (x : Announce), List.length x.fedId = 5 ∧ isolated s = false ∧ ↑x.port ∈ s.rdm.links ∧ x.tagGood = true ∧ canTag s federationKey = true ∧ padTo 5 x.fedId = padTo 5 s.mch.fedId ∧ x.version = 1 ∧ tabGet 0 x.address.toNat s.mch.table ≠ 0 ∧ tabGet 0 x.address.toNat s.mch.table = x.serial ∧ (¬(s.mch.addrValid = true ∧ x.address.toNat / 2 = s.mch.address.toNat / 2)) ∧ (pathOf s x.address.toNat).state ≠ 2 ∧ genHigher (pathOf s x.address.toNat).epoch x.epoch = false ∧ x.lateUs ≤ 1000 :=
  ⟨sR id, an, by decide +kernel⟩
theorem test_met_ConnectionsAndPaths_FederationPaths_4 :
    ∃ (s : State) (x : Announce), List.length x.fedId = 5 ∧ isolated s = false ∧ ↑x.port ∈ s.rdm.links ∧ x.tagGood = true ∧ canTag s federationKey = true ∧ padTo 5 x.fedId = padTo 5 s.mch.fedId ∧ x.version = 1 ∧ tabGet 0 x.address.toNat s.mch.table ≠ 0 ∧ tabGet 0 x.address.toNat s.mch.table ≠ x.serial :=
  ⟨sR id, {an with serial := 0x98}, by decide +kernel⟩
theorem test_met_ConnectionsAndPaths_FederationPaths_5 :
    ∃ (s : State) (_a : BitVec 6) (_p : Fin 4), tabWf { } s.rdm.paths = true :=
  ⟨sRl false, 9, 0, by decide +kernel⟩
theorem test_met_ConnectionsAndPaths_FederationPaths_6 :
    ∃ (s : State) (_p : Fin 4), tabWf { } s.rdm.paths = true :=
  ⟨sRl false, 2, by decide +kernel⟩
theorem test_met_RelaysBetweenChips_1 :
    ∃ (s : State) (a : ℕ) (id : ℕ) (tn : ℕ) (e : Word16) (target : Word16) (c : HostCmd) (data : Bytes), (Instr.relayReq a e target id tn c data).wf = true ∧ isolated s = false ∧ Current s a e ∧ genHigher s.peer.epoch target = false ∧ s.glb.service = Service.normal ∧ fedTenant s tn = true ∧ s.peer.role ≠ Role.service ∧ c.op = 136 ∧ bitOf c.d3C 30 = false ∧ bitOf c.d3C 31 = false ∧ cmdOf s s.hqe.nextCmd = none :=
  ⟨sF, 9, 30, 1, 7, 3, cQ, leBytes 8 0xAB, by unfold Current; decide +kernel⟩
theorem test_met_RelaysBetweenChips_2 :
    ∃ (s : State) (a : ℕ) (id : ℕ) (tn : ℕ) (e : Word16) (target : Word16) (c : HostCmd) (data : Bytes), (Instr.relayReq a e target id tn c data).wf = true ∧ isolated s = false ∧ (staleFrom s a e = true ∨ Current s a e ∧ genHigher s.peer.epoch target = true) :=
  ⟨sF, 9, 30, 1, 6, 3, cQ, leBytes 8 0xAB, by decide +kernel, by decide +kernel, by unfold Current; decide +kernel⟩
theorem test_met_RelaysBetweenChips_3 :
    ∃ (s : State) (id : ℕ) (r : Relay) (d : Cmd) (q : Qp) (e : Word16) (st : Word16) (part : Bool) (k : Word32) (_result : Word32) (_data : Bytes) (n : ℕ), relayOf s id = some r ∧ Outstanding s r.cmd d q ∧ isolated s = false ∧ Current s r.target e ∧ (n = if part = true ∧ st ≠ 0 ∧ 0 < BitVec.toNat k ∧ BitVec.toNat k < d.nblk then BitVec.toNat k else 0) :=
  ⟨sRl false, 30, rl false, dF, qI, 7, 0, false, 0, 5, zeros 16384, 0, by unfold Outstanding Current; decide +kernel⟩
theorem test_met_RelaysBetweenChips_4 :
    ∃ (s : State) (id : ℕ) (r : Relay) (d : Cmd) (q : Qp) (e : Word16) (_reason : Word16) (a : BitVec 6), relayOf s id = some r ∧ Outstanding s r.cmd d q ∧ isolated s = false ∧ Current s a.toNat e ∧ r.resent = true :=
  ⟨sRl true, 30, rl true, dF, qI, 7, 1, 9, by unfold Outstanding Current; decide +kernel⟩
theorem test_met_RelaysBetweenChips_5 :
    ∃ (s : State) (id : ℕ) (r : Relay) (d : Cmd) (q : Qp) (e : Word16) (_reason : Word16) (a : BitVec 6), relayOf s id = some r ∧ Outstanding s r.cmd d q ∧ isolated s = false ∧ Current s a.toNat e ∧ r.resent = false ∧ List.find? (fun x => x.cmd == r.cmd) s.rdm.relays = some r ∧ List.find? (fun x => x.id == id) s.rdm.relays = some r :=
  ⟨sRl false, 30, rl false, dF, qI, 7, 1, 9, by unfold Outstanding Current; decide +kernel⟩
theorem test_met_RelaysBetweenChips_6 :
    ∃ (s : State) (id : ℕ) (r : Relay) (d : Cmd) (q : Qp), relayOf s id = some r ∧ Outstanding s r.cmd d q :=
  ⟨sRl false, 30, rl false, dF, qI, by unfold Outstanding; decide +kernel⟩
theorem test_met_RelaysBetweenChips_7 :
    ∃ (s : State) (a : ℕ) (e : Word16) (id : ℕ) (g : ℕ) (_c : ℕ), isolated s = false ∧ canTag s federationKey = true ∧ Current s a e ∧ tenantOf s id = none ∧ s.hqe.tenants.length < 4096 ∧ id ∉ List.map (fun x => x.id) s.hqe.domains ∧ 2 * (sumG s + g) ≤ stagingLimit s ∧ s.sec.rng.st = RngState.seeded :=
  ⟨sF, 9, 7, 44, 5, 6, by unfold Current; decide +kernel⟩
theorem test_met_RelaysBetweenChips_8 :
    ∃ (s : State) (a : ℕ) (e : Word16) (id : ℕ) (x : Tenant), isolated s = false ∧ canTag s federationKey = true ∧ Current s a e ∧ tenantOf s id = some x ∧ x.relay = true ∧ tenantInUse s id = false :=
  ⟨wN5, 9, 7, 1, { id := 1, g := 100, c := 100, relay := true, shared := false, domain := 1 }, by unfold Current; decide +kernel⟩
end Sys2Proof.Tests.N

set_option Elab.async false

namespace Sys2Proof.Tests.O
set_option Elab.async false
open Sys2Proof Sys2Proof.Machine Sys2Proof.Tests

set_option maxHeartbeats 4000000
def bK (n : Nat) : Bytes := (List.range n).map fun i => BitVec.ofNat 8 (3*i+1)
def up : ChainPort := { link := 0, wrapped := false }
def rl (re : Bool) : Relay := { id := 30, cmd := 7, target := 9, resent := re, sent := true, epoch := 7, entry := cI 0x80 0 4 }
def dF : Cmd := { cmdW 7 kI 0x80 (.relayed 9) with nblk := 4, origin := .host }
def sM (r : ChainRole) : State := onHqe (fun x => {x with cmds := [dF], nextCmd := 20}) (onRdm (fun x => {x with relays := [rl true], links := [0,1], fedState := 1, paths := [(9, {state := 1, ports := [0], epoch := 7, serial := 0x99})]}) (onSec (fun x => {x with slots := [(0x1FF1, {type := typeCmac, state := .active, material := bK 32, idA := 77})]}) (onGlb (fun x => {x with unitSerial := 0x55}) (onMch (fun x => {x with port0 := up, port1 := up, role := r, gen := 5, addrValid := true, address := 4, table := [(4, 0x55), (9, 0x99)], groups := List.range 8, fedId := leBytes 5 77}) sH))))
def gM (f : Mch → Mch) (r : ChainRole) : State := onMch f (sM r)
def h1 : ChainHdr := { port := 0, hops := 3, src := 1, dst := 2, epoch := 7, origin := 0x99 }
def hO : ChainHdr := { h1 with origin := 0x55 }
def wP (f : ChainPort → ChainPort) (p : Nat) : State := gM (fun x => if p = 0 then {x with port0 := f x.port0} else {x with port1 := f x.port1}) .member
def wO1 : State := onGlb (fun x => {x with headId := true}) (sM .member)
theorem test_met_ChainPortsAndMaster_ChainPortsBreak_1 :
    ∃ (s : State) (p : Fin 2) (i : Instr), s.pins.chainDriven = true ∧ (i = Instr.chainLinkSilent p ∧ (chainPort s p).link ≠ 1 ∨ i = Instr.chainBreak p ∧ (chainPort s p).link = 0 ∨ ∃ u, i = Instr.chainBadFrame p u ∧ (chainPort s p).link ≠ 1 ∧ 15 ≤ (List.filter (fun x => decide (u < x + 1000)) (chainPort s p).bad).length) :=
  ⟨sM .member, 0, .chainLinkSilent 0, by decide +kernel, .inl ⟨rfl, by decide +kernel⟩⟩
theorem test_met_ChainPortsAndMaster_ChainPortsBreak_2 :
    ∃ (s : State) (p : Fin 2), s.pins.chainDriven = true ∧ (chainPort s p).link ≠ 0 :=
  ⟨wP (fun x => {x with link := 2, wrapped := true}) 1, 1, by decide +kernel⟩
theorem test_met_ChainPortsAndMaster_ChainPortsBreak_3 :
    ∃ (s : State) (p : Fin 2) (u : ℕ), s.pins.chainDriven = true ∧ (chainPort s p).link ≠ 1 ∧ (List.filter (fun x => decide (u < x + 1000)) (chainPort s p).bad).length < 15 :=
  ⟨wP (fun x => {x with bad := [50, 600, 1100] ++ List.replicate 13 1200, breaks := 4}) 0, 0, 1600, by decide +kernel⟩
theorem test_met_ChainPortsAndMaster_ChainPortsBreak_4 :
    ∃ (s : State) (p : Fin 2), s.pins.chainDriven = true ∧ (chainPort s p).link = 1 :=
  ⟨wP (fun x => {x with link := 1, wrapped := true}) 1, 1, by decide +kernel⟩
theorem test_met_ChainPortsAndMaster_ChainPortsBreak_5 :
    ∃ (s : State) (p : Fin 2), s.pins.chainDriven = true ∧ (chainPort s p).link = 2 ∧ (chainPort s p).gotOk = false :=
  ⟨wP (fun x => {x with link := 2, wrapped := true}) 0, 0, by decide +kernel⟩
theorem test_met_ChainPortsAndMaster_ChainPortsBreak_6 :
    ∃ (s : State) (p : Fin 2) (i : Instr), s.pins.chainDriven = true ∧ (chainPort s p).link = 2 ∧ (i = Instr.chainBreakTimer p ∧ (chainPort s p).gotOk = true ∨ i = Instr.chainLinkOk p ∧ (chainPort s p).sentOk = true) :=
  ⟨wP (fun x => {x with link := 2, wrapped := true, gotOk := true}) 0, 0, .chainBreakTimer 0, by decide +kernel, by decide +kernel, .inl ⟨rfl, by decide +kernel⟩⟩
theorem test_met_ChainPortsAndMaster_MasterAndTime_1 :
    ∃ (s : State) (h : ChainHdr) (_g : Word16) (_hd : Bool), OnChain s h ∧ s.mch.role = ChainRole.candidate ∧ h.origin = s.glb.unitSerial ∧ s.mch.gen ≠ 0 :=
  ⟨sM .candidate, hO, 5, false, by unfold OnChain; decide +kernel⟩
theorem test_met_ChainPortsAndMaster_MasterAndTime_2 :
    ∃ (s : State) (h : ChainHdr) (_g : Word16) (_hd : Bool), OnChain s h ∧ s.mch.role = ChainRole.candidate ∧ h.origin = s.glb.unitSerial ∧ s.mch.gen = 0 :=
  ⟨gM (fun x => {x with gen := 0}) .candidate, hO, 5, false, by unfold OnChain; decide +kernel⟩
theorem test_met_ChainPortsAndMaster_MasterAndTime_3 :
    ∃ (s : State) (h : ChainHdr) (_g : Word16) (_hd : Bool), OnChain s h ∧ s.mch.role = ChainRole.candidate ∧ h.origin ≠ s.glb.unitSerial :=
  ⟨sM .candidate, h1, 6, true, by unfold OnChain; decide +kernel⟩
theorem test_met_ChainPortsAndMaster_MasterAndTime_4 :
    ∃ (s : State) (h : ChainHdr) (_g : Word16) (_hd : Bool), OnChain s h ∧ s.mch.role ≠ ChainRole.candidate ∧ h.origin ≠ s.glb.unitSerial :=
  ⟨sM .member, h1, 5, false, by unfold OnChain; decide +kernel⟩
theorem test_met_ChainPortsAndMaster_MasterAndTime_5 :
    ∃ (s : State) (h : ChainHdr) (_g : Word16) (_hd : Bool) (_x : Word64) (_b : Bool), OnChain s h ∧ h.origin ≠ s.glb.unitSerial ∧ s.mch.role ≠ ChainRole.master :=
  ⟨sM .candidate, h1, 5, false, 0x1234567, true, by unfold OnChain; decide +kernel⟩
theorem test_met_ChainPortsAndMaster_MasterAndTime_6 :
    ∃ (s : State) (h : ChainHdr) (g : Word16) (hd : Bool) (_x : Word64) (_b : Bool), OnChain s h ∧ h.origin ≠ s.glb.unitSerial ∧ s.mch.role = ChainRole.master ∧ outranked s g hd h.origin = true :=
  ⟨sM .master, h1, 6, false, 0x1234567, true, by unfold OnChain; decide +kernel⟩
theorem test_met_ChainPortsAndMaster_MasterAndTime_7 :
    ∃ (s : State) (h : ChainHdr) (g : Word16) (hd : Bool) (_x : Word64) (b : Bool), OnChain s h ∧ h.origin ≠ s.glb.unitSerial ∧ s.mch.role = ChainRole.master ∧ outranked s g hd h.origin = false ∧ b = true :=
  ⟨sM .master, h1, 5, true, 0x1234567, true, by unfold OnChain; decide +kernel⟩
theorem test_met_ChainPortsAndMaster_MasterAndTime_8 :
    ∃ (s : State), pair2Up s = true ∧ s.mch.role = ChainRole.candidate ∧ chainOpen s :=
  ⟨sM .candidate, by unfold chainOpen; decide +kernel⟩
theorem test_met_ChainPortsAndMaster_MasterAndTime_9 :
    ∃ (s : State), pair2Up s = true ∧ s.mch.role ≠ ChainRole.master :=
  ⟨sM .candidate, by decide +kernel⟩
theorem test_met_ChainPortsAndMaster_MasterAndTime_10 :
    ∃ (s : State) (_x : Word64), pair2Up s = true ∧ s.mch.role = ChainRole.master ∧ chainOpen s :=
  ⟨sM .master, 0x777, by unfold chainOpen; decide +kernel⟩
theorem test_met_ChainPortsAndMaster_MasterAndTime_11 :
    ∃ (s : State), pair2Up s = true :=
  ⟨sM .member, by decide +kernel⟩
theorem test_met_ChainMembers_ChainEnumerates_1 :
    ∃ (s : State) (h : ChainHdr) (_n : Byte) (_lh : Bool) (_g : Word16) (f : Bytes) (_x : Word64), OnChain s h ∧ List.length f = 5 ∧ h.origin ≠ s.glb.unitSerial ∧ f = ownFedId s :=
  ⟨sM .member, h1, 6, true, 8, leBytes 5 77, 0x44, by unfold OnChain; decide +kernel⟩
theorem test_met_ChainMembers_ChainEnumerates_2 :
    ∃ (s : State) (h : ChainHdr) (_n : Byte) (_lh : Bool) (_g : Word16) (f : Bytes) (_x : Word64), OnChain s h ∧ List.length f = 5 ∧ h.origin ≠ s.glb.unitSerial ∧ f ≠ ownFedId s :=
  ⟨sM .member, h1, 6, true, 8, leBytes 5 78, 0x44, by unfold OnChain; decide +kernel⟩
theorem test_met_ChainMembers_ChainEnumerates_3 :
    ∃ (s : State) (h : ChainHdr) (_n : Byte) (_lh : Bool) (g : Word16) (f : Bytes) (_x : Word64), OnChain s h ∧ List.length f = 5 ∧ h.origin = s.glb.unitSerial ∧ s.mch.role = ChainRole.master ∧ s.mch.enumOut = true ∧ g = s.mch.gen :=
  ⟨gM (fun x => {x with enumOut := true}) .master, hO, 10, true, 5, leBytes 5 77, 0x44, by unfold OnChain; decide +kernel⟩
theorem test_met_ChainMembers_ChainEnumerates_4 :
    ∃ (s : State) (h : ChainHdr) (_g : Word16) (k : Fin 8) (_b : Byte) (f : Bytes) (l : List Word64), OnChain s h ∧ List.length f = 5 ∧ l.length = 8 ∧ h.origin ≠ s.glb.unitSerial ∧ s.mch.role ≠ ChainRole.master ∧ tabWf 0 s.mch.table = true ∧ (s.mch.groups.length ≠ 7 ∨ ↑k ∈ s.mch.groups) :=
  ⟨sM .member, h1, 5, 1, 0, leBytes 5 77, [1,0,2,0,3,4,5,6], by unfold OnChain; decide +kernel⟩
theorem test_met_ChainMembers_ChainEnumerates_5 :
    ∃ (s : State), pair2Up s = true ∧ s.mch.role = ChainRole.master ∧ chainOpen s ∧ s.mch.enumOut = true :=
  ⟨gM (fun x => {x with enumOut := true}) .master, by unfold chainOpen; decide +kernel⟩
theorem test_met_ChainMembers_ChainEnumerates_6 :
    ∃ (s : State), pair2Up s = true ∧ s.mch.role = ChainRole.master ∧ chainOpen s ∧ s.mch.enumOut = false :=
  ⟨sM .master, by unfold chainOpen; decide +kernel⟩
theorem test_met_ChainMembers_ChainEnumerates_7 :
    ∃ (s : State), pair2Up s = true ∧ s.mch.role = ChainRole.master ∧ chainOpen s ∧ s.mch.reenum = true :=
  ⟨gM (fun x => {x with reenum := true}) .master, by unfold chainOpen; decide +kernel⟩
theorem test_met_ChainMembers_ChainEnumerates_8 :
    ∃ (s : State) (h : ChainHdr) (_a : Byte) (_x : Word64) (_y : Word64), OnChain s h :=
  ⟨sM .master, h1, 4, 0x55, 0x99, by unfold OnChain; decide +kernel⟩
theorem test_met_ChainMembers_ChipsJoin_1 :
    ∃ (s : State) (h : ChainHdr) (hd : Bool) (x : Word64) (a : ℕ), OnChain s h ∧ h.origin ≠ s.glb.unitSerial ∧ s.mch.role = ChainRole.master ∧ s.mch.enumOut = false ∧ chainOpen s ∧ joinAddress s h.origin hd x = some a ∧ h.origin ≠ 0 :=
  ⟨sM .master, h1, false, 0, 9, by unfold OnChain chainOpen; decide +kernel⟩
theorem test_met_ChainMembers_ChipsJoin_2 :
    ∃ (s : State) (h : ChainHdr) (hd : Bool) (x : Word64), OnChain s h ∧ h.origin ≠ s.glb.unitSerial ∧ s.mch.role = ChainRole.master ∧ s.mch.enumOut = false ∧ chainOpen s ∧ joinAddress s h.origin hd x = none :=
  ⟨gM (fun x => {x with table := (List.range 64).map fun n => (n, BitVec.ofNat 64 (n+256))}) .master, {h1 with origin := 0x66}, true, 0x77, by unfold OnChain chainOpen; decide +kernel⟩
theorem test_met_ChainMembers_ChipsJoin_3 :
    ∃ (s : State), pair2Up s = true ∧ chainOpen s ∧ s.mch.joining = true :=
  ⟨gM (fun x => {x with joining := true}) .member, by unfold chainOpen; decide +kernel⟩
theorem test_met_ChainMembers_ChipsJoin_4 :
    ∃ (s : State), pair2Up s = true ∧ chainOpen s ∧ s.mch.addrValid = true :=
  ⟨sM .member, by unfold chainOpen; decide +kernel⟩
theorem test_met_ChainMembers_ChipsJoin_5 :
    ∃ (s : State) (h : ChainHdr) (a : Byte), OnChain s h ∧ s.mch.joining = true ∧ BitVec.toNat a ≤ 63 ∧ s.mch.fedId = ownFedId s :=
  ⟨gM (fun x => {x with joining := true, addrValid := false}) .member, h1, 10, by unfold OnChain; decide +kernel⟩
theorem test_met_ChainMembers_ChipsJoin_6 :
    ∃ (s : State) (h : ChainHdr) (a : Byte), OnChain s h ∧ s.mch.joining = true ∧ 63 < BitVec.toNat a :=
  ⟨gM (fun x => {x with joining := true, addrValid := false}) .member, h1, 0xFF, by unfold OnChain; decide +kernel⟩
theorem test_met_ChainMembers_ChipsJoin_7 :
    ∃ (s : State) (h : ChainHdr) (r : Bytes) (_x : Word64), s.pins.chainDriven = true ∧ (chainPort s h.port).wrapped = false ∧ onPass s h = true ∧ List.length r = 8 ∧ h.origin = s.glb.unitSerial :=
  ⟨sM .member, hO, bK 8, 7, by decide +kernel⟩
theorem test_met_ChainMembers_ChipsJoin_8 :
    ∃ (s : State) (h : ChainHdr) (r : Bytes) (_x : Word64), s.pins.chainDriven = true ∧ (chainPort s h.port).wrapped = false ∧ onPass s h = true ∧ List.length r = 8 ∧ h.origin ≠ s.glb.unitSerial :=
  ⟨sM .member, h1, zeros 8, 0x55, by decide +kernel⟩
theorem test_met_ChainMembers_ChipsJoin_9 :
    ∃ (s : State) (h : ChainHdr) (a : Byte) (_r : Role) (_v : Service) (e : Word16), OnChain s h ∧ h.origin ≠ s.glb.unitSerial ∧ (¬(s.mch.addrValid = true ∧ BitVec.toNat a / 2 = s.mch.address.toNat / 2)) ∧ e ≠ 0 ∧ ((pathOf s (BitVec.toNat a)).epoch = 0 ∨ genHigher e (pathOf s (BitVec.toNat a)).epoch = true) :=
  ⟨sM .member, h1, 9, .active, .normal, 8, by unfold OnChain; decide +kernel⟩
end Sys2Proof.Tests.O

set_option Elab.async false

namespace Sys2Proof.Tests.P
set_option Elab.async false
open Sys2Proof Sys2Proof.Machine Sys2Proof.Tests

set_option maxHeartbeats 4000000
def bK (n : Nat) : Bytes := (List.range n).map fun i => BitVec.ofNat 8 (3*i+1)
def onD (f : Drc → Drc) (s : State) : State := onDrc f s
def sD : State := onDrc (fun x => {x with ranks := 2, rdimms := 24, sizeGib := 64, nbands := 4, hyst := 3, bounds := [45, 60, 85]}) sH
def tl (a b : Option Int) : List (Option Int) := [a, b] ++ List.replicate 10 (some 30)
def bd (n : Nat) (s : State) : State := onDrc (fun x => {x with bands := [(0, n), (1, n)], missed := [(1, 2)]}) s
def rq : DramReq := { channel := 3, sub := 1, line := 1020, write := false, data := bK 64, ecc := 0, waitedUs := 1, copyElsewhere := false, cmd := some 7 }
def wr (n : Nat) : DramReq := { rq with write := true, line := n, cmd := none }
def qW (n : Nat) : DramQ := { writes := (List.range n).map fun i => { wr (10*i) with data := bK 64 } }
def sQ (q : DramQ) : State := onDrc (fun x => {x with queues := [(7, q)]}) sD
def dC : Cmd := { cmdW 7 kI 0x80 .reading with origin := .host }
def sDc : State := onHqe (fun x => {x with cmds := [dC], nextCmd := 20}) sD
def eSt : StEntry := { slot := 4, nsid := 1, lba := 4, gen := 2, st := .staged, mirrored := false, data := bK 4096, dealloc := false, cmd := 3, block := 0, tenant := some 1, tag := none, nblk := 1, order := 4, idle := true, aged := false, run := none, old := none }
def sSt (r : Role) : State := onPeer (fun x => {x with role := r, linkUp := true}) (onIng (fun x => {x with staging := [eSt]}) sD)
def ev0 : OfferedEvent := { blk := .mch, sev := .notice, code := 0x3201, payload := bK 12 }
def sE (f : Evr → Evr) : State := onEvr f (onEvr (fun x => {x with accepts := true, baseSet := true, head := 5000}) sH)
def er0 (n : Nat) : EvRec := { newRec .mch .notice (.listed 0x3201) [] (bK 12) s0 with seq := some n, pending := true }
def dOp : NorOp := ⟨false, slotAddr 4 2, (er0 4997).bytes ++ (er0 4998).bytes, true⟩
def er (n : Nat) (p : Bool) : EvRec := { newRec .mch .notice (.listed 0x3201) [] (bK 12) s0 with seq := some n, pending := p }
def wP1 : State := onDrc (fun x => {x with pageCe := List.replicate 7 (15, 0)}) sD
def wP2 : State := onDrc (fun x => {x with poisoned := [1020]}) sD
def wP3 : State := onDrc (fun x => {x with owed := [(13, 3)]}) sD
def wP4 : State := onDrc (fun x => {x with owed := [(13, 4)]}) sD
def wP5 : State := onDrc (fun x => {x with owed := [(13, 2)], queues := [(6, {openRows := [(32, 5), (31, 6), (64, 1)], drfm := [32]}), (7, {openRows := [(63, 9)]}), (9, {openRows := [(33, 4)]})]}) sD
def wP6 : State := onDrc (fun x => {x with scrubLine := 44}) sD
def wP7 : State := onDrc (fun x => {x with scrubLine := 64 * 2 ^ 24 - 1}) sD
def wP8 : State := onDrc (fun x => {x with scrubLine := 44, poisoned := [44]}) sD
def wP9 : State := onEvr (fun x => {x with held := List.replicate 4 (er 1 true)}) sH
def wP10 : State := onSvc (fun x => {x with authSecond := 4}) (sE id)
def wP11 : State := onEvr (fun x => {x with accepts := true, ring := [{er 0 true with seq := none}, {er 0 true with seq := none}]}) sH
def wP12 : State := onNor (cellsWrite norDefault ((er 777 true).bytes ++ (er 778 true).bytes) (slotAddr 3 0) (cellsWrite norDefault (sectorHeader 5 9) (sectorAddr 3) [])) (onEvr (fun x => {x with accepts := true, ring := [{er 0 true with seq := none}, {er 0 true with seq := none}]}) sH)
def wP13 : State := onNvc (fun x => {x with running := some dOp}) (onPins (fun x => {x with norRstLow := false}) (sE (fun x => {x with ring := [er 4997 true, er 4998 true, er 4999 true], inFlight := 2, sector := 4, slot := 2, sectorSeq := 9})))
def wP14 : State := onPins (fun x => {x with norRstLow := false}) (sE (fun x => {x with ring := [er 4997 true, er 4998 true, er 4999 true], sector := 4, slot := 2, sectorSeq := 9}))
theorem test_met_DramUpkeep_DramTemperature_1 :
    ∃ (s : State) (l : List (Option ℤ)) (c : ℕ) (x : ℤ), (Instr.dramTempReading l).wf = true ∧ s.pins.dramReady = true ∧ c < 12 ∧ tabWf 0 s.drc.temps = true ∧ tabWf 0 s.drc.missed = true ∧ tabWf 0 s.drc.bands = true ∧ l[c]? = some (some x) :=
  ⟨bd 2 sD, tl (some 61) none, 0, 61, by decide +kernel⟩
theorem test_met_DramUpkeep_DramTemperature_2 :
    ∃ (s : State) (l : List (Option ℤ)) (c : ℕ), (Instr.dramTempReading l).wf = true ∧ s.pins.dramReady = true ∧ c < 12 ∧ tabWf 0 s.drc.temps = true ∧ tabWf 0 s.drc.missed = true ∧ tabWf 0 s.drc.bands = true ∧ l[c]? = some none :=
  ⟨bd 1 sD, tl (some 99) none, 1, by decide +kernel⟩
theorem test_met_DramRequests_1 :
    ∃ (s : State) (r : DramReq) (q : DramQ), (Instr.dramRequest r).wf = true ∧ s.pins.dramReady = true ∧ s.drc.selfRef = false ∧ r.line < dramLines s ∧ (∀ i < 4, tabGet 0 (4 * ↑r.channel + i) s.drc.owed ≠ 4) ∧ tabWf { } s.drc.queues = true ∧ queueOf s (2 * ↑r.channel + ↑r.sub) = q ∧ q.reads = [] ∧ q.draining = false ∧ (∀ x ∈ q.writes, x.write = true) ∧ r.write = true ∧ q.writes.length < 47 :=
  ⟨sQ (qW 5), wr 60, qW 5, by decide +kernel⟩
theorem test_met_DramRequests_2 :
    ∃ (s : State) (r : DramReq) (q : DramQ), (Instr.dramRequest r).wf = true ∧ s.pins.dramReady = true ∧ s.drc.selfRef = false ∧ r.line < dramLines s ∧ (∀ i < 4, tabGet 0 (4 * ↑r.channel + i) s.drc.owed ≠ 4) ∧ tabWf { } s.drc.queues = true ∧ queueOf s (2 * ↑r.channel + ↑r.sub) = q ∧ q.reads = [] ∧ q.draining = false ∧ (∀ x ∈ q.writes, x.write = true) ∧ r.write = true ∧ q.writes.length = 47 :=
  ⟨sQ (qW 47), { wr 60 with channel := 3}, qW 47, by decide +kernel⟩
theorem test_met_DramRequests_3 :
    ∃ (s : State) (r : DramReq) (q : DramQ), (Instr.dramRequest r).wf = true ∧ s.pins.dramReady = true ∧ s.drc.selfRef = false ∧ r.line < dramLines s ∧ (∀ i < 4, tabGet 0 (4 * ↑r.channel + i) s.drc.owed ≠ 4) ∧ tabWf { } s.drc.queues = true ∧ queueOf s (2 * ↑r.channel + ↑r.sub) = q ∧ q.reads = [] ∧ q.draining = false ∧ (∀ x ∈ q.writes, x.write = true) ∧ r.write = false ∧ q.writes = [] ∧ r.ecc ≠ 2 ∧ r.line ∉ s.drc.poisoned :=
  ⟨sD, {rq with ecc := 1}, {}, by decide +kernel⟩
theorem test_met_DramRequests_4 :
    ∃ (s : State) (r : DramReq) (q : DramQ), (Instr.dramRequest r).wf = true ∧ s.pins.dramReady = true ∧ s.drc.selfRef = false ∧ r.line < dramLines s ∧ (∀ i < 4, tabGet 0 (4 * ↑r.channel + i) s.drc.owed ≠ 4) ∧ tabWf { } s.drc.queues = true ∧ queueOf s (2 * ↑r.channel + ↑r.sub) = q ∧ q.reads = [] ∧ q.draining = false ∧ (∀ x ∈ q.writes, x.write = true) ∧ r.write = false ∧ q.writes = [] ∧ (r.ecc = 2 ∨ r.line ∈ s.drc.poisoned) ∧ r.slot = none ∧ r.copyElsewhere = true :=
  ⟨sD, {rq with ecc := 2, copyElsewhere := true}, {}, by decide +kernel⟩
theorem test_met_DramRequests_5 :
    ∃ (s : State) (r : DramReq) (q : DramQ) (n : ℕ) (e : StEntry), (Instr.dramRequest r).wf = true ∧ s.pins.dramReady = true ∧ s.drc.selfRef = false ∧ r.line < dramLines s ∧ (∀ i < 4, tabGet 0 (4 * ↑r.channel + i) s.drc.owed ≠ 4) ∧ tabWf { } s.drc.queues = true ∧ queueOf s (2 * ↑r.channel + ↑r.sub) = q ∧ q.reads = [] ∧ q.draining = false ∧ (∀ x ∈ q.writes, x.write = true) ∧ r.write = false ∧ q.writes = [] ∧ (r.ecc = 2 ∨ r.line ∈ s.drc.poisoned) ∧ r.slot = some n ∧ List.find? (fun x => x.slot == n) s.ing.staging = some e ∧ s.peer.role = Role.active ∧ s.peer.linkUp = true ∧ e.st ≠ StState.filling :=
  ⟨sSt .active, {rq with ecc := 2, slot := some 4, copyElsewhere := true}, {}, 4, eSt, by first | rfl | decide +kernel, by first | rfl | decide +kernel, by first | rfl | decide +kernel, by first | rfl | decide +kernel, by first | rfl | decide +kernel, by first | rfl | decide +kernel, by first | rfl | decide +kernel, by first | rfl | decide +kernel, by first | rfl | decide +kernel, by first | rfl | decide +kernel, by first | rfl | decide +kernel, by first | rfl | decide +kernel, by first | rfl | decide +kernel, by first | rfl | decide +kernel, by first | rfl | decide +kernel, by first | rfl | decide +kernel, by first | rfl | decide +kernel, by first | rfl | decide +kernel⟩
theorem test_met_DramRequests_6 :
    ∃ (s : State) (r : DramReq) (q : DramQ) (n : ℕ) (e : StEntry), (Instr.dramRequest r).wf = true ∧ s.pins.dramReady = true ∧ s.drc.selfRef = false ∧ r.line < dramLines s ∧ (∀ i < 4, tabGet 0 (4 * ↑r.channel + i) s.drc.owed ≠ 4) ∧ tabWf { } s.drc.queues = true ∧ queueOf s (2 * ↑r.channel + ↑r.sub) = q ∧ q.reads = [] ∧ q.draining = false ∧ (∀ x ∈ q.writes, x.write = true) ∧ r.write = false ∧ q.writes = [] ∧ (r.ecc = 2 ∨ r.line ∈ s.drc.poisoned) ∧ r.slot = some n ∧ List.find? (fun x => x.slot == n) s.ing.staging = some e ∧ (s.peer.role ≠ Role.active ∨ s.peer.linkUp = false ∨ e.st = StState.filling) :=
  ⟨sSt .sole, {rq with ecc := 2, slot := some 4, cmd := none}, {}, 4, eSt, by first | rfl | decide +kernel, by first | rfl | decide +kernel, by first | rfl | decide +kernel, by first | rfl | decide +kernel, by first | rfl | decide +kernel, by first | rfl | decide +kernel, by first | rfl | decide +kernel, by first | rfl | decide +kernel, by first | rfl | decide +kernel, by first | rfl | decide +kernel, by first | rfl | decide +kernel, by first | rfl | decide +kernel, by first | rfl | decide +kernel, by first | rfl | decide +kernel, by first | rfl | decide +kernel, by first | rfl | decide +kernel⟩
theorem test_met_DramRequests_7 :
    ∃ (s : State) (r : DramReq) (q : DramQ) (id : ℕ) (d : Cmd) (p : Qp), (Instr.dramRequest r).wf = true ∧ s.pins.dramReady = true ∧ s.drc.selfRef = false ∧ r.line < dramLines s ∧ (∀ i < 4, tabGet 0 (4 * ↑r.channel + i) s.drc.owed ≠ 4) ∧ tabWf { } s.drc.queues = true ∧ queueOf s (2 * ↑r.channel + ↑r.sub) = q ∧ q.reads = [] ∧ q.draining = false ∧ (∀ x ∈ q.writes, x.write = true) ∧ r.write = false ∧ q.writes = [] ∧ (r.ecc = 2 ∨ r.line ∈ s.drc.poisoned) ∧ r.slot = none ∧ r.copyElsewhere = false ∧ r.cmd = some id ∧ Outstanding s id d p ∧ d.op ≠ 129 ∧ d.op ≠ 130 ∧ (r.block = none ∨ d.stage ≠ CmdStage.reading) :=
  ⟨sDc, {rq with ecc := 2}, {}, 7, dC, qI, by unfold Outstanding; decide +kernel⟩
theorem test_met_DramRequests_8 :
    ∃ (s : State) (r : DramReq) (q : DramQ) (id : ℕ) (d : Cmd) (p : Qp) (b : ℕ), (Instr.dramRequest r).wf = true ∧ s.pins.dramReady = true ∧ s.drc.selfRef = false ∧ r.line < dramLines s ∧ (∀ i < 4, tabGet 0 (4 * ↑r.channel + i) s.drc.owed ≠ 4) ∧ tabWf { } s.drc.queues = true ∧ queueOf s (2 * ↑r.channel + ↑r.sub) = q ∧ q.reads = [] ∧ q.draining = false ∧ (∀ x ∈ q.writes, x.write = true) ∧ r.write = false ∧ q.writes = [] ∧ (r.ecc = 2 ∨ r.line ∈ s.drc.poisoned) ∧ r.slot = none ∧ r.copyElsewhere = false ∧ r.cmd = some id ∧ Outstanding s id d p ∧ r.block = some b ∧ d.stage = CmdStage.reading ∧ b < d.nblk ∧ d.id = id :=
  ⟨sDc, {rq with ecc := 2, block := some 0}, {}, 7, dC, qI, 0, by unfold Outstanding; decide +kernel⟩
theorem test_met_DramUpkeep_RefreshAndScrub_1 :
    ∃ (s : State) (c : Fin 12) (r : Fin 4) (w : Bool) (n : ℕ), s.pins.dramReady = true ∧ s.drc.selfRef = false ∧ rankPresent s ↑r = true ∧ tabGet 0 (4 * ↑c + ↑r) s.drc.owed = n ∧ tabWf 0 s.drc.owed = true ∧ tabWf { } s.drc.queues = true ∧ w = true ∧ n < 4 :=
  ⟨wP3, 3, 1, true, 3, by decide +kernel⟩
theorem test_met_DramUpkeep_RefreshAndScrub_2 :
    ∃ (s : State) (c : Fin 12) (r : Fin 4) (w : Bool) (n : ℕ), s.pins.dramReady = true ∧ s.drc.selfRef = false ∧ rankPresent s ↑r = true ∧ tabGet 0 (4 * ↑c + ↑r) s.drc.owed = n ∧ tabWf 0 s.drc.owed = true ∧ tabWf { } s.drc.queues = true ∧ (w = false ∨ 4 ≤ n) :=
  ⟨wP4, 3, 1, true, 4, by decide +kernel⟩
theorem test_met_DramUpkeep_RefreshAndScrub_3 :
    ∃ (s : State) (_e : Fin 3), s.pins.dramReady = true ∧ s.drc.selfRef = false ∧ s.pins.pwrFail = false ∧ asleep s = false ∧ s.drc.scrubLine < dramLines s :=
  ⟨wP6, 1, by decide +kernel⟩
theorem test_met_EventRecorder_RecordsEnter_1 :
    ∃ (s : State) (e : OfferedEvent) (r : EvRec), (Instr.eventOffered e).wf = true ∧ newRec e.blk e.sev (EvCode.listed e.code) [] e.payload s = r ∧ s.evr.accepts = false :=
  ⟨sH, ev0, newRec ev0.blk ev0.sev (.listed ev0.code) [] ev0.payload sH, by decide +kernel⟩
theorem test_met_EventRecorder_RecordsEnter_2 :
    ∃ (s : State) (e : OfferedEvent) (r : EvRec), (Instr.eventOffered e).wf = true ∧ newRec e.blk e.sev (EvCode.listed e.code) [] e.payload s = r ∧ s.evr.accepts = true ∧ secondLimit s.evr e.sev ≠ 0 ∧ secondLimit s.evr e.sev ≤ pairCount s.evr e.blk (EvCode.listed e.code) ∧ s.evr.lost.isZero = true :=
  ⟨sE (fun x => {x with counts := [(.mch, .listed 0x3201, 64)]}), ev0, newRec ev0.blk ev0.sev (.listed ev0.code) [] ev0.payload sH, by decide +kernel⟩
theorem test_met_EventRecorder_RecordsEnter_3 :
    ∃ (s : State) (e : OfferedEvent) (r : EvRec), (Instr.eventOffered e).wf = true ∧ newRec e.blk e.sev (EvCode.listed e.code) [] e.payload s = r ∧ s.evr.accepts = true ∧ s.evr.baseSet = true ∧ (secondLimit s.evr e.sev = 0 ∨ pairCount s.evr e.blk (EvCode.listed e.code) < secondLimit s.evr e.sev) ∧ pendingCount s.evr.ring < ringLimit e.sev ∧ s.evr.lost.isZero = true :=
  ⟨sE (fun x => {x with counts := [(.mch, .listed 0x3201, 63)]}), ev0, newRec ev0.blk ev0.sev (.listed ev0.code) [] ev0.payload sH, by decide +kernel⟩
theorem test_met_EventRecorder_RecordsEnter_4 :
    ∃ (s : State) (e : OfferedEvent) (r : EvRec), (Instr.eventOffered e).wf = true ∧ newRec e.blk e.sev (EvCode.listed e.code) [] e.payload s = r ∧ s.evr.accepts = true ∧ s.evr.baseSet = true ∧ (secondLimit s.evr e.sev = 0 ∨ pairCount s.evr e.blk (EvCode.listed e.code) < secondLimit s.evr e.sev) ∧ ringLimit e.sev ≤ pendingCount s.evr.ring :=
  ⟨sE (fun x => {x with ring := (List.range 896).map (fun n => er (4000+n) true)}), ev0, newRec ev0.blk ev0.sev (.listed ev0.code) [] ev0.payload sH, by decide +kernel⟩
theorem test_met_EventRecorder_RecordsAreKept_1 :
    ∃ (s : State), s.evr.baseSet = true ∧ pendingCount s.evr.ring + s.evr.suppr.length ≤ 768 ∧ s.svc.authSecond = 0 :=
  ⟨sE (fun x => {x with supSecond := 17, suppr := [(.mch, .listed 0x3201, .notice, 5), (.hqe, .listed 0x3101, .info, 6)], counts := [(.mch, .listed 0x3201, 64)]}), by decide +kernel⟩
theorem test_met_EventRecorder_RecordsAreKept_2 :
    ∃ (s : State), s.svc.authSecond ≠ 0 :=
  ⟨wP10, by decide +kernel⟩
theorem test_met_EventRecorder_RecordsAreKept_3 :
    ∃ (s : State), s.evr.baseSet = true :=
  ⟨sE id, by decide +kernel⟩
theorem test_met_EventRecorder_RecordsAreKept_4 :
    ∃ (s : State), s.evr.baseSet = false ∧ s.evr.accepts = true ∧ s.pins.coresOut = true ∧ badSlots s = [] ∧ s.evr.ring.length ≤ 1022 :=
  ⟨wP11, by decide +kernel⟩
theorem test_met_EventRecorder_RecordsAreKept_5 :
    ∃ (s : State) (o : NorOp), s.nvc.running = some o ∧ o.drain = true ∧ o.erase = false ∧ 0 < s.evr.inFlight ∧ s.evr.inFlight ≤ (pendingRecs s.evr).length ∧ o.addr = slotAddr s.evr.sector s.evr.slot ∧ o.data = List.flatMap EvRec.bytes (List.take s.evr.inFlight (pendingRecs s.evr)) ∧ s.evr.lost.isZero = true ∧ 3 ≤ (erasedSectors s).length ∧ Memory.wf norDefault s.nor = true ∧ norOpen s = true :=
  ⟨wP13, dOp, by decide +kernel⟩
theorem test_met_EventRecorder_RecordsAreKept_6 :
    ∃ (s : State), s.nvc.running = none ∧ s.nvc.suspended = none ∧ s.nvc.reads = [] ∧ drainAllowed s = true ∧ s.evr.inFlight = 0 ∧ pendingRecs s.evr ≠ [] ∧ 0 < s.evr.sectorSeq ∧ s.evr.slot < 960 ∧ (∀ (a : ℕ), slotAddr s.evr.sector s.evr.slot ≤ a → a < slotAddr s.evr.sector s.evr.slot + 256 → cellRead norDefault s.nor a = 255) ∧ s.evr.lost.isZero = true ∧ 3 ≤ (erasedSectors s).length ∧ Memory.wf norDefault s.nor = true :=
  ⟨wP14, by decide +kernel⟩
theorem test_met_EventRecorder_RecordsAreKept_7 :
    ∃ (s : State) (p : Fin 2) (u : Word32) (n : ℕ), n = BitVec.toNat u * 2 ^ 32 + BitVec.toNat (rdChan s.evr p).low :=
  ⟨sE (fun x => {x with ring := [er 4997 true, er 4998 true, er 4999 true], rd1 := {low := 4998}}), 1, 0, 4998, by decide +kernel⟩
end Sys2Proof.Tests.P

set_option Elab.async false

namespace Sys2Proof.Tests.P2
set_option Elab.async false
open Sys2Proof Sys2Proof.Machine Sys2Proof.Tests

set_option maxHeartbeats 4000000
def bK (n : Nat) : Bytes := (List.range n).map fun i => BitVec.ofNat 8 (3*i+1)
def svKey : Slot := { type := typeCmac, state := .active, material := bK 32, idA := 77 }
def sV (v : Service) : State := onNvc (fun x => {x with halted := false}) (onSvc (fun x => {x with nonce := bK 8, keyedSeq := some 9, authFail := 3}) (onSec (fun x => {x with slots := [(0x1FF3, svKey)], rng := {x.rng with st := .seeded}}) (onGlb (fun x => {x with powered := true, resetHeld := false, service := v}) sH)))
def fr (ty : Byte) (p : Bytes) : DwFrame := { type := ty, flags := 0, seq := 12, payload := p, tag := [], good := true }
def sAns : State := onSvc (fun x => {x with stored := some (12, 3, 0x31, bK 4)}) (sV .normal)
def noV (s : State) : State := onSec (fun x => {x with vault := {x.vault with out := true}}) s
def u : State := sV .normal
def r : State := sV .romService
def pf (n : Nat) : Bytes := leBytes 8 n
def dn : List Host.Cell := (List.range 40).map fun i => (0x03100000 + i, if i = 7 ∨ i = 25 then 0 else 1)
def un : State := onNor dn u
def uS : State := onSvc (fun x => {x with stage := 1, stageBankB := true, stageLen := 1000}) un
def aS : State := onSvc (fun x => {x with stage := 2, stageBankB := true, stagedOk := true, stageLen := 1000}) un
def rsP : Bytes := [0, 3, 1, 0] ++ leBytes 12 0xFF
def lR : Layout := { id := 9, d := 3, q := true, elig := List.range 8 }
def uR : State := onTil (fun x => {x with readFloor := (List.range 8).map fun n => (n, 1)}) <| onPar (fun x => {x with nextLay := 9, nextJob := 4}) (onFar (fun x => {x with lanes := (List.range 8).map fun n => (n, {st := .held})}) (onMed (fun x => {x with segs := [{ no := 1, st := .dirty, stream := ⟨0, true⟩, slc := false, d := 4, q := true, layout := 1, members := [], missing := [], stripes := 5, capacity := 192, verified := [], erases := 3, writtenAt := 0, closedAt := 0, readers := 0, retired := 0, oldVer := false }]}) u))
def uE : State := onSec (fun x => {x with slots := []}) u
def ksP (n m : Nat) (b : Bytes) : Bytes := leBytes 2 n ++ [BitVec.ofNat 8 m, 0] ++ leBytes 2 b.length ++ b
def wP21 : State := onSvc (fun x => {x with busy := some (12, 0x13)}) u
def wP22 : State := onPins (fun x => {x with listening := true}) (sV .startUp)
def wP23 : State := onNor dn r
def wP24 : State := onPeer (fun x => {x with role := .active}) aS
def wP25 : State := onSvc (fun x => {x with profile := bK 10}) u
def wP26 : State := onSvc (fun x => {x with profile := bK 100}) u
def wP27 : State := onNor [(profileAddr 2 + 9, 1), (profileAddr 2 + 900, 1), (profileAddr 3, 1)] u
def wP28 : State := onEvr (fun x => {x with ring := (List.range 5).map fun n => { newRec .mch .notice (.listed 0x3201) [] (bK 12) s0 with seq := some (50 - n), pending := true }}) u
def wP29 : State := onEvr (fun x => {x with ring := (List.range 5).map fun n => { newRec .mch .notice (.listed 0x3201) [] (bK 12) s0 with seq := some (50 - n), pending := true }}) r
def wP210 : State := onDram [(256*13+5, 1), (256*14+5, 2)] r
def wP211 : State := onMch (fun x => {x with role := .master, gen := 65535}) u
def wP212 : State := onPeer (fun x => {x with role := .service}) uR
def wP213 : State := onFar (fun x => {x with lanes := []}) uR
def wP214 : State := onGlb (fun x => {x with debugOff := true}) u
def wP215 : State := onPeer (fun x => {x with role := .service}) u
def wP216 : State := onPeer (fun x => {x with role := .active}) u
def wP217 : State := onGlb (fun x => {x with debugOff := true}) (sV .test)
theorem test_met_FramesAreAnswered_1 :
    ∃ (s : State) (f : DwFrame) (i : Instr) (l : List Service) (k : Bool), SvcCommand f i l k ∧ i.wf = true ∧ portHears s f = false :=
  ⟨u, {fr 3 (bK 2) with good := false}, .profileSelect {fr 3 (bK 2) with good := false}, [.romService, .normal, .recovery, .test], true, .inl ⟨.inr (.inl rfl), rfl, rfl⟩, by decide +kernel, by decide +kernel⟩
theorem test_met_FramesAreAnswered_2 :
    ∃ (s : State) (f : DwFrame) (i : Instr) (l : List Service) (k : Bool) (y : Byte) (st : Word16) (p : Bytes), SvcCommand f i l k ∧ i.wf = true ∧ portHears s f = true ∧ s.svc.stored = some (f.seq, y, st, p) :=
  ⟨sAns, fr 3 (bK 2), .profileSelect (fr 3 (bK 2)), [.romService, .normal, .recovery, .test], true, 3, 0x31, bK 4, .inl ⟨.inr (.inl rfl), rfl, rfl⟩, by decide +kernel, by decide +kernel, by decide +kernel⟩
theorem test_met_FramesAreAnswered_3 :
    ∃ (s : State) (f : DwFrame) (i : Instr) (l : List Service) (k : Bool), SvcCommand f i l k ∧ i.wf = true ∧ portHears s f = true ∧ Fresh s f ∧ s.glb.service ∉ l :=
  ⟨(sV .startUp), fr 3 (bK 2), .profileSelect (fr 3 (bK 2)), [.romService, .normal, .recovery, .test], true, .inl ⟨.inr (.inl rfl), rfl, rfl⟩, by decide +kernel, by decide +kernel, by decide +kernel, by decide +kernel⟩
theorem test_met_FramesAreAnswered_4 :
    ∃ (s : State) (f : DwFrame) (i : Instr) (l : List Service) (k : Bool), SvcCommand f i l k ∧ i.wf = true ∧ portHears s f = true ∧ Fresh s f ∧ s.glb.service ∈ l ∧ s.glb.service ≠ Service.romService ∧ keyedFrame f = true ∧ s.sec.vault.out = true :=
  ⟨(noV u), kf u (fr 0x28 (bK 2)), .keyset (kf u (fr 0x28 (bK 2))), [.normal, .recovery], true, .inr (.inr (.inl ⟨rfl, rfl, rfl⟩)), by decide +kernel, by decide +kernel, by decide +kernel, by decide +kernel, by decide +kernel, by decide +kernel, by decide +kernel⟩
theorem test_met_FramesAreAnswered_5 :
    ∃ (s : State) (f : DwFrame) (i : Instr) (l : List Service) (k : Bool), SvcCommand f i l k ∧ i.wf = true ∧ portHears s f = true ∧ Fresh s f ∧ s.glb.service ∈ l ∧ s.glb.service ≠ Service.romService ∧ (keyedFrame f = true ∧ s.sec.vault.out = false ∧ keyPasses s f = false ∨ keyedFrame f = false ∧ k = true ∧ (i = Instr.keyset f → firstEnrolment s f = false)) :=
  ⟨u, fr 0x28 (bK 2), .keyset (fr 0x28 (bK 2)), [.normal, .recovery], true, .inr (.inr (.inl ⟨rfl, rfl, rfl⟩)), by decide +kernel, by decide +kernel, by decide +kernel, by decide +kernel, by decide +kernel, .inr ⟨by decide +kernel, rfl, fun _ => by decide +kernel⟩⟩
theorem test_met_FramesAreAnswered_6 :
    ∃ (s : State) (f : DwFrame) (i : Instr) (l : List Service) (k : Bool) (y : Byte), SvcCommand f i l k ∧ i.wf = true ∧ portHears s f = true ∧ s.svc.busy = some (f.seq, y) ∧ Option.map (fun x => x.1) s.svc.stored ≠ some f.seq :=
  ⟨wP21, fr 3 (bK 2), .profileSelect (fr 3 (bK 2)), [.romService, .normal, .recovery, .test], true, 0x13, .inl ⟨.inr (.inl rfl), rfl, rfl⟩, by decide +kernel, by decide +kernel, by decide +kernel, by decide +kernel⟩
theorem test_met_FramesAreAnswered_7 :
    ∃ (s : State) (f : DwFrame), (Instr.dweunoUnlistedFrame f).wf = true ∧ portHears s f = true ∧ Fresh s f :=
  ⟨u, fr 0x55 [], by decide +kernel⟩
theorem test_met_FramesAreAnswered_8 :
    ∃ (s : State) (f : DwFrame), (Instr.dweunoHello f).wf = true ∧ portHears s f = true ∧ Fresh s f ∧ s.glb.service ≠ Service.startUp ∧ (keyedFrame f = false ∨ Asked s f) :=
  ⟨u, fr 1 [], by decide +kernel, by decide +kernel, by decide +kernel, by decide +kernel, .inl rfl⟩
theorem test_met_FramesAreAnswered_9 :
    ∃ (s : State) (f : DwFrame), (Instr.dweunoHello f).wf = true ∧ portHears s f = true ∧ Fresh s f ∧ s.glb.service = Service.startUp ∧ bitOf (BitVec.toNat f.flags) 7 = true ∧ s.pins.listening = true :=
  ⟨wP22, {fr 1 [] with flags := 0x80}, by decide +kernel⟩
theorem test_met_FramesAreAnswered_10 :
    ∃ (s : State) (f : DwFrame), (Instr.dweunoHello f).wf = true ∧ portHears s f = true ∧ Fresh s f ∧ s.glb.service = Service.startUp ∧ (bitOf (BitVec.toNat f.flags) 7 = false ∨ s.pins.listening = false) :=
  ⟨sV .startUp, {fr 1 [] with flags := 0x80}, by decide +kernel⟩
theorem test_met_FramesAreAnswered_11 :
    ∃ (s : State) (_b : Bool), s.glb.powered = true ∧ s.glb.resetHeld = false :=
  ⟨u, true, by decide +kernel⟩
theorem test_met_FirmwareAndProfiles_FirmwareIsStaged_1 :
    ∃ (s : State) (f : DwFrame) (b : Bool), Asked s f ∧ (s.glb.service = Service.romService ∨ s.glb.service = Service.normal) ∧ s.nvc.halted = false ∧ (Instr.stageBegin f).wf = true ∧ s.svc.stage ≠ 3 ∧ List.length f.payload = 8 ∧ (numAt f.payload 0 1 = if b = true then 1 else 0) ∧ numAt f.payload 4 4 ≤ bankSize ∧ (s.glb.service = Service.romService ∨ b ≠ s.glb.bankB) :=
  ⟨un, kf u (fr 0x10 (leBytes 4 1 ++ leBytes 4 1000)), true, asked_kf _ _ (by decide +kernel) rfl rfl rfl (by decide +kernel), by decide +kernel⟩
theorem test_met_FirmwareAndProfiles_FirmwareIsStaged_2 :
    ∃ (s : State) (f : DwFrame) (a : ℕ), Asked s f ∧ (s.glb.service = Service.romService ∨ s.glb.service = Service.normal) ∧ s.nvc.halted = false ∧ (Instr.stageData f).wf = true ∧ s.svc.stage = 1 ∧ 4 ≤ List.length f.payload ∧ numAt f.payload 0 4 + (List.length f.payload - 4) ≤ s.svc.stageLen ∧ a = bankAddr s.svc.stageBankB + numAt f.payload 0 4 ∧ wouldSet (List.drop 4 f.payload) (norRead s a (List.length f.payload - 4)) = false ∧ Memory.wf norDefault s.nor = true :=
  ⟨uS, kf u (fr 0x11 (leBytes 4 100 ++ bK 20)), 0x03100000 + 100, asked_kf _ _ (by decide +kernel) rfl rfl rfl (by decide +kernel), by decide +kernel⟩
theorem test_met_FirmwareAndProfiles_FirmwareIsStaged_3 :
    ∃ (s : State) (f : DwFrame) (a : ℕ), Asked s f ∧ (s.glb.service = Service.romService ∨ s.glb.service = Service.normal) ∧ s.nvc.halted = false ∧ (Instr.stageData f).wf = true ∧ s.svc.stage = 1 ∧ 4 ≤ List.length f.payload ∧ numAt f.payload 0 4 + (List.length f.payload - 4) ≤ s.svc.stageLen ∧ a = bankAddr s.svc.stageBankB + numAt f.payload 0 4 ∧ wouldSet (List.drop 4 f.payload) (norRead s a (List.length f.payload - 4)) = true :=
  ⟨uS, kf u (fr 0x11 (leBytes 4 1 ++ bK 20)), 0x03100000 + 1, asked_kf _ _ (by decide +kernel) rfl rfl rfl (by decide +kernel), by decide +kernel⟩
theorem test_met_FirmwareAndProfiles_FirmwareIsStaged_4 :
    ∃ (s : State) (f : DwFrame) (d : ℕ), Asked s f ∧ (s.glb.service = Service.romService ∨ s.glb.service = Service.normal) ∧ s.nvc.halted = false ∧ (Instr.stageEnd f).wf = true ∧ s.svc.stage = 1 ∧ d = bankCheck (setUnfinished s.svc.stageBankB false s) s.svc.stageBankB ∧ d ≠ 0 :=
  ⟨uS, kf u (fr 0x12 []), bankCheck (setUnfinished true false uS) true, asked_kf _ _ (by decide +kernel) rfl rfl rfl (by decide +kernel), by decide +kernel⟩
theorem test_met_FirmwareAndProfiles_FirmwareIsStaged_5 :
    ∃ (s : State) (f : DwFrame) (n : ℕ) (m : ℕ), Asked s f ∧ (s.glb.service = Service.romService ∨ s.glb.service = Service.normal) ∧ s.nvc.halted = false ∧ (Instr.activate f).wf = true ∧ s.svc.stage ≠ 1 ∧ s.svc.stage ≠ 3 ∧ s.svc.stagedOk = true ∧ s.peer.pair0.inReset = false ∧ f.payload = [BitVec.ofNat 8 n] ∧ n < 8 ∧ (m = (if s.glb.ovrValid = true then s.glb.ovrSel else s.glb.pinSel).toNat) ∧ (n = 4 ∨ n = 5) ∧ bankCheck s s.svc.stageBankB ≠ 0 :=
  ⟨aS, kf u (fr 0x13 [5]), 5, 0, asked_kf _ _ (by decide +kernel) rfl rfl rfl (by decide +kernel), by decide +kernel⟩
theorem test_met_FirmwareAndProfiles_FirmwareIsStaged_6 :
    ∃ (s : State) (f : DwFrame) (n : ℕ) (m : ℕ), Asked s f ∧ (s.glb.service = Service.romService ∨ s.glb.service = Service.normal) ∧ s.nvc.halted = false ∧ (Instr.activate f).wf = true ∧ s.svc.stage ≠ 1 ∧ s.svc.stage ≠ 3 ∧ s.svc.stagedOk = true ∧ s.peer.pair0.inReset = false ∧ f.payload = [BitVec.ofNat 8 n] ∧ n < 8 ∧ (m = (if s.glb.ovrValid = true then s.glb.ovrSel else s.glb.pinSel).toNat) ∧ ((n = 0 ∨ n = 1) ∧ settingMask s s.svc.stageBankB m ≠ 0 ∨ n = 2 ∨ n = 6 ∨ (n = 3 ∨ n = 7) ∧ mayHandOver s = false) :=
  ⟨aS, kf u (fr 0x13 [2]), 2, 0, asked_kf _ _ (by decide +kernel) rfl rfl rfl (by decide +kernel), by decide +kernel⟩
theorem test_met_FirmwareAndProfiles_ProfilesAreKept_1 :
    ∃ (s : State) (f : DwFrame), Asked s f ∧ s.glb.service ≠ Service.startUp ∧ (Instr.profileSelect f).wf = true ∧ List.length f.payload = 2 ∧ numAt f.payload 0 1 ≤ 3 ∧ numAt f.payload 1 1 = 0 :=
  ⟨u, kf u (fr 3 [2, 0]), asked_kf _ _ (by decide +kernel) rfl rfl rfl (by decide +kernel), by decide +kernel⟩
theorem test_met_FirmwareAndProfiles_ProfilesAreKept_2 :
    ∃ (s : State) (f : DwFrame), Asked s f ∧ s.glb.service ≠ Service.startUp ∧ (Instr.profileSelect f).wf = true ∧ List.length f.payload = 2 ∧ numAt f.payload 0 1 ≤ 3 ∧ numAt f.payload 1 1 = 1 :=
  ⟨u, kf u (fr 3 [2, 1]), asked_kf _ _ (by decide +kernel) rfl rfl rfl (by decide +kernel), by decide +kernel⟩
theorem test_met_FirmwareAndProfiles_ProfilesAreKept_3 :
    ∃ (s : State) (f : DwFrame), Asked s f ∧ s.glb.service ≠ Service.startUp ∧ (Instr.profileSelect f).wf = true ∧ List.length f.payload = 2 ∧ numAt f.payload 0 1 ≤ 3 ∧ 1 < numAt f.payload 1 1 :=
  ⟨u, kf u (fr 3 [2, 2]), asked_kf _ _ (by decide +kernel) rfl rfl rfl (by decide +kernel), by decide +kernel⟩
theorem test_met_FirmwareAndProfiles_ProfilesAreKept_4 :
    ∃ (s : State) (f : DwFrame) (d : Bytes), Asked s f ∧ s.glb.service ≠ Service.startUp ∧ (Instr.profileWrite f).wf = true ∧ 8 ≤ List.length f.payload ∧ List.drop 8 f.payload = d ∧ numAt f.payload 0 1 ≤ 3 ∧ numAt f.payload 4 4 + List.length d ≤ 65536 ∧ (s.svc.stage = 1 ∨ s.svc.stage = 3) :=
  ⟨uS, kf u (fr 4 (leBytes 8 1 ++ bK 20)), bK 20, asked_kf _ _ (by decide +kernel) rfl rfl rfl (by decide +kernel), by decide +kernel⟩
theorem test_met_FirmwareAndProfiles_ProfilesAreKept_5 :
    ∃ (s : State) (f : DwFrame) (d : Bytes), Asked s f ∧ s.glb.service ≠ Service.startUp ∧ (Instr.profileWrite f).wf = true ∧ 8 ≤ List.length f.payload ∧ List.drop 8 f.payload = d ∧ numAt f.payload 0 1 ≤ 3 ∧ numAt f.payload 4 4 + List.length d ≤ 65536 ∧ s.svc.stage ≠ 1 ∧ s.svc.stage ≠ 3 ∧ numAt f.payload 1 1 = 0 :=
  ⟨wP25, kf u (fr 4 (leBytes 4 1 ++ leBytes 4 30 ++ bK 20)), bK 20, asked_kf _ _ (by decide +kernel) rfl rfl rfl (by decide +kernel), by decide +kernel⟩
theorem test_met_FirmwareAndProfiles_ProfilesAreKept_6 :
    ∃ (s : State) (f : DwFrame) (d : Bytes), Asked s f ∧ s.glb.service ≠ Service.startUp ∧ (Instr.profileWrite f).wf = true ∧ 8 ≤ List.length f.payload ∧ List.drop 8 f.payload = d ∧ numAt f.payload 0 1 ≤ 3 ∧ numAt f.payload 4 4 + List.length d ≤ 65536 ∧ s.svc.stage ≠ 1 ∧ s.svc.stage ≠ 3 ∧ numAt f.payload 1 1 = 1 ∧ s.svc.profile = [] ∧ numAt f.payload 4 4 = 0 ∧ s.nvc.halted = false ∧ (checkProfile (padTo 65536 d) (numAt f.payload 0 1)).isSome = true :=
  ⟨wP27, kf u (fr 4 (leBytes 1 2 ++ [1] ++ leBytes 6 0 ++ wProfile 2 [])), wProfile 2 [], asked_kf _ _ (by decide +kernel) rfl rfl rfl (by decide +kernel), by decide +kernel⟩
theorem test_met_FirmwareAndProfiles_ProfilesAreKept_7 :
    ∃ (s : State) (f : DwFrame) (d : Bytes), Asked s f ∧ s.glb.service ≠ Service.startUp ∧ (Instr.profileWrite f).wf = true ∧ 8 ≤ List.length f.payload ∧ List.drop 8 f.payload = d ∧ numAt f.payload 0 1 ≤ 3 ∧ numAt f.payload 4 4 + List.length d ≤ 65536 ∧ s.svc.stage ≠ 1 ∧ s.svc.stage ≠ 3 ∧ numAt f.payload 1 1 = 1 ∧ s.svc.profile = [] ∧ numAt f.payload 4 4 = 0 ∧ s.nvc.halted = false ∧ checkProfile (padTo 65536 d) (numAt f.payload 0 1) = none :=
  ⟨u, kf u (fr 4 (leBytes 1 2 ++ [1] ++ leBytes 6 0 ++ wProfile 1 [])), wProfile 1 [], asked_kf _ _ (by decide +kernel) rfl rfl rfl (by decide +kernel), by decide +kernel⟩
theorem test_met_ServiceRequests_1 :
    ∃ (s : State) (f : DwFrame), Asked s f ∧ s.glb.service ≠ Service.startUp ∧ (Instr.svcReset f).wf = true :=
  ⟨u, kf u (fr 2 []), asked_kf _ _ (by decide +kernel) rfl rfl rfl (by decide +kernel), by decide +kernel⟩
theorem test_met_ServiceRequests_2 :
    ∃ (s : State) (f : DwFrame) (media : List Bytes), Asked s f ∧ s.glb.service ≠ Service.startUp ∧ (Instr.eventRead f media).wf = true ∧ List.length f.payload = 11 ∧ 1 ≤ numAt f.payload 8 2 ∧ numAt f.payload 8 2 ≤ 63 ∧ numAt f.payload 10 1 = 0 :=
  ⟨wP28, kf u (fr 0x20 (leBytes 8 47 ++ leBytes 2 3 ++ [0])), [], asked_kf _ _ (by decide +kernel) rfl rfl rfl (by decide +kernel), by decide +kernel⟩
theorem test_met_ServiceRequests_3 :
    ∃ (s : State) (f : DwFrame) (media : List Bytes), Asked s f ∧ s.glb.service ≠ Service.startUp ∧ (Instr.eventRead f media).wf = true ∧ List.length f.payload = 11 ∧ 1 ≤ numAt f.payload 8 2 ∧ numAt f.payload 8 2 ≤ 63 ∧ numAt f.payload 10 1 = 1 :=
  ⟨wP28, kf u (fr 0x20 (leBytes 8 47 ++ leBytes 2 3 ++ [1])), [], asked_kf _ _ (by decide +kernel) rfl rfl rfl (by decide +kernel), by decide +kernel⟩
theorem test_met_ServiceRequests_4 :
    ∃ (s : State) (f : DwFrame) (media : List Bytes), Asked s f ∧ s.glb.service ≠ Service.startUp ∧ (Instr.eventRead f media).wf = true ∧ List.length f.payload = 11 ∧ 1 ≤ numAt f.payload 8 2 ∧ numAt f.payload 8 2 ≤ 63 ∧ numAt f.payload 10 1 = 2 :=
  ⟨wP28, kf u (fr 0x20 (leBytes 8 47 ++ leBytes 2 3 ++ [2])), [bK 64, leBytes 64 47], asked_kf _ _ (by decide +kernel) rfl rfl rfl (by decide +kernel), by decide +kernel⟩
theorem test_met_ServiceRequests_5 :
    ∃ (s : State) (f : DwFrame) (maps : List Bytes), Asked s f ∧ s.glb.service = Service.romService ∧ (Instr.dramSweep f maps).wf = true ∧ List.length f.payload = 4 ∧ numAt f.payload 0 1 ≤ 11 ∧ numAt f.payload 1 1 ≤ 3 ∧ numAt f.payload 2 1 ≤ 1 ∧ (numAt f.payload 3 1 ≤ if numAt f.payload 2 1 = 0 then 2 else 5) ∧ (maps.length = if numAt f.payload 2 1 = 0 then 1 else 20) :=
  ⟨wP210, fr 0x38 [1, 3, 1, 5], (List.range 20).map fun i => bK 16, by unfold Asked; decide +kernel⟩
theorem test_met_ServiceRequests_6 :
    ∃ (s : State) (f : DwFrame), Asked s f ∧ s.glb.service = Service.normal ∧ (Instr.tamperClear f).wf = true ∧ s.wch.pending = none :=
  ⟨u, kf u (fr 0x29 []), asked_kf _ _ (by decide +kernel) rfl rfl rfl (by decide +kernel), by decide +kernel⟩
theorem test_met_ServiceRequests_7 :
    ∃ (s : State) (f : DwFrame), Asked s f ∧ s.glb.service = Service.normal ∧ (Instr.reEnumerate f).wf = true ∧ s.mch.role = ChainRole.master ∧ pair2Up s = true :=
  ⟨wP211, kf u (fr 0x31 []), asked_kf _ _ (by decide +kernel) rfl rfl rfl (by decide +kernel), by decide +kernel⟩
theorem test_met_ServiceRequests_8 :
    ∃ (s : State) (f : DwFrame), Asked s f ∧ s.glb.service = Service.normal ∧ (Instr.reEnumerate f).wf = true ∧ s.mch.role ≠ ChainRole.master :=
  ⟨u, kf u (fr 0x31 []), asked_kf _ _ (by decide +kernel) rfl rfl rfl (by decide +kernel), by decide +kernel⟩
theorem test_met_ServiceRequests_9 :
    ∃ (s : State) (f : DwFrame) (n : ℕ) (d : ℕ) (l : Layout), Asked s f ∧ s.glb.service = Service.normal ∧ (Instr.reshape f).wf = true ∧ List.length f.payload = 16 ∧ numAt f.payload 0 1 = n ∧ numAt f.payload 1 1 = d ∧ n ≤ 2 ∧ numAt f.payload 2 1 ≤ 1 ∧ l = { id := s.par.nextLay, d := d, q := numAt f.payload 2 1 == 1, elig := List.filter (fun k => bitOf (numAt f.payload (4 + k / 8) 1) (k % 8)) (List.range 96) } ∧ s.peer.role = Role.service :=
  ⟨wP212, kf u (fr 0x30 rsP), 0, 3, lR, asked_kf _ _ (by decide +kernel) rfl rfl rfl (by decide +kernel), by decide +kernel⟩
theorem test_met_ServiceRequests_10 :
    ∃ (s : State) (f : DwFrame) (n : ℕ) (d : ℕ) (l : Layout), Asked s f ∧ s.glb.service = Service.normal ∧ (Instr.reshape f).wf = true ∧ List.length f.payload = 16 ∧ numAt f.payload 0 1 = n ∧ numAt f.payload 1 1 = d ∧ n ≤ 2 ∧ numAt f.payload 2 1 ≤ 1 ∧ l = { id := s.par.nextLay, d := d, q := numAt f.payload 2 1 == 1, elig := List.filter (fun k => bitOf (numAt f.payload (4 + k / 8) 1) (k % 8)) (List.range 96) } ∧ s.peer.role ≠ Role.service ∧ reshapeRefused s n l = true :=
  ⟨wP213, kf u (fr 0x30 rsP), 0, 3, lR, asked_kf _ _ (by decide +kernel) rfl rfl rfl (by decide +kernel), by decide +kernel⟩
theorem test_met_ServiceRequests_11 :
    ∃ (s : State) (f : DwFrame) (n : ℕ) (d : ℕ) (l : Layout), Asked s f ∧ s.glb.service = Service.normal ∧ (Instr.reshape f).wf = true ∧ List.length f.payload = 16 ∧ numAt f.payload 0 1 = n ∧ numAt f.payload 1 1 = d ∧ n ≤ 2 ∧ numAt f.payload 2 1 ≤ 1 ∧ l = { id := s.par.nextLay, d := d, q := numAt f.payload 2 1 == 1, elig := List.filter (fun k => bitOf (numAt f.payload (4 + k / 8) 1) (k % 8)) (List.range 96) } ∧ s.peer.role ≠ Role.service ∧ reshapeRefused s n l = false :=
  ⟨uR, kf u (fr 0x30 rsP), 0, 3, lR, asked_kf _ _ (by decide +kernel) rfl rfl rfl (by decide +kernel), by decide +kernel⟩
theorem test_met_ServiceRequests_12 :
    ∃ (s : State) (f : DwFrame), Asked s f ∧ s.glb.service = Service.normal ∧ (Instr.testEntry f).wf = true ∧ s.glb.debugOff = true :=
  ⟨wP214, kf u (fr 0x32 []), asked_kf _ _ (by decide +kernel) rfl rfl rfl (by decide +kernel), by decide +kernel⟩
theorem test_met_ServiceRequests_13 :
    ∃ (s : State) (f : DwFrame), Asked s f ∧ s.glb.service = Service.normal ∧ (Instr.testEntry f).wf = true ∧ s.glb.debugOff = false ∧ s.peer.role = Role.service ∧ s.peer.pair0.inReset = false :=
  ⟨wP215, kf u (fr 0x32 []), asked_kf _ _ (by decide +kernel) rfl rfl rfl (by decide +kernel), by decide +kernel⟩
theorem test_met_ServiceRequests_14 :
    ∃ (s : State) (f : DwFrame), Asked s f ∧ s.glb.service = Service.normal ∧ (Instr.testEntry f).wf = true ∧ s.glb.debugOff = false ∧ s.peer.role ≠ Role.service :=
  ⟨u, kf u (fr 0x32 []), asked_kf _ _ (by decide +kernel) rfl rfl rfl (by decide +kernel), by decide +kernel⟩
theorem test_met_ServiceRequests_15 :
    ∃ (s : State) (f : DwFrame), Asked s f ∧ s.glb.service = Service.normal ∧ (Instr.fuse f).wf = true ∧ List.length f.payload = 8 ∧ numAt f.payload 4 4 = 4032730688 ∧ numAt f.payload 0 1 = 1 :=
  ⟨u, kf u (fr 0x3F (leBytes 4 1 ++ leBytes 4 0xF05E9640)), asked_kf _ _ (by decide +kernel) rfl rfl rfl (by decide +kernel), by decide +kernel⟩
theorem test_met_ServiceRequests_16 :
    ∃ (s : State) (f : DwFrame) (i : Fin 4), Asked s f ∧ s.glb.service = Service.normal ∧ (Instr.fuse f).wf = true ∧ List.length f.payload = 8 ∧ numAt f.payload 4 4 = 4032730688 ∧ numAt f.payload 0 1 = 2 ∧ numAt f.payload 1 1 = ↑i ∧ mayRevoke s ↑i = false :=
  ⟨u, kf u (fr 0x3F ([2, 3, 0, 0] ++ leBytes 4 0xF05E9640)), 3, asked_kf _ _ (by decide +kernel) rfl rfl rfl (by decide +kernel), by decide +kernel⟩
theorem test_met_ServiceRequests_17 :
    ∃ (s : State) (f : DwFrame) (n : ℕ) (k : Bytes), (Instr.keyset f).wf = true ∧ (s.glb.service = Service.normal ∨ s.glb.service = Service.recovery) ∧ f.payload = leBytes 2 n ++ [0#8, 0] ++ leBytes 2 32 ++ k ∧ List.length k = 32 ∧ keyedFrame f = false ∧ portHears s f = true ∧ Fresh s f ∧ n = 8179 ∧ (slotOf s n).state = SlotState.empty :=
  ⟨uE, fr 0x28 (ksP 0x1FF3 0 (bK 32)), 0x1FF3, bK 32, by decide +kernel⟩
theorem test_met_ServiceRequests_20 :
    ∃ (s : State) (f : DwFrame), Asked s f ∧ (Instr.debugAccess f).wf = true ∧ s.glb.service ≠ Service.startUp ∧ s.glb.debugOff = true :=
  ⟨wP217, kf u (fr 0x33 (zeros 16)), asked_kf _ _ (by decide +kernel) rfl rfl rfl (by decide +kernel), by decide +kernel⟩
theorem test_met_ServiceRequests_21 :
    ∃ (s : State) (f : DwFrame), Asked s f ∧ (Instr.debugAccess f).wf = true ∧ s.glb.debugOff = false ∧ s.glb.service ≠ Service.test :=
  ⟨u, kf u (fr 0x33 (zeros 16)), asked_kf _ _ (by decide +kernel) rfl rfl rfl (by decide +kernel), by decide +kernel⟩
theorem test_met_ServiceRequests_22 :
    ∃ (s : State) (f : DwFrame), Asked s f ∧ (Instr.debugAccess f).wf = true ∧ s.glb.debugOff = false ∧ s.glb.service = Service.test ∧ List.length f.payload = 16 ∧ numAt f.payload 8 1 = 0 :=
  ⟨sV .test, kf u (fr 0x33 (leBytes 8 0 ++ [0,0,0,0,0,0,0,0])), asked_kf _ _ (by decide +kernel) rfl rfl rfl (by decide +kernel), by decide +kernel⟩
theorem test_met_ServiceRequests_23 :
    ∃ (s : State) (f : DwFrame), Asked s f ∧ (Instr.debugAccess f).wf = true ∧ s.glb.debugOff = false ∧ s.glb.service = Service.test ∧ List.length f.payload = 16 ∧ numAt f.payload 8 1 = 1 ∧ numAt f.payload 0 8 = 20971524 :=
  ⟨sV .test, kf u (fr 0x33 (leBytes 8 0x1400004 ++ [1,0,0,0] ++ leBytes 4 40)), asked_kf _ _ (by decide +kernel) rfl rfl rfl (by decide +kernel), by decide +kernel⟩
end Sys2Proof.Tests.P2

namespace Sys2Proof.Tests
open Sys2Proof Sys2Proof.Machine

/-- A state with a command in front. -/
def front (i : Instr) (s : State) : State := { s with pending := [i] }

/-- The premises about every step: a canonical state with fresh numbers whose front command completes. -/
theorem test_met_StepsKeepTheForm :
    ∃ s t : State, Canonical s ∧ FreshNumbers s ∧ s.hqe.cmds ≠ [] ∧ step s = .next t :=
  ⟨front (.perstAssert 0 0) (sC [cmdW 7 kI 0x81 .filling]), _, by unfold Canonical; decide +kernel, by unfold FreshNumbers; decide +kernel,
    by decide +kernel, rfl⟩

/-- With DEBUG_OFF burned and outside TEST, a step is taken. -/
theorem test_met_FusesAreOneTime : ∃ s t : State, step s = .next t ∧ s.glb.debugOff = true ∧ s.glb.service ≠ .test :=
  ⟨front (.perstAssert 0 0) (onGlb (fun g => { g with debugOff := true }) s0), _, rfl, by decide +kernel, by decide +kernel⟩

/-- From NORMAL, TEST ENTRY leads to TEST. -/
theorem test_met_ServiceChangesFollowTheTable :
    ∃ s t : State, step s = .next t ∧ s.glb.service ≠ .test ∧ t.glb.service = .test :=
  ⟨front (.testEntry (kf (onPeer (fun x => {x with role := .service}) P2.u) (P2.fr 0x32 []))) (onPeer (fun x => {x with role := .service}) P2.u), _, rfl, by decide +kernel, by decide +kernel⟩

/-- One data strip of one, lost beside its parity strip. -/
theorem test_met_LostStripsComeBack : ∃ (g : Seg) (k : Nat) (img : Bytes) (src : List (Nat × Option Bytes)) (d : Nat),
    g.members.length = g.d + redundancy g ∧ g.d ≤ 24 ∧ d < g.d ∧ (∀ p b, sourceAt src p = some b → b = stripAt g k img p)
    ∧ (lostStrips g k src).length + (if (sourceAt src (posP g.members.length k)).isNone then 1 else 0)
      + (if g.q = true ∧ (sourceAt src (posQ g.members.length k)).isNone = true then 1 else 0) ≤ redundancy g := by
  refine ⟨{ K.g4 with d := 1, q := false, members := [⟨0, 0, 0, 20⟩, ⟨1, 0, 0, 20⟩] }, 0, [], [(1, some (stripAt { K.g4 with d := 1, q := false, members := [⟨0, 0, 0, 20⟩, ⟨1, 0, 0, 20⟩] } 0 [] 1))], 0, by decide +kernel, by decide +kernel,
    by decide +kernel, ?_, by decide +kernel⟩
  intro p b h
  by_cases hp : p = 1
  · subst hp; simpa [sourceAt] using h.symm
  · have : sourceAt [(1, some (stripAt { K.g4 with d := 1, q := false, members := [⟨0, 0, 0, 20⟩, ⟨1, 0, 0, 20⟩] } 0 [] 1))] p = none := by
      simp [sourceAt, Ne.symm hp]
    simp [this] at h

/-! ### Ill-formed operands, one for each check of `Instr.wf` -/

/-- R6, R65: the width and the end of a register access. -/
theorem test_wf_registers :
    (Instr.outsideSubsetAccess 0 0x100 24 true).wf = false ∧ (Instr.outsideSubsetAccess 0 0x1FFFFFE 32 true).wf = false
    ∧ (Instr.registerWrite ⟨.core, .control, 0x2000000, 32, 1⟩).wf = false
    ∧ (Instr.registerWrite ⟨.host 1, .bar2 f0, 0x10, 32, 1⟩).wf = false
    ∧ (Instr.registerWrite ⟨.host 0, .bar2 f0, 0x40, 32, 1⟩).wf = false ∧ (Instr.registerWrite ⟨.host 0, .bar2 f0, 0x40, 64, 1⟩).wf = true
    ∧ (Instr.registerWrite ⟨.host 0, .bar4 f0, 0x10000, 32, 1⟩).wf = false
    ∧ (Instr.registerWrite ⟨.host 0, .config f0, 0x54, 32, 1⟩).wf = false
    ∧ (Instr.sramErrRead ⟨.core, 0x208, 32⟩).wf = false ∧ (Instr.portLogRead 1 ⟨.core, 0x20000C, 32⟩).wf = false
    ∧ (Instr.evrLowWordRead ⟨.core, 0x1200020, 32⟩).wf = false := by decide +kernel

/-- R20, R21: a line of 128 bytes and its 16-byte pieces. -/
theorem test_wf_cache : (Instr.cacheWrite 0 0 120 (zeros 9)).wf = false ∧ (Instr.cacheWrite 0 0 0 []).wf = false := by decide +kernel

/-- R36, R40: 24 DIMM slots and 12 temperatures, each a signed byte; NOR addresses and sectors; the watch registers. -/
theorem test_wf_start_up :
    (Instr.dramInit [] (List.replicate 11 0)).wf = false ∧ (Instr.dramInit [] (List.replicate 12 128)).wf = false
    ∧ (Instr.norReadRequest 0 0).wf = false ∧ (Instr.norReadRequest 0xFFFFFFFF 2).wf = false
    ∧ (Instr.norProgramRequest 0 []).wf = false ∧ (Instr.norProgramRequest 0xFFFFFFFF [0, 0]).wf = false
    ∧ (Instr.norEraseRequest 65536).wf = false ∧ (Instr.wchRegisterWrite (.failedStarts 256)).wf = false
    ∧ (Instr.junctionSensorRead (List.replicate 15 0)).wf = false
    ∧ (Instr.junctionSensorRead (List.replicate 16 (-129))).wf = false := by decide +kernel

/-- R75, R85: a cause of a TLP error; ENABLE and RESTART of HQE.DB_ADMIN_CFG tell its three rows apart. -/
theorem test_wf_ports :
    (Instr.tlpReceiveError 0 0).wf = false ∧ (Instr.adminQueueEnable f0 0).wf = false
    ∧ (Instr.adminQueueEnable f0 0xC0000000).wf = false ∧ (Instr.adminQueueDisable f0 0x80000000).wf = false
    ∧ (Instr.adminQueueRestart f0 0x80000000 []).wf = false := by decide +kernel

/-- R90, R92: a row takes its own opcode or an unlisted one, and a descriptor list of the length that the entry gives. -/
theorem test_wf_entries :
    (Instr.createQp (cA 0x02)).wf = false ∧ (Instr.createQp (cA 0x7F)).wf = true
    ∧ (Instr.read { cI 0x80 0 1 with flags := 4, dlistLen := 2, dlist := [⟨0, 0, 0⟩] }).wf = false
    ∧ (Instr.write { cI 0x81 0 1 with dlist := [⟨0, 0, 0⟩] }).wf = false
    ∧ (Instr.writeDataArrived 7 0 (zeros 4095)).wf = false := by decide +kernel

/-- R125, R130, R163, R180: fingerprints, engines of a class, stored bytes in whole granules with a Waybill. -/
theorem test_wf_write_path :
    (Instr.containerPullDone 0 [(zeros 31, 0, 0)] 1).wf = false ∧ (Instr.engineSelftestDue .chunker 8).wf = false
    ∧ (Instr.sealCheckDone 0 (zeros 511) (zeros 128)).wf = false ∧ (Instr.sealCheckDone 0 [] (zeros 127)).wf = false := by
  decide +kernel

/-- R176, R190, R195: a vault request has blocks; DG.CTL's bits tell its rows apart; at most 65,536 bytes a request. -/
theorem test_wf_security :
    (Instr.vaultRequest ⟨true, .cmac, 1, 0, none⟩).wf = false ∧ (Instr.dgStart 0x40000000).wf = false
    ∧ (Instr.dgAbort 0xC0000000).wf = false ∧ (Instr.dgCmp 0x60000000).wf = false
    ∧ (Instr.drbgGenerate 65537).wf = false := by decide +kernel

/-- R209, R236, R239: a valid count within a capacity; training sets of 16 bytes; payloads of Farium frames. -/
theorem test_wf_media :
    (Instr.slcFractionEval 0 1 0).wf = false ∧ (Instr.slcFractionEval 0 3 2).wf = false
    ∧ (Instr.ts1Received 0 []).wf = false ∧ (Instr.ts2Received 0 (zeros 17)).wf = false
    ∧ (Instr.fariumRead { J.ff with payload := [0] }).wf = false ∧ (Instr.fariumErase { J.ff with payload := [0] }).wf = false
    ∧ (Instr.fariumProgram { J.ff with payload := [0] }).wf = false ∧ (Instr.partialProgram { J.ff with payload := zeros 17 }).wf = false
    ∧ (Instr.fariumProgram J.ff).wf = true ∧ (Instr.claim J.ff (some { J.ff with payload := [0] })).wf = false
    ∧ (Instr.paramPush { J.ff with payload := zeros 33 }).wf = false := by decide +kernel

/-- R265, R289: one finding for each strip position; a superblock page and its root record. -/
theorem test_wf_reconstruction :
    (Instr.reconstructReadDone 0 [(1, none), (1, none)]).wf = false ∧ (Instr.baleRebuildDone 0 ⟨[], []⟩).wf = false
    ∧ (Instr.superblockRead 0 (zeros 511) ⟨0, 0, []⟩).wf = false ∧ (Instr.superblockRead 0 (zeros 512) ⟨0, 0, [1]⟩).wf = false := by
  decide +kernel

/-- R323, R333, R347: the fields of replication, peer and RoCE messages. -/
theorem test_wf_messages :
    (Instr.peerLaneLoss 12).wf = false ∧ (Instr.ackTimeout (2 ^ 24)).wf = false ∧ (Instr.rnrNakReceived (2 ^ 24)).wf = false
    ∧ (Instr.roceSendReceived { N.pk with psn := 2 ^ 24 }).wf = false
    ∧ (Instr.roceSendReceived { N.pk with bytes := zeros 4097 }).wf = false
    ∧ (Instr.connect { N.cm with arrayId := [] }).wf = false := by decide +kernel

/-- R374, R385, R409, R411: temperatures, interleaved lines, event payloads, Dweuno frames. -/
theorem test_wf_rest :
    (Instr.dramTempReading (List.replicate 12 (some 128))).wf = false ∧ (Instr.dramTempReading []).wf = false
    ∧ (Instr.fuse (P2.fr 0x32 [])).wf = false ∧ (Instr.svcReset { P2.fr 0x02 [] with flags := 2 }).wf = false
    ∧ (Instr.svcReset { P2.fr 0x02 [] with tag := zeros 16 }).wf = false
    ∧ (Instr.stageData (P2.fr 0x11 (zeros 4097))).wf = false ∧ (Instr.dweunoUnlistedFrame (P2.fr 0x10 [])).wf = false
    ∧ (Instr.dramSweep (P2.fr 0x38 []) [[0]]).wf = false ∧ (Instr.eventRead (P2.fr 0x20 []) [[0]]).wf = false := by decide +kernel

/-- Commands with the operands of their rows, and one without. -/
theorem test_met_EveryCommandCompletes :
    (Instr.fariumRead J.ff).wf = true ∧ (Instr.registerWrite ⟨.host 0, .bar2 f0, 0x40, 64, 1⟩).wf = true
    ∧ ∃ i : Instr, i.wf = false := ⟨by decide +kernel, by decide +kernel, .tlpReceiveError 0 0, rfl⟩

/-! ### Known answers of the standards the spec names -/

/-- R25, R229: CRC-32C of the ASCII digits 1 to 9 (the check value of the Castagnoli CRC). -/
theorem test_crc32c : crc32c [0x31, 0x32, 0x33, 0x34, 0x35, 0x36, 0x37, 0x38, 0x39] = 0xE3069283 := by decide +kernel

/-- R165: AES-256 on the example block of FIPS 197, C.3. -/
theorem test_aes256 :
    aesEnc ((List.range 32).map fun n => BitVec.ofNat 8 n) ((List.range 16).map fun n => BitVec.ofNat 8 (17 * n))
      = leBytes 16 0x8960494B9049FCEABF456751CAB7A28E := by decide +kernel

/-- R54, R190: SHA-384 of the ASCII letters abc (FIPS 180), its first eight bytes. -/
theorem test_sha384 : (sha384 [0x61, 0x62, 0x63]).take 8 = [0xCB, 0x00, 0x75, 0x3F, 0x45, 0xA3, 0x5E, 0x8B] := by decide +kernel

end Sys2Proof.Tests
end

section
/-! SUPPORT. Register accesses of the control space: what recording an access outside the host-permitted subset can change,
which parts a read can change, and the one word that an aligned 32-bit write acts on. -/

namespace Sys2Proof.Machine

/-! ### Updates of one port and of one read channel -/

theorem satAdd_eq_min (top n k : Nat) : satAdd top n k = min top (n + k) := by
  unfold satAdd; split <;> omega

theorem modPort_hep (p : Fin 2) (f : Port → Port) (s : State) : ∃ h, modPort p f s = { s with hep := h } := by
  unfold modPort; split
  · exact ⟨_, rfl⟩
  · exact ⟨_, rfl⟩

@[simp] theorem portOf_modPort_same (p : Fin 2) (f : Port → Port) (s : State) :
    portOf (modPort p f s) p = f (portOf s p) := by
  match p with
  | 0 => rfl
  | 1 => rfl

@[simp] theorem portOf_modPort_other (p : Fin 2) (f : Port → Port) (s : State) :
    portOf (modPort p f s) (1 - p) = portOf s (1 - p) := by
  match p with
  | 0 => rfl
  | 1 => rfl

@[simp] theorem modPort_msix (p : Fin 2) (f : Port → Port) (s : State) : (modPort p f s).hep.msix = s.hep.msix := by
  match p with
  | 0 => rfl
  | 1 => rfl

@[simp] theorem modPort_out (p : Fin 2) (f : Port → Port) (s : State) : (modPort p f s).out = s.out := by
  obtain ⟨h, e⟩ := modPort_hep p f s
  rw [e]

theorem frame_hep (s : State) (h : Hep) : Frame [.hep] s { s with hep := h } := by
  intro q hq _
  cases q <;> simp_all [Part.same]

theorem frame_evr (s : State) (e : Evr) : Frame [.evr] s { s with evr := e } := by
  intro q hq _
  cases q <;> simp_all [Part.same]

theorem frame_emit (l : List Part) (o : Output) (s : State) : Frame l s (emit o s) := by
  intro q _ ho
  cases q <;> simp_all [Part.same]

theorem modPort_frame (p : Fin 2) (f : Port → Port) (s : State) : Frame [.hep] s (modPort p f s) := by
  obtain ⟨h, e⟩ := modPort_hep p f s
  rw [e]
  exact frame_hep s h

@[simp] theorem rdChan_setRdChan_same (p : Fin 2) (c : RdChan) (s : State) : rdChan (setRdChan p c s).evr p = c := by
  match p with
  | 0 => rfl
  | 1 => rfl

@[simp] theorem rdChan_setRdChan_other (p : Fin 2) (c : RdChan) (s : State) :
    rdChan (setRdChan p c s).evr (1 - p) = rdChan s.evr (1 - p) := by
  match p with
  | 0 => rfl
  | 1 => rfl

@[simp] theorem setRdChan_ring (p : Fin 2) (c : RdChan) (s : State) : (setRdChan p c s).evr.ring = s.evr.ring := by
  match p with
  | 0 => rfl
  | 1 => rfl

@[simp] theorem setRdChan_out (p : Fin 2) (c : RdChan) (s : State) : (setRdChan p c s).out = s.out := by
  match p with
  | 0 => rfl
  | 1 => rfl

theorem setRdChan_frame (p : Fin 2) (c : RdChan) (s : State) : Frame [.evr] s (setRdChan p c s) := by
  match p with
  | 0 => exact frame_evr s _
  | 1 => exact frame_evr s _

/-! ### The subset does not depend on what an access records (R10, R29) -/

theorem portReg_isSome (x y : Port) (o : Nat) : (portReg x o).isSome = (portReg y o).isSome := by
  unfold portReg; split_ifs <;> simp

theorem isSome_ite {α : Type} {c : Prop} [Decidable c] {a b a' b' : Option α} (h : a.isSome = a'.isSome)
    (k : b.isSome = b'.isSome) : (if c then a else b).isSome = (if c then a' else b').isSome := by
  split
  · exact h
  · exact k

theorem hepReg_isSome (s t : State) (o : Nat) : (hepReg s o).isSome = (hepReg t o).isSome :=
  isSome_ite (portReg_isSome ..) (portReg_isSome ..)

/-- Which words exist does not depend on the ports' state. -/
theorem regWord_isSome_hep (s : State) (h : Hep) (o : Nat) :
    (regWord { s with hep := h } o).isSome = (regWord s o).isSome := by
  unfold regWord
  exact isSome_ite rfl (isSome_ite rfl (isSome_ite (hepReg_isSome ..) rfl))

theorem insideSubset_hep (s : State) (h : Hep) (p : Fin 2) (write : Bool) (o : Nat) :
    insideSubset { s with hep := h } p write o = insideSubset s p write o := by
  simp only [insideSubset, hostReads, regWord_isSome_hep]

/-! ### What an access records -/

/-- Recording changes HEP alone. -/
theorem recordAccess_hep (q : Requester) (write : Bool) (o w : Nat) (s : State) :
    ∃ h, recordAccess q write o w s = { s with hep := h } := by
  cases q with
  | host p =>
    refine forEach_induct (fun t => ∃ h, t = { s with hep := h }) _ (fun a t ht => ?_) _ s ⟨s.hep, rfl⟩
    obtain ⟨h, rfl⟩ := ht
    obtain ⟨k, hk⟩ := modPort_hep p _ { s with hep := h }
    exact ⟨k, hk⟩
  | core => exact ⟨s.hep, rfl⟩
  | debug => exact ⟨s.hep, rfl⟩

theorem recordAccess_frame (q : Requester) (write : Bool) (o w : Nat) (s : State) :
    Frame [.hep] s (recordAccess q write o w s) := by
  obtain ⟨h, e⟩ := recordAccess_hep q write o w s
  rw [e]
  exact frame_hep s h

@[simp] theorem recordAccess_out (q : Requester) (write : Bool) (o w : Nat) (s : State) :
    (recordAccess q write o w s).out = s.out := by
  obtain ⟨h, e⟩ := recordAccess_hep q write o w s
  rw [e]

theorem recordOutside_quiet (p : Fin 2) (write : Bool) (o : Nat) (s : State) :
    recordOutside p write o s.quiet = (recordOutside p write o s).quiet := by
  match p with
  | 0 => rfl
  | 1 => rfl

theorem forEach_recordOutside_quiet (p : Fin 2) (write : Bool) (l : List Nat) (s : State) :
    forEach l (recordOutside p write) s.quiet = (forEach l (recordOutside p write) s).quiet := by
  induction l generalizing s with
  | nil => rfl
  | cons a l ih => exact (congrArg (forEach l _) (recordOutside_quiet p write a s)).trans (ih _)

theorem recordAccess_quiet (q : Requester) (write : Bool) (o w : Nat) (s : State) :
    recordAccess q write o w s.quiet = (recordAccess q write o w s).quiet := by
  cases q with
  | host p => exact forEach_recordOutside_quiet p write _ s
  | core => rfl
  | debug => rfl

/-- The other port records nothing of it. -/
theorem portOf_recordAccess_other (p : Fin 2) (write : Bool) (o w : Nat) (s : State) :
    portOf (recordAccess (.host p) write o w s) (1 - p) = portOf s (1 - p) :=
  forEach_keeps (portOf · (1 - p)) _ (fun _ t => portOf_modPort_other p _ t) _ s

theorem accessWords_word {o : Nat} (ho : o % 4 = 0) : accessWords o 32 = [o] := by
  have h : o / 4 * 4 = o := by omega
  simp [accessWords, ho, h]

/-- An aligned 32-bit access to a word outside the subset records that word (R10). -/
theorem recordAccess_outside {p : Fin 2} {write : Bool} {o : Nat} {s : State} (ho : o % 4 = 0)
    (hout : insideSubset s p write o = false) : recordAccess (.host p) write o 32 s = recordOutside p write o s := by
  simp [recordAccess, accessWords_word ho, hout, forEach]

/-- An aligned 32-bit access to a word that the requester reaches records nothing. -/
theorem recordAccess_reached {q : Requester} {write : Bool} {o : Nat} {s : State} (ho : o % 4 = 0)
    (hr : reaches s q write o = true) : recordAccess q write o 32 s = s := by
  cases q with
  | host p =>
    have hin : insideSubset s p write o = true := hr
    simp [recordAccess, accessWords_word ho, hin, forEach]
  | core => rfl
  | debug => rfl

/-! ### What a read changes (R9, R191, R409) -/

/-- Nothing but the parts that reads have side effects on has changed. -/
def ReadChange (s t : State) : Prop :=
  ∃ cache hep bal sec evr svc,
    t = { s with cache := cache, hep := hep, bal := bal, sec := sec, evr := evr, svc := svc }

theorem ReadChange.refl (s : State) : ReadChange s s := ⟨_, _, _, _, _, _, rfl⟩

theorem ReadChange.trans {s t u : State} (h : ReadChange s t) (k : ReadChange t u) : ReadChange s u := by
  obtain ⟨_, _, _, _, _, _, rfl⟩ := h
  obtain ⟨_, _, _, _, _, _, rfl⟩ := k
  exact ⟨_, _, _, _, _, _, rfl⟩

theorem ReadChange.out {s t : State} (h : ReadChange s t) : t.out = s.out := by
  obtain ⟨_, _, _, _, _, _, rfl⟩ := h
  rfl

theorem ReadChange.frame {s t : State} (h : ReadChange s t) : Frame [.hep, .cache, .sec, .svc, .bal, .evr] s t := by
  obtain ⟨_, _, _, _, _, _, rfl⟩ := h
  intro q hq _
  cases q <;> simp_all [Part.same]

theorem clearRc_change (o : Nat) (s : State) : ReadChange s (clearRc o s) := by
  unfold clearRc modPort
  split_ifs <;> exact ⟨_, _, _, _, _, _, rfl⟩

theorem earlyDigestRead_change (o : Nat) (s : State) : ReadChange s (earlyDigestRead o s) := by
  unfold earlyDigestRead modDg
  split_ifs <;> exact ⟨_, _, _, _, _, _, rfl⟩

theorem latchRead_change (q : Requester) (o : Nat) (s : State) : ReadChange s (latchRead q o s) := by
  cases q with
  | host p => simp only [latchRead, setLatch]; split_ifs <;> exact ⟨_, _, _, _, _, _, rfl⟩
  | core => exact .refl s
  | debug => exact .refl s

theorem readEffect_change (latch : Bool) (q : Requester) (o : Nat) (s : State) : ReadChange s (readEffect latch q o s) := by
  have hclear := (earlyDigestRead_change o s).trans (clearRc_change o _)
  unfold readEffect
  split
  · exact .refl s
  · split
    · exact hclear.trans (latchRead_change q o _)
    · exact hclear

/-- A read drives its value outward, and changes only what reads have side effects on. -/
theorem regRead_change (r : RegRead) (s : State) :
    ReadChange (emit (.readData r.req (BitVec.ofNat 64 (readReturns s r))) s) (regRead r s) := by
  obtain ⟨h, hrec⟩ := recordAccess_hep r.req false r.offset r.width s
  have hemit : ∀ x, ReadChange (emit x s) (emit x (recordAccess r.req false r.offset r.width s)) := fun x => by
    rw [hrec]
    exact ⟨_, h, _, _, _, _, rfl⟩
  unfold regRead
  split
  · exact forEach_induct (ReadChange _) _ (fun o t ht => ht.trans (readEffect_change _ _ o t)) _ _ (hemit _)
  · exact hemit _

/-- What is returned does not depend on what the last command drove outward. -/
theorem readReturns_quiet (s : State) (r : RegRead) : readReturns s.quiet r = readReturns s r := rfl

/-! ### A word outside the subset (R10, R29) -/

theorem readReturns_outside {p : Fin 2} {o : Nat} {s : State} (ho : o % 4 = 0)
    (hout : insideSubset s p false o = false) : readReturns s ⟨.host p, o, 32⟩ = 0 := by
  simp [readReturns, acceptedAccess, ho, wholeEvrRead, accessWords_word ho, wordRead, reaches, hout]

/-- A 32-bit read of a word outside the subset returns 0, is recorded, and has no side effect. -/
theorem regRead_outside {p : Fin 2} {o : Nat} {s : State} (ho : o % 4 = 0) (hout : insideSubset s p false o = false) :
    regRead ⟨.host p, o, 32⟩ s = emit (.readData (.host p) 0) (recordOutside p false o s) := by
  have hstays : ∀ x, insideSubset (emit x (recordOutside p false o s)) p false o = false := fun x => by
    obtain ⟨h, e⟩ := modPort_hep p _ s
    rw [recordOutside, e]
    exact (insideSubset_hep s h p false o).trans hout
  simp [regRead, readReturns_outside ho hout, recordAccess_outside ho hout, acceptedAccess, ho, accessWords_word ho, forEach,
    readEffect, reaches, hstays]

/-- The port that made the access counts it up to 0xFFFF and keeps its kind and offset. -/
theorem portOf_recordOutside (p : Fin 2) (write : Bool) (o : BitVec 25) (s : State) :
    portOf (recordOutside p write o.toNat s) p
      = { portOf s p with
          subsetViol := min 0xFFFF ((portOf s p).subsetViol + 1), violWrite := write, violOffset := o } := by
  simp [recordOutside, satAdd_eq_min]

theorem inBar0_word {o : BitVec 25} (ho : o.toNat % 4 = 0) : inBar0 o.toNat 32 = true := by
  simp [inBar0, widthOk]; omega

theorem exec_outsideSubsetAccess {o : BitVec 25} {w : Nat} (hb : inBar0 o.toNat w = true) (p : Fin 2) (write : Bool)
    (s : State) :
    exec (.outsideSubsetAccess p o w write) s = .next (outsideEffect p o w write s.quiet) :=
  run_of_wf (i := .outsideSubsetAccess p o w write) hb _ s

theorem outsideEffect_write_word {s : State} {p : Fin 2} {o : BitVec 25} (ho : o.toNat % 4 = 0)
    (hout : insideSubset s p true o.toNat = false) : outsideEffect p o 32 true s = recordOutside p true o.toNat s :=
  recordAccess_outside ho hout

theorem outsideEffect_read_word {s : State} {p : Fin 2} {o : BitVec 25} (ho : o.toNat % 4 = 0)
    (hout : insideSubset s p false o.toNat = false) :
    outsideEffect p o 32 false s = emit (.readData (.host p) 0) (recordOutside p false o.toNat s) :=
  regRead_outside ho hout

theorem completes_outside_word {s : State} {p : Fin 2} {o : BitVec 25} {write : Bool} (ho : o.toNat % 4 = 0)
    (hout : insideSubset s p write o.toNat = false) :
    Completes (.outsideSubsetAccess p o 32 write) s fun t =>
      portOf t p
          = { portOf s p with
              subsetViol := min 0xFFFF ((portOf s p).subsetViol + 1), violWrite := write, violOffset := o }
        ∧ portOf t (1 - p) = portOf s (1 - p) ∧ t.hep.msix = s.hep.msix
        ∧ t.out = (if write then [] else [.readData (.host p) 0]) ∧ Frame [.hep] s t := by
  refine ⟨_, exec_outsideSubsetAccess (inBar0_word ho) p write s, ?_⟩
  have hquiet : insideSubset s.quiet p write o.toNat = false := hout
  have hport := portOf_recordOutside p write o s.quiet
  have hframe : Frame [.hep] s (recordOutside p write o.toNat s.quiet) :=
    (Frame.quiet _ s).trans (modPort_frame p _ s.quiet)
  cases write with
  | true =>
    rw [outsideEffect_write_word ho hquiet]
    exact ⟨hport, portOf_modPort_other .., modPort_msix .., modPort_out .., hframe⟩
  | false =>
    rw [outsideEffect_read_word ho hquiet]
    exact ⟨hport, portOf_modPort_other .., modPort_msix .., congrArg (· ++ _) (modPort_out ..),
      hframe.trans (frame_emit _ _ _)⟩

/-- A write of any width that reaches outside the subset records its outside words and changes nothing else. -/
theorem completes_outside_write {p : Fin 2} {o : BitVec 25} {w : Nat} (hb : inBar0 o.toNat w = true) (s : State) :
    Completes (.outsideSubsetAccess p o w true) s fun t =>
      portOf t p = portOf (recordAccess (.host p) true o.toNat w s) p ∧ portOf t (1 - p) = portOf s (1 - p) ∧ t.out = []
        ∧ Frame [.hep] s t := by
  refine ⟨recordAccess (.host p) true o.toNat w s.quiet, exec_outsideSubsetAccess hb p true s, ?_,
    portOf_recordAccess_other p true o.toNat w s.quiet, recordAccess_out ..,
    (Frame.quiet _ s).trans (recordAccess_frame _ _ _ _ _)⟩
  rw [recordAccess_quiet]
  rfl

/-- A read of any width returns its words, and changes only what reads have side effects on. -/
theorem completes_outside_read {p : Fin 2} {o : BitVec 25} {w : Nat} (hb : inBar0 o.toNat w = true) (s : State) :
    Completes (.outsideSubsetAccess p o w false) s fun t =>
      t.out = [.readData (.host p) (BitVec.ofNat 64 (readReturns s ⟨.host p, o.toNat, w⟩))]
        ∧ Frame [.hep, .cache, .sec, .svc, .bal, .evr] s t := by
  have hread := regRead_change ⟨.host p, o.toNat, w⟩ s.quiet
  rw [readReturns_quiet] at hread
  exact ⟨_, exec_outsideSubsetAccess hb p false s, hread.out,
    (Frame.quiet _ s).trans ((frame_emit _ _ _).trans hread.frame)⟩

/-! ### Writes of the control space -/

/-- A write of a width or alignment that R6 does not accept records and does nothing else. -/
theorem controlWrite_refused {o w : Nat} (ha : acceptedAccess o w = false) (q : Requester) (v : Word64) (s : State) :
    controlWrite q o w v s = recordAccess q true o w s := by
  simp [controlWrite, ha]

/-- An aligned 32-bit write of a word that the requester reaches is the write of that word. -/
theorem controlWrite_word {q : Requester} {o : Nat} {s : State} (ho : o % 4 = 0) (hr : reaches s q true o = true) (v : Word64) :
    controlWrite q o 32 v s = wordWrite q o (v.extractLsb' 0 32) s := by
  simp [controlWrite, recordAccess_reached ho hr, acceptedAccess, ho, writeParts, hr, forEach]

theorem exec_registerWrite_control {q : Requester} {o w : Nat} (hb : inBar0 o w = true) (v : Word64) (s : State) :
    exec (.registerWrite ⟨q, .control, o, w, v⟩) s = .next (controlWrite q o w v s.quiet) :=
  run_of_wf (i := .registerWrite ⟨q, .control, o, w, v⟩) hb _ s

theorem exec_registerWrite_word {q : Requester} {o : Nat} {s : State} (hb : inBar0 o 32 = true) (ho : o % 4 = 0)
    (hr : reaches s q true o = true) (v : Word64) :
    exec (.registerWrite ⟨q, .control, o, 32, v⟩) s = .next (wordWrite q o (v.extractLsb' 0 32) s.quiet) := by
  rw [exec_registerWrite_control hb, controlWrite_word ho (s := s.quiet) hr]

/-- Outside START-UP and ROM-SERVICE a port writes what R29 lists for it. -/
theorem reaches_host_write {s : State} (h1 : s.glb.service ≠ .startUp) (h2 : s.glb.service ≠ .romService) (p : Fin 2)
    (o : Nat) : reaches s (.host p) true o = hostWrites p o := by
  simp [reaches, insideSubset, h1, h2]

/-- HEP.PORTn_CAUSE: bits written 1 clear (R77). -/
theorem wordWrite_portCause (q : Requester) (p : Fin 2) (v : Word32) (s : State) :
    wordWrite q (0x200004 + 0x10000 * p.val) v s
      = modPort p (fun x => { x with cause := x.cause &&& ~~~(v.extractLsb' 0 6) }) s := by
  match p with
  | 0 => simp [wordWrite, writeHep]
  | 1 => simp [wordWrite, writeHep]

/-- EVR.RDn_SEQ: the lower word is staged (R7). -/
theorem wordWrite_rdSeqLow (q : Requester) (p : Fin 2) (v : Word32) (s : State) :
    wordWrite q (0x1200040 + 0x80 * p.val) v s = setRdChan p { rdChan s.evr p with low := v } s := by
  match p with
  | 0 => simp [wordWrite, writeEvr, setRdChan, rdChan]
  | 1 => simp [wordWrite, writeEvr, setRdChan, rdChan]

theorem exec_write_portCause {s : State} (h1 : s.glb.service ≠ .startUp) (h2 : s.glb.service ≠ .romService) (p : Fin 2)
    (v : Word64) :
    exec (.registerWrite ⟨.host p, .control, 0x200004 + 0x10000 * p.val, 32, v⟩) s
      = .next (modPort p (fun x => { x with cause := x.cause &&& ~~~(v.extractLsb' 0 6) }) s.quiet) := by
  have hb : inBar0 (0x200004 + 0x10000 * p.val) 32 = true := by revert p; decide
  have hr : reaches s (.host p) true (0x200004 + 0x10000 * p.val) = true := by
    simp [reaches_host_write h1 h2, hostWrites]; omega
  rw [exec_registerWrite_word hb (by omega) hr, wordWrite_portCause, BitVec.extractLsb'_extractLsb'_of_le (by decide)]

theorem exec_write_rdSeqLow {s : State} (h1 : s.glb.service ≠ .startUp) (h2 : s.glb.service ≠ .romService) (p : Fin 2)
    (v : Word64) :
    exec (.registerWrite ⟨.host p, .control, 0x1200040 + 0x80 * p.val, 32, v⟩) s
      = .next (setRdChan p { rdChan s.evr p with low := v.extractLsb' 0 32 } s.quiet) := by
  have hb : inBar0 (0x1200040 + 0x80 * p.val) 32 = true := by revert p; decide
  have hr : reaches s (.host p) true (0x1200040 + 0x80 * p.val) = true := by
    simp [reaches_host_write h1 h2, hostWrites]
  rw [exec_registerWrite_word hb (by omega) hr, wordWrite_rdSeqLow, quiet_evr]

theorem exec_write_suspCfg (s : State) (v : Word64) :
    exec (.registerWrite ⟨.core, .control, 0x1400004, 32, v⟩) s = .next { s with out := [], nvc := { s.nvc with
      maxSusp := v.extractLsb' 16 8, minRun := v.extractLsb' 8 8, tsus := v.extractLsb' 0 8 } } := by
  rw [exec_registerWrite_word (by decide) (by decide) rfl]
  simp [wordWrite, writeNvc, BitVec.extractLsb'_extractLsb'_of_le, State.quiet]

theorem exec_write_nvcStatus (s : State) (v : Word64) :
    exec (.registerWrite ⟨.core, .control, 0x1400008, 32, v⟩) s = .next { s with out := [], nvc := { s.nvc with
      wrRefused := s.nvc.wrRefused && !v.getLsbD 7, sectorBusy := s.nvc.sectorBusy && !v.getLsbD 6 } } := by
  rw [exec_registerWrite_word (by decide) (by decide) rfl]
  simp [wordWrite, writeNvc, State.quiet]

theorem exec_write_restoreLow (s : State) (v : Word64) :
    exec (.registerWrite ⟨.core, .control, 0x1500010, 32, v⟩) s
      = .next { s with out := [], wch := { s.wch with restoreLow := v.extractLsb' 0 32 } } := by
  rw [exec_registerWrite_word (by decide) (by decide) rfl]
  simp [wordWrite, writeWch, State.quiet]

theorem exec_write_dgStatus (s : State) (v : Word64) :
    exec (.registerWrite ⟨.core, .control, 0xA02004, 32, v⟩) s
      = .next { s with out := [], sec := { s.sec with dg := { s.sec.dg with
          earlyCmp := s.sec.dg.earlyCmp && !v.getLsbD 5, earlyRead := s.sec.dg.earlyRead && !v.getLsbD 4,
          seqErr := s.sec.dg.seqErr && !v.getLsbD 3, keyErr := s.sec.dg.keyErr && !v.getLsbD 2 } } } := by
  rw [exec_registerWrite_word (by decide) (by decide) rfl]
  simp [wordWrite, writeSec, modDg, dgStatusWrite, State.quiet]

theorem exec_write_dgLastValid (s : State) (v : Word64) :
    exec (.registerWrite ⟨.core, .control, 0xA0200C, 32, v⟩) s
      = .next { s with out := [], sec := { s.sec with dg := { s.sec.dg with lastValid := v.extractLsb' 0 3 } } } := by
  rw [exec_registerWrite_word (by decide) (by decide) rfl]
  simp [wordWrite, writeSec, modDg, BitVec.extractLsb'_extractLsb'_of_le, State.quiet]

/-! ### The obligation -/

/-- Settles O2: an access outside the subset only records, and a read beside it drives its value and has its words' side
effects; a register write is the write of the one word it names. -/
theorem registerWritesAndSubset : Obligations.RegisterWritesAndSubset := by
  unfold Obligations.RegisterWritesAndSubset
  refine ⟨⟨?word, ?anyWrite, ?anyRead⟩, ?refused, ?portCause, ?rdSeqLow, exec_write_suspCfg, exec_write_nvcStatus,
    exec_write_restoreLow, exec_write_dgStatus, exec_write_dgLastValid⟩
  case word => exact fun s p o write ho hout => completes_outside_word ho hout
  case anyWrite => exact fun s p o w hb => completes_outside_write hb s
  case anyRead => exact fun s p o w hb => completes_outside_read hb s
  case refused =>
    intro s q o w v hb ha
    have hexec := exec_registerWrite_control (q := q) hb v s
    rw [controlWrite_refused ha] at hexec
    exact ⟨_, hexec, recordAccess_out .., (Frame.quiet _ s).trans (recordAccess_frame _ _ _ _ _)⟩
  case portCause =>
    intro s p v h1 h2
    exact ⟨_, exec_write_portCause h1 h2 p v, portOf_modPort_same .., portOf_modPort_other .., modPort_msix ..,
      modPort_out .., (Frame.quiet _ s).trans (modPort_frame _ _ _)⟩
  case rdSeqLow =>
    intro s p v h1 h2
    exact ⟨_, exec_write_rdSeqLow h1 h2 p v, rdChan_setRdChan_same .., rdChan_setRdChan_other .., setRdChan_ring ..,
      setRdChan_out .., (Frame.quiet _ s).trans (setRdChan_frame _ _ _)⟩

end Sys2Proof.Machine
end

section
/-! SUPPORT. Messages of the peer on the write path and relays over the link: what a message under the epoch in force does
before its own effect, how a command of a host's queue pair ends, and how a relayed query is answered. -/

namespace Sys2Proof.Machine

/-! ### Frames of one part -/

theorem frame_peer (s : State) (x : Peer) : Frame [.peer] s { s with peer := x } := by
  intro p hp _
  cases p <;> simp_all [Part.same]

theorem frame_ing (s : State) (x : Ing) : Frame [.ing] s { s with ing := x } := by
  intro p hp _
  cases p <;> simp_all [Part.same]

theorem frame_hqe (s : State) (x : Hqe) : Frame [.hqe] s { s with hqe := x } := by
  intro p hp _
  cases p <;> simp_all [Part.same]

theorem frame_out (l : List Part) (s : State) (o : List Output) : Frame l s { s with out := o } := by
  intro p _ ho
  cases p <;> simp_all [Part.same]

/-- What two steps leave unchanged, both do. -/
theorem Frame.append {l m : List Part} {s t u : State} (h : Frame l s t) (k : Frame m t u) : Frame (l ++ m) s u :=
  (h.mono fun _ => List.mem_append_left m).trans (k.mono fun _ => List.mem_append_right l)

/-! ### A message under the epoch in force (R332, R341) -/

/-- The state in which such a message has its own effect: the link makes progress, and the peer's epoch is noted. -/
def heard (h : PeerHdr) (s : State) : State := { s with peer := { s.peer with noProgress := 0, peerEpoch := h.epoch } }

theorem heard_frame (h : PeerHdr) (s : State) : Frame [.peer] s (heard h s.quiet) :=
  (Frame.quiet _ s).trans (frame_peer s.quiet _)

theorem genHigher_self (e : Word16) : genHigher e e = false := by simp [genHigher]

theorem peerRow_fromPeer {s : State} {h : PeerHdr} (hp : FromPeer s h) (f : State → State) : peerRow h f s = f (heard h s) := by
  obtain ⟨hlink, hcores, hepoch⟩ := hp
  simp [peerRow, hlink, hcores, hepoch, genHigher_self, peerEpochSeen, heard]

/-- Such a message completes where its own effect has the property. -/
theorem completes_fromPeer {s : State} {h : PeerHdr} {i : Instr} {f : State → State} {p : State → Prop} (hp : FromPeer s h)
    (he : exec i s = run i (peerRow h f) s) (hwf : i.wf = true) (hq : p (f (heard h s.quiet))) : Completes i s p :=
  completes_of_run he hwf (by rwa [peerRow_fromPeer (s := s.quiet) hp])

theorem toPeer_linkUp {s : State} (h : s.peer.linkUp = true) (type : Nat) (args : List Nat) (data : Bytes) :
    toPeer type args data s = emit (.peerMsg (BitVec.ofNat 8 type) s.peer.epoch args data) s := by
  simp [toPeer, h]

/-- A message to the peer changes nothing but what is driven outward. -/
theorem toPeer_out (type : Nat) (args : List Nat) (data : Bytes) (s : State) :
    ∃ o, toPeer type args data s = { s with out := o } := by
  unfold toPeer
  split
  · exact ⟨_, rfl⟩
  · exact ⟨s.out, rfl⟩

/-! ### One element of a list changed, or its elements dropped -/

theorem find?_modFirst {α : Type} {p : α → Bool} {f : α → α} (hp : ∀ x, p (f x) = p x) (l : List α) :
    (modFirst p f l).find? p = (l.find? p).map f := by
  induction l with
  | nil => rfl
  | cons x l ih => cases hx : p x <;> simp [modFirst, hx, hp, ih]

theorem find?_without {α : Type} (p : α → Bool) (l : List α) : (without p l).find? p = none := by
  simp [without]

theorem without_modFirst {α : Type} {p : α → Bool} {f : α → α} (hp : ∀ x, p (f x) = p x) (l : List α) :
    without p (modFirst p f l) = without p l := by
  induction l with
  | nil => rfl
  | cons x l ih => cases hx : p x <;> simp_all [modFirst, without]

/-- What holds of every element once it is changed holds of all of the changed list. -/
theorem forall_mem_modAll {α : Type} {p : α → Bool} {f : α → α} {P : α → Prop} {l : List α}
    (h : ∀ x ∈ l, P (if p x then f x else x)) : ∀ x ∈ modAll p f l, P x := by
  simpa [modAll] using h

theorem mem_insertNat {m n : Nat} {l : List Nat} : m ∈ insertNat n l ↔ m = n ∨ m ∈ l := by
  unfold insertNat
  split
  · next h => exact ⟨.inr, fun hm => hm.elim (· ▸ h) id⟩
  · simp [or_comm]

/-- An element that takes the place of those that meet a test. -/
def replaced {α : Type} (p : α → Bool) (e : α) (l : List α) : List α := (l.filter fun x => !p x) ++ [e]

theorem filter_replaced {α : Type} {p : α → Bool} {e : α} (he : p e = true) (l : List α) : (replaced p e l).filter p = [e] := by
  simp [replaced, he]

theorem filter_replaced_other {α : Type} {p r : α → Bool} {e : α} (hr : ∀ x, p x = true → r x = false) (he : p e = true)
    (l : List α) : (replaced p e l).filter r = l.filter r := by
  have hkept : ∀ x, (r x && !p x) = r x := fun x => by cases hx : p x <;> simp [hx, hr x]
  simp [replaced, List.filter_append, List.filter_filter, hr e he, hkept]

/-! ### Outstanding commands -/

theorem cmdOf_id {s : State} {id : Nat} {d : Cmd} (h : cmdOf s id = some d) : d.id = id := by
  simpa using List.find?_some h

theorem cmdOf_modCmd {f : Cmd → Cmd} (hf : ∀ c, (f c).id = c.id) (id : Nat) (s : State) :
    cmdOf (modCmd id f s) id = (cmdOf s id).map f :=
  find?_modFirst (fun c => by rw [hf]) s.hqe.cmds

theorem qpOf_modQp {f : Qp → Qp} (hf : ∀ q, (f q).key = q.key) (k : QKey) (s : State) :
    qpOf (modQp k f s) k = (qpOf s k).map f :=
  find?_modFirst (fun q => by rw [hf]) s.hqe.qps

/-- A command that is outstanding and can be answered still is where commands, queue pairs and ports are the same. -/
theorem Outstanding.congr {s t : State} {id : Nat} {d : Cmd} {q : Qp} (h : Outstanding s id d q)
    (hcmds : t.hqe.cmds = s.hqe.cmds) (hqps : t.hqe.qps = s.hqe.qps) (hhep : t.hep = s.hep) : Outstanding t id d q := by
  simpa only [Outstanding, cmdOf, qpOf, portOf, hcmds, hqps, hhep] using h

/-- So it is once it has changed in anything but its number and what it is answered by. -/
theorem outstanding_modCmd {s : State} {id : Nat} {d : Cmd} {q : Qp} (h : Outstanding s id d q) {f : Cmd → Cmd}
    (hid : ∀ c, (f c).id = c.id) (hf : (f d).origin = d.origin ∧ (f d).silent = d.silent ∧ (f d).q = d.q) :
    Outstanding (modCmd id f s) id (f d) q := by
  obtain ⟨hc, ho, hs, hq, hfrozen, hroom⟩ := h
  obtain ⟨fo, fs, fq⟩ := hf
  refine ⟨by rw [cmdOf_modCmd hid, hc]; rfl, fo.trans ho, fs.trans hs, ?_, ?_, hroom⟩
  · rw [fq]; exact hq
  · rw [fq]; exact hfrozen

/-! ### Completion entries (R78, R88, R89) -/

/-- A signal is a message outward, or a pending bit. -/
theorem signal_change (f : FnId) (v : Nat) (s : State) :
    ∃ hep o, signal f v s = { s with hep := hep, out := s.out ++ o } := by
  unfold signal
  split
  · exact ⟨s.hep, [], by rw [List.append_nil]⟩
  · split
    · exact ⟨_, [], by rw [List.append_nil]; rfl⟩
    · exact ⟨s.hep, [_], rfl⟩

/-- An entry that is posted changes queue pairs, and signals. -/
theorem postOne_change {s : State} {k : QKey} {q : Qp} (hq : qpOf s k = some q) (e : Cqe) :
    ∃ qps hep o, postOne k e s = { s with
      hqe := { s.hqe with qps := qps }, hep := hep, out := s.out ++ [.completion k q.cqTail q.phase q.fetch e] ++ o } := by
  unfold postOne
  simp only [hq]
  split
  · obtain ⟨hep, o, h⟩ := signal_change k.f 0 (modQp k cqAdvance (emit (.completion k q.cqTail q.phase q.fetch e) s))
    exact ⟨_, hep, o, h⟩
  · split
    · obtain ⟨hep, o, h⟩ := signal_change k.f q.vec (modQp k (fun x => { x with unsig := 0 })
        (modQp k cqAdvance (emit (.completion k q.cqTail q.phase q.fetch e) s)))
      exact ⟨_, hep, o, h⟩
    · exact ⟨_, s.hep, [], by rw [List.append_nil]; rfl⟩

/-- With room in the CQ and nothing waiting, a completion is posted at once. -/
theorem postCqe_room {s : State} {k : QKey} {q : Qp} (hq : qpOf s k = some q) (hfrozen : (portOf s k.f.port).frozen = false)
    (hfull : cqFull q = false) (hwait : q.waiting = []) (e : Cqe) : postCqe k e s = postOne k e s := by
  simp [postCqe, hq, hfrozen, hfull, hwait]

/-! ### The end of a command of a host's queue pair (R91) -/

/-- The queue pair as a command ends: an ORDERED hold that it kept is over (R97). -/
def unordered (id : Nat) (q : Qp) : Qp := if q.ordered = some id then { q with ordered := none } else q

theorem unordered_eq (id : Nat) (q : Qp) : ∃ o, unordered id q = { q with ordered := o } := by
  unfold unordered
  split
  · exact ⟨none, rfl⟩
  · exact ⟨q.ordered, rfl⟩

theorem unordered_key (id : Nat) (q : Qp) : (unordered id q).key = q.key := by
  obtain ⟨o, h⟩ := unordered_eq id q
  rw [h]

/-- What the end of a command changes: it leaves the list, its queue pair moves on, and its entry is posted. -/
theorem finishCmd_change {s : State} {id : Nat} {d : Cmd} {q : Qp} (h : Outstanding s id d q) (st : Word16) (k r : Nat) :
    ∃ qps hep o, finishCmd id st k r s = { s with
      hqe := { s.hqe with cmds := without (fun c => c.id == id) s.hqe.cmds, qps := qps }, hep := hep,
      out := s.out ++ [.completion d.q q.cqTail q.phase q.fetch
        ⟨d.cid, st, isPartial st k d.nblk, if isPartial st k d.nblk then k else 0, BitVec.ofNat 32 r⟩] ++ o } := by
  obtain ⟨hc, ho, hs, hq, hfrozen, hfull, hwait⟩ := h
  obtain ⟨x, hx⟩ := unordered_eq id q
  have hqp : qpOf (modQp d.q (unordered id) (dropCmd id s)) d.q = some { q with ordered := x } := by
    rw [qpOf_modQp (unordered_key id), show qpOf (dropCmd id s) d.q = some q from hq, Option.map_some, hx]
  obtain ⟨qps, hep, o, hpost⟩ := postOne_change hqp
    ⟨d.cid, st, isPartial st k d.nblk, if isPartial st k d.nblk then k else 0, BitVec.ofNat 32 r⟩
  have hfinish : finishCmd id st k r s = postCqe d.q
      ⟨d.cid, st, isPartial st k d.nblk, if isPartial st k d.nblk then k else 0, BitVec.ofNat 32 r⟩
      (modQp d.q (unordered id) (dropCmd id s)) := by
    simp only [finishCmd, hc, hs, ho, answerTo]
    rfl
  exact ⟨qps, hep, o, (hfinish.trans (postCqe_room hqp hfrozen hfull hwait _)).trans hpost⟩

theorem finishCmd_ended {s : State} {id : Nat} {d : Cmd} {q : Qp} (h : Outstanding s id d q) (st : Word16) (k r : Nat) :
    Ended d q st (isPartial st k d.nblk) (if isPartial st k d.nblk then k else 0) r (finishCmd id st k r s) := by
  obtain ⟨qps, hep, o, hend⟩ := finishCmd_change h st k r
  rw [hend]
  refine ⟨by simp, ?_⟩
  rw [cmdOf_id h.1]
  exact find?_without _ s.hqe.cmds

theorem finishCmd_ing {s : State} {id : Nat} {d : Cmd} {q : Qp} (h : Outstanding s id d q) (st : Word16) (k r : Nat) :
    (finishCmd id st k r s).ing = s.ing := by
  obtain ⟨qps, hep, o, hend⟩ := finishCmd_change h st k r
  rw [hend]

theorem finishCmd_frame {s : State} {id : Nat} {d : Cmd} {q : Qp} (h : Outstanding s id d q) (st : Word16) (k r : Nat) :
    Frame [.hqe, .hep] s (finishCmd id st k r s) := by
  obtain ⟨qps, hep, o, hend⟩ := finishCmd_change h st k r
  rw [hend]
  exact ((frame_hqe s _).append (frame_hep _ hep)).trans (frame_out _ _ _)

/-! ### The end of a write (R31, R105) -/

theorem mirrorSettle_out (e : Settle) (s : State) : ∃ o, mirrorSettle e s = { s with out := o } := by
  unfold mirrorSettle
  split
  · exact toPeer_out _ _ _ s
  · exact ⟨s.out, rfl⟩

/-- Settling a tag changes the log, and is told to the peer. -/
theorem settleTag_change (t : Nat) (g : Word64) (k n : Nat) (s : State) :
    ∃ l o, settleTag t g k n s = { s with hqe := { s.hqe with settle := l }, out := o } := by
  unfold settleTag
  split
  · exact ⟨s.hqe.settle, s.out, rfl⟩
  · obtain ⟨o, h⟩ := mirrorSettle_out _ _
    exact ⟨_, o, h⟩

/-- The staging index without what the blocks of a command had superseded. -/
def withoutOld (id : Nat) (l : List StEntry) : List StEntry := modAll (fun e => e.cmd == id) (fun e => { e with old := none }) l

/-- The state in which the command of a write ends: its tag has settled, and what its blocks had superseded is dropped. -/
def writeSettled (id : Nat) (l : List Settle) (o : List Output) (s : State) : State :=
  { s with
    hqe := { s.hqe with settle := l }
    ing := { s.ing with staging := withoutOld id s.ing.staging }
    out := o }

theorem writeSettled_frame (id : Nat) (l : List Settle) (o : List Output) (s : State) :
    Frame [.ing, .hqe] s (writeSettled id l o s) := by
  intro p hp _
  cases p <;> simp_all [Part.same, writeSettled]

theorem endWrite_eq (c : Cmd) (k : Nat) (st : Word16) (s : State) :
    ∃ l o, endWrite c k st s = finishCmd c.id st k 0 (writeSettled c.id l o s) := by
  unfold endWrite
  split
  · next g n _ _ =>
      split
      · obtain ⟨l, o, h⟩ := settleTag_change n g k c.nblk s
        exact ⟨l, o, by rw [h]; rfl⟩
      · exact ⟨s.hqe.settle, s.out, rfl⟩
  · exact ⟨s.hqe.settle, s.out, rfl⟩

theorem endWrite_ended {s : State} {d : Cmd} {q : Qp} (h : Outstanding s d.id d q) (k : Nat) (st : Word16) :
    Ended d q st (isPartial st k d.nblk) (if isPartial st k d.nblk then k else 0) 0 (endWrite d k st s)
      ∧ (endWrite d k st s).ing.staging = withoutOld d.id s.ing.staging
      ∧ Frame [.ing, .hqe, .hep] s (endWrite d k st s) := by
  obtain ⟨l, o, hend⟩ := endWrite_eq d k st s
  have hout : Outstanding (writeSettled d.id l o s) d.id d q := h.congr rfl rfl rfl
  rw [hend]
  exact ⟨finishCmd_ended hout st k 0, by rw [finishCmd_ing hout]; rfl,
    ((writeSettled_frame d.id l o s).append (finishCmd_frame hout st k 0)).mono (by simp)⟩

/-! ### Mirrored writes (R31) -/

theorem wake_awake {s : State} (ha : asleep s = false) (hp : s.clk.newPower = none) : wake s = s := by
  simp [wake, ha, hp]

/-- A MIRROR stores its entry in the place of one of the same block and generation. -/
def storeMirror (m : MirEntry) (s : State) : State :=
  { s with ing := { s.ing with
    mirror := replaced (fun x => x.nsid == m.nsid && x.lba == m.lba && x.gen == m.gen) m s.ing.mirror } }

/-- An ACTIVE head that is awake stores the copy, and acknowledges it. -/
theorem mirrorEffect_stores {s : State} (hlink : s.peer.linkUp = true) (hrole : s.peer.role = .active) (ha : asleep s = false)
    (hp : s.clk.newPower = none) (n l : Nat) (g : Word16) (tn : Nat) (tag : Option Word64) (b k : Nat) (d : Bytes) :
    mirrorEffect n l g tn tag b k d s = emit (.peerMsg 0x11 s.peer.epoch [n, l, g.toNat] [])
      (storeMirror ⟨n, l, g, d, tn, tag, b, k, false⟩ s) := by
  unfold mirrorEffect
  rw [hrole, if_neg (by decide)]
  exact (congrArg (toPeer 0x11 [n, l, g.toNat] [])
    (wake_awake (s := storeMirror ⟨n, l, g, d, tn, tag, b, k, false⟩ s) ha hp)).trans (toPeer_linkUp (s := storeMirror _ s) hlink ..)

/-- An acknowledgement marks the entries of its block. -/
def blockAcked (n l : Nat) (g : Word16) (s : State) : State :=
  { s with ing := { s.ing with
    staging := modAll (fun e => e.nsid == n && e.lba == l && e.gen == g) (fun e => { e with mirrored := true }) s.ing.staging } }

/-- The acknowledged block's entries count as mirrored, also once the write has ended. -/
theorem withoutOld_blockAcked_mirrored (id n l : Nat) (g : Word16) (s : State) :
    ∀ e ∈ withoutOld id (blockAcked n l g s).ing.staging, e.nsid = n → e.lba = l → e.gen = g → e.mirrored = true := by
  have hacked : ∀ e ∈ (blockAcked n l g s).ing.staging, e.nsid = n → e.lba = l → e.gen = g → e.mirrored = true := by
    refine forall_mem_modAll fun e _ => ?_
    split
    · exact fun _ _ _ => rfl
    · next hother => exact fun hn hl hg => absurd (by simp [hn, hl, hg]) hother
  refine forall_mem_modAll fun e he => ?_
  split <;> exact hacked e he

/-- A command with one more block acknowledged. -/
def acknowledge (l : Nat) (c : Cmd) : Cmd := { c with acked := insertNat (l - c.lba) c.acked }

theorem mirrored_of_acked {c : Cmd} (h : ∀ b, b < c.good → b ∈ c.acked) (s : State) : mirrored s c = true :=
  Bool.or_eq_true_iff.mpr (.inr (List.all_eq_true.mpr fun b hb => decide_eq_true (h b (List.mem_range.mp hb))))

theorem completeWrite_mirrored {s : State} {id : Nat} {c : Cmd} (hc : cmdOf s id = some c) (hstage : c.stage = .mirroring)
    (hm : mirrored s c = true) : completeWrite id s = endWrite c c.good c.status s := by
  simp [completeWrite, hc, hstage, hm]

/-- The last acknowledgement of a write ends it. -/
theorem mirrorAckEffect_last {s : State} {n l : Nat} {g : Word16} {d : Cmd}
    (hfind : (s.hqe.cmds.find? fun c => c.nsid == n && decide (c.lba ≤ l) && c.gens[l - c.lba]? == some g) = some d)
    (hd : cmdOf s d.id = some d) (hstage : d.stage = .mirroring) (hlast : ∀ b, b < d.good → b = l - d.lba ∨ b ∈ d.acked) :
    mirrorAckEffect n l g s
      = endWrite (acknowledge l d) d.good d.status (modCmd d.id (acknowledge l) (blockAcked n l g s)) := by
  have hcmd : cmdOf (modCmd d.id (acknowledge l) (blockAcked n l g s)) d.id = some (acknowledge l d) := by
    rw [cmdOf_modCmd (f := acknowledge l) (fun _ => rfl)]
    exact congrArg (Option.map (acknowledge l)) hd
  have hall : ∀ b, b < (acknowledge l d).good → b ∈ (acknowledge l d).acked := fun b hb => mem_insertNat.mpr (hlast b hb)
  have hend := completeWrite_mirrored hcmd hstage (mirrored_of_acked hall _)
  unfold mirrorAckEffect
  simp only [hfind]
  exact hend

/-! ### Copies of the peer's settlement log (R105) -/

/-- Is an entry the copy of the peer's for a tenant and tag? -/
def isPeerTag (tn : Nat) (g : Word64) (e : Settle) : Bool := e.ofPeer && e.tenant == tn && e.tag == g

/-- The copy of an entry of the peer's log. -/
def peerSettle (tn : Nat) (g : Word64) (n : Nat) (o : Fin 5) (k : Nat) (s : State) : Settle :=
  ⟨tn, g, n, o, k, false, 65536, nowS s, s.hqe.order, true⟩

theorem settleEffect_settle (tn : Nat) (g : Word64) (n : Nat) (o : Fin 5) (k : Nat) (s : State) :
    (settleEffect tn g n o k s).hqe.settle
      = replaced (isPeerTag tn g) (peerSettle tn g n o k s) s.hqe.settle := rfl

theorem isPeerTag_peerSettle (tn : Nat) (g : Word64) (n : Nat) (o : Fin 5) (k : Nat) (s : State) :
    isPeerTag tn g (peerSettle tn g n o k s) = true := by simp [isPeerTag, peerSettle]

theorem ofPeer_of_isPeerTag {tn : Nat} {g : Word64} {e : Settle} (h : isPeerTag tn g e = true) : (!e.ofPeer) = false := by
  simp_all [isPeerTag]

/-! ### Relayed commands (R94) -/

/-- Data for the host's buffers is driven outward. -/
theorem forEach_toHost_out (k : QKey) (l : List (Nat × Bytes)) (s : State) :
    ∃ o, forEach l (fun p u => toHost k p.1 p.2 u) s = { s with out := o } := by
  refine forEach_induct (fun t => ∃ o, t = { s with out := o }) _ (fun p t ht => ?_) l s ⟨s.out, rfl⟩
  obtain ⟨o, rfl⟩ := ht
  unfold toHost
  split
  · exact ⟨o, rfl⟩
  · exact ⟨_, rfl⟩

/-- The result of a host's command that was relayed ends it, after the data has gone to its buffers. -/
theorem relayResult_host {s : State} {c : HostCmd} {x : Cmd}
    (hfind : (s.hqe.cmds.find? fun x => x.stage == .relayed peerDst && x.q == c.q && x.cid == c.cid) = some x)
    (ho : x.origin = .host) (st : Word16) (k r : Nat) (data : Bytes) :
    ∃ o, relayResult c st k r data s = finishCmd x.id st k r { s with out := o } := by
  obtain ⟨o, hdata⟩ := forEach_toHost_out x.q (scatter x.bufs 0 data) s
  unfold relayResult
  simp only [hfind, ho, hdata]
  cases x.op == 0x81
  · exact ⟨o, rfl⟩
  · exact ⟨s.out, rfl⟩

theorem isPartial_iff {st : Word16} {k n : Nat} : isPartial st k n = true ↔ st ≠ 0 ∧ 0 < k ∧ k < n := by
  simp [isPartial, and_assoc]

/-! ### Relayed queries (R94, R108) -/

theorem addCmd_peer {c : Cmd} (ho : c.origin = .peer) (s : State) :
    addCmd c s = { s with hqe := { s.hqe with cmds := s.hqe.cmds ++ [c], nextCmd := s.hqe.nextCmd + 1 } } := by
  simp [addCmd, ho]

theorem cmdOf_addCmd_peer {s : State} {c : Cmd} (h : cmdOf s c.id = none) (ho : c.origin = .peer) :
    cmdOf (addCmd c s) c.id = some c := by
  have hnone : s.hqe.cmds.find? (fun x => x.id == c.id) = none := h
  simp [addCmd_peer ho, cmdOf, List.find?_append, hnone]

/-- A command that ends at once leaves the outstanding commands as they were. -/
theorem without_append_new {s : State} {c : Cmd} (h : cmdOf s c.id = none) :
    without (fun x => x.id == c.id) (s.hqe.cmds ++ [c]) = s.hqe.cmds := by
  have hother : ∀ x ∈ s.hqe.cmds, x.id ≠ c.id := by simpa [cmdOf] using h
  simpa [without] using hother

@[simp] theorem gatheredBytes_single (b : Bytes) : gatheredBytes [(0, b)] = b := by
  simp [gatheredBytes, sortBy, insertBy]

theorem mustWait_query {w : Waiter} {s : State} (hop : w.c.op = 0x88) (hs : s.glb.service = .normal) : mustWait s w = false := by
  simp [mustWait, hop, hs]

/-- A command that the peer relayed ends with status 0: its result goes back over the link. -/
theorem finishCmd_peer {s : State} {c : Cmd} (hc : cmdOf s c.id = some c) (ho : c.origin = .peer) (hs : c.silent = false)
    (hop : c.op ≠ 0x81) (r : Nat) :
    ∃ qps, finishCmd c.id 0 0 r s = toPeer 0x14
      [1, c.q.f.port.val, c.q.f.fn.toNat, c.q.idx.toNat, c.cid.toNat, 0, 0, r] (gatheredBytes c.gathered)
      { s with hqe := { s.hqe with cmds := without (fun x => x.id == c.id) s.hqe.cmds, qps := qps } } := by
  refine ⟨(modQp c.q (unordered c.id) s).hqe.qps, ?_⟩
  simp only [finishCmd, hc, hs, ho, answerTo, beq_iff_eq, hop]
  rfl

/-- A relayed command with the data that goes back with its result. -/
def withData (b : Bytes) (c : Cmd) : Cmd := { c with gathered := [(0, b)] }

/-- A query that came over the link is answered over it, and the command is gone. -/
theorem answerQuery_peer {s : State} {c : Cmd} {tags : List Word64} {tn : Option Nat} {a : Nat} (hc : cmdOf s c.id = some c)
    (hstage : c.stage = .query tags tn false a) (ho : c.origin = .peer) (hs : c.silent = false) (hop : c.op ≠ 0x81) :
    ∃ qps, answerQuery c.id s = toPeer 0x14
      [1, c.q.f.port.val, c.q.f.fn.toNat, c.q.idx.toNat, c.cid.toNat, 0, 0, tags.length] (tags.flatMap (queryEntry s tn))
      { s with hqe := { s.hqe with cmds := without (fun x => x.id == c.id) s.hqe.cmds, qps := qps } } := by
  have hdata : cmdOf (modCmd c.id (withData (tags.flatMap (queryEntry s tn))) s) c.id
      = some (withData (tags.flatMap (queryEntry s tn)) c) := by
    rw [cmdOf_modCmd (f := withData _) (fun _ => rfl), hc]
    rfl
  obtain ⟨qps, hfinish⟩ := finishCmd_peer (c := withData _ c) hdata ho hs hop tags.length
  have hdropped := without_modFirst (p := fun x : Cmd => x.id == c.id) (f := withData (tags.flatMap (queryEntry s tn)))
    (fun _ => rfl) s.hqe.cmds
  refine ⟨qps, ?_⟩
  rw [← gatheredBytes_single (tags.flatMap _), ← hdropped]
  simp only [answerQuery, hc, hstage, ho]
  exact hfinish

/-- The outstanding command that a relayed query is here. -/
def relayedQuery (c : HostCmd) (w : Option Nat) (s : State) : Cmd :=
  { newCmd ⟨relayedEntry c c.buf, w, .peer⟩ (.query (queryTags c) w false c.q30) s with bufs := [], nblk := 0, good := 0 }

theorem relayedHere_query {s : State} {c : HostCmd} (w : Option Nat) (hop : c.op = 0x88) (hs : s.glb.service = .normal)
    (hwait : bitOf c.d3C 30 = false) (hrel : bitOf c.d3C 31 = false) :
    relayedHere c w s = answerQuery (relayedQuery c w s).id (addCmd (relayedQuery c w s) s) := by
  have h30 : bitOf (relayedEntry c c.buf).d3C 30 = false := hwait
  have h31 : bitOf (relayedEntry c c.buf).d3C 31 = false := hrel
  have hm : mustWait s ⟨relayedEntry c c.buf, w, .peer⟩ = false := mustWait_query hop hs
  simp only [relayedHere, hop, needsNormal, admitQuery, hm, h30, h31]
  rfl

/-- A relayed query is answered at once, and leaves no command and no change of the log. -/
theorem relayedHere_query_answers {s : State} {c : HostCmd} (w : Option Nat) (hop : c.op = 0x88) (hs : s.glb.service = .normal)
    (hwait : bitOf c.d3C 30 = false) (hrel : bitOf c.d3C 31 = false) (hfresh : cmdOf s s.hqe.nextCmd = none) :
    ∃ qps n, relayedHere c w s = toPeer 0x14
      [1, c.q.f.port.val, c.q.f.fn.toNat, c.q.idx.toNat, c.cid.toNat, 0, 0, (queryTags c).length]
      ((queryTags c).flatMap (queryEntry s w)) { s with hqe := { s.hqe with qps := qps, nextCmd := n } } := by
  have hnew : cmdOf s (relayedQuery c w s).id = none := hfresh
  have hadd := addCmd_peer (c := relayedQuery c w s) rfl s
  have hgone : without (fun x => x.id == (relayedQuery c w s).id) (addCmd (relayedQuery c w s) s).hqe.cmds = s.hqe.cmds := by
    rw [hadd]
    exact without_append_new hnew
  have hopcode : c.opcode ≠ 0x81 := fun h81 => by simp [HostCmd.op, h81] at hop
  obtain ⟨qps, hanswer⟩ := answerQuery_peer (cmdOf_addCmd_peer hnew rfl) rfl rfl rfl hopcode
  rw [hgone, hadd] at hanswer
  rw [relayedHere_query w hop hs hwait hrel, hadd]
  exact ⟨qps, _, hanswer⟩

/-! ### Nothing waits at admission (R93, R103, R106) -/

theorem retryTags_noneWaits {s : State} (h : NoneWaits s) : retryTags s = s := by
  have hnone : (s.hqe.cmds.filter fun c => c.stage == .waitTag) = [] :=
    List.filter_eq_nil_iff.mpr fun c hc => by simpa using (h.2 c hc).1
  simp [retryTags, hnone, forEach]

theorem grantAll_noneWaits {s : State} (h : NoneWaits s) : grantAll s = s := by
  have hnone : s.hqe.cmds.filter waitsAtAdmission = [] :=
    List.filter_eq_nil_iff.mpr fun c hc => by simpa using (h.2 c hc).2
  simp [grantAll, hnone]

theorem wakeBehind_noneWaits {s : State} (h : NoneWaits s) : wakeBehind s = s := by
  have hbehind : { s with hqe := { s.hqe with behind := [] } } = s := by rw [← h.1]
  simp [wakeBehind, h.1, forEach, hbehind]

theorem readmit_noneWaits {s : State} (h : NoneWaits s) : readmit s = s := by
  rw [readmit, retryTags_noneWaits h, grantAll_noneWaits h, wakeBehind_noneWaits h]

/-- The peer's staging limit is in force here (R225). -/
def limitPeer (l : Option Nat) (s : State) : State := { s with ing := { s.ing with peerSLim := l } }

/-! ### The messages -/

theorem completes_mirror {s : State} {h : PeerHdr} (hp : FromPeer s h) {n : BitVec 14} {l tn b k : Nat} {g : Word16}
    {tag : Option Word64} {d : Bytes} (hl : l < 2 ^ 64) (htn : tn < 4096) (hb : b < k) (hd : d.length = 4096)
    (hrole : s.peer.role = .active) (ha : asleep s = false) (hpow : s.clk.newPower = none) :
    Completes (.mirror h n l g tn tag b k d) s fun t =>
      (∃ m ∈ t.ing.mirror, m.nsid = n.toNat ∧ m.lba = l ∧ m.gen = g ∧ m.data = d ∧ m.tenant = tn ∧ m.tag = tag ∧ m.block = b ∧ m.nblk = k)
      ∧ t.out = [.peerMsg 0x11 s.peer.epoch [n.toNat, l, g.toNat] []] ∧ Frame [.peer, .ing] s t := by
  refine completes_fromPeer (f := mirrorEffect n.toNat l g tn tag b k d) hp rfl (by simpa [Instr.wf, htn, hb, hd] using hl) ?_
  rw [mirrorEffect_stores (s := heard h s.quiet) hp.1 hrole ha hpow]
  exact ⟨⟨⟨n.toNat, l, g, d, tn, tag, b, k, false⟩, by simp [storeMirror, replaced], rfl, rfl, rfl, rfl, rfl, rfl, rfl, rfl⟩, rfl,
    (heard_frame h s).append ((frame_ing _ _).trans (frame_emit _ _ _))⟩

theorem completes_mirrorAck {s : State} {h : PeerHdr} (hp : FromPeer s h) {n : BitVec 14} {l : Nat} {g : Word16} {d : Cmd} {q : Qp}
    (hl : l < 2 ^ 64)
    (hfind : (s.hqe.cmds.find? fun c => c.nsid == n.toNat && decide (c.lba ≤ l) && c.gens[l - c.lba]? == some g) = some d)
    (hd : Outstanding s d.id d q) (hstage : d.stage = .mirroring) (hstatus : d.status = 0) (hgood : d.good = d.nblk)
    (hlast : ∀ b, b < d.nblk → b = l - d.lba ∨ b ∈ d.acked) :
    Completes (.mirrorAck h n l g) s fun t =>
      Ended d q 0 false 0 0 t ∧ (∀ e ∈ t.ing.staging, e.nsid = n.toNat → e.lba = l → e.gen = g → e.mirrored = true)
      ∧ Frame [.peer, .ing, .hqe, .hep] s t := by
  refine completes_fromPeer (f := mirrorAckEffect n.toNat l g) hp rfl (decide_eq_true hl) ?_
  rw [mirrorAckEffect_last (s := heard h s.quiet) hfind hd.1 hstage (hgood ▸ hlast), hstatus]
  have hacked : Outstanding (blockAcked n.toNat l g (heard h s.quiet)) d.id d q := hd.congr rfl rfl rfl
  obtain ⟨hended, hstaging, hframe⟩ := endWrite_ended (d := acknowledge l d)
    (outstanding_modCmd hacked (f := acknowledge l) (fun _ => rfl) ⟨rfl, rfl, rfl⟩) d.good 0
  refine ⟨hended, ?_, ?_⟩
  · rw [hstaging]
    exact withoutOld_blockAcked_mirrored d.id n.toNat l g (heard h s.quiet)
  · have hmarked : Frame [.ing, .hqe] (heard h s.quiet) (modCmd d.id (acknowledge l) (blockAcked n.toNat l g (heard h s.quiet))) :=
      (frame_ing _ _).append (frame_hqe _ _)
    exact (heard_frame h s).append ((hmarked.append hframe).mono (by simp))

theorem completes_settle {s : State} {h : PeerHdr} (hp : FromPeer s h) {tn k : Nat} (htn : tn < 4096) (hk : k < 2 ^ 16) (g : Word64)
    (n : BitVec 14) (o : Fin 5) :
    Completes (.settle h tn g n o k) s fun t =>
      (∃ e, (t.hqe.settle.filter fun e => e.ofPeer && e.tenant == tn && e.tag == g) = [e] ∧ e.nsid = n.toNat ∧ e.outcome = o ∧ e.count = k)
      ∧ (t.hqe.settle.filter fun e => !e.ofPeer) = (s.hqe.settle.filter fun e => !e.ofPeer) ∧ t.out = [] ∧ Frame [.peer, .hqe] s t := by
  refine completes_fromPeer (f := settleEffect tn g n.toNat o k) hp rfl (by simpa [Instr.wf, htn] using hk) ?_
  have hcopy := isPeerTag_peerSettle tn g n.toNat o k (heard h s.quiet)
  rw [settleEffect_settle]
  have hown := filter_replaced_other (r := fun e => !e.ofPeer) (fun _ => ofPeer_of_isPeerTag) hcopy s.hqe.settle
  exact ⟨⟨_, filter_replaced hcopy _, rfl, rfl, rfl⟩, hown, rfl, (heard_frame h s).append (frame_hqe _ _)⟩

theorem completes_relayResult {s : State} {h : PeerHdr} (hp : FromPeer s h) {c : HostCmd} {x : Cmd} {q : Qp} {st : Word16} {k n : Nat}
    (hfind : (s.hqe.cmds.find? fun x => x.stage == .relayed peerDst && x.q == c.q && x.cid == c.cid) = some x)
    (hx : Outstanding s x.id x q) (hn : n = (if st ≠ 0 ∧ 0 < k ∧ k < x.nblk then k else 0)) (w : Option Nat) (r : Nat) (data : Bytes) :
    Completes (.relay h c w (some (st, k, r, data))) s fun t =>
      Ended x q st (decide (0 < n)) n r t ∧ Frame [.peer, .hqe, .hep] s t := by
  refine completes_fromPeer (f := relayResult c st k r data) hp rfl rfl ?_
  have ⟨_, ho, _⟩ := hx
  obtain ⟨o, hres⟩ := relayResult_host (s := heard h s.quiet) hfind ho st k r data
  have hout : Outstanding { heard h s.quiet with out := o } x.id x q := hx.congr rfl rfl rfl
  rw [hres]
  refine ⟨?_, (heard_frame h s).append ((frame_out _ _ o).trans (finishCmd_frame hout st k r))⟩
  have hend := finishCmd_ended hout st k r
  have hpart : isPartial st k x.nblk = decide (0 < n) := by
    rw [Bool.eq_iff_iff, isPartial_iff, hn]
    split <;> simp_all
  have hcount : (if isPartial st k x.nblk then k else 0) = n := by
    simp only [isPartial_iff, hn]
  rwa [hcount, hpart] at hend

theorem completes_relayQuery {s : State} {h : PeerHdr} (hp : FromPeer s h) {c : HostCmd} (w : Option Nat) (hop : c.op = 0x88)
    (hs : s.glb.service = .normal) (hwait : bitOf c.d3C 30 = false) (hrel : bitOf c.d3C 31 = false)
    (hfresh : cmdOf s s.hqe.nextCmd = none) :
    Completes (.relay h c w none) s fun t =>
      t.out = [.peerMsg 0x14 s.peer.epoch [1, c.q.f.port.val, c.q.f.fn.toNat, c.q.idx.toNat, c.cid.toNat, 0, 0, (queryTags c).length]
        ((queryTags c).flatMap (queryEntry s w))]
      ∧ t.hqe.cmds = s.hqe.cmds ∧ t.hqe.settle = s.hqe.settle ∧ Frame [.peer, .hqe] s t := by
  refine completes_fromPeer (f := relayedHere c w) hp rfl rfl ?_
  obtain ⟨qps, k, hanswer⟩ := relayedHere_query_answers (s := heard h s.quiet) w hop hs hwait hrel hfresh
  rw [hanswer, toPeer_linkUp (s := { heard h s.quiet with hqe := _ }) hp.1]
  exact ⟨rfl, rfl, rfl, (heard_frame h s).append ((frame_hqe _ _).trans (frame_emit _ _ _))⟩

/-! ### The obligation -/

/-- Settles O40: each message under the epoch in force has its effect; a write and a relayed command end as any command of a
host's queue pair does, and a relayed query's command is gone with its answer. -/
theorem writesAreMirrored : Obligations.WritesAreMirrored := by
  unfold Obligations.WritesAreMirrored
  refine ⟨fun s h n l g hp hl => ⟨?mirror, ?mirrorAck, ?release⟩, ?settle, fun s h c w hp => ⟨?result, ?query⟩, ?stagingLimit⟩
  case mirror => exact fun tn tag b k d htn hb hd hrole ha hpow => completes_mirror hp hl htn hb hd hrole ha hpow
  case mirrorAck =>
    exact fun d q hfind hd hstage hstatus hgood hlast => completes_mirrorAck hp hl hfind hd hstage hstatus hgood hlast
  case release =>
    exact completes_fromPeer (f := releaseEffect n.toNat l g) hp rfl (decide_eq_true hl)
      ⟨rfl, rfl, (heard_frame h s).append (frame_ing _ _)⟩
  case settle => exact fun s h tn g n o k hp htn hk => completes_settle hp htn hk g n o
  case result => exact fun x q st k r data n hfind hx hn => completes_relayResult hp hfind hx hn w r data
  case query => exact fun hop hs hwait hrel hfresh => completes_relayQuery hp w hop hs hwait hrel hfresh
  case stagingLimit =>
    intro s h l hp hnone
    refine completes_fromPeer (f := fun t => readmit (limitPeer l t)) hp rfl rfl ?_
    rw [readmit_noneWaits (s := limitPeer l (heard h s.quiet)) hnone]
    exact ⟨rfl, rfl, (heard_frame h s).append (frame_ing _ _)⟩

end Sys2Proof.Machine
end

section
/-! SUPPORT. What no operation but a reset, a fuse or a change of the service state touches: one lemma for each operation of the
model that answers a state, in the order of the model's files, so that no later proof walks through an operation again. -/

namespace Sys2Proof.Machine

/-- What only resets, the fuses and the changes of R58 touch: the queue of waiting commands, the service state, the fuses, the
serial number and the stepping. -/
structure Anchor where
  pending : List Instr
  service : Service
  debugOff : Bool
  revoked : BitVec 4
  unitSerial : Word64
  steppingB0 : Bool

/-- The anchor of a state. -/
def State.anchor (s : State) : Anchor :=
  ⟨s.pending, s.glb.service, s.glb.debugOff, s.glb.revoked, s.glb.unitSerial, s.glb.steppingB0⟩

/-- Any part but the chip's own may change under an anchor. -/
@[simp] theorem anchor_update (s : State) (a : Pins) (b : Clk) (c : Cache) (d : Nvc) (e : Wch) (f : Hep) (g : Hqe) (h : Ing)
    (i : Bal) (j : Sec) (k : Med) (l : Plf) (m : Far) (n : Par) (o : Til) (p : Snp) (q : Peer) (r : Pairing) (t : Rdm) (u : Mch)
    (v : Drc) (w : Evr) (x : Svc) (y z : List Host.Cell) (ctr : Nat) (out : List Output) :
    State.anchor ⟨s.glb, a, b, c, d, e, f, g, h, i, j, k, l, m, n, o, p, q, r, t, u, v, w, x, y, z, ctr, out, s.pending⟩
      = s.anchor := (rfl)

/-- The chip's own part may change too, in what is not anchored. -/
@[simp] theorem anchor_updateChip {s : State} {glb : Glb} (hservice : glb.service = s.glb.service)
    (hdebug : glb.debugOff = s.glb.debugOff) (hrevoked : glb.revoked = s.glb.revoked)
    (hserial : glb.unitSerial = s.glb.unitSerial) (hstep : glb.steppingB0 = s.glb.steppingB0)
    (a : Pins) (b : Clk) (c : Cache) (d : Nvc) (e : Wch) (f : Hep) (g : Hqe) (h : Ing)
    (i : Bal) (j : Sec) (k : Med) (l : Plf) (m : Far) (n : Par) (o : Til) (p : Snp) (q : Peer) (r : Pairing) (t : Rdm) (u : Mch)
    (v : Drc) (w : Evr) (x : Svc) (y z : List Host.Cell) (ctr : Nat) (out : List Output) :
    State.anchor ⟨glb, a, b, c, d, e, f, g, h, i, j, k, l, m, n, o, p, q, r, t, u, v, w, x, y, z, ctr, out, s.pending⟩
      = s.anchor := by
  simp only [State.anchor, hservice, hdebug, hrevoked, hserial, hstep]

@[simp] theorem anchor_ite (c : Prop) [Decidable c] (s t : State) :
    (if c then s else t).anchor = if c then s.anchor else t.anchor := apply_ite State.anchor c s t

@[simp] theorem done_ite (c : Prop) [Decidable c] (d e : AdminDone) :
    (if c then d else e).2.2.anchor = if c then d.2.2.anchor else e.2.2.anchor :=
  apply_ite (fun d : AdminDone => d.2.2.anchor) c d e

/-- A fold keeps what each step keeps. -/
theorem foldl_keeps {σ α β : Type} (g : σ → β) (f : σ → α → σ) (h : ∀ x a, g (f x a) = g x) (l : List α) (x : σ) :
    g (l.foldl f x) = g x := by
  induction l generalizing x with
  | nil => rfl
  | cons a l ih => exact (ih _).trans (h x a)

@[simp] theorem forEach_anchor {α : Type} {f : α → State → State} (h : ∀ x t, (f x t).anchor = t.anchor) (l : List α)
    (s : State) : (forEach l f s).anchor = s.anchor := forEach_keeps State.anchor f h l s

@[simp] theorem onlyIf_anchor {f : State → State} (h : ∀ t, (f t).anchor = t.anchor) (b : Bool) (s : State) :
    (onlyIf b f s).anchor = s.anchor := by
  cases b
  · rfl
  · exact h s

@[simp] theorem forSome_anchor {α : Type} {f : α → State → State} (h : ∀ x t, (f x t).anchor = t.anchor) (o : Option α)
    (s : State) : (forSome o f s).anchor = s.anchor := by
  cases o with
  | none => rfl
  | some x => exact h x s

/-! ### Machine/Ops.lean -/

@[simp] theorem emit_anchor (o : Output) (s : State) : (emit o s).anchor = s.anchor := by simp [emit]
@[simp] theorem tickLong_anchor (n : Nat) (s : State) : (tickLong n s).anchor = s.anchor := by simp [tickLong]
@[simp] theorem tick_anchor (s : State) : (tick s).anchor = s.anchor := by simp [tick]
@[simp] theorem modPort_anchor (p : Fin 2) (f : Port → Port) (s : State) : (modPort p f s).anchor = s.anchor := by simp [modPort]

/-! ### Machine/Events.lean -/

@[simp] theorem lostCheck_anchor (s : State) : (lostCheck s).anchor = s.anchor := by simp [lostCheck]
@[simp] theorem offerRec_anchor (e : EvRec) (s : State) : (offerRec e s).anchor = s.anchor := by simp [offerRec]

@[simp] theorem raise_anchor (b : Blk) (v : Sev) (rule n : Nat) (args : List Nat) (s : State) :
    (raise b v rule n args s).anchor = s.anchor := by simp [raise]

@[simp] theorem raiseListed_anchor (b : Blk) (v : Sev) (code : Nat) (payload : Bytes) (s : State) :
    (raiseListed b v code payload s).anchor = s.anchor := by simp [raiseListed]

@[simp] theorem raiseIf_anchor (c : Bool) (b : Blk) (v : Sev) (rule n : Nat) (args : List Nat) (s : State) :
    (raiseIf c b v rule n args s).anchor = s.anchor := by simp [raiseIf]

/-! ### Machine/Nvc.lean -/

@[simp] theorem norServe_anchor (r : Nat × Nat) (s : State) : (norServe r s).anchor = s.anchor := by simp [norServe]
@[simp] theorem norServeAll_anchor (s : State) : (norServeAll s).anchor = s.anchor := by simp [norServeAll]
@[simp] theorem norSuspendNow_anchor (s : State) : (norSuspendNow s).anchor = s.anchor := by simp [norSuspendNow]
@[simp] theorem norTrySuspend_anchor (s : State) : (norTrySuspend s).anchor = s.anchor := by simp [norTrySuspend]
@[simp] theorem norIssueOp_anchor (o : NorOp) (s : State) : (norIssueOp o s).anchor = s.anchor := by simp [norIssueOp]

@[simp] theorem norStartOne_anchor (s : State) : (norStartOne s).anchor = s.anchor := by
  unfold norStartOne; split <;> simp

@[simp] theorem norStartNext_anchor (s : State) : (norStartNext s).anchor = s.anchor := by simp [norStartNext]
@[simp] theorem norResumeNow_anchor (s : State) : (norResumeNow s).anchor = s.anchor := by simp [norResumeNow]
@[simp] theorem norInterrupt_anchor (o : NorOp) (s : State) : (norInterrupt o s).anchor = s.anchor := by simp [norInterrupt]
@[simp] theorem norReset_anchor (s : State) : (norReset s).anchor = s.anchor := by simp [norReset]

@[simp] theorem norReadRequestEffect_anchor (a n : Nat) (s : State) : (norReadRequestEffect a n s).anchor = s.anchor :=
  by simp [norReadRequestEffect]

@[simp] theorem nvcMinRunExpiryEffect_anchor (s : State) : (nvcMinRunExpiryEffect s).anchor = s.anchor :=
  by simp [nvcMinRunExpiryEffect]

@[simp] theorem nvcTsusExpiryEffect_anchor (s : State) : (nvcTsusExpiryEffect s).anchor = s.anchor :=
  by simp [nvcTsusExpiryEffect]

@[simp] theorem nvcSuspendLimitExpiryEffect_anchor (s : State) : (nvcSuspendLimitExpiryEffect s).anchor = s.anchor :=
  by simp [nvcSuspendLimitExpiryEffect]

@[simp] theorem norRequest_anchor (o : NorOp) (s : State) : (norRequest o s).anchor = s.anchor := by simp [norRequest]
@[simp] theorem norComplete_anchor (o : NorOp) (s : State) : (norComplete o s).anchor = s.anchor := by simp [norComplete]
@[simp] theorem norPowerFail_anchor (s : State) : (norPowerFail s).anchor = s.anchor := by simp [norPowerFail]

/-! ### Machine/Recorder.lean -/

@[simp] theorem recorderReclaim_anchor (s : State) : (recorderReclaim s).anchor = s.anchor := by
  unfold recorderReclaim; (repeat' split) <;> simp

@[simp] theorem afterErase_anchor (s : State) : (afterErase s).anchor = s.anchor := by simp [afterErase]

@[simp] theorem norOperationDoneEffect_anchor (s : State) : (norOperationDoneEffect s).anchor = s.anchor := by
  unfold norOperationDoneEffect; split <;> simp

@[simp] theorem openSector_anchor (s : State) : (openSector s).anchor = s.anchor := by
  simp only [openSector]; split <;> simp

@[simp] theorem ensureSector_anchor (s : State) : (ensureSector s).anchor = s.anchor := by simp [ensureSector]
@[simp] theorem drainStart_anchor (s : State) : (drainStart s).anchor = s.anchor := by simp [drainStart]
@[simp] theorem drainMark_anchor (o : NorOp) (s : State) : (drainMark o s).anchor = s.anchor := by simp [drainMark]
@[simp] theorem offered_anchor (e : OfferedEvent) (s : State) : (offered e s).anchor = s.anchor := by simp [offered]
@[simp] theorem authBurst_anchor (s : State) : (authBurst s).anchor = s.anchor := by simp [authBurst]

@[simp] theorem secondBoundaryEffect_anchor (s : State) : (secondBoundaryEffect s).anchor = s.anchor := by
  unfold secondBoundaryEffect
  rw [authBurst_anchor, foldl_keeps State.anchor _ fun t e => by simp]
  simp

@[simp] theorem eraseBadHeaders_anchor (s : State) : (eraseBadHeaders s).anchor = s.anchor := by simp [eraseBadHeaders]

@[simp] theorem sequenceBaseSetEffect_anchor (s : State) : (sequenceBaseSetEffect s).anchor = s.anchor := by
  unfold sequenceBaseSetEffect
  split
  · rfl
  · rw [foldl_keeps State.anchor _ fun t a => by simp]
    simp

@[simp] theorem norRecordProgramDoneEffect_anchor (s : State) : (norRecordProgramDoneEffect s).anchor = s.anchor := by
  simp only [norRecordProgramDoneEffect]; split <;> simp

@[simp] theorem setRdChan_anchor (n : Fin 2) (c : RdChan) (s : State) : (setRdChan n c s).anchor = s.anchor := by simp [setRdChan]

@[simp] theorem evrReadRequestEffect_anchor (n : Fin 2) (upper : Word32) (s : State) :
    (evrReadRequestEffect n upper s).anchor = s.anchor := by simp [evrReadRequestEffect]

/-! ### Machine/Queues.lean -/

@[simp] theorem modQp_anchor (k : QKey) (f : Qp → Qp) (s : State) : (modQp k f s).anchor = s.anchor := by simp [modQp]
@[simp] theorem putVector_anchor (e : Vector_) (s : State) : (putVector e s).anchor = s.anchor := by simp [putVector]
@[simp] theorem signal_anchor (f : FnId) (v : Nat) (s : State) : (signal f v s).anchor = s.anchor := by simp [signal]

@[simp] theorem postOne_anchor (k : QKey) (e : Cqe) (s : State) : (postOne k e s).anchor = s.anchor := by
  unfold postOne; split <;> simp

@[simp] theorem postCqe_anchor (k : QKey) (e : Cqe) (s : State) : (postCqe k e s).anchor = s.anchor := by
  unfold postCqe; split <;> simp

@[simp] theorem postWaiting_anchor (k : QKey) (n : Nat) (s : State) : (postWaiting k n s).anchor = s.anchor := by
  induction n generalizing s with
  | zero => rfl
  | succ n ih =>
    unfold postWaiting
    (repeat' split) <;> simp [ih]

@[simp] theorem toPeer_anchor (type : Nat) (args : List Nat) (data : Bytes) (s : State) :
    (toPeer type args data s).anchor = s.anchor := by simp [toPeer]

@[simp] theorem mirrorSettle_anchor (e : Settle) (s : State) : (mirrorSettle e s).anchor = s.anchor := by simp [mirrorSettle]
@[simp] theorem addSettle_anchor (e : Settle) (s : State) : (addSettle e s).anchor = s.anchor := by simp [addSettle]
@[simp] theorem dropSettle_anchor (p : Settle → Bool) (s : State) : (dropSettle p s).anchor = s.anchor := by simp [dropSettle]

theorem settleRoom_anchor {s t : State} (h : settleRoom s = some t) : t.anchor = s.anchor := by
  unfold settleRoom at h
  (repeat' split at h) <;> simp at h <;> simp [← h]

theorem settleCreate_anchor {t nsid qp : Nat} {g : Word64} {s u : State} (h : settleCreate t g nsid qp s = some u) :
    u.anchor = s.anchor := by
  unfold settleCreate at h
  dsimp only at h
  split at h
  · next hr => simp at h; simp [← h, settleRoom_anchor hr]
  · cases h

@[simp] theorem settleTag_anchor (t : Nat) (g : Word64) (k n : Nat) (s : State) : (settleTag t g k n s).anchor = s.anchor := by
  unfold settleTag; split <;> simp

@[simp] theorem pinTrim_anchor (n : Nat) (s : State) : (pinTrim n s).anchor = s.anchor := by
  induction n generalizing s with
  | zero => rfl
  | succ n ih =>
    unfold pinTrim
    (repeat' split) <;> simp [ih]

@[simp] theorem pinEntries_anchor (p : Settle → Bool) (s : State) : (pinEntries p s).anchor = s.anchor := by simp [pinEntries]
@[simp] theorem pinQps_anchor (ids : List Nat) (s : State) : (pinQps ids s).anchor = s.anchor := by simp [pinQps]
@[simp] theorem logError_anchor (r : QErr) (s : State) : (logError r s).anchor = s.anchor := by simp [logError]

@[simp] theorem freezeQueue_anchor (k : QKey) (cause idx : Nat) (head : Bytes) (s : State) :
    (freezeQueue k cause idx head s).anchor = s.anchor := by
  unfold freezeQueue; split <;> simp

@[simp] theorem modTenant_anchor (t : Nat) (f : Tenant → Tenant) (s : State) : (modTenant t f s).anchor = s.anchor :=
  by simp [modTenant]

@[simp] theorem returnCredit_anchor (t : Option Nat) (s : State) : (returnCredit t s).anchor = s.anchor := by
  unfold returnCredit; split <;> simp

@[simp] theorem takeCredits_anchor (t n : Nat) (s : State) : (takeCredits t n s).anchor = s.anchor := by simp [takeCredits]
@[simp] theorem modCmd_anchor (id : Nat) (f : Cmd → Cmd) (s : State) : (modCmd id f s).anchor = s.anchor := by simp [modCmd]
@[simp] theorem dropCmd_anchor (id : Nat) (s : State) : (dropCmd id s).anchor = s.anchor := by simp [dropCmd]

@[simp] theorem answerTo_anchor (o : Origin) (q : QKey) (cid status : Word16) (k n result : Nat) (data : Bytes) (s : State) :
    (answerTo o q cid status k n result data s).anchor = s.anchor := by
  unfold answerTo; split <;> simp

@[simp] theorem answerCmd_anchor (w : Waiter) (status : Word16) (result : Nat) (s : State) :
    (answerCmd w status result s).anchor = s.anchor := by simp [answerCmd]

@[simp] theorem finishCmd_anchor (id : Nat) (status : Word16) (k result : Nat) (s : State) :
    (finishCmd id status k result s).anchor = s.anchor := by
  unfold finishCmd; split <;> simp

@[simp] theorem fetchRow_anchor (c : HostCmd) (f : Qp → State → State) (s : State) (hf : ∀ y1 t, (f y1 t).anchor = t.anchor) :
    (fetchRow c f s).anchor = s.anchor := by
  unfold fetchRow; (repeat' split) <;> simp_all

@[simp] theorem addCmd_anchor (c : Cmd) (s : State) : (addCmd c s).anchor = s.anchor := by simp [addCmd]

@[simp] theorem toHostPoison_anchor (q : QKey) (addr : Nat) (data : Bytes) (s : State) :
    (toHostPoison q addr data s).anchor = s.anchor := by simp [toHostPoison]

@[simp] theorem toHost_anchor (q : QKey) (addr : Nat) (data : Bytes) (s : State) : (toHost q addr data s).anchor = s.anchor :=
  by simp [toHost]

/-! ### Machine/Staging.lean -/

@[simp] theorem modEntry_anchor (slot : Nat) (f : StEntry → StEntry) (s : State) : (modEntry slot f s).anchor = s.anchor :=
  by simp [modEntry]

@[simp] theorem noteOccupancy_anchor (s : State) : (noteOccupancy s).anchor = s.anchor := by simp [noteOccupancy]
@[simp] theorem freeEntry_anchor (e : StEntry) (s : State) : (freeEntry e s).anchor = s.anchor := by simp [freeEntry]

@[simp] theorem sendRelease_anchor (nsid lba : Nat) (g : Word16) (s : State) : (sendRelease nsid lba g s).anchor = s.anchor :=
  by simp [sendRelease]

@[simp] theorem releaseEntry_anchor (e : StEntry) (s : State) : (releaseEntry e s).anchor = s.anchor := by simp [releaseEntry]

@[simp] theorem sendMirror_anchor (e : StEntry) (tag : Option Word64) (nblk : Nat) (s : State) :
    (sendMirror e tag nblk s).anchor = s.anchor := by simp [sendMirror]

@[simp] theorem reachStaged_anchor (e : StEntry) (tag : Option Word64) (nblk : Nat) (s : State) :
    (reachStaged e tag nblk s).anchor = s.anchor := by simp [reachStaged]

@[simp] theorem stagePrefix_anchor (c : Cmd) (s : State) : (stagePrefix c s).anchor = s.anchor :=
  forEach_anchor (fun b t => by split <;> simp) _ _

@[simp] theorem endWrite_anchor (c : Cmd) (k : Nat) (status : Word16) (s : State) :
    (endWrite c k status s).anchor = s.anchor := by
  unfold endWrite; split <;> simp

@[simp] theorem completeWrite_anchor (id : Nat) (s : State) : (completeWrite id s).anchor = s.anchor := by
  unfold completeWrite; split <;> simp

@[simp] theorem advanceWrite_anchor (id : Nat) (s : State) : (advanceWrite id s).anchor = s.anchor := by
  unfold advanceWrite; split <;> simp

@[simp] theorem freeFilling_anchor (id : Nat) (s : State) : (freeFilling id s).anchor = s.anchor := by simp [freeFilling]

@[simp] theorem cutWrite_anchor (id : Nat) (s : State) : (cutWrite id s).anchor = s.anchor := by
  unfold cutWrite; split <;> simp

@[simp] theorem withdrawMirror_anchor (nsid lba : Nat) (g : Word16) (s : State) :
    (withdrawMirror nsid lba g s).anchor = s.anchor := by simp [withdrawMirror]

@[simp] theorem takeBack_anchor (e : StEntry) (s : State) : (takeBack e s).anchor = s.anchor := by
  unfold takeBack; split <;> simp

@[simp] theorem endVoid_anchor (e : StEntry) (s : State) : (endVoid e s).anchor = s.anchor := by simp [endVoid]

@[simp] theorem poisonWrite_anchor (id : Nat) (s : State) : (poisonWrite id s).anchor = s.anchor := by
  unfold poisonWrite; split <;> simp

@[simp] theorem touchPage_anchor (p : Nat × Nat) (s : State) : (touchPage p s).anchor = s.anchor := by
  unfold touchPage; (repeat' split) <;> simp

@[simp] theorem dirtyChunk_anchor (no : Nat) (s : State) : (dirtyChunk no s).anchor = s.anchor := by simp [dirtyChunk]

@[simp] theorem touchRange_anchor (nsid lba n : Nat) (s : State) : (touchRange nsid lba n s).anchor = s.anchor :=
  by simp [touchRange]

@[simp] theorem takeSlots_anchor (c : Cmd) (s : State) : (takeSlots c s).anchor = s.anchor := by
  unfold takeSlots; split <;> simp

@[simp] theorem grantOne_anchor (id : Nat) (p : Bool × State) : (grantOne id p).2.anchor = p.2.anchor := by
  unfold grantOne
  (repeat' split) <;> simp

@[simp] theorem grantAll_anchor (s : State) : (grantAll s).anchor = s.anchor := by
  unfold grantAll
  split
  · rfl
  · exact foldl_keeps (fun p : Bool × State => p.2.anchor) _ (fun p id => grantOne_anchor id p) _ (false, s)

/-! ### Machine/Lanes.lean -/

@[simp] theorem modLane_anchor (n : Nat) (f : Lane → Lane) (s : State) : (modLane n f s).anchor = s.anchor := by simp [modLane]

@[simp] theorem noteDieRun_anchor (n : Nat) (c : FarCmd) (s : State) : (noteDieRun n c s).anchor = s.anchor :=
  by simp [noteDieRun]

@[simp] theorem putFrame_anchor (n tag : Nat) (c : FarCmd) (s : State) : (putFrame n tag c s).anchor = s.anchor :=
  by simp [putFrame]

@[simp] theorem sendNow_anchor (n : Nat) (c : FarCmd) (s : State) : (sendNow n c s).anchor = s.anchor := by simp [sendNow]
@[simp] theorem farSend_anchor (n : Nat) (c : FarCmd) (s : State) : (farSend n c s).anchor = s.anchor := by simp [farSend]

@[simp] theorem sendWaiting_anchor (n k : Nat) (s : State) : (sendWaiting n k s).anchor = s.anchor := by
  induction k generalizing s with
  | zero => rfl
  | succ k ih =>
    unfold sendWaiting
    (repeat' split) <;> simp [ih]

@[simp] theorem sendAgain_anchor (n k : Nat) (s : State) : (sendAgain n k s).anchor = s.anchor := by
  induction k generalizing s with
  | zero => rfl
  | succ k ih =>
    unfold sendAgain
    (repeat' split) <;> simp [ih]

@[simp] theorem serveLane_anchor (n : Nat) (s : State) : (serveLane n s).anchor = s.anchor := by simp [serveLane]
@[simp] theorem resend_anchor (n : Nat) (o : FarOut) (s : State) : (resend n o s).anchor = s.anchor := by simp [resend]
@[simp] theorem farUrgent_anchor (n : Nat) (c : FarCmd) (s : State) : (farUrgent n c s).anchor = s.anchor := by simp [farUrgent]

@[simp] theorem modDieRun_anchor (n d : Nat) (f : DieRun → DieRun) (s : State) : (modDieRun n d f s).anchor = s.anchor :=
  by simp [modDieRun]

@[simp] theorem trySuspend_anchor (n d : Nat) (s : State) : (trySuspend n d s).anchor = s.anchor := by
  unfold trySuspend; split <;> simp

@[simp] theorem urgentRead_anchor (m : Member) (slc : Bool) (page off count : Nat) (s : State) :
    (urgentRead m slc page off count s).anchor = s.anchor := by simp [urgentRead]

@[simp] theorem readMember_anchor (m : Member) (slc : Bool) (page off count : Nat) (s : State) :
    (readMember m slc page off count s).anchor = s.anchor := by simp [readMember]

@[simp] theorem readStored_anchor (g : Seg) (stripe gran n : Nat) (s : State) : (readStored g stripe gran n s).anchor = s.anchor :=
  forEach_anchor (fun p t => by split <;> simp) _ _

@[simp] theorem readPage_anchor (p : Nat × Nat) (s : State) : (readPage p s).anchor = s.anchor := by
  simp only [readPage]; split <;> simp

/-! ### Machine/HqeIo.lean -/

@[simp] theorem takeId_anchor (s : State) : (takeId s).anchor = s.anchor := by simp [takeId]

@[simp] theorem deliver_anchor (c : Cmd) (off : Nat) (data : Bytes) (s : State) : (deliver c off data s).anchor = s.anchor := by
  unfold deliver; split <;> simp

@[simp] theorem modSeg_anchor (no : Nat) (f : Seg → Seg) (s : State) : (modSeg no f s).anchor = s.anchor := by simp [modSeg]

@[simp] theorem addJob_anchor (c : Cmd) (parts : List (Nat × Nat × Nat × Nat × Nat)) (chunk : Nat) (s : State) :
    (addJob c parts chunk s).anchor = s.anchor := by simp [addJob]

@[simp] theorem endRead_anchor (id : Nat) (s : State) : (endRead id s).anchor = s.anchor := by
  unfold endRead; split <;> simp

@[simp] theorem startRead_anchor (c : Cmd) (n : Ns) (s : State) : (startRead c n s).anchor = s.anchor := by
  simp only [startRead]
  split
  · simp
  · split
    · rw [endRead_anchor, forEach_anchor fun p t => by split <;> simp]; simp
    · rw [forEach_anchor fun k t => addJob_anchor .., forEach_anchor fun p t => by split <;> simp]; simp

@[simp] theorem endJob_anchor (j : ReadJob) (status : Word16) (s : State) : (endJob j status s).anchor = s.anchor :=
  by simp [endJob]

@[simp] theorem sentOn_anchor (p : RcQp → Bool) (len : Nat) (s : State) : (sentOn p len s).anchor = s.anchor := by simp [sentOn]

@[simp] theorem sendRelay_anchor (c : Cmd) (dst : Nat) (s : State) : (sendRelay c dst s).anchor = s.anchor := by
  unfold sendRelay; (repeat' split) <;> simp

@[simp] theorem startRelay_anchor (w : Waiter) (dst : Nat) (s : State) : (startRelay w dst s).anchor = s.anchor :=
  by simp [startRelay]

@[simp] theorem relayOrWait_anchor (w : Waiter) (dst : Nat) (s : State) : (relayOrWait w dst s).anchor = s.anchor :=
  by simp [relayOrWait]

@[simp] theorem waitPages_anchor (c : Cmd) (s : State) : (waitPages c s).anchor = s.anchor := by simp [waitPages]
@[simp] theorem admitRead_anchor (w : Waiter) (n : Ns) (s : State) : (admitRead w n s).anchor = s.anchor := by simp [admitRead]
@[simp] theorem admitSlots_anchor (c : Cmd) (s : State) : (admitSlots c s).anchor = s.anchor := by simp [admitSlots]

@[simp] theorem admitWrite_anchor (w : Waiter) (s : State) : (admitWrite w s).anchor = s.anchor := by
  simp only [admitWrite]
  split
  · split
    · simp
    · split
      · next h => simp [settleCreate_anchor h]
      · simp
  · simp

@[simp] theorem admitIo_anchor (w : Waiter) (s : State) : (admitIo w s).anchor = s.anchor := by
  unfold admitIo; split <;> simp

@[simp] theorem routeIo_anchor (w : Waiter) (s : State) : (routeIo w s).anchor = s.anchor := by
  unfold routeIo; (repeat' split) <;> simp

@[simp] theorem releaseTags_anchor (tenant : Option Nat) (tags : List Word64) (s : State) :
    (releaseTags tenant tags s).anchor = s.anchor := by
  unfold releaseTags; split <;> simp

@[simp] theorem answerQuery_anchor (id : Nat) (s : State) : (answerQuery id s).anchor = s.anchor := by
  unfold answerQuery; (repeat' split) <;> simp

@[simp] theorem admitQuery_anchor (w : Waiter) (s : State) : (admitQuery w s).anchor = s.anchor := by simp [admitQuery]

@[simp] theorem routeQuery_anchor (q : Qp) (c : HostCmd) (s : State) : (routeQuery q c s).anchor = s.anchor := by
  unfold routeQuery; (repeat' split) <;> simp

@[simp] theorem admitWaiter_anchor (w : Waiter) (s : State) : (admitWaiter w s).anchor = s.anchor := by simp [admitWaiter]
@[simp] theorem wakeBehind_anchor (s : State) : (wakeBehind s).anchor = s.anchor := by simp [wakeBehind]

@[simp] theorem retryTags_anchor (s : State) : (retryTags s).anchor = s.anchor := by
  refine forEach_anchor (fun c t => ?_) _ _
  split
  · dsimp only
    split
    · next h => simp [settleCreate_anchor h]
    · rfl
  · rfl

@[simp] theorem readmit_anchor (s : State) : (readmit s).anchor = s.anchor := by simp [readmit]
@[simp] theorem ioRow_anchor (c : HostCmd) (s : State) : (ioRow c s).anchor = s.anchor := by simp [ioRow]

@[simp] theorem stateQueryWaitEndEffect_anchor (id : Nat) (timedOut : Bool) (s : State) :
    (stateQueryWaitEndEffect id timedOut s).anchor = s.anchor := by
  unfold stateQueryWaitEndEffect; (repeat' split) <;> simp

@[simp] theorem creditWaitTimeoutEffect_anchor (id : Nat) (s : State) : (creditWaitTimeoutEffect id s).anchor = s.anchor := by
  unfold creditWaitTimeoutEffect; (repeat' split) <;> simp

@[simp] theorem blockArrived_anchor (id b : Nat) (data : Bytes) (s : State) : (blockArrived id b data s).anchor = s.anchor := by
  simp only [blockArrived]; (repeat' split) <;> simp

@[simp] theorem mapPageReadDoneEffect_anchor (n : BitVec 14) (page : Nat) (s : State) :
    (mapPageReadDoneEffect n page s).anchor = s.anchor := by
  simp only [mapPageReadDoneEffect, wakeBehind_anchor]
  rw [forEach_anchor fun c t => by (repeat' split) <;> simp]
  simp

@[simp] theorem dropJobs_anchor (id : Nat) (s : State) : (dropJobs id s).anchor = s.anchor := by simp [dropJobs]

@[simp] theorem settleOne_anchor (id : Nat) (s : State) : (settleOne id s).anchor = s.anchor := by
  simp only [settleOne]; (repeat' split) <;> simp

@[simp] theorem settleQueues_anchor (p : Qp → Bool) (s : State) : (settleQueues p s).anchor = s.anchor := by simp [settleQueues]

/-! ### Machine/Drc.lean -/

@[simp] theorem modQueue_anchor (k : Nat) (f : DramQ → DramQ) (s : State) : (modQueue k f s).anchor = s.anchor :=
  by simp [modQueue]

@[simp] theorem precharge_anchor (k b : Nat) (s : State) : (precharge k b s).anchor = s.anchor := by
  simp only [precharge]; split <;> simp

@[simp] theorem prechargeAll_anchor (c : Nat) (p : Nat → Bool) (s : State) : (prechargeAll c p s).anchor = s.anchor :=
  by simp [prechargeAll]

@[simp] theorem drawDrfm_anchor (c : Nat) (s : State) : (drawDrfm c s).2.anchor = s.anchor := by
  unfold drawDrfm; split <;> simp

@[simp] theorem activate_anchor (k b r : Nat) (s : State) : (activate k b r s).anchor = s.anchor := by simp [activate]
@[simp] theorem correctLine_anchor (k line : Nat) (s : State) : (correctLine k line s).anchor = s.anchor := by simp [correctLine]
@[simp] theorem countUe_anchor (s : State) : (countUe s).anchor = s.anchor := by simp [countUe]

@[simp] theorem loseCommand_anchor (id : Nat) (s : State) : (loseCommand id s).anchor = s.anchor := by
  unfold loseCommand; (repeat' split) <;> simp

@[simp] theorem loseBlock_anchor (id b : Nat) (s : State) : (loseBlock id b s).anchor = s.anchor := by
  unfold loseBlock; split <;> simp

@[simp] theorem dataLost_anchor (r : DramReq) (s : State) : (dataLost r s).anchor = s.anchor := by
  simp only [dataLost]; (repeat' split) <;> simp

@[simp] theorem stagedLost_anchor (r : DramReq) (n : Nat) (s : State) : (stagedLost r n s).anchor = s.anchor := by
  unfold stagedLost; split <;> simp

@[simp] theorem copyLost_anchor (r : DramReq) (k : Nat × Nat × Word16) (s : State) : (copyLost r k s).anchor = s.anchor :=
  by simp [copyLost]

@[simp] theorem deliverLine_anchor (k : Nat) (r : DramReq) (s : State) : (deliverLine k r s).anchor = s.anchor := by
  unfold deliverLine; (repeat' split) <;> simp

@[simp] theorem storeLine_anchor (r : DramReq) (s : State) : (storeLine r s).anchor = s.anchor := by simp [storeLine]
@[simp] theorem issueOne_anchor (k : Nat) (r : DramReq) (s : State) : (issueOne k r s).anchor = s.anchor := by simp [issueOne]

@[simp] theorem serveQueue_anchor (k low n : Nat) (s : State) : (serveQueue k low n s).anchor = s.anchor := by
  induction n generalizing s with
  | zero => rfl
  | succ n ih =>
    simp only [serveQueue]
    split <;> simp [ih]

@[simp] theorem issueOwed_anchor (c : Nat) (s : State) : (issueOwed c s).anchor = s.anchor := by simp [issueOwed]
@[simp] theorem requestEffect_anchor (r : DramReq) (s : State) : (requestEffect r s).anchor = s.anchor := by simp [requestEffect]

@[simp] theorem refreshEffect_anchor (c r : Nat) (readsWaiting : Bool) (s : State) :
    (refreshEffect c r readsWaiting s).anchor = s.anchor := by simp [refreshEffect]

@[simp] theorem changeBand_anchor (c k : Nat) (s : State) : (changeBand c k s).anchor = s.anchor := by simp [changeBand]
@[simp] theorem noteHot_anchor (c : Nat) (t : Int) (s : State) : (noteHot c t s).anchor = s.anchor := by simp [noteHot]

@[simp] theorem channelReading_anchor (c : Nat) (t : Option Int) (s : State) : (channelReading c t s).anchor = s.anchor := by
  unfold channelReading; split <;> simp

@[simp] theorem tempEffect_anchor (l : List (Option Int)) (s : State) : (tempEffect l s).anchor = s.anchor := by simp [tempEffect]

@[simp] theorem scrubEffect_anchor (line : Nat) (ecc : Fin 3) (s : State) : (scrubEffect line ecc s).anchor = s.anchor := by
  unfold scrubEffect
  split
  · rfl
  · extract_lets k d t
    have ht : t.anchor = s.anchor := anchor_update ..
    split
    · exact (emit_anchor ..).trans ((countUe_anchor _).trans ((anchor_update t ..).trans ht))
    · exact (onlyIf_anchor (correctLine_anchor _ _) _ _).trans ht

@[simp] theorem enterSelfRefresh_anchor (s : State) : (enterSelfRefresh s).anchor = s.anchor := by simp [enterSelfRefresh]
@[simp] theorem leaveSelfRefresh_anchor (s : State) : (leaveSelfRefresh s).anchor = s.anchor := by simp [leaveSelfRefresh]

/-! ### Machine/HqeQueues.lean -/

@[simp] theorem noteClk_anchor (before s : State) : (noteClk before s).anchor = s.anchor := by simp [noteClk]
@[simp] theorem wake_anchor (s : State) : (wake s).anchor = s.anchor := by simp [wake]
@[simp] theorem doorbellWake_anchor (s : State) : (doorbellWake s).anchor = s.anchor := by simp [doorbellWake]
@[simp] theorem dropDoorbell_anchor (p : Fin 2) (s : State) : (dropDoorbell p s).anchor = s.anchor := by simp [dropDoorbell]

@[simp] theorem bar2Write_anchor (f : FnId) (act : State → State) (s : State) (hact : ∀ t, (act t).anchor = t.anchor) :
    (bar2Write f act s).anchor = s.anchor := by
  unfold bar2Write; (repeat' split) <;> simp_all

@[simp] theorem putAdmin_anchor (a : AdminRegs) (s : State) : (putAdmin a s).anchor = s.anchor := by simp [putAdmin]

@[simp] theorem adminEnable_anchor (f : FnId) (cfg : Word32) (s : State) : (adminEnable f cfg s).anchor = s.anchor := by
  unfold adminEnable; (repeat' split) <;> simp

@[simp] theorem dropQps_anchor (p : Qp → Bool) (s : State) : (dropQps p s).anchor = s.anchor := by simp [dropQps]

@[simp] theorem adminDisable_anchor (f : FnId) (cfg : Word32) (s : State) : (adminDisable f cfg s).anchor = s.anchor :=
  by simp [adminDisable]

@[simp] theorem flushEntries_anchor (k : QKey) (n : Nat) (b : Bytes) (s : State) : (flushEntries k n b s).anchor = s.anchor := by
  induction n generalizing b s with
  | zero => rfl
  | succ n ih =>
    unfold flushEntries
    (repeat' split) <;> simp [ih]

@[simp] theorem restartQueue_anchor (k : QKey) (flush : Bool) (entries : Bytes) (s : State) :
    (restartQueue k flush entries s).anchor = s.anchor := by simp [restartQueue]

@[simp] theorem adminRestart_anchor (f : FnId) (cfg : Word32) (entries : Bytes) (s : State) :
    (adminRestart f cfg entries s).anchor = s.anchor := by
  simp only [adminRestart]; split <;> simp

@[simp] theorem sqTail_anchor (k : QKey) (value : Word32) (s : State) : (sqTail k value s).anchor = s.anchor := by
  unfold sqTail; split <;> simp

@[simp] theorem cqHead_anchor (k : QKey) (value : Word32) (s : State) : (cqHead k value s).anchor = s.anchor := by
  unfold cqHead; split <;> simp

@[simp] theorem cqTimer_anchor (k : QKey) (s : State) : (cqTimer k s).anchor = s.anchor := by
  unfold cqTimer; split <;> simp

@[simp] theorem freezeAtFetch_anchor (k : QKey) (cause : Nat) (head : Bytes) (s : State) :
    (freezeAtFetch k cause head s).anchor = s.anchor := by
  unfold freezeAtFetch; split <;> simp

@[simp] theorem deleteQpSettledEffect_anchor (k : QKey) (s : State) : (deleteQpSettledEffect k s).anchor = s.anchor := by
  unfold deleteQpSettledEffect; (repeat' split) <;> simp

/-! ### Machine/Keys.lean -/

@[simp] theorem persistSlot_anchor (n : Nat) (s : State) : (persistSlot n s).anchor = s.anchor := by
  unfold persistSlot; (repeat' split) <;> simp

@[simp] theorem setSlot_anchor (n : Nat) (k : Slot) (s : State) : (setSlot n k s).anchor = s.anchor := by simp [setSlot]
@[simp] theorem syncSlot_anchor (n : Nat) (s : State) : (syncSlot n s).anchor = s.anchor := by simp [syncSlot]
@[simp] theorem writeSlot_anchor (n : Nat) (k : Slot) (s : State) : (writeSlot n k s).anchor = s.anchor := by simp [writeSlot]
@[simp] theorem eraseSlot_anchor (n : Nat) (s : State) : (eraseSlot n s).anchor = s.anchor := by simp [eraseSlot]
@[simp] theorem refuse_anchor (detail : Nat) (s : State) : (refuse detail s).2.2.anchor = s.anchor := by simp [refuse]

@[simp] theorem keyImportCmd_anchor (c : HostCmd) (s : State) : (keyImportCmd c s).2.2.anchor = s.anchor := by
  unfold keyImportCmd
  dsimp only
  generalize (if bitOf c.d7 24 then _ else _) = m
  cases m <;> simp

@[simp] theorem drbgUse_anchor (n : Nat) (s : State) : (drbgUse n s).anchor = s.anchor := by simp [drbgUse]

@[simp] theorem drawKey_anchor (n : Nat) (s : State) : (drawKey n s).anchor = s.anchor := by
  induction n generalizing s with
  | zero => rfl
  | succ n ih =>
    unfold drawKey
    split <;> simp [ih]

@[simp] theorem keyGenerateCmd_anchor (c : HostCmd) (s : State) : (keyGenerateCmd c s).2.2.anchor = s.anchor := by
  simp only [keyGenerateCmd]; split_ifs <;> simp

@[simp] theorem keyExportCmd_anchor (c : HostCmd) (s : State) : (keyExportCmd c s).2.2.anchor = s.anchor := by
  simp only [keyExportCmd]; split_ifs <;> simp

@[simp] theorem keyEraseCmd_anchor (c : HostCmd) (s : State) : (keyEraseCmd c s).2.2.anchor = s.anchor := by
  simp only [keyEraseCmd]; split_ifs <;> simp

@[simp] theorem keyInfoCmd_anchor (c : HostCmd) (s : State) : (keyInfoCmd c s).2.2.anchor = s.anchor := by simp [keyInfoCmd]

@[simp] theorem keyAttachCmd_anchor (c : HostCmd) (s : State) : (keyAttachCmd c s).2.2.anchor = s.anchor := by
  simp only [keyAttachCmd]; (repeat' split) <;> simp

@[simp] theorem keyCmacCmd_anchor (c : HostCmd) (s : State) : (keyCmacCmd c s).2.2.anchor = s.anchor := by
  simp only [keyCmacCmd]; split_ifs <;> simp

@[simp] theorem adminNow_anchor (f : HostCmd → State → AdminDone) (c : HostCmd) (q : Qp) (s : State) (hf : ∀ y1 t,
    (f y1 t).2.2.anchor = t.anchor) :
    (adminNow f c q s).anchor = s.anchor := by
  simp_all [adminNow]

/-! ### Machine/HqeAdmin.lean -/

@[simp] theorem createQpCmd_anchor (c : HostCmd) (s : State) : (createQpCmd c s).2.2.anchor = s.anchor := by
  simp only [createQpCmd]; (repeat' split) <;> simp

@[simp] theorem deleteQpStart_anchor (c : HostCmd) (q : Qp) (s : State) : (deleteQpStart c q s).anchor = s.anchor := by
  simp only [deleteQpStart]; split <;> simp

@[simp] theorem restartQpCmd_anchor (c : HostCmd) (s : State) : (restartQpCmd c s).2.2.anchor = s.anchor := by
  simp only [restartQpCmd]; (repeat' split) <;> simp

@[simp] theorem identifyCmd_anchor (c : HostCmd) (q : Qp) (s : State) : (identifyCmd c q s).2.2.anchor = s.anchor :=
  by simp [identifyCmd]

@[simp] theorem getLogCmd_anchor (c : HostCmd) (q : Qp) (s : State) : (getLogCmd c q s).2.2.anchor = s.anchor := by
  simp only [getLogCmd]; (repeat' split) <;> simp

@[simp] theorem setPowerStart_anchor (c : HostCmd) (q : Qp) (s : State) : (setPowerStart c q s).anchor = s.anchor :=
  by simp [setPowerStart]

@[simp] theorem powerReached_anchor (s : State) : (powerReached s).anchor = s.anchor := by
  simp only [powerReached]
  split <;> simp

@[simp] theorem setPaceStart_anchor (c : HostCmd) (q : Qp) (s : State) : (setPaceStart c q s).anchor = s.anchor :=
  by simp [setPaceStart]

@[simp] theorem applyPace_anchor (p : Pace) (s : State) : (applyPace p s).anchor = s.anchor := by simp [applyPace]

@[simp] theorem paceInForceEffect_anchor (s : State) : (paceInForceEffect s).anchor = s.anchor := by
  unfold paceInForceEffect; split <;> simp

@[simp] theorem selectOverride_anchor (sel : Nat) (clear : Bool) (s : State) : (selectOverride sel clear s).anchor = s.anchor := (rfl)

@[simp] theorem selectProfileCmd_anchor (c : HostCmd) (s : State) : (selectProfileCmd c s).2.2.anchor = s.anchor :=
  by simp [selectProfileCmd]

@[simp] theorem chipResetCmd_anchor (c : HostCmd) (s : State) : (chipResetCmd c s).2.2.anchor = s.anchor := (rfl)
@[simp] theorem sendTenant_anchor (args : List Nat) (s : State) : (sendTenant args s).anchor = s.anchor := by simp [sendTenant]

@[simp] theorem syncTenant_anchor (x : Tenant) (delete : Bool) (s : State) : (syncTenant x delete s).anchor = s.anchor :=
  by simp [syncTenant]

@[simp] theorem addTenant_anchor (x : Tenant) (newDomain : Bool) (s : State) : (addTenant x newDomain s).anchor = s.anchor :=
  by simp [addTenant]

@[simp] theorem createTenantCmd_anchor (c : HostCmd) (s : State) : (createTenantCmd c s).2.2.anchor = s.anchor := by
  simp only [createTenantCmd]; (repeat' split) <;> simp

@[simp] theorem removeTenant_anchor (x : Tenant) (s : State) : (removeTenant x s).anchor = s.anchor := by simp [removeTenant]

@[simp] theorem deleteTenantCmd_anchor (c : HostCmd) (s : State) : (deleteTenantCmd c s).2.2.anchor = s.anchor := by
  unfold deleteTenantCmd; (repeat' split) <;> simp

@[simp] theorem assignFunctionCmd_anchor (c : HostCmd) (s : State) : (assignFunctionCmd c s).2.2.anchor = s.anchor := by
  simp only [assignFunctionCmd]; split_ifs <;> simp

@[simp] theorem drawDataKey_anchor (d : Nat) (s : State) : (drawDataKey d s).anchor = s.anchor := by simp [drawDataKey]

@[simp] theorem createNamespaceCmd_anchor (c : HostCmd) (s : State) : (createNamespaceCmd c s).2.2.anchor = s.anchor := by
  simp only [createNamespaceCmd]; (repeat' split) <;> simp

@[simp] theorem dropRef_anchor (no : Nat) (s : State) : (dropRef no s).anchor = s.anchor := by simp [dropRef]
@[simp] theorem dropEntries_anchor (l : List MapEntry) (s : State) : (dropEntries l s).anchor = s.anchor := by simp [dropEntries]
@[simp] theorem dropMaps_anchor (n : Nat) (s : State) : (dropMaps n s).anchor = s.anchor := by simp [dropMaps]
@[simp] theorem discardStaging_anchor (n : Nat) (s : State) : (discardStaging n s).anchor = s.anchor := by simp [discardStaging]
@[simp] theorem nsDiscard_anchor (n id : Nat) (s : State) : (nsDiscard n id s).anchor = s.anchor := by simp [nsDiscard]
@[simp] theorem endWaiting_anchor (n : Nat) (s : State) : (endWaiting n s).anchor = s.anchor := by simp [endWaiting]

@[simp] theorem startSnapDelete_anchor (n q : Nat) (s : State) : (startSnapDelete n q s).anchor = s.anchor :=
  by simp [startSnapDelete]

@[simp] theorem deleteNamespaceStart_anchor (c : HostCmd) (q : Qp) (s : State) :
    (deleteNamespaceStart c q s).anchor = s.anchor := by
  unfold deleteNamespaceStart; split <;> simp

@[simp] theorem deleteNamespaceDoneEffect_anchor (n : Nat) (s : State) : (deleteNamespaceDoneEffect n s).anchor = s.anchor := by
  unfold deleteNamespaceDoneEffect; (repeat' split) <;> simp

@[simp] theorem adminRow_anchor (f : HostCmd → State → AdminDone) (c : HostCmd) (s : State) (hf : ∀ y1 t,
    (f y1 t).2.2.anchor = t.anchor) :
    (adminRow f c s).anchor = s.anchor := by
  simp_all [adminRow]

@[simp] theorem wakeDrbg_anchor (s : State) : (wakeDrbg s).anchor = s.anchor := by
  unfold wakeDrbg
  refine (forEach_anchor (fun w t => ?_) _ _).trans (by simp)
  dsimp only
  (repeat' split) <;> simp

/-! ### Machine/Ingest.lean -/

@[simp] theorem dropStaleMirror_anchor (s : State) : (dropStaleMirror s).anchor = s.anchor := by simp [dropStaleMirror]

@[simp] theorem startRun_anchor (r : List StEntry) (s : State) : (startRun r s).anchor = s.anchor := by
  unfold startRun; split <;> simp

@[simp] theorem startMirrorRun_anchor (l : List MirEntry) (s : State) : (startMirrorRun l s).anchor = s.anchor := by
  unfold startMirrorRun; split <;> simp

@[simp] theorem flushRunChosenEffect_anchor (s : State) : (flushRunChosenEffect s).anchor = s.anchor :=
  by simp [flushRunChosenEffect]

@[simp] theorem markIdle_anchor (nsid lba : Nat) (s : State) : (markIdle nsid lba s).anchor = s.anchor := by simp [markIdle]
@[simp] theorem markAged_anchor (nsid lba : Nat) (s : State) : (markAged nsid lba s).anchor = s.anchor := by simp [markAged]
@[simp] theorem modRun_anchor (id : Nat) (f : Run → Run) (s : State) : (modRun id f s).anchor = s.anchor := by simp [modRun]

@[simp] theorem modChunk_anchor (id : Nat) (f : Chunk → Chunk) (s : State) : (modChunk id f s).anchor = s.anchor :=
  by simp [modChunk]

@[simp] theorem joinWindow_anchor (nsid : Nat) (s : State) : (joinWindow nsid s).2.anchor = s.anchor := by
  unfold joinWindow; split <;> simp

@[simp] theorem startDueTest_anchor (k : EngClass) (n : Nat) (s : State) : (startDueTest k n s).anchor = s.anchor :=
  by simp [startDueTest]

@[simp] theorem freeRunChunker_anchor (id : Nat) (s : State) : (freeRunChunker id s).anchor = s.anchor := by
  unfold freeRunChunker; split <;> simp

@[simp] theorem chunkCutEffect_anchor (id : Nat) (s : State) : (chunkCutEffect id s).anchor = s.anchor := by
  unfold chunkCutEffect; split <;> simp

@[simp] theorem modEnt_anchor (no : Nat) (f : ChunkEnt → ChunkEnt) (s : State) : (modEnt no f s).anchor = s.anchor :=
  by simp [modEnt]

@[simp] theorem raiseRef_anchor (no k : Nat) (s : State) : (raiseRef no k s).anchor = s.anchor := by simp [raiseRef]

@[simp] theorem dropRefs_anchor (no k : Nat) (s : State) : (dropRefs no k s).anchor = s.anchor := by
  induction k generalizing s with
  | zero => rfl
  | succ k ih => simp [dropRefs, ih]

@[simp] theorem modContainer_anchor (no : Nat) (f : Container → Container) (s : State) :
    (modContainer no f s).anchor = s.anchor := by simp [modContainer]

@[simp] theorem touchContainer_anchor (no : Nat) (s : State) : (touchContainer no s).anchor = s.anchor := by simp [touchContainer]
@[simp] theorem evict_anchor (no : Nat) (s : State) : (evict no s).anchor = s.anchor := by simp [evict]

theorem cacheRoom_anchor {d : Nat} {force : Bool} {s t : State} (h : cacheRoom d force s = some t) : t.anchor = s.anchor := by
  unfold cacheRoom at h
  (repeat' split at h) <;> simp at h <;> simp [← h]

@[simp] theorem openContainer_anchor (nsid : Nat) (s : State) : (openContainer nsid s).2.anchor = s.anchor := by
  unfold openContainer
  split
  · rfl
  · cases h : cacheRoom (nsDomain s nsid) true s with
    | none => simp
    | some t => simp [cacheRoom_anchor h]

@[simp] theorem replaceHook_anchor (h : Hook) (s : State) : (replaceHook h s).anchor = s.anchor := by simp [replaceHook]

@[simp] theorem insertHook_anchor (fp : Bytes) (d container : Nat) (s : State) :
    (insertHook fp d container s).anchor = s.anchor := by simp [insertHook]

@[simp] theorem closeContainer_anchor (no : Nat) (s : State) : (closeContainer no s).anchor = s.anchor := by simp [closeContainer]

@[simp] theorem appendEntry_anchor (c : Chunk) (no : Nat) (s : State) : (appendEntry c no s).anchor = s.anchor :=
  by simp [appendEntry]

@[simp] theorem containerIdle_anchor (nsid : Nat) (s : State) : (containerIdle nsid s).anchor = s.anchor :=
  by simp [containerIdle]

@[simp] theorem resolveUnique_anchor (id : Nat) (s : State) : (resolveUnique id s).anchor = s.anchor := by
  unfold resolveUnique; split <;> simp

@[simp] theorem countMatch_anchor (c : Chunk) (s : State) : (countMatch c s).anchor = s.anchor := by simp [countMatch]

@[simp] theorem startCompare_anchor (chunk no : Nat) (s : State) : (startCompare chunk no s).anchor = s.anchor := by
  simp only [startCompare]; split <;> simp

@[simp] theorem resolveMatch_anchor (c : Chunk) (k no : Nat) (s : State) : (resolveMatch c k no s).anchor = s.anchor :=
  by simp [resolveMatch]

@[simp] theorem windowCheck_anchor (s : State) : (windowCheck s).anchor = s.anchor := by simp [windowCheck]

@[simp] theorem fingerprintDoneEffect_anchor (id : Nat) (s : State) : (fingerprintDoneEffect id s).anchor = s.anchor := by
  unfold fingerprintDoneEffect; split <;> simp

@[simp] theorem cacheMiss_anchor (c : Chunk) (s : State) : (cacheMiss c s).anchor = s.anchor := by simp [cacheMiss]

@[simp] theorem hookDone_anchor (c : Chunk) (s : State) : (hookDone c s).anchor = s.anchor := by
  unfold hookDone; split <;> simp

@[simp] theorem lookupSearchDoneEffect_anchor (id : Nat) (s : State) : (lookupSearchDoneEffect id s).anchor = s.anchor := by
  unfold lookupSearchDoneEffect; (repeat' split) <;> simp

@[simp] theorem loadLostHooks_anchor (s : State) : (loadLostHooks s).anchor = s.anchor := by simp [loadLostHooks]

@[simp] theorem cacheContainer_anchor (k d : Nat) (entries : List (Bytes × Nat × Nat)) (s : State) :
    (cacheContainer k d entries s).anchor = s.anchor := by simp [cacheContainer]

@[simp] theorem containerPullDoneEffect_anchor (k : Nat) (entries : List (Bytes × Nat × Nat)) (d : Nat) (s : State) :
    (containerPullDoneEffect k entries d s).anchor = s.anchor := by
  unfold containerPullDoneEffect
  split
  · dsimp only
    split
    · next h => simp [cacheRoom_anchor h]
    · simp
  · rfl

@[simp] theorem startWaiting_anchor (s : State) : (startWaiting s).anchor = s.anchor := by simp [startWaiting]
@[simp] theorem compareFailed_anchor (c : Chunk) (s : State) : (compareFailed c s).anchor = s.anchor := by simp [compareFailed]

@[simp] theorem verifyCompareDoneEffect_anchor (id : Nat) (given : Option Bytes) (s : State) :
    (verifyCompareDoneEffect id given s).anchor = s.anchor := by
  simp only [verifyCompareDoneEffect]; (repeat' split) <;> simp

@[simp] theorem dropRunRefs_anchor (id : Nat) (s : State) : (dropRunRefs id s).anchor = s.anchor := by simp [dropRunRefs]
@[simp] theorem removeRun_anchor (id : Nat) (s : State) : (removeRun id s).anchor = s.anchor := by simp [removeRun]
@[simp] theorem restartRun_anchor (id : Nat) (s : State) : (restartRun id s).anchor = s.anchor := by simp [restartRun]

/-! ### Machine/Roots.lean -/

@[simp] theorem rootPage_anchor (n b page : Nat) (d : Bytes) (s : State) : (rootPage n b page d s).anchor = s.anchor :=
  by simp [rootPage]

@[simp] theorem rootTo_anchor (names turn : Bool) (n : Nat) (s : State) : (rootTo names turn n s).anchor = s.anchor :=
  by simp [rootTo]

@[simp] theorem writeRoots_anchor (s : State) : (writeRoots s).anchor = s.anchor := by simp [writeRoots]
@[simp] theorem renewSuper_anchor (n : Nat) (s : State) : (renewSuper n s).anchor = s.anchor := by simp [renewSuper]

@[simp] theorem reservedFailed_anchor (n : Nat) (c : FarCmd) (s : State) : (reservedFailed n c s).anchor = s.anchor := by
  unfold reservedFailed; split <;> simp

/-! ### Machine/ReadPath.lean -/

theorem takeSerial_anchor {s : State} {p : Bytes × State} (h : takeSerial s = some p) : p.2.anchor = s.anchor := by
  unfold takeSerial at h
  split at h
  · simp at h; simp [← h]
  · cases h

@[simp] theorem wantSerials_anchor (s : State) : (wantSerials s).anchor = s.anchor := by simp [wantSerials]

@[simp] theorem finishChunk_anchor (id : Nat) (s : State) : (finishChunk id s).anchor = s.anchor := by
  unfold finishChunk
  split
  · rfl
  · split
    · next h => simp [takeSerial_anchor h]
    · simp

@[simp] theorem baleEncodeDoneEffect_anchor (id : Nat) (s : State) : (baleEncodeDoneEffect id s).anchor = s.anchor := by
  unfold baleEncodeDoneEffect; split <;> simp

@[simp] theorem xtsSealDoneEffect_anchor (id : Nat) (s : State) : (xtsSealDoneEffect id s).anchor = s.anchor := by
  unfold xtsSealDoneEffect; split <;> simp

@[simp] theorem modJob_anchor (id : Nat) (f : ReadJob → ReadJob) (s : State) : (modJob id f s).anchor = s.anchor :=
  by simp [modJob]

@[simp] theorem failJob_anchor (j : ReadJob) (status : Word16) (rule n : Nat) (s : State) :
    (failJob j status rule n s).anchor = s.anchor := by simp [failJob]

@[simp] theorem wantRebuild_anchor (id : Nat) (status : Word16) (s : State) : (wantRebuild id status s).anchor = s.anchor :=
  by simp [wantRebuild]

@[simp] theorem countSealFailed_anchor (s : State) : (countSealFailed s).anchor = s.anchor := by simp [countSealFailed]

@[simp] theorem sealCheckDoneEffect_anchor (id : Nat) (stored waybill : Bytes) (s : State) :
    (sealCheckDoneEffect id stored waybill s).anchor = s.anchor := by
  simp only [sealCheckDoneEffect]; (repeat' split) <;> simp

@[simp] theorem serveJob_anchor (j : ReadJob) (orig : Bytes) (s : State) : (serveJob j orig s).anchor = s.anchor := by
  unfold serveJob; split <;> simp

@[simp] theorem baleDecodeDoneEffect_anchor (id : Nat) (s : State) : (baleDecodeDoneEffect id s).anchor = s.anchor := by
  unfold baleDecodeDoneEffect; (repeat' split) <;> simp

@[simp] theorem feedDecoder_anchor (n : Nat) (f : Decoder → Decoder) (s : State) : (feedDecoder n f s).anchor = s.anchor := by
  simp only [feedDecoder]; (repeat' split) <;> simp

@[simp] theorem putEngine_anchor (e : Engine) (s : State) : (putEngine e s).anchor = s.anchor := by simp [putEngine]

@[simp] theorem decodeSuspendTimeoutEffect_anchor (n : Nat) (s : State) : (decodeSuspendTimeoutEffect n s).anchor = s.anchor := by
  unfold decodeSuspendTimeoutEffect; split <;> simp

@[simp] theorem afterTest_anchor (k : EngClass) (s : State) : (afterTest k s).anchor = s.anchor := by
  unfold afterTest; split <;> simp

@[simp] theorem engineSelftestDueEffect_anchor (k : EngClass) (n : Nat) (s : State) :
    (engineSelftestDueEffect k n s).anchor = s.anchor := by simp [engineSelftestDueEffect]

@[simp] theorem classLost_anchor (k : EngClass) (s : State) : (classLost k s).anchor = s.anchor := by simp [classLost]

@[simp] theorem engineSelftestDoneEffect_anchor (k : EngClass) (n : Nat) (pass : Bool) (s : State) :
    (engineSelftestDoneEffect k n pass s).anchor = s.anchor := by simp [engineSelftestDoneEffect]

@[simp] theorem engineRetestExpiryEffect_anchor (k : EngClass) (n : Nat) (s : State) :
    (engineRetestExpiryEffect k n s).anchor = s.anchor := by simp [engineRetestExpiryEffect]

/-! ### Machine/Media.lean -/

@[simp] theorem freshPage_anchor (nsid level page : Nat) (s : State) : (freshPage nsid level page s).anchor = s.anchor :=
  by simp [freshPage]

@[simp] theorem ownPage_anchor (nsid page : Nat) (s : State) : (ownPage nsid page s).anchor = s.anchor := by
  unfold ownPage; split <;> simp

@[simp] theorem putEntry_anchor (m : MapEntry) (s : State) : (putEntry m s).anchor = s.anchor := by
  simp only [putEntry]; split <;> simp

@[simp] theorem releaseRun_anchor (r : Run) (s : State) : (releaseRun r s).anchor = s.anchor := by simp [releaseRun]

@[simp] theorem publishBlock_anchor (r : Run) (l : List Chunk) (i : Nat) (s : State) : (publishBlock r l i s).anchor = s.anchor :=
  by simp [publishBlock]

@[simp] theorem modSlot_anchor (x : StreamId) (f : Layout → Layout) (s : State) : (modSlot x f s).anchor = s.anchor :=
  by simp [modSlot]

@[simp] theorem noteSpace_anchor (s : State) : (noteSpace s).anchor = s.anchor := by simp [noteSpace]

@[simp] theorem drainIfEmpty_anchor (no : Nat) (s : State) : (drainIfEmpty no s).anchor = s.anchor := by
  unfold drainIfEmpty; split <;> simp

@[simp] theorem retireBlocks_anchor (no : Nat) (ps : List Nat) (s : State) : (retireBlocks no ps s).anchor = s.anchor :=
  by simp [retireBlocks]

@[simp] theorem freeAccs_anchor (l : List Member) (s : State) : (freeAccs l s).anchor = s.anchor := by simp [freeAccs]

@[simp] theorem accumulate_anchor (m : Member) (page : Nat) (d : Bytes) (s : State) : (accumulate m page d s).anchor = s.anchor :=
  by simp [accumulate]

@[simp] theorem programMember_anchor (g : Seg) (k : Nat) (strip : Bytes) (m : Member) (s : State) :
    (programMember g k strip m s).anchor = s.anchor := by simp [programMember]

@[simp] theorem closeStripe_anchor (t : Stripe) (s : State) : (closeStripe t s).anchor = s.anchor := by
  unfold closeStripe; split <;> simp

@[simp] theorem stripeFor_anchor (x : StreamId) (n : Nat) (s : State) : (stripeFor x n s).2.anchor = s.anchor := by
  simp only [stripeFor]; (repeat' split) <;> simp

@[simp] theorem appendTo_anchor (mark n : Nat) (t : Stripe) (s : State) : (appendTo mark n t s).anchor = s.anchor :=
  by simp [appendTo]

@[simp] theorem placeAt_anchor (no n : Nat) (t : Stripe) (s : State) : (placeAt no n t s).anchor = s.anchor := by simp [placeAt]

@[simp] theorem baleAppendEffect_anchor (id : Nat) (s : State) : (baleAppendEffect id s).anchor = s.anchor := by
  simp only [baleAppendEffect]; (repeat' split) <;> simp

@[simp] theorem startCopy_anchor (e : ChunkEnt) (s : State) : (startCopy e s).anchor = s.anchor := by
  simp only [startCopy]; (repeat' split) <;> simp

@[simp] theorem startCopies_anchor (s : State) : (startCopies s).anchor = s.anchor := by simp [startCopies]

@[simp] theorem alsoRelocate_anchor (nos : List Nat) (seg : Nat) (s : State) : (alsoRelocate nos seg s).anchor = s.anchor :=
  by simp [alsoRelocate]

@[simp] theorem dropReloc_anchor (no : Nat) (s : State) : (dropReloc no s).anchor = s.anchor := by simp [dropReloc]

@[simp] theorem reclaimSeg_anchor (no : Nat) (s : State) : (reclaimSeg no s).anchor = s.anchor := by
  unfold reclaimSeg; split <;> simp

@[simp] theorem loseObjects_anchor (p : Nat → Nat → Bool) (s : State) : (loseObjects p s).anchor = s.anchor :=
  by simp [loseObjects]

@[simp] theorem setNode_anchor (k : TreeKey) (level page obj : Nat) (s : State) :
    (setNode k level page obj s).anchor = s.anchor := by
  unfold setNode; split <;> simp

@[simp] theorem placeObj_anchor (x : StreamId) (o : ObjRec) (s : State) : (placeObj x o s).2.anchor = s.anchor := by
  simp only [placeObj]; split <;> simp

@[simp] theorem whileRoom_anchor {α : Type} {f : α → State → Bool × State} (h : ∀ x t, (f x t).2.anchor = t.anchor) (l : List α)
    (a : Bool × State) : (whileRoom l f a).2.anchor = a.2.anchor :=
  foldl_keeps (fun p : Bool × State => p.2.anchor) _ (fun p x => by split <;> simp [h]) l a

@[simp] theorem writeNode_anchor (nsid level page obj : Nat) (body : Bytes) (s : State) :
    (writeNode nsid level page obj body s).2.anchor = s.anchor := by
  unfold writeNode
  split
  · simp
  · next h => simp [takeSerial_anchor h]

@[simp] theorem writeLeaf_anchor (k : TreeKey) (p : PageObj) (s : State) : (writeLeaf k p s).2.anchor = s.anchor := by
  unfold writeLeaf; split <;> simp

@[simp] theorem renewTable_anchor (key page : Nat) (s : State) : (renewTable key page s).anchor = s.anchor := by
  unfold renewTable; split <;> simp

@[simp] theorem newObject_anchor (key page : Nat) (keep : Nat → Bool) (body : Bytes) (s : State) :
    (newObject key page keep body s).2.anchor = s.anchor := by simp [newObject]

@[simp] theorem writeDir_anchor (k : TreeKey) (level page : Nat) (s : State) : (writeDir k level page s).2.anchor = s.anchor := by
  simp only [writeDir]; (repeat' split) <;> simp

@[simp] theorem writeLevel_anchor (l : List TreeKey) (level : Nat) (a : Bool × State) : (writeLevel l level a).2.anchor = a.2.anchor :=
  whileRoom_anchor (fun k t => by split <;> simp) l a

@[simp] theorem moveObj_anchor (o : ObjRec) (s : State) : (moveObj o s).2.anchor = s.anchor := by
  simp only [moveObj]; split <;> simp

@[simp] theorem dropTables_anchor (s : State) : (dropTables s).anchor = s.anchor := by simp [dropTables]
@[simp] theorem renewKeys_anchor (s : State) : (renewKeys s).anchor = s.anchor := by simp [renewKeys]
@[simp] theorem syncTables_anchor (n : Nat) (s : State) : (syncTables n s).anchor = s.anchor := by simp [syncTables]

@[simp] theorem writeStage_anchor (n : Nat) (a : Bool × State) : (writeStage n a).2.anchor = a.2.anchor := by
  unfold writeStage; split <;> simp

@[simp] theorem writeTrees_anchor (s : State) : (writeTrees s).2.anchor = s.anchor := by
  simp only [writeTrees]; split <;> simp

@[simp] theorem serveWriteBack_anchor (s : State) : (serveWriteBack s).anchor = s.anchor := by
  unfold serveWriteBack
  refine whileRoom_anchor (fun p t => ?_) _ _
  dsimp only
  (repeat' split) <;> simp

@[simp] theorem startCheckpoint_anchor (s : State) : (startCheckpoint s).anchor = s.anchor := by simp [startCheckpoint]
@[simp] theorem sweepObjs_anchor (s : State) : (sweepObjs s).anchor = s.anchor := by simp [sweepObjs]
@[simp] theorem checkpointIfFull_anchor (s : State) : (checkpointIfFull s).anchor = s.anchor := by simp [checkpointIfFull]

@[simp] theorem mapUpdatePublishEffect_anchor (id : Nat) (s : State) : (mapUpdatePublishEffect id s).anchor = s.anchor := by
  unfold mapUpdatePublishEffect; split <;> simp

@[simp] theorem stripeIdleEffect_anchor (x : StreamId) (s : State) : (stripeIdleEffect x s).anchor = s.anchor :=
  by simp [stripeIdleEffect]

@[simp] theorem verifyReads_anchor (g : Seg) (s : State) : (verifyReads g s).anchor = s.anchor := by simp [verifyReads]
@[simp] theorem closeSeg_anchor (g : Seg) (s : State) : (closeSeg g s).anchor = s.anchor := by simp [closeSeg]

@[simp] theorem segFilled_anchor (no : Nat) (s : State) : (segFilled no s).anchor = s.anchor := by
  unfold segFilled; split <;> simp

@[simp] theorem placementFailed_anchor (t : Stripe) (failed : List Nat) (s : State) :
    (placementFailed t failed s).anchor = s.anchor := by simp [placementFailed]

@[simp] theorem stripeProgrammedEffect_anchor (seg stripe : Nat) (failed : List Nat) (s : State) :
    (stripeProgrammedEffect seg stripe failed s).anchor = s.anchor := by
  unfold stripeProgrammedEffect; split <;> simp

@[simp] theorem formSeg_anchor (x : StreamId) (slc : Bool) (lanes : List Nat) (s : State) :
    (formSeg x slc lanes s).anchor = s.anchor := by simp [formSeg]

@[simp] theorem eraseMembers_anchor (g : Seg) (s : State) : (eraseMembers g s).anchor = s.anchor := by simp [eraseMembers]
@[simp] theorem noteWear_anchor (n : Nat) (s : State) : (noteWear n s).anchor = s.anchor := by simp [noteWear]

@[simp] theorem reopenSeg_anchor (x : StreamId) (slc : Bool) (g : Seg) (s : State) : (reopenSeg x slc g s).anchor = s.anchor :=
  by simp [reopenSeg]

@[simp] theorem noteNarrow_anchor (x : StreamId) (s : State) : (noteNarrow x s).anchor = s.anchor := by simp [noteNarrow]

@[simp] theorem segmentAllocateEffect_anchor (x : StreamId) (s : State) : (segmentAllocateEffect x s).anchor = s.anchor := by
  simp only [segmentAllocateEffect]; (repeat' split) <;> simp

@[simp] theorem blockVerifyDoneEffect_anchor (no p maxCorr : Nat) (bad : List Nat) (s : State) :
    (blockVerifyDoneEffect no p maxCorr bad s).anchor = s.anchor := by
  unfold blockVerifyDoneEffect; split <;> simp

@[simp] theorem countRefresh_anchor (s : State) : (countRefresh s).anchor = s.anchor := by simp [countRefresh]

@[simp] theorem reclaimVictimChosenEffect_anchor (k : VictimKind) (s : State) :
    (reclaimVictimChosenEffect k s).anchor = s.anchor := by
  simp only [reclaimVictimChosenEffect]; (repeat' split) <;> simp

@[simp] theorem renameChunk_anchor (a b : Nat) (s : State) : (renameChunk a b s).anchor = s.anchor := by simp [renameChunk]
@[simp] theorem buildBeside_anchor (e : ChunkEnt) (s : State) : (buildBeside e s).2.anchor = s.anchor := by simp [buildBeside]

@[simp] theorem replaceForeign_anchor (e : ChunkEnt) (s : State) : (replaceForeign e s).2.anchor = s.anchor :=
  by simp [replaceForeign]

@[simp] theorem publishCopy_anchor (e : ChunkEnt) (c : Copy) (s : State) : (publishCopy e c s).anchor = s.anchor := by
  unfold publishCopy; split_ifs <;> simp

@[simp] theorem relocationDoneEffect_anchor (no : Nat) (s : State) : (relocationDoneEffect no s).anchor = s.anchor := by
  unfold relocationDoneEffect; split <;> simp

@[simp] theorem drained_anchor (g : Seg) (s : State) : (drained g s).anchor = s.anchor := by
  simp only [drained]; split <;> simp

@[simp] theorem segmentDrainedEffect_anchor (no : Nat) (s : State) : (segmentDrainedEffect no s).anchor = s.anchor := by
  unfold segmentDrainedEffect; split <;> simp

@[simp] theorem listScans_anchor (s : State) : (listScans s).anchor = s.anchor := by simp [listScans]

@[simp] theorem segmentScanDueEffect_anchor (no : Nat) (corr : List Nat) (bad : Bool) (s : State) :
    (segmentScanDueEffect no corr bad s).anchor = s.anchor := by
  unfold segmentScanDueEffect; split <;> simp

@[simp] theorem nandMinRunEffect_anchor (n d : Nat) (s : State) : (nandMinRunEffect n d s).anchor = s.anchor := by
  simp only [nandMinRunEffect]; split <;> simp

@[simp] theorem resumeDie_anchor (n d : Nat) (s : State) : (resumeDie n d s).anchor = s.anchor := by
  unfold resumeDie; split <;> simp

/-! ### Machine/Resets.lean -/

@[simp] theorem restat_anchor (s : State) : (restat s).anchor = s.anchor := by simp [restat]

@[simp] theorem lowerTag_anchor (t : Nat) (g : Word64) (k : Nat) (s : State) : (lowerTag t g k s).anchor = s.anchor :=
  by simp [lowerTag]

@[simp] theorem loseBlocks_anchor (l : List MirEntry) (s : State) : (loseBlocks l s).anchor = s.anchor := by simp [loseBlocks]
@[simp] theorem keepRecord_anchor (r : FlushRec) (s : State) : (keepRecord r s).anchor = s.anchor := by simp [keepRecord]

@[simp] theorem stopFlush_anchor (s : State) : (stopFlush s).anchor = s.anchor := by
  unfold stopFlush; split <;> simp

@[simp] theorem rebuildMaps_anchor (j : List MapEntry) (s : State) : (rebuildMaps j s).anchor = s.anchor := by simp [rebuildMaps]
@[simp] theorem dropBatchRefs_anchor (b : Batch) (s : State) : (dropBatchRefs b s).anchor = s.anchor := by simp [dropBatchRefs]
@[simp] theorem dropVolatileRefs_anchor (s : State) : (dropVolatileRefs s).anchor = s.anchor := by simp [dropVolatileRefs]

/-! ### Machine/Flush.lean -/

@[simp] theorem noteBudget_anchor (s : State) : (noteBudget s).anchor = s.anchor := by simp [noteBudget]
@[simp] theorem lowerOffer_anchor (s : State) : (lowerOffer s).anchor = s.anchor := by simp [lowerOffer]
@[simp] theorem sendLimit_anchor (l : Option Nat) (s : State) : (sendLimit l s).anchor = s.anchor := by simp [sendLimit]
@[simp] theorem setLimit_anchor (l : Option Nat) (s : State) : (setLimit l s).anchor = s.anchor := by simp [setLimit]
@[simp] theorem adjustLimit_anchor (s : State) : (adjustLimit s).anchor = s.anchor := by simp [adjustLimit]
@[simp] theorem holdupEffect_anchor (s : State) : (holdupEffect s).anchor = s.anchor := by simp [holdupEffect]
@[simp] theorem abandonErases_anchor (s : State) : (abandonErases s).anchor = s.anchor := by simp [abandonErases]
@[simp] theorem beginFlush_anchor (s : State) : (beginFlush s).anchor = s.anchor := by simp [beginFlush]

@[simp] theorem powerLoss_anchor (s : State) : (powerLoss s).anchor = s.anchor := by
  unfold powerLoss; split <;> simp

@[simp] theorem pwrFailEffect_anchor (lowNs : Nat) (s : State) : (pwrFailEffect lowNs s).anchor = s.anchor :=
  by simp [pwrFailEffect]

@[simp] theorem modFlush_anchor (f : Flush → Flush) (s : State) : (modFlush f s).anchor = s.anchor := by simp [modFlush]

@[simp] theorem quiesceEffect_anchor (s : State) : (quiesceEffect s).anchor = s.anchor := by
  unfold quiesceEffect; split <;> simp

@[simp] theorem classDoneEffect_anchor (s : State) : (classDoneEffect s).anchor = s.anchor := by
  unfold classDoneEffect; split <;> simp

@[simp] theorem pwrReturnEffect_anchor (s : State) : (pwrReturnEffect s).anchor = s.anchor := by simp [pwrReturnEffect]

@[simp] theorem replayLog_anchor (s : State) : (replayLog s).anchor = s.anchor := by
  simp only [replayLog]; split <;> simp

@[simp] theorem notePlf_anchor (s : State) : (notePlf s).anchor = s.anchor := by
  unfold notePlf; split <;> simp

@[simp] theorem replayLost_anchor (s : State) : (replayLost s).anchor = s.anchor := by simp [replayLost]

@[simp] theorem restage_anchor (m : MirEntry) (s : State) : (restage m s).anchor = s.anchor := by
  unfold restage; (repeat' split) <;> simp

@[simp] theorem replayMaps_anchor (s : State) : (replayMaps s).anchor = s.anchor := by
  unfold replayMaps; split <;> simp

@[simp] theorem flushReplayEffect_anchor (s : State) : (flushReplayEffect s).anchor = s.anchor := by simp [flushReplayEffect]

/-! ### Machine/Roles.lean -/

@[simp] theorem repack_anchor (no : Nat) (s : State) : (repack no s).anchor = s.anchor := by simp [repack]
@[simp] theorem closeOpen_anchor (no : Nat) (s : State) : (closeOpen no s).anchor = s.anchor := by simp [closeOpen]

@[simp] theorem closeOpenWith_anchor (p : Member → Bool) (s : State) : (closeOpenWith p s).anchor = s.anchor :=
  by simp [closeOpenWith]

@[simp] theorem missMembers_anchor (p : Member → Bool) (s : State) : (missMembers p s).anchor = s.anchor := by simp [missMembers]
@[simp] theorem noteAlive_anchor (s : State) : (noteAlive s).anchor = s.anchor := by simp [noteAlive]

@[simp] theorem chainSend_anchor (type : Nat) (args : List Nat) (s : State) : (chainSend type args s).anchor = s.anchor :=
  by simp [chainSend]

@[simp] theorem tellEpoch_anchor (s : State) : (tellEpoch s).anchor = s.anchor := by simp [tellEpoch]
@[simp] theorem setRole_anchor (r : Role) (cause : Nat) (s : State) : (setRole r cause s).anchor = s.anchor := by simp [setRole]
@[simp] theorem letLanesGo_anchor (s : State) : (letLanesGo s).anchor = s.anchor := by simp [letLanesGo]
@[simp] theorem dropPending_anchor (s : State) : (dropPending s).anchor = s.anchor := by simp [dropPending]

@[simp] theorem letGo_anchor (id : Nat) (s : State) : (letGo id s).anchor = s.anchor := by
  unfold letGo; split <;> simp

@[simp] theorem letWorkGo_anchor (s : State) : (letWorkGo s).anchor = s.anchor := by simp [letWorkGo]
@[simp] theorem enterService_anchor (cause : Nat) (s : State) : (enterService cause s).anchor = s.anchor := by simp [enterService]
@[simp] theorem superseded_anchor (s : State) : (superseded s).anchor = s.anchor := by simp [superseded]

/-! ### Machine/Jobs.lean -/

@[simp] theorem modJobOf_anchor (id : Nat) (f : Job → Job) (s : State) : (modJobOf id f s).anchor = s.anchor := by simp [modJobOf]

@[simp] theorem writeCkpt_anchor (id : Nat) (s : State) : (writeCkpt id s).anchor = s.anchor := by
  unfold writeCkpt; split <;> simp

@[simp] theorem endTask_anchor (id : Nat) (s : State) : (endTask id s).anchor = s.anchor := by
  unfold endTask; split <;> simp

@[simp] theorem addTask_anchor (j : Job) (s : State) : (addTask j s).anchor = s.anchor := by simp [addTask]

@[simp] theorem startRebuild_anchor (n die : Nat) (s : State) : (startRebuild n die s).anchor = s.anchor := by
  unfold startRebuild; (repeat' split) <;> simp

@[simp] theorem memberLost_anchor (n die : Nat) (s : State) : (memberLost n die s).anchor = s.anchor := by simp [memberLost]

@[simp] theorem jobsForMissing_anchor (no : Nat) (s t : State) : (jobsForMissing no s t).anchor = t.anchor := by
  unfold jobsForMissing
  (repeat' split) <;> simp

@[simp] theorem noteVacated_anchor (s : State) : (noteVacated s).anchor = s.anchor := by simp [noteVacated]

/-! ### Machine/Bridge.lean -/

@[simp] theorem modBridge_anchor (n : Nat) (f : Module → Module) (s : State) : (modBridge n f s).anchor = s.anchor :=
  by simp [modBridge]

@[simp] theorem modDie_anchor (n d : Nat) (f : Die → Die) (s : State) : (modDie n d f s).anchor = s.anchor := by simp [modDie]

@[simp] theorem modNand_anchor (n k : Nat) (f : NandBlock → NandBlock) (s : State) : (modNand n k f s).anchor = s.anchor :=
  by simp [modNand]

@[simp] theorem freeCredits_anchor (n : Nat) (p : Fin 2) (cmd data : Nat) (s : State) :
    (freeCredits n p cmd data s).anchor = s.anchor := by simp [freeCredits]

@[simp] theorem complete_anchor (op : Byte) (f : FarFrame) (status : Word16) (aux corr busy : Nat) (data : Bytes) (s : State) :
    (complete op f status aux corr busy data s).anchor = s.anchor := by simp [complete]

@[simp] theorem nandCommand_anchor (op : Byte) (f : FarFrame) (act : State → State) (s : State) (hact : ∀ t,
    (act t).anchor = t.anchor) :
    (nandCommand op f act s).anchor = s.anchor := by
  unfold nandCommand; (repeat' split) <;> simp_all

@[simp] theorem startOp_anchor (n d : Nat) (o : DieOp) (s : State) : (startOp n d o s).anchor = s.anchor := by simp [startOp]

@[simp] theorem dieServe_anchor (n d k : Nat) (s : State) : (dieServe n d k s).anchor = s.anchor := by
  induction k generalizing s with
  | zero => rfl
  | succ k ih =>
    simp only [dieServe]
    (repeat' split) <;> simp [ih]

@[simp] theorem serveDie_anchor (n d : Nat) (s : State) : (serveDie n d s).anchor = s.anchor := by simp [serveDie]
@[simp] theorem joinDie_anchor (op : Byte) (f : FarFrame) (s : State) : (joinDie op f s).anchor = s.anchor := by simp [joinDie]

@[simp] theorem suspendDie_anchor (f : FarFrame) (s : State) : (suspendDie f s).anchor = s.anchor := by
  simp only [suspendDie]; split <;> simp

@[simp] theorem resumeOp_anchor (n d : Nat) (s : State) : (resumeOp n d s).anchor = s.anchor := by simp [resumeOp]
@[simp] theorem resumeCommand_anchor (f : FarFrame) (s : State) : (resumeCommand f s).anchor = s.anchor := by simp [resumeCommand]
@[simp] theorem statusCommand_anchor (f : FarFrame) (s : State) : (statusCommand f s).anchor = s.anchor := by simp [statusCommand]
@[simp] theorem abortProgram_anchor (o : DieOp) (s : State) : (abortProgram o s).anchor = s.anchor := by simp [abortProgram]
@[simp] theorem resetDie_anchor (f : FarFrame) (s : State) : (resetDie f s).anchor = s.anchor := by simp [resetDie]
@[simp] theorem getInfoEffect_anchor (f : FarFrame) (s : State) : (getInfoEffect f s).anchor = s.anchor := by simp [getInfoEffect]

@[simp] theorem dropOldOwner_anchor (n d : Nat) (linked : Bool) (s : State) : (dropOldOwner n d linked s).anchor = s.anchor :=
  by simp [dropOldOwner]

@[simp] theorem acceptClaim_anchor (n : Nat) (p : Fin 2) (v : Word32) (s : State) : (acceptClaim n p v s).anchor = s.anchor :=
  by simp [acceptClaim]

@[simp] theorem arbitrate_anchor (f : FarFrame) (s : State) : (arbitrate f s).anchor = s.anchor := by simp [arbitrate]

@[simp] theorem claimEffect_anchor (f : FarFrame) (rival : Option FarFrame) (s : State) :
    (claimEffect f rival s).anchor = s.anchor := by
  unfold claimEffect; split <;> simp

@[simp] theorem takeParams_anchor (n : Nat) (s : State) : (takeParams n s).anchor = s.anchor := by simp [takeParams]

@[simp] theorem paramPushEffect_anchor (f : FarFrame) (s : State) : (paramPushEffect f s).anchor = s.anchor :=
  by simp [paramPushEffect]

@[simp] theorem dieOperationDoneEffect_anchor (n d : Nat) (r : DieOutcome) (s : State) :
    (dieOperationDoneEffect n d r s).anchor = s.anchor := by
  unfold dieOperationDoneEffect; split <;> simp

@[simp] theorem portDown_anchor (n : Nat) (p : Fin 2) (s : State) : (portDown n p s).anchor = s.anchor := by simp [portDown]

@[simp] theorem portLearns_anchor (n : Nat) (p : Fin 2) (other : Byte) (s : State) : (portLearns n p other s).anchor = s.anchor :=
  by simp [portLearns]

@[simp] theorem portUp_anchor (n : Nat) (p : Fin 2) (s : State) : (portUp n p s).anchor = s.anchor := by simp [portUp]
@[simp] theorem freshModule_anchor (n : Nat) (s : State) : (freshModule n s).anchor = s.anchor := by simp [freshModule]

/-! ### Machine/Farium.lean -/

@[simp] theorem noteClock_anchor (n : Nat) (s : State) : (noteClock n s).anchor = s.anchor := by simp [noteClock]

@[simp] theorem faultLane_anchor (n : Nat) (cause : Fin 8) (s : State) : (faultLane n cause s).anchor = s.anchor :=
  by simp [faultLane]

@[simp] theorem dieOut_anchor (n d : Nat) (s : State) : (dieOut n d s).anchor = s.anchor := by simp [dieOut]
@[simp] theorem sendTs2_anchor (n : Nat) (s : State) : (sendTs2 n s).anchor = s.anchor := by simp [sendTs2]
@[simp] theorem signalEffect_anchor (n : Nat) (s : State) : (signalEffect n s).anchor = s.anchor := by simp [signalEffect]
@[simp] theorem ts1Effect_anchor (n : Nat) (b : Bytes) (s : State) : (ts1Effect n b s).anchor = s.anchor := by simp [ts1Effect]
@[simp] theorem laneActive_anchor (n : Nat) (b : Bytes) (s : State) : (laneActive n b s).anchor = s.anchor := by simp [laneActive]
@[simp] theorem ts2Effect_anchor (n : Nat) (b : Bytes) (s : State) : (ts2Effect n b s).anchor = s.anchor := by simp [ts2Effect]

@[simp] theorem trainTimeoutEffect_anchor (n : Nat) (s : State) : (trainTimeoutEffect n s).anchor = s.anchor :=
  by simp [trainTimeoutEffect]

@[simp] theorem retryEffect_anchor (n : Nat) (s : State) : (retryEffect n s).anchor = s.anchor := by simp [retryEffect]

@[simp] theorem onActive_anchor (n : Nat) (f : State → State) (s : State) (hf : ∀ t, (f t).anchor = t.anchor) :
    (onActive n f s).anchor = s.anchor := by
  unfold onActive; (repeat' split) <;> simp_all

@[simp] theorem linkDown_anchor (n : Nat) (s : State) : (linkDown n s).anchor = s.anchor := by simp [linkDown]
@[simp] theorem quietEffect_anchor (n : Nat) (s : State) : (quietEffect n s).anchor = s.anchor := by simp [quietEffect]
@[simp] theorem replayLane_anchor (n : Nat) (s : State) : (replayLane n s).anchor = s.anchor := by simp [replayLane]
@[simp] theorem sendLink_anchor (n : Nat) (nak : Bool) (s : State) : (sendLink n nak s).anchor = s.anchor := by simp [sendLink]
@[simp] theorem badFrame_anchor (n : Nat) (l : FrameLink) (s : State) : (badFrame n l s).anchor = s.anchor := by simp [badFrame]

@[simp] theorem takeFrame_anchor (n : Nat) (l : FrameLink) (f : State → State) (s : State) (hf : ∀ t, (f t).anchor = t.anchor) :
    (takeFrame n l f s).anchor = s.anchor := by
  simp_all [takeFrame]

@[simp] theorem linkFrameEffect_anchor (n : Nat) (f : LinkFrame) (s : State) : (linkFrameEffect n f s).anchor = s.anchor :=
  by simp [linkFrameEffect]

@[simp] theorem bridgeLinks_anchor (n : Nat) (s : State) : (bridgeLinks n s).anchor = s.anchor := by simp [bridgeLinks]
@[simp] theorem sendClaim_anchor (n v : Nat) (s : State) : (sendClaim n v s).anchor = s.anchor := by simp [sendClaim]
@[simp] theorem takeModule_anchor (n : Nat) (s : State) : (takeModule n s).anchor = s.anchor := by simp [takeModule]
@[simp] theorem seeClaim_anchor (n : Nat) (v : Word32) (s : State) : (seeClaim n v s).anchor = s.anchor := by simp [seeClaim]

@[simp] theorem placeModule_anchor (n owner : Nat) (s : State) : (placeModule n owner s).anchor = s.anchor :=
  by simp [placeModule]

@[simp] theorem claimIdentified_anchor (s : State) : (claimIdentified s).anchor = s.anchor := by simp [claimIdentified]
@[simp] theorem claimPeerHeld_anchor (s : State) : (claimPeerHeld s).anchor = s.anchor := by simp [claimPeerHeld]
@[simp] theorem takeoverCheck_anchor (s : State) : (takeoverCheck s).anchor = s.anchor := by simp [takeoverCheck]
@[simp] theorem pushAll_anchor (n : Nat) (s : State) : (pushAll n s).anchor = s.anchor := by simp [pushAll]
@[simp] theorem dropOut_anchor (n tag : Nat) (s : State) : (dropOut n tag s).anchor = s.anchor := by simp [dropOut]

@[simp] theorem modOut_anchor (n tag : Nat) (f : FarOut → FarOut) (s : State) : (modOut n tag f s).anchor = s.anchor :=
  by simp [modOut]

@[simp] theorem dieRunEnds_anchor (n d : Nat) (s : State) : (dieRunEnds n d s).anchor = s.anchor := by
  simp only [dieRunEnds]; split <;> simp

@[simp] theorem resumeOut_anchor (n : Nat) (s : State) : (resumeOut n s).anchor = s.anchor := by simp [resumeOut]

@[simp] theorem identified_anchor (n : Nat) (page : Bytes) (s : State) : (identified n page s).anchor = s.anchor :=
  by simp [identified]

@[simp] theorem claimWon_anchor (n : Nat) (s : State) : (claimWon n s).anchor = s.anchor := by simp [claimWon]
@[simp] theorem moduleHeld_anchor (n : Nat) (s : State) : (moduleHeld n s).anchor = s.anchor := by simp [moduleHeld]
@[simp] theorem moduleTaken_anchor (n : Nat) (s : State) : (moduleTaken n s).anchor = s.anchor := by simp [moduleTaken]
@[simp] theorem claimRefused_anchor (n : Nat) (s : State) : (claimRefused n s).anchor = s.anchor := by simp [claimRefused]

@[simp] theorem protocolFault_anchor (n : Nat) (status : Word16) (now : Nat) (s : State) :
    (protocolFault n status now s).anchor = s.anchor := by simp [protocolFault]

@[simp] theorem eraseFailed_anchor (n : Nat) (c : FarCmd) (s : State) : (eraseFailed n c s).anchor = s.anchor := by
  unfold eraseFailed; split <;> simp

@[simp] theorem granuleRead_anchor (n : Nat) (o : FarCmd) (data : Bytes) (s : State) :
    (granuleRead n o data s).anchor = s.anchor := by simp [granuleRead]

@[simp] theorem oldStatus_anchor (n d : Nat) (r : Bytes) (s : State) : (oldStatus n d r s).anchor = s.anchor := by
  simp [oldStatus]

@[simp] theorem statusRead_anchor (n : Nat) (o : FarCmd) (data : Bytes) (s : State) : (statusRead n o data s).anchor = s.anchor :=
  by simp [statusRead]

@[simp] theorem completionAct_anchor (c : FarCompletion) (o : FarOut) (s : State) : (completionAct c o s).anchor = s.anchor :=
  by simp [completionAct]

@[simp] theorem completionEffect_anchor (c : FarCompletion) (s : State) : (completionEffect c s).anchor = s.anchor := by
  simp only [completionEffect]; split <;> simp

@[simp] theorem noticeEffect_anchor (n : Nat) (code : Byte) (aux : Word32) (s : State) :
    (noticeEffect n code aux s).anchor = s.anchor := by simp [noticeEffect]

@[simp] theorem commandTimeoutEffect_anchor (n tag : Nat) (st : DieStatus) (s : State) :
    (commandTimeoutEffect n tag st s).anchor = s.anchor := by
  unfold commandTimeoutEffect; split <;> simp

@[simp] theorem settleByStatus_anchor (n : Nat) (st : DieStatus) (o : FarOut) (s : State) :
    (settleByStatus n st o s).anchor = s.anchor := by simp [settleByStatus]

@[simp] theorem pollEffect_anchor (n d : Nat) (st : DieStatus) (s : State) : (pollEffect n d st s).anchor = s.anchor :=
  by simp [pollEffect]

@[simp] theorem claimResendEffect_anchor (s : State) : (claimResendEffect s).anchor = s.anchor := by simp [claimResendEffect]

@[simp] theorem claimDeadlineEffect_anchor (s : State) : (claimDeadlineEffect s).anchor = s.anchor :=
  by simp [claimDeadlineEffect]

/-! ### Machine/Parity.lean -/

@[simp] theorem lostExpiryEffect_anchor (n : Nat) (s : State) : (lostExpiryEffect n s).anchor = s.anchor :=
  by simp [lostExpiryEffect]

@[simp] theorem reconstructEffect_anchor (id : Nat) (src : List (Nat × Option Bytes)) (s : State) :
    (reconstructEffect id src s).anchor = s.anchor := by
  unfold reconstructEffect; (repeat' split) <;> simp

@[simp] theorem rebuildPassed_anchor (j : ReadJob) (e : ChunkEnt) (a : Bytes × Bytes) (s : State) :
    (rebuildPassed j e a s).anchor = s.anchor := by simp [rebuildPassed]

@[simp] theorem rebuildFailed_anchor (j : ReadJob) (e : ChunkEnt) (l : List (Bytes × Bytes)) (s : State) :
    (rebuildFailed j e l s).anchor = s.anchor := by simp [rebuildFailed]

@[simp] theorem faultNewer_anchor (e : ChunkEnt) (s : State) : (faultNewer e s).anchor = s.anchor := by
  unfold faultNewer; split <;> simp

@[simp] theorem baleRebuildEffect_anchor (id : Nat) (src : List (Nat × Option Bytes)) (w : Bytes) (s : State) :
    (baleRebuildEffect id src w s).anchor = s.anchor := by
  simp only [baleRebuildEffect]; (repeat' split) <;> simp

@[simp] theorem processed_anchor (id no granules : Nat) (s : State) : (processed id no granules s).anchor = s.anchor := by
  simp only [processed]; split <;> simp

@[simp] theorem nextPhase_anchor (id : Nat) (s : State) : (nextPhase id s).anchor = s.anchor := by simp [nextPhase]
@[simp] theorem waitForRoom_anchor (j : Job) (s : State) : (waitForRoom j s).anchor = s.anchor := by simp [waitForRoom]

@[simp] theorem rebuildStep_anchor (j : Job) (s : State) : (rebuildStep j s).anchor = s.anchor := by
  unfold rebuildStep; (repeat' split) <;> simp

@[simp] theorem reshapeStep_anchor (j : Job) (s : State) : (reshapeStep j s).anchor = s.anchor := by
  unfold reshapeStep; (repeat' split) <;> simp

@[simp] theorem besideStep_anchor (j : Job) (s : State) : (besideStep j s).anchor = s.anchor := by
  unfold besideStep; (repeat' split) <;> simp

@[simp] theorem jobStepEffect_anchor (s : State) : (jobStepEffect s).anchor = s.anchor := by
  unfold jobStepEffect; (repeat' split) <;> simp

@[simp] theorem ckptTimerEffect_anchor (s : State) : (ckptTimerEffect s).anchor = s.anchor := by simp [ckptTimerEffect]
@[simp] theorem resumeTask_anchor (c : JobCkpt) (s : State) : (resumeTask c s).anchor = s.anchor := by simp [resumeTask]
@[simp] theorem besideStartEffect_anchor (s : State) : (besideStartEffect s).anchor = s.anchor := by simp [besideStartEffect]

@[simp] theorem besideSwitched_anchor (s : State) : (besideSwitched s).anchor = s.anchor := by
  unfold besideSwitched; split <;> simp

@[simp] theorem patrolBale_anchor (f : PatrolFinding) (no : Nat) (s : State) : (patrolBale f no s).anchor = s.anchor :=
  by simp [patrolBale]

@[simp] theorem patrolFound_anchor (f : PatrolFinding) (s : State) : (patrolFound f s).anchor = s.anchor := by simp [patrolFound]

@[simp] theorem patrolEffect_anchor (f : PatrolFinding) (s : State) : (patrolEffect f s).anchor = s.anchor := by
  unfold patrolEffect; split <;> simp

/-! ### Machine/Tilask.lean -/

@[simp] theorem initArray_anchor (s : State) : (initArray s).anchor = s.anchor := by simp [initArray]
@[simp] theorem takeRoot_anchor (root : Bytes) (s : State) : (takeRoot root s).anchor = s.anchor := by simp [takeRoot]
@[simp] theorem initModule_anchor (n : Nat) (s : State) : (initModule n s).anchor = s.anchor := by simp [initModule]

@[simp] theorem takeSuper_anchor (n : Nat) (b : Bytes) (block next : Nat) (root : Bytes) (s : State) :
    (takeSuper n b block next root s).anchor = s.anchor := by simp [takeSuper]

@[simp] theorem superblockEffect_anchor (n : Nat) (b : Bytes) (block next : Nat) (root : Bytes) (s : State) :
    (superblockEffect n b block next root s).anchor = s.anchor := by simp [superblockEffect]

@[simp] theorem rootRecordedEffect_anchor (lanes : List Nat) (s : State) : (rootRecordedEffect lanes s).anchor = s.anchor :=
  by simp [rootRecordedEffect]

@[simp] theorem rootsIfDue_anchor (s : State) : (rootsIfDue s).anchor = s.anchor := by simp [rootsIfDue]
@[simp] theorem raiseFloor_anchor (s : State) : (raiseFloor s).anchor = s.anchor := by simp [raiseFloor]

@[simp] theorem checkpointCompleteEffect_anchor (s : State) : (checkpointCompleteEffect s).anchor = s.anchor :=
  by simp [checkpointCompleteEffect]

@[simp] theorem programGranule_anchor (n : Nat) (b : Bytes) (s : State) : (programGranule n b s).anchor = s.anchor :=
  by simp [programGranule]

@[simp] theorem sendGranule_anchor (s : State) : (sendGranule s).anchor = s.anchor := by simp [sendGranule]
@[simp] theorem granuleWriteEffect_anchor (s : State) : (granuleWriteEffect s).anchor = s.anchor := by simp [granuleWriteEffect]

@[simp] theorem programMark_anchor (w : Nat) (p : Nat × Nat × Nat) (s : State) : (programMark w p s).anchor = s.anchor :=
  by simp [programMark]

@[simp] theorem granuleDoneEffect_anchor (good : Bool) (s : State) : (granuleDoneEffect good s).anchor = s.anchor :=
  by simp [granuleDoneEffect]

@[simp] theorem eraseArea_anchor (s : State) : (eraseArea s).anchor = s.anchor := by simp [eraseArea]
@[simp] theorem objectWriteEffect_anchor (s : State) : (objectWriteEffect s).anchor = s.anchor := by simp [objectWriteEffect]

@[simp] theorem objectLanded_anchor (s : State) : (objectLanded s).anchor = s.anchor := by
  unfold objectLanded; (repeat' split) <;> simp

/-! ### Machine/Snap.lean -/

@[simp] theorem modSnap_anchor (n q : Nat) (f : Snap → Snap) (s : State) : (modSnap n q f s).anchor = s.anchor :=
  by simp [modSnap]

@[simp] theorem modSess_anchor (n : Nat) (f : Sess → Sess) (s : State) : (modSess n f s).anchor = s.anchor := by simp [modSess]
@[simp] theorem plainDone_anchor (d : AdminDone) : (plainDone d).2.2.2.anchor = d.2.2.anchor := by simp [plainDone]
@[simp] theorem endSnap_anchor (w : Waiter) (d : SnapDone) : (endSnap w d).anchor = d.2.2.2.anchor := by simp [endSnap]
@[simp] theorem relaySnap_anchor (w : Waiter) (s : State) : (relaySnap w s).anchor = s.anchor := by simp [relaySnap]

@[simp] theorem snapCommand_anchor (f : Waiter → State → State) (w : Waiter) (s : State) (hf : ∀ y1 t,
    (f y1 t).anchor = t.anchor) :
    (snapCommand f w s).anchor = s.anchor := by
  unfold snapCommand; (repeat' split) <;> simp_all

@[simp] theorem snapRow_anchor (f : Waiter → State → State) (c : HostCmd) (s : State) (hf : ∀ y1 t, (f y1 t).anchor = t.anchor) :
    (snapRow f c s).anchor = s.anchor := by
  simp_all [snapRow]

@[simp] theorem snapNow_anchor (f : HostCmd → State → SnapDone) (w : Waiter) (s : State) (hf : ∀ y1 t,
    (f y1 t).2.2.2.anchor = t.anchor) :
    (snapNow f w s).anchor = s.anchor := by
  simp_all [snapNow]

@[simp] theorem cgSetCmd_anchor (c : HostCmd) (s : State) : (cgSetCmd c s).2.2.anchor = s.anchor := by
  simp only [cgSetCmd]; split_ifs <;> simp

@[simp] theorem cgSetDo_anchor (x1 : Waiter) (x2 : State) : (cgSetDo x1 x2).anchor = x2.anchor := by simp [cgSetDo]

@[simp] theorem snapCreateStart_anchor (w : Waiter) (s : State) : (snapCreateStart w s).anchor = s.anchor := by
  simp only [snapCreateStart]; (repeat' split) <;> simp

@[simp] theorem recordCut_anchor (id : Nat) (label : Bytes) (g : Option Nat) (l : List Nat) (s : State) :
    (recordCut id label g l s).anchor = s.anchor := by simp [recordCut]

@[simp] theorem snapCutEffect_anchor (id : Nat) (s : State) : (snapCutEffect id s).anchor = s.anchor := by
  unfold snapCutEffect; (repeat' split) <;> simp

@[simp] theorem freezeRoot_anchor (x : Snap) (s : State) : (freezeRoot x s).anchor = s.anchor := by simp [freezeRoot]

@[simp] theorem snapCompleteEffect_anchor (id : Nat) (s : State) : (snapCompleteEffect id s).anchor = s.anchor :=
  by simp [snapCompleteEffect]

@[simp] theorem snapDeleteCmd_anchor (c : HostCmd) (s : State) : (snapDeleteCmd c s).2.2.anchor = s.anchor := by
  unfold snapDeleteCmd; (repeat' split) <;> simp

@[simp] theorem snapDeleteDo_anchor (x1 : Waiter) (x2 : State) : (snapDeleteDo x1 x2).anchor = x2.anchor := by simp [snapDeleteDo]

@[simp] theorem walkEndEffect_anchor (n q : Nat) (s : State) : (walkEndEffect n q s).anchor = s.anchor := by
  unfold walkEndEffect; split <;> simp

@[simp] theorem snapListCmd_anchor (c : HostCmd) (s : State) : (snapListCmd c s).2.2.2.anchor = s.anchor := by
  unfold snapListCmd; split <;> simp

@[simp] theorem snapExposeCmd_anchor (c : HostCmd) (s : State) : (snapExposeCmd c s).2.2.anchor = s.anchor := by
  unfold snapExposeCmd; (repeat' split) <;> simp

@[simp] theorem snapExposeDo_anchor (x1 : Waiter) (x2 : State) : (snapExposeDo x1 x2).anchor = x2.anchor := by simp [snapExposeDo]
@[simp] theorem addSess_anchor (x : Sess) (s : State) : (addSess x s).anchor = s.anchor := by simp [addSess]

@[simp] theorem replPairCmd_anchor (ids : List Word64) (sealed_ : Bool) (c : HostCmd) (s : State) :
    (replPairCmd ids sealed_ c s).2.2.anchor = s.anchor := by
  unfold replPairCmd; (repeat' split) <;> simp

@[simp] theorem ingestCmd_anchor (c : HostCmd) (s : State) : (ingestCmd c s).2.2.anchor = s.anchor := by
  unfold ingestCmd; (repeat' split) <;> simp

@[simp] theorem discardBatch_anchor (b : Batch) (s : State) : (discardBatch b s).anchor = s.anchor := by simp [discardBatch]

@[simp] theorem discardBatches_anchor (n : Nat) (s : State) : (discardBatches n s).anchor = s.anchor := by
  unfold discardBatches; split <;> simp

@[simp] theorem suspendSess_anchor (n : Nat) (s : State) : (suspendSess n s).anchor = s.anchor := by simp [suspendSess]
@[simp] theorem endSess_anchor (n : Nat) (s : State) : (endSess n s).anchor = s.anchor := by simp [endSess]

@[simp] theorem replStopCmd_anchor (c : HostCmd) (s : State) : (replStopCmd c s).2.2.anchor = s.anchor := by
  unfold replStopCmd; (repeat' split) <;> simp

@[simp] theorem replStopDo_anchor (x1 : Waiter) (x2 : State) : (replStopDo x1 x2).anchor = x2.anchor := by simp [replStopDo]

@[simp] theorem replStatusCmd_anchor (c : HostCmd) (s : State) : (replStatusCmd c s).2.2.2.anchor = s.anchor := by
  unfold replStatusCmd; split <;> simp

/-! ### Machine/Rdma.lean -/

@[simp] theorem modRc_anchor (n : Nat) (f : RcQp → RcQp) (s : State) : (modRc n f s).anchor = s.anchor := by simp [modRc]

@[simp] theorem equip_anchor (qpn : Nat) (s : State) : (equip qpn s).anchor = s.anchor := by
  unfold equip; split <;> simp

@[simp] theorem idleCaravans_anchor (qpn : Nat) (s : State) : (idleCaravans qpn s).anchor = s.anchor := by simp [idleCaravans]
@[simp] theorem removeRc_anchor (qpn : Nat) (s : State) : (removeRc qpn s).anchor = s.anchor := by simp [removeRc]

@[simp] theorem suspendOn_anchor (q : RcQp) (s : State) : (suspendOn q s).anchor = s.anchor := by
  unfold suspendOn; (repeat' split) <;> simp

@[simp] theorem qpError_anchor (qpn : Nat) (s : State) : (qpError qpn s).anchor = s.anchor := by
  unfold qpError; split <;> simp

@[simp] theorem settleRules_anchor (s : State) : (settleRules s).anchor = s.anchor := by simp [settleRules]

@[simp] theorem nakError_anchor (q : RcQp) (psn cause : Nat) (s : State) : (nakError q psn cause s).anchor = s.anchor :=
  by simp [nakError]

@[simp] theorem modPath_anchor (a : Nat) (f : Path → Path) (s : State) : (modPath a f s).anchor = s.anchor := by simp [modPath]

@[simp] theorem endRelay_anchor (r : Relay) (status : Word16) (s : State) : (endRelay r status s).anchor = s.anchor :=
  by simp [endRelay]

@[simp] theorem settleLost_anchor (s : State) : (settleLost s).anchor = s.anchor := by simp [settleLost]

@[simp] theorem movePort_anchor (a p : Nat) (s : State) : (movePort a p s).anchor = s.anchor := by
  unfold movePort; split <;> simp

@[simp] theorem dropPath_anchor (a p : Nat) (s : State) : (dropPath a p s).anchor = s.anchor := by simp [dropPath]
@[simp] theorem retriesOut_anchor (q : RcQp) (s : State) : (retriesOut q s).anchor = s.anchor := by simp [retriesOut]
@[simp] theorem peerEpochSeen_anchor (e : Word16) (s : State) : (peerEpochSeen e s).anchor = s.anchor := by simp [peerEpochSeen]

@[simp] theorem settleStale_anchor (a : Nat) (e : Word16) (s : State) : (settleStale a e s).anchor = s.anchor :=
  by simp [settleStale]

@[simp] theorem supersedePath_anchor (a : Nat) (e : Word16) (s : State) : (supersedePath a e s).anchor = s.anchor :=
  by simp [supersedePath]

@[simp] theorem learnEpoch_anchor (a : Nat) (e : Word16) (s : State) : (learnEpoch a e s).anchor = s.anchor :=
  by simp [learnEpoch]

@[simp] theorem refuseStale_anchor (relayId dst : Nat) (s : State) : (refuseStale relayId dst s).anchor = s.anchor :=
  by simp [refuseStale]

@[simp] theorem countDiscard_anchor (s : State) : (countDiscard s).anchor = s.anchor := by simp [countDiscard]

@[simp] theorem tenantReject_anchor (q : RcQp) (p : Packet) (s : State) : (tenantReject q p s).anchor = s.anchor :=
  by simp [tenantReject]

@[simp] theorem packetRow_anchor (p : Packet) (f : RcQp → State → State) (s : State) (hf : ∀ y1 t, (f y1 t).anchor = t.anchor) :
    (packetRow p f s).anchor = s.anchor := by
  unfold packetRow; (repeat' split) <;> simp_all

@[simp] theorem sendAck_anchor (q : RcQp) (p : Packet) (s : State) : (sendAck q p s).anchor = s.anchor := by simp [sendAck]

@[simp] theorem repost_anchor (qpn : Nat) (r : Nat × Nat × Option Nat) (s : State) : (repost qpn r s).anchor = s.anchor :=
  by simp [repost]

@[simp] theorem deliverSend_anchor (q : RcQp) (r : Nat × Nat × Option Nat) (p : Packet) (s : State) :
    (deliverSend q r p s).anchor = s.anchor := by simp [deliverSend]

@[simp] theorem sendArrives_anchor (p : Packet) (q : RcQp) (s : State) : (sendArrives p q s).anchor = s.anchor := by
  unfold sendArrives; (repeat' split) <;> simp

@[simp] theorem atomicArrives_anchor (p : Packet) (region addr : Nat) (cas : Bool) (operand cmp : Word64) (q : RcQp) (s : State) :
    (atomicArrives p region addr cas operand cmp q s).anchor = s.anchor := by simp [atomicArrives]

@[simp] theorem rnrEffect_anchor (qpn : Nat) (s : State) : (rnrEffect qpn s).anchor = s.anchor := by
  unfold rnrEffect; split <;> simp

@[simp] theorem ackTimeoutEffect_anchor (qpn : Nat) (s : State) : (ackTimeoutEffect qpn s).anchor = s.anchor := by
  unfold ackTimeoutEffect; split <;> simp

@[simp] theorem applyRule_anchor (r : RdmaRule) (s : State) : (applyRule r s).anchor = s.anchor := by
  unfold applyRule; split <;> simp

@[simp] theorem ruleChangeEffect_anchor (r : RdmaRule) (s : State) : (ruleChangeEffect r s).anchor = s.anchor :=
  by simp [ruleChangeEffect]

@[simp] theorem ruleTimeoutEffect_anchor (s : State) : (ruleTimeoutEffect s).anchor = s.anchor := by
  unfold ruleTimeoutEffect
  rw [settleRules_anchor, forEach_anchor fun n t => by split <;> simp]

@[simp] theorem sendConn_anchor (type : Nat) (q : RcQp) (s : State) : (sendConn type q s).anchor = s.anchor := by simp [sendConn]

@[simp] theorem openRc_anchor (purpose t : Nat) (session : Word64) (addr port : Nat) (s : State) :
    (openRc purpose t session addr port s).anchor = s.anchor := by
  unfold openRc; split <;> simp

@[simp] theorem fedConnect_anchor (a : Nat) (s : State) : (fedConnect a s).anchor = s.anchor := by simp [fedConnect]

@[simp] theorem connRow_anchor (m : ConnMsg) (f : State → State) (s : State) (hf : ∀ t, (f t).anchor = t.anchor) :
    (connRow m f s).anchor = s.anchor := by
  unfold connRow; (repeat' split) <;> simp_all

@[simp] theorem connectEffect_anchor (m : ConnMsg) (s : State) : (connectEffect m s).anchor = s.anchor := by
  unfold connectEffect; (repeat' split) <;> simp

@[simp] theorem acceptEffect_anchor (m : ConnMsg) (s : State) : (acceptEffect m s).anchor = s.anchor := by
  unfold acceptEffect; split <;> simp

@[simp] theorem rejectEffect_anchor (m : ConnMsg) (s : State) : (rejectEffect m s).anchor = s.anchor := by
  unfold rejectEffect; split <;> simp

@[simp] theorem modCaravan_anchor (n : Nat) (f : Caravan → Caravan) (s : State) : (modCaravan n f s).anchor = s.anchor :=
  by simp [modCaravan]

@[simp] theorem modElement_anchor (n i : Nat) (f : Element → Element) (s : State) : (modElement n i f s).anchor = s.anchor :=
  by simp [modElement]

@[simp] theorem dropCaravan_anchor (n : Nat) (s : State) : (dropCaravan n s).anchor = s.anchor := by simp [dropCaravan]
@[simp] theorem armCaravan_anchor (c : Caravan) (s : State) : (armCaravan c s).anchor = s.anchor := by simp [armCaravan]

@[simp] theorem sendBytes_anchor (qpn : Nat) (b : Bytes) (s : State) : (sendBytes qpn b s).anchor = s.anchor := by
  unfold sendBytes; split <;> simp

@[simp] theorem sendGather_anchor (c : Caravan) (e : Element) (s : State) : (sendGather c e s).anchor = s.anchor :=
  by simp [sendGather]

@[simp] theorem startElement_anchor (c : Caravan) (i : Nat) (e : Element) (s : State) :
    (startElement c i e s).anchor = s.anchor := by simp [startElement]

@[simp] theorem visit_anchor (id : Nat) (a : Bool × State) (i : Nat) : (visit id a i).2.anchor = a.2.anchor := by
  unfold visit
  (repeat' split) <;> simp

@[simp] theorem stepCaravan_anchor (id : Nat) (s : State) : (stepCaravan id s).anchor = s.anchor := by
  have hvisit := fun l => foldl_keeps (fun p : Bool × State => p.2.anchor) (visit id) (visit_anchor id) l (false, s)
  simp only [stepCaravan]
  (repeat' split) <;> simp [hvisit]

@[simp] theorem releaseCaravan_anchor (id qpn : Nat) (gate : List Nat) (s : State) :
    (releaseCaravan id qpn gate s).anchor = s.anchor := by
  unfold releaseCaravan; split <;> simp

@[simp] theorem endElement_anchor (c : Caravan) (e : Element) (s : State) : (endElement c e s).anchor = s.anchor :=
  by simp [endElement]

@[simp] theorem elementDone_anchor (id i : Nat) (failed : Option Nat) (s : State) :
    (elementDone id i failed s).anchor = s.anchor := by
  unfold elementDone; (repeat' split) <;> simp

@[simp] theorem cancelEffect_anchor (id : Nat) (s : State) : (cancelEffect id s).anchor = s.anchor := by
  unfold cancelEffect; split <;> simp

@[simp] theorem announceEffect_anchor (s : State) : (announceEffect s).anchor = s.anchor := by simp [announceEffect]

@[simp] theorem enterIsolated_anchor (s : State) : (enterIsolated s).anchor = s.anchor := by
  unfold enterIsolated
  dsimp only
  rw [settleRules_anchor, forEach_anchor (fun r t => by simp), forEach_anchor fun n t => by split <;> simp]
  simp

@[simp] theorem markDuplicate_anchor (a : Nat) (s : State) : (markDuplicate a s).anchor = s.anchor := by simp [markDuplicate]

@[simp] theorem duplicateSeen_anchor (a : Nat) (x y : Word64) (s : State) : (duplicateSeen a x y s).anchor = s.anchor :=
  by simp [duplicateSeen]

@[simp] theorem announceReceivedEffect_anchor (x : Announce) (s : State) : (announceReceivedEffect x s).anchor = s.anchor :=
  by simp [announceReceivedEffect]

@[simp] theorem linkChangeEffect_anchor (p : Nat) (up : Bool) (s : State) : (linkChangeEffect p up s).anchor = s.anchor :=
  by simp [linkChangeEffect]

@[simp] theorem answerFed_anchor (src relayId : Nat) (c : HostCmd) (status : Word16) (s : State) :
    (answerFed src relayId c status s).anchor = s.anchor := by simp [answerFed]

@[simp] theorem runRelayed_anchor (src relayId tenant : Nat) (c : HostCmd) (data : Bytes) (s : State) :
    (runRelayed src relayId tenant c data s).anchor = s.anchor := by simp [runRelayed]

@[simp] theorem relayReqEffect_anchor (src : Nat) (e target : Word16) (id tenant : Nat) (c : HostCmd) (data : Bytes) (s : State) :
    (relayReqEffect src e target id tenant c data s).anchor = s.anchor := by simp [relayReqEffect]

@[simp] theorem relayData_anchor (c : Cmd) (e : HostCmd) (data : Bytes) (s : State) : (relayData c e data s).anchor = s.anchor :=
  by simp [relayData]

@[simp] theorem relayRspEffect_anchor (e : Word16) (id : Nat) (status : Word16) (part : Bool) (count result : Nat)
    (data : Bytes) (s : State) :
    (relayRspEffect e id status part count result data s).anchor = s.anchor := by
  unfold relayRspEffect; (repeat' split) <;> simp

@[simp] theorem resendRelay_anchor (r : Relay) (serving : Nat) (s : State) : (resendRelay r serving s).anchor = s.anchor := by
  unfold resendRelay; split <;> simp

@[simp] theorem relayRefuseEffect_anchor (id : Nat) (reason e : Word16) (serving : Nat) (s : State) :
    (relayRefuseEffect id reason e serving s).anchor = s.anchor := by
  simp only [relayRefuseEffect]; (repeat' split) <;> simp

@[simp] theorem relayTimeoutEffect_anchor (id : Nat) (s : State) : (relayTimeoutEffect id s).anchor = s.anchor := by
  unfold relayTimeoutEffect; split <;> simp

@[simp] theorem answerTenant_anchor (dst : Nat) (status : Word16) (s : State) : (answerTenant dst status s).anchor = s.anchor :=
  by simp [answerTenant]

@[simp] theorem tenantMsgEffect_anchor (src : Nat) (m : TenantMsg) (s : State) : (tenantMsgEffect src m s).anchor = s.anchor := by
  unfold tenantMsgEffect; (repeat' split) <;> simp

/-! ### Machine/Repl.lean -/

@[simp] theorem sendRaw_anchor (type : Byte) (k : Word64) (seq batch count : Nat) (body : Bytes) (s : State) :
    (sendRaw type k seq batch count body s).anchor = s.anchor := by simp [sendRaw]

@[simp] theorem addBytes_anchor (n k : Nat) (s : State) : (addBytes n k s).anchor = s.anchor := by simp [addBytes]

@[simp] theorem sendSess_anchor (type : Byte) (x : Sess) (batch count : Nat) (body : Bytes) (s : State) :
    (sendSess type x batch count body s).anchor = s.anchor := by simp [sendSess]

@[simp] theorem sendRefuse_anchor (k : Word64) (reason : Nat) (s : State) : (sendRefuse k reason s).anchor = s.anchor :=
  by simp [sendRefuse]

@[simp] theorem connectSess_anchor (x : Sess) (s : State) : (connectSess x s).anchor = s.anchor := by simp [connectSess]

@[simp] theorem offerOne_anchor (n : Nat) (s : State) : (offerOne n s).anchor = s.anchor := by
  simp only [offerOne]; (repeat' split) <;> simp

@[simp] theorem sendEnd_anchor (n : Nat) (s : State) : (sendEnd n s).anchor = s.anchor := by
  unfold sendEnd; split <;> simp

@[simp] theorem pumpSource_anchor (n : Nat) (s : State) : (pumpSource n s).anchor = s.anchor := by simp [pumpSource]

@[simp] theorem pairThenConnect_anchor (n : Nat) (s : State) : (pairThenConnect n s).anchor = s.anchor := by
  unfold pairThenConnect; split <;> simp

@[simp] theorem replPairDo_anchor (ids : List Word64) (sealed_ : Bool) (x3 : Waiter) (x4 : State) :
    (replPairDo ids sealed_ x3 x4).anchor = x4.anchor := by simp [replPairDo]

@[simp] theorem ingestDo_anchor (x1 : Waiter) (x2 : State) : (ingestDo x1 x2).anchor = x2.anchor := by simp [ingestDo]

@[simp] theorem replSendCmd_anchor (c : HostCmd) (s : State) : (replSendCmd c s).2.2.anchor = s.anchor := by
  unfold replSendCmd; (repeat' split) <;> simp

@[simp] theorem startSend_anchor (n : Nat) (s : State) : (startSend n s).anchor = s.anchor := by
  unfold startSend; split <;> simp

@[simp] theorem replSendDo_anchor (x1 : Waiter) (x2 : State) : (replSendDo x1 x2).anchor = x2.anchor := by simp [replSendDo]

@[simp] theorem acceptedSession_anchor (m : ConnMsg) (s : State) : (acceptedSession m s).anchor = s.anchor := by
  unfold acceptedSession; (repeat' split) <;> simp

@[simp] theorem replRow_anchor (source : Bool) (h : ReplHdr) (len : Nat) (f : Sess → State → State) (s : State) (hf : ∀ y1 t,
    (f y1 t).anchor = t.anchor) :
    (replRow source h len f s).anchor = s.anchor := by
  simp only [replRow]; (repeat' split) <;> simp_all

@[simp] theorem faultSess_anchor (n rule k : Nat) (s : State) : (faultSess n rule k s).anchor = s.anchor := by simp [faultSess]

@[simp] theorem pullHook_anchor (n : Nat) (fp : Bytes) (k : Nat) (s : State) : (pullHook n fp k s).anchor = s.anchor := by
  simp only [pullHook]
  split
  · rfl
  · split
    · rfl
    · split
      · split
        · next h => simp [cacheRoom_anchor h]
        · rfl
      · rfl

@[simp] theorem resolveRec_anchor (x : Sess) (b : Batch) (i : Nat) (p : Batch × State) :
    (resolveRec x b i p).2.anchor = p.2.anchor := by
  simp only [resolveRec]
  (repeat' split) <;> simp

@[simp] theorem resolveOffer_anchor (x : Sess) (b : Batch) (s : State) : (resolveOffer x b s).2.anchor = s.anchor := by
  unfold resolveOffer
  refine (foldl_keeps (fun p : Batch × State => p.2.anchor) _ (fun p i => resolveRec_anchor x b i p) _ _).trans ?_
  exact forEach_anchor (fun i t => by (repeat' split) <;> simp) _ _

@[simp] theorem commitOne_anchor (n : Nat) (s : State) : (commitOne n s).anchor = s.anchor := by
  unfold commitOne; (repeat' split) <;> simp

@[simp] theorem commitBatches_anchor (n : Nat) (s : State) : (commitBatches n s).anchor = s.anchor := by simp [commitBatches]
@[simp] theorem commitAll_anchor (s : State) : (commitAll s).anchor = s.anchor := by simp [commitAll]

@[simp] theorem offerEffect_anchor (h : ReplHdr) (first next : Nat) (chunks : List ChunkRec) (blocks : List BlockRec) (x : Sess)
    (s : State) :
    (offerEffect h first next chunks blocks x s).anchor = s.anchor := by simp [offerEffect]

@[simp] theorem takeBale_anchor (x : Sess) (no : Nat) (b : Batch) (it : BaleItem) (s : State) :
    (takeBale x no b it s).anchor = s.anchor := by simp [takeBale]

@[simp] theorem baleArrives_anchor (n no : Nat) (it : BaleItem) (s : State) : (baleArrives n no it s).anchor = s.anchor := by
  unfold baleArrives; split <;> simp

@[simp] theorem balesEffect_anchor (h : ReplHdr) (items : List BaleItem) (x : Sess) (s : State) :
    (balesEffect h items x s).anchor = s.anchor := by simp [balesEffect]

@[simp] theorem takeReplica_anchor (x : Sess) (h : ReplHdr) (label : Bytes) (seconds : Nat) (s : State) :
    (takeReplica x h label seconds s).anchor = s.anchor := by simp [takeReplica]

@[simp] theorem answerEnd_anchor (x : Sess) (seq : Nat) (s : State) : (answerEnd x seq s).anchor = s.anchor := by simp [answerEnd]

@[simp] theorem endEffect_anchor (h : ReplHdr) (label : Bytes) (seconds : Nat) (x : Sess) (s : State) :
    (endEffect h label seconds x s).anchor = s.anchor := by
  unfold endEffect; split <;> simp

@[simp] theorem needEffect.resendBales_anchor (no : Nat) (bits : List Nat) (x : Sess) (q : RcQp) (s : State) :
    (needEffect.resendBales no bits x q s).anchor = s.anchor := by
  unfold needEffect.resendBales; split <;> simp

@[simp] theorem commitEffect_anchor (h : ReplHdr) (x : Sess) (s : State) : (commitEffect h x s).anchor = s.anchor := by
  unfold commitEffect; split <;> simp

@[simp] theorem endAckEffect_anchor (h : ReplHdr) (x : Sess) (s : State) : (endAckEffect h x s).anchor = s.anchor :=
  by simp [endAckEffect]

@[simp] theorem resumeEffect_anchor (h : ReplHdr) (x : Sess) (s : State) : (resumeEffect h x s).anchor = s.anchor :=
  by simp [resumeEffect]

@[simp] theorem resumeAtEffect_anchor (batch lba : Nat) (x : Sess) (s : State) :
    (resumeAtEffect batch lba x s).anchor = s.anchor := by simp [resumeAtEffect]

@[simp] theorem replRefuseEffect_anchor (h : ReplHdr) (reason : Word16) (s : State) :
    (replRefuseEffect h reason s).anchor = s.anchor := by
  unfold replRefuseEffect; (repeat' split) <;> simp

@[simp] theorem retrySess_anchor (k : Word64) (s : State) : (retrySess k s).anchor = s.anchor := by
  unfold retrySess; split <;> simp

@[simp] theorem needEffect_anchor (h : ReplHdr) (bits : List Nat) (x : Sess) (s : State) :
    (needEffect h bits x s).anchor = s.anchor := by
  unfold needEffect
  dsimp only
  split
  · rfl
  · split <;> simp

@[simp] theorem readFailed_anchor (id : Nat) (failed : Option Nat) (before s : State) :
    (readFailed id failed before s).anchor = s.anchor := by
  unfold readFailed
  (repeat' split) <;> simp

/-! ### Machine/Peer.lean -/

@[simp] theorem toPeerTagged_anchor (type : Nat) (args : List Nat) (data : Bytes) (s : State) :
    (toPeerTagged type args data s).anchor = s.anchor := by simp [toPeerTagged]

@[simp] theorem countStale_anchor (s : State) : (countStale s).anchor = s.anchor := by simp [countStale]

@[simp] theorem peerRow_anchor (h : PeerHdr) (f : State → State) (s : State) (hf : ∀ t, (f t).anchor = t.anchor) :
    (peerRow h f s).anchor = s.anchor := by
  unfold peerRow; (repeat' split) <;> simp_all

@[simp] theorem taggedRow_anchor (type : Nat) (h : PeerHdr) (f : State → State) (s : State) (hf : ∀ t, (f t).anchor = t.anchor) :
    (taggedRow type h f s).anchor = s.anchor := by
  unfold taggedRow; (repeat' split) <;> simp_all

@[simp] theorem laneLossEffect_anchor (n : Nat) (s : State) : (laneLossEffect n s).anchor = s.anchor := by simp [laneLossEffect]

@[simp] theorem replayTimeoutEffect_anchor (s : State) : (replayTimeoutEffect s).anchor = s.anchor :=
  by simp [replayTimeoutEffect]

@[simp] theorem adoptSettle_anchor (e : Settle) (s : State) : (adoptSettle e s).anchor = s.anchor := by simp [adoptSettle]
@[simp] theorem adoptLog_anchor (s : State) : (adoptLog s).anchor = s.anchor := by simp [adoptLog]
@[simp] theorem endPeerRelays_anchor (s : State) : (endPeerRelays s).anchor = s.anchor := by simp [endPeerRelays]
@[simp] theorem signalPorts_anchor (s : State) : (signalPorts s).anchor = s.anchor := by simp [signalPorts]
@[simp] theorem adoptJobs_anchor (s : State) : (adoptJobs s).anchor = s.anchor := by simp [adoptJobs]
@[simp] theorem becomeSole_anchor (cause : Nat) (s : State) : (becomeSole cause s).anchor = s.anchor := by simp [becomeSole]
@[simp] theorem takeoverClaims_anchor (s : State) : (takeoverClaims s).anchor = s.anchor := by simp [takeoverClaims]
@[simp] theorem loadHead_anchor (h : Bool) (s : State) : (loadHead h s).anchor = s.anchor := by simp [loadHead]
@[simp] theorem loadLost_anchor (s : State) : (loadLost s).anchor = s.anchor := by simp [loadLost]
@[simp] theorem enterSole_anchor (cause : Nat) (s : State) : (enterSole cause s).anchor = s.anchor := by simp [enterSole]

@[simp] theorem declareLoss_anchor (cause : Nat) (s : State) : (declareLoss cause s).anchor = s.anchor := by
  unfold declareLoss; (repeat' split) <;> simp

@[simp] theorem stepDown_anchor (cause : Nat) (s : State) : (stepDown cause s).anchor = s.anchor := by simp [stepDown]

@[simp] theorem activationDone_anchor (s : State) : (activationDone s).anchor = s.anchor := by
  unfold activationDone
  split
  · exact emit_anchor _ _
  · rfl

@[simp] theorem sendHandover_anchor (s : State) : (sendHandover s).anchor = s.anchor := by simp [sendHandover]
@[simp] theorem swapStep_anchor (s : State) : (swapStep s).anchor = s.anchor := by simp [swapStep]

@[simp] theorem handbackStep_anchor (s : State) : (handbackStep s).anchor = s.anchor := by
  unfold handbackStep; (repeat' split) <;> simp

@[simp] theorem beatTimerEffect_anchor (s : State) : (beatTimerEffect s).anchor = s.anchor := by simp [beatTimerEffect]
@[simp] theorem peerSeen_anchor (s : State) : (peerSeen s).anchor = s.anchor := by simp [peerSeen]

@[simp] theorem beatEffect_anchor (role : Role) (service : Service) (fw : Word32) (occ secs : Nat) (s : State) :
    (beatEffect role service fw occ secs s).anchor = s.anchor := by simp [beatEffect]

@[simp] theorem heartbeatLossEffect_anchor (s : State) : (heartbeatLossEffect s).anchor = s.anchor :=
  by simp [heartbeatLossEffect]

@[simp] theorem confirmEffect_anchor (a : Option Bool) (s : State) : (confirmEffect a s).anchor = s.anchor :=
  by simp [confirmEffect]

@[simp] theorem splitYieldEffect_anchor (s : State) : (splitYieldEffect s).anchor = s.anchor := by simp [splitYieldEffect]
@[simp] theorem splitLossEffect_anchor (s : State) : (splitLossEffect s).anchor = s.anchor := by simp [splitLossEffect]

@[simp] theorem aliveFallEffect_anchor (lowNs : Nat) (s : State) : (aliveFallEffect lowNs s).anchor = s.anchor :=
  by simp [aliveFallEffect]

@[simp] theorem startRole_anchor (r : Role) (e : Word16) (s : State) : (startRole r e s).anchor = s.anchor := by
  unfold startRole; split <;> simp

@[simp] theorem sendHello_anchor (s : State) : (sendHello s).anchor = s.anchor := by simp [sendHello]
@[simp] theorem askReturn_anchor (s : State) : (askReturn s).anchor = s.anchor := by simp [askReturn]
@[simp] theorem chooseRole_anchor (e : Word16) (s : State) : (chooseRole e s).anchor = s.anchor := by simp [chooseRole]
@[simp] theorem exchangeSize_anchor (n : Nat) (s : State) : (exchangeSize n s).anchor = s.anchor := by simp [exchangeSize]

@[simp] theorem helloEffect_anchor (h : PeerHdr) (serial : Word64) (head : Bool) (fw : Word32) (size : Nat) (keyId : Word64)
    (role : Role) (s : State) :
    (helloEffect h serial head fw size keyId role s).anchor = s.anchor := by simp [helloEffect]

@[simp] theorem helloTimeoutEffect_anchor (present lost sole : Bool) (s : State) :
    (helloTimeoutEffect present lost sole s).anchor = s.anchor := by simp [helloTimeoutEffect]

@[simp] theorem mirrorEffect_anchor (n lba : Nat) (g : Word16) (tenant : Nat) (tag : Option Word64) (block nblk : Nat)
    (data : Bytes) (s : State) :
    (mirrorEffect n lba g tenant tag block nblk data s).anchor = s.anchor := by simp [mirrorEffect]

@[simp] theorem mirrorAckEffect_anchor (n lba : Nat) (g : Word16) (s : State) :
    (mirrorAckEffect n lba g s).anchor = s.anchor := by
  simp only [mirrorAckEffect]; split <;> simp

@[simp] theorem releaseEffect_anchor (n lba : Nat) (g : Word16) (s : State) : (releaseEffect n lba g s).anchor = s.anchor :=
  by simp [releaseEffect]

@[simp] theorem settleEffect_anchor (t : Nat) (g : Word64) (n : Nat) (o : Fin 5) (k : Nat) (s : State) :
    (settleEffect t g n o k s).anchor = s.anchor := by simp [settleEffect]

@[simp] theorem relayedSnap_anchor (w : Waiter) (s : State) : (relayedSnap w s).anchor = s.anchor := by simp [relayedSnap]

@[simp] theorem relayedHere_anchor (c : HostCmd) (tenant : Option Nat) (s : State) : (relayedHere c tenant s).anchor = s.anchor :=
  by simp [relayedHere]

@[simp] theorem relayResult_anchor (c : HostCmd) (status : Word16) (count result : Nat) (data : Bytes) (s : State) :
    (relayResult c status count result data s).anchor = s.anchor := by
  unfold relayResult; split <;> simp

@[simp] theorem granuleEffect_anchor (n die block page gran count : Nat) (s : State) :
    (granuleEffect n die block page gran count s).anchor = s.anchor := by simp [granuleEffect]

@[simp] theorem refEffect_anchor (no : Nat) (d : Int) (s : State) : (refEffect no d s).anchor = s.anchor := by simp [refEffect]

@[simp] theorem jobcopyEffect_anchor (c : JobCkpt) (ack : Bool) (s : State) : (jobcopyEffect c ack s).anchor = s.anchor :=
  by simp [jobcopyEffect]

@[simp] theorem syncedSlot_anchor (n : Nat) (k : Slot) (s : State) : (syncedSlot n k s).anchor = s.anchor := by simp [syncedSlot]

@[simp] theorem syncEffect_anchor (i : SyncItem) (s : State) : (syncEffect i s).anchor = s.anchor := by
  unfold syncEffect; (repeat' split) <;> simp

@[simp] theorem pairFaultEffect_anchor (pair : Nat) (s : State) : (pairFaultEffect pair s).anchor = s.anchor :=
  by simp [pairFaultEffect]

@[simp] theorem allowClaims_anchor (s : State) : (allowClaims s).anchor = s.anchor := by simp [allowClaims]
@[simp] theorem syncAll_anchor (s : State) : (syncAll s).anchor = s.anchor := by simp [syncAll]
@[simp] theorem grantReturn_anchor (s : State) : (grantReturn s).anchor = s.anchor := by simp [grantReturn]

@[simp] theorem returnReqEffect_anchor (fw : Word32) (s : State) : (returnReqEffect fw s).anchor = s.anchor :=
  by simp [returnReqEffect]

@[simp] theorem returnTimerEffect_anchor (s : State) : (returnTimerEffect s).anchor = s.anchor := by simp [returnTimerEffect]
@[simp] theorem returnGrantEffect_anchor (s : State) : (returnGrantEffect s).anchor = s.anchor := by simp [returnGrantEffect]

@[simp] theorem moduleReleaseEffect_anchor (n : Nat) (s : State) : (moduleReleaseEffect n s).anchor = s.anchor :=
  by simp [moduleReleaseEffect]

@[simp] theorem handbackDoneEffect_anchor (s : State) : (handbackDoneEffect s).anchor = s.anchor := by simp [handbackDoneEffect]

@[simp] theorem modPair_anchor (n : Nat) (f : CtrlPair → CtrlPair) (s : State) : (modPair n f s).anchor = s.anchor :=
  by simp [modPair]

@[simp] theorem handOver_anchor (s : State) : (handOver s).anchor = s.anchor := by simp [handOver]
@[simp] theorem pairHeld_anchor (n : Nat) (s : State) : (pairHeld n s).anchor = s.anchor := by simp [pairHeld]
@[simp] theorem pairOneBack_anchor (s : State) : (pairOneBack s).anchor = s.anchor := by simp [pairOneBack]
@[simp] theorem restartEffect_anchor (n : Nat) (s : State) : (restartEffect n s).anchor = s.anchor := by simp [restartEffect]

@[simp] theorem wdogWriteEffect_anchor (v : Word32) (s : State) : (wdogWriteEffect v s).anchor = s.anchor :=
  by simp [wdogWriteEffect]

@[simp] theorem beginSwap_anchor (reset : Bool) (s : State) : (beginSwap reset s).anchor = s.anchor := by simp [beginSwap]
@[simp] theorem roleSwapEffect_anchor (s : State) : (roleSwapEffect s).anchor = s.anchor := by simp [roleSwapEffect]

/-! ### Machine/Chain.lean -/

@[simp] theorem modChain_anchor (p : Fin 2) (f : ChainPort → ChainPort) (s : State) : (modChain p f s).anchor = s.anchor :=
  by simp [modChain]

@[simp] theorem forward_anchor (h : ChainHdr) (type : Nat) (args : List Nat) (s : State) :
    (forward h type args s).anchor = s.anchor := by simp [forward]

@[simp] theorem pairFrame_anchor (h : ChainHdr) (type : Nat) (args : List Nat) (f : State → State) (s : State) (hf : ∀ t,
    (f t).anchor = t.anchor) :
    (pairFrame h type args f s).anchor = s.anchor := by
  unfold pairFrame; (repeat' split) <;> simp_all

@[simp] theorem breakPort_anchor (p : Fin 2) (s : State) : (breakPort p s).anchor = s.anchor := by simp [breakPort]
@[simp] theorem silentEffect_anchor (p : Fin 2) (s : State) : (silentEffect p s).anchor = s.anchor := by simp [silentEffect]
@[simp] theorem breakEffect_anchor (p : Fin 2) (s : State) : (breakEffect p s).anchor = s.anchor := by simp [breakEffect]
@[simp] theorem unwrapCheck_anchor (p : Fin 2) (s : State) : (unwrapCheck p s).anchor = s.anchor := by simp [unwrapCheck]

@[simp] theorem breakTimerEffect_anchor (p : Fin 2) (s : State) : (breakTimerEffect p s).anchor = s.anchor :=
  by simp [breakTimerEffect]

@[simp] theorem qualifyEffect_anchor (p : Fin 2) (s : State) : (qualifyEffect p s).anchor = s.anchor := by simp [qualifyEffect]
@[simp] theorem linkOkEffect_anchor (p : Fin 2) (s : State) : (linkOkEffect p s).anchor = s.anchor := by simp [linkOkEffect]

@[simp] theorem badFrameEffect_anchor (p : Fin 2) (nowUs : Nat) (s : State) : (badFrameEffect p nowUs s).anchor = s.anchor :=
  by simp [badFrameEffect]

@[simp] theorem takeAddress_anchor (a : Byte) (s : State) : (takeAddress a s).anchor = s.anchor := by simp [takeAddress]
@[simp] theorem sendTable_anchor (s : State) : (sendTable s).anchor = s.anchor := by simp [sendTable]
@[simp] theorem enumComplete_anchor (s : State) : (enumComplete s).anchor = s.anchor := by simp [enumComplete]
@[simp] theorem sendEnum_anchor (s : State) : (sendEnum s).anchor = s.anchor := by simp [sendEnum]
@[simp] theorem startEnum_anchor (s : State) : (startEnum s).anchor = s.anchor := by simp [startEnum]

@[simp] theorem fillTable_anchor (n a : Nat) (s : State) : (fillTable n a s).anchor = s.anchor := by
  induction n generalizing a s with
  | zero => rfl
  | succ n ih =>
    unfold fillTable
    split <;> simp [ih]

@[simp] theorem enumBack_anchor (next : Byte) (s : State) : (enumBack next s).anchor = s.anchor := by simp [enumBack]

@[simp] theorem enumPass_anchor (h : ChainHdr) (next : Byte) (lastHead : Bool) (gen : Word16) (fedId : Bytes)
    (lastSerial : Word64) (s : State) :
    (enumPass h next lastHead gen fedId lastSerial s).anchor = s.anchor := by simp [enumPass]

@[simp] theorem enumEffect_anchor (h : ChainHdr) (next : Byte) (lastHead : Bool) (gen : Word16) (fedId : Bytes)
    (lastSerial : Word64) (s : State) :
    (enumEffect h next lastHead gen fedId lastSerial s).anchor = s.anchor := by simp [enumEffect]

@[simp] theorem enumTimeoutEffect_anchor (s : State) : (enumTimeoutEffect s).anchor = s.anchor := by simp [enumTimeoutEffect]

@[simp] theorem takeGroup_anchor (gen : Word16) (g : Fin 8) (fedId : Bytes) (serials : List Word64) (s : State) :
    (takeGroup gen g fedId serials s).anchor = s.anchor := by simp [takeGroup]

@[simp] theorem rebroadcastEffect_anchor (s : State) : (rebroadcastEffect s).anchor = s.anchor := by simp [rebroadcastEffect]

@[simp] theorem joinEffect_anchor (serial : Word64) (head : Bool) (peerSerial : Word64) (s : State) :
    (joinEffect serial head peerSerial s).anchor = s.anchor := by
  unfold joinEffect; (repeat' split) <;> simp

@[simp] theorem sendJoin_anchor (s : State) : (sendJoin s).anchor = s.anchor := by simp [sendJoin]
@[simp] theorem beginJoin_anchor (s : State) : (beginJoin s).anchor = s.anchor := by simp [beginJoin]
@[simp] theorem joinAckEffect_anchor (a : Byte) (s : State) : (joinAckEffect a s).anchor = s.anchor := by simp [joinAckEffect]

@[simp] theorem duplicateEffect_anchor (a : Nat) (x y : Word64) (s : State) : (duplicateEffect a x y s).anchor = s.anchor :=
  by simp [duplicateEffect]

@[simp] theorem reenumEffect_anchor (s : State) : (reenumEffect s).anchor = s.anchor := by simp [reenumEffect]
@[simp] theorem becomeMaster_anchor (s : State) : (becomeMaster s).anchor = s.anchor := by simp [becomeMaster]

@[simp] theorem electEffect_anchor (h : ChainHdr) (gen : Word16) (headId : Bool) (s : State) :
    (electEffect h gen headId s).anchor = s.anchor := by simp [electEffect]

@[simp] theorem masterTimeoutEffect_anchor (s : State) : (masterTimeoutEffect s).anchor = s.anchor :=
  by simp [masterTimeoutEffect]

@[simp] theorem queryEffect_anchor (h : ChainHdr) (reply : Bytes) (target : Word64) (s : State) :
    (queryEffect h reply target s).anchor = s.anchor := by simp [queryEffect]

@[simp] theorem timeEffect_anchor (h : ChainHdr) (fedTime : Word64) (gen : Word16) (masterHead sameTable : Bool) (s : State) :
    (timeEffect h fedTime gen masterHead sameTable s).anchor = s.anchor := by simp [timeEffect]

@[simp] theorem timeTimerEffect_anchor (x : Word64) (s : State) : (timeTimerEffect x s).anchor = s.anchor :=
  by simp [timeTimerEffect]

@[simp] theorem heardRole_anchor (a : Nat) (r : Role) (e : Word16) (s : State) : (heardRole a r e s).anchor = s.anchor :=
  by simp [heardRole]

/-! ### Machine/Vault.lean -/

@[simp] theorem modVault_anchor (f : Vault → Vault) (s : State) : (modVault f s).anchor = s.anchor := by simp [modVault]

@[simp] theorem vaultSuspend_anchor (s : State) : (vaultSuspend s).anchor = s.anchor := by
  unfold vaultSuspend; split <;> simp

@[simp] theorem vaultRequestEffect_anchor (r : VaultReq) (s : State) : (vaultRequestEffect r s).anchor = s.anchor :=
  by simp [vaultRequestEffect]

@[simp] theorem keyServed_anchor (c : HostCmd) (s : State) : (keyServed c s).2.2.anchor = s.anchor := by
  unfold keyServed; split_ifs <;> simp

@[simp] theorem keyRow_anchor (f : HostCmd → State → AdminDone) (c : HostCmd) (s : State) (hf : ∀ y1 t,
    (f y1 t).2.2.anchor = t.anchor) :
    (keyRow f c s).anchor = s.anchor := by
  unfold keyRow; (repeat' split) <;> simp_all

@[simp] theorem keyDone_anchor (k : QKey × Word16) (s : State) : (keyDone k s).anchor = s.anchor := by
  unfold keyDone; split <;> simp

@[simp] theorem vaultDoneEffect_anchor (s : State) : (vaultDoneEffect s).anchor = s.anchor := by
  unfold vaultDoneEffect; (repeat' split) <;> simp

@[simp] theorem vaultOut_anchor (n : Nat) (s : State) : (vaultOut n s).anchor = s.anchor := by simp [vaultOut]

@[simp] theorem vaultTestDone_anchor (pass : Bool) (s : State) : (vaultTestDone pass s).anchor = s.anchor :=
  by simp [vaultTestDone]

/-! ### Machine/Rng.lean -/

@[simp] theorem modRng_anchor (f : Rng → Rng) (s : State) : (modRng f s).anchor = s.anchor := by simp [modRng]
@[simp] theorem eraseKeys_anchor (s : State) : (eraseKeys s).anchor = s.anchor := by simp [eraseKeys]
@[simp] theorem latchAlarm_anchor (a : Alarm) (s : State) : (latchAlarm a s).anchor = s.anchor := by simp [latchAlarm]
@[simp] theorem alarm_anchor (a : Alarm) (s : State) : (alarm a s).anchor = s.anchor := by simp [alarm]
@[simp] theorem vwatchLostEffect_anchor (s : State) : (vwatchLostEffect s).anchor = s.anchor := by simp [vwatchLostEffect]
@[simp] theorem healthFail_anchor (s : State) : (healthFail s).anchor = s.anchor := by simp [healthFail]
@[simp] theorem trngTests_anchor (pass : Bool) (s : State) : (trngTests pass s).anchor = s.anchor := by simp [trngTests]
@[simp] theorem generate_anchor (n : Nat) (s : State) : (generate n s).anchor = s.anchor := by simp [generate]

@[simp] theorem request_anchor (n : Nat) (s : State) : (request n s).anchor = s.anchor := by
  unfold request; split <;> simp

@[simp] theorem serveWaiting_anchor (s : State) : (serveWaiting s).anchor = s.anchor := by simp [serveWaiting]
@[simp] theorem drbgUp_anchor (s : State) : (drbgUp s).anchor = s.anchor := by simp [drbgUp]

@[simp] theorem healthTestFailEffect_anchor (s : State) : (healthTestFailEffect s).anchor = s.anchor :=
  by simp [healthTestFailEffect]

@[simp] theorem reseedDone_anchor (s : State) : (reseedDone s).anchor = s.anchor := by simp [reseedDone]

@[simp] theorem rowhammerReseedEffect_anchor (s : State) : (rowhammerReseedEffect s).anchor = s.anchor :=
  by simp [rowhammerReseedEffect]

/-! ### Machine/Images.lean -/

@[simp] theorem writeHeader_anchor (second : Bool) (h : BootHeader) (s : State) : (writeHeader second h s).anchor = s.anchor :=
  by simp [writeHeader]

@[simp] theorem setUnfinished_anchor (b v : Bool) (s : State) : (setUnfinished b v s).anchor = s.anchor := by
  cases b <;> rfl

@[simp] theorem measExtend_anchor (n : Nat) (data : Bytes) (s : State) : (measExtend n data s).anchor = s.anchor :=
  by simp [measExtend]

/-! ### Machine/Settings.lean -/

@[simp] theorem noteIgnored_anchor (tag : Nat) (s : State) : (noteIgnored tag s).anchor = s.anchor := raise_anchor ..
@[simp] theorem noteDefaulted_anchor (tag : Nat) (s : State) : (noteDefaulted tag s).anchor = s.anchor := raise_anchor ..

@[simp] theorem judgeTag_anchor (l : List ProfRec) (tag : Nat) (s : State) : (judgeTag l tag s).anchor = s.anchor := by
  unfold judgeTag; split <;> simp

@[simp] theorem judgeUsed_anchor (tag : Nat) (s : State) : (judgeUsed tag s).anchor = s.anchor := by simp [judgeUsed]
@[simp] theorem judgeUnknown_anchor (s : State) : (judgeUnknown s).anchor = s.anchor := by simp [judgeUnknown]

@[simp] theorem earlySettings_anchor (l : List ProfRec) (s : State) : (earlySettings l s).anchor = s.anchor :=
  by simp [earlySettings]

@[simp] theorem applyFirst_anchor (l : List ProfRec) (s : State) : (applyFirst l s).anchor = s.anchor := by
  unfold applyFirst; (repeat' split) <;> simp

@[simp] theorem applySecond_anchor (l : List ProfRec) (s : State) : (applySecond l s).anchor = s.anchor := by
  unfold applySecond
  extract_lets _ a _ b _ c _ d _ e _ f
  have ha : a.anchor = s.anchor := by unfold a; split <;> simp
  have hb : b.anchor = a.anchor := by unfold b; split <;> simp
  have hc : c.anchor = b.anchor := by unfold c; split <;> simp
  have hd : d.anchor = c.anchor := by unfold d; split <;> simp
  have he : e.anchor = d.anchor := by unfold e; split <;> simp
  have hf : f.anchor = e.anchor := by unfold f; split <;> simp
  split
  · exact (anchor_update f ..).trans (by rw [hf, he, hd, hc, hb, ha])
  · rw [hf, he, hd, hc, hb, ha]

@[simp] theorem applySettings_anchor (s : State) : (applySettings s).anchor = s.anchor := by simp [applySettings]

@[simp] theorem applyDelays_anchor (l : List ProfRec) (s : State) : (applyDelays l s).anchor = s.anchor := by
  unfold applyDelays; split <;> simp

@[simp] theorem applyDramSettings_anchor (s : State) : (applyDramSettings s).anchor = s.anchor := by simp [applyDramSettings]

/-! ### Machine/Watch.lean -/

@[simp] theorem wchCross_anchor (p : WchPending) (s : State) : (wchCross p s).anchor = s.anchor := by simp [wchCross]

@[simp] theorem wchRegisterWriteEffect_anchor (w : WchWrite) (s : State) : (wchRegisterWriteEffect w s).anchor = s.anchor := by
  unfold wchRegisterWriteEffect; split <;> simp

@[simp] theorem wchRestoreWriteEffect_anchor (upper : Word32) (s : State) : (wchRestoreWriteEffect upper s).anchor = s.anchor :=
  by simp [wchRestoreWriteEffect]

@[simp] theorem wchWriteTakenEffect_anchor (s : State) : (wchWriteTakenEffect s).anchor = s.anchor := by
  unfold wchWriteTakenEffect; split <;> simp

@[simp] theorem opSecondsTickEffect_anchor (s : State) : (opSecondsTickEffect s).anchor = s.anchor :=
  by simp [opSecondsTickEffect]

/-! ### Machine/Boot.lean -/

@[simp] theorem sysResetEffect.lowPin_anchor (t : State) : (sysResetEffect.lowPin t).anchor = t.anchor :=
  by simp [sysResetEffect.lowPin]

@[simp] theorem releaseReset_anchor (head : Bool) (sel : BitVec 2) (s : State) : (releaseReset head sel s).anchor = s.anchor := by
  unfold releaseReset
  split <;> simp

@[simp] theorem reach_anchor (n : Nat) (s : State) : (reach n s).anchor = s.anchor := (rfl)
@[simp] theorem enterHeld_anchor (s : State) : (enterHeld s).anchor = s.anchor := by simp [enterHeld]

@[simp] theorem octalEffect_anchor (s : State) : (octalEffect s).anchor = s.anchor := by
  unfold octalEffect; split <;> simp

@[simp] theorem useProfile_anchor (sel : BitVec 2) (len : Nat) (l : List ProfRec) (s : State) :
    (useProfile sel len l s).anchor = s.anchor := by simp [useProfile]

@[simp] theorem firstBands_anchor (temps : List Int) (s : State) : (firstBands temps s).anchor = s.anchor := by simp [firstBands]

@[simp] theorem firmwareReadEffect_anchor (s : State) : (firmwareReadEffect s).anchor = s.anchor := by
  simp only [firmwareReadEffect]
  (repeat' split) <;> simp

@[simp] theorem sizeAreas_anchor (s : State) : (sizeAreas s).anchor = s.anchor := by
  simp only [sizeAreas, anchor_update]

@[simp] theorem startLanes_anchor (s : State) : (startLanes s).anchor = s.anchor := by simp [startLanes]
@[simp] theorem measureOther_anchor (s : State) : (measureOther s).anchor = s.anchor := by simp [measureOther]
@[simp] theorem coreReleaseEffect_anchor (s : State) : (coreReleaseEffect s).anchor = s.anchor := by simp [coreReleaseEffect]

@[simp] theorem restoreSlot_anchor (swk : Bytes) (p : Nat × Bytes) (s : State) : (restoreSlot swk p s).anchor = s.anchor := by
  simp only [restoreSlot]; split <;> simp

@[simp] theorem swkCopied_anchor (s : State) : (swkCopied s).anchor = s.anchor := by
  unfold swkCopied; split <;> simp

@[simp] theorem restoreKeys_anchor (s : State) : (restoreKeys s).anchor = s.anchor := by
  unfold restoreKeys; split <;> simp

@[simp] theorem rollback_anchor (s : State) : (rollback s).anchor = s.anchor := by
  unfold rollback; split <;> simp

@[simp] theorem throttleEffect_anchor (t : Int) (s : State) : (throttleEffect t s).anchor = s.anchor := by
  simp only [throttleEffect]
  split <;> simp

@[simp] theorem thermalShutdown_anchor (t : Int) (s : State) : (thermalShutdown t s).anchor = s.anchor :=
  by simp [thermalShutdown]

@[simp] theorem junctionEffect_anchor (temps : List Int) (s : State) : (junctionEffect temps s).anchor = s.anchor := by
  unfold junctionEffect; split <;> simp

/-! ### Machine/Cache.lean -/

@[simp] theorem modSlice_anchor (n : Nat) (f : Slice → Slice) (s : State) : (modSlice n f s).anchor = s.anchor :=
  by simp [modSlice]

@[simp] theorem drainLine_anchor (n line : Nat) (s : State) : (drainLine n line s).anchor = s.anchor := by simp [drainLine]

@[simp] theorem writeEffect_anchor (n line off : Nat) (data : Bytes) (s : State) :
    (writeEffect n line off data s).anchor = s.anchor := by simp [writeEffect]

@[simp] theorem missEffect_anchor (n stream line : Nat) (s : State) : (missEffect n stream line s).anchor = s.anchor :=
  by simp [missEffect]

@[simp] theorem countRefetch_anchor (s : State) : (countRefetch s).anchor = s.anchor := by simp [countRefetch]

@[simp] theorem readLine_anchor (n stream line : Nat) (parityError : Bool) (s : State) :
    (readLine n stream line parityError s).anchor = s.anchor := by simp [readLine]

@[simp] theorem keepWord_anchor (addr : Nat) (s : State) : (keepWord addr s).anchor = s.anchor := by simp [keepWord]

@[simp] theorem readScratch_anchor (stream addr : Nat) (bits : Fin 3) (cmd : Option Nat) (s : State) :
    (readScratch stream addr bits cmd s).anchor = s.anchor := by simp [readScratch]

@[simp] theorem releaseLine_anchor (n line : Nat) (s : State) : (releaseLine n line s).anchor = s.anchor := by simp [releaseLine]

@[simp] theorem serveQueued_anchor (n : Nat) (s : State) : (serveQueued n s).anchor = s.anchor := by
  unfold serveQueued; split <;> simp

@[simp] theorem nextQueued_anchor (n : Nat) (s : State) : (nextQueued n s).anchor = s.anchor := by simp [nextQueued]
@[simp] theorem retireLine_anchor (n line : Nat) (s : State) : (retireLine n line s).anchor = s.anchor := by simp [retireLine]

@[simp] theorem fillEffect_anchor (n line : Nat) (parityError : Bool) (displaced : List Nat) (s : State) :
    (fillEffect n line parityError displaced s).anchor = s.anchor := by simp [fillEffect]

/-! ### Machine/Digest.lean -/

@[simp] theorem modDg_anchor (f : Dg → Dg) (s : State) : (modDg f s).anchor = s.anchor := by simp [modDg]
@[simp] theorem dgCtl_anchor (ctl : Word32) (s : State) : (dgCtl ctl s).anchor = s.anchor := by simp [dgCtl]
@[simp] theorem digestDoneEffect_anchor (s : State) : (digestDoneEffect s).anchor = s.anchor := by simp [digestDoneEffect]

/-! ### Machine/Hep.lean -/

@[simp] theorem receiverDetect_anchor (p : Fin 2) (partner : Fin 4) (width : Fin 6) (flit : Bool) (s : State) :
    (receiverDetect p partner width flit s).anchor = s.anchor := by simp [receiverDetect]

@[simp] theorem cfgRequest_anchor (f : FnId) (act : State → State) (s : State) (hact : ∀ t, (act t).anchor = t.anchor) :
    (cfgRequest f act s).anchor = s.anchor := by
  unfold cfgRequest; (repeat' split) <;> simp_all

@[simp] theorem clearFunctions_anchor (p : FnId → Bool) (s : State) : (clearFunctions p s).anchor = s.anchor :=
  by simp [clearFunctions]

@[simp] theorem portReset_anchor (p : Fin 2) (s : State) : (portReset p s).anchor = s.anchor := by simp [portReset]

@[simp] theorem perstAssertEffect_anchor (p : Fin 2) (lowNs : Nat) (s : State) :
    (perstAssertEffect p lowNs s).anchor = s.anchor := by simp [perstAssertEffect]

@[simp] theorem linkReset_anchor (p : Fin 2) (s : State) : (linkReset p s).anchor = s.anchor := by simp [linkReset]
@[simp] theorem pf0FlrEffect_anchor (p : Fin 2) (s : State) : (pf0FlrEffect p s).anchor = s.anchor := by simp [pf0FlrEffect]
@[simp] theorem vfFlrEffect_anchor (f : FnId) (s : State) : (vfFlrEffect f s).anchor = s.anchor := by simp [vfFlrEffect]
@[simp] theorem logHeader_anchor (p : Fin 2) (s : State) : (logHeader p s).anchor = s.anchor := by simp [logHeader]

@[simp] theorem reportAer_anchor (p : Fin 2) (bit : Nat) (s : State) : (reportAer p bit s).anchor = s.anchor :=
  by simp [reportAer]

@[simp] theorem reportPoison_anchor (p : Fin 2) (s : State) : (reportPoison p s).anchor = s.anchor := by simp [reportPoison]

@[simp] theorem freezePort_anchor (p : Fin 2) (c : Fin 6) (s : State) : (freezePort p c s).anchor = s.anchor :=
  by simp [freezePort]

@[simp] theorem tlpErrorEffect_anchor (p : Fin 2) (c : Fin 6) (s : State) : (tlpErrorEffect p c s).anchor = s.anchor :=
  by simp [tlpErrorEffect]

@[simp] theorem portReleaseEffect_anchor (p : Fin 2) (s : State) : (portReleaseEffect p s).anchor = s.anchor :=
  by simp [portReleaseEffect]

@[simp] theorem poisonData_anchor (p : Fin 2) (id : Nat) (s : State) : (poisonData p id s).anchor = s.anchor := by
  unfold poisonData; (repeat' split) <;> simp

@[simp] theorem poisonedEffect_anchor (p : Fin 2) (k : PoisonKind) (s : State) : (poisonedEffect p k s).anchor = s.anchor := by
  unfold poisonedEffect; split <;> simp

@[simp] theorem sendPending_anchor (f : FnId) (v : Nat) (s : State) : (sendPending f v s).anchor = s.anchor :=
  by simp [sendPending]

@[simp] theorem msixUnmaskEffect_anchor (f : FnId) (v : Nat) (s : State) : (msixUnmaskEffect f v s).anchor = s.anchor :=
  by simp [msixUnmaskEffect]

@[simp] theorem setD3_anchor (f : FnId) (s : State) : (setD3 f s).anchor = s.anchor := by simp [setD3]
@[simp] theorem clearD3_anchor (f : FnId) (s : State) : (clearD3 f s).anchor = s.anchor := by simp [clearD3]

/-! ### Machine/Svc.lean -/

@[simp] theorem reply_anchor (f : DwFrame) (status : Nat) (payload : Bytes) (s : State) :
    (reply f status payload s).anchor = s.anchor := by simp [reply]

@[simp] theorem replyAuth_anchor (f : DwFrame) (s : State) : (replyAuth f s).anchor = s.anchor := by simp [replyAuth]

@[simp] theorem checkKey_anchor (f : DwFrame) (required : Bool) (body : State → State) (s : State) (hbody : ∀ t,
    (body t).anchor = t.anchor) :
    (checkKey f required body s).anchor = s.anchor := by
  unfold checkKey; (repeat' split) <;> simp_all

/-- A frame's own handling has a property where the port's handling of repetitions has it. -/
theorem onceOnly_keeps {P : State → Prop} {f : DwFrame} {body : State → State} {s : State} (hs : P s)
    (hemit : ∀ t n st p, P (emit (.dweuno t n st p) s)) (hbody : P (body s)) : P (onceOnly f body s) := by
  have hfree : P (onceOnly.notBusy f body s) := by
    unfold onceOnly.notBusy
    split
    · split
      · exact hemit ..
      · exact hbody
    · exact hbody
  unfold onceOnly
  (repeat' split) <;> simp_all

@[simp] theorem onceOnly_anchor (f : DwFrame) (body : State → State) (s : State) (h : ∀ t, (body t).anchor = t.anchor) :
    (onceOnly f body s).anchor = s.anchor :=
  onceOnly_keeps (P := fun t => t.anchor = s.anchor) rfl (fun _ _ _ _ => emit_anchor _ s) (h s)

@[simp] theorem onceOnly.notBusy_anchor (f : DwFrame) (body : State → State) (s : State) (hbody : ∀ t,
    (body t).anchor = t.anchor) :
    (onceOnly.notBusy f body s).anchor = s.anchor := by
  unfold onceOnly.notBusy; (repeat' split) <;> simp_all

@[simp] theorem svcRow_anchor (f : DwFrame) (states : List Service) (required : Bool) (body : State → State) (s : State)
    (hbody : ∀ t, (body t).anchor = t.anchor) : (svcRow f states required body s).anchor = s.anchor := by
  simp_all [svcRow]

@[simp] theorem answerHello_anchor (f : DwFrame) (s : State) : (answerHello f s).anchor = s.anchor := by simp [answerHello]

@[simp] theorem dweunoHelloEffect_anchor (f : DwFrame) (s : State) : (dweunoHelloEffect f s).anchor = s.anchor :=
  by simp [dweunoHelloEffect]

@[simp] theorem profileSelectBody_anchor (f : DwFrame) (s : State) : (profileSelectBody f s).anchor = s.anchor :=
  by simp [profileSelectBody]

@[simp] theorem norRewrite_anchor (a n : Nat) (data : Bytes) (s : State) : (norRewrite a n data s).anchor = s.anchor :=
  by simp [norRewrite]

@[simp] theorem profileWriteBody_anchor (f : DwFrame) (s : State) : (profileWriteBody f s).anchor = s.anchor :=
  by simp [profileWriteBody]

@[simp] theorem stageBeginBody_anchor (f : DwFrame) (s : State) : (stageBeginBody f s).anchor = s.anchor :=
  by simp [stageBeginBody]

@[simp] theorem stageDataBody_anchor (f : DwFrame) (s : State) : (stageDataBody f s).anchor = s.anchor := by simp [stageDataBody]

@[simp] theorem badImage_anchor (f : DwFrame) (b : Bool) (detail : Nat) (s : State) : (badImage f b detail s).anchor = s.anchor :=
  by simp [badImage]

@[simp] theorem stageEndBody_anchor (f : DwFrame) (s : State) : (stageEndBody f s).anchor = s.anchor := by simp [stageEndBody]
@[simp] theorem switchOver_anchor (s : State) : (switchOver s).anchor = s.anchor := by simp [switchOver]

@[simp] theorem activateBody_anchor (f : DwFrame) (s : State) : (activateBody f s).anchor = s.anchor := by
  simp [activateBody]

@[simp] theorem eventReadBody_anchor (f : DwFrame) (media : List Bytes) (s : State) :
    (eventReadBody f media s).anchor = s.anchor := by simp [eventReadBody]

@[simp] theorem enrolKey_anchor (n method : Nat) (k : Bytes) (s : State) : (enrolKey n method k s).anchor = s.anchor :=
  by simp [enrolKey]

@[simp] theorem keysetBody_anchor (f : DwFrame) (s : State) : (keysetBody f s).anchor = s.anchor := by
  unfold keysetBody; split <;> simp

@[simp] theorem keysetEffect_anchor (f : DwFrame) (s : State) : (keysetEffect f s).anchor = s.anchor := by simp [keysetEffect]
@[simp] theorem setLayout_anchor (n : Nat) (l : Layout) (s : State) : (setLayout n l s).anchor = s.anchor := by simp [setLayout]
@[simp] theorem reshapeBody_anchor (f : DwFrame) (s : State) : (reshapeBody f s).anchor = s.anchor := by simp [reshapeBody]

@[simp] theorem reEnumerateBody_anchor (f : DwFrame) (s : State) : (reEnumerateBody f s).anchor = s.anchor :=
  by simp [reEnumerateBody]

@[simp] theorem testRefused_anchor (f : DwFrame) (s : State) : (testRefused f s).anchor = s.anchor := by simp [testRefused]
@[simp] theorem clearChannel_anchor (c : Nat) (s : State) : (clearChannel c s).anchor = s.anchor := by simp [clearChannel]

@[simp] theorem sweepBody_anchor (f : DwFrame) (maps : List Bytes) (s : State) : (sweepBody f maps s).anchor = s.anchor :=
  by simp [sweepBody]

@[simp] theorem unlistedEffect_anchor (f : DwFrame) (s : State) : (unlistedEffect f s).anchor = s.anchor :=
  by simp [unlistedEffect]

/-! ### Machine/Regs.lean -/

@[simp] theorem recordOutside_anchor (p : Fin 2) (write : Bool) (o : Nat) (s : State) :
    (recordOutside p write o s).anchor = s.anchor := by simp [recordOutside]

@[simp] theorem recordAccess_anchor (q : Requester) (write : Bool) (o w : Nat) (s : State) :
    (recordAccess q write o w s).anchor = s.anchor := by
  unfold recordAccess; split <;> simp

@[simp] theorem setLatch_anchor (p : Fin 2) (l : List (Nat × Word32)) (s : State) : (setLatch p l s).anchor = s.anchor :=
  by simp [setLatch]

@[simp] theorem clearRc_anchor (o : Nat) (s : State) : (clearRc o s).anchor = s.anchor := by simp [clearRc]

@[simp] theorem earlyDigestRead_anchor (o : Nat) (s : State) : (earlyDigestRead o s).anchor = s.anchor :=
  by simp [earlyDigestRead]

@[simp] theorem latchRead_anchor (q : Requester) (o : Nat) (s : State) : (latchRead q o s).anchor = s.anchor := by
  unfold latchRead; split <;> simp

@[simp] theorem readEffect_anchor (latch : Bool) (q : Requester) (o : Nat) (s : State) :
    (readEffect latch q o s).anchor = s.anchor := by simp [readEffect]

@[simp] theorem regRead_anchor (r : RegRead) (s : State) : (regRead r s).anchor = s.anchor := by simp [regRead]

@[simp] theorem outsideEffect_anchor (p : Fin 2) (o : BitVec 25) (w : Nat) (write : Bool) (s : State) :
    (outsideEffect p o w write s).anchor = s.anchor := by simp [outsideEffect]

@[simp] theorem writeHep_anchor (p : Fin 2) (o : Nat) (v : Word32) (s : State) : (writeHep p o v s).anchor = s.anchor :=
  by simp [writeHep]

@[simp] theorem writeSec_anchor (o : Nat) (v : Word32) (s : State) : (writeSec o v s).anchor = s.anchor := by simp [writeSec]
@[simp] theorem writeEvr_anchor (o : Nat) (v : Word32) (s : State) : (writeEvr o v s).anchor = s.anchor := by simp [writeEvr]
@[simp] theorem writeNvc_anchor (o : Nat) (v : Word32) (s : State) : (writeNvc o v s).anchor = s.anchor := by simp [writeNvc]
@[simp] theorem writeWch_anchor (o : Nat) (v : Word32) (s : State) : (writeWch o v s).anchor = s.anchor := by simp [writeWch]

@[simp] theorem writeWdog_anchor (q : Requester) (v : Word32) (s : State) : (writeWdog q v s).anchor = s.anchor := by
  unfold writeWdog; split <;> simp

@[simp] theorem wordWrite_anchor (q : Requester) (o : Nat) (v : Word32) (s : State) : (wordWrite q o v s).anchor = s.anchor :=
  by simp [wordWrite]

@[simp] theorem controlWrite_anchor (q : Requester) (o w : Nat) (v : Word64) (s : State) :
    (controlWrite q o w v s).anchor = s.anchor := by simp [controlWrite]

@[simp] theorem baseWrite_anchor (f : FnId) (o : Nat) (v : Word32) (s : State) : (baseWrite f o v s).anchor = s.anchor :=
  by simp [baseWrite]

@[simp] theorem adminCfgWrite_anchor (f : FnId) (v : Word32) (s : State) : (adminCfgWrite f v s).anchor = s.anchor :=
  by simp [adminCfgWrite]

@[simp] theorem slotWord_anchor (f : FnId) (o : Nat) (v : Word32) (s : State) : (slotWord f o v s).anchor = s.anchor :=
  by simp [slotWord]

@[simp] theorem slotWrite_anchor (f : FnId) (o w : Nat) (v : Word64) (s : State) : (slotWrite f o w v s).anchor = s.anchor :=
  by simp [slotWrite]

@[simp] theorem msixWrite_anchor (f : FnId) (o : Nat) (v : Word32) (s : State) : (msixWrite f o v s).anchor = s.anchor :=
  by simp [msixWrite]

@[simp] theorem tableWrite_anchor (f : FnId) (o w : Nat) (v : Word64) (s : State) : (tableWrite f o w v s).anchor = s.anchor :=
  by simp [tableWrite]

@[simp] theorem setNumVf_anchor (p : Fin 2) (n : Nat) (s : State) : (setNumVf p n s).anchor = s.anchor := by simp [setNumVf]
@[simp] theorem setFnMask_anchor (f : FnId) (m : Bool) (s : State) : (setFnMask f m s).anchor = s.anchor := by simp [setFnMask]
@[simp] theorem modCfg_anchor (f : FnId) (g : FnCfg → FnCfg) (s : State) : (modCfg f g s).anchor = s.anchor := by simp [modCfg]

@[simp] theorem configWrite_anchor (f : FnId) (o : Nat) (v : Word64) (s : State) : (configWrite f o v s).anchor = s.anchor :=
  by simp [configWrite]

@[simp] theorem registerWriteEffect_anchor (w : RegWrite) (s : State) : (registerWriteEffect w s).anchor = s.anchor := by
  unfold registerWriteEffect; split <;> simp

@[simp] theorem debugBody_anchor (f : DwFrame) (s : State) : (debugBody f s).anchor = s.anchor := by simp [debugBody]

@[simp] theorem debugAccessEffect_anchor (f : DwFrame) (s : State) : (debugAccessEffect f s).anchor = s.anchor := by
  refine onceOnly_anchor _ _ _ fun t => ?_
  split
  · exact reply_anchor ..
  · split
    · exact checkKey_anchor _ _ _ _ fun u => reply_anchor ..
    · split
      · exact checkKey_anchor _ _ _ _ fun u => debugBody_anchor ..
      · exact reply_anchor ..

end Sys2Proof.Machine
end

section
/-! SUPPORT. What a command can do to an anchor: the resets, the ends of START-UP and RECOVERY, TEST ENTRY and the fuses (R33,
R58, R426), and nothing else. -/

namespace Sys2Proof.Machine

/-! ### Resets lead to START-UP (R33) -/

theorem setService_anchor (v : Service) (s : State) : (setService v s).anchor = { s.anchor with service := v } := by
  rw [setService, restat_anchor]
  rfl

theorem clearedState_anchor (c : ResetCause) (s : State) :
    (clearedState c s).anchor = { s.anchor with service := .startUp } := (rfl)

theorem chipWideReset_anchor (c : ResetCause) (s : State) :
    (chipWideReset c s).anchor = { s.anchor with service := .startUp } := by
  have hsnaps := fun (l : List Snap) => forEach_anchor (f := fun x u => raise .med .notice 315 0 [x.nsid, x.seq] u)
    (fun x u => raise_anchor ..) l
  simp only [chipWideReset, hsnaps, loseBlocks_anchor, clearedState_anchor, dropVolatileRefs_anchor, norReset_anchor,
    stopFlush_anchor]

/-- A reset that begins, or does not, leaves the anchor or leads to START-UP. -/
def Resets (a b : Anchor) : Prop := b = a ∨ b = { a with service := .startUp }

theorem Resets.of_eq {a b c : Anchor} (h : c = b) (k : Resets a b) : Resets a c := h ▸ k

theorem pinReset_resets (s : State) : Resets s.anchor (pinReset s).anchor := by
  unfold pinReset
  split
  · exact .inl rfl
  · exact .inr ((restat_anchor _).trans (chipWideReset_anchor ..))

theorem sysResetEffect_resets (n : Nat) (s : State) : Resets s.anchor (sysResetEffect n s).anchor := by
  have hlow : ∀ t : State, (sysResetEffect.lowPin t).anchor = t.anchor := fun t => anchor_update ..
  unfold sysResetEffect
  split
  · exact .inl rfl
  · split
    · exact hlow s ▸ pinReset_resets _
    · split
      · exact .inl (tick_anchor s)
      · exact ((hlow (tick s)).trans (tick_anchor s)) ▸ pinReset_resets _

theorem testModeEffect_resets (s : State) : Resets s.anchor (testModeEffect s).anchor := by
  unfold testModeEffect
  split
  · exact .of_eq (by simp) (pinReset_resets s)
  · exact .inl rfl

theorem commandResetEffect_resets (s : State) : Resets s.anchor (commandResetEffect s).anchor := by
  unfold commandResetEffect
  split
  · exact .inr ((restat_anchor _).trans (chipWideReset_anchor ..))
  · exact .inl rfl

theorem watchdogEffect_resets (s : State) : Resets s.anchor (watchdogEffect s).anchor := by
  unfold watchdogEffect
  split
  · exact .inr ((restat_anchor _).trans (chipWideReset_anchor ..))
  · exact .inl rfl

theorem supplyFallEffect_resets (s : State) : Resets s.anchor (supplyFallEffect s).anchor := by
  unfold supplyFallEffect
  split
  · exact .inl rfl
  · refine .inr (Eq.trans (b := (chipWideReset .powerOn
      (if s.pins.pwrFail || s.pins.sysResetLow then s else alarm .volt s)).anchor) (by simp) ?_)
    rw [chipWideReset_anchor]
    simp

/-- What POWER_ON_RESET does after the reset itself touches nothing anchored. -/
theorem powerOnEffect_resets (held high : Bool) (s : State) : Resets s.anchor (powerOnEffect held high s).anchor := by
  have hreset : Resets s.anchor (if s.glb.powered then chipWideReset .powerOn s else s).anchor := by
    split
    · exact .inr (chipWideReset_anchor ..)
    · exact .inl rfl
  refine .of_eq ?_ hreset
  unfold powerOnEffect
  generalize (if s.glb.powered then chipWideReset .powerOn s else s) = t
  cases held <;> simp

theorem flushCompleteEffect_resets (s : State) : Resets s.anchor (flushCompleteEffect s).anchor := by
  unfold flushCompleteEffect
  split
  · exact .inl rfl
  · split
    · exact .inl rfl
    · dsimp only
      split
      · exact .inr ((chipWideReset_anchor ..).trans (by simp))
      · exact .inl (by simp)

theorem mismatchEffect_resets (n : Nat) (s : State) : Resets s.anchor (mismatchEffect n s).anchor := by
  unfold mismatchEffect
  split
  · exact .inl rfl
  · split
    · exact .inr (chipWideReset_anchor ..)
    · exact .inl (by simp)

/-! ### The events of START-UP lead to NORMAL, RECOVERY or ROM-SERVICE (R57, R58) -/

/-- A state that is not TEST, with the rest of the anchor as it was. -/
def Starts (a b : Anchor) : Prop := ∃ v, v ≠ .test ∧ b = { a with service := v }

theorem Starts.of_eq {s : State} {b : Anchor} (hs : s.glb.service = .startUp) (h : b = s.anchor) : Starts s.anchor b :=
  ⟨.startUp, by decide, by rw [h, ← hs]; rfl⟩

theorem enterRom_starts (c : Byte) {s t : State} (h : t.anchor = s.anchor) : Starts s.anchor (enterRom c t).anchor := by
  refine ⟨.romService, by decide, ?_⟩
  have hset : (setService .romService
      { t with glb := { t.glb with romCause := c }, pins := { t.pins with svcRequest := false } }).anchor
      = { s.anchor with service := .romService } := (setService_anchor ..).trans (by simp [h])
  unfold enterRom
  dsimp only
  split
  · exact (wchCross_anchor ..).trans hset
  · exact hset

/-- An event that is not due does nothing; one that is due finds the chip in START-UP. -/
theorem startStep_move {ready : Bool} {f : State → State} {s : State}
    (hf : s.glb.service = .startUp → Starts s.anchor (f s).anchor) :
    (startStep ready f s).anchor = s.anchor ∨ s.glb.service = .startUp ∧ Starts s.anchor (startStep ready f s).anchor := by
  unfold startStep
  split
  · exact .inl rfl
  · next h =>
    have hs : s.glb.service = .startUp := by simp [starting] at h; exact h.1.1.2
    refine .inr ⟨hs, ?_⟩
    split
    · exact enterRom_starts 5 rfl
    · exact hf hs

theorem bootRomEffect_starts {s : State} (hs : s.glb.service = .startUp) : Starts s.anchor (bootRomEffect s).anchor := by
  unfold bootRomEffect
  dsimp only
  split
  · exact enterRom_starts 6 (by simp)
  · exact .of_eq hs (by simp)

theorem headerEffect_starts {s : State} (hs : s.glb.service = .startUp) : Starts s.anchor (headerEffect s).anchor := by
  unfold headerEffect
  split
  · exact enterRom_starts 1 rfl
  · exact .of_eq hs (by simp)

theorem profileEffect_starts {s : State} (hs : s.glb.service = .startUp) : Starts s.anchor (profileEffect s).anchor := by
  unfold profileEffect
  dsimp only
  split
  · split
    · exact .of_eq hs (by simp)
    · split
      · exact .of_eq hs (by simp)
      · exact enterRom_starts 2 (by simp)
  · split
    · exact .of_eq hs (by simp)
    · exact enterRom_starts 2 rfl

theorem dramInitEffect_starts (slots : List Spd) (temps : List Int) {s : State} (hs : s.glb.service = .startUp) :
    Starts s.anchor (dramInitEffect slots temps s).anchor := by
  unfold dramInitEffect
  dsimp only
  split
  · exact .of_eq hs (by simp)
  · exact enterRom_starts 3 (by simp)

theorem verifyEffect_starts {s : State} (hs : s.glb.service = .startUp) : Starts s.anchor (verifyEffect s).anchor := by
  unfold verifyEffect
  dsimp only
  split
  · exact .of_eq hs (by simp)
  · split
    · exact enterRom_starts 4 (by simp)
    · exact .of_eq hs (by simp)

theorem readyEffect_starts (s : State) : Starts s.anchor (readyEffect s).anchor := by
  refine ⟨if needsRecovery s then .recovery else .normal, by split <;> decide, ?_⟩
  simp [readyEffect, setService_anchor]

/-! ### What a command can do -/

/-- The moves of an anchor that the rules give. -/
inductive Moves (i : Instr) (a : Anchor) : Anchor → Prop where
  | same : Moves i a a
  | reset : Moves i a { a with service := .startUp }
  | started (v : Service) : a.service = .startUp → v ≠ .test → Moves i a { a with service := v }
  | recovered : a.service = .recovery → Moves i a { a with service := .normal }
  | test (f : DwFrame) : i = .testEntry f → a.service = .normal → a.debugOff = false → Moves i a { a with service := .test }
  | debugOff : Moves i a { a with debugOff := true }
  | revoked (r : BitVec 4) : Moves i a { a with revoked := a.revoked ||| r }

theorem Moves.of_eq {i : Instr} {a b : Anchor} (h : b = a) : Moves i a b := h ▸ .same

theorem Moves.of_resets {i : Instr} {a b : Anchor} : Resets a b → Moves i a b
  | .inl h => .of_eq h
  | .inr h => h ▸ .reset

theorem Moves.of_starts {i : Instr} {s : State} {b : Anchor} (hs : s.glb.service = .startUp) :
    Starts s.anchor b → Moves i s.anchor b
  | ⟨v, hv, h⟩ => h ▸ .started v hs hv

theorem Moves.of_startStep {i : Instr} {ready : Bool} {f : State → State} {s : State}
    (hf : s.glb.service = .startUp → Starts s.anchor (f s).anchor) : Moves i s.anchor (startStep ready f s).anchor := by
  obtain h | ⟨hs, h⟩ := startStep_move (ready := ready) hf
  · exact .of_eq h
  · exact .of_starts hs h

theorem windowEffect_moves {i : Instr} (s : State) : Moves i s.anchor (windowEffect s).anchor := by
  have hstep : Moves i s.anchor (startStep s.pins.listening (fun u => reach (max 11 u.glb.step) u) s).anchor :=
    .of_startStep fun hs => .of_eq hs (reach_anchor _ s)
  unfold windowEffect
  split
  · exact .same
  · dsimp only
    split
    · exact hstep
    · exact (anchor_update ..).symm ▸ hstep

theorem detectExitEffect_moves {i : Instr} (s : State) : Moves i s.anchor (detectExitEffect s).anchor := by
  unfold detectExitEffect
  dsimp only
  split
  · exact .of_eq (by simp)
  · split
    · exact (anchor_update ..).symm ▸ .of_startStep fun hs => .of_eq hs (by simp)
    · exact .of_startStep fun hs => .of_eq hs (by simp)

theorem firmwareReady_moves {i : Instr} (s : State) :
    Moves i s.anchor (onlyIf (starting s && s.pins.coresOut && s.sec.rng.st == .seeded) readyEffect s).anchor := by
  unfold onlyIf
  split
  · next h => exact .of_starts (by simp [starting] at h; exact h.1.1.1.2) (readyEffect_starts s)
  · exact .same

theorem recoveryDoneEffect_moves {i : Instr} (s : State) : Moves i s.anchor (recoveryDoneEffect s).anchor := by
  unfold recoveryDoneEffect
  split
  · next h =>
    rw [listScans_anchor, setService_anchor, anchor_update]
    exact .recovered h.1
  · exact .same

/-! ### TEST ENTRY and the fuses -/

/-- The key check runs the body on a state with the same anchor, or leaves the anchor. -/
theorem checkKey_moves {i : Instr} {f : DwFrame} {required : Bool} {body : State → State} {s : State}
    (hbody : ∀ t, t.anchor = s.anchor → Moves i s.anchor (body t).anchor) :
    Moves i s.anchor (checkKey f required body s).anchor := by
  unfold checkKey
  split
  · exact hbody s rfl
  · split
    · split
      · exact .of_eq (reply_anchor ..)
      · split
        · exact hbody _ (anchor_update ..)
        · exact .of_eq (replyAuth_anchor ..)
    · split
      · exact .of_eq (replyAuth_anchor ..)
      · exact hbody s rfl

theorem onceOnly_moves {i : Instr} {f : DwFrame} {body : State → State} {s : State}
    (hbody : Moves i s.anchor (body s).anchor) : Moves i s.anchor (onceOnly f body s).anchor :=
  onceOnly_keeps (P := fun t => Moves i s.anchor t.anchor) .same (fun _ _ _ _ => .of_eq (emit_anchor ..)) hbody

theorem svcRow_moves {i : Instr} {f : DwFrame} {l : List Service} {required : Bool} {body : State → State} {s : State}
    (hbody : ∀ t, t.anchor = s.anchor → Moves i s.anchor (body t).anchor) :
    Moves i s.anchor (svcRow f l required body s).anchor := by
  refine onceOnly_moves ?_
  split
  · exact checkKey_moves hbody
  · exact .of_eq (reply_anchor ..)

theorem testEntryBody_moves {f : DwFrame} {s t : State} (h : t.anchor = s.anchor) :
    Moves (.testEntry f) s.anchor (testEntryBody f t).anchor := by
  rw [← h]
  unfold testEntryBody
  split
  · exact .of_eq (reply_anchor ..)
  · next hd =>
    split
    · exact .of_eq (by simp)
    · next hr =>
      rw [reply_anchor, measExtend_anchor, setService_anchor, anchor_update]
      exact .test f rfl (not_not.mp (not_or.mp hr).1) (Bool.eq_false_of_not_eq_true hd)

theorem testEntryEffect_moves (f : DwFrame) (s : State) : Moves (.testEntry f) s.anchor (testEntryEffect f s).anchor := by
  refine onceOnly_moves ?_
  split
  · exact checkKey_moves fun t h => testEntryBody_moves h
  · exact .of_eq (by simp)

theorem blownFuse_moves {i : Instr} (n k : Nat) (s : State) : Moves i s.anchor (blownFuse n k s).anchor := by
  have hraise := raiseListed_anchor .svc .critical 0x3806 (leBytes 1 n ++ leBytes 1 k) s
  unfold blownFuse
  dsimp only
  rw [← hraise]
  split
  · exact .debugOff
  · exact .revoked _

theorem fuseBody_moves {i : Instr} {f : DwFrame} {s t : State} (h : t.anchor = s.anchor) :
    Moves i s.anchor (fuseBody f t).anchor := by
  rw [← h]
  unfold fuseBody
  dsimp only
  split
  · exact .of_eq (reply_anchor ..)
  · split
    · exact .of_eq (reply_anchor ..)
    · rw [reply_anchor]
      exact blownFuse_moves ..

/-! ### Every command -/

/-- A command that answers a next state had its effect on the quieted one, whose anchor is the same. -/
theorem moves_of_run {i : Instr} {f : State → State} {s t : State} (h : exec i s = .next t) (he : ∀ s, exec i s = run i f s)
    (hf : ∀ s, Moves i s.anchor (f s).anchor) : Moves i s.anchor t.anchor := by
  rw [he, run] at h
  split at h
  · cases h
    exact hf { s with out := [] }
  · cases h

theorem exec_moves {i : Instr} {s t : State} (h : exec i s = .next t) : Moves i s.anchor t.anchor := by
  cases i <;> refine moves_of_run h (fun _ => by dsimp only [exec]; rfl) ?_
  case powerOnReset held high => exact fun s => .of_resets (powerOnEffect_resets held high s)
  case sysResetAssert n => exact fun s => .of_resets (sysResetEffect_resets n s)
  case testModeAssert => exact fun s => .of_resets (testModeEffect_resets s)
  case chipCommandReset => exact fun s => .of_resets (commandResetEffect_resets s)
  case startUpWatchdogExpiry => exact fun s => .of_resets (watchdogEffect_resets s)
  case supplyFall => exact fun s => .of_resets (supplyFallEffect_resets s)
  case flushComplete => exact fun s => .of_resets (flushCompleteEffect_resets s)
  case lockstepMismatch p => exact fun s => .of_resets (mismatchEffect_resets p.val s)
  case pllLock => exact fun s => .of_startStep fun hs => .of_eq hs (by simp)
  case bootRomStart => exact fun s => .of_startStep bootRomEffect_starts
  case listenWindowClose => exact windowEffect_moves
  case bootHeaderRead => exact fun s => .of_startStep headerEffect_starts
  case norOctalSwitch => exact fun s => .of_startStep fun hs => .of_eq hs (octalEffect_anchor s)
  case profileRead => exact fun s => .of_startStep profileEffect_starts
  case pcieDetectExit => exact detectExitEffect_moves
  case dramInit slots temps => exact fun s => .of_startStep (dramInitEffect_starts slots temps)
  case dramCheckDone good =>
    refine fun s => .of_startStep fun hs => ?_
    split
    · exact .of_eq hs (reach_anchor 10 s)
    · exact enterRom_starts 3 rfl
  case firmwareReadDone => exact fun s => .of_startStep fun hs => .of_eq hs (firmwareReadEffect_anchor s)
  case signatureVerifyDone => exact fun s => .of_startStep verifyEffect_starts
  case coreRelease => exact fun s => .of_startStep fun hs => .of_eq hs (coreReleaseEffect_anchor s)
  case firmwareReady => exact firmwareReady_moves
  case recoveryDone => exact recoveryDoneEffect_moves
  case testEntry f => exact testEntryEffect_moves f
  case fuse f => exact fun s => svcRow_moves fun t ht => fuseBody_moves ht
  case cacheRead slice stream target => exact fun s => .of_eq (by cases target <;> simp)
  case replSessionTimeout session => exact fun s => .of_eq (by split <;> simp)
  case relay m c tenant result => exact fun s => .of_eq (by cases result <;> simp)
  all_goals exact fun s => .of_eq (by simp)

/-! ### The obligation -/

theorem Moves.pending {i : Instr} {a b : Anchor} (h : Moves i a b) : b.pending = a.pending := by
  cases h <;> rfl

theorem Moves.serviceTable {i : Instr} {a b : Anchor} (h : Moves i a b) : ServiceTable a.service b.service := by
  cases h with
  | started v hs hv => cases v <;> simp_all [ServiceTable]
  | _ => simp_all [ServiceTable]

/-- Only TEST ENTRY leads to TEST. -/
theorem Moves.testEntry {i : Instr} {a b : Anchor} (h : Moves i a b) (ha : a.service ≠ .test) (hb : b.service = .test) :
    ∃ f, i = .testEntry f := by
  cases h with
  | test f hi => exact ⟨f, hi⟩
  | started v hs hv => exact absurd hb hv
  | _ => simp_all

/-- Settles O60: with nothing waiting the block idles; otherwise the step is the front command's move of the anchor. -/
theorem serviceChangesFollowTheTable : Obligations.ServiceChangesFollowTheTable := by
  unfold Obligations.ServiceChangesFollowTheTable
  intro s t h
  cases hp : s.pending with
  | nil =>
    simp only [step, hp, Host.Outcome.next.injEq] at h
    subst h
    exact ⟨.inl rfl, by simp [hp], fun ha hb => absurd hb ha⟩
  | cons c rest =>
    simp only [step, hp] at h
    have hm := exec_moves h
    refine ⟨hm.serviceTable, hm.pending, fun ha hb => ?_⟩
    obtain ⟨f, hf⟩ := hm.testEntry ha hb
    exact ⟨f, by rw [hf]; rfl⟩

end Sys2Proof.Machine
end

section
/-! SUPPORT. What each operation leaves unchanged, as an equation: the state with the parts that it may touch left out. -/

namespace Sys2Proof.Machine

/-! ### One part of a frame -/

section
variable {l : List Part} {s t : State} (h : Frame l s t)
include h

theorem Frame.glb (hl : .glb ∉ l := by decide) : t.glb = s.glb := h .glb hl (by decide)
theorem Frame.pins (hl : .pins ∉ l := by decide) : t.pins = s.pins := h .pins hl (by decide)
theorem Frame.clk (hl : .clk ∉ l := by decide) : t.clk = s.clk := h .clk hl (by decide)
theorem Frame.cache (hl : .cache ∉ l := by decide) : t.cache = s.cache := h .cache hl (by decide)
theorem Frame.nvc (hl : .nvc ∉ l := by decide) : t.nvc = s.nvc := h .nvc hl (by decide)
theorem Frame.wch (hl : .wch ∉ l := by decide) : t.wch = s.wch := h .wch hl (by decide)
theorem Frame.hep (hl : .hep ∉ l := by decide) : t.hep = s.hep := h .hep hl (by decide)
theorem Frame.hqe (hl : .hqe ∉ l := by decide) : t.hqe = s.hqe := h .hqe hl (by decide)
theorem Frame.ing (hl : .ing ∉ l := by decide) : t.ing = s.ing := h .ing hl (by decide)
theorem Frame.bal (hl : .bal ∉ l := by decide) : t.bal = s.bal := h .bal hl (by decide)
theorem Frame.sec (hl : .sec ∉ l := by decide) : t.sec = s.sec := h .sec hl (by decide)
theorem Frame.med (hl : .med ∉ l := by decide) : t.med = s.med := h .med hl (by decide)
theorem Frame.plf (hl : .plf ∉ l := by decide) : t.plf = s.plf := h .plf hl (by decide)
theorem Frame.far (hl : .far ∉ l := by decide) : t.far = s.far := h .far hl (by decide)
theorem Frame.par (hl : .par ∉ l := by decide) : t.par = s.par := h .par hl (by decide)
theorem Frame.til (hl : .til ∉ l := by decide) : t.til = s.til := h .til hl (by decide)
theorem Frame.snp (hl : .snp ∉ l := by decide) : t.snp = s.snp := h .snp hl (by decide)
theorem Frame.peer (hl : .peer ∉ l := by decide) : t.peer = s.peer := h .peer hl (by decide)
theorem Frame.pair (hl : .pair ∉ l := by decide) : t.pair = s.pair := h .pair hl (by decide)
theorem Frame.rdm (hl : .rdm ∉ l := by decide) : t.rdm = s.rdm := h .rdm hl (by decide)
theorem Frame.mch (hl : .mch ∉ l := by decide) : t.mch = s.mch := h .mch hl (by decide)
theorem Frame.drc (hl : .drc ∉ l := by decide) : t.drc = s.drc := h .drc hl (by decide)
theorem Frame.evr (hl : .evr ∉ l := by decide) : t.evr = s.evr := h .evr hl (by decide)
theorem Frame.svc (hl : .svc ∉ l := by decide) : t.svc = s.svc := h .svc hl (by decide)
theorem Frame.nor (hl : .nor ∉ l := by decide) : t.nor = s.nor := h .nor hl (by decide)
theorem Frame.dram (hl : .dram ∉ l := by decide) : t.dram = s.dram := h .dram hl (by decide)
theorem Frame.freeCtr (hl : .freeCtr ∉ l := by decide) : t.freeCtr = s.freeCtr := h .freeCtr hl (by decide)
theorem Frame.pending (hl : .pending ∉ l := by decide) : t.pending = s.pending := h .pending hl (by decide)

end

theorem Frame.of_quiet {l : List Part} {s t : State} (h : Frame l s.quiet t) : Frame l s t := (Frame.quiet l s).trans h

/-- A state without some of its parts, and without the record of what was driven outward. -/
def State.outside (l : List Part) (s : State) : State :=
  { glb := if .glb ∈ l then {} else s.glb, pins := if .pins ∈ l then {} else s.pins, clk := if .clk ∈ l then {} else s.clk,
    cache := if .cache ∈ l then {} else s.cache, nvc := if .nvc ∈ l then {} else s.nvc,
    wch := if .wch ∈ l then {} else s.wch,
    hep := if .hep ∈ l then {} else s.hep, hqe := if .hqe ∈ l then {} else s.hqe, ing := if .ing ∈ l then {} else s.ing,
    bal := if .bal ∈ l then {} else s.bal, sec := if .sec ∈ l then {} else s.sec, med := if .med ∈ l then {} else s.med,
    plf := if .plf ∈ l then {} else s.plf, far := if .far ∈ l then {} else s.far, par := if .par ∈ l then {} else s.par,
    til := if .til ∈ l then {} else s.til, snp := if .snp ∈ l then {} else s.snp, peer := if .peer ∈ l then {} else s.peer,
    pair := if .pair ∈ l then {} else s.pair, rdm := if .rdm ∈ l then {} else s.rdm, mch := if .mch ∈ l then {} else s.mch,
    drc := if .drc ∈ l then {} else s.drc, evr := if .evr ∈ l then {} else s.evr, svc := if .svc ∈ l then {} else s.svc,
    nor := if .nor ∈ l then [] else s.nor, dram := if .dram ∈ l then [] else s.dram,
    freeCtr := if .freeCtr ∈ l then 0 else s.freeCtr, out := [], pending := if .pending ∈ l then [] else s.pending }

/-- A frame is an equation of what lies outside it. -/
theorem frame_iff {l : List Part} {s t : State} : Frame l s t ↔ t.outside l = s.outside l := by
  constructor
  · intro h
    have part : ∀ {α : Type} {p : Part} {d x y : α}, p ≠ .out → (p.same s t → x = y) →
        (if p ∈ l then d else x) = if p ∈ l then d else y := by
      intro α p d x y ho hp
      by_cases hl : p ∈ l
      · simp [hl]
      · simp [hl, hp (h p hl ho)]
    simp only [State.outside]
    congr 1 <;> exact part (by decide) id
  · intro h p hl ho
    simp only [State.outside, State.mk.injEq] at h
    cases p <;> simp_all [Part.same]

/-- Parts inside may change, and the others stand as they were. -/
@[simp] theorem outside_update {l : List Part} {s : State} {a : Glb} {b : Pins} {c : Clk} {d : Cache} {e : Nvc} {f : Wch}
    {g : Hep} {h : Hqe} {i : Ing} {j : Bal} {k : Sec} {m : Med} {n : Plf} {o : Far} {p : Par} {q : Til} {r : Snp} {t : Peer}
    {u : Pairing} {v : Rdm} {w : Mch} {x : Drc} {y : Evr} {z : Svc} {nor dram : List Host.Cell} {ctr : Nat} {out : List Output}
    (ha : .glb ∈ l ∨ a = s.glb) (hb : .pins ∈ l ∨ b = s.pins) (hc : .clk ∈ l ∨ c = s.clk) (hd : .cache ∈ l ∨ d = s.cache)
    (he : .nvc ∈ l ∨ e = s.nvc) (hf : .wch ∈ l ∨ f = s.wch) (hg : .hep ∈ l ∨ g = s.hep) (hh : .hqe ∈ l ∨ h = s.hqe)
    (hi : .ing ∈ l ∨ i = s.ing) (hj : .bal ∈ l ∨ j = s.bal) (hk : .sec ∈ l ∨ k = s.sec) (hm : .med ∈ l ∨ m = s.med)
    (hn : .plf ∈ l ∨ n = s.plf) (ho : .far ∈ l ∨ o = s.far) (hp : .par ∈ l ∨ p = s.par) (hq : .til ∈ l ∨ q = s.til)
    (hr : .snp ∈ l ∨ r = s.snp) (ht : .peer ∈ l ∨ t = s.peer) (hu : .pair ∈ l ∨ u = s.pair) (hv : .rdm ∈ l ∨ v = s.rdm)
    (hw : .mch ∈ l ∨ w = s.mch) (hx : .drc ∈ l ∨ x = s.drc) (hy : .evr ∈ l ∨ y = s.evr) (hz : .svc ∈ l ∨ z = s.svc)
    (hnor : .nor ∈ l ∨ nor = s.nor) (hdram : .dram ∈ l ∨ dram = s.dram) (hctr : .freeCtr ∈ l ∨ ctr = s.freeCtr) :
    State.outside l ⟨a, b, c, d, e, f, g, h, i, j, k, m, n, o, p, q, r, t, u, v, w, x, y, z, nor, dram, ctr, out, s.pending⟩
      = s.outside l := by
  have part : ∀ {α : Type} {p : Part} {d x y : α}, (p ∈ l ∨ x = y) → (if p ∈ l then d else x) = if p ∈ l then d else y := by
    intro α p d x y h
    by_cases hl : p ∈ l
    · simp [hl]
    · simp [hl, h.resolve_left hl]
  simp only [State.outside]
  congr 1 <;> exact part ‹_›

@[simp] theorem quiet_outside (l : List Part) (s : State) : s.quiet.outside l = s.outside l := frame_iff.1 (Frame.quiet l s)

@[simp] theorem outside_ite (l : List Part) (c : Prop) [Decidable c] (s t : State) :
    (if c then s else t).outside l = if c then s.outside l else t.outside l := apply_ite (State.outside l) c s t

@[simp] theorem done_outside_ite (l : List Part) (c : Prop) [Decidable c] (d e : AdminDone) :
    (if c then d else e).2.2.outside l = if c then d.2.2.outside l else e.2.2.outside l :=
  apply_ite (fun d : AdminDone => d.2.2.outside l) c d e

section
variable {parts : List Part}

@[simp] theorem forEach_outside {α : Type} {f : α → State → State} (h : ∀ x t, (f x t).outside parts = t.outside parts)
    (xs : List α)
    (s : State) : (forEach xs f s).outside parts = s.outside parts := forEach_keeps (State.outside parts) f h xs s

@[simp] theorem onlyIf_outside {f : State → State} (h : ∀ t, (f t).outside parts = t.outside parts) (b : Bool) (s : State) :
    (onlyIf b f s).outside parts = s.outside parts := by
  cases b
  · rfl
  · exact h s

@[simp] theorem forSome_outside {α : Type} {f : α → State → State} (h : ∀ x t, (f x t).outside parts = t.outside parts)
    (o : Option α)
    (s : State) : (forSome o f s).outside parts = s.outside parts := by
  cases o with
  | none => rfl
  | some x => exact h x s

/-! ### Machine/Ops.lean -/

@[simp] theorem emit_outside (o : Output) (s : State) : (emit o s).outside parts = s.outside parts := by simp [emit]

@[simp] theorem tickLong_outside (hl : .freeCtr ∈ parts) (n : Nat) (s : State) :
    (tickLong n s).outside parts = s.outside parts := by simp [tickLong, hl]

@[simp] theorem tick_outside (hl : .freeCtr ∈ parts) (s : State) : (tick s).outside parts = s.outside parts := by
  simp [tick, hl]

@[simp] theorem modPort_outside (hl : .hep ∈ parts) (p : Fin 2) (f : Port → Port) (s : State) :
    (modPort p f s).outside parts = s.outside parts := by simp [modPort, hl]

/-! ### Machine/Events.lean -/

@[simp] theorem lostCheck_outside (hl : .evr ∈ parts) (s : State) : (lostCheck s).outside parts = s.outside parts := by
  simp [lostCheck, hl]

@[simp] theorem offerRec_outside (hl : .evr ∈ parts) (e : EvRec) (s : State) :
    (offerRec e s).outside parts = s.outside parts := by simp [offerRec, hl]

@[simp] theorem raise_outside (hl : .evr ∈ parts) (b : Blk) (v : Sev) (rule n : Nat) (args : List Nat) (s : State) :
    (raise b v rule n args s).outside parts = s.outside parts := by simp [raise, hl]

@[simp] theorem raiseListed_outside (hl : .evr ∈ parts) (b : Blk) (v : Sev) (code : Nat) (payload : Bytes) (s : State) :
    (raiseListed b v code payload s).outside parts = s.outside parts := by simp [raiseListed, hl]

@[simp] theorem raiseIf_outside (hl : .evr ∈ parts) (c : Bool) (b : Blk) (v : Sev) (rule n : Nat) (args : List Nat)
    (s : State) : (raiseIf c b v rule n args s).outside parts = s.outside parts := by simp [raiseIf, hl]

/-! ### Machine/Nvc.lean -/

@[simp] theorem norInterrupt_outside (hl : .nor ∈ parts ∧ .freeCtr ∈ parts) (o : NorOp) (s : State) :
    (norInterrupt o s).outside parts = s.outside parts := by simp [norInterrupt, hl]

@[simp] theorem norReset_outside (hl : .nor ∈ parts ∧ .freeCtr ∈ parts) (s : State) :
    (norReset s).outside parts = s.outside parts := by simp [norReset, hl]

@[simp] theorem norPowerFail_outside (hl : .nvc ∈ parts ∧ .evr ∈ parts ∧ .freeCtr ∈ parts) (s : State) :
    (norPowerFail s).outside parts = s.outside parts := by simp [norPowerFail, hl]

/-! ### Machine/Recorder.lean -/

@[simp] theorem setRdChan_outside (hl : .evr ∈ parts) (n : Fin 2) (c : RdChan) (s : State) :
    (setRdChan n c s).outside parts = s.outside parts := by simp [setRdChan, hl]

@[simp] theorem evrReadRequestEffect_outside (hl : .evr ∈ parts) (n : Fin 2) (upper : Word32) (s : State) :
    (evrReadRequestEffect n upper s).outside parts = s.outside parts := by simp [evrReadRequestEffect, hl]

/-! ### Machine/Queues.lean -/

@[simp] theorem modQp_outside (hl : .hqe ∈ parts) (k : QKey) (f : Qp → Qp) (s : State) :
    (modQp k f s).outside parts = s.outside parts := by simp [modQp, hl]

@[simp] theorem putVector_outside (hl : .hep ∈ parts) (e : Vector_) (s : State) :
    (putVector e s).outside parts = s.outside parts := by simp [putVector, hl]

@[simp] theorem signal_outside (hl : .hep ∈ parts) (f : FnId) (v : Nat) (s : State) :
    (signal f v s).outside parts = s.outside parts := by simp [signal, hl]

@[simp] theorem postOne_outside (hl : .hep ∈ parts ∧ .hqe ∈ parts) (k : QKey) (e : Cqe) (s : State) :
    (postOne k e s).outside parts = s.outside parts := by
  unfold postOne; split <;> simp [hl]

@[simp] theorem postCqe_outside (hl : .hep ∈ parts ∧ .hqe ∈ parts) (k : QKey) (e : Cqe) (s : State) :
    (postCqe k e s).outside parts = s.outside parts := by
  unfold postCqe; split <;> simp [hl]

@[simp] theorem toPeer_outside (type : Nat) (args : List Nat) (data : Bytes) (s : State) :
    (toPeer type args data s).outside parts = s.outside parts := by simp [toPeer]

@[simp] theorem mirrorSettle_outside (e : Settle) (s : State) : (mirrorSettle e s).outside parts = s.outside parts := by
  simp [mirrorSettle]

@[simp] theorem addSettle_outside (hl : .hqe ∈ parts) (e : Settle) (s : State) :
    (addSettle e s).outside parts = s.outside parts := by simp [addSettle, hl]

@[simp] theorem dropSettle_outside (hl : .hqe ∈ parts) (p : Settle → Bool) (s : State) :
    (dropSettle p s).outside parts = s.outside parts := by simp [dropSettle, hl]

theorem settleRoom_outside (hl : .hqe ∈ parts ∧ .evr ∈ parts) {s t : State} (h : settleRoom s = some t) :
    t.outside parts = s.outside parts := by
  unfold settleRoom at h
  (repeat' split at h) <;> simp at h <;> simp [← h, hl]

theorem settleCreate_outside (hl : .hqe ∈ parts ∧ .evr ∈ parts) {t nsid qp : Nat} {g : Word64} {s u : State}
    (h : settleCreate t g nsid qp s = some u) : u.outside parts = s.outside parts := by
  unfold settleCreate at h
  dsimp only at h
  split at h
  · next hr => simp at h; simp [← h, settleRoom_outside hl hr, hl]
  · cases h

@[simp] theorem settleTag_outside (hl : .hqe ∈ parts) (t : Nat) (g : Word64) (k n : Nat) (s : State) :
    (settleTag t g k n s).outside parts = s.outside parts := by
  unfold settleTag; split <;> simp [hl]

@[simp] theorem pinTrim_outside (hl : .hqe ∈ parts ∧ .evr ∈ parts) (n : Nat) (s : State) :
    (pinTrim n s).outside parts = s.outside parts := by
  induction n generalizing s with
  | zero => rfl
  | succ n ih =>
    unfold pinTrim
    (repeat' split) <;> simp [ih, hl]

@[simp] theorem pinEntries_outside (hl : .hqe ∈ parts ∧ .evr ∈ parts) (p : Settle → Bool) (s : State) :
    (pinEntries p s).outside parts = s.outside parts := by simp [pinEntries, hl]

@[simp] theorem pinQps_outside (hl : .hqe ∈ parts ∧ .evr ∈ parts) (ids : List Nat) (s : State) :
    (pinQps ids s).outside parts = s.outside parts := by simp [pinQps, hl]

@[simp] theorem modTenant_outside (hl : .hqe ∈ parts) (t : Nat) (f : Tenant → Tenant) (s : State) :
    (modTenant t f s).outside parts = s.outside parts := by simp [modTenant, hl]

@[simp] theorem returnCredit_outside (hl : .hqe ∈ parts) (t : Option Nat) (s : State) :
    (returnCredit t s).outside parts = s.outside parts := by
  unfold returnCredit; split <;> simp [hl]

@[simp] theorem takeCredits_outside (hl : .hqe ∈ parts) (t n : Nat) (s : State) :
    (takeCredits t n s).outside parts = s.outside parts := by simp [takeCredits, hl]

@[simp] theorem modCmd_outside (hl : .hqe ∈ parts) (id : Nat) (f : Cmd → Cmd) (s : State) :
    (modCmd id f s).outside parts = s.outside parts := by simp [modCmd, hl]

@[simp] theorem dropCmd_outside (hl : .hqe ∈ parts) (id : Nat) (s : State) :
    (dropCmd id s).outside parts = s.outside parts := by simp [dropCmd, hl]

@[simp] theorem answerTo_outside (hl : .hep ∈ parts ∧ .hqe ∈ parts) (o : Origin) (q : QKey) (cid status : Word16)
    (k n result : Nat) (data : Bytes) (s : State) :
    (answerTo o q cid status k n result data s).outside parts = s.outside parts := by
  unfold answerTo; split <;> simp [hl]

@[simp] theorem answerCmd_outside (hl : .hep ∈ parts ∧ .hqe ∈ parts) (w : Waiter) (status : Word16) (result : Nat)
    (s : State) : (answerCmd w status result s).outside parts = s.outside parts := by simp [answerCmd, hl]

@[simp] theorem finishCmd_outside (hl : .hep ∈ parts ∧ .hqe ∈ parts) (id : Nat) (status : Word16) (k result : Nat)
    (s : State) : (finishCmd id status k result s).outside parts = s.outside parts := by
  unfold finishCmd; split <;> simp [hl]

@[simp] theorem addCmd_outside (hl : .hqe ∈ parts) (c : Cmd) (s : State) : (addCmd c s).outside parts = s.outside parts := by
  simp [addCmd, hl]

@[simp] theorem toHostPoison_outside (q : QKey) (addr : Nat) (data : Bytes) (s : State) :
    (toHostPoison q addr data s).outside parts = s.outside parts := by simp [toHostPoison]

@[simp] theorem toHost_outside (q : QKey) (addr : Nat) (data : Bytes) (s : State) :
    (toHost q addr data s).outside parts = s.outside parts := by simp [toHost]

/-! ### Machine/Staging.lean -/

@[simp] theorem modEntry_outside (hl : .ing ∈ parts) (slot : Nat) (f : StEntry → StEntry) (s : State) :
    (modEntry slot f s).outside parts = s.outside parts := by simp [modEntry, hl]

@[simp] theorem noteOccupancy_outside (hl : .ing ∈ parts) (s : State) : (noteOccupancy s).outside parts = s.outside parts := by
  simp [noteOccupancy, hl]

@[simp] theorem freeEntry_outside (hl : .hqe ∈ parts ∧ .ing ∈ parts) (e : StEntry) (s : State) :
    (freeEntry e s).outside parts = s.outside parts := by simp [freeEntry, hl]

@[simp] theorem sendMirror_outside (e : StEntry) (tag : Option Word64) (nblk : Nat) (s : State) :
    (sendMirror e tag nblk s).outside parts = s.outside parts := by simp [sendMirror]

@[simp] theorem reachStaged_outside (hl : .hqe ∈ parts ∧ .ing ∈ parts) (e : StEntry) (tag : Option Word64) (nblk : Nat)
    (s : State) : (reachStaged e tag nblk s).outside parts = s.outside parts := by simp [reachStaged, hl]

@[simp] theorem stagePrefix_outside (hl : .hqe ∈ parts ∧ .ing ∈ parts) (c : Cmd) (s : State) :
    (stagePrefix c s).outside parts = s.outside parts := forEach_outside (fun b t => by split <;> simp [hl]) _ _

@[simp] theorem endWrite_outside (hl : .hep ∈ parts ∧ .hqe ∈ parts ∧ .ing ∈ parts) (c : Cmd) (k : Nat) (status : Word16)
    (s : State) : (endWrite c k status s).outside parts = s.outside parts := by
  unfold endWrite; split <;> simp [hl]

@[simp] theorem completeWrite_outside (hl : .hep ∈ parts ∧ .hqe ∈ parts ∧ .ing ∈ parts) (id : Nat) (s : State) :
    (completeWrite id s).outside parts = s.outside parts := by
  unfold completeWrite; split <;> simp [hl]

@[simp] theorem advanceWrite_outside (hl : .hep ∈ parts ∧ .hqe ∈ parts ∧ .ing ∈ parts) (id : Nat) (s : State) :
    (advanceWrite id s).outside parts = s.outside parts := by
  unfold advanceWrite; split <;> simp [hl]

@[simp] theorem freeFilling_outside (hl : .hqe ∈ parts ∧ .ing ∈ parts) (id : Nat) (s : State) :
    (freeFilling id s).outside parts = s.outside parts := by simp [freeFilling, hl]

@[simp] theorem cutWrite_outside (hl : .hep ∈ parts ∧ .hqe ∈ parts ∧ .ing ∈ parts) (id : Nat) (s : State) :
    (cutWrite id s).outside parts = s.outside parts := by
  unfold cutWrite; split <;> simp [hl]

@[simp] theorem touchPage_outside (hl : .med ∈ parts) (p : Nat × Nat) (s : State) :
    (touchPage p s).outside parts = s.outside parts := by
  unfold touchPage; (repeat' split) <;> simp [hl]

@[simp] theorem dirtyChunk_outside (hl : .med ∈ parts) (no : Nat) (s : State) :
    (dirtyChunk no s).outside parts = s.outside parts := by simp [dirtyChunk, hl]

@[simp] theorem touchRange_outside (hl : .med ∈ parts) (nsid lba n : Nat) (s : State) :
    (touchRange nsid lba n s).outside parts = s.outside parts := by simp [touchRange, hl]

@[simp] theorem takeSlots_outside (hl : .hep ∈ parts ∧ .hqe ∈ parts ∧ .ing ∈ parts) (c : Cmd) (s : State) :
    (takeSlots c s).outside parts = s.outside parts := by
  unfold takeSlots; split <;> simp [hl]

@[simp] theorem grantOne_outside (hl : .hep ∈ parts ∧ .hqe ∈ parts ∧ .ing ∈ parts) (id : Nat) (p : Bool × State) :
    (grantOne id p).2.outside parts = p.2.outside parts := by
  unfold grantOne; (repeat' split) <;> simp [hl]

@[simp] theorem grantAll_outside (hl : .hep ∈ parts ∧ .hqe ∈ parts ∧ .ing ∈ parts) (s : State) :
    (grantAll s).outside parts = s.outside parts := by
  unfold grantAll
  split
  · rfl
  · exact foldl_keeps (fun p : Bool × State => p.2.outside parts) _ (fun p id => grantOne_outside hl id p) _ (false, s)

/-! ### Machine/Lanes.lean -/

@[simp] theorem modLane_outside (hl : .far ∈ parts) (n : Nat) (f : Lane → Lane) (s : State) :
    (modLane n f s).outside parts = s.outside parts := by simp [modLane, hl]

@[simp] theorem noteDieRun_outside (hl : .med ∈ parts) (n : Nat) (c : FarCmd) (s : State) :
    (noteDieRun n c s).outside parts = s.outside parts := by simp [noteDieRun, hl]

@[simp] theorem putFrame_outside (hl : .far ∈ parts) (n tag : Nat) (c : FarCmd) (s : State) :
    (putFrame n tag c s).outside parts = s.outside parts := by simp [putFrame, hl]

@[simp] theorem sendNow_outside (hl : .med ∈ parts ∧ .far ∈ parts) (n : Nat) (c : FarCmd) (s : State) :
    (sendNow n c s).outside parts = s.outside parts := by simp [sendNow, hl]

@[simp] theorem farSend_outside (hl : .med ∈ parts ∧ .far ∈ parts) (n : Nat) (c : FarCmd) (s : State) :
    (farSend n c s).outside parts = s.outside parts := by simp [farSend, hl]

@[simp] theorem farUrgent_outside (hl : .med ∈ parts ∧ .far ∈ parts) (n : Nat) (c : FarCmd) (s : State) :
    (farUrgent n c s).outside parts = s.outside parts := by simp [farUrgent, hl]

@[simp] theorem modDieRun_outside (hl : .med ∈ parts) (n d : Nat) (f : DieRun → DieRun) (s : State) :
    (modDieRun n d f s).outside parts = s.outside parts := by simp [modDieRun, hl]

@[simp] theorem trySuspend_outside (hl : .med ∈ parts ∧ .far ∈ parts) (n d : Nat) (s : State) :
    (trySuspend n d s).outside parts = s.outside parts := by
  unfold trySuspend; split <;> simp [hl]

@[simp] theorem urgentRead_outside (hl : .med ∈ parts ∧ .far ∈ parts) (m : Member) (slc : Bool) (page off count : Nat)
    (s : State) : (urgentRead m slc page off count s).outside parts = s.outside parts := by simp [urgentRead, hl]

@[simp] theorem readMember_outside (hl : .med ∈ parts ∧ .far ∈ parts) (m : Member) (slc : Bool) (page off count : Nat)
    (s : State) : (readMember m slc page off count s).outside parts = s.outside parts := by simp [readMember, hl]

@[simp] theorem readStored_outside (hl : .med ∈ parts ∧ .far ∈ parts) (g : Seg) (stripe gran n : Nat) (s : State) :
    (readStored g stripe gran n s).outside parts = s.outside parts :=
  forEach_outside (fun p t => by split <;> simp [hl]) _ _

@[simp] theorem readPage_outside (hl : .med ∈ parts ∧ .far ∈ parts) (p : Nat × Nat) (s : State) :
    (readPage p s).outside parts = s.outside parts := by
  simp only [readPage]; split <;> simp [hl]

/-! ### Machine/HqeIo.lean -/

@[simp] theorem takeId_outside (hl : .ing ∈ parts) (s : State) : (takeId s).outside parts = s.outside parts := by
  simp [takeId, hl]

@[simp] theorem deliver_outside (hl : .hqe ∈ parts) (c : Cmd) (off : Nat) (data : Bytes) (s : State) :
    (deliver c off data s).outside parts = s.outside parts := by
  unfold deliver; split <;> simp [hl]

@[simp] theorem modSeg_outside (hl : .med ∈ parts) (no : Nat) (f : Seg → Seg) (s : State) :
    (modSeg no f s).outside parts = s.outside parts := by simp [modSeg, hl]

@[simp] theorem addJob_outside (hl : .ing ∈ parts ∧ .bal ∈ parts ∧ .med ∈ parts) (c : Cmd) (pcs : List
    (Nat × Nat × Nat × Nat × Nat)) (chunk : Nat) (s : State) :
    (addJob c pcs chunk s).outside parts = s.outside parts := by simp [addJob, hl]

@[simp] theorem endRead_outside (hl : .hep ∈ parts ∧ .hqe ∈ parts) (id : Nat) (s : State) :
    (endRead id s).outside parts = s.outside parts := by
  unfold endRead; split <;> simp [hl]

@[simp] theorem startRead_outside (hl : .hep ∈ parts ∧ .hqe ∈ parts ∧ .ing ∈ parts ∧ .bal ∈ parts ∧ .med ∈ parts) (c : Cmd)
    (n : Ns) (s : State) : (startRead c n s).outside parts = s.outside parts := by
  simp only [startRead]
  split
  · simp [hl]
  · split
    · rw [endRead_outside (by simp [hl]), forEach_outside fun p t => by split <;> simp [hl]]; simp [hl]
    · rw [forEach_outside fun k t => addJob_outside (by simp [hl]) .., forEach_outside fun p t => by split <;> simp [hl]]
      simp [hl]

@[simp] theorem sentOn_outside (hl : .rdm ∈ parts) (p : RcQp → Bool) (len : Nat) (s : State) :
    (sentOn p len s).outside parts = s.outside parts := by simp [sentOn, hl]

@[simp] theorem sendRelay_outside (hl : .rdm ∈ parts) (c : Cmd) (dst : Nat) (s : State) :
    (sendRelay c dst s).outside parts = s.outside parts := by
  unfold sendRelay; (repeat' split) <;> simp [hl]

@[simp] theorem startRelay_outside (hl : .hqe ∈ parts ∧ .rdm ∈ parts) (w : Waiter) (dst : Nat) (s : State) :
    (startRelay w dst s).outside parts = s.outside parts := by simp [startRelay, hl]

@[simp] theorem relayOrWait_outside (hl : .hqe ∈ parts ∧ .rdm ∈ parts) (w : Waiter) (dst : Nat) (s : State) :
    (relayOrWait w dst s).outside parts = s.outside parts := by simp [relayOrWait, hl]

@[simp] theorem waitPages_outside (hl : .hqe ∈ parts ∧ .med ∈ parts ∧ .far ∈ parts) (c : Cmd) (s : State) :
    (waitPages c s).outside parts = s.outside parts := by simp [waitPages, hl]

@[simp] theorem admitRead_outside (hl : .hep ∈ parts ∧ .hqe ∈ parts ∧ .ing ∈ parts ∧ .bal ∈ parts ∧ .med ∈ parts
    ∧ .far ∈ parts) (w : Waiter) (n : Ns) (s : State) :
    (admitRead w n s).outside parts = s.outside parts := by simp [admitRead, hl]

@[simp] theorem admitSlots_outside (hl : .hep ∈ parts ∧ .hqe ∈ parts ∧ .ing ∈ parts ∧ .med ∈ parts ∧ .far ∈ parts)
    (c : Cmd) (s : State) : (admitSlots c s).outside parts = s.outside parts := by simp [admitSlots, hl]

@[simp] theorem admitWrite_outside (hl : .hep ∈ parts ∧ .hqe ∈ parts ∧ .ing ∈ parts ∧ .med ∈ parts ∧ .far ∈ parts
    ∧ .evr ∈ parts)
    (w : Waiter) (s : State) :
    (admitWrite w s).outside parts = s.outside parts := by
  simp only [admitWrite]
  split
  · split
    · simp [hl]
    · split
      · next h => simp [settleCreate_outside (parts := parts) (by simp [hl]) h, hl]
      · simp [hl]
  · simp [hl]

@[simp] theorem admitIo_outside (hl : .hep ∈ parts ∧ .hqe ∈ parts ∧ .ing ∈ parts ∧ .bal ∈ parts ∧ .med ∈ parts
    ∧ .far ∈ parts ∧ .rdm ∈ parts ∧ .evr ∈ parts) (w : Waiter) (s : State) :
    (admitIo w s).outside parts = s.outside parts := by
  unfold admitIo; split <;> simp [hl]

@[simp] theorem routeIo_outside (hl : .hep ∈ parts ∧ .hqe ∈ parts ∧ .ing ∈ parts ∧ .bal ∈ parts ∧ .med ∈ parts
    ∧ .far ∈ parts ∧ .rdm ∈ parts ∧ .evr ∈ parts) (w : Waiter) (s : State) :
    (routeIo w s).outside parts = s.outside parts := by
  unfold routeIo; (repeat' split) <;> simp [hl]

@[simp] theorem releaseTags_outside (hl : .hqe ∈ parts) (tenant : Option Nat) (tags : List Word64) (s : State) :
    (releaseTags tenant tags s).outside parts = s.outside parts := by
  unfold releaseTags; split <;> simp [hl]

@[simp] theorem answerQuery_outside (hl : .hep ∈ parts ∧ .hqe ∈ parts) (id : Nat) (s : State) :
    (answerQuery id s).outside parts = s.outside parts := by
  unfold answerQuery; (repeat' split) <;> simp [hl]

@[simp] theorem admitQuery_outside (hl : .hep ∈ parts ∧ .hqe ∈ parts) (w : Waiter) (s : State) :
    (admitQuery w s).outside parts = s.outside parts := by simp [admitQuery, hl]

@[simp] theorem admitWaiter_outside (hl : .hep ∈ parts ∧ .hqe ∈ parts ∧ .ing ∈ parts ∧ .bal ∈ parts ∧ .med ∈ parts
    ∧ .far ∈ parts ∧ .rdm ∈ parts ∧ .evr ∈ parts) (w : Waiter) (s : State) :
    (admitWaiter w s).outside parts = s.outside parts := by simp [admitWaiter, hl]

@[simp] theorem wakeBehind_outside (hl : .hep ∈ parts ∧ .hqe ∈ parts ∧ .ing ∈ parts ∧ .bal ∈ parts ∧ .med ∈ parts
    ∧ .far ∈ parts ∧ .rdm ∈ parts ∧ .evr ∈ parts) (s : State) :
    (wakeBehind s).outside parts = s.outside parts := by simp [wakeBehind, hl]

@[simp] theorem retryTags_outside (hl : .hep ∈ parts ∧ .hqe ∈ parts ∧ .ing ∈ parts ∧ .med ∈ parts ∧ .far ∈ parts ∧ .evr ∈ parts)
    (s : State) :
    (retryTags s).outside parts = s.outside parts := by
  refine forEach_outside (fun c t => ?_) _ _
  split
  · dsimp only
    split
    · next h => simp [settleCreate_outside (parts := parts) (by simp [hl]) h, hl]
    · rfl
  · rfl

@[simp] theorem readmit_outside (hl : .hep ∈ parts ∧ .hqe ∈ parts ∧ .ing ∈ parts ∧ .bal ∈ parts ∧ .med ∈ parts
    ∧ .far ∈ parts ∧ .rdm ∈ parts ∧ .evr ∈ parts) (s : State) :
    (readmit s).outside parts = s.outside parts := by simp [readmit, hl]

@[simp] theorem dropJobs_outside (hl : .bal ∈ parts ∧ .med ∈ parts) (id : Nat) (s : State) :
    (dropJobs id s).outside parts = s.outside parts := by simp [dropJobs, hl]

@[simp] theorem settleOne_outside (hl : .clk ∈ parts ∧ .hep ∈ parts ∧ .hqe ∈ parts ∧ .ing ∈ parts ∧ .bal ∈ parts
    ∧ .med ∈ parts ∧ .rdm ∈ parts) (id : Nat) (s : State) : (settleOne id s).outside parts = s.outside parts := by
  simp only [settleOne]; (repeat' split) <;> simp [hl]

@[simp] theorem settleQueues_outside (hl : .clk ∈ parts ∧ .hep ∈ parts ∧ .hqe ∈ parts ∧ .ing ∈ parts ∧ .bal ∈ parts
    ∧ .med ∈ parts ∧ .rdm ∈ parts ∧ .evr ∈ parts) (p : Qp → Bool) (s : State) :
    (settleQueues p s).outside parts = s.outside parts := by simp [settleQueues, hl]

/-! ### Machine/Drc.lean -/

@[simp] theorem modQueue_outside (hl : .drc ∈ parts) (k : Nat) (f : DramQ → DramQ) (s : State) :
    (modQueue k f s).outside parts = s.outside parts := by simp [modQueue, hl]

@[simp] theorem precharge_outside (hl : .drc ∈ parts) (k b : Nat) (s : State) :
    (precharge k b s).outside parts = s.outside parts := by
  simp only [precharge]; split <;> simp [hl]

@[simp] theorem prechargeAll_outside (hl : .drc ∈ parts) (c : Nat) (p : Nat → Bool) (s : State) :
    (prechargeAll c p s).outside parts = s.outside parts :=
  forEach_outside (fun _ t => forEach_outside (fun _ _ => precharge_outside hl ..) _ t) _ s

@[simp] theorem drawDrfm_outside (hl : .drc ∈ parts) (c : Nat) (s : State) :
    (drawDrfm c s).2.outside parts = s.outside parts := by
  unfold drawDrfm; split <;> simp [hl]

@[simp] theorem activate_outside (hl : .drc ∈ parts) (k b r : Nat) (s : State) :
    (activate k b r s).outside parts = s.outside parts := by simp [activate, hl]

@[simp] theorem correctLine_outside (hl : .drc ∈ parts ∧ .evr ∈ parts) (k line : Nat) (s : State) :
    (correctLine k line s).outside parts = s.outside parts := by simp [correctLine, hl]

@[simp] theorem countUe_outside (hl : .drc ∈ parts) (s : State) : (countUe s).outside parts = s.outside parts := by
  simp [countUe, hl]

@[simp] theorem loseCommand_outside (hl : .hep ∈ parts ∧ .hqe ∈ parts ∧ .ing ∈ parts) (id : Nat) (s : State) :
    (loseCommand id s).outside parts = s.outside parts := by
  unfold loseCommand; (repeat' split) <;> simp [hl]

@[simp] theorem loseBlock_outside (hl : .hqe ∈ parts ∧ .freeCtr ∈ parts) (id b : Nat) (s : State) :
    (loseBlock id b s).outside parts = s.outside parts := by
  unfold loseBlock; split <;> simp [hl]

@[simp] theorem dataLost_outside (hl : .hep ∈ parts ∧ .hqe ∈ parts ∧ .ing ∈ parts ∧ .evr ∈ parts ∧ .freeCtr ∈ parts)
    (r : DramReq) (s : State) : (dataLost r s).outside parts = s.outside parts := by
  simp only [dataLost]; (repeat' split) <;> simp [hl]

@[simp] theorem stagedLost_outside (hl : .hep ∈ parts ∧ .hqe ∈ parts ∧ .ing ∈ parts ∧ .evr ∈ parts ∧ .freeCtr ∈ parts)
    (r : DramReq) (n : Nat) (s : State) : (stagedLost r n s).outside parts = s.outside parts := by
  unfold stagedLost; split <;> simp [hl]

@[simp] theorem copyLost_outside (hl : .hep ∈ parts ∧ .hqe ∈ parts ∧ .ing ∈ parts ∧ .evr ∈ parts ∧ .freeCtr ∈ parts)
    (r : DramReq) (k : Nat × Nat × Word16) (s : State) :
    (copyLost r k s).outside parts = s.outside parts := by simp [copyLost, hl]

@[simp] theorem deliverLine_outside (hl : .hep ∈ parts ∧ .hqe ∈ parts ∧ .ing ∈ parts ∧ .drc ∈ parts ∧ .evr ∈ parts
    ∧ .freeCtr ∈ parts) (k : Nat) (r : DramReq) (s : State) : (deliverLine k r s).outside parts = s.outside parts := by
  unfold deliverLine; (repeat' split) <;> simp [hl]

@[simp] theorem storeLine_outside (hl : .drc ∈ parts ∧ .dram ∈ parts) (r : DramReq) (s : State) :
    (storeLine r s).outside parts = s.outside parts := by simp [storeLine, hl]

@[simp] theorem issueOne_outside (hl : .hep ∈ parts ∧ .hqe ∈ parts ∧ .ing ∈ parts ∧ .drc ∈ parts ∧ .evr ∈ parts
    ∧ .dram ∈ parts ∧ .freeCtr ∈ parts) (k : Nat) (r : DramReq) (s : State) :
    (issueOne k r s).outside parts = s.outside parts := by simp [issueOne, hl]

@[simp] theorem serveQueue_outside (hl : .hep ∈ parts ∧ .hqe ∈ parts ∧ .ing ∈ parts ∧ .drc ∈ parts ∧ .evr ∈ parts
    ∧ .dram ∈ parts
    ∧ .freeCtr ∈ parts) (k low n : Nat) (s : State) : (serveQueue k low n s).outside parts = s.outside parts := by
  induction n generalizing s with
  | zero => rfl
  | succ n ih =>
    simp only [serveQueue]
    split <;> simp [ih, hl]

@[simp] theorem noteHot_outside (hl : .drc ∈ parts ∧ .evr ∈ parts) (c : Nat) (t : Int) (s : State) :
    (noteHot c t s).outside parts = s.outside parts := by simp [noteHot, hl]

@[simp] theorem enterSelfRefresh_outside (hl : .hep ∈ parts ∧ .hqe ∈ parts ∧ .ing ∈ parts ∧ .drc ∈ parts ∧ .evr ∈ parts
    ∧ .dram ∈ parts ∧ .freeCtr ∈ parts) (s : State) :
    (enterSelfRefresh s).outside parts = s.outside parts := by simp [enterSelfRefresh, hl]

@[simp] theorem leaveSelfRefresh_outside (hl : .drc ∈ parts) (s : State) :
    (leaveSelfRefresh s).outside parts = s.outside parts := by simp [leaveSelfRefresh, hl]

/-! ### Machine/HqeQueues.lean -/

@[simp] theorem noteClk_outside (hl : .evr ∈ parts) (before s : State) :
    (noteClk before s).outside parts = s.outside parts := by simp [noteClk, hl]

@[simp] theorem wake_outside (hl : .clk ∈ parts ∧ .drc ∈ parts ∧ .evr ∈ parts) (s : State) :
    (wake s).outside parts = s.outside parts := by simp [wake, hl]

/-! ### Machine/Keys.lean -/

@[simp] theorem persistSlot_outside (hl : .sec ∈ parts) (n : Nat) (s : State) :
    (persistSlot n s).outside parts = s.outside parts := by
  unfold persistSlot; (repeat' split) <;> simp [hl]

@[simp] theorem setSlot_outside (hl : .sec ∈ parts) (n : Nat) (k : Slot) (s : State) :
    (setSlot n k s).outside parts = s.outside parts := by simp [setSlot, hl]

@[simp] theorem syncSlot_outside (n : Nat) (s : State) : (syncSlot n s).outside parts = s.outside parts := by
  simp [syncSlot]

@[simp] theorem writeSlot_outside (hl : .sec ∈ parts) (n : Nat) (k : Slot) (s : State) :
    (writeSlot n k s).outside parts = s.outside parts := by simp [writeSlot, hl]

@[simp] theorem drbgUse_outside (hl : .sec ∈ parts) (n : Nat) (s : State) : (drbgUse n s).outside parts = s.outside parts := by
  simp [drbgUse, hl]

/-! ### Machine/HqeAdmin.lean -/

@[simp] theorem applyPace_outside (hl : .clk ∈ parts ∧ .ing ∈ parts ∧ .evr ∈ parts) (p : Pace) (s : State) :
    (applyPace p s).outside parts = s.outside parts := by simp [applyPace, hl]

@[simp] theorem dropRef_outside (hl : .ing ∈ parts ∧ .med ∈ parts) (no : Nat) (s : State) :
    (dropRef no s).outside parts = s.outside parts := by simp [dropRef, hl]

@[simp] theorem dropEntries_outside (hl : .ing ∈ parts ∧ .med ∈ parts) (l : List MapEntry) (s : State) :
    (dropEntries l s).outside parts = s.outside parts := by simp [dropEntries, hl]

/-! ### Machine/Ingest.lean -/

@[simp] theorem modEnt_outside (hl : .med ∈ parts) (no : Nat) (f : ChunkEnt → ChunkEnt) (s : State) :
    (modEnt no f s).outside parts = s.outside parts := by simp [modEnt, hl]

@[simp] theorem raiseRef_outside (hl : .med ∈ parts) (no k : Nat) (s : State) :
    (raiseRef no k s).outside parts = s.outside parts := by simp [raiseRef, hl]

@[simp] theorem dropRefs_outside (hl : .ing ∈ parts ∧ .med ∈ parts) (no k : Nat) (s : State) :
    (dropRefs no k s).outside parts = s.outside parts := by
  induction k generalizing s with
  | zero => rfl
  | succ k ih => simp [dropRefs, ih, hl]

@[simp] theorem dropRunRefs_outside (hl : .ing ∈ parts ∧ .med ∈ parts) (id : Nat) (s : State) :
    (dropRunRefs id s).outside parts = s.outside parts := by simp [dropRunRefs, hl]

/-! ### Machine/Roots.lean -/

@[simp] theorem rootPage_outside (hl : .med ∈ parts ∧ .far ∈ parts) (n b page : Nat) (d : Bytes) (s : State) :
    (rootPage n b page d s).outside parts = s.outside parts := by simp [rootPage, hl]

@[simp] theorem rootTo_outside (hl : .med ∈ parts ∧ .far ∈ parts ∧ .til ∈ parts) (names turn : Bool) (n : Nat) (s : State) :
    (rootTo names turn n s).outside parts = s.outside parts := by simp [rootTo, hl]

@[simp] theorem writeRoots_outside (hl : .med ∈ parts ∧ .far ∈ parts ∧ .til ∈ parts) (s : State) :
    (writeRoots s).outside parts = s.outside parts := by simp [writeRoots, hl]

/-! ### Machine/ReadPath.lean -/

theorem takeSerial_outside (hl : .sec ∈ parts) {s : State} {p : Bytes × State} (h : takeSerial s = some p) :
    p.2.outside parts = s.outside parts := by
  unfold takeSerial at h
  split at h <;> simp at h
  simp [← h, hl]

@[simp] theorem wantSerials_outside (hl : .sec ∈ parts ∧ .med ∈ parts ∧ .far ∈ parts ∧ .til ∈ parts) (s : State) :
    (wantSerials s).outside parts = s.outside parts := by simp [wantSerials, hl]

/-! ### Machine/Media.lean -/

@[simp] theorem freshPage_outside (hl : .med ∈ parts) (nsid level page : Nat) (s : State) :
    (freshPage nsid level page s).outside parts = s.outside parts := by simp [freshPage, hl]

@[simp] theorem accumulate_outside (hl : .med ∈ parts) (m : Member) (page : Nat) (d : Bytes) (s : State) :
    (accumulate m page d s).outside parts = s.outside parts := by simp [accumulate, hl]

@[simp] theorem programMember_outside (hl : .med ∈ parts ∧ .far ∈ parts) (g : Seg) (k : Nat) (strip : Bytes) (m : Member)
    (s : State) : (programMember g k strip m s).outside parts = s.outside parts := by simp [programMember, hl]

@[simp] theorem closeStripe_outside (hl : .med ∈ parts ∧ .far ∈ parts) (t : Stripe) (s : State) :
    (closeStripe t s).outside parts = s.outside parts := by
  unfold closeStripe; split <;> simp [hl]

@[simp] theorem stripeFor_outside (hl : .med ∈ parts ∧ .far ∈ parts) (x : StreamId) (n : Nat) (s : State) :
    (stripeFor x n s).2.outside parts = s.outside parts := by
  simp only [stripeFor]; (repeat' split) <;> simp [hl]

@[simp] theorem appendTo_outside (hl : .med ∈ parts) (mark n : Nat) (t : Stripe) (s : State) :
    (appendTo mark n t s).outside parts = s.outside parts := by simp [appendTo, hl]

@[simp] theorem loseObjects_outside (hl : .med ∈ parts ∧ .til ∈ parts) (p : Nat → Nat → Bool) (s : State) :
    (loseObjects p s).outside parts = s.outside parts := by simp [loseObjects, hl]

@[simp] theorem placeObj_outside (hl : .med ∈ parts ∧ .far ∈ parts) (x : StreamId) (o : ObjRec) (s : State) :
    (placeObj x o s).2.outside parts = s.outside parts := by
  simp only [placeObj]; split <;> simp [hl]

@[simp] theorem writeNode_outside (hl : .sec ∈ parts ∧ .med ∈ parts ∧ .far ∈ parts ∧ .til ∈ parts) (nsid level page obj : Nat)
    (body : Bytes) (s : State) : (writeNode nsid level page obj body s).2.outside parts = s.outside parts := by
  unfold writeNode
  split
  · simp [hl]
  · next h => simp [takeSerial_outside hl.1 h, hl]

@[simp] theorem newObject_outside (hl : .sec ∈ parts ∧ .med ∈ parts ∧ .far ∈ parts ∧ .til ∈ parts) (key page : Nat)
    (keep : Nat → Bool) (body : Bytes) (s : State) :
    (newObject key page keep body s).2.outside parts = s.outside parts := by simp [newObject, hl]

@[simp] theorem listScans_outside (hl : .med ∈ parts) (s : State) : (listScans s).outside parts = s.outside parts := by
  simp [listScans, hl]

/-! ### Machine/Resets.lean -/

@[simp] theorem restat_outside (hl : .pins ∈ parts) (s : State) : (restat s).outside parts = s.outside parts := by
  simp [restat, hl]

@[simp] theorem setService_outside (hl : .glb ∈ parts ∧ .pins ∈ parts) (v : Service) (s : State) :
    (setService v s).outside parts = s.outside parts := by simp [setService, hl]

@[simp] theorem lowerTag_outside (hl : .hqe ∈ parts) (t : Nat) (g : Word64) (k : Nat) (s : State) :
    (lowerTag t g k s).outside parts = s.outside parts := by simp [lowerTag, hl]

@[simp] theorem loseBlocks_outside (hl : .hqe ∈ parts ∧ .evr ∈ parts) (l : List MirEntry) (s : State) :
    (loseBlocks l s).outside parts = s.outside parts := by simp [loseBlocks, hl]

@[simp] theorem keepRecord_outside (hl : .plf ∈ parts) (r : FlushRec) (s : State) :
    (keepRecord r s).outside parts = s.outside parts := by simp [keepRecord, hl]

@[simp] theorem stopFlush_outside (hl : .pins ∈ parts ∧ .plf ∈ parts ∧ .freeCtr ∈ parts) (s : State) :
    (stopFlush s).outside parts = s.outside parts := by
  unfold stopFlush; split <;> simp [hl]

@[simp] theorem rebuildMaps_outside (hl : .ing ∈ parts ∧ .med ∈ parts) (j : List MapEntry) (s : State) :
    (rebuildMaps j s).outside parts = s.outside parts := by simp [rebuildMaps, hl]

@[simp] theorem dropBatchRefs_outside (hl : .ing ∈ parts ∧ .med ∈ parts) (b : Batch) (s : State) :
    (dropBatchRefs b s).outside parts = s.outside parts := by simp [dropBatchRefs, hl]

@[simp] theorem dropVolatileRefs_outside (hl : .ing ∈ parts ∧ .med ∈ parts) (s : State) :
    (dropVolatileRefs s).outside parts = s.outside parts := by
  have hsessions := fun (xs : List Sess) (u : State) => forEach_outside (parts := parts)
    (f := fun x u => forEach x.batches dropBatchRefs u)
    (fun x u => forEach_outside (dropBatchRefs_outside hl) x.batches u) xs u
  simp [dropVolatileRefs, hsessions, hl]

/-! ### Machine/Flush.lean -/

@[simp] theorem noteBudget_outside (hl : .plf ∈ parts) (s : State) : (noteBudget s).outside parts = s.outside parts := by
  simp [noteBudget, hl]

@[simp] theorem lowerOffer_outside (hl : .pins ∈ parts ∧ .ing ∈ parts ∧ .evr ∈ parts) (s : State) :
    (lowerOffer s).outside parts = s.outside parts := by simp [lowerOffer, hl]

@[simp] theorem sendLimit_outside (l : Option Nat) (s : State) : (sendLimit l s).outside parts = s.outside parts := by
  simp [sendLimit]

@[simp] theorem setLimit_outside (hl : .ing ∈ parts) (l : Option Nat) (s : State) :
    (setLimit l s).outside parts = s.outside parts := by simp [setLimit, hl]

@[simp] theorem adjustLimit_outside (hl : .ing ∈ parts ∧ .evr ∈ parts) (s : State) :
    (adjustLimit s).outside parts = s.outside parts := by simp [adjustLimit, hl]

@[simp] theorem holdupEffect_outside (hl : .pins ∈ parts ∧ .ing ∈ parts ∧ .plf ∈ parts ∧ .evr ∈ parts) (s : State) :
    (holdupEffect s).outside parts = s.outside parts := by simp [holdupEffect, hl]

@[simp] theorem abandonErases_outside (hl : .med ∈ parts ∧ .far ∈ parts) (s : State) :
    (abandonErases s).outside parts = s.outside parts := by simp [abandonErases, hl]

@[simp] theorem beginFlush_outside (hl : .pins ∈ parts ∧ .med ∈ parts ∧ .plf ∈ parts ∧ .far ∈ parts ∧ .peer ∈ parts)
    (s : State) : (beginFlush s).outside parts = s.outside parts := by simp [beginFlush, hl]

@[simp] theorem powerLoss_outside (hl : .pins ∈ parts ∧ .nvc ∈ parts ∧ .med ∈ parts ∧ .plf ∈ parts ∧ .far ∈ parts
    ∧ .peer ∈ parts ∧ .drc ∈ parts ∧ .evr ∈ parts ∧ .freeCtr ∈ parts) (s : State) :
    (powerLoss s).outside parts = s.outside parts := by
  unfold powerLoss; split <;> simp [hl]

@[simp] theorem pwrFailEffect_outside (hl : .pins ∈ parts ∧ .nvc ∈ parts ∧ .med ∈ parts ∧ .plf ∈ parts ∧ .far ∈ parts
    ∧ .peer ∈ parts ∧ .drc ∈ parts ∧ .evr ∈ parts ∧ .freeCtr ∈ parts) (lowNs : Nat) (s : State) :
    (pwrFailEffect lowNs s).outside parts = s.outside parts := by simp [pwrFailEffect, hl]

@[simp] theorem modFlush_outside (hl : .plf ∈ parts) (f : Flush → Flush) (s : State) :
    (modFlush f s).outside parts = s.outside parts := by simp [modFlush, hl]

@[simp] theorem quiesceEffect_outside (hl : .clk ∈ parts ∧ .hep ∈ parts ∧ .hqe ∈ parts ∧ .ing ∈ parts ∧ .bal ∈ parts
    ∧ .med ∈ parts ∧ .plf ∈ parts ∧ .rdm ∈ parts ∧ .drc ∈ parts ∧ .evr ∈ parts) (s : State) :
    (quiesceEffect s).outside parts = s.outside parts := by
  unfold quiesceEffect; split <;> simp [hl]

@[simp] theorem classDoneEffect_outside (hl : .plf ∈ parts) (s : State) :
    (classDoneEffect s).outside parts = s.outside parts := by
  unfold classDoneEffect; split <;> simp [hl]

@[simp] theorem pwrReturnEffect_outside (hl : .pins ∈ parts ∧ .plf ∈ parts ∧ .drc ∈ parts) (s : State) :
    (pwrReturnEffect s).outside parts = s.outside parts := by simp [pwrReturnEffect, hl]

@[simp] theorem replayLog_outside (hl : .hqe ∈ parts ∧ .til ∈ parts) (s : State) :
    (replayLog s).outside parts = s.outside parts := by
  simp only [replayLog]; split <;> simp [hl]

@[simp] theorem notePlf_outside (hl : .plf ∈ parts) (s : State) : (notePlf s).outside parts = s.outside parts := by
  unfold notePlf; split <;> simp [hl]

@[simp] theorem replayLost_outside (hl : .hqe ∈ parts ∧ .evr ∈ parts) (s : State) :
    (replayLost s).outside parts = s.outside parts := by simp [replayLost, hl]

@[simp] theorem restage_outside (hl : .hqe ∈ parts ∧ .ing ∈ parts) (m : MirEntry) (s : State) :
    (restage m s).outside parts = s.outside parts := by
  unfold restage; (repeat' split) <;> simp [hl]

@[simp] theorem replayMaps_outside (hl : .ing ∈ parts ∧ .med ∈ parts) (s : State) :
    (replayMaps s).outside parts = s.outside parts := by
  unfold replayMaps; split <;> simp [hl]

@[simp] theorem flushReplayEffect_outside (hl : .hep ∈ parts ∧ .hqe ∈ parts ∧ .ing ∈ parts ∧ .bal ∈ parts ∧ .med ∈ parts
    ∧ .plf ∈ parts ∧ .far ∈ parts ∧ .til ∈ parts ∧ .rdm ∈ parts ∧ .evr ∈ parts) (s : State) :
    (flushReplayEffect s).outside parts = s.outside parts := by simp [flushReplayEffect, hl]

/-! ### Machine/Roles.lean -/

@[simp] theorem noteAlive_outside (hl : .peer ∈ parts) (s : State) : (noteAlive s).outside parts = s.outside parts := by
  simp [noteAlive, hl]

@[simp] theorem chainSend_outside (type : Nat) (args : List Nat) (s : State) :
    (chainSend type args s).outside parts = s.outside parts := by simp [chainSend]

@[simp] theorem tellEpoch_outside (s : State) : (tellEpoch s).outside parts = s.outside parts := by simp [tellEpoch]

@[simp] theorem setRole_outside (hl : .pins ∈ parts ∧ .med ∈ parts ∧ .far ∈ parts ∧ .til ∈ parts ∧ .peer ∈ parts)
    (r : Role) (cause : Nat) (s : State) : (setRole r cause s).outside parts = s.outside parts := by simp [setRole, hl]

@[simp] theorem letLanesGo_outside (hl : .med ∈ parts ∧ .far ∈ parts) (s : State) :
    (letLanesGo s).outside parts = s.outside parts := by simp [letLanesGo, hl]

@[simp] theorem dropPending_outside (hl : .hep ∈ parts ∧ .hqe ∈ parts ∧ .snp ∈ parts ∧ .evr ∈ parts) (s : State) :
    (dropPending s).outside parts = s.outside parts := by simp [dropPending, hl]

@[simp] theorem letGo_outside (hl : .hep ∈ parts ∧ .hqe ∈ parts ∧ .ing ∈ parts ∧ .bal ∈ parts ∧ .med ∈ parts) (id : Nat)
    (s : State) : (letGo id s).outside parts = s.outside parts := by
  unfold letGo; split <;> simp [hl]

@[simp] theorem letWorkGo_outside (hl : .hep ∈ parts ∧ .hqe ∈ parts ∧ .ing ∈ parts ∧ .bal ∈ parts ∧ .med ∈ parts
    ∧ .far ∈ parts ∧ .par ∈ parts ∧ .til ∈ parts ∧ .snp ∈ parts ∧ .evr ∈ parts) (s : State) :
    (letWorkGo s).outside parts = s.outside parts := by simp [letWorkGo, hl]

@[simp] theorem enterService_outside (hl : .pins ∈ parts ∧ .hep ∈ parts ∧ .hqe ∈ parts ∧ .ing ∈ parts ∧ .bal ∈ parts
    ∧ .med ∈ parts ∧ .far ∈ parts ∧ .par ∈ parts ∧ .til ∈ parts ∧ .snp ∈ parts ∧ .peer ∈ parts ∧ .rdm ∈ parts
    ∧ .evr ∈ parts) (cause : Nat) (s : State) :
    (enterService cause s).outside parts = s.outside parts := by simp [enterService, hl]

/-! ### Machine/Jobs.lean -/

@[simp] theorem modJobOf_outside (hl : .par ∈ parts) (id : Nat) (f : Job → Job) (s : State) :
    (modJobOf id f s).outside parts = s.outside parts := by simp [modJobOf, hl]

@[simp] theorem writeCkpt_outside (hl : .sec ∈ parts ∧ .med ∈ parts ∧ .far ∈ parts ∧ .par ∈ parts ∧ .til ∈ parts)
    (id : Nat) (s : State) : (writeCkpt id s).outside parts = s.outside parts := by
  unfold writeCkpt; split <;> simp [hl]

@[simp] theorem addTask_outside (hl : .sec ∈ parts ∧ .med ∈ parts ∧ .far ∈ parts ∧ .par ∈ parts ∧ .til ∈ parts) (j : Job)
    (s : State) : (addTask j s).outside parts = s.outside parts := by simp [addTask, hl]

/-! ### Machine/Farium.lean -/

@[simp] theorem sendClaim_outside (hl : .med ∈ parts ∧ .far ∈ parts) (n v : Nat) (s : State) :
    (sendClaim n v s).outside parts = s.outside parts := by simp [sendClaim, hl]

@[simp] theorem takeModule_outside (hl : .med ∈ parts ∧ .far ∈ parts) (n : Nat) (s : State) :
    (takeModule n s).outside parts = s.outside parts := by simp [takeModule, hl]

@[simp] theorem placeModule_outside (hl : .med ∈ parts ∧ .far ∈ parts) (n owner : Nat) (s : State) :
    (placeModule n owner s).outside parts = s.outside parts := by simp [placeModule, hl]

@[simp] theorem claimIdentified_outside (hl : .med ∈ parts ∧ .far ∈ parts) (s : State) :
    (claimIdentified s).outside parts = s.outside parts := by simp [claimIdentified, hl]

@[simp] theorem claimPeerHeld_outside (hl : .med ∈ parts ∧ .far ∈ parts) (s : State) :
    (claimPeerHeld s).outside parts = s.outside parts := by simp [claimPeerHeld, hl]

/-! ### Machine/Parity.lean -/

@[simp] theorem resumeTask_outside (hl : .sec ∈ parts ∧ .med ∈ parts ∧ .far ∈ parts ∧ .par ∈ parts ∧ .til ∈ parts)
    (c : JobCkpt) (s : State) : (resumeTask c s).outside parts = s.outside parts := by simp [resumeTask, hl]

/-! ### Machine/Peer.lean -/

@[simp] theorem toPeerTagged_outside (type : Nat) (args : List Nat) (data : Bytes) (s : State) :
    (toPeerTagged type args data s).outside parts = s.outside parts := by simp [toPeerTagged]

@[simp] theorem stepDown_outside (hl : .pins ∈ parts ∧ .hep ∈ parts ∧ .hqe ∈ parts ∧ .ing ∈ parts ∧ .bal ∈ parts
    ∧ .med ∈ parts ∧ .far ∈ parts ∧ .par ∈ parts ∧ .til ∈ parts ∧ .snp ∈ parts ∧ .peer ∈ parts ∧ .rdm ∈ parts
    ∧ .evr ∈ parts) (cause : Nat) (s : State) : (stepDown cause s).outside parts = s.outside parts := by simp [stepDown, hl]

@[simp] theorem startRole_outside (hl : .pins ∈ parts ∧ .med ∈ parts ∧ .far ∈ parts ∧ .til ∈ parts ∧ .peer ∈ parts)
    (r : Role) (e : Word16) (s : State) : (startRole r e s).outside parts = s.outside parts := by
  unfold startRole; split <;> simp [hl]

@[simp] theorem sendHello_outside (s : State) : (sendHello s).outside parts = s.outside parts := by simp [sendHello]

@[simp] theorem askReturn_outside (hl : .pair ∈ parts) (s : State) : (askReturn s).outside parts = s.outside parts := by
  simp [askReturn, hl]

@[simp] theorem chooseRole_outside (hl : .pins ∈ parts ∧ .med ∈ parts ∧ .far ∈ parts ∧ .til ∈ parts ∧ .peer ∈ parts
    ∧ .pair ∈ parts ∧ .evr ∈ parts) (e : Word16) (s : State) :
    (chooseRole e s).outside parts = s.outside parts := by simp [chooseRole, hl]

@[simp] theorem modPair_outside (hl : .peer ∈ parts) (n : Nat) (f : CtrlPair → CtrlPair) (s : State) :
    (modPair n f s).outside parts = s.outside parts := by simp [modPair, hl]

@[simp] theorem handOver_outside (hl : .pins ∈ parts ∧ .hep ∈ parts ∧ .hqe ∈ parts ∧ .ing ∈ parts ∧ .bal ∈ parts
    ∧ .med ∈ parts ∧ .far ∈ parts ∧ .par ∈ parts ∧ .til ∈ parts ∧ .snp ∈ parts ∧ .peer ∈ parts ∧ .pair ∈ parts
    ∧ .rdm ∈ parts ∧ .evr ∈ parts) (s : State) : (handOver s).outside parts = s.outside parts := by simp [handOver, hl]

@[simp] theorem pairHeld_outside (hl : .par ∈ parts ∧ .svc ∈ parts) (n : Nat) (s : State) :
    (pairHeld n s).outside parts = s.outside parts := by simp [pairHeld, hl]

@[simp] theorem pairOneBack_outside (hl : .pins ∈ parts ∧ .med ∈ parts ∧ .far ∈ parts ∧ .til ∈ parts ∧ .peer ∈ parts
    ∧ .pair ∈ parts ∧ .evr ∈ parts) (s : State) :
    (pairOneBack s).outside parts = s.outside parts := by simp [pairOneBack, hl]

@[simp] theorem restartEffect_outside (hl : .pins ∈ parts ∧ .hep ∈ parts ∧ .hqe ∈ parts ∧ .ing ∈ parts ∧ .bal ∈ parts
    ∧ .med ∈ parts ∧ .far ∈ parts ∧ .par ∈ parts ∧ .til ∈ parts ∧ .snp ∈ parts ∧ .peer ∈ parts ∧ .pair ∈ parts
    ∧ .rdm ∈ parts ∧ .evr ∈ parts) (n : Nat) (s : State) :
    (restartEffect n s).outside parts = s.outside parts := by simp [restartEffect, hl]

@[simp] theorem wdogWriteEffect_outside (hl : .peer ∈ parts) (v : Word32) (s : State) :
    (wdogWriteEffect v s).outside parts = s.outside parts := by simp [wdogWriteEffect, hl]

/-! ### Machine/Chain.lean -/

@[simp] theorem takeAddress_outside (hl : .mch ∈ parts) (a : Byte) (s : State) :
    (takeAddress a s).outside parts = s.outside parts := by simp [takeAddress, hl]

@[simp] theorem sendEnum_outside (hl : .mch ∈ parts) (s : State) : (sendEnum s).outside parts = s.outside parts := by
  simp [sendEnum, hl]

@[simp] theorem startEnum_outside (hl : .mch ∈ parts) (s : State) : (startEnum s).outside parts = s.outside parts := by
  simp [startEnum, hl]

@[simp] theorem sendJoin_outside (s : State) : (sendJoin s).outside parts = s.outside parts := by simp [sendJoin]

@[simp] theorem beginJoin_outside (hl : .mch ∈ parts) (s : State) : (beginJoin s).outside parts = s.outside parts := by
  simp [beginJoin, hl]

/-! ### Machine/Rng.lean -/

@[simp] theorem eraseKeys_outside (hl : .sec ∈ parts ∧ .drc ∈ parts) (s : State) :
    (eraseKeys s).outside parts = s.outside parts := by simp [eraseKeys, hl]

@[simp] theorem latchAlarm_outside (hl : .wch ∈ parts) (a : Alarm) (s : State) :
    (latchAlarm a s).outside parts = s.outside parts := by simp [latchAlarm, hl]

@[simp] theorem alarm_outside (hl : .wch ∈ parts ∧ .sec ∈ parts ∧ .drc ∈ parts ∧ .evr ∈ parts) (a : Alarm) (s : State) :
    (alarm a s).outside parts = s.outside parts := by simp [alarm, hl]

@[simp] theorem vwatchLostEffect_outside (hl : .wch ∈ parts) (s : State) :
    (vwatchLostEffect s).outside parts = s.outside parts := by simp [vwatchLostEffect, hl]

/-! ### Machine/Images.lean -/

@[simp] theorem writeHeader_outside (hl : .nor ∈ parts) (second : Bool) (h : BootHeader) (s : State) :
    (writeHeader second h s).outside parts = s.outside parts := by simp [writeHeader, hl]

@[simp] theorem measExtend_outside (hl : .sec ∈ parts) (n : Nat) (data : Bytes) (s : State) :
    (measExtend n data s).outside parts = s.outside parts := by simp [measExtend, hl]

/-! ### Machine/Settings.lean -/

@[simp] theorem noteIgnored_outside (hl : .glb ∈ parts ∧ .evr ∈ parts) (tag : Nat) (s : State) :
    (noteIgnored tag s).outside parts = s.outside parts := by simp [noteIgnored, hl]

@[simp] theorem noteDefaulted_outside (hl : .glb ∈ parts ∧ .evr ∈ parts) (tag : Nat) (s : State) :
    (noteDefaulted tag s).outside parts = s.outside parts := by simp [noteDefaulted, hl]

@[simp] theorem judgeTag_outside (hl : .glb ∈ parts ∧ .evr ∈ parts) (l : List ProfRec) (tag : Nat) (s : State) :
    (judgeTag l tag s).outside parts = s.outside parts := by
  unfold judgeTag; split <;> simp [hl]

@[simp] theorem judgeUsed_outside (hl : .glb ∈ parts ∧ .evr ∈ parts) (tag : Nat) (s : State) :
    (judgeUsed tag s).outside parts = s.outside parts := by simp [judgeUsed, hl]

@[simp] theorem judgeUnknown_outside (hl : .glb ∈ parts ∧ .evr ∈ parts) (s : State) :
    (judgeUnknown s).outside parts = s.outside parts := by simp [judgeUnknown, hl]

@[simp] theorem earlySettings_outside (hl : .pins ∈ parts ∧ .hep ∈ parts) (l : List ProfRec) (s : State) :
    (earlySettings l s).outside parts = s.outside parts := by simp [earlySettings, hl]

@[simp] theorem applyFirst_outside (hl : .pins ∈ parts ∧ .clk ∈ parts ∧ .cache ∈ parts ∧ .ing ∈ parts ∧ .rdm ∈ parts
    ∧ .evr ∈ parts) (l : List ProfRec) (s : State) : (applyFirst l s).outside parts = s.outside parts := by
  simp only [applyFirst]; (repeat' split) <;> simp [hl]

@[simp] theorem applySecond_outside (hl : .nvc ∈ parts ∧ .med ∈ parts ∧ .par ∈ parts ∧ .peer ∈ parts ∧ .rdm ∈ parts
    ∧ .drc ∈ parts ∧ .evr ∈ parts) (l : List ProfRec) (s : State) : (applySecond l s).outside parts = s.outside parts := by
  unfold applySecond
  extract_lets _ a _ b _ c _ d _ e _ f
  have ha : a.outside parts = s.outside parts := by unfold a; split <;> simp [hl]
  have hb : b.outside parts = a.outside parts := by unfold b; split <;> simp [hl]
  have hc : c.outside parts = b.outside parts := by unfold c; split <;> simp [hl]
  have hd : d.outside parts = c.outside parts := by unfold d; split <;> simp [hl]
  have he : e.outside parts = d.outside parts := by unfold e; split <;> simp [hl]
  have hf : f.outside parts = e.outside parts := by unfold f; split <;> simp [hl]
  split
  · simp [hl, hf, he, hd, hc, hb, ha]
  · rw [hf, he, hd, hc, hb, ha]

@[simp] theorem applySettings_outside (hl : .glb ∈ parts ∧ .pins ∈ parts ∧ .clk ∈ parts ∧ .cache ∈ parts ∧ .nvc ∈ parts
    ∧ .hep ∈ parts ∧ .ing ∈ parts ∧ .med ∈ parts ∧ .par ∈ parts ∧ .peer ∈ parts ∧ .rdm ∈ parts ∧ .drc ∈ parts
    ∧ .evr ∈ parts) (s : State) : (applySettings s).outside parts = s.outside parts := by simp [applySettings, hl]

@[simp] theorem applyDelays_outside (hl : .drc ∈ parts ∧ .evr ∈ parts ∧ .freeCtr ∈ parts) (l : List ProfRec) (s : State) :
    (applyDelays l s).outside parts = s.outside parts := by
  unfold applyDelays; split <;> simp [hl]

@[simp] theorem applyDramSettings_outside (hl : .glb ∈ parts ∧ .drc ∈ parts ∧ .evr ∈ parts ∧ .freeCtr ∈ parts) (s : State) :
    (applyDramSettings s).outside parts = s.outside parts := by simp [applyDramSettings, hl]

/-! ### Machine/Watch.lean -/

@[simp] theorem wchCross_outside (hl : .wch ∈ parts) (p : WchPending) (s : State) :
    (wchCross p s).outside parts = s.outside parts := by simp [wchCross, hl]

@[simp] theorem wchRestoreWriteEffect_outside (hl : .wch ∈ parts) (upper : Word32) (s : State) :
    (wchRestoreWriteEffect upper s).outside parts = s.outside parts := by simp [wchRestoreWriteEffect, hl]

/-! ### Machine/Boot.lean -/

@[simp] theorem sysResetEffect.lowPin_outside (hl : .pins ∈ parts) (t : State) :
    (sysResetEffect.lowPin t).outside parts = t.outside parts := by simp [sysResetEffect.lowPin, hl]

@[simp] theorem releaseReset_outside (hl : .glb ∈ parts ∧ .pins ∈ parts ∧ .clk ∈ parts ∧ .nvc ∈ parts) (head : Bool)
    (sel : BitVec 2) (s : State) : (releaseReset head sel s).outside parts = s.outside parts := by simp [releaseReset, hl]

@[simp] theorem reach_outside (hl : .glb ∈ parts) (n : Nat) (s : State) : (reach n s).outside parts = s.outside parts := by
  simp [reach, hl]

@[simp] theorem enterRom_outside (hl : .glb ∈ parts ∧ .pins ∈ parts ∧ .wch ∈ parts) (cause : Byte) (s : State) :
    (enterRom cause s).outside parts = s.outside parts := by simp [enterRom, hl]

@[simp] theorem startStep_outside (hl : .glb ∈ parts ∧ .pins ∈ parts ∧ .wch ∈ parts) (ready : Bool) (f : State → State)
    (s : State) (hf : ∀ t, (f t).outside parts = t.outside parts) :
    (startStep ready f s).outside parts = s.outside parts := by
  unfold startStep; (repeat' split) <;> simp_all

@[simp] theorem enterHeld_outside (hl : .evr ∈ parts) (s : State) : (enterHeld s).outside parts = s.outside parts := by
  simp [enterHeld, hl]

@[simp] theorem bootRomEffect_outside (hl : .glb ∈ parts ∧ .pins ∈ parts ∧ .wch ∈ parts ∧ .sec ∈ parts ∧ .evr ∈ parts)
    (s : State) : (bootRomEffect s).outside parts = s.outside parts := by simp [bootRomEffect, hl]

@[simp] theorem windowEffect_outside (hl : .glb ∈ parts ∧ .pins ∈ parts ∧ .wch ∈ parts) (s : State) :
    (windowEffect s).outside parts = s.outside parts := by simp [windowEffect, hl]

@[simp] theorem headerEffect_outside (hl : .glb ∈ parts ∧ .pins ∈ parts ∧ .wch ∈ parts ∧ .sec ∈ parts) (s : State) :
    (headerEffect s).outside parts = s.outside parts := by
  unfold headerEffect; split <;> simp [hl]

@[simp] theorem octalEffect_outside (hl : .glb ∈ parts ∧ .nvc ∈ parts ∧ .evr ∈ parts) (s : State) :
    (octalEffect s).outside parts = s.outside parts := by
  unfold octalEffect; split <;> simp [hl]

@[simp] theorem useProfile_outside (hl : .glb ∈ parts ∧ .pins ∈ parts ∧ .hep ∈ parts ∧ .sec ∈ parts) (sel : BitVec 2)
    (len : Nat) (l : List ProfRec) (s : State) :
    (useProfile sel len l s).outside parts = s.outside parts := by simp [useProfile, hl]

@[simp] theorem profileEffect_outside (hl : .glb ∈ parts ∧ .pins ∈ parts ∧ .wch ∈ parts ∧ .hep ∈ parts ∧ .sec ∈ parts
    ∧ .evr ∈ parts) (s : State) : (profileEffect s).outside parts = s.outside parts := by
  simp only [profileEffect]; (repeat' split) <;> simp [hl]

@[simp] theorem detectExitEffect_outside (hl : .glb ∈ parts ∧ .pins ∈ parts ∧ .wch ∈ parts ∧ .hep ∈ parts) (s : State) :
    (detectExitEffect s).outside parts = s.outside parts := by simp [detectExitEffect, hl]

@[simp] theorem firstBands_outside (hl : .drc ∈ parts ∧ .evr ∈ parts) (temps : List Int) (s : State) :
    (firstBands temps s).outside parts = s.outside parts := by simp [firstBands, hl]

@[simp] theorem dramInitEffect_outside (hl : .glb ∈ parts ∧ .pins ∈ parts ∧ .wch ∈ parts ∧ .drc ∈ parts ∧ .evr ∈ parts
    ∧ .freeCtr ∈ parts) (slots : List Spd) (temps : List Int) (s : State) :
    (dramInitEffect slots temps s).outside parts = s.outside parts := by
  simp only [dramInitEffect]; split <;> simp [hl]

@[simp] theorem firmwareReadEffect_outside (hl : .glb ∈ parts ∧ .pins ∈ parts ∧ .sec ∈ parts) (s : State) :
    (firmwareReadEffect s).outside parts = s.outside parts := by simp [firmwareReadEffect, hl]

@[simp] theorem verifyEffect_outside (hl : .glb ∈ parts ∧ .pins ∈ parts ∧ .wch ∈ parts ∧ .evr ∈ parts) (s : State) :
    (verifyEffect s).outside parts = s.outside parts := by simp [verifyEffect, hl]

@[simp] theorem sizeAreas_outside (hl : .ing ∈ parts ∧ .med ∈ parts) (s : State) :
    (sizeAreas s).outside parts = s.outside parts := by simp [sizeAreas, hl]

@[simp] theorem startLanes_outside (hl : .pins ∈ parts ∧ .far ∈ parts) (s : State) :
    (startLanes s).outside parts = s.outside parts := by simp [startLanes, hl]

@[simp] theorem measureOther_outside (hl : .sec ∈ parts ∧ .freeCtr ∈ parts) (s : State) :
    (measureOther s).outside parts = s.outside parts := by simp [measureOther, hl]

@[simp] theorem coreReleaseEffect_outside (hl : .glb ∈ parts ∧ .pins ∈ parts ∧ .clk ∈ parts ∧ .cache ∈ parts
    ∧ .nvc ∈ parts ∧ .hep ∈ parts ∧ .ing ∈ parts ∧ .sec ∈ parts ∧ .med ∈ parts ∧ .far ∈ parts ∧ .par ∈ parts
    ∧ .peer ∈ parts ∧ .pair ∈ parts ∧ .rdm ∈ parts ∧ .drc ∈ parts ∧ .evr ∈ parts ∧ .freeCtr ∈ parts) (s : State) :
    (coreReleaseEffect s).outside parts = s.outside parts := by simp [coreReleaseEffect, hl]

@[simp] theorem restoreSlot_outside (hl : .sec ∈ parts ∧ .evr ∈ parts) (swk : Bytes) (p : Nat × Bytes) (s : State) :
    (restoreSlot swk p s).outside parts = s.outside parts := by
  simp only [restoreSlot]; split <;> simp [hl]

@[simp] theorem swkCopied_outside (hl : .sec ∈ parts) (s : State) : (swkCopied s).outside parts = s.outside parts := by
  unfold swkCopied; split <;> simp [hl]

@[simp] theorem restoreKeys_outside (hl : .wch ∈ parts ∧ .sec ∈ parts ∧ .evr ∈ parts ∧ .freeCtr ∈ parts) (s : State) :
    (restoreKeys s).outside parts = s.outside parts := by
  unfold restoreKeys; split <;> simp [hl]

@[simp] theorem rollback_outside (hl : .evr ∈ parts ∧ .nor ∈ parts) (s : State) :
    (rollback s).outside parts = s.outside parts := by
  unfold rollback; split <;> simp [hl]

@[simp] theorem readyEffect_outside (hl : .glb ∈ parts ∧ .pins ∈ parts ∧ .wch ∈ parts ∧ .ing ∈ parts ∧ .sec ∈ parts
    ∧ .med ∈ parts ∧ .far ∈ parts ∧ .par ∈ parts ∧ .til ∈ parts ∧ .peer ∈ parts ∧ .pair ∈ parts ∧ .rdm ∈ parts
    ∧ .mch ∈ parts ∧ .evr ∈ parts ∧ .nor ∈ parts ∧ .freeCtr ∈ parts) (s : State) :
    (readyEffect s).outside parts = s.outside parts := by simp [readyEffect, hl]

@[simp] theorem recoveryDoneEffect_outside (hl : .glb ∈ parts ∧ .pins ∈ parts ∧ .med ∈ parts ∧ .rdm ∈ parts) (s : State) :
    (recoveryDoneEffect s).outside parts = s.outside parts := by simp [recoveryDoneEffect, hl]

/-! ### Machine/Digest.lean -/

@[simp] theorem modDg_outside (hl : .sec ∈ parts) (f : Dg → Dg) (s : State) : (modDg f s).outside parts = s.outside parts := by
  simp [modDg, hl]

@[simp] theorem dgCtl_outside (hl : .sec ∈ parts) (ctl : Word32) (s : State) :
    (dgCtl ctl s).outside parts = s.outside parts := by simp [dgCtl, hl]

/-! ### Machine/Hep.lean -/

@[simp] theorem portReleaseEffect_outside (hl : .hep ∈ parts) (p : Fin 2) (s : State) :
    (portReleaseEffect p s).outside parts = s.outside parts := by simp [portReleaseEffect, hl]

/-! ### Machine/Svc.lean -/

@[simp] theorem reply_outside (hl : .svc ∈ parts) (f : DwFrame) (status : Nat) (payload : Bytes) (s : State) :
    (reply f status payload s).outside parts = s.outside parts := by simp [reply, hl]

@[simp] theorem replyAuth_outside (hl : .svc ∈ parts) (f : DwFrame) (s : State) :
    (replyAuth f s).outside parts = s.outside parts := by simp [replyAuth, hl]

@[simp] theorem checkKey_outside (hl : .svc ∈ parts) (f : DwFrame) (required : Bool) (body : State → State) (s : State)
    (hbody : ∀ t, (body t).outside parts = t.outside parts) :
    (checkKey f required body s).outside parts = s.outside parts := by
  unfold checkKey; (repeat' split) <;> simp_all

@[simp] theorem onceOnly_outside {body : State → State} (hbody : ∀ t, (body t).outside parts = t.outside parts) (f : DwFrame)
    (s : State) : (onceOnly f body s).outside parts = s.outside parts :=
  onceOnly_keeps (P := fun t => t.outside parts = s.outside parts) rfl (fun _ _ _ _ => emit_outside _ s) (hbody s)

@[simp] theorem svcRow_outside (hl : .svc ∈ parts) (f : DwFrame) (states : List Service) (required : Bool)
    (body : State → State) (s : State) (hbody : ∀ t, (body t).outside parts = t.outside parts) :
    (svcRow f states required body s).outside parts = s.outside parts := by
  simp_all [svcRow]

@[simp] theorem eventReadBody_outside (hl : .svc ∈ parts) (f : DwFrame) (media : List Bytes) (s : State) :
    (eventReadBody f media s).outside parts = s.outside parts := by simp [eventReadBody, hl]

@[simp] theorem enrolKey_outside (hl : .sec ∈ parts ∧ .evr ∈ parts) (n method : Nat) (k : Bytes) (s : State) :
    (enrolKey n method k s).outside parts = s.outside parts := by simp [enrolKey, hl]

@[simp] theorem keysetBody_outside (hl : .sec ∈ parts ∧ .evr ∈ parts ∧ .svc ∈ parts) (f : DwFrame) (s : State) :
    (keysetBody f s).outside parts = s.outside parts := by
  unfold keysetBody; split <;> simp [hl]

@[simp] theorem keysetEffect_outside (hl : .sec ∈ parts ∧ .evr ∈ parts ∧ .svc ∈ parts) (f : DwFrame) (s : State) :
    (keysetEffect f s).outside parts = s.outside parts := by simp [keysetEffect, hl]

@[simp] theorem setLayout_outside (hl : .par ∈ parts) (n : Nat) (l : Layout) (s : State) :
    (setLayout n l s).outside parts = s.outside parts := by simp [setLayout, hl]

@[simp] theorem reshapeBody_outside (hl : .sec ∈ parts ∧ .med ∈ parts ∧ .far ∈ parts ∧ .par ∈ parts ∧ .til ∈ parts
    ∧ .evr ∈ parts ∧ .svc ∈ parts) (f : DwFrame) (s : State) :
    (reshapeBody f s).outside parts = s.outside parts := by simp [reshapeBody, hl]

@[simp] theorem reEnumerateBody_outside (hl : .mch ∈ parts ∧ .svc ∈ parts) (f : DwFrame) (s : State) :
    (reEnumerateBody f s).outside parts = s.outside parts := by simp [reEnumerateBody, hl]

@[simp] theorem testRefused_outside (hl : .evr ∈ parts ∧ .svc ∈ parts) (f : DwFrame) (s : State) :
    (testRefused f s).outside parts = s.outside parts := by simp [testRefused, hl]

@[simp] theorem testEntryBody_outside (hl : .glb ∈ parts ∧ .pins ∈ parts ∧ .sec ∈ parts ∧ .rdm ∈ parts ∧ .evr ∈ parts
    ∧ .svc ∈ parts) (f : DwFrame) (s : State) :
    (testEntryBody f s).outside parts = s.outside parts := by simp [testEntryBody, hl]

@[simp] theorem clearChannel_outside (hl : .dram ∈ parts) (c : Nat) (s : State) :
    (clearChannel c s).outside parts = s.outside parts := by simp [clearChannel, hl]

@[simp] theorem sweepBody_outside (hl : .svc ∈ parts ∧ .dram ∈ parts) (f : DwFrame) (maps : List Bytes) (s : State) :
    (sweepBody f maps s).outside parts = s.outside parts := by simp [sweepBody, hl]

@[simp] theorem blownFuse_outside (hl : .glb ∈ parts ∧ .evr ∈ parts) (n i : Nat) (s : State) :
    (blownFuse n i s).outside parts = s.outside parts := by simp [blownFuse, hl]

@[simp] theorem fuseBody_outside (hl : .glb ∈ parts ∧ .evr ∈ parts ∧ .svc ∈ parts) (f : DwFrame) (s : State) :
    (fuseBody f s).outside parts = s.outside parts := by simp [fuseBody, hl]

/-! ### Machine/Regs.lean -/

@[simp] theorem recordOutside_outside (hl : .hep ∈ parts) (p : Fin 2) (write : Bool) (o : Nat) (s : State) :
    (recordOutside p write o s).outside parts = s.outside parts := by simp [recordOutside, hl]

@[simp] theorem setLatch_outside (hl : .evr ∈ parts) (p : Fin 2) (l : List (Nat × Word32)) (s : State) :
    (setLatch p l s).outside parts = s.outside parts := by simp [setLatch, hl]

@[simp] theorem clearRc_outside (hl : .cache ∈ parts ∧ .hep ∈ parts ∧ .bal ∈ parts ∧ .sec ∈ parts ∧ .svc ∈ parts)
    (o : Nat) (s : State) : (clearRc o s).outside parts = s.outside parts := by simp [clearRc, hl]

@[simp] theorem earlyDigestRead_outside (hl : .sec ∈ parts) (o : Nat) (s : State) :
    (earlyDigestRead o s).outside parts = s.outside parts := by simp [earlyDigestRead, hl]

@[simp] theorem latchRead_outside (hl : .evr ∈ parts) (q : Requester) (o : Nat) (s : State) :
    (latchRead q o s).outside parts = s.outside parts := by
  unfold latchRead; split <;> simp [hl]

@[simp] theorem readEffect_outside (hl : .cache ∈ parts ∧ .hep ∈ parts ∧ .bal ∈ parts ∧ .sec ∈ parts ∧ .evr ∈ parts
    ∧ .svc ∈ parts) (latch : Bool) (q : Requester) (o : Nat) (s : State) :
    (readEffect latch q o s).outside parts = s.outside parts := by simp [readEffect, hl]

@[simp] theorem writeHep_outside (hl : .hep ∈ parts) (p : Fin 2) (o : Nat) (v : Word32) (s : State) :
    (writeHep p o v s).outside parts = s.outside parts := by simp [writeHep, hl]

@[simp] theorem writeSec_outside (hl : .sec ∈ parts) (o : Nat) (v : Word32) (s : State) :
    (writeSec o v s).outside parts = s.outside parts := by simp [writeSec, hl]

@[simp] theorem writeEvr_outside (hl : .evr ∈ parts) (o : Nat) (v : Word32) (s : State) :
    (writeEvr o v s).outside parts = s.outside parts := by simp [writeEvr, hl]

@[simp] theorem writeNvc_outside (hl : .nvc ∈ parts) (o : Nat) (v : Word32) (s : State) :
    (writeNvc o v s).outside parts = s.outside parts := by simp [writeNvc, hl]

@[simp] theorem writeWch_outside (hl : .wch ∈ parts) (o : Nat) (v : Word32) (s : State) :
    (writeWch o v s).outside parts = s.outside parts := by simp [writeWch, hl]

@[simp] theorem writeWdog_outside (hl : .peer ∈ parts) (q : Requester) (v : Word32) (s : State) :
    (writeWdog q v s).outside parts = s.outside parts := by
  unfold writeWdog; split <;> simp [hl]

@[simp] theorem wordWrite_outside (hl : .nvc ∈ parts ∧ .wch ∈ parts ∧ .hep ∈ parts ∧ .sec ∈ parts ∧ .peer ∈ parts
    ∧ .evr ∈ parts) (q : Requester) (o : Nat) (v : Word32) (s : State) :
    (wordWrite q o v s).outside parts = s.outside parts := by simp [wordWrite, hl]

end

end Sys2Proof.Machine
end

section
/-! SUPPORT. The chip-wide resets (O8). -/

namespace Sys2Proof.Machine

/-! ### What a chip-wide reset leaves (R33) -/

theorem clearedState_afterReset (c : ResetCause) (s : State) : AfterReset c s (clearedState c s) := by
  simp [AfterReset, clearedState, watchKept, ingKept, hqeKept]

/-- What a reset leaves of a state depends on the parts that it keeps alone. -/
theorem AfterReset.of_before {c : ResetCause} {l : List Part} {s s' t : State} (hf : Frame l s s')
    (hl : ∀ p ∈ [Part.glb, .hep, .sec, .wch], p ∉ l) (h : AfterReset c s' t) : AfterReset c s t := by
  have hglb : s'.glb = s.glb := hf .glb (hl .glb (by simp)) (by simp)
  have hhep : s'.hep = s.hep := hf .hep (hl .hep (by simp)) (by simp)
  have hsec : s'.sec = s.sec := hf .sec (hl .sec (by simp)) (by simp)
  have hwch : s'.wch = s.wch := hf .wch (hl .wch (by simp)) (by simp)
  simpa only [AfterReset, hglb, hhep, hsec, hwch] using h

/-- Nothing that follows a reset takes from what it leaves, while queue pairs and commands stay gone. -/
theorem AfterReset.of_after {c : ResetCause} {l : List Part} {s t u : State} (h : AfterReset c s t) (hf : Frame l t u)
    (hl : ∀ p ∈ [Part.glb, .ing, .sec, .nvc, .mch, .dram, .hep, .wch], p ∉ l) (hqps : u.hqe.qps = t.hqe.qps)
    (hcmds : u.hqe.cmds = t.hqe.cmds) : AfterReset c s u := by
  have hglb : u.glb = t.glb := hf .glb (hl .glb (by simp)) (by simp)
  have hing : u.ing = t.ing := hf .ing (hl .ing (by simp)) (by simp)
  have hsec : u.sec = t.sec := hf .sec (hl .sec (by simp)) (by simp)
  have hnvc : u.nvc = t.nvc := hf .nvc (hl .nvc (by simp)) (by simp)
  have hmch : u.mch = t.mch := hf .mch (hl .mch (by simp)) (by simp)
  have hdram : u.dram = t.dram := hf .dram (hl .dram (by simp)) (by simp)
  have hhep : u.hep = t.hep := hf .hep (hl .hep (by simp)) (by simp)
  have hwch : u.wch = t.wch := hf .wch (hl .wch (by simp)) (by simp)
  simpa only [AfterReset, hglb, hing, hsec, hnvc, hmch, hdram, hhep, hwch, hqps, hcmds] using h

/-- The queue pairs and the outstanding commands. -/
def State.queues (s : State) : List Qp × List Cmd := (s.hqe.qps, s.hqe.cmds)

@[simp] theorem raise_queues (b : Blk) (v : Sev) (rule n : Nat) (args : List Nat) (s : State) :
    (raise b v rule n args s).queues = s.queues := by
  obtain ⟨e, he⟩ := raise_evr b v rule n args s
  rw [he]
  rfl

theorem loseBlocks_queues (l : List MirEntry) (s : State) : (loseBlocks l s).queues = s.queues := by
  have htags := fun (xs : List (Nat × Word64)) (t : State) =>
    forEach_keeps State.queues (fun p u => lowerTag p.1 p.2 (leadingLeft l p.1 p.2) u) (fun _ _ => rfl) xs t
  have hevents := fun (xs : List (Nat × Nat × Nat)) (t : State) =>
    forEach_keeps State.queues (fun r u => raise .med .critical 230 0 [r.1, r.2.1, r.2.2] u) (fun _ _ => raise_queues ..) xs t
  simp only [loseBlocks, htags, hevents]

theorem clearedState_queues (c : ResetCause) (s : State) :
    (clearedState c s).hqe.qps = [] ∧ (clearedState c s).hqe.cmds = [] := by
  simp [clearedState, hqeKept]

/-- Around what a reset clears there is, before, what gives references back and ends the flush, and, after, the events. -/
theorem chipWideReset_around (c : ResetCause) (s : State) :
    ∃ pre, Frame [.pins, .plf, .nor, .freeCtr, .ing, .med] s pre ∧ Frame [.hqe, .evr] (clearedState c pre) (chipWideReset c s)
      ∧ (chipWideReset c s).queues = ([], []) := by
  refine ⟨dropVolatileRefs (norReset (stopFlush s)), frame_iff.2 (by simp), frame_iff.2 (by simp [chipWideReset]), ?_⟩
  have hsnaps := fun (xs : List Snap) (t : State) =>
    forEach_keeps State.queues (fun x u => raise .med .notice 315 0 [x.nsid, x.seq] u) (fun _ _ => raise_queues ..) xs t
  simp only [chipWideReset, hsnaps, loseBlocks_queues]
  simp [State.queues, clearedState_queues]

theorem chipWideReset_afterReset (c : ResetCause) (s : State) : AfterReset c s (chipWideReset c s) := by
  obtain ⟨pre, hbefore, hafter, hqueues⟩ := chipWideReset_around c s
  exact ((clearedState_afterReset c pre).of_before hbefore (by decide)).of_after hafter (by decide)
    ((congrArg Prod.fst hqueues).trans (clearedState_queues c pre).1.symm)
    ((congrArg Prod.snd hqueues).trans (clearedState_queues c pre).2.symm)

/-- The chip's own part after a reset. -/
theorem chipWideReset_glb (c : ResetCause) (s : State) : (chipWideReset c s).glb = (clearedState c s).glb := by
  obtain ⟨pre, hbefore, hafter, -⟩ := chipWideReset_around c s
  have hglb : pre.glb = s.glb := hbefore .glb (by decide) (by decide)
  rw [hafter .glb (by decide) (by decide), clearedState, hglb]
  rfl

theorem chipWideReset_sec (c : ResetCause) (s : State) : (chipWideReset c s).sec = (clearedState c s).sec := by
  obtain ⟨pre, hbefore, hafter, -⟩ := chipWideReset_around c s
  have hsec : pre.sec = s.sec := hbefore .sec (by decide) (by decide)
  rw [hafter .sec (by decide) (by decide), clearedState, hsec]
  rfl

theorem chipWideReset_wch (c : ResetCause) (s : State) : (chipWideReset c s).wch = watchKept s.wch := by
  obtain ⟨pre, hbefore, hafter, -⟩ := chipWideReset_around c s
  have hwch : pre.wch = s.wch := hbefore .wch (by decide) (by decide)
  rw [hafter .wch (by decide) (by decide), clearedState, hwch]

theorem chipWideReset_testMode (c : ResetCause) (s : State) : (chipWideReset c s).glb.testMode = s.glb.testMode := by
  rw [chipWideReset_glb]
  rfl

theorem chipWideReset_ovrValid (c : ResetCause) (s : State) :
    (chipWideReset c s).glb.ovrValid = (keepsMeasured c && s.glb.ovrValid) := congrArg Glb.ovrValid (chipWideReset_glb c s)

theorem chipWideReset_meas (c : ResetCause) (s : State) :
    (chipWideReset c s).sec.meas = if keepsMeasured c then s.sec.meas else [] := congrArg Sec.meas (chipWideReset_sec c s)

theorem restat_frame (s : State) : Frame [.pins] s (restat s) := frame_iff.2 (by simp)

@[simp] theorem restat_glb (s : State) : (restat s).glb = s.glb := restat_frame s .glb (by decide) (by decide)

@[simp] theorem restat_sec (s : State) : (restat s).sec = s.sec := restat_frame s .sec (by decide) (by decide)

@[simp] theorem restat_wch (s : State) : (restat s).wch = s.wch := restat_frame s .wch (by decide) (by decide)

/-- STAT is no part of what a reset leaves. -/
theorem AfterReset.restat {c : ResetCause} {s t : State} (h : AfterReset c s t) : AfterReset c s (restat t) :=
  have hf := restat_frame t
  h.of_after hf (by decide) (congrArg Hqe.qps (hf .hqe (by decide) (by decide)))
    (congrArg Hqe.cmds (hf .hqe (by decide) (by decide)))

/-! ### The commands that reset the chip -/

theorem pinReset_eq {s : State} (hp : s.glb.powered = true) (hc : s.glb.resetHeld = false ∨ s.glb.cause ≠ .powerOn) :
    pinReset s = Machine.restat (chipWideReset .pin s) := by
  rcases hc with hc | hc <;> simp [pinReset, hp, hc]

theorem sysResetAssert_completes {s : State} {n : Nat} (hn : 1000 ≤ n) (hp : s.glb.powered = true)
    (hc : s.glb.resetHeld = false ∨ s.glb.cause ≠ .powerOn) :
    Completes (.sysResetAssert n) s fun t => AfterReset .pin s t ∧ t.glb.testMode = s.glb.testMode := by
  refine completes_of_run rfl rfl ?_
  have hlong : ¬n < 500 := by omega
  have heffect : sysResetEffect n s.quiet = pinReset (sysResetEffect.lowPin s.quiet) := by simp [sysResetEffect, hn, hlong]
  have hpin := pinReset_eq (s := sysResetEffect.lowPin s.quiet) hp hc
  rw [heffect, hpin]
  exact ⟨(chipWideReset_afterReset .pin (sysResetEffect.lowPin s.quiet)).restat,
    (congrArg Glb.testMode (restat_glb _)).trans (chipWideReset_testMode ..)⟩

theorem testModeAssert_completes {s : State} (hp : s.glb.powered = true)
    (hc : s.glb.resetHeld = false ∨ s.glb.cause ≠ .powerOn) :
    Completes .testModeAssert s fun t => AfterReset .pin s t ∧ t.glb.testMode = true := by
  refine completes_of_run rfl rfl ?_
  have heffect : testModeEffect s.quiet
      = { pinReset s.quiet with glb := { (pinReset s.quiet).glb with testMode := true } } := if_pos hp
  have hpin := pinReset_eq (s := s.quiet) hp hc
  rw [heffect, hpin]
  exact ⟨(chipWideReset_afterReset .pin s.quiet).restat, rfl⟩

theorem chipCommandReset_completes {s : State} (h : s.glb.resetPending = true) :
    Completes .chipCommandReset s fun t =>
      AfterReset .chipCmd s t ∧ t.glb.ovrValid = s.glb.ovrValid ∧ t.sec.meas = s.sec.meas := by
  refine completes_of_run rfl rfl ?_
  have heffect : commandResetEffect s.quiet = restat (chipWideReset .chipCmd s.quiet) := if_pos h
  rw [heffect]
  exact ⟨(chipWideReset_afterReset .chipCmd s.quiet).restat,
    (congrArg Glb.ovrValid (restat_glb _)).trans (chipWideReset_ovrValid ..),
    (congrArg Sec.meas (restat_sec _)).trans (chipWideReset_meas ..)⟩

theorem startUpWatchdogExpiry_completes {s : State} (hs : s.glb.service = .startUp) (hheld : s.glb.resetHeld = false)
    (hp : s.glb.powered = true) :
    Completes .startUpWatchdogExpiry s fun t =>
      AfterReset .startWdog s t ∧ t.glb.ovrValid = s.glb.ovrValid ∧ t.sec.meas = s.sec.meas := by
  refine completes_of_run rfl rfl ?_
  have heffect : watchdogEffect s.quiet = restat (chipWideReset .startWdog s.quiet) := if_pos ⟨hs, hheld, hp⟩
  rw [heffect]
  exact ⟨(chipWideReset_afterReset .startWdog s.quiet).restat,
    (congrArg Glb.ovrValid (restat_glb _)).trans (chipWideReset_ovrValid ..),
    (congrArg Sec.meas (restat_sec _)).trans (chipWideReset_meas ..)⟩

theorem powerOnReset_completes {s : State} (b : Bool) (hp : s.glb.powered = true) :
    Completes (.powerOnReset true b) s fun t =>
      AfterReset .powerOn s t ∧ t.glb.ovrValid = false ∧ t.sec.meas = []
      ∧ t.wch.powerCycles = min 0xFFFFFFFF (s.wch.powerCycles + 1) := by
  refine completes_of_run rfl rfl ?_
  have hreset := chipWideReset_afterReset .powerOn s.quiet
  have hwch : (chipWideReset .powerOn s.quiet).wch = watchKept s.wch := chipWideReset_wch ..
  have hovr : (chipWideReset .powerOn s.quiet).glb.ovrValid = false := chipWideReset_ovrValid ..
  have hmeas : (chipWideReset .powerOn s.quiet).sec.meas = [] := chipWideReset_meas ..
  simp only [powerOnEffect, quiet_glb, hp, if_true]
  generalize chipWideReset .powerOn s.quiet = t at hreset hwch hovr hmeas ⊢
  refine ⟨AfterReset.restat ?_, ?_, ?_, ?_⟩
  · simp only [AfterReset] at hreset ⊢
    simp [hreset]
  · simp [hovr]
  · simp [hmeas]
  · simp [hwch, watchKept, satAdd_eq_min]

theorem supplyFall_completes {s : State} (hp : s.glb.powered = true) (hfail : s.pins.pwrFail = true) :
    Completes .supplyFall s fun t => t.glb.powered = false ∧ t.hqe.qps = [] ∧ t.sec.slots = [] ∧ t.dram = []
      ∧ t.wch.swk = s.wch.swk ∧ t.wch.opSeconds = s.wch.opSeconds := by
  refine completes_of_run rfl rfl ?_
  have hreset := chipWideReset_afterReset .powerOn s.quiet
  have hwch : (chipWideReset .powerOn s.quiet).wch = watchKept s.wch := chipWideReset_wch ..
  simp only [AfterReset] at hreset
  simp [supplyFallEffect, hp, hfail, hwch, watchKept, hreset]

/-- Settles O8: each command is a chip-wide reset of its cause, which `chipWideReset_afterReset` describes. -/
theorem chipWideResets : Obligations.ChipWideResets := by
  unfold Obligations.ChipWideResets
  refine ⟨fun s n hn => ?_, fun s n hn hp hc => sysResetAssert_completes hn hp hc, fun s => testModeAssert_completes,
    fun s => chipCommandReset_completes, fun s => startUpWatchdogExpiry_completes, fun s b => powerOnReset_completes b,
    fun s => supplyFall_completes⟩
  have heffect : sysResetEffect n s.quiet = s.quiet := if_pos hn
  exact (run_of_wf (i := .sysResetAssert n) rfl (sysResetEffect n) s).trans (by rw [heffect]; rfl)

end Sys2Proof.Machine
end

section
/-! SUPPORT. A head that enters SERVICE of its own accord, and the lockstep mismatches of the control pairs (O42). -/

namespace Sys2Proof.Machine

/-! ### Commands held back stay so while a head lets its work go -/

theorem forEach_behind {α : Type} {f : α → State → State} (h : ∀ x t, (f x t).hqe.behind = t.hqe.behind) (xs : List α)
    (s : State) : (forEach xs f s).hqe.behind = s.hqe.behind := forEach_keeps (·.hqe.behind) f h xs s

@[simp] theorem raise_behind (b : Blk) (v : Sev) (rule n : Nat) (args : List Nat) (s : State) :
    (raise b v rule n args s).hqe.behind = s.hqe.behind := by
  obtain ⟨e, h⟩ := raise_evr b v rule n args s
  rw [h]

@[simp] theorem signal_behind (f : FnId) (v : Nat) (s : State) : (signal f v s).hqe.behind = s.hqe.behind := by
  obtain ⟨hep, o, h⟩ := signal_change f v s
  rw [h]

@[simp] theorem postOne_behind (k : QKey) (e : Cqe) (s : State) : (postOne k e s).hqe.behind = s.hqe.behind := by
  unfold postOne
  (repeat' split) <;> simp [modQp, emit]

@[simp] theorem postCqe_behind (k : QKey) (e : Cqe) (s : State) : (postCqe k e s).hqe.behind = s.hqe.behind := by
  unfold postCqe
  (repeat' split) <;> simp [modQp]

@[simp] theorem toPeer_behind (type : Nat) (args : List Nat) (data : Bytes) (s : State) :
    (toPeer type args data s).hqe.behind = s.hqe.behind := by
  obtain ⟨o, h⟩ := toPeer_out type args data s
  rw [h]

@[simp] theorem answerTo_behind (o : Origin) (q : QKey) (cid status : Word16) (k n result : Nat) (data : Bytes) (s : State) :
    (answerTo o q cid status k n result data s).hqe.behind = s.hqe.behind := by
  unfold answerTo
  (repeat' split) <;> simp [emit]

@[simp] theorem finishCmd_behind (id : Nat) (status : Word16) (k result : Nat) (s : State) :
    (finishCmd id status k result s).hqe.behind = s.hqe.behind := by
  unfold finishCmd
  (repeat' split) <;> simp [modQp, dropCmd]

@[simp] theorem settleTag_behind (t : Nat) (g : Word64) (k n : Nat) (s : State) :
    (settleTag t g k n s).hqe.behind = s.hqe.behind := by
  unfold settleTag
  split
  · rfl
  · obtain ⟨o, h⟩ := mirrorSettle_out _ _
    rw [h]

@[simp] theorem endWrite_behind (c : Cmd) (k : Nat) (status : Word16) (s : State) :
    (endWrite c k status s).hqe.behind = s.hqe.behind := by
  unfold endWrite
  (repeat' split) <;> simp

@[simp] theorem pinTrim_behind (n : Nat) (s : State) : (pinTrim n s).hqe.behind = s.hqe.behind := by
  induction n generalizing s with
  | zero => rfl
  | succ n ih =>
    unfold pinTrim
    (repeat' split) <;> simp [ih]

@[simp] theorem pinEntries_behind (p : Settle → Bool) (s : State) : (pinEntries p s).hqe.behind = s.hqe.behind := by
  simp [pinEntries]

theorem dropVolatileRefs_frame (s : State) : Frame [.ing, .med] s (dropVolatileRefs s) :=
  frame_iff.2 (dropVolatileRefs_outside (by decide) s)

theorem dropJobs_frame (id : Nat) (s : State) : Frame [.bal, .med] s (dropJobs id s) :=
  frame_iff.2 (dropJobs_outside (by decide) id s)

@[simp] theorem dropVolatileRefs_behind (s : State) : (dropVolatileRefs s).hqe.behind = s.hqe.behind :=
  congrArg Hqe.behind (dropVolatileRefs_frame s).hqe

@[simp] theorem dropPending_behind (s : State) : (dropPending s).hqe.behind = s.hqe.behind := by
  simp [dropPending, forEach_behind]

@[simp] theorem letGo_behind (id : Nat) (s : State) : (letGo id s).hqe.behind = s.hqe.behind := by
  have hjobs := fun t => congrArg Hqe.behind (dropJobs_frame id t).hqe
  unfold letGo
  (repeat' split) <;> simp [hjobs]

/-! ### What a head lets go (R334) -/

theorem loseObjects_frame (p : Nat → Nat → Bool) (s : State) : Frame [.med, .til] s (loseObjects p s) :=
  frame_iff.2 (loseObjects_outside (by decide) p s)

theorem letLanesGo_frame (s : State) : Frame [.med, .far] s (letLanesGo s) := frame_iff.2 (letLanesGo_outside (by decide) s)

@[simp] theorem letWorkGo_behind (s : State) : (letWorkGo s).hqe.behind = s.hqe.behind := by
  have hlanes := fun t => congrArg Hqe.behind (letLanesGo_frame t).hqe
  have hobjects := fun p t => congrArg Hqe.behind (loseObjects_frame p t).hqe
  simp [letWorkGo, hlanes, hobjects, forEach_behind]

theorem letWorkGo_staging (s : State) : (letWorkGo s).ing.staging = [] ∧ (letWorkGo s).ing.mirror = [] := by
  simp [letWorkGo, (letLanesGo_frame _).ing, (loseObjects_frame _ _).ing]

theorem letWorkGo_jobs (s : State) : (letWorkGo s).par.jobs = [] := by
  simp [letWorkGo, (letLanesGo_frame _).par, (loseObjects_frame _ _).par]

theorem letWorkGo_frame (s : State) :
    Frame [.hep, .hqe, .ing, .bal, .med, .far, .par, .til, .snp, .evr] s (letWorkGo s) :=
  frame_iff.2 (letWorkGo_outside (by decide) s)

/-- A lane that gives its module up. -/
def laneGone (l : Lane) : Lane := { l with st := .peerHeld, out := [], waiting := [], claiming := false }

theorem laneOf_congr {s t : State} (h : t.far = s.far) (n : Nat) : laneOf t n = laneOf s n := by
  rw [laneOf, h, laneOf]

theorem laneOf_modLane_gone (m n : Nat) (s : State) :
    laneOf (modLane n laneGone s) m = if m = n then laneGone (laneOf s n) else laneOf s m := by
  by_cases h : m = n
  · subst h
    rw [if_pos rfl]
    exact tabGet_tabPut_of_value (by simp [laneGone]) m s.far.lanes
  · rw [if_neg h]
    exact tabGet_tabPut_of_ne _ _ h s.far.lanes

/-- Of the lanes that are held, none is once all of a list that names them are given up. -/
theorem forEach_laneGone_notHeld (xs : List Nat) (s : State) (h : ∀ n, n < 96 → (laneOf s n).st = .held → n ∈ xs) (n : Nat)
    (hn : n < 96) : (laneOf (forEach xs (fun k t => modLane k laneGone t) s) n).st ≠ .held := by
  induction xs generalizing s with
  | nil => exact fun hheld => absurd (h n hn hheld) (by simp)
  | cons x xs ih =>
    refine ih (modLane x laneGone s) fun m hm hheld => ?_
    rw [laneOf_modLane_gone] at hheld
    split at hheld
    · simp [laneGone] at hheld
    · next hx => simpa [hx] using h m hm hheld

theorem mem_heldLanes {s : State} {n : Nat} : n ∈ heldLanes s ↔ n < 96 ∧ (laneOf s n).st = .held := by
  simp [heldLanes]

theorem letLanesGo_notHeld (s : State) (n : Nat) (hn : n < 96) : (laneOf (letLanesGo s) n).st ≠ .held :=
  forEach_laneGone_notHeld (heldLanes s) { s with med := { s.med with dieRuns := [] } } (fun _ hm hheld => mem_heldLanes.2 ⟨hm, hheld⟩) n hn

theorem letWorkGo_notHeld (s : State) (n : Nat) (hn : n < 96) : (laneOf (letWorkGo s) n).st ≠ .held :=
  letLanesGo_notHeld _ n hn

/-! ### Entering SERVICE (R334) -/

/-- With no module held, no root record is written. -/
theorem writeRoots_notHeld {s : State} (h : ∀ n, n < 96 → (laneOf s n).st ≠ .held) : writeRoots s = s := by
  have hheld : heldLanes s = [] := by
    rw [List.eq_nil_iff_forall_not_mem]
    exact fun n hn => h n (mem_heldLanes.1 hn).1 (mem_heldLanes.1 hn).2
  simp [writeRoots, rootLanes, hheld]

/-- With nothing held back, nothing is looked at again. -/
theorem wakeBehind_nil {s : State} (h : s.hqe.behind = []) : wakeBehind s = s := by
  have hs : { s with hqe := { s.hqe with behind := [] } } = s := by rw [← h]
  simp [wakeBehind, h, forEach, hs]

theorem writeRoots_frame (s : State) : Frame [.med, .far, .til] s (writeRoots s) := frame_iff.2 (writeRoots_outside (by decide) s)

theorem setRole_frame (r : Role) (cause : Nat) (s : State) : Frame [.pins, .med, .far, .til, .peer] s (setRole r cause s) :=
  frame_iff.2 (setRole_outside (by decide) r cause s)

/-- The state in which a head that takes a role writes its root records. -/
def roleTaken (r : Role) (cause : Nat) (s : State) : State :=
  restat (noteAlive { s with
    peer := { s.peer with role := r, roleChosen := true, lastCause := cause, changeAt := nowS s },
    til := { s.til with bothHeads := r == .sole, due := s.til.due || r == .active || r == .sole } })

theorem setRole_eq (r : Role) (cause : Nat) (s : State) : setRole r cause s = writeRoots (roleTaken r cause s) := rfl

theorem roleTaken_frame (r : Role) (cause : Nat) (s : State) : Frame [.pins, .peer, .til] s (roleTaken r cause s) :=
  frame_iff.2 (by simp [roleTaken])

/-- What a head's peer part says once it has taken a role. -/
theorem setRole_peer (r : Role) (cause : Nat) (s : State) : ∃ alive, (setRole r cause s).peer
    = { s.peer with role := r, roleChosen := true, lastCause := cause, changeAt := nowS s, aliveOut := alive } :=
  ⟨_, (writeRoots_frame (roleTaken r cause s)).peer.trans (restat_frame _).peer⟩

theorem setRole_notHeld {s : State} (h : ∀ n, n < 96 → (laneOf s n).st ≠ .held) (r : Role) (cause : Nat) (n : Nat) (hn : n < 96) :
    (laneOf (setRole r cause s) n).st ≠ .held := by
  have hsame := laneOf_congr (roleTaken_frame r cause s).far
  rw [setRole_eq, writeRoots_notHeld fun m hm => hsame m ▸ h m hm, hsame]
  exact h n hn

theorem enterService_eq {s : State} (h : s.hqe.behind = []) (cause : Nat) :
    enterService cause s = setRole .service cause (letWorkGo s) :=
  wakeBehind_nil ((congrArg Hqe.behind (setRole_frame .service cause (letWorkGo s)).hqe).trans ((letWorkGo_behind s).trans h))

theorem tellEpoch_frame (s : State) : Frame [] s (tellEpoch s) := frame_iff.2 (tellEpoch_outside s)

/-- The state in which a head that steps down lets its work go. -/
def nextEpoch (s : State) : State := { s with peer := { s.peer with epoch := s.peer.epoch + 1 } }

theorem nextEpoch_frame (s : State) : Frame [.peer] s (nextEpoch s) := frame_peer s _

theorem stepDown_frame_setRole {s : State} (h : s.hqe.behind = []) (cause : Nat) :
    Frame [] (setRole .service cause (letWorkGo (nextEpoch s))) (stepDown cause s) := by
  have hservice : enterService cause (nextEpoch s) = setRole .service cause (letWorkGo (nextEpoch s)) :=
    enterService_eq (s := nextEpoch s) h cause
  rw [← hservice]
  exact tellEpoch_frame (enterService cause (nextEpoch s))

theorem stepDown_peer {s : State} (h : s.hqe.behind = []) (cause : Nat) : ∃ alive at_, (stepDown cause s).peer
    = { s.peer with role := .service, roleChosen := true, lastCause := cause, epoch := s.peer.epoch + 1, changeAt := at_,
                    aliveOut := alive } := by
  obtain ⟨alive, hpeer⟩ := setRole_peer .service cause (letWorkGo (nextEpoch s))
  rw [(letWorkGo_frame (nextEpoch s)).peer] at hpeer
  exact ⟨alive, nowS (letWorkGo (nextEpoch s)), (stepDown_frame_setRole h cause).peer.trans hpeer⟩

theorem stepDown_frame {s : State} (h : s.hqe.behind = []) (cause : Nat) :
    Frame [.hqe, .hep, .ing, .bal, .par, .med, .snp, .far, .peer, .til, .pins, .evr] s (stepDown cause s) := by
  have hwork := (nextEpoch_frame s).append (letWorkGo_frame (nextEpoch s))
  have hrole := setRole_frame .service cause (letWorkGo (nextEpoch s))
  exact ((hwork.append hrole).append (stepDown_frame_setRole h cause)).mono (by decide)

theorem stepDown_steppedDown {s : State} (h : s.hqe.behind = []) (cause : Nat) :
    SteppedDown s cause (s.peer.epoch + 1) (stepDown cause s) := by
  obtain ⟨alive, at_, hpeer⟩ := stepDown_peer h cause
  have hlast := stepDown_frame_setRole h cause
  have hrole := setRole_frame .service cause (letWorkGo (nextEpoch s))
  have hing : (stepDown cause s).ing = (letWorkGo (nextEpoch s)).ing := hlast.ing.trans hrole.ing
  have hjobs : (stepDown cause s).par = (letWorkGo (nextEpoch s)).par := hlast.par.trans hrole.par
  obtain ⟨hstaging, hmirror⟩ := letWorkGo_staging (nextEpoch s)
  unfold SteppedDown
  rw [hpeer, hing, hjobs, hstaging, hmirror, letWorkGo_jobs]
  refine ⟨rfl, rfl, rfl, rfl, rfl, rfl, fun n hn => ?_, ?_⟩
  · rw [laneOf_congr hlast.far]
    exact setRole_notHeld (letWorkGo_notHeld _) .service cause n hn
  · exact (stepDown_frame h cause).mono (by decide)

/-! ### Handing over (R343) -/

theorem frame_pair (s : State) (x : Pairing) : Frame [.pair] s { s with pair := x } := by
  intro p hp _
  cases p <;> simp_all [Part.same]

/-- What a head that stepped down did before, within the frame, does not matter. -/
theorem SteppedDown.of_before {s s' t : State} {cause : Nat} {e : Word16} {l : List Part} (hf : Frame l s s')
    (hl : ∀ p ∈ l, p ∈ [Part.hqe, .hep, .ing, .bal, .par, .med, .snp, .far, .peer, .pair, .til, .pins, .evr])
    (h : SteppedDown s' cause e t) : SteppedDown s cause e t := by
  obtain ⟨hrole, hcause, hepoch, hstaging, hmirror, hjobs, hlanes, hframe⟩ := h
  exact ⟨hrole, hcause, hepoch, hstaging, hmirror, hjobs, hlanes, (hf.mono hl).trans hframe⟩

theorem SteppedDown.linkUp {s t : State} {cause : Nat} {e : Word16} (h : SteppedDown s cause e t) (b : Bool) :
    SteppedDown s cause e { t with peer := { t.peer with linkUp := b } } := by
  obtain ⟨hrole, hcause, hepoch, hstaging, hmirror, hjobs, hlanes, hframe⟩ := h
  exact ⟨hrole, hcause, hepoch, hstaging, hmirror, hjobs, hlanes, (hframe.append (frame_peer t _)).mono (by decide)⟩

theorem SteppedDown.noteAlive {s t : State} {cause : Nat} {e : Word16} (h : SteppedDown s cause e t) :
    SteppedDown s cause e (noteAlive t) := by
  obtain ⟨hrole, hcause, hepoch, hstaging, hmirror, hjobs, hlanes, hframe⟩ := h
  exact ⟨hrole, hcause, hepoch, hstaging, hmirror, hjobs, hlanes, (hframe.append (frame_peer t _)).mono (by decide)⟩

/-- The head as it hands over: it stays in SERVICE, whatever may come. -/
def handingOver (s : State) : State :=
  let t := if pair1Up s then toPeerTagged 0x21 [] [] s else s
  { t with pair := { t.pair with hungOver := true, returning := false, swapWait := false } }

theorem handingOver_frame (s : State) : Frame [.pair] s (handingOver s) :=
  frame_iff.2 (by unfold handingOver; split <;> simp)

theorem handingOver_hungOver (s : State) : (handingOver s).pair.hungOver = true := by
  simp only [handingOver]

theorem handOver_active {s : State} (h : s.peer.role = .active) : handOver s
    = { stepDown 5 (handingOver s) with peer := { (stepDown 5 (handingOver s)).peer with
          linkUp := (stepDown 5 (handingOver s)).peer.linkUp && !pair1Up s } } := by
  simp only [handOver, h, if_true, handingOver]

theorem handOver_steppedDown {s : State} (hrole : s.peer.role = .active) (h : s.hqe.behind = []) :
    SteppedDown s 5 (s.peer.epoch + 1) (handOver s) ∧ (handOver s).pair.hungOver = true := by
  have hframe := handingOver_frame s
  have hbehind : (handingOver s).hqe.behind = [] := (congrArg Hqe.behind hframe.hqe).trans h
  have hdown := stepDown_steppedDown hbehind 5
  rw [hframe.peer] at hdown
  have hpair : (stepDown 5 (handingOver s)).pair.hungOver = true := by
    rw [(stepDown_frame hbehind 5).pair, handingOver_hungOver]
  rw [handOver_active hrole]
  generalize stepDown 5 (handingOver s) = u at hdown hpair ⊢
  exact ⟨(hdown.of_before hframe (by decide)).linkUp _, hpair⟩

/-! ### A control pair in reset (R343) -/

theorem modPair_frame (n : Nat) (f : CtrlPair → CtrlPair) (s : State) : Frame [.peer] s (modPair n f s) :=
  frame_iff.2 (modPair_outside (by decide) n f s)

theorem pairOf_congr {s t : State} (h : t.peer = s.peer) (n : Nat) : pairOf t n = pairOf s n := by
  simp only [pairOf, h]

theorem pairOf_modPair (n : Nat) (f : CtrlPair → CtrlPair) (s : State) : pairOf (modPair n f s) n = f (pairOf s n) := by
  unfold modPair pairOf
  split
  · rfl
  · split
    · rfl
    · split <;> rfl

/-- A pair's record is one field of the peer part, and the others stay. -/
theorem modPair_peer (n : Nat) (f : CtrlPair → CtrlPair) (s : State) :
    (modPair n f s).peer.role = s.peer.role ∧ (modPair n f s).peer.roleChosen = s.peer.roleChosen
    ∧ (modPair n f s).peer.epoch = s.peer.epoch ∧ (modPair n f s).peer.linkUp = s.peer.linkUp := by
  unfold modPair
  (repeat' split) <;> exact ⟨rfl, rfl, rfl, rfl⟩

theorem pairHeld_frame (n : Nat) (s : State) : Frame [.svc, .par] s (pairHeld n s) :=
  frame_iff.2 (pairHeld_outside (by decide) n s)

theorem toPeer_frame (type : Nat) (args : List Nat) (data : Bytes) (s : State) : Frame [] s (toPeer type args data s) :=
  frame_iff.2 (toPeer_outside type args data s)

theorem noteAlive_frame (s : State) : Frame [.peer] s (noteAlive s) := frame_peer s _

theorem pairOf_noteAlive (s : State) (n : Nat) : pairOf (noteAlive s) n = pairOf s n := rfl

theorem noteAlive_out (s : State) : (noteAlive s).out = s.out := rfl

theorem modPair_out (n : Nat) (f : CtrlPair → CtrlPair) (s : State) : (modPair n f s).out = s.out := by
  unfold modPair
  (repeat' split) <;> rfl

theorem pairHeld_out (n : Nat) (s : State) : (pairHeld n s).out = s.out := by
  unfold pairHeld
  (repeat' split) <;> rfl

/-- A pair's record once it is held in reset. -/
def pairFailed (now : Nat) (p : CtrlPair) : CtrlPair :=
  { p with inReset := true, faults := satAdd 0xFF p.faults 1, lastAt := some now }

/-- The chip once a mismatch holds one of its pairs in reset. -/
def holdPair (n : Nat) (s : State) : State :=
  noteAlive (pairHeld n (toPeer 0x20 [n] [] (modPair n (pairFailed (nowS s)) s)))

theorem mismatchEffect_eq {n : Nat} {s : State} (hp : s.glb.powered = true) (hh : s.glb.resetHeld = false)
    (hs : ¬(s.glb.service = .startUp ∧ n = 0)) :
    mismatchEffect n s = if tooSoon s n then handOver (holdPair n s) else holdPair n s := by
  simp only [mismatchEffect, hp, hh, hs, if_false, holdPair]
  rfl

theorem holdPair_frame (n : Nat) (s : State) : Frame [.peer, .svc, .par] s (holdPair n s) :=
  frame_iff.2 (by simp [holdPair])

theorem holdPair_role (n : Nat) (s : State) :
    (holdPair n s).peer.role = s.peer.role ∧ (holdPair n s).peer.epoch = s.peer.epoch := by
  obtain ⟨hrole, -, hepoch, -⟩ := modPair_peer n (pairFailed (nowS s)) s
  have hpeer := (pairHeld_frame n (toPeer 0x20 [n] [] (modPair n (pairFailed (nowS s)) s))).peer.trans (toPeer_frame _ _ _ _).peer
  exact ⟨(congrArg Peer.role hpeer).trans hrole, (congrArg Peer.epoch hpeer).trans hepoch⟩

theorem pairOf_holdPair (n : Nat) (s : State) : pairOf (holdPair n s) n = pairFailed (nowS s) (pairOf s n) := by
  rw [holdPair, pairOf_noteAlive, pairOf_congr (pairHeld_frame _ _).peer, pairOf_congr (toPeer_frame _ _ _ _).peer,
    pairOf_modPair]

theorem holdPair_out {n : Nat} {s : State} (h : s.peer.linkUp = true) :
    (holdPair n s).out = s.out ++ [.peerMsg 0x20 s.peer.epoch [n] []] := by
  obtain ⟨-, -, hepoch, hlink⟩ := modPair_peer n (pairFailed (nowS s)) s
  rw [holdPair, noteAlive_out, pairHeld_out, toPeer_linkUp (hlink.trans h), emit, modPair_out, hepoch]
  rfl

theorem holdPair_paused (s : State) : ∀ j ∈ (holdPair 3 s).par.jobs, j.paused = true := by
  have hjobs : (holdPair 3 s).par = (pairHeld 3 (toPeer 0x20 [3] [] (modPair 3 (pairFailed (nowS s)) s))).par := rfl
  simp [hjobs, pairHeld]

theorem lockstepMismatch_first {s : State} {p : Fin 4} (hp : s.glb.powered = true) (hh : s.glb.resetHeld = false)
    (hs : ¬(s.glb.service = .startUp ∧ p = 0)) (hsoon : tooSoon s p.val = false) :
    Completes (.lockstepMismatch p) s fun t =>
      pairOf t p.val = { pairOf s p.val with inReset := true, faults := min 0xFF ((pairOf s p.val).faults + 1), lastAt := some (nowS s) }
      ∧ (s.peer.linkUp = true → t.out = [.peerMsg 0x20 s.peer.epoch [p.val] []]) ∧ t.peer.aliveOut = aliveNow t
      ∧ (p = 3 → ∀ j ∈ t.par.jobs, j.paused = true) ∧ t.peer.role = s.peer.role ∧ Frame [.peer, .svc, .par] s t := by
  refine completes_of_run rfl rfl ?_
  have hs' : ¬(s.quiet.glb.service = .startUp ∧ p.val = 0) := fun h => hs ⟨h.1, Fin.ext h.2⟩
  rw [mismatchEffect_eq (s := s.quiet) hp hh hs', if_neg (by rw [show tooSoon s.quiet p.val = false from hsoon]; simp)]
  refine ⟨?_, fun hlink => holdPair_out (s := s.quiet) hlink, rfl, ?_, (holdPair_role _ s.quiet).1, (holdPair_frame p.val s.quiet).of_quiet⟩
  · rw [pairOf_holdPair, pairFailed, satAdd_eq_min]
    rfl
  · rintro rfl
    exact holdPair_paused s.quiet

theorem lockstepMismatch_again {s : State} {p : Fin 4} (hp : s.glb.powered = true) (hh : s.glb.resetHeld = false)
    (hs : ¬(s.glb.service = .startUp ∧ p = 0)) (hsoon : tooSoon s p.val = true) (hrole : s.peer.role = .active)
    (hb : s.hqe.behind = []) :
    Completes (.lockstepMismatch p) s fun t =>
      t.peer.role = .service ∧ t.pair.hungOver = true ∧ t.peer.epoch = s.peer.epoch + 1
      ∧ Frame [.hqe, .hep, .ing, .bal, .par, .med, .snp, .far, .peer, .pair, .til, .pins, .evr, .svc] s t := by
  refine completes_of_run rfl rfl ?_
  have hs' : ¬(s.quiet.glb.service = .startUp ∧ p.val = 0) := fun h => hs ⟨h.1, Fin.ext h.2⟩
  have hframe := holdPair_frame p.val s.quiet
  obtain ⟨hroleHeld, hepoch⟩ := holdPair_role p.val s.quiet
  obtain ⟨⟨hservice, -, hnext, -, -, -, -, hdown⟩, hover⟩ :=
    handOver_steppedDown (hroleHeld.trans hrole) ((congrArg Hqe.behind hframe.hqe).trans hb)
  rw [mismatchEffect_eq (s := s.quiet) hp hh hs', if_pos (show tooSoon s.quiet p.val = true from hsoon)]
  exact ⟨hservice, hover, hnext.trans (congrArg (· + 1) hepoch), ((hframe.append hdown).mono (by decide)).of_quiet⟩

theorem lockstepMismatch_startUp {s : State} (hp : s.glb.powered = true) (hh : s.glb.resetHeld = false)
    (hs : s.glb.service = .startUp) : Completes (.lockstepMismatch 0) s fun t => AfterReset .lockstep0 s t := by
  refine completes_of_run rfl rfl ?_
  have heffect : mismatchEffect 0 s.quiet = chipWideReset .lockstep0 s.quiet := by simp [mismatchEffect, hp, hh, hs]
  exact heffect ▸ chipWideReset_afterReset .lockstep0 s.quiet

/-! ### A control pair that runs again (R343, R275) -/

theorem fromCkpt_paused (s : State) (j : Job) : (fromCkpt s j).paused = false := by
  unfold fromCkpt
  split <;> rfl

/-- A pair's record once it runs again. -/
def pairBack (p : CtrlPair) : CtrlPair := { p with inReset := false }

theorem frame_par (s : State) (x : Par) : Frame [.par] s { s with par := x } := by
  intro p hp _
  cases p <;> simp_all [Part.same]

/-- The jobs go on from their checkpoints. -/
def jobsBack (s : State) : State := { s with par := { s.par with jobs := s.par.jobs.map (fromCkpt s) } }

theorem jobsBack_running (s : State) : ∀ j ∈ (jobsBack s).par.jobs, j.paused = false := by
  intro j hj
  obtain ⟨k, -, rfl⟩ := List.mem_map.1 hj
  exact fromCkpt_paused s k

theorem restartEffect_three {s : State} (h : (pairOf s 3).inReset = true) :
    restartEffect 3 s = jobsBack (modPair 3 pairBack s) := by
  unfold restartEffect
  rw [h]
  rfl

theorem restartEffect_other {n : Nat} {s : State} (h : (pairOf s n).inReset = true) (h1 : n ≠ 1) (h3 : n ≠ 3) :
    restartEffect n s = modPair n pairBack s := by
  unfold restartEffect
  rw [h, if_neg h1, if_neg h3]
  rfl

theorem pairRestart_other {s : State} {p : Fin 4} (h : (pairOf s p.val).inReset = true) (hp : p ≠ 1) :
    Completes (.pairRestart p) s fun t =>
      pairOf t p.val = { pairOf s p.val with inReset := false } ∧ (p = 3 → ∀ j ∈ t.par.jobs, j.paused = false) ∧ t.out = []
      ∧ Frame [.peer, .par] s t := by
  refine completes_of_run rfl rfl ?_
  have hpair := pairOf_modPair p.val pairBack s.quiet
  have hout := modPair_out p.val pairBack s.quiet
  have hframe := modPair_frame p.val pairBack s.quiet
  by_cases h3 : p = 3
  · subst h3
    have heffect : restartEffect (3 : Fin 4).val s.quiet = jobsBack (modPair 3 pairBack s.quiet) := restartEffect_three h
    rw [heffect]
    exact ⟨hpair, fun _ => jobsBack_running _, hout, ((hframe.append (frame_par _ _)).mono (by decide)).of_quiet⟩
  · rw [restartEffect_other (s := s.quiet) h (fun h1 => hp (Fin.ext h1)) (fun hn => h3 (Fin.ext hn))]
    exact ⟨hpair, fun hn => absurd hn h3, hout, (hframe.mono (by decide)).of_quiet⟩

/-- The chip as its control pair 1 runs again. -/
def pairOneRuns (s : State) : State := { s with peer := { s.peer with pair1 := pairBack s.peer.pair1 } }

theorem restartEffect_one {s : State} (h : s.peer.pair1.inReset = true) (hc : s.peer.roleChosen = true) :
    restartEffect 1 s = noteAlive (
      if s.peer.role = .sole then claimPeerHeld (claimIdentified (pairOneRuns s))
      else if s.peer.role = .active then
        stepDown 5 { pairOneRuns s with peer := { (pairOneRuns s).peer with linkUp := false, detect := .noPeer } }
      else pairOneRuns s) := by
  have hpair : (pairOf s 1).inReset = true := h
  have hmod : modPair 1 (fun p => { p with inReset := false }) s = pairOneRuns s := rfl
  simp only [restartEffect, hpair, hmod]
  simp [pairOneRuns, hc]

theorem pairRestart_service {s : State} (h : s.peer.pair1.inReset = true) (hc : s.peer.roleChosen = true)
    (hr : s.peer.role = .service) :
    Completes (.pairRestart 1) s fun t =>
      t.peer = { s.peer with pair1 := { s.peer.pair1 with inReset := false }, aliveOut := aliveNow t } ∧ t.out = []
      ∧ Frame [.peer] s t := by
  refine completes_of_run rfl rfl ?_
  have heffect : restartEffect 1 s.quiet = noteAlive (pairOneRuns s.quiet) := by
    rw [restartEffect_one (s := s.quiet) h hc]
    simp [hr]
  rw [show ((1 : Fin 4) : Nat) = 1 from rfl, heffect]
  exact ⟨rfl, rfl, ((frame_peer s.quiet _).trans (noteAlive_frame (pairOneRuns s.quiet))).of_quiet⟩

theorem pairRestart_sole {s : State} (h : s.peer.pair1.inReset = true) (hc : s.peer.roleChosen = true)
    (hr : s.peer.role = .sole) :
    Completes (.pairRestart 1) s fun t =>
      t.peer = { s.peer with pair1 := { s.peer.pair1 with inReset := false }, aliveOut := aliveNow t }
      ∧ Frame [.peer, .far, .med] s t := by
  refine completes_of_run rfl rfl ?_
  have heffect : restartEffect 1 s.quiet = noteAlive (claimPeerHeld (claimIdentified (pairOneRuns s.quiet))) := by
    rw [restartEffect_one (s := s.quiet) h hc]
    simp [hr]
  have hclaims : Frame [.med, .far] (pairOneRuns s.quiet) (claimPeerHeld (claimIdentified (pairOneRuns s.quiet))) :=
    frame_iff.2 (by simp)
  rw [show ((1 : Fin 4) : Nat) = 1 from rfl, heffect]
  have hframe := (frame_peer s.quiet _).append hclaims
  refine ⟨?_, ((hframe.append (noteAlive_frame _)).mono (by decide)).of_quiet⟩
  generalize claimPeerHeld (claimIdentified (pairOneRuns s.quiet)) = u at hclaims ⊢
  have hpeer : u.peer = (pairOneRuns s.quiet).peer := hclaims.peer
  have halive : (noteAlive u).peer = { u.peer with aliveOut := aliveNow (noteAlive u) } := rfl
  rw [halive, hpeer]
  rfl

/-- The head whose pair 1 failed, as its pair runs again: the session with the peer is gone. -/
def pairOneReturns (s : State) : State :=
  { s with peer := { s.peer with pair1 := pairBack s.peer.pair1, linkUp := false, detect := .noPeer } }

theorem pairRestart_active {s : State} (h : s.peer.pair1.inReset = true) (hc : s.peer.roleChosen = true)
    (hr : s.peer.role = .active) (hb : s.hqe.behind = []) :
    Completes (.pairRestart 1) s fun t => SteppedDown s 5 (s.peer.epoch + 1) t ∧ t.peer.linkUp = false := by
  refine completes_of_run rfl rfl ?_
  have heffect : restartEffect 1 s.quiet = noteAlive (stepDown 5 (pairOneReturns s.quiet)) := by
    rw [restartEffect_one (s := s.quiet) h hc]
    simp [hr, pairOneRuns, pairOneReturns]
  have hdown : SteppedDown (pairOneReturns s.quiet) 5 (s.peer.epoch + 1) (stepDown 5 (pairOneReturns s.quiet)) :=
    stepDown_steppedDown (s := pairOneReturns s.quiet) hb 5
  obtain ⟨alive, at_, hpeer⟩ := stepDown_peer (s := pairOneReturns s.quiet) hb 5
  have hlink : (stepDown 5 (pairOneReturns s.quiet)).peer.linkUp = false := by rw [hpeer]; rfl
  rw [show ((1 : Fin 4) : Nat) = 1 from rfl, heffect]
  generalize stepDown 5 (pairOneReturns s.quiet) = u at hdown hlink ⊢
  exact ⟨(hdown.of_before ((frame_peer s.quiet _).of_quiet) (by decide)).noteAlive, hlink⟩

theorem pairReturnDeadline_completes {s : State} {p : Fin 4} (h : (pairOf s p.val).inReset = true) (hr : s.peer.role = .active)
    (hb : s.hqe.behind = []) :
    Completes (.pairReturnDeadline p) s fun t => SteppedDown s 5 (s.peer.epoch + 1) t ∧ t.pair.hungOver = true := by
  have heffect : (if (pairOf s.quiet p.val).inReset then handOver s.quiet else s.quiet) = handOver s.quiet := if_pos h
  refine completes_of_run (f := fun t => if (pairOf t p.val).inReset then handOver t else t) rfl rfl ?_
  rw [heffect]
  obtain ⟨hdown, hover⟩ := handOver_steppedDown (s := s.quiet) hr hb
  exact ⟨hdown.of_before (Frame.quiet [] s) (by decide), hover⟩

theorem pair3PauseDeadline_completes {s : State} (h : s.peer.pair3.inReset = true) (hr : s.peer.role = .active)
    (hb : s.hqe.behind = []) :
    Completes .pair3PauseDeadline s fun t => SteppedDown s 5 (s.peer.epoch + 1) t ∧ t.pair.hungOver = true := by
  have heffect : (if s.quiet.peer.pair3.inReset then handOver s.quiet else s.quiet) = handOver s.quiet := if_pos h
  refine completes_of_run (f := fun t => if t.peer.pair3.inReset then handOver t else t) rfl rfl ?_
  rw [heffect]
  obtain ⟨hdown, hover⟩ := handOver_steppedDown (s := s.quiet) hr hb
  exact ⟨hdown.of_before (Frame.quiet [] s) (by decide), hover⟩

/-- Settles O42: a mismatch holds the pair as `holdPair` says, a pair runs again as `restartEffect` says for it, and both ends
of an ACTIVE head are a `stepDown`, which `stepDown_steppedDown` describes. -/
theorem controlPairsFail : Obligations.ControlPairsFail := by
  unfold Obligations.ControlPairsFail
  refine ⟨fun s p hp hh => ⟨lockstepMismatch_first hp hh, fun hs h0 => ?_, lockstepMismatch_again hp hh⟩,
    fun s p h => ⟨pairRestart_other h, fun h1 hc hr => ?_, fun h1 hc hr => ?_, fun h1 hc hr hb => ?_,
      pairReturnDeadline_completes h, fun h3 => ?_⟩,
    fun s p h => ⟨?_, fun h3 => ?_⟩⟩
  · subst h0
    exact lockstepMismatch_startUp hp hh hs
  · subst h1
    exact pairRestart_service h hc hr
  · subst h1
    exact pairRestart_sole h hc hr
  · subst h1
    exact pairRestart_active h hc hr hb
  · subst h3
    exact pair3PauseDeadline_completes h
  · have heffect : (if (pairOf s.quiet p.val).inReset then handOver s.quiet else s.quiet) = s.quiet := if_neg (Bool.eq_false_iff.1 h)
    exact (run_of_wf (i := .pairReturnDeadline p) rfl (fun t => if (pairOf t p.val).inReset then handOver t else t) s).trans
      (by rw [heffect])
  · subst h3
    have heffect : (if s.quiet.peer.pair3.inReset then handOver s.quiet else s.quiet) = s.quiet := if_neg (Bool.eq_false_iff.1 h)
    exact (run_of_wf (i := .pair3PauseDeadline) rfl (fun t => if t.peer.pair3.inReset then handOver t else t) s).trans
      (by rw [heffect])

end Sys2Proof.Machine
end

section
/-! SUPPORT. The service port's other requests (O54): what a frame that passes the checks of R412 and R413 does. -/

namespace Sys2Proof.Machine

/-! ### A frame that the port takes up (R412, R413) -/

/-- The state in which such a frame's own handling runs: a keyed frame's SEQ is noted, and the boot ROM notes none. -/
def keyNoted (f : DwFrame) (s : State) : State :=
  { s with svc := { s.svc with keyedSeq := if s.glb.service = .romService then s.svc.keyedSeq else some f.seq } }

theorem frame_svc (s : State) (x : Svc) : Frame [.svc] s { s with svc := x } := by
  intro p hp _
  cases p <;> simp_all [Part.same]

theorem keyNoted_frame (f : DwFrame) (s : State) : Frame [.svc] s (keyNoted f s.quiet) := (frame_svc s.quiet _).of_quiet

theorem onceOnly_fresh {s : State} {f : DwFrame} (hp : portHears s f = true) (hf : Fresh s f) (body : State → State) :
    onceOnly f body s = body s := by
  obtain ⟨hstored, hbusy⟩ := hf
  have hfree : onceOnly.notBusy f body s = body s := by
    unfold onceOnly.notBusy
    split
    · next n t h => exact if_neg fun hn => hbusy (by simp [h, hn])
    · rfl
  unfold onceOnly
  rw [hp]
  simp only [Bool.not_true, Bool.false_eq_true, if_false, hfree]
  split
  · next n t st p h => exact if_neg fun hn => hstored (by simp [h, hn])
  · rfl

theorem checkKey_asked {s : State} {f : DwFrame} (h : Asked s f) (required : Bool) (body : State → State) :
    checkKey f required body s = body (keyNoted f s) := by
  obtain ⟨-, -, hkey⟩ := h
  by_cases hrom : s.glb.service = .romService
  · simp [checkKey, keyNoted, hrom]
  · obtain ⟨hkeyed, hvault, hpasses⟩ := hkey.resolve_left hrom
    simp [checkKey, keyNoted, hrom, hkeyed, hvault, hpasses]

theorem svcRow_asked {s : State} {f : DwFrame} (h : Asked s f) {states : List Service} (hs : s.glb.service ∈ states)
    (required : Bool) (body : State → State) : svcRow f states required body s = body (keyNoted f s) := by
  obtain ⟨hp, hf, hkey⟩ := h
  rw [svcRow, onceOnly_fresh hp hf, if_pos hs, checkKey_asked ⟨hp, hf, hkey⟩]

/-- Such a frame completes where its own handling has the property. -/
theorem completes_asked {s : State} {f : DwFrame} {i : Instr} {states : List Service} {required : Bool} {body : State → State}
    {p : State → Prop} (h : Asked s f) (he : exec i s = run i (svcRow f states required body) s) (hwf : i.wf = true)
    (hs : s.glb.service ∈ states) (hp : p (body (keyNoted f s.quiet))) : Completes i s p :=
  completes_of_run he hwf (by rwa [svcRow_asked (s := s.quiet) h hs])

/-! ### Responses -/

theorem reply_answers (f : DwFrame) (st : Nat) (p : Bytes) (s : State) : Answers f st p (reply f st p s) := by
  simp [Answers, reply, emit]

theorem reply_frame (f : DwFrame) (st : Nat) (p : Bytes) (s : State) : Frame [.svc] s (reply f st p s) :=
  frame_iff.2 (reply_outside (by decide) ..)

/-- A response to a frame that nothing else follows. -/
theorem asked_reply (f : DwFrame) (st : Nat) (p : Bytes) (s : State) :
    Answers f st p (reply f st p (keyNoted f s.quiet)) ∧ Frame [.svc] s (reply f st p (keyNoted f s.quiet)) :=
  ⟨reply_answers .., (keyNoted_frame f s).trans (reply_frame f st p _)⟩

/-! ### RESET, EVENT READ -/

theorem svcReset_completes {s : State} {f : DwFrame} (h : Asked s f) (hs : s.glb.service ≠ .startUp)
    (hwf : (Instr.svcReset f).wf = true) :
    Completes (.svcReset f) s fun t => Answers f 0 [] t ∧ t.glb = { s.glb with resetPending := true } ∧ Frame [.glb, .svc] s t := by
  refine completes_asked h rfl hwf (by cases hv : s.glb.service <;> simp_all) ⟨reply_answers .., rfl, ?_⟩
  exact frame_iff.2 (by simp [keyNoted])

/-- What the records of a source are. -/
def eventSource (s : State) (media : List Bytes) (src : Nat) : List (Nat × Bytes) :=
  if src = 0 then ringRecords s else if src = 1 then norRecords s else media.map fun b => (recSeq b, b)

theorem eventReadBody_eq {f : DwFrame} (hlen : f.payload.length = 11) (h1 : 1 ≤ numAt f.payload 8 2)
    (h63 : numAt f.payload 8 2 ≤ 63) (hsrc : numAt f.payload 10 1 ≤ 2) (media : List Bytes) (s : State) :
    eventReadBody f media s
      = if numAt f.payload 10 1 = 2 ∧ s.glb.service ≠ .normal then reply f 0x21 [] s
        else reply f 0 (pickRecords (numAt f.payload 0 8) (numAt f.payload 8 2) (eventSource s media (numAt f.payload 10 1))).flatten s := by
  have hbad : ¬(f.payload.length ≠ 11 ∨ numAt f.payload 8 2 = 0 ∨ 63 < numAt f.payload 8 2 ∨ 2 < numAt f.payload 10 1) := by omega
  simp only [eventReadBody, hbad, if_false, eventSource]

theorem eventRead_completes {s : State} {f : DwFrame} (h : Asked s f) (hs : s.glb.service ≠ .startUp) {media : List Bytes}
    (hwf : (Instr.eventRead f media).wf = true) {p : State → Prop} (hp : p (eventReadBody f media (keyNoted f s.quiet))) :
    Completes (.eventRead f media) s p :=
  completes_asked h rfl hwf (by cases hv : s.glb.service <;> simp_all) hp

theorem eventRead_records {s : State} {f : DwFrame} (h : Asked s f) (hs : s.glb.service ≠ .startUp) {media : List Bytes}
    (hwf : (Instr.eventRead f media).wf = true) (hlen : f.payload.length = 11) (h1 : 1 ≤ numAt f.payload 8 2)
    (h63 : numAt f.payload 8 2 ≤ 63) {src : Nat} (hsrc : numAt f.payload 10 1 = src) (hmay : src < 2 ∨ src = 2 ∧ s.glb.service = .normal) :
    Completes (.eventRead f media) s fun t =>
      Answers f 0 (pickRecords (numAt f.payload 0 8) (numAt f.payload 8 2) (eventSource s media src)).flatten t ∧ Frame [.svc] s t := by
  refine eventRead_completes h hs hwf ?_
  have hmayNot : ¬(numAt f.payload 10 1 = 2 ∧ (keyNoted f s.quiet).glb.service ≠ .normal) := by
    rintro ⟨h2, hn⟩
    exact hmay.elim (by omega) fun hm => hn hm.2
  rw [eventReadBody_eq hlen h1 h63 (by omega), if_neg hmayNot, hsrc]
  exact asked_reply f 0 _ s

theorem eventRead_refused {s : State} {f : DwFrame} (h : Asked s f) (hs : s.glb.service ≠ .startUp) {media : List Bytes}
    (hwf : (Instr.eventRead f media).wf = true) (hlen : f.payload.length = 11) (h1 : 1 ≤ numAt f.payload 8 2)
    (h63 : numAt f.payload 8 2 ≤ 63) (hsrc : numAt f.payload 10 1 = 2) (hn : s.glb.service ≠ .normal) :
    Completes (.eventRead f media) s fun t => Answers f 0x21 [] t ∧ Frame [.svc] s t := by
  refine eventRead_completes h hs hwf ?_
  have hmayNot : numAt f.payload 10 1 = 2 ∧ (keyNoted f s.quiet).glb.service ≠ .normal := ⟨hsrc, hn⟩
  rw [eventReadBody_eq hlen h1 h63 (by omega), if_pos hmayNot]
  exact asked_reply f 0x21 [] s

/-! ### DRAM SWEEP (R384, R414) -/

theorem clearChannel_dram (c : Nat) (s : State) (a : Nat) :
    cellRead dramDefault (clearChannel c s).dram a = if a / 256 % 12 = c then 0 else cellRead dramDefault s.dram a := by
  have hread := tabGet_filter dramDefault (fun n => n / 256 % 12 != c) a s.dram
  by_cases hc : a / 256 % 12 = c
  · rw [if_pos hc]
    exact hread.trans (if_neg (by simp [hc]))
  · rw [if_neg hc]
    exact hread.trans (if_pos (by simp [hc]))

theorem padTo_self {n : Nat} {b : Bytes} (h : b.length = n) : padTo n b = b := by
  rw [padTo, bytesAt, List.drop_zero, List.take_append_of_le_length (by omega), List.take_of_length_le (by omega)]

theorem flatMap_padTo_maps {maps : List Bytes} (h : ∀ m ∈ maps, m.length = 16) :
    ((List.range maps.length).flatMap fun i => padTo 16 (maps.getD i [])) = maps.flatten := by
  have hpad : ∀ m ∈ maps, padTo 16 m = m := fun m hm => padTo_self (h m hm)
  have hmaps : ((List.range maps.length).map fun i => padTo 16 (maps.getD i [])) = maps := by
    apply List.ext_getElem
    · simp
    · intro i hi hi'
      simp [hi', hpad]
  rw [List.flatMap, hmaps]

theorem dramSweep_completes {s : State} {f : DwFrame} (h : Asked s f) (hs : s.glb.service = .romService) {maps : List Bytes}
    (hwf : (Instr.dramSweep f maps).wf = true) (hlen : f.payload.length = 4) (hc : numAt f.payload 0 1 ≤ 11)
    (hs2 : numAt f.payload 1 1 ≤ 3) (hr : numAt f.payload 2 1 ≤ 1)
    (hfld : numAt f.payload 3 1 ≤ (if numAt f.payload 2 1 = 0 then 2 else 5))
    (hmaps : maps.length = (if numAt f.payload 2 1 = 0 then 1 else 20)) :
    Completes (.dramSweep f maps) s fun t =>
      Answers f 0 maps.flatten t
      ∧ (∀ a, cellRead dramDefault t.dram a = if a / 256 % 12 = numAt f.payload 0 1 then 0 else cellRead dramDefault s.dram a)
      ∧ Frame [.svc, .dram] s t := by
  refine completes_asked h rfl hwf (by simp [hs]) ?_
  have hgood : ¬(f.payload.length ≠ 4 ∨ 11 < numAt f.payload 0 1 ∨ 3 < numAt f.payload 1 1 ∨ 1 < numAt f.payload 2 1
      ∨ (if numAt f.payload 2 1 = 0 then 2 else 5) < numAt f.payload 3 1) := by omega
  have hwidth : ∀ m ∈ maps, m.length = 16 := by
    simp [Instr.wf] at hwf
    exact hwf.2
  have heffect : sweepBody f maps (keyNoted f s.quiet)
      = reply f 0 maps.flatten (clearChannel (numAt f.payload 0 1) (keyNoted f s.quiet)) := by
    simp only [sweepBody, hgood, if_false, ← hmaps, flatMap_padTo_maps hwidth]
  rw [heffect]
  exact ⟨reply_answers .., clearChannel_dram _ _, frame_iff.2 (by simp [keyNoted])⟩

/-! ### TAMPER CLEAR, RE-ENUMERATE -/

theorem tamperClear_completes {s : State} {f : DwFrame} (h : Asked s f) (hs : s.glb.service = .normal)
    (hwf : (Instr.tamperClear f).wf = true) (hp : s.wch.pending = none) :
    Completes (.tamperClear f) s fun t =>
      Answers f 0 [] t ∧ t.wch = { s.wch with pending := some (.other .clearTamper) } ∧ Frame [.svc, .wch] s t := by
  refine completes_asked h rfl hwf (by simp [hs]) ⟨reply_answers .., ?_, frame_iff.2 (by simp [keyNoted])⟩
  simp [reply, emit, wchCross, keyNoted, hp]

/-- The chip's own chain registers once it enumerates. -/
def enumerating (s : State) : Mch :=
  let a := enumAddress s.glb.headId s.pair.paired s.pair.serial 0 true 0
  { s.mch with gen := s.mch.gen + 1, table := tabPut 0 a.toNat s.glb.unitSerial [], groups := [], fedId := ownFedId s, reenum := false,
               addrValid := a != 0xFF, address := if a = 0xFF then 0 else a.setWidth 6, enumOut := true }

theorem chainSend_out (type : Nat) (args : List Nat) (s : State) :
    ∃ o, chainSend type args s = { s with out := s.out ++ o } := by
  unfold chainSend
  cases !(s.mch.port0.wrapped && s.mch.port1.wrapped)
  · exact ⟨[], by rw [List.append_nil]; rfl⟩
  · exact ⟨[_], rfl⟩

theorem startEnum_change (s : State) : ∃ o, startEnum s = { s with mch := enumerating s, out := s.out ++ o } := by
  unfold startEnum sendEnum
  exact chainSend_out ..

theorem reEnumerate_completes {s : State} {f : DwFrame} (h : Asked s f) (hs : s.glb.service = .normal)
    (hwf : (Instr.reEnumerate f).wf = true) (hm : s.mch.role = .master) (hp : pair2Up s = true) :
    Completes (.reEnumerate f) s fun t =>
      Answers f 0 [] t ∧ t.mch.gen = s.mch.gen + 1 ∧ t.mch.enumOut = true ∧ t.mch.fedId = ownFedId s ∧ Frame [.svc, .mch] s t := by
  refine completes_asked h rfl hwf (by simp [hs]) ?_
  have heffect : reEnumerateBody f (keyNoted f s.quiet) = startEnum (reply f 0 [] (keyNoted f s.quiet)) := if_pos ⟨hm, hp⟩
  obtain ⟨o, henum⟩ := startEnum_change (reply f 0 [] (keyNoted f s.quiet))
  rw [heffect]
  refine ⟨?_, ?_, ?_, ?_, frame_iff.2 (by simp [keyNoted])⟩ <;> rw [henum]
  · exact ⟨List.mem_append_left _ (reply_answers f 0 [] _).1, rfl⟩
  · rfl
  · rfl
  · rfl

theorem reEnumerate_refused {s : State} {f : DwFrame} (h : Asked s f) (hs : s.glb.service = .normal)
    (hwf : (Instr.reEnumerate f).wf = true) (hm : s.mch.role ≠ .master) :
    Completes (.reEnumerate f) s fun t => Answers f 0x21 [] t ∧ Frame [.svc] s t := by
  refine completes_asked h rfl hwf (by simp [hs]) ?_
  have heffect : reEnumerateBody f (keyNoted f s.quiet) = reply f 0x21 [] (keyNoted f s.quiet) := if_neg fun hn => hm hn.1
  rw [heffect]
  exact asked_reply f 0x21 [] s

/-! ### TEST ENTRY (R58, R427) -/

theorem testEntryEffect_asked {s : State} {f : DwFrame} (h : Asked s f) (hs : s.glb.service = .normal) :
    testEntryEffect f s = testEntryBody f (keyNoted f s) := by
  obtain ⟨hp, hf, hkey⟩ := h
  rw [testEntryEffect, onceOnly_fresh hp hf, if_pos hs, checkKey_asked ⟨hp, hf, hkey⟩]

theorem testEntry_fused {s : State} {f : DwFrame} (h : Asked s f) (hs : s.glb.service = .normal)
    (hwf : (Instr.testEntry f).wf = true) (hd : s.glb.debugOff = true) :
    Completes (.testEntry f) s fun t => Answers f 0x22 [] t ∧ Frame [.svc] s t := by
  refine completes_of_run rfl hwf ?_
  have hbody : testEntryBody f (keyNoted f s.quiet) = reply f 0x22 [] (keyNoted f s.quiet) := if_pos hd
  rw [testEntryEffect_asked (s := s.quiet) h hs, hbody]
  exact asked_reply f 0x22 [] s

theorem testEntry_refused {s : State} {f : DwFrame} (h : Asked s f) (hs : s.glb.service = .normal)
    (hwf : (Instr.testEntry f).wf = true) (hd : s.glb.debugOff = false) (hr : s.peer.role ≠ .service) :
    Completes (.testEntry f) s fun t => Answers f 0x21 [] t ∧ Frame [.svc, .evr] s t := by
  refine completes_of_run rfl hwf ?_
  have hbody : testEntryBody f (keyNoted f s.quiet) = testRefused f (keyNoted f s.quiet) := by
    simp [testEntryBody, keyNoted, hd, hr]
  rw [testEntryEffect_asked (s := s.quiet) h hs, hbody]
  exact ⟨reply_answers .., frame_iff.2 (by simp [keyNoted])⟩

theorem setService_glb (v : Service) (s : State) : (setService v s).glb = { s.glb with service := v } := by
  rw [setService, restat_glb]

theorem testEntry_completes {s : State} {f : DwFrame} (h : Asked s f) (hs : s.glb.service = .normal)
    (hwf : (Instr.testEntry f).wf = true) (hd : s.glb.debugOff = false) (hr : s.peer.role = .service)
    (h0 : s.peer.pair0.inReset = false) :
    Completes (.testEntry f) s fun t =>
      Answers f 0 [] t ∧ t.glb = { s.glb with service := .test } ∧ Frame [.svc, .glb, .pins, .sec, .rdm] s t := by
  refine completes_of_run rfl hwf ?_
  have hbody : testEntryBody f (keyNoted f s.quiet) = reply f 0 [] (measExtend 6 [0x54] (setService .test
      { keyNoted f s.quiet with rdm := { s.rdm with atomicsOff := false } })) := by
    simp [testEntryBody, keyNoted, hd, hr, h0, hs]
  rw [testEntryEffect_asked (s := s.quiet) h hs, hbody]
  exact ⟨reply_answers .., setService_glb .test _, frame_iff.2 (by simp [keyNoted])⟩

/-! ### FUSE (R426) -/

theorem blownFuse_glb (n i : Nat) (s : State) : (blownFuse n i s).glb
    = if n = 1 then { s.glb with debugOff := true } else { s.glb with revoked := s.glb.revoked ||| BitVec.ofNat 4 (2 ^ i) } := by
  obtain ⟨e, he⟩ := raiseListed_evr .svc .critical 0x3806 (leBytes 1 n ++ leBytes 1 i) s
  rw [blownFuse, he]
  split <;> rfl

theorem mayRevoke_keyNoted (f : DwFrame) (s : State) (i : Nat) : mayRevoke (keyNoted f s.quiet) i = mayRevoke s i := rfl

theorem fuse_completes {s : State} {f : DwFrame} (h : Asked s f) (hs : s.glb.service = .normal)
    (hwf : (Instr.fuse f).wf = true) (hlen : f.payload.length = 8) (hmagic : numAt f.payload 4 4 = 0xF05E9640) {n i : Nat}
    (hn : numAt f.payload 0 1 = n) (hi : numAt f.payload 1 1 = i) (hmay : n = 1 ∨ n = 2 ∧ i ≤ 3 ∧ mayRevoke s i = true) :
    Completes (.fuse f) s fun t => Answers f 0 [] t ∧ t.glb = (if n = 1 then { s.glb with debugOff := true } else
        { s.glb with revoked := s.glb.revoked ||| BitVec.ofNat 4 (2 ^ i) }) ∧ Frame [.svc, .glb, .evr] s t := by
  refine completes_asked h rfl hwf (by simp [hs]) ?_
  have hgood : ¬(f.payload.length ≠ 8 ∨ numAt f.payload 4 4 ≠ 0xF05E9640 ∨ n = 0 ∨ 2 < n ∨ (n = 2 ∧ 3 < i)) := by omega
  have hallowed : ¬(n = 2 ∧ mayRevoke (keyNoted f s.quiet) i = false) := by
    rw [mayRevoke_keyNoted]
    rintro ⟨h2, hnot⟩
    exact hmay.elim (by omega) fun hm => by simp [hm.2.2] at hnot
  have hbody : fuseBody f (keyNoted f s.quiet) = reply f 0 [] (blownFuse n i (keyNoted f s.quiet)) := by
    simp only [fuseBody, hn, hi, hgood, hallowed, if_false]
  rw [hbody]
  exact ⟨reply_answers .., blownFuse_glb n i (keyNoted f s.quiet), frame_iff.2 (by simp [keyNoted])⟩

theorem fuse_refused {s : State} {f : DwFrame} (h : Asked s f) (hs : s.glb.service = .normal)
    (hwf : (Instr.fuse f).wf = true) (hlen : f.payload.length = 8) (hmagic : numAt f.payload 4 4 = 0xF05E9640) {i : Nat}
    (hn : numAt f.payload 0 1 = 2) (hi : numAt f.payload 1 1 = i) (hle : i ≤ 3) (hmay : mayRevoke s i = false) :
    Completes (.fuse f) s fun t => Answers f 0x31 [] t ∧ Frame [.svc] s t := by
  refine completes_asked h rfl hwf (by simp [hs]) ?_
  have hi3 : ¬3 < i := by omega
  have hbody : fuseBody f (keyNoted f s.quiet) = reply f 0x31 [] (keyNoted f s.quiet) := by
    simp [fuseBody, hlen, hmagic, hn, hi, hi3, mayRevoke_keyNoted, hmay]
  rw [hbody]
  exact asked_reply f 0x31 [] s

/-! ### KEYSET (R423) -/

theorem syncSlot_frame (n : Nat) (s : State) : Frame [] s (syncSlot n s) := frame_iff.2 (syncSlot_outside n s)

theorem persistSlot_slots (n : Nat) (s : State) : (persistSlot n s).sec.slots = s.sec.slots := by
  unfold persistSlot
  (repeat' split) <;> rfl

theorem writeSlot_slots (n : Nat) (k : Slot) (s : State) : (writeSlot n k s).sec.slots = tabPut {} n k s.sec.slots := by
  rw [writeSlot, (syncSlot_frame _ _).sec, persistSlot_slots]
  rfl

/-- The slot that an enrolled key fills. -/
def enrolled (n : Nat) (k : Bytes) : Slot := filledSlot (if n = escrowSlot then typeWrap else typeCmac) 0 false k false

theorem enrolKey_slots (n method : Nat) (k : Bytes) (s : State) :
    (enrolKey n method k s).sec.slots = tabPut {} n (enrolled n k) s.sec.slots := by
  unfold enrolKey
  extract_lets x t
  obtain ⟨e, he⟩ := raiseListed_evr .svc (if method = 0 then .critical else .notice) 0x3805
    (leBytes 2 n ++ leBytes 1 method ++ leBytes 8 x.idA.toNat) t
  rw [he]
  exact writeSlot_slots n (enrolled n k) s

/-- A key that is enrolled stands in its slot, and in no other. -/
theorem slotOf_enrolKey (n method : Nat) (k : Bytes) (s : State) (m : Nat) :
    slotOf (enrolKey n method k s) m = if m = n then enrolled n k else slotOf s m := by
  rw [slotOf, enrolKey_slots]
  by_cases h : m = n
  · subst h
    rw [if_pos rfl]
    exact tabGet_tabPut_of_value (by simp [enrolled, filledSlot]) m s.sec.slots
  · rw [if_neg h]
    exact tabGet_tabPut_of_ne _ _ h s.sec.slots

/-- What a KEYSET that is carried out leaves. -/
theorem keyset_enrols {f : DwFrame} {s u : State} (hu : Frame [.svc] s u) (n method : Nat) (k : Bytes) :
    Answers f 0 [] (reply f 0 [] (enrolKey n method k u))
    ∧ (slotOf (reply f 0 [] (enrolKey n method k u)) n).state = .active
    ∧ (slotOf (reply f 0 [] (enrolKey n method k u)) n).material = k
    ∧ (∀ m, m ≠ n → slotOf (reply f 0 [] (enrolKey n method k u)) m = slotOf s m)
    ∧ Frame [.svc, .sec, .evr] s (reply f 0 [] (enrolKey n method k u)) := by
  have hslot : ∀ m, slotOf (reply f 0 [] (enrolKey n method k u)) m = if m = n then enrolled n k else slotOf s m := by
    intro m
    have hsame : slotOf u m = slotOf s m := by rw [slotOf, hu.sec, slotOf]
    rw [← hsame, ← slotOf_enrolKey n method k u m]
    rfl
  refine ⟨reply_answers .., ?_, ?_, fun m hm => ?_, ?_⟩
  · rw [hslot, if_pos rfl]
    rfl
  · rw [hslot, if_pos rfl]
    rfl
  · rw [hslot, if_neg hm]
  · exact (hu.mono (by decide)).trans (frame_iff.2 (by simp))

theorem keysetBody_enrols {f : DwFrame} {s : State} {n method : Nat} {k : Bytes} (hlen : 6 ≤ f.payload.length)
    (hsize : numAt f.payload 4 2 = f.payload.length - 6) (hn : numAt f.payload 0 2 = n) (hm : numAt f.payload 2 1 = method)
    (hmethod : method = 1 ∨ method = 0 ∧ firstEnrolment s f = true) (hslot : n ∈ deviceSlots)
    (hfree : n ≠ 0x1FF0 ∨ s.peer.role ≠ .active) (hk : keysetKey s f = some k) :
    keysetBody f s = reply f 0 [] (enrolKey n method k s) := by
  have hgood : ¬(f.payload.length < 6 ∨ numAt f.payload 4 2 ≠ f.payload.length - 6 ∨ 1 < method ∨ !(deviceSlots.contains n)
      ∨ (method = 0 ∧ firstEnrolment s f = false)) := by
    rcases hmethod with rfl | ⟨rfl, hfirst⟩
    · simp [hslot, hsize, hlen]
    · simp [hslot, hsize, hlen, hfirst]
  have hallowed : ¬(n = pairKey ∧ s.peer.role = .active) := fun h => hfree.elim (fun hne => hne h.1) fun hne => hne h.2
  simp only [keysetBody, hn, hm, hgood, hallowed, if_false, hk]

theorem keyset_keyed {s : State} {f : DwFrame} {n : Nat} {k : Bytes} (h : Asked s f) (hwf : (Instr.keyset f).wf = true)
    (hs : s.glb.service = .normal ∨ s.glb.service = .recovery) (hlen : 6 ≤ f.payload.length)
    (hsize : numAt f.payload 4 2 = f.payload.length - 6) (hn : numAt f.payload 0 2 = n) (hm : numAt f.payload 2 1 = 1)
    (hslot : n ∈ deviceSlots) (hk : keysetKey s f = some k) (hfree : n ≠ 0x1FF0 ∨ s.peer.role ≠ .active) :
    Completes (.keyset f) s fun t =>
      Answers f 0 [] t ∧ (slotOf t n).state = .active ∧ (slotOf t n).material = k
      ∧ (∀ m, m ≠ n → slotOf t m = slotOf s m) ∧ Frame [.svc, .sec, .evr] s t := by
  refine completes_of_run rfl hwf ?_
  have hstates : s.quiet.glb.service ∈ [Service.normal, .recovery] := by simpa using hs
  have heffect : keysetEffect f s.quiet = reply f 0 [] (enrolKey n 1 k (keyNoted f s.quiet)) := by
    rw [keysetEffect, svcRow_asked (s := s.quiet) h hstates]
    exact keysetBody_enrols hlen hsize hn hm (.inl rfl) hslot hfree hk
  rw [heffect]
  exact keyset_enrols (keyNoted_frame f s) n 1 k

theorem keyset_refused {s : State} {f : DwFrame} (h : Asked s f) (hwf : (Instr.keyset f).wf = true)
    (hs : s.glb.service = .normal ∨ s.glb.service = .recovery) (hlen : 6 ≤ f.payload.length)
    (hsize : numAt f.payload 4 2 = f.payload.length - 6) (hn : numAt f.payload 0 2 = 0x1FF0) (hm : numAt f.payload 2 1 = 1)
    (hrole : s.peer.role = .active) :
    Completes (.keyset f) s fun t => Answers f 0x31 [] t ∧ Frame [.svc] s t := by
  refine completes_of_run rfl hwf ?_
  have hstates : s.quiet.glb.service ∈ [Service.normal, .recovery] := by simpa using hs
  have heffect : keysetEffect f s.quiet = reply f 0x31 [] (keyNoted f s.quiet) := by
    have hpair : (keyNoted f s.quiet).peer.role = .active := hrole
    rw [keysetEffect, svcRow_asked (s := s.quiet) h hstates]
    simp [keysetBody, hn, hm, hsize, hlen, hpair, deviceSlots, pairKey]
  rw [heffect]
  exact asked_reply f 0x31 [] s

/-- The fields of a KEYSET whose key is in clear. -/
theorem clearKeyset_fields {f : DwFrame} {k : Bytes}
    (hf : f.payload = leBytes 2 0x1FF3 ++ [BitVec.ofNat 8 0, 0] ++ leBytes 2 32 ++ k) (hk : k.length = 32) :
    f.payload.length = 38 ∧ numAt f.payload 0 2 = 0x1FF3 ∧ numAt f.payload 2 1 = 0 ∧ numAt f.payload 4 2 = 32
      ∧ f.payload.drop 6 = k := by
  have hbytes : f.payload = [0xF3, 0x1F, 0, 0, 32, 0] ++ k := hf
  rw [hbytes]
  refine ⟨by simp [hk], ?_, ?_, ?_, rfl⟩
  · simp [numAt, bytesAt, leNat]
  · simp [numAt, bytesAt, leNat]
  · simp [numAt, bytesAt, leNat]

theorem keyset_first {s : State} {f : DwFrame} {k : Bytes} (hwf : (Instr.keyset f).wf = true)
    (hs : s.glb.service = .normal ∨ s.glb.service = .recovery)
    (hf : f.payload = leBytes 2 0x1FF3 ++ [BitVec.ofNat 8 0, 0] ++ leBytes 2 32 ++ k) (hk : k.length = 32)
    (hkeyed : keyedFrame f = false) (hp : portHears s f = true) (hfresh : Fresh s f) (hempty : (slotOf s 0x1FF3).state = .empty) :
    Completes (.keyset f) s fun t =>
      Answers f 0 [] t ∧ (slotOf t 0x1FF3).state = .active ∧ (slotOf t 0x1FF3).material = k
      ∧ (∀ m, m ≠ 0x1FF3 → slotOf t m = slotOf s m) ∧ Frame [.svc, .sec, .evr] s t := by
  obtain ⟨hlen, hn, hm, hsize, hdrop⟩ := clearKeyset_fields hf hk
  refine completes_of_run rfl hwf ?_
  have hstates : s.quiet.glb.service ∈ [Service.normal, .recovery] := by simpa using hs
  have hrom : ¬s.quiet.glb.service = .romService := by
    rw [quiet_glb]
    rcases hs with hs | hs <;> simp [hs]
  have hfirst : firstEnrolment s.quiet f = true := by
    have hslot : (slotOf s.quiet 0x1FF3).state = .empty := hempty
    simp [firstEnrolment, hkeyed, hn, hm, hslot, serviceKey]
  have hkey : keysetKey s.quiet f = some k := by simp [keysetKey, hm, hdrop, hk]
  have hbody : keysetBody f s.quiet = reply f 0 [] (enrolKey 0x1FF3 0 k s.quiet) :=
    keysetBody_enrols (by omega) (by omega) hn hm (.inr ⟨rfl, hfirst⟩) (by decide) (.inl (by decide)) hkey
  have heffect : keysetEffect f s.quiet = reply f 0 [] (enrolKey 0x1FF3 0 k s.quiet) := by
    rw [keysetEffect, svcRow, onceOnly_fresh (s := s.quiet) hp hfresh, if_pos hstates, hfirst, checkKey, if_neg hrom, hkeyed]
    exact hbody
  rw [heffect]
  exact keyset_enrols (Frame.quiet _ s) 0x1FF3 0 k

/-! ### DEBUG ACCESS (R427) -/

theorem debugAccess_fused {s : State} {f : DwFrame} (h : Asked s f) (hwf : (Instr.debugAccess f).wf = true)
    (hs : s.glb.service ≠ .startUp) (hd : s.glb.debugOff = true) :
    Completes (.debugAccess f) s fun t => Answers f 0x22 [] t ∧ Frame [.svc] s t := by
  refine completes_of_run rfl hwf ?_
  have heffect : debugAccessEffect f s.quiet = reply f 0x22 [] (keyNoted f s.quiet) := by
    obtain ⟨hp, hf, hkey⟩ := h
    rw [debugAccessEffect, onceOnly_fresh (s := s.quiet) hp hf, if_neg (show ¬s.quiet.glb.service = .startUp from hs), if_pos (show s.quiet.glb.debugOff = true from hd),
      checkKey_asked (s := s.quiet) ⟨hp, hf, hkey⟩]
  rw [heffect]
  exact asked_reply f 0x22 [] s

theorem debugAccess_refused {s : State} {f : DwFrame} (h : Asked s f) (hwf : (Instr.debugAccess f).wf = true)
    (hd : s.glb.debugOff = false) (hs : s.glb.service ≠ .test) :
    Completes (.debugAccess f) s fun t => Answers f 0x21 [] t ∧ Frame [.svc] s t := by
  refine completes_of_run rfl hwf ?_
  have heffect : debugAccessEffect f s.quiet = reply f 0x21 [] s.quiet := by
    obtain ⟨hp, hf, -⟩ := h
    rw [debugAccessEffect, onceOnly_fresh (s := s.quiet) hp hf]
    simp [hd, hs]
  rw [heffect]
  exact ⟨reply_answers .., (reply_frame f 0x21 [] s.quiet).of_quiet⟩

theorem debugAccessEffect_test {s : State} {f : DwFrame} (h : Asked s f) (hd : s.glb.debugOff = false)
    (hs : s.glb.service = .test) : debugAccessEffect f s = debugBody f (keyNoted f s) := by
  obtain ⟨hp, hf, hkey⟩ := h
  rw [debugAccessEffect, onceOnly_fresh hp hf, if_neg (by simp [hs]), if_neg (by simp [hd]), if_pos hs,
    checkKey_asked ⟨hp, hf, hkey⟩]

theorem debugAccess_read {s : State} {f : DwFrame} (h : Asked s f) (hwf : (Instr.debugAccess f).wf = true)
    (hd : s.glb.debugOff = false) (hs : s.glb.service = .test) (hlen : f.payload.length = 16) (hr : numAt f.payload 8 1 = 0) :
    Completes (.debugAccess f) s fun t => ∃ v : Nat, Answers f 0 (leBytes 4 v) t
      ∧ v = readReturns { s with svc := { s.svc with keyedSeq := some f.seq }, out := [] } ⟨.debug, numAt f.payload 0 8, 32⟩ := by
  refine completes_of_run rfl hwf ?_
  have hnoted : keyNoted f s.quiet = { s with svc := { s.svc with keyedSeq := some f.seq }, out := [] } := by
    simp [keyNoted, hs, State.quiet]
  have hbody : debugBody f (keyNoted f s.quiet)
      = reply f 0 (leBytes 4 (readReturns (keyNoted f s.quiet) ⟨.debug, numAt f.payload 0 8, 32⟩))
          (regRead ⟨.debug, numAt f.payload 0 8, 32⟩ (keyNoted f s.quiet)) := by
    simp [debugBody, hlen, hr]
  rw [debugAccessEffect_test (s := s.quiet) h hd hs, hbody, hnoted]
  exact ⟨_, reply_answers .., rfl⟩

theorem wordWrite_nvc (q : Requester) {o : Nat} (h1 : 0x1400000 ≤ o) (h2 : o < 0x1500000) (hq : o ≠ 0xF00014) (v : Word32) (s : State) :
    wordWrite q o v s = writeNvc (o - 0x1400000) v s := by
  unfold wordWrite
  repeat rw [if_neg (by omega)]
  rw [if_pos h2]

/-- A write of NVC.SUSP_CFG in TEST. -/
theorem controlWrite_suspCfg (v : Word64) (s : State) :
    controlWrite .debug 0x1400004 32 v s = writeNvc 4 (v.extractLsb' 0 32) s := by
  rw [controlWrite_word (by decide) rfl, wordWrite_nvc _ (by decide) (by decide) (by decide)]

theorem debugAccess_write {s : State} {f : DwFrame} (h : Asked s f) (hwf : (Instr.debugAccess f).wf = true)
    (hd : s.glb.debugOff = false) (hs : s.glb.service = .test) (hlen : f.payload.length = 16) (hw : numAt f.payload 8 1 = 1)
    (ho : numAt f.payload 0 8 = 0x1400004) :
    Completes (.debugAccess f) s fun t =>
      Answers f 0 [] t ∧ t.nvc.tsus.toNat = numAt f.payload 12 4 % 256 ∧ Frame [.svc, .nvc] s t := by
  refine completes_of_run rfl hwf ?_
  have hbody : debugBody f (keyNoted f s.quiet)
      = reply f 0 [] (writeNvc 4 ((BitVec.ofNat 64 (numAt f.payload 12 4)).extractLsb' 0 32) (keyNoted f s.quiet)) := by
    simp [debugBody, hlen, hw, ho, controlWrite_suspCfg]
  rw [debugAccessEffect_test (s := s.quiet) h hd hs, hbody]
  refine ⟨reply_answers .., ?_, frame_iff.2 (by simp [keyNoted, writeNvc])⟩
  simp [reply, emit, writeNvc]

/-! ### RESHAPE (R279, R280) -/

/-- The layout that a RESHAPE asks for. -/
def askedLayout (f : DwFrame) (s : State) : Layout :=
  { id := s.par.nextLay, d := numAt f.payload 1 1, q := numAt f.payload 2 1 == 1,
    elig := (List.range 96).filter fun k => bitOf (numAt f.payload (4 + k / 8) 1) (k % 8) }

/-- The job that it starts. -/
def reshapeJob (n : Nat) (l : Layout) (s : State) : Job :=
  ⟨0, .reshape, 1, false, true, n, (slotLayout s n).id, l, (slotLayout s n).elig.filter fun k => !(k ∈ l.elig), 0xFFFF, 0, 0, 0, 0, 0⟩

theorem reshapeBody_eq {f : DwFrame} {n : Nat} (hlen : f.payload.length = 16) (hn : numAt f.payload 0 1 = n) (hle : n ≤ 2)
    (hq : numAt f.payload 2 1 ≤ 1) {s : State} (hr : s.peer.role ≠ .service) :
    reshapeBody f s = if reshapeRefused s n (askedLayout f s) then
        reply f 0x31 [] (raise .par .notice 279 0 [n, (askedLayout f s).d] s)
      else reply f 0 [] (addTask (reshapeJob n (askedLayout f s) s)
        (setLayout n (askedLayout f s) { s with par := { s.par with nextLay := s.par.nextLay + 1 } })) := by
  have hgood : ¬(f.payload.length ≠ 16 ∨ 2 < n ∨ 1 < numAt f.payload 2 1) := by omega
  simp only [reshapeBody, hn, hr, hgood, if_false]
  rfl

theorem mem_modFirst {α : Type} {p : α → Bool} {f : α → α} {x : α} {l : List α} (h : x ∈ l) :
    x ∈ modFirst p f l ∨ f x ∈ modFirst p f l := by
  induction l with
  | nil => cases h
  | cons y l ih =>
    unfold modFirst
    split
    · rcases List.mem_cons.1 h with rfl | hx
      · exact .inr (List.mem_cons_self ..)
      · exact .inl (List.mem_cons_of_mem _ hx)
    · rcases List.mem_cons.1 h with rfl | hx
      · exact .inl (List.mem_cons_self ..)
      · exact (ih hx).imp (List.mem_cons_of_mem _) (List.mem_cons_of_mem _)

theorem newObject_frame (key page : Nat) (keep : Nat → Bool) (body : Bytes) (s : State) :
    Frame [.sec, .med, .far, .til] s (newObject key page keep body s).2 := frame_iff.2 (newObject_outside (by decide) ..)

/-- The layouts of two array parts are the same, and each job of the first stands in the second under its number and kind. -/
def SameWork (a b : Par) : Prop :=
  b.ordinary = a.ordinary ∧ b.archive = a.archive ∧ b.metadata = a.metadata ∧ b.nextLay = a.nextLay
  ∧ ∀ j ∈ a.jobs, ∃ k ∈ b.jobs, k.id = j.id ∧ k.kind = j.kind

theorem sameWork_modJobOf {a : Par} {s : State} (hs : SameWork a s.par) (id : Nat) {f : Job → Job}
    (hf : ∀ j, (f j).id = j.id ∧ (f j).kind = j.kind) : SameWork a (modJobOf id f s).par := by
  obtain ⟨ho, ha, hm, hn, hjobs⟩ := hs
  refine ⟨ho, ha, hm, hn, fun j hj => ?_⟩
  obtain ⟨k, hk, hid, hkind⟩ := hjobs j hj
  rcases mem_modFirst (p := fun j => j.id == id) (f := f) hk with h | h
  · exact ⟨k, h, hid, hkind⟩
  · exact ⟨f k, h, (hf k).1.trans hid, (hf k).2.trans hkind⟩

/-- A checkpoint changes neither layouts nor which jobs there are. -/
theorem writeCkpt_sameWork (id : Nat) (s : State) : SameWork s.par (writeCkpt id s).par := by
  unfold writeCkpt
  split
  · exact ⟨rfl, rfl, rfl, rfl, fun j hj => ⟨j, hj, rfl, rfl⟩⟩
  · extract_lets c _ t u
    have hwork : SameWork s.par u.par := by
      have hpar : u.par = t.par := (newObject_frame _ _ _ _ t).par
      rw [hpar]
      exact ⟨rfl, rfl, rfl, rfl, fun j hj => ⟨j, hj, rfl, rfl⟩⟩
    split
    · rw [(toPeer_frame _ _ _ _).par]
      exact sameWork_modJobOf hwork id fun _ => ⟨rfl, rfl⟩
    · exact sameWork_modJobOf hwork id fun _ => ⟨rfl, rfl⟩

theorem slotLayout_setLayout (n : Nat) (l : Layout) (s : State) (h : n ≤ 2) : slotLayout (setLayout n l s) n = l := by
  match n, h with
  | 0, _ => rfl
  | 1, _ => rfl
  | 2, _ => rfl

theorem addTask_adds (j : Job) (s : State) :
    (∀ n, slotLayout (addTask j s) n = slotLayout s n) ∧ (addTask j s).par.nextLay = s.par.nextLay
    ∧ ∃ k ∈ (addTask j s).par.jobs, k.id = s.par.nextJob ∧ k.kind = j.kind := by
  have hwork : SameWork { s.par with jobs := s.par.jobs ++ [{ j with id := s.par.nextJob }], nextJob := s.par.nextJob + 1 }
      (addTask j s).par := writeCkpt_sameWork _ _
  obtain ⟨ho, ha, hm, hn, hjobs⟩ := hwork
  refine ⟨fun n => by simp only [slotLayout, ho, ha, hm], hn, ?_⟩
  exact hjobs { j with id := s.par.nextJob } (by simp)

theorem setLayout_par (n : Nat) (l : Layout) (s : State) :
    (setLayout n l s).par.nextLay = s.par.nextLay ∧ (setLayout n l s).par.nextJob = s.par.nextJob := by
  unfold setLayout
  (repeat' split) <;> exact ⟨rfl, rfl⟩

theorem reshape_service {s : State} {f : DwFrame} (h : Asked s f) (hs : s.glb.service = .normal)
    (hwf : (Instr.reshape f).wf = true) (hr : s.peer.role = .service) :
    Completes (.reshape f) s fun t => Answers f 0x21 [] t ∧ Frame [.svc] s t := by
  refine completes_asked h rfl hwf (by simp [hs]) ?_
  have hbody : reshapeBody f (keyNoted f s.quiet) = reply f 0x21 [] (keyNoted f s.quiet) := if_pos hr
  rw [hbody]
  exact asked_reply f 0x21 [] s

theorem reshape_refused {s : State} {f : DwFrame} {n : Nat} (h : Asked s f) (hs : s.glb.service = .normal)
    (hwf : (Instr.reshape f).wf = true) (hlen : f.payload.length = 16) (hn : numAt f.payload 0 1 = n) (hle : n ≤ 2)
    (hq : numAt f.payload 2 1 ≤ 1) (hr : s.peer.role ≠ .service) (hno : reshapeRefused s n (askedLayout f s) = true) :
    Completes (.reshape f) s fun t => Answers f 0x31 [] t ∧ Frame [.svc, .evr] s t := by
  refine completes_asked h rfl hwf (by simp [hs]) ?_
  rw [reshapeBody_eq (s := keyNoted f s.quiet) hlen hn hle hq hr,
    if_pos (show reshapeRefused (keyNoted f s.quiet) n (askedLayout f (keyNoted f s.quiet)) = true from hno)]
  exact ⟨reply_answers .., frame_iff.2 (by simp [keyNoted])⟩

theorem reshape_completes {s : State} {f : DwFrame} {n : Nat} (h : Asked s f) (hs : s.glb.service = .normal)
    (hwf : (Instr.reshape f).wf = true) (hlen : f.payload.length = 16) (hn : numAt f.payload 0 1 = n) (hle : n ≤ 2)
    (hq : numAt f.payload 2 1 ≤ 1) (hr : s.peer.role ≠ .service) (hyes : reshapeRefused s n (askedLayout f s) = false) :
    Completes (.reshape f) s fun t =>
      Answers f 0 [] t ∧ slotLayout t n = askedLayout f s ∧ t.par.nextLay = s.par.nextLay + 1
      ∧ (∃ j ∈ t.par.jobs, j.id = s.par.nextJob ∧ j.kind = .reshape)
      ∧ Frame [.svc, .par, .med, .far, .til, .sec] s t := by
  refine completes_asked h rfl hwf (by simp [hs]) ?_
  have hnot : ¬reshapeRefused (keyNoted f s.quiet) n (askedLayout f (keyNoted f s.quiet)) = true := Bool.eq_false_iff.1 hyes
  rw [reshapeBody_eq (s := keyNoted f s.quiet) hlen hn hle hq hr, if_neg hnot]
  obtain ⟨hlayout, hlay, hjob⟩ := addTask_adds (reshapeJob n (askedLayout f (keyNoted f s.quiet)) (keyNoted f s.quiet))
    (setLayout n (askedLayout f (keyNoted f s.quiet))
      { keyNoted f s.quiet with par := { (keyNoted f s.quiet).par with nextLay := (keyNoted f s.quiet).par.nextLay + 1 } })
  rw [(setLayout_par ..).1] at hlay
  rw [(setLayout_par ..).2] at hjob
  refine ⟨reply_answers .., (hlayout n).trans (slotLayout_setLayout n _ _ hle), hlay, hjob, frame_iff.2 ?_⟩
  simp [keyNoted]

/-- Settles O54: each request that passes the checks runs its own handling, and answers. -/
theorem serviceRequests : Obligations.ServiceRequests := by
  unfold Obligations.ServiceRequests
  refine ⟨fun s f h hs => ⟨svcReset_completes h hs, fun media hwf hlen h1 h63 => ⟨fun hsrc => ?_, fun hsrc => ?_, fun hsrc => ?_⟩⟩,
    fun s f h hs maps hwf hlen hc hs2 hr hfld hmaps => dramSweep_completes h hs hwf hlen hc hs2 hr hfld hmaps,
    fun s f h hs => ⟨fun hwf hp => tamperClear_completes h hs hwf hp,
      fun hwf => ⟨reEnumerate_completes h hs hwf, reEnumerate_refused h hs hwf⟩, fun n d l hwf hlen hn hd hle hq hl => ?_,
      fun hwf => ⟨testEntry_fused h hs hwf, testEntry_completes h hs hwf, testEntry_refused h hs hwf⟩,
      fun hwf hlen hmagic => ⟨fun hn => ?_, fun i hn hi => ⟨fun hmay => ?_, fun hmay => ?_⟩⟩⟩,
    fun s f n k hwf hs hf hk hkeyed hp hfresh hn hempty => ?_,
    fun s f n k h hwf hs hlen hsize hn hm hslot hk => ⟨keyset_keyed h hwf hs hlen hsize hn hm hslot hk, fun h0 => ?_⟩,
    fun s f h hwf => ⟨debugAccess_fused h hwf, debugAccess_refused h hwf,
      fun hd hs hlen => ⟨debugAccess_read h hwf hd hs hlen, debugAccess_write h hwf hd hs hlen⟩⟩⟩
  · exact eventRead_records h hs hwf hlen h1 h63 hsrc (.inl (by decide))
  · exact eventRead_records h hs hwf hlen h1 h63 hsrc (.inl (by decide))
  · by_cases hn : s.glb.service = .normal
    · obtain ⟨t, ht, hanswer, hframe⟩ := eventRead_records h hs hwf hlen h1 h63 hsrc (.inr ⟨rfl, hn⟩)
      exact ⟨t, ht, fun hno => absurd hn hno, fun _ => hanswer, hframe⟩
    · obtain ⟨t, ht, hanswer, hframe⟩ := eventRead_refused h hs hwf hlen h1 h63 hsrc hn
      exact ⟨t, ht, fun _ => hanswer, fun hyes => absurd hyes hn, hframe⟩
  · subst hd hl
    exact ⟨reshape_service h hs hwf, reshape_refused h hs hwf hlen hn hle hq, reshape_completes h hs hwf hlen hn hle hq⟩
  · exact fuse_completes h hs hwf hlen hmagic hn rfl (.inl rfl)
  · exact fuse_completes h hs hwf hlen hmagic hn hi (.inr ⟨rfl, by omega, hmay⟩)
  · exact fuse_refused h hs hwf hlen hmagic hn hi (by omega) hmay
  · subst hn
    exact keyset_first hwf hs hf hk hkeyed hp hfresh hempty
  · subst h0
    exact keyset_refused h hwf hs hlen hsize hn hm

end Sys2Proof.Machine
end

section
/-! SUPPORT. DRAM_INIT under a profile whose hysteresis is out of range (O9). -/

namespace Sys2Proof.Machine

/-! ### The delay sets of a profile (R380, R388) -/

/-- For a HYST outside its range the model takes a free value, and a free value moves the counter of free values on. -/
theorem applyDelays_freeCtr {l : List ProfRec} {v : Bytes} (hv : setting l 0x0101 = some v)
    (hh : numAt v 1 1 = 0 ∨ 10 < numAt v 1 1) (s : State) : (applyDelays l s).freeCtr = s.freeCtr + 1 := by
  have hout : (numAt v 1 1 == 0 || decide (10 < numAt v 1 1)) = true := by simpa using hh
  have hraise := fun b d sev r n a (t : State) => (frame_iff.2 (raiseIf_outside (parts := [.evr]) (by decide) b d sev r n a t)).freeCtr
  simp [applyDelays, hv, hout, onlyIf, tick, hraise]

theorem enterRom_freeCtr (c : Byte) (s : State) : (enterRom c s).freeCtr = s.freeCtr :=
  (frame_iff.2 (enterRom_outside (parts := [.glb, .pins, .wch]) (by decide) c s)).freeCtr

theorem applyDramSettings_freeCtr {s : State} {v : Bytes} (hv : setting s.glb.profile 0x0101 = some v)
    (hh : numAt v 1 1 = 0 ∨ 10 < numAt v 1 1) : (applyDramSettings s).freeCtr = s.freeCtr + 1 := by
  have hjudged : Frame [.glb, .evr] s (forEach romTags (judgeTag s.glb.profile) s) := frame_iff.2 (by simp)
  rw [applyDramSettings, applyDelays_freeCtr hv hh, hjudged.freeCtr]

/-- So DRAM_INIT moves that counter on, whether the population is right or not. -/
theorem dramInitEffect_freeCtr {s : State} {v : Bytes} (hv : setting s.glb.profile 0x0101 = some v)
    (hh : numAt v 1 1 = 0 ∨ 10 < numAt v 1 1) (slots : List Spd) (temps : List Int) :
    (dramInitEffect slots temps s).freeCtr = s.freeCtr + 1 := by
  have hrest : Frame [.glb, .pins, .wch, .drc, .evr] (applyDramSettings s) (dramInitEffect slots temps s) := by
    rw [frame_iff, dramInitEffect]
    dsimp only
    split <;> simp
  rw [hrest.freeCtr, applyDramSettings_freeCtr hv hh]

theorem exec_dramInit {s : State} {slots : List Spd} {temps : List Int} (hwf : (Instr.dramInit slots temps).wf = true)
    (hs : starting s = true) (hstep : s.glb.step = 8) (hreq : s.pins.svcRequest = false) :
    exec (.dramInit slots temps) s = .next (dramInitEffect slots temps s.quiet) := by
  have hs' : starting s.quiet = true := hs
  refine (run_of_wf hwf (fun t => startStep (t.glb.step == 8) (dramInitEffect slots temps) t) s).trans ?_
  simp [startStep, hs', hstep, hreq]

/-! ### A profile with HYST 0 -/

/-- The value of setting 0x0101 with one band and HYST 0. -/
def hystZero : Bytes := 1 :: List.replicate 8463 0

/-- A chip whose DRAM is about to be initialised, under a profile with this setting alone. -/
def hystZeroState : State := { glb := { resetHeld := false, step := 8, profile := [⟨0x0101, 1, hystZero⟩] } }

/-- One right RDIMM in the first slot of each channel. -/
def twelveRdimms : List Spd := (List.finRange 12).map fun c => ⟨c, 0, 64, 1, true, true, true, true, 7⟩

/-- The fields of a value that begins with 1 and holds zeros otherwise. -/
theorem one_zeros_fields (n : Nat) :
    numAt (1 :: List.replicate n 0) 0 1 = 1 ∧ numAt (1 :: List.replicate n 0) 1 1 = 0 := by
  cases n <;> simp [numAt, bytesAt, leNat, List.replicate_succ]

theorem hystZero_fields : numAt hystZero 0 1 = 1 ∧ numAt hystZero 1 1 = 0 := one_zeros_fields 8463

theorem hystZero_length : hystZero.length = 8464 := congrArg (· + 1) List.length_replicate

theorem setting_hystZeroState : setting hystZeroState.glb.profile 0x0101 = some hystZero := by
  have hform : fitsForm 0x0101 hystZero = true := by
    simp [fitsForm, hystZero_fields, hystZero_length, bandBounds, boundsRise]
  simp [setting, hystZeroState, applies, fitsSetting, hform]

theorem populationOk_twelveRdimms :
    populationOk (twelveRdimms.filter fun r => slotEnabled hystZeroState.glb.profile r.channel r.slot) = true := by
  have hall : ∀ r : Spd, slotEnabled hystZeroState.glb.profile r.channel r.slot = true := by
    simp [slotEnabled, setting, hystZeroState, applies]
  rw [List.filter_eq_self.2 fun r _ => hall r]
  decide

/-- Refutes O9: with HYST 0 in the profile, DRAM_INIT takes a free hysteresis, and the counter of free values, which the frame of
the clause about a right population does not name, moves on. -/
theorem not_startUpSequence : ¬ Obligations.StartUpSequence := by
  unfold Obligations.StartUpSequence
  rintro ⟨-, ⟨-, -, -, -, -, -, hdram, -⟩, -⟩
  obtain ⟨t, ht, -, -, -, hframe⟩ := hdram hystZeroState twelveRdimms (List.replicate 12 20) (by decide) (by decide) (by decide)
    (by decide) populationOk_twelveRdimms
  have hexec := exec_dramInit (s := hystZeroState) (slots := twelveRdimms) (temps := List.replicate 12 20) (by decide) (by decide)
    (by decide) (by decide)
  have hmoved := dramInitEffect_freeCtr (s := hystZeroState.quiet) setting_hystZeroState (.inl hystZero_fields.2) twelveRdimms
    (List.replicate 12 20)
  rw [hexec] at ht
  have hkept := hframe.freeCtr
  injection ht with ht
  rw [← ht, hmoved] at hkept
  exact absurd hkept (Nat.succ_ne_self _)

end Sys2Proof.Machine
end

section
/-! SUPPORT. A drain that delivers a request of its write queue which is no write (O28). -/

namespace Sys2Proof.Machine

/-- A mirror copy that no read has found bad. -/
def soundCopy : MirEntry :=
  { nsid := 1, lba := 0, gen := 0, data := [], tenant := 0, tag := none, block := 0, nblk := 1 }

/-- A request for the line of that copy, uncorrectable, which asks for a read. -/
def lostCopyRead : DramReq :=
  { channel := 0, sub := 0, line := 0, write := false, data := [], ecc := 2, waitedUs := 0, copyElsewhere := false, cmd := none
    copy := some (1, 0, 0) }

/-- A flush whose record holds its last class. -/
def writtenFlush : Flush :=
  ⟨true, 4, { marks := 0, final := false, cls := 4, events := [], settle := [], journal := [], accs := [], blocks := [], lost := []
              active := false }, false⟩

/-- The request alone, among the writes of subchannel 0. -/
def lostReadQueued : Tab DramQ := [(0, { writes := [lostCopyRead] })]

/-- The last class is written, and the write queue of subchannel 0 holds a read. -/
def readAmongWrites : State :=
  let s : State := {}
  { s with
    plf := { s.plf with flush := some writtenFlush }
    drc := { s.drc with queues := lostReadQueued }
    ing := { s.ing with mirror := [soundCopy] } }

/-- What the state holds of that copy once a read of it was uncorrectable. -/
def badCopy : MirEntry := { soundCopy with bad := true }

/-! ### The request stays where it is, and every issue of it finds the copy bad -/

/-- A queue that holds that request only, among its writes. -/
def holdsLostOnly (q : DramQ) : Prop := q.reads = [] ∧ ∀ r ∈ q.writes, r = lostCopyRead

/-- Every queue is of that kind. -/
def QueuesLostOnly (t : Tab DramQ) : Prop := ∀ p ∈ t, holdsLostOnly p.2

theorem holdsLostOnly_tabGet {t : Tab DramQ} (h : QueuesLostOnly t) (k : Nat) : holdsLostOnly (tabGet {} k t) := by
  induction t with
  | nil => exact ⟨rfl, fun r hr => by simp [tabGet] at hr⟩
  | cons p t ih =>
    obtain ⟨hp, ht⟩ := List.forall_mem_cons.1 h
    simp only [tabGet]
    split
    · exact hp
    · exact ih ht

theorem queuesLostOnly_tabPut {t : Tab DramQ} (h : QueuesLostOnly t) {q : DramQ} (hq : holdsLostOnly q) (k : Nat) :
    QueuesLostOnly (tabPut {} k q t) := by
  induction t with
  | nil => unfold tabPut; split <;> simp [QueuesLostOnly, hq]
  | cons p t ih =>
    obtain ⟨hp, ht⟩ := List.forall_mem_cons.1 h
    have hcons : ∀ {a : Nat × DramQ} {l : Tab DramQ}, holdsLostOnly a.2 → QueuesLostOnly l → QueuesLostOnly (a :: l) :=
      fun ha hl => List.forall_mem_cons.2 ⟨ha, hl⟩
    unfold tabPut
    repeat' split
    · exact ht
    · exact hcons hq ht
    · exact h
    · exact hcons hq h
    · exact hcons hp (ih ht)

theorem queuesLostOnly_modQueue {f : DramQ → DramQ} (hf : ∀ q, holdsLostOnly q → holdsLostOnly (f q)) (k : Nat) {s : State}
    (h : QueuesLostOnly s.drc.queues) : QueuesLostOnly (modQueue k f s).drc.queues :=
  queuesLostOnly_tabPut h (hf _ (holdsLostOnly_tabGet h k)) k

theorem holdsLostOnly.mem_arrivals {q : DramQ} (h : holdsLostOnly q) {r : DramReq} (hr : r ∈ arrivals q) : r = lostCopyRead := by
  obtain ⟨hreads, hwrites⟩ := h
  exact hwrites r (by simpa [arrivals, hreads] using hr)

theorem mem_of_hitFirst {q : DramQ} {l : List DramReq} {r : DramReq} (h : hitFirst q l = some r) : r ∈ l := by
  unfold hitFirst at h
  cases hfind : l.find? fun r => openRow q (bankOf r.line) == some (Config.dramRow r.line) with
  | some x =>
    rw [hfind] at h
    injection h with h
    exact h ▸ List.mem_of_find?_eq_some hfind
  | none =>
    rw [hfind] at h
    exact List.mem_of_head? h

theorem mem_of_nextRequest {q : DramQ} {r : DramReq} (h : nextRequest q = some r) : r ∈ arrivals q := by
  unfold nextRequest at h
  split at h
  case h_1 => cases h
  case h_2 x hx =>
    have hmem : x ∈ arrivals q := by
      have := mem_of_hitFirst hx
      split at this <;> simp [arrivals, this]
    simp only at h
    split at h
    · exact List.mem_of_mem_filter (List.mem_of_head? h)
    · injection h with h
      subst h
      cases hold : List.find? _ _ with
      | none => exact hmem
      | some y => exact List.mem_of_mem_filter (List.takeWhile_sublist _ |>.mem (List.mem_of_find?_eq_some hold))

/-- With that request alone in a draining queue, it is the next one. -/
theorem nextRequest_lostCopyRead : nextRequest { writes := [lostCopyRead], draining := true } = some lostCopyRead := by
  have hone : inOrderMode { writes := [lostCopyRead], draining := true } (bankOf lostCopyRead.line) = false := by
    simp [inOrderMode, arrivals, hasTwo]
  simp [nextRequest, hitFirst, openRow, hone, arrivals]

theorem drawDrfm_queues (c : Nat) (s : State) : (drawDrfm c s).2.drc.queues = s.drc.queues := by
  unfold drawDrfm
  split <;> rfl

theorem queuesLostOnly_precharge (k b : Nat) {s : State} (h : QueuesLostOnly s.drc.queues) :
    QueuesLostOnly (precharge k b s).drc.queues := by
  have hmod := queuesLostOnly_modQueue
    (f := fun x => { x with openRows := x.openRows.filter fun p => p.1 != b, drfm := x.drfm.filter (· != b) }) (fun _ hq => hq) k h
  simp only [precharge]
  (repeat' split) <;> exact hmod

theorem queuesLostOnly_activate (k b r : Nat) {s : State} (h : QueuesLostOnly s.drc.queues) :
    QueuesLostOnly (activate k b r s).drc.queues := by
  have hdrawn : QueuesLostOnly (drawDrfm (k / 2) (precharge k b s)).2.drc.queues := by
    rw [drawDrfm_queues]
    exact queuesLostOnly_precharge k b h
  unfold activate
  exact queuesLostOnly_modQueue (by intro q hq; exact hq) k hdrawn

theorem dataLost_lostCopyRead (s : State) : dataLost lostCopyRead s = raise .drc .critical 390 0 [0] s := rfl

theorem deliverLine_lostCopyRead (k : Nat) (s : State) :
    deliverLine k lostCopyRead s =
      copyLost lostCopyRead (1, 0, 0) (emit (.dramData 0 0 true (cellsRead dramDefault s.dram 0 64)) (countUe s)) := rfl

/-- What an uncorrectable read of the copy makes of the copies. -/
def markLost : List MirEntry → List MirEntry :=
  modFirst (fun m => m.nsid == 1 && m.lba == 0 && m.gen == 0) fun m => { m with bad := true }

theorem deliverLine_lostCopyRead_mirror (k : Nat) (s : State) :
    (deliverLine k lostCopyRead s).ing.mirror = markLost s.ing.mirror := by
  rw [deliverLine_lostCopyRead, copyLost, dataLost_lostCopyRead]
  rw [(frame_iff.2 (raise_outside (parts := [.evr]) (by decide) ..) : Frame [.evr] _ _).ing]
  rfl

theorem deliverLine_lostCopyRead_queues (k : Nat) (s : State) :
    (deliverLine k lostCopyRead s).drc.queues = s.drc.queues := by
  rw [deliverLine_lostCopyRead, copyLost, dataLost_lostCopyRead]
  rw [(frame_iff.2 (raise_outside (parts := [.evr]) (by decide) ..) : Frame [.evr] _ _).drc]
  rfl

/-- Whether or not a row is open, the issue delivers the request from a state that differs in DRC alone. -/
theorem issueOne_lostCopyRead (k : Nat) (s : State) :
    ∃ u, issueOne k lostCopyRead s = deliverLine k lostCopyRead u ∧ Frame [.drc] s u
      ∧ (QueuesLostOnly s.drc.queues → QueuesLostOnly u.drc.queues) := by
  refine ⟨_, rfl, ?_, fun h => queuesLostOnly_modQueue (fun q hq => ?_) k ?_⟩
  · rw [frame_iff]
    split <;> simp
  · exact ⟨by simp [lostCopyRead, hq.1, removeOne], hq.2⟩
  · split
    · exact h
    · exact queuesLostOnly_activate k _ _ h

theorem issueOne_lostCopyRead_mirror (k : Nat) (s : State) :
    (issueOne k lostCopyRead s).ing.mirror = markLost s.ing.mirror := by
  obtain ⟨u, hu, hframe, -⟩ := issueOne_lostCopyRead k s
  rw [hu, deliverLine_lostCopyRead_mirror, hframe.ing]

theorem queuesLostOnly_issueOne (k : Nat) {s : State} (h : QueuesLostOnly s.drc.queues) :
    QueuesLostOnly (issueOne k lostCopyRead s).drc.queues := by
  obtain ⟨u, hu, -, hqueues⟩ := issueOne_lostCopyRead k s
  rw [hu, deliverLine_lostCopyRead_queues]
  exact hqueues h

/-! ### The drain -/

/-- Every queue holds that request only, and the copy is bad. -/
def CopyIsBad (s : State) : Prop := QueuesLostOnly s.drc.queues ∧ s.ing.mirror = [badCopy]

theorem queuesLostOnly_setDraining (b : Bool) (k : Nat) {s : State} (h : QueuesLostOnly s.drc.queues) :
    QueuesLostOnly (modQueue k (fun x => { x with draining := b }) s).drc.queues :=
  queuesLostOnly_modQueue (by intro q hq; exact hq) k h

theorem copyIsBad_setDraining (b : Bool) (k : Nat) {s : State} (h : CopyIsBad s) :
    CopyIsBad (modQueue k (fun x => { x with draining := b }) s) :=
  ⟨queuesLostOnly_setDraining b k h.1, h.2⟩

theorem copyIsBad_issueOne (k : Nat) {s : State} (h : CopyIsBad s) : CopyIsBad (issueOne k lostCopyRead s) :=
  ⟨queuesLostOnly_issueOne k h.1, by rw [issueOne_lostCopyRead_mirror, h.2]; rfl⟩

theorem copyIsBad_serveQueue (k low n : Nat) {s : State} (h : CopyIsBad s) : CopyIsBad (serveQueue k low n s) := by
  induction n generalizing s with
  | zero => exact h
  | succ n ih =>
    have hset := fun b => copyIsBad_setDraining b k h
    simp only [serveQueue]
    split
    · exact hset _
    · next r hr =>
      have hq : holdsLostOnly { queueOf s k with draining := (queueOf s k).draining && decide (low < (queueOf s k).writes.length) } :=
        holdsLostOnly_tabGet h.1 k
      obtain rfl : r = lostCopyRead := hq.mem_arrivals (mem_of_nextRequest hr)
      exact ih (copyIsBad_issueOne k (hset _))

theorem queuesLostOnly_lostReadQueued : QueuesLostOnly lostReadQueued := by
  simp [QueuesLostOnly, lostReadQueued, holdsLostOnly]

/-- The first turn of a drain of subchannel 0 issues the request, and the copy is bad from then on. -/
theorem copyIsBad_drain {s : State} (hqueues : s.drc.queues = lostReadQueued) (hmirror : s.ing.mirror = [soundCopy]) (n : Nat) :
    CopyIsBad (serveQueue 0 0 (n + 1) (modQueue 0 (fun x => { x with draining := true }) s)) := by
  have hlost : QueuesLostOnly s.drc.queues := hqueues ▸ queuesLostOnly_lostReadQueued
  have hfirst : queueOf (modQueue 0 (fun x => { x with draining := true }) s) 0
      = { writes := [lostCopyRead], draining := true } := by
    simp only [queueOf, modQueue, hqueues]
    decide
  rw [serveQueue, hfirst]
  simp only [nextRequest_lostCopyRead, List.length_singleton, Nat.zero_lt_one, decide_true, Bool.and_true]
  refine copyIsBad_serveQueue 0 0 n ⟨queuesLostOnly_issueOne 0 ?_, ?_⟩
  · exact queuesLostOnly_setDraining true 0 (queuesLostOnly_setDraining true 0 hlost)
  · rw [issueOne_lostCopyRead_mirror]
    exact congrArg markLost hmirror

/-- One subchannel's turn in the drain before self-refresh. -/
def drainAll (k : Nat) (s : State) : State := serveQueue k 0 128 (modQueue k (fun x => { x with draining := true }) s)

theorem copyIsBad_drainAll (k : Nat) {s : State} (h : CopyIsBad s) : CopyIsBad (drainAll k s) :=
  copyIsBad_serveQueue k 0 128 (copyIsBad_setDraining true k h)

theorem frame_prechargeAll_selfRef (s : State) :
    Frame [.drc] s (let t := forEach (List.range 12) (fun c u => prechargeAll c (fun _ => true) u) s
      { t with drc := { t.drc with selfRef := true } }) := by
  rw [frame_iff]
  simp [forEach_outside]

theorem frame_enterSelfRefresh_drainAll (s : State) :
    Frame [.drc] (forEach (List.range 24) drainAll s) (enterSelfRefresh s) := by
  have hdrain : drainAll = fun k s => serveQueue k 0 128 (modQueue k (fun x => { x with draining := true }) s) := rfl
  rw [enterSelfRefresh, ← hdrain]
  exact frame_prechargeAll_selfRef _

theorem forEach_cons {α : Type} (x : α) (l : List α) (f : α → State → State) (s : State) :
    forEach (x :: l) f s = forEach l f (f x s) := rfl

/-- Self-refresh is entered after the queues of all subchannels are drained, subchannel 0 first. -/
theorem enterSelfRefresh_mirror {s : State} (h : CopyIsBad (drainAll 0 s)) : (enterSelfRefresh s).ing.mirror = [badCopy] := by
  have hrange : List.range 24 = 0 :: (List.range 23).map (· + 1) := by decide
  rw [(frame_enterSelfRefresh_drainAll s).ing, hrange, forEach_cons]
  exact (forEach_induct CopyIsBad drainAll (fun k u hu => copyIsBad_drainAll k hu) _ _ h).2

/-! ### FLUSH_COMPLETE (R227, R228) -/

/-- Without the chip command reset, FLUSH_COMPLETE leaves of INGEST what the way to self-refresh leaves of it. -/
theorem flushCompleteEffect_ing {s : State} {f : Flush} (hf : s.plf.flush = some f) (hcls : f.rec_.cls = 4)
    (hreset : f.resetAfter = false) :
    ∃ u, (flushCompleteEffect s).ing = (enterSelfRefresh u).ing ∧ u.drc = s.drc ∧ u.ing = s.ing := by
  have hkept : ∀ r, Frame [.plf] s (toPeer 0x23 [] [] (keepRecord r s)) := fun r => frame_iff.2 (by simp [keepRecord])
  have hstat : ∀ t : State, (restat t).ing = t.ing := fun t =>
    (frame_iff.2 (restat_outside (parts := [.pins]) (by decide) t)).ing
  simp only [flushCompleteEffect, hf, hcls, hreset, bne_self_eq_false, Bool.false_eq_true, if_false, hstat]
  exact ⟨_, rfl, (hkept _).drc, (hkept _).ing⟩

theorem exec_flushComplete (s : State) : exec .flushComplete s = .next (flushCompleteEffect s.quiet) :=
  run_of_wf (i := .flushComplete) rfl flushCompleteEffect s

/-- Refutes O28: a request that asks for a read stands among the writes of a subchannel, where the hypothesis of the clause of
FLUSH_COMPLETE, which names the waiting reads, does not see it. The drain before self-refresh issues it, its line is
uncorrectable, and the mirror copy in it becomes bad: the staging and mirror record does not stay. -/
theorem not_powerLossFlush : ¬ Obligations.PowerLossFlush := by
  unfold Obligations.PowerLossFlush
  rintro ⟨-, -, ⟨-, -, hcomplete⟩, -⟩
  obtain ⟨t, ht, -, -, -, -, -, -, -, -, hing, -⟩ := (hcomplete readAmongWrites writtenFlush rfl rfl fun k =>
    (holdsLostOnly_tabGet queuesLostOnly_lostReadQueued k).1).1 rfl
  obtain ⟨u, hu, hdrc, hsame⟩ := flushCompleteEffect_ing (s := readAmongWrites.quiet) (f := writtenFlush) rfl rfl rfl
  rw [exec_flushComplete] at ht
  injection ht with ht
  have hbad : t.ing.mirror = [badCopy] := by
    rw [← ht, hu]
    exact enterSelfRefresh_mirror (copyIsBad_drain (congrArg Drc.queues hdrc) (congrArg Ing.mirror hsame) 127)
  have hsound : t.ing.mirror = [soundCopy] := congrArg Ing.mirror hing
  exact absurd (hbad.symm.trans hsound) (by decide)

end Sys2Proof.Machine
end

section
/-! SUPPORT. Which operations on queue pairs leave the ports' records as they are, and what a freeze and a release of a port
record (R75 to R77). -/

namespace Sys2Proof.Machine

/-! ### Ports that an operation keeps -/

/-- Where the rest of HEP stands with the ports' records, any other part may change. -/
@[simp] theorem portOf_update {s : State} {hep : Hep} (h0 : hep.port0 = s.hep.port0) (h1 : hep.port1 = s.hep.port1)
    (n : Fin 2) (glb : Glb) (a : Pins) (b : Clk) (c : Cache) (d : Nvc) (e : Wch) (g : Hqe) (h : Ing) (i : Bal) (j : Sec)
    (k : Med) (l : Plf) (m : Far) (p : Par) (o : Til) (q : Snp) (r : Peer) (t : Pairing) (u : Rdm) (v : Mch) (w : Drc)
    (x : Evr) (y : Svc) (nor dram : List Host.Cell) (ctr : Nat) (out : List Output) :
    portOf ⟨glb, a, b, c, d, e, hep, g, h, i, j, k, l, m, p, o, q, r, t, u, v, w, x, y, nor, dram, ctr, out, s.pending⟩ n
      = portOf s n := by
  simp only [portOf, h0, h1]

/-- An operation that touches only parts other than HEP keeps the ports. -/
theorem portOf_of_outside {parts : List Part} {s t : State} (h : t.outside parts = s.outside parts) (p : Fin 2)
    (hl : .hep ∉ parts := by decide) : portOf t p = portOf s p := by
  simp only [portOf, (frame_iff.2 h).hep hl]

section
variable (p : Fin 2)

@[simp] theorem portOf_emit (o : Output) (s : State) : portOf (emit o s) p = portOf s p := by simp [emit]

@[simp] theorem portOf_modQp (k : QKey) (f : Qp → Qp) (s : State) : portOf (modQp k f s) p = portOf s p := by simp [modQp]

@[simp] theorem portOf_modCmd (id : Nat) (f : Cmd → Cmd) (s : State) : portOf (modCmd id f s) p = portOf s p := by simp [modCmd]

@[simp] theorem portOf_dropCmd (id : Nat) (s : State) : portOf (dropCmd id s) p = portOf s p := by simp [dropCmd]

@[simp] theorem portOf_toPeer (type : Nat) (args : List Nat) (data : Bytes) (s : State) :
    portOf (toPeer type args data s) p = portOf s p := by
  unfold toPeer; split <;> simp

@[simp] theorem portOf_pinQps (ids : List Nat) (s : State) : portOf (pinQps ids s) p = portOf s p :=
  portOf_of_outside (pinQps_outside (parts := [.hqe, .evr]) (by decide) ids s) p

@[simp] theorem portOf_settleTag (t : Nat) (g : Word64) (k n : Nat) (s : State) :
    portOf (settleTag t g k n s) p = portOf s p :=
  portOf_of_outside (settleTag_outside (parts := [.hqe]) (by decide) t g k n s) p

@[simp] theorem portOf_freeFilling (id : Nat) (s : State) : portOf (freeFilling id s) p = portOf s p :=
  portOf_of_outside (freeFilling_outside (parts := [.hqe, .ing]) (by decide) id s) p

@[simp] theorem portOf_dropJobs (id : Nat) (s : State) : portOf (dropJobs id s) p = portOf s p :=
  portOf_of_outside (dropJobs_outside (parts := [.bal, .med]) (by decide) id s) p

/-- An interrupt touches the vectors alone. -/
@[simp] theorem portOf_signal (f : FnId) (v : Nat) (s : State) : portOf (signal f v s) p = portOf s p := by
  unfold signal
  split
  · rfl
  · split <;> simp [putVector]

@[simp] theorem portOf_postOne (k : QKey) (e : Cqe) (s : State) : portOf (postOne k e s) p = portOf s p := by
  unfold postOne
  split
  · rfl
  · dsimp only
    split_ifs <;> simp

@[simp] theorem portOf_postCqe (k : QKey) (e : Cqe) (s : State) : portOf (postCqe k e s) p = portOf s p := by
  unfold postCqe
  split
  · rfl
  · split_ifs <;> simp

@[simp] theorem portOf_answerTo (o : Origin) (q : QKey) (cid status : Word16) (k n result : Nat) (data : Bytes) (s : State) :
    portOf (answerTo o q cid status k n result data s) p = portOf s p := by
  cases o with
  | host => exact portOf_postCqe ..
  | peer => exact portOf_toPeer ..
  | fed src id => simp only [answerTo]; split <;> simp

@[simp] theorem portOf_finishCmd (id : Nat) (status : Word16) (k result : Nat) (s : State) :
    portOf (finishCmd id status k result s) p = portOf s p := by
  unfold finishCmd
  split
  · rfl
  · dsimp only
    split <;> simp

@[simp] theorem portOf_endWrite (c : Cmd) (k : Nat) (status : Word16) (s : State) :
    portOf (endWrite c k status s) p = portOf s p := by
  unfold endWrite
  dsimp only
  split
  · split <;> simp
  · simp

@[simp] theorem portOf_completeWrite (id : Nat) (s : State) : portOf (completeWrite id s) p = portOf s p := by
  unfold completeWrite
  split
  · split <;> simp
  · rfl

@[simp] theorem portOf_cutWrite (id : Nat) (s : State) : portOf (cutWrite id s) p = portOf s p := by
  unfold cutWrite
  split
  · rfl
  · dsimp only
    split <;> simp

/-- Settling a command leaves the ports as they are, whatever it waited for (R68). -/
@[simp] theorem portOf_settleOne (id : Nat) (s : State) : portOf (settleOne id s) p = portOf s p := by
  unfold settleOne
  dsimp only
  split
  · simp
  · split <;> simp [apply_ite (portOf · p)]

@[simp] theorem portOf_settleQueues (f : Qp → Bool) (s : State) : portOf (settleQueues f s) p = portOf s p := by
  unfold settleQueues
  rw [forEach_keeps (portOf · p) settleOne (portOf_settleOne p)]
  simp

/-- Freezing a queue pair leaves its port as it is (R110). -/
@[simp] theorem portOf_freezeQueue (k : QKey) (cause idx : Nat) (head : Bytes) (s : State) :
    portOf (freezeQueue k cause idx head s) p = portOf s p := by
  unfold freezeQueue
  split
  · rfl
  · split
    · rfl
    · dsimp only
      split <;> simp [logError]

theorem portOf_freezeQueues (l : List Qp) (cause idx : Nat) (head : Bytes) (s : State) :
    portOf (forEach l (fun q => freezeQueue q.key cause idx head) s) p = portOf s p :=
  forEach_keeps (portOf · p) _ (fun q => portOf_freezeQueue p q.key cause idx head) l s

end

/-! ### The freeze of a port (R75) -/

/-- Logging a header changes of the port its header log alone. -/
theorem portOf_logHeader (p : Fin 2) (s : State) :
    ∃ header, portOf (logHeader p s) p = { portOf s p with aerHeader := header } := by
  unfold logHeader
  split
  · exact ⟨freeBytes 32 s, by simp [tick]⟩
  · exact ⟨_, rfl⟩

/-- Reporting an error changes of the port its AER status and header log alone. -/
theorem portOf_reportAer (p : Fin 2) (bit : Nat) (s : State) :
    ∃ aer header, portOf (reportAer p bit s) p = { portOf s p with aer := aer, aerHeader := header } := by
  obtain ⟨header, hlog⟩ := portOf_logHeader p s
  unfold reportAer
  dsimp only
  split
  · exact ⟨_, _, portOf_modPort_same ..⟩
  · exact ⟨_, header, by rw [portOf_emit, portOf_modPort_same, hlog]⟩

/-- A freeze records its cause, and in FIRST the first cause since CAUSE was 0. -/
theorem portOf_freezePort (p : Fin 2) (c : Fin 6) (s : State) :
    ∃ aer header, portOf (freezePort p c s) p
      = { portOf s p with
          aer := aer, aerHeader := header, frozen := true
          first := if (portOf s p).cause = 0 then c.val else (portOf s p).first
          cause := (portOf s p).cause ||| BitVec.ofNat 6 (2 ^ c.val) } := by
  obtain ⟨aer, header, haer⟩ := portOf_reportAer p c.val s
  refine ⟨aer, header, ?_⟩
  simp only [freezePort, portOf_modPort_same]
  split
  · simp only [haer]
  · simp only [portOf_freezeQueues, portOf_settleQueues, haer]

theorem tlpErrorEffect_linkUp {s : State} {p : Fin 2} (hup : (portOf s p).dlUp = true) (c : Fin 6) :
    tlpErrorEffect p c s = freezePort p c s := by
  simp [tlpErrorEffect, hup]

theorem exec_tlpReceiveError {c : Fin 6} (hc : c ≠ 0) (p : Fin 2) (s : State) :
    exec (.tlpReceiveError p c) s = .next (tlpErrorEffect p c s.quiet) :=
  run_of_wf (i := .tlpReceiveError p c) (bne_iff_ne.2 hc) _ s

/-- An error on a port whose link is up freezes the port; where CAUSE reads 0, FIRST becomes its cause. -/
theorem completes_tlpReceiveError_first {s : State} {p : Fin 2} {c : Fin 6} (hc : c ≠ 0) (hup : (portOf s p).dlUp = true)
    (hcause : (portOf s p).cause = 0) :
    Completes (.tlpReceiveError p c) s fun u => (portOf u p).frozen = true ∧ (portOf u p).first = c.val := by
  obtain ⟨aer, header, hport⟩ := portOf_freezePort p c s.quiet
  refine ⟨freezePort p c s.quiet, ?_, ?_, ?_⟩
  · rw [exec_tlpReceiveError hc, tlpErrorEffect_linkUp (s := s.quiet) hup]
  · rw [hport]
  · rw [hport]
    exact if_pos hcause

/-! ### The release of a port (R77) -/

theorem exec_portRelease (p : Fin 2) (s : State) : exec (.portRelease p) s = .next (portReleaseEffect p s.quiet) :=
  run_of_wf (i := .portRelease p) rfl _ s

theorem portReleaseEffect_causeClear {s : State} {p : Fin 2} (h : (portOf s p).cause = 0) :
    portReleaseEffect p s = modPort p (fun x => { x with frozen := false }) s := if_pos h

theorem portReleaseEffect_causeSet {s : State} {p : Fin 2} (h : (portOf s p).cause ≠ 0) : portReleaseEffect p s = s := if_neg h

/-- Settles O12: with CAUSE 0 a release clears the frozen state and nothing else, so CAUSE still reads 0 and the next error on
an up link freezes the port again with its own cause in FIRST; with a cause recorded the write has no effect. -/
theorem portRelease : Obligations.PortRelease := by
  unfold Obligations.PortRelease
  refine ⟨fun s p hcause => ?_, fun s p hcause => ?_⟩
  · have hport : portOf (modPort p (fun x => { x with frozen := false }) s.quiet) p = { portOf s p with frozen := false } :=
      portOf_modPort_same ..
    refine ⟨_, exec_portRelease p s, ?_⟩
    rw [portReleaseEffect_causeClear (s := s.quiet) hcause]
    refine ⟨hport, portOf_modPort_other .., modPort_msix .., modPort_out .., (modPort_frame p _ s.quiet).of_quiet,
      fun c hc hup => completes_tlpReceiveError_first hc ?_ ?_⟩
    · rw [hport]; exact hup
    · rw [hport]; exact hcause
  · rw [exec_portRelease, portReleaseEffect_causeSet (s := s.quiet) hcause]
    rfl

end Sys2Proof.Machine
end

section
/-! Of a READ that waits for map pages, a page that is written back counts as one that needs no reading (R205), but it is not
in the cache. The witness has a cache of one page and a READ of two blocks in two map pages, one of which is written back. -/

namespace Sys2Proof.Machine

/-- The READ that waits: the blocks 1,023 and 1,024 of namespace 1, the last of map page 0 and the first of map page 1. -/
def readOverTwoPages : Cmd :=
  { id := 7, q := ⟨⟨0, 0⟩, 1⟩, cid := 0, op := 0x80, tenant := some 1, nsid := 1, lba := 1023, nblk := 2, tag := none, bufs := []
    stage := .waitMap, origin := .host, ordered := false, silent := false, arrived := [], gens := [], acked := [], status := 0
    good := 2, gathered := [] }

/-- Both blocks are mapped to nothing stored; map page 1 is written back, and the map cache has room for one page. -/
def twoPagesRoomForOne : State :=
  { State.reset with
    hqe := { cmds := [readOverTwoPages], nextCmd := 20, nss := [{ id := 1, tenant := 1, size := 2000, mode := 0, owner := true }] }
    med := { maps := [⟨1, 1023, 0, 0, 0, 0⟩, ⟨1, 1024, 0, 0, 0, 0⟩], writeBack := [(1, 1)], areas := { cachePages := 1 } } }

/-- The page that has been read leaves the cache again when the READ that goes on uses the page that is written back. -/
theorem mapPageReadDone_evicts_page :
    (mapPageReadDoneEffect 1 0 twoPagesRoomForOne.quiet).med.cached = [(1, 1)] := by decide +kernel

/-- Refutes O18: the page that has been read is not always in the cache after the READ has gone on. The READ uses all its map
pages (R205), also one that is written back; a cache of one page then gives up the page that has been read. -/
theorem not_readsAreServed : ¬ Obligations.ReadsAreServed := by
  unfold Obligations.ReadsAreServed
  rintro ⟨-, hpages⟩
  obtain ⟨-, hread⟩ := hpages twoPagesRoomForOne 1 0 rfl rfl (by decide +kernel)
  obtain ⟨t, ht, hcached, -⟩ := hread readOverTwoPages { id := 1, tenant := 1, size := 2000, mode := 0, owner := true }
    (by decide +kernel) (by decide +kernel) rfl rfl (by decide +kernel) (by decide +kernel) (by decide +kernel)
  have hstep := run_of_wf (i := .mapPageReadDone 1 0) rfl (mapPageReadDoneEffect 1 0) twoPagesRoomForOne
  obtain rfl : mapPageReadDoneEffect 1 0 twoPagesRoomForOne.quiet = t := by injection hstep.symm.trans ht
  rw [mapPageReadDone_evicts_page] at hcached
  exact absurd hcached (by decide)

end Sys2Proof.Machine
end

section
/-! SUPPORT. What no operation spoils: the canonical form of the memories and tables, and the fresh numbers of outstanding
commands. One lemma for each operation of the model that answers a state, in the order of the model's files. -/

namespace Sys2Proof.Machine

/-! ### The two laws, and what keeps a law -/

/-- The laws that every step keeps. -/
inductive Law where
  | canonical
  | fresh

/-- A law holds in a state. -/
def Law.Holds : Law → State → Prop
  | .canonical, s => Canonical s
  | .fresh, s => FreshNumbers s

/-- A step of tables: what the laws say of each table in the first state, they say of it in the second. -/
structure Keeps (s t : State) : Prop where
  nor     : Memory.wf norDefault s.nor = true → Memory.wf norDefault t.nor = true
  dram    : Memory.wf dramDefault s.dram = true → Memory.wf dramDefault t.dram = true
  slices  : tabWf {} s.cache.slices = true → tabWf {} t.cache.slices = true
  slots   : tabWf {} s.sec.slots = true → tabWf {} t.sec.slots = true
  lanes   : tabWf {} s.far.lanes = true → tabWf {} t.far.lanes = true
  modules : tabWf {} s.far.modules = true → tabWf {} t.far.modules = true
  dies    : (∀ m ∈ s.far.modules, tabWf {} m.2.dies = true) → ∀ m ∈ t.far.modules, tabWf {} m.2.dies = true
  paths   : tabWf {} s.rdm.paths = true → tabWf {} t.rdm.paths = true
  table   : tabWf 0 s.mch.table = true → tabWf 0 t.mch.table = true
  floor   : tabWf 0 s.til.readFloor = true → tabWf 0 t.til.readFloor = true
  groups  : tabWf [] s.snp.groups = true → tabWf [] t.snp.groups = true
  queues  : tabWf {} s.drc.queues = true → tabWf {} t.drc.queues = true
  owed    : tabWf 0 s.drc.owed = true → tabWf 0 t.drc.owed = true
  temps   : tabWf 0 s.drc.temps = true → tabWf 0 t.drc.temps = true
  missed  : tabWf 0 s.drc.missed = true → tabWf 0 t.drc.missed = true
  bands   : tabWf 0 s.drc.bands = true → tabWf 0 t.drc.bands = true
  draws   : tabWf 0 s.drc.draws = true → tabWf 0 t.drc.draws = true
  fresh   : (∀ c ∈ s.hqe.cmds, c.id < s.hqe.nextCmd) → ∀ c ∈ t.hqe.cmds, c.id < t.hqe.nextCmd

/-- The step that changes nothing. A proof names the tables that an operation does change: `{ h.same with nor := … }`. -/
theorem Law.Holds.same {law : Law} {s : State} (_ : law.Holds s) : Keeps s s :=
  ⟨id, id, id, id, id, id, id, id, id, id, id, id, id, id, id, id, id, id⟩

theorem Law.Holds.of_tables {law : Law} {s t : State} (h : law.Holds s) (k : Keeps s t) : law.Holds t := by
  cases law with
  | canonical =>
    obtain ⟨a, b, c, d, e, f, g, i, j, l, m, n, o, p, q, r, u⟩ := h
    exact ⟨k.nor a, k.dram b, k.slices c, k.slots d, k.lanes e, k.modules f, k.dies g, k.paths i, k.table j, k.floor l,
      k.groups m,
      k.queues n, k.owed o, k.temps p, k.missed q, k.bands r, k.draws u⟩
  | fresh => exact k.fresh h

/-- What the laws speak of. -/
structure Form where
  nor       : List Host.Cell
  dram      : List Host.Cell
  slices    : Tab Slice
  slots     : Tab Slot
  lanes     : Tab Lane
  modules   : Tab Module
  paths     : Tab Path
  table     : Tab Word64
  readFloor : Tab Nat
  groups    : Tab (List Nat)
  queues    : Tab DramQ
  owed      : Tab Nat
  temps     : Tab Int
  missed    : Tab Nat
  bands     : Tab Nat
  draws     : Tab Nat
  cmds      : List Cmd
  nextCmd   : Nat

/-- The form of a state. -/
def State.form (s : State) : Form :=
  ⟨s.nor, s.dram, s.cache.slices, s.sec.slots, s.far.lanes, s.far.modules, s.rdm.paths, s.mch.table, s.til.readFloor,
    s.snp.groups, s.drc.queues, s.drc.owed, s.drc.temps, s.drc.missed, s.drc.bands, s.drc.draws, s.hqe.cmds,
      s.hqe.nextCmd⟩

/-- States of one form satisfy the same laws. -/
theorem Law.holds_congr (law : Law) {s t : State} (h : t.form = s.form) : law.Holds t ↔ law.Holds s := by
  simp only [State.form, Form.mk.injEq] at h
  cases law <;> simp only [Law.Holds, Canonical, FreshNumbers, h]

theorem Law.Holds.congr {law : Law} {s t : State} (h : law.Holds s) (e : t.form = s.form) : law.Holds t :=
  (law.holds_congr e).2 h

variable {law : Law}

/-- An update of what the laws do not speak of. -/
theorem holds_update {s : State} {cache : Cache} {hqe : Hqe} {sec : Sec} {far : Far} {til : Til} {snp : Snp}
    {rdm : Rdm} {mch : Mch}
    {drc : Drc} {a : Glb} {b : Pins} {c : Clk} {d : Nvc} {e : Wch} {f : Hep} {g : Ing} {h : Bal} {i : Med} {j : Plf}
      {k : Par} {m : Peer}
    {n : Pairing} {o : Evr} {p : Svc} {nor dram : List Host.Cell} {ctr : Nat} {out : List Output} (hs : law.Holds s)
    (hform : State.form ⟨a, b, c, cache, d, e, f, hqe, g, h, sec, i, j, far, k, til, snp, m, n, rdm, mch, drc, o, p,
      nor, dram, ctr,
      out, s.pending⟩ = s.form) :
    law.Holds ⟨a, b, c, cache, d, e, f, hqe, g, h, sec, i, j, far, k, til, snp, m, n, rdm, mch, drc, o, p, nor, dram,
      ctr, out,
      s.pending⟩ := hs.congr hform

theorem putPeer_holds {p : Peer} {s : State} (hs : law.Holds s) : law.Holds { s with peer := p } := holds_update hs rfl

theorem putPair_holds {p : Pairing} {s : State} (hs : law.Holds s) : law.Holds { s with pair := p } :=
  holds_update hs rfl

theorem holds_ite {c : Prop} [Decidable c] {s t : State} (hs : law.Holds s) (ht : law.Holds t) :
    law.Holds (if c then s else t) := by
  split
  · exact hs
  · exact ht

theorem done_ite_holds {c : Prop} [Decidable c] {d e : AdminDone} (hd : law.Holds d.2.2) (he : law.Holds e.2.2) :
    law.Holds (if c then d else e).2.2 := by
  split
  · exact hd
  · exact he

theorem answered_holds {st : Word16} {n : Nat} {s : State} (hs : law.Holds s) :
    law.Holds ((st, n, s) : AdminDone).2.2 := hs

theorem forEach_holds {α : Type} {f : α → State → State} {xs : List α} {s : State} (hs : law.Holds s)
    (h : ∀ x t, law.Holds t → law.Holds (f x t)) : law.Holds (forEach xs f s) := forEach_induct law.Holds f h xs s hs

theorem onlyIf_holds {f : State → State} {b : Bool} {s : State} (hs : law.Holds s)
    (h : ∀ t, law.Holds t → law.Holds (f t)) :
    law.Holds (onlyIf b f s) := by
  cases b
  · exact hs
  · exact h s hs

theorem forSome_holds {α : Type} {f : α → State → State} {o : Option α} {s : State} (hs : law.Holds s)
    (h : ∀ x t, law.Holds t → law.Holds (f x t)) : law.Holds (forSome o f s) := by
  cases o with
  | none => exact hs
  | some x => exact h x s hs

theorem foldl_holds {σ α : Type} (g : σ → State) {f : σ → α → σ} {xs : List α} {x : σ} (hx : law.Holds (g x))
    (h : ∀ x a, law.Holds (g x) → law.Holds (g (f x a))) : law.Holds (g (xs.foldl f x)) := by
  induction xs generalizing x with
  | nil => exact hx
  | cons a xs ih => exact ih (h x a hx)

theorem writeNor_holds {b : Bytes} {a : Nat} {s : State} (hs : law.Holds s) :
    law.Holds { s with nor := cellsWrite norDefault b a s.nor } :=
      hs.of_tables { hs.same with nor := wf_cellsWrite _ _ _ }

theorem clearNor_holds {a n : Nat} {s : State} (hs : law.Holds s) :
    law.Holds { s with nor := cellsClear a n s.nor } := hs.of_tables { hs.same with nor := wf_cellsClear _ _ _ }

theorem writeDram_holds {b : Bytes} {a : Nat} {s : State} (hs : law.Holds s) :
    law.Holds { s with dram := cellsWrite dramDefault b a s.dram } :=
      hs.of_tables { hs.same with dram := wf_cellsWrite _ _ _ }

/-! ### Machine/Ops.lean -/

theorem emit_holds {o : Output} {s : State} (hs : law.Holds s) : law.Holds (emit o s) := holds_update hs rfl

theorem tickLong_holds {n : Nat} {s : State} (hs : law.Holds s) : law.Holds (tickLong n s) := holds_update hs rfl

theorem tick_holds {s : State} (hs : law.Holds s) : law.Holds (tick s) := holds_update hs rfl

theorem modPort_holds {p : Fin 2} {f : Port → Port} {s : State} (hs : law.Holds s) : law.Holds (modPort p f s) :=
  holds_ite (holds_update hs rfl) (holds_update hs rfl)

/-! ### Machine/Events.lean -/

theorem lostCheck_holds {s : State} (hs : law.Holds s) : law.Holds (lostCheck s) := holds_ite (holds_update hs rfl) hs

theorem offerRec_holds {e : EvRec} {s : State} (hs : law.Holds s) : law.Holds (offerRec e s) :=
  holds_ite (lostCheck_holds (holds_update hs rfl)) (holds_ite (holds_update hs rfl) (holds_update hs rfl))

theorem raise_holds {b : Blk} {v : Sev} {rule n : Nat} {args : List Nat} {s : State} (hs : law.Holds s) :
    law.Holds (raise b v rule n args s) :=
  offerRec_holds hs

theorem raiseListed_holds {b : Blk} {v : Sev} {code : Nat} {payload : Bytes} {s : State} (hs : law.Holds s) :
    law.Holds (raiseListed b v code payload s) :=
  offerRec_holds hs

theorem raiseIf_holds {c : Bool} {b : Blk} {v : Sev} {rule n : Nat} {args : List Nat} {s : State} (hs : law.Holds s) :
    law.Holds (raiseIf c b v rule n args s) :=
  holds_ite (raise_holds hs) hs

/-! ### Machine/Nvc.lean -/

theorem norServe_holds {r : Nat × Nat} {s : State} (hs : law.Holds s) : law.Holds (norServe r s) :=
  holds_ite (holds_update hs rfl) (emit_holds hs)

theorem norServeAll_holds {s : State} (hs : law.Holds s) : law.Holds (norServeAll s) :=
  forEach_holds (holds_update hs rfl) fun _ _ ht => norServe_holds ht

theorem norSuspendNow_holds {s : State} (hs : law.Holds s) : law.Holds (norSuspendNow s) :=
  emit_holds (holds_update hs rfl)

theorem norTrySuspend_holds {s : State} (hs : law.Holds s) : law.Holds (norTrySuspend s) :=
  holds_ite (norSuspendNow_holds hs) hs

theorem norIssueOp_holds {o : NorOp} {s : State} (hs : law.Holds s) : law.Holds (norIssueOp o s) :=
  holds_ite (holds_update hs rfl) (emit_holds (holds_update hs rfl))

theorem norStartOne_holds {s : State} (hs : law.Holds s) : law.Holds (norStartOne s) := by
  unfold norStartOne
  split
  · exact norIssueOp_holds (holds_update hs rfl)
  · exact hs

theorem norStartNext_holds {s : State} (hs : law.Holds s) : law.Holds (norStartNext s) :=
  forEach_holds hs fun _ _ ht => norStartOne_holds ht

theorem norResumeNow_holds {s : State} (hs : law.Holds s) : law.Holds (norResumeNow s) :=
  holds_ite (holds_update hs rfl) (emit_holds (holds_update hs rfl))

theorem wf_norApply (o : NorOp) {m : List Host.Cell} (hw : Memory.wf norDefault m = true) :
    Memory.wf norDefault (norApply o m) = true := by
  unfold norApply
  split
  · exact wf_cellsClear _ _ _ hw
  · exact wf_cellsWrite _ _ _ hw

theorem norInterrupt_holds {o : NorOp} {s : State} (hs : law.Holds s) : law.Holds (norInterrupt o s) :=
  tickLong_holds (hs.of_tables { hs.same with nor := wf_cellsWrite _ _ _ })

theorem norReset_holds {s : State} (hs : law.Holds s) : law.Holds (norReset s) :=
  forSome_holds (forSome_holds hs fun _ _ ht => norInterrupt_holds ht) fun _ _ ht => norInterrupt_holds ht

theorem norReadRequestEffect_holds {a n : Nat} {s : State} (hs : law.Holds s) :
    law.Holds (norReadRequestEffect a n s) :=
  holds_ite hs (holds_ite (holds_update hs rfl) (holds_ite (norServe_holds hs)
    (norTrySuspend_holds (holds_update hs rfl))))

theorem nvcMinRunExpiryEffect_holds {s : State} (hs : law.Holds s) : law.Holds (nvcMinRunExpiryEffect s) :=
  holds_ite (norTrySuspend_holds (holds_update hs rfl)) hs

theorem nvcTsusExpiryEffect_holds {s : State} (hs : law.Holds s) : law.Holds (nvcTsusExpiryEffect s) :=
  holds_ite (norStartNext_holds (norServeAll_holds (holds_update hs rfl))) hs

theorem nvcSuspendLimitExpiryEffect_holds {s : State} (hs : law.Holds s) : law.Holds (nvcSuspendLimitExpiryEffect s) :=
  holds_ite hs (holds_ite (holds_update hs rfl) (norResumeNow_holds hs))

theorem norRequest_holds {o : NorOp} {s : State} (hs : law.Holds s) : law.Holds (norRequest o s) :=
  holds_ite (holds_ite (holds_update hs rfl) hs) (holds_ite (norIssueOp_holds hs) (holds_update hs rfl))

theorem norComplete_holds {o : NorOp} {s : State} (hs : law.Holds s) : law.Holds (norComplete o s) := by
  have ht : law.Holds { s with nor := norApply o s.nor, nvc := { s.nvc with running := none, ranMin := false } } :=
    hs.of_tables { hs.same with nor := wf_norApply o }
  unfold norComplete
  extract_lets _ t u
  have hu : law.Holds u := holds_ite (norServeAll_holds ht) ht
  exact holds_ite (norResumeNow_holds ht) (holds_ite hu (norStartNext_holds hu))

theorem norPowerFail_holds {s : State} (hs : law.Holds s) : law.Holds (norPowerFail s) :=
  tick_holds (holds_update hs rfl)

/-! ### Machine/Recorder.lean -/

theorem recorderReclaim_holds {s : State} (hs : law.Holds s) : law.Holds (recorderReclaim s) := by
  unfold recorderReclaim
  refine holds_ite hs (holds_ite ?_ (holds_update hs rfl))
  split
  · exact norRequest_holds (holds_ite hs (raiseListed_holds hs))
  · exact holds_update hs rfl

theorem afterErase_holds {s : State} (hs : law.Holds s) : law.Holds (afterErase s) :=
  recorderReclaim_holds (holds_update hs rfl)

theorem norOperationDoneEffect_holds {s : State} (hs : law.Holds s) : law.Holds (norOperationDoneEffect s) := by
  unfold norOperationDoneEffect
  split
  · exact hs
  · exact holds_ite hs (onlyIf_holds (norComplete_holds hs) fun _ ht => afterErase_holds ht)

theorem openSector_holds {s : State} (hs : law.Holds s) : law.Holds (openSector s) := by
  unfold openSector
  dsimp only
  split
  · next k _ =>
    exact (writeNor_holds (b := sectorHeader s.glb.unitSerial (s.evr.sectorSeq + 1)) (a := sectorAddr k) hs).congr rfl
  · exact holds_update hs rfl

theorem ensureSector_holds {s : State} (hs : law.Holds s) : law.Holds (ensureSector s) :=
  holds_ite (openSector_holds hs) hs

theorem drainStart_holds {s : State} (hs : law.Holds s) : law.Holds (drainStart s) :=
  holds_ite (holds_ite (ensureSector_holds hs) (norRequest_holds (holds_update (ensureSector_holds hs) rfl))) hs

theorem drainMark_holds {o : NorOp} {s : State} (hs : law.Holds s) : law.Holds (drainMark o s) := holds_update hs rfl

theorem offered_holds {e : OfferedEvent} {s : State} (hs : law.Holds s) : law.Holds (offered e s) := offerRec_holds hs

theorem authBurst_holds {s : State} (hs : law.Holds s) : law.Holds (authBurst s) :=
  holds_ite hs (raiseListed_holds (holds_update hs rfl))

theorem secondBoundaryEffect_holds {s : State} (hs : law.Holds s) : law.Holds (secondBoundaryEffect s) :=
  authBurst_holds (foldl_holds id (holds_update hs rfl) fun _ _ ht => holds_update (id ht : law.Holds _) rfl)

theorem eraseBadHeaders_holds {s : State} (hs : law.Holds s) : law.Holds (eraseBadHeaders s) :=
  forEach_holds hs fun _ _ ht => norRequest_holds ht

theorem sequenceBaseSetEffect_holds {s : State} (hs : law.Holds s) : law.Holds (sequenceBaseSetEffect s) := by
  unfold sequenceBaseSetEffect
  exact holds_ite hs (foldl_holds id (holds_update (eraseBadHeaders_holds hs) rfl) fun _ _ ht => raiseListed_holds ht)

theorem norRecordProgramDoneEffect_holds {s : State} (hs : law.Holds s) : law.Holds (norRecordProgramDoneEffect s) := by
  unfold norRecordProgramDoneEffect
  dsimp only
  split
  · exact holds_ite (drainStart_holds
      (recorderReclaim_holds (lostCheck_holds (norComplete_holds (drainMark_holds (drainStart_holds hs))))))
      (drainStart_holds hs)
  · exact drainStart_holds hs

theorem setRdChan_holds {n : Fin 2} {c : RdChan} {s : State} (hs : law.Holds s) : law.Holds (setRdChan n c s) :=
  holds_ite (holds_update hs rfl) (holds_update hs rfl)

theorem evrReadRequestEffect_holds {n : Fin 2} {upper : Word32} {s : State} (hs : law.Holds s) :
    law.Holds (evrReadRequestEffect n upper s) :=
  setRdChan_holds hs

/-! ### Machine/Queues.lean -/

theorem modQp_holds {k : QKey} {f : Qp → Qp} {s : State} (hs : law.Holds s) : law.Holds (modQp k f s) :=
  holds_update hs rfl

theorem putVector_holds {e : Vector_} {s : State} (hs : law.Holds s) : law.Holds (putVector e s) := holds_update hs rfl

theorem signal_holds {f : FnId} {v : Nat} {s : State} (hs : law.Holds s) : law.Holds (signal f v s) :=
  holds_ite hs (holds_ite (putVector_holds hs) (emit_holds hs))

theorem postOne_holds {k : QKey} {e : Cqe} {s : State} (hs : law.Holds s) : law.Holds (postOne k e s) := by
  unfold postOne
  split
  · exact hs
  · exact holds_ite (signal_holds (modQp_holds (emit_holds hs)))
      (holds_ite (signal_holds (modQp_holds (modQp_holds (emit_holds hs)))) (modQp_holds (modQp_holds (emit_holds hs))))

theorem postCqe_holds {k : QKey} {e : Cqe} {s : State} (hs : law.Holds s) : law.Holds (postCqe k e s) := by
  unfold postCqe
  split
  · exact hs
  · exact holds_ite hs (holds_ite (modQp_holds hs) (postOne_holds hs))

theorem postWaiting_holds {k : QKey} {n : Nat} {s : State} (hs : law.Holds s) : law.Holds (postWaiting k n s) := by
  induction n generalizing s with
  | zero => exact hs
  | succ n ih =>
    unfold postWaiting
    split
    · exact hs
    · split
      · exact hs
      · exact holds_ite hs (ih (postOne_holds (modQp_holds hs)))

theorem toPeer_holds {type : Nat} {args : List Nat} {data : Bytes} {s : State} (hs : law.Holds s) :
    law.Holds (toPeer type args data s) :=
  holds_ite (emit_holds hs) hs

theorem mirrorSettle_holds {e : Settle} {s : State} (hs : law.Holds s) : law.Holds (mirrorSettle e s) :=
  holds_ite (toPeer_holds hs) hs

theorem addSettle_holds {e : Settle} {s : State} (hs : law.Holds s) : law.Holds (addSettle e s) :=
  mirrorSettle_holds (holds_update hs rfl)

theorem dropSettle_holds {p : Settle → Bool} {s : State} (hs : law.Holds s) : law.Holds (dropSettle p s) :=
  holds_update hs rfl

theorem settleRoom_holds {s t : State} (hs : law.Holds s) (h : settleRoom s = some t) : law.Holds t := by
  unfold settleRoom at h
  split at h
  · cases h; exact hs
  · split at h
    · cases h; exact dropSettle_holds hs
    · split at h
      · cases h; exact raise_holds (dropSettle_holds hs)
      · cases h

theorem settleCreate_holds {t nsid qp : Nat} {g : Word64} {s u : State} (hs :
    law.Holds s) (h : settleCreate t g nsid qp s = some u) : law.Holds u := by
  unfold settleCreate at h
  dsimp only at h
  split at h
  · next hr => cases h; exact addSettle_holds (settleRoom_holds (dropSettle_holds hs) hr)
  · cases h

theorem mirrorSettle_nextCmd (e : Settle) (s : State) : (mirrorSettle e s).hqe.nextCmd = s.hqe.nextCmd := by
  obtain ⟨o, ho⟩ := mirrorSettle_out e s
  rw [ho]

theorem settleRoom_nextCmd {s t : State} (h : settleRoom s = some t) : t.hqe.nextCmd = s.hqe.nextCmd := by
  unfold settleRoom at h
  (repeat' split at h) <;> simp at h
  · rw [← h]
  · rw [← h]; rfl
  · obtain ⟨v, hv⟩ := raise_evr .hqe .fault 106 0 [_, _] (dropSettle (fun x => !x.ofPeer && x.outcome != 4) s)
    rw [← h, hv]; rfl

theorem settleCreate_nextCmd {t nsid qp : Nat} {g : Word64} {s u : State} (h : settleCreate t g nsid qp s = some u) :
    u.hqe.nextCmd = s.hqe.nextCmd := by
  unfold settleCreate at h
  dsimp only at h
  split at h
  · next v hv =>
    cases h
    rw [addSettle, mirrorSettle_nextCmd]
    have := settleRoom_nextCmd hv
    exact this
  · cases h

theorem settleTag_holds {t : Nat} {g : Word64} {k n : Nat} {s : State} (hs : law.Holds s) :
    law.Holds (settleTag t g k n s) := by
  unfold settleTag
  split
  · exact hs
  · exact mirrorSettle_holds (holds_update hs rfl)

theorem pinTrim_holds {n : Nat} {s : State} (hs : law.Holds s) : law.Holds (pinTrim n s) := by
  induction n generalizing s with
  | zero => exact hs
  | succ n ih =>
    unfold pinTrim
    split
    · split
      · exact ih (raise_holds (holds_update hs rfl))
      · exact hs
    · exact hs

theorem pinEntries_holds {p : Settle → Bool} {s : State} (hs : law.Holds s) : law.Holds (pinEntries p s) :=
  pinTrim_holds (holds_update hs rfl)

theorem pinQps_holds {ids : List Nat} {s : State} (hs : law.Holds s) : law.Holds (pinQps ids s) := pinEntries_holds hs

theorem logError_holds {r : QErr} {s : State} (hs : law.Holds s) : law.Holds (logError r s) := holds_update hs rfl

theorem freezeQueue_holds {k : QKey} {cause idx : Nat} {head : Bytes} {s : State} (hs : law.Holds s) :
    law.Holds (freezeQueue k cause idx head s) := by
  unfold freezeQueue
  split
  · exact hs
  · exact holds_ite hs (holds_ite (logError_holds (pinQps_holds (modQp_holds hs)))
      (signal_holds (logError_holds (pinQps_holds (modQp_holds hs)))))

theorem modTenant_holds {t : Nat} {f : Tenant → Tenant} {s : State} (hs : law.Holds s) : law.Holds (modTenant t f s) :=
  holds_update hs rfl

theorem returnCredit_holds {t : Option Nat} {s : State} (hs : law.Holds s) : law.Holds (returnCredit t s) := by
  unfold returnCredit
  split
  · exact hs
  · exact modTenant_holds hs

theorem takeCredits_holds {t n : Nat} {s : State} (hs : law.Holds s) : law.Holds (takeCredits t n s) :=
  modTenant_holds hs

/-- The first command of a number, changed, has its number still. -/
theorem of_mem_modFirst {α : Type} {p : α → Bool} {f : α → α} {xs : List α} {y : α} (h : y ∈ modFirst p f xs) :
    y ∈ xs ∨ ∃ x ∈ xs, p x = true ∧ y = f x := by
  induction xs with
  | nil => exact .inl h
  | cons x xs ih =>
    unfold modFirst at h
    split at h
    · next hp =>
      rcases List.mem_cons.1 h with rfl | h
      · exact .inr ⟨x, List.mem_cons_self, hp, rfl⟩
      · exact .inl (List.mem_cons_of_mem _ h)
    · rcases List.mem_cons.1 h with rfl | h
      · exact .inl List.mem_cons_self
      · exact (ih h).imp (List.mem_cons_of_mem _) fun ⟨z, hz, hf⟩ => ⟨z, List.mem_cons_of_mem _ hz, hf⟩

theorem modCmd_holds {id : Nat} {f : Cmd → Cmd} {s : State} (hs : law.Holds s) (hf : ∀ c, c.id = id → (f c).id = id) :
    law.Holds (modCmd id f s) := by
  refine hs.of_tables { hs.same with fresh := fun hl d hd => ?_ }
  obtain hd | ⟨c, hc, hid, rfl⟩ := of_mem_modFirst hd
  · exact hl d hd
  · have hid : c.id = id := by simpa using hid
    exact (hf c hid).trans hid.symm ▸ hl c hc

theorem dropCmd_holds {id : Nat} {s : State} (hs : law.Holds s) : law.Holds (dropCmd id s) :=
  hs.of_tables { hs.same with fresh := fun hl d hd => hl d (List.mem_of_mem_filter hd) }

theorem answerTo_holds {o : Origin} {q : QKey} {cid status : Word16} {k n result : Nat} {data : Bytes} {s : State}
    (hs : law.Holds s) :
    law.Holds (answerTo o q cid status k n result data s) := by
  unfold answerTo
  dsimp only
  split
  · exact postCqe_holds hs
  · exact toPeer_holds hs
  · exact holds_ite hs (emit_holds hs)

theorem answerCmd_holds {w : Waiter} {status : Word16} {result : Nat} {s : State} (hs : law.Holds s) :
    law.Holds (answerCmd w status result s) :=
  answerTo_holds hs

theorem finishCmd_holds {id : Nat} {status : Word16} {k result : Nat} {s : State} (hs : law.Holds s) :
    law.Holds (finishCmd id status k result s) := by
  unfold finishCmd
  split
  · exact hs
  · exact holds_ite (modQp_holds (dropCmd_holds hs)) (answerTo_holds (modQp_holds (dropCmd_holds hs)))

theorem fetchRow_holds {c : HostCmd} {f : Qp → State → State} {s : State} (hs : law.Holds s)
    (hf : ∀ y1 t, law.Holds t → law.Holds (f y1 t)) :
    law.Holds (fetchRow c f s) := by
  unfold fetchRow
  split
  · exact hs
  · refine holds_ite ?_ hs
    dsimp only
    split
    · exact answerCmd_holds (modQp_holds hs)
    · exact hf _ _ (modQp_holds hs)

/-- A command is added under a number that is not above the next one. -/
theorem addCmd_holds {c : Cmd} {s : State} (hs : law.Holds s) (hc : c.id ≤ s.hqe.nextCmd) : law.Holds (addCmd c s) := by
  have ht : law.Holds { s with hqe := { s.hqe with cmds := s.hqe.cmds ++ [c], nextCmd := s.hqe.nextCmd + 1 } } := by
    refine hs.of_tables { hs.same with fresh := fun hl d hd => ?_ }
    rcases List.mem_append.1 hd with hd | hd
    · exact Nat.lt_succ_of_lt (hl d hd)
    · exact Nat.lt_succ_of_le (List.mem_singleton.1 hd ▸ hc)
  exact holds_ite (modQp_holds ht) ht

theorem toHostPoison_holds {q : QKey} {addr : Nat} {data : Bytes} {s : State} (hs : law.Holds s) :
    law.Holds (toHostPoison q addr data s) :=
  holds_ite hs (emit_holds hs)

theorem toHost_holds {q : QKey} {addr : Nat} {data : Bytes} {s : State} (hs : law.Holds s) :
    law.Holds (toHost q addr data s) :=
  holds_ite hs (emit_holds hs)

/-! ### Machine/Staging.lean -/

theorem modEntry_holds {slot : Nat} {f : StEntry → StEntry} {s : State} (hs : law.Holds s) :
    law.Holds (modEntry slot f s) :=
  holds_update hs rfl

theorem noteOccupancy_holds {s : State} (hs : law.Holds s) : law.Holds (noteOccupancy s) := holds_update hs rfl

theorem freeEntry_holds {e : StEntry} {s : State} (hs : law.Holds s) : law.Holds (freeEntry e s) :=
  noteOccupancy_holds (returnCredit_holds (holds_update hs rfl))

theorem sendRelease_holds {nsid lba : Nat} {g : Word16} {s : State} (hs : law.Holds s) :
    law.Holds (sendRelease nsid lba g s) :=
  holds_ite (toPeer_holds hs) hs

theorem releaseEntry_holds {e : StEntry} {s : State} (hs : law.Holds s) : law.Holds (releaseEntry e s) :=
  sendRelease_holds (freeEntry_holds hs)

theorem sendMirror_holds {e : StEntry} {tag : Option Word64} {nblk : Nat} {s : State} (hs : law.Holds s) :
    law.Holds (sendMirror e tag nblk s) :=
  holds_ite (toPeer_holds hs) hs

theorem reachStaged_holds {e : StEntry} {tag : Option Word64} {nblk : Nat} {s : State} (hs : law.Holds s) :
    law.Holds (reachStaged e tag nblk s) :=
  holds_ite (freeEntry_holds (sendMirror_holds hs))
    (holds_update (modEntry_holds (forSome_holds (sendMirror_holds hs) fun _ _ ht => freeEntry_holds ht)) rfl)

theorem stagePrefix_holds {c : Cmd} {s : State} (hs : law.Holds s) : law.Holds (stagePrefix c s) := by
  unfold stagePrefix
  refine forEach_holds hs fun _ _ ht => ?_
  split
  · exact holds_ite (reachStaged_holds ht) ht
  · exact ht

theorem endWrite_holds {c : Cmd} {k : Nat} {status : Word16} {s : State} (hs : law.Holds s) :
    law.Holds (endWrite c k status s) := by
  unfold endWrite
  refine finishCmd_holds (holds_update ?_ rfl)
  split
  · exact holds_ite (settleTag_holds hs) hs
  · exact hs

theorem completeWrite_holds {id : Nat} {s : State} (hs : law.Holds s) : law.Holds (completeWrite id s) := by
  unfold completeWrite
  split
  · exact holds_ite (endWrite_holds hs) hs
  · exact hs

theorem advanceWrite_holds {id : Nat} {s : State} (hs : law.Holds s) : law.Holds (advanceWrite id s) := by
  unfold advanceWrite
  split
  · exact hs
  · exact holds_ite hs (holds_ite (completeWrite_holds (modCmd_holds (stagePrefix_holds hs) fun _ e => e))
      (stagePrefix_holds hs))

theorem freeFilling_holds {id : Nat} {s : State} (hs : law.Holds s) : law.Holds (freeFilling id s) :=
  forEach_holds hs fun _ _ ht => freeEntry_holds ht

theorem cutWrite_holds {id : Nat} {s : State} (hs : law.Holds s) : law.Holds (cutWrite id s) := by
  unfold cutWrite
  split
  · exact hs
  · exact holds_ite (endWrite_holds (freeFilling_holds hs)) (completeWrite_holds (modCmd_holds (freeFilling_holds hs)
      fun _ e => e))

theorem withdrawMirror_holds {nsid lba : Nat} {g : Word16} {s : State} (hs : law.Holds s) :
    law.Holds (withdrawMirror nsid lba g s) :=
  forEach_holds (sendRelease_holds hs) fun _ _ ht => sendMirror_holds ht

theorem takeBack_holds {e : StEntry} {s : State} (hs : law.Holds s) : law.Holds (takeBack e s) := by
  unfold takeBack
  refine withdrawMirror_holds ?_
  split
  · exact modEntry_holds hs
  · exact modEntry_holds hs
  · exact freeEntry_holds hs

theorem endVoid_holds {e : StEntry} {s : State} (hs : law.Holds s) : law.Holds (endVoid e s) :=
  holds_ite (modEntry_holds hs) (freeEntry_holds hs)

theorem poisonWrite_holds {id : Nat} {s : State} (hs : law.Holds s) : law.Holds (poisonWrite id s) := by
  unfold poisonWrite
  split
  · exact hs
  · exact endWrite_holds (forEach_holds (freeFilling_holds hs) fun _ _ ht => takeBack_holds ht)

theorem touchPage_holds {p : Nat × Nat} {s : State} (hs : law.Holds s) : law.Holds (touchPage p s) := by
  unfold touchPage
  exact holds_ite (holds_update hs rfl) (holds_ite (holds_update hs rfl) (by split <;> exact holds_update hs rfl))

theorem dirtyChunk_holds {no : Nat} {s : State} (hs : law.Holds s) : law.Holds (dirtyChunk no s) :=
  holds_ite hs (holds_update (touchPage_holds hs) rfl)

theorem touchRange_holds {nsid lba n : Nat} {s : State} (hs : law.Holds s) : law.Holds (touchRange nsid lba n s) :=
  forEach_holds hs fun _ _ ht => holds_ite (touchPage_holds ht) ht

theorem takeSlots_holds {c : Cmd} {s : State} (hs : law.Holds s) : law.Holds (takeSlots c s) := by
  unfold takeSlots
  split
  · exact hs
  · extract_lets _ _ t u _ _ _
    have hu : law.Holds u := modCmd_holds (noteOccupancy_holds (holds_update hs rfl)) fun _ e => e
    clear_value u
    refine holds_ite (advanceWrite_holds (modCmd_holds hu fun _ e => e))
      (holds_ite (forEach_holds hu fun _ _ h => emit_holds h) ?_)
    exact advanceWrite_holds (modCmd_holds (holds_update hu rfl) fun _ e => e)

theorem grantOne_holds {id : Nat} {p : Bool × State} (hs : law.Holds p.2) : law.Holds (grantOne id p).2 := by
  unfold grantOne
  split
  · exact hs
  · split
    · exact hs
    · split
      · exact modCmd_holds hs fun _ e => e
      · split
        · exact takeSlots_holds hs
        · split
          · exact hs
          · split
            · exact hs
            · dsimp only
              split
              · exact modCmd_holds hs fun _ e => e
              · exact modCmd_holds hs fun _ e => e
              · split
                · exact modCmd_holds hs fun _ e => e
                · exact takeSlots_holds (takeCredits_holds hs)

theorem grantAll_holds {s : State} (hs : law.Holds s) : law.Holds (grantAll s) := by
  unfold grantAll
  split
  · exact hs
  · exact foldl_holds (fun p : Bool × State => p.2) hs fun p id hp => grantOne_holds hp

/-! ### Machine/Lanes.lean -/

theorem modLane_holds {n : Nat} {f : Lane → Lane} {s : State} (hs : law.Holds s) : law.Holds (modLane n f s) :=
  hs.of_tables { hs.same with lanes := tabWf_tabMod _ _ _ }

theorem noteDieRun_holds {n : Nat} {c : FarCmd} {s : State} (hs : law.Holds s) : law.Holds (noteDieRun n c s) :=
  holds_ite (holds_update hs rfl) hs

theorem putFrame_holds {n tag : Nat} {c : FarCmd} {s : State} (hs : law.Holds s) : law.Holds (putFrame n tag c s) :=
  emit_holds (modLane_holds hs)

theorem sendNow_holds {n : Nat} {c : FarCmd} {s : State} (hs : law.Holds s) : law.Holds (sendNow n c s) :=
  noteDieRun_holds (holds_update (modLane_holds (putFrame_holds hs)) rfl)

theorem farSend_holds {n : Nat} {c : FarCmd} {s : State} (hs : law.Holds s) : law.Holds (farSend n c s) :=
  holds_ite (sendNow_holds hs) (modLane_holds hs)

theorem sendWaiting_holds {n k : Nat} {s : State} (hs : law.Holds s) : law.Holds (sendWaiting n k s) := by
  induction k generalizing s with
  | zero => exact hs
  | succ k ih =>
    unfold sendWaiting
    split
    · exact hs
    · exact holds_ite (ih (sendNow_holds (modLane_holds hs))) hs

theorem sendAgain_holds {n k : Nat} {s : State} (hs : law.Holds s) : law.Holds (sendAgain n k s) := by
  induction k generalizing s with
  | zero => exact hs
  | succ k ih =>
    unfold sendAgain
    split
    · exact hs
    · exact holds_ite (ih (putFrame_holds (modLane_holds hs))) hs

theorem serveLane_holds {n : Nat} {s : State} (hs : law.Holds s) : law.Holds (serveLane n s) :=
  holds_ite (sendWaiting_holds (sendAgain_holds hs)) (sendAgain_holds hs)

theorem resend_holds {n : Nat} {o : FarOut} {s : State} (hs : law.Holds s) : law.Holds (resend n o s) :=
  holds_ite (putFrame_holds hs) (modLane_holds hs)

theorem farUrgent_holds {n : Nat} {c : FarCmd} {s : State} (hs : law.Holds s) : law.Holds (farUrgent n c s) :=
  holds_ite (sendNow_holds hs) (modLane_holds hs)

theorem modDieRun_holds {n d : Nat} {f : DieRun → DieRun} {s : State} (hs : law.Holds s) :
    law.Holds (modDieRun n d f s) :=
  holds_update hs rfl

theorem trySuspend_holds {n d : Nat} {s : State} (hs : law.Holds s) : law.Holds (trySuspend n d s) := by
  unfold trySuspend
  split
  · exact hs
  · exact holds_ite (farUrgent_holds (modDieRun_holds hs)) (modDieRun_holds hs)

theorem urgentRead_holds {m : Member} {slc : Bool} {page off count : Nat} {s : State} (hs : law.Holds s) :
    law.Holds (urgentRead m slc page off count s) :=
  trySuspend_holds (farUrgent_holds hs)

theorem readMember_holds {m : Member} {slc : Bool} {page off count : Nat} {s : State} (hs : law.Holds s) :
    law.Holds (readMember m slc page off count s) :=
  holds_ite (toPeer_holds hs) (urgentRead_holds hs)

theorem readStored_holds {g : Seg} {stripe gran n : Nat} {s : State} (hs : law.Holds s) :
    law.Holds (readStored g stripe gran n s) := by
  unfold readStored
  refine forEach_holds hs fun _ _ ht => ?_
  split
  · exact readMember_holds ht
  · exact ht

theorem readPage_holds {p : Nat × Nat} {s : State} (hs : law.Holds s) : law.Holds (readPage p s) := by
  unfold readPage
  dsimp only
  split
  · exact forSome_holds hs fun _ _ ht => readStored_holds ht
  · exact hs

/-! ### Machine/HqeIo.lean -/

theorem takeId_holds {s : State} (hs : law.Holds s) : law.Holds (takeId s) := holds_update hs rfl

theorem deliver_holds {c : Cmd} {off : Nat} {data : Bytes} {s : State} (hs : law.Holds s) :
    law.Holds (deliver c off data s) := by
  unfold deliver
  split
  · exact forEach_holds hs fun _ _ ht => holds_ite (toHostPoison_holds ht) (toHost_holds ht)
  · exact modCmd_holds hs fun _ e => e

theorem modSeg_holds {no : Nat} {f : Seg → Seg} {s : State} (hs : law.Holds s) : law.Holds (modSeg no f s) :=
  holds_update hs rfl

theorem addJob_holds {c : Cmd} {parts : List (Nat × Nat × Nat × Nat × Nat)} {chunk : Nat} {s : State}
    (hs : law.Holds s) :
    law.Holds (addJob c parts chunk s) :=
  modSeg_holds (takeId_holds (holds_update hs rfl))

theorem endRead_holds {id : Nat} {s : State} (hs : law.Holds s) : law.Holds (endRead id s) := by
  unfold endRead
  split
  · exact hs
  · exact finishCmd_holds (modCmd_holds hs fun _ e => e)

theorem lostBlocks_id (l : List Nat) (c : Cmd) : (lostBlocks l c).id = c.id :=
  by unfold lostBlocks; dsimp only; split <;> rfl

theorem startRead_holds {c : Cmd} {n : Ns} {s : State} (hs : law.Holds s) : law.Holds (startRead c n s) := by
  unfold startRead
  refine holds_ite (finishCmd_holds hs)
    (holds_ite (endRead_holds (forEach_holds (touchRange_holds (modCmd_holds hs (by simp))) fun _ _ ht => ?_))
    (forEach_holds (forEach_holds (touchRange_holds (modCmd_holds hs (by simp))) fun _ _ ht => ?_) fun _ _ ht =>
    addJob_holds ht))
  · split
    · exact deliver_holds ht
    · exact deliver_holds ht
    · exact ht
  · split
    · exact deliver_holds ht
    · exact deliver_holds ht
    · exact ht

theorem endJob_holds {j : ReadJob} {status : Word16} {s : State} (hs : law.Holds s) :
    law.Holds (endJob j status s) := by
  unfold endJob
  extract_lets _ t first u
  have hu : law.Holds u := by
    refine modCmd_holds (modSeg_holds (holds_update hs rfl)) fun c hc => ?_
    split <;> exact hc
  exact holds_ite hu (endRead_holds hu)

theorem sentOn_holds {p : RcQp → Bool} {len : Nat} {s : State} (hs : law.Holds s) : law.Holds (sentOn p len s) :=
  holds_update hs rfl

theorem sendRelay_holds {c : Cmd} {dst : Nat} {s : State} (hs : law.Holds s) : law.Holds (sendRelay c dst s) := by
  unfold sendRelay
  refine holds_ite (toPeer_holds hs) ?_
  split
  · exact emit_holds (sentOn_holds (holds_update hs rfl))
  · exact hs

theorem startRelay_holds {w : Waiter} {dst : Nat} {s : State} (hs : law.Holds s) : law.Holds (startRelay w dst s) :=
  holds_ite (forEach_holds (holds_ite (addCmd_holds hs le_rfl) (holds_update (addCmd_holds hs le_rfl) rfl))
    fun _ _ ht => emit_holds ht) (sendRelay_holds (holds_ite (addCmd_holds hs le_rfl)
    (holds_update (addCmd_holds hs le_rfl) rfl)))

theorem relayOrWait_holds {w : Waiter} {dst : Nat} {s : State} (hs : law.Holds s) : law.Holds (relayOrWait w dst s) :=
  holds_ite (holds_update hs rfl) (startRelay_holds hs)

theorem waitPages_holds {c : Cmd} {s : State} (hs : law.Holds s) : law.Holds (waitPages c s) :=
  forEach_holds (modCmd_holds (holds_update hs rfl) fun _ e => e) fun _ _ ht => readPage_holds ht

theorem admitRead_holds {w : Waiter} {n : Ns} {s : State} (hs : law.Holds s) : law.Holds (admitRead w n s) :=
  holds_ite (waitPages_holds (addCmd_holds hs le_rfl)) (startRead_holds (addCmd_holds hs le_rfl))

theorem admitSlots_holds {c : Cmd} {s : State} (hs : law.Holds s) : law.Holds (admitSlots c s) :=
  holds_ite (grantAll_holds (modCmd_holds (touchRange_holds hs) fun _ e => e)) (waitPages_holds hs)

theorem admitWrite_holds {w : Waiter} {s : State} (hs : law.Holds s) : law.Holds (admitWrite w s) := by
  have hnew : (newCmd w .waitTag s).id ≤ s.hqe.nextCmd := le_rfl
  unfold admitWrite
  dsimp only
  split
  · split
    · exact answerCmd_holds hs
    · split
      · next t ht => exact admitSlots_holds (addCmd_holds (settleCreate_holds hs ht) (settleCreate_nextCmd ht ▸ hnew))
      · exact addCmd_holds hs hnew
  · exact admitSlots_holds (addCmd_holds hs hnew)

theorem admitIo_holds {w : Waiter} {s : State} (hs : law.Holds s) : law.Holds (admitIo w s) := by
  unfold admitIo
  split
  · exact answerCmd_holds hs
  · exact relayOrWait_holds hs
  · exact holds_ite (holds_update hs rfl) (holds_ite (admitRead_holds hs) (holds_ite (admitWrite_holds hs)
      (admitSlots_holds (addCmd_holds hs le_rfl))))

theorem routeIo_holds {w : Waiter} {s : State} (hs : law.Holds s) : law.Holds (routeIo w s) := by
  unfold routeIo
  refine holds_ite ?_ (holds_ite (holds_update hs rfl)
    (holds_ite (holds_ite (relayOrWait_holds hs) (answerCmd_holds hs)) (admitIo_holds hs)))
  split
  · exact relayOrWait_holds hs
  · exact answerCmd_holds hs

theorem releaseTags_holds {tenant : Option Nat} {tags : List Word64} {s : State} (hs : law.Holds s) :
    law.Holds (releaseTags tenant tags s) := by
  unfold releaseTags
  split
  · exact hs
  · exact holds_update hs rfl

theorem answerQuery_holds {id : Nat} {s : State} (hs : law.Holds s) : law.Holds (answerQuery id s) := by
  unfold answerQuery
  split
  · exact hs
  · split
    · exact finishCmd_holds (holds_ite (releaseTags_holds (holds_ite (toHost_holds hs) (modCmd_holds hs fun _ e => e)))
        (holds_ite (toHost_holds hs) (modCmd_holds hs fun _ e => e)))
    · exact hs

theorem admitQuery_holds {w : Waiter} {s : State} (hs : law.Holds s) : law.Holds (admitQuery w s) :=
  holds_ite (holds_update hs rfl) (holds_ite (addCmd_holds hs le_rfl) (answerQuery_holds (addCmd_holds hs le_rfl)))

theorem routeQuery_holds {q : Qp} {c : HostCmd} {s : State} (hs : law.Holds s) : law.Holds (routeQuery q c s) := by
  unfold routeQuery
  refine holds_ite ?_ (holds_ite (answerCmd_holds hs) (admitQuery_holds hs))
  split
  · exact startRelay_holds hs
  · exact answerCmd_holds hs

theorem admitWaiter_holds {w : Waiter} {s : State} (hs : law.Holds s) : law.Holds (admitWaiter w s) :=
  holds_ite (admitQuery_holds hs) (routeIo_holds hs)

theorem wakeBehind_holds {s : State} (hs : law.Holds s) : law.Holds (wakeBehind s) :=
  forEach_holds (holds_update hs rfl) fun _ _ ht => holds_ite (holds_update ht rfl) (admitWaiter_holds ht)

theorem retryTags_holds {s : State} (hs : law.Holds s) : law.Holds (retryTags s) := by
  refine forEach_holds hs fun c t ht => ?_
  split
  · dsimp only
    split
    · next hu => exact admitSlots_holds (settleCreate_holds ht hu)
    · exact ht
  · exact ht

theorem readmit_holds {s : State} (hs : law.Holds s) : law.Holds (readmit s) :=
  wakeBehind_holds (grantAll_holds (retryTags_holds hs))

theorem ioRow_holds {c : HostCmd} {s : State} (hs : law.Holds s) : law.Holds (ioRow c s) :=
  fetchRow_holds hs fun _ _ ht => routeIo_holds ht

theorem stateQueryWaitEndEffect_holds {id : Nat} {timedOut : Bool} {s : State} (hs : law.Holds s) :
    law.Holds (stateQueryWaitEndEffect id timedOut s) := by
  unfold stateQueryWaitEndEffect
  split
  · exact hs
  · split
    · exact holds_ite (answerQuery_holds hs) hs
    · exact hs

theorem creditWaitTimeoutEffect_holds {id : Nat} {s : State} (hs : law.Holds s) :
    law.Holds (creditWaitTimeoutEffect id s) := by
  unfold creditWaitTimeoutEffect
  split
  · exact hs
  · refine holds_ite (wakeBehind_holds (holds_ite (finishCmd_holds ?_) (endWrite_holds ?_))) hs
    · split
      · exact modTenant_holds hs
      · exact hs
    · split
      · exact modTenant_holds hs
      · exact hs

theorem blockArrived_holds {id b : Nat} {data : Bytes} {s : State} (hs : law.Holds s) :
    law.Holds (blockArrived id b data s) := by
  unfold blockArrived
  split
  · exact hs
  · refine holds_ite ?_ hs
    split
    · exact advanceWrite_holds (holds_update (modCmd_holds hs fun _ e => e) rfl)
    · dsimp only
      split
      · exact holds_ite (wakeBehind_holds (sendRelay_holds (modCmd_holds hs fun _ e => e))) (modCmd_holds hs fun _ e =>
          e)
      · exact modCmd_holds hs fun _ e => e
    · exact hs

theorem mapPageReadDoneEffect_holds {n : BitVec 14} {page : Nat} {s : State} (hs : law.Holds s) :
    law.Holds (mapPageReadDoneEffect n page s) := by
  unfold mapPageReadDoneEffect
  refine wakeBehind_holds (forEach_holds (touchPage_holds hs) fun _ _ ht => holds_ite
    (holds_ite ht (waitPages_holds (modCmd_holds ht fun _ e => e))) (holds_ite ?_ (admitSlots_holds ht)))
  split
  · exact startRead_holds ht
  · exact finishCmd_holds ht

theorem dropJobs_holds {id : Nat} {s : State} (hs : law.Holds s) : law.Holds (dropJobs id s) :=
  forEach_holds hs fun _ _ ht => modSeg_holds (holds_update ht rfl)

theorem settleOne_holds {id : Nat} {s : State} (hs : law.Holds s) : law.Holds (settleOne id s) := by
  unfold settleOne
  dsimp only
  split
  · exact modCmd_holds hs fun _ e => e
  · split
    · exact finishCmd_holds (modCmd_holds hs fun _ e => e)
    · exact holds_ite (finishCmd_holds (modCmd_holds hs fun _ e => e)) (endWrite_holds (modCmd_holds hs fun _ e => e))
    · exact endWrite_holds (modCmd_holds hs fun _ e => e)
    · exact endWrite_holds (modCmd_holds hs fun _ e => e)
    · exact endWrite_holds (modCmd_holds hs fun _ e => e)
    · exact cutWrite_holds (modCmd_holds hs fun _ e => e)
    · exact finishCmd_holds (dropJobs_holds (modCmd_holds hs fun _ e => e))
    · exact finishCmd_holds (modCmd_holds hs fun _ e => e)
    · exact finishCmd_holds (holds_update (modCmd_holds hs fun _ e => e) rfl)
    · exact finishCmd_holds (holds_update (modCmd_holds hs fun _ e => e) rfl)
    · exact finishCmd_holds (modQp_holds (modCmd_holds hs fun _ e => e))
    · exact finishCmd_holds (holds_update (modCmd_holds hs fun _ e => e) rfl)
    · exact modCmd_holds hs fun _ e => e
    · exact modCmd_holds hs fun _ e => e
    · exact modCmd_holds hs fun _ e => e

theorem settleQueues_holds {p : Qp → Bool} {s : State} (hs : law.Holds s) : law.Holds (settleQueues p s) :=
  forEach_holds (holds_update (pinQps_holds hs) rfl) fun _ _ ht => settleOne_holds ht

end Sys2Proof.Machine
end

section
/-! SUPPORT. The laws through the DRAM, the queue pairs, the admin commands and the blocks of data. -/

namespace Sys2Proof.Machine

variable {law : Law}

/-! ### Machine/Drc.lean -/

theorem modQueue_holds {k : Nat} {f : DramQ → DramQ} {s : State} (hs : law.Holds s) : law.Holds (modQueue k f s) :=
  hs.of_tables { hs.same with queues := tabWf_tabMod _ _ _ }

theorem precharge_holds {k b : Nat} {s : State} (hs : law.Holds s) : law.Holds (precharge k b s) := by
  unfold precharge
  dsimp only
  split
  · exact holds_ite (emit_holds (holds_update (modQueue_holds hs) rfl)) (modQueue_holds hs)
  · exact modQueue_holds hs

theorem prechargeAll_holds {c : Nat} {p : Nat → Bool} {s : State} (hs : law.Holds s) : law.Holds (prechargeAll c p s) :=
  forEach_holds hs fun _ _ ht => forEach_holds ht fun _ _ hu => precharge_holds hu

theorem drawDrfm_holds {c : Nat} {s : State} (hs : law.Holds s) : law.Holds (drawDrfm c s).2 := by
  unfold drawDrfm
  dsimp only
  split
  · exact holds_update hs rfl
  · exact hs.of_tables { hs.same with draws := tabWf_tabPut _ _ _ }

theorem activate_holds {k b r : Nat} {s : State} (hs : law.Holds s) : law.Holds (activate k b r s) :=
  modQueue_holds (drawDrfm_holds (precharge_holds hs))

theorem correctLine_holds {k line : Nat} {s : State} (hs : law.Holds s) : law.Holds (correctLine k line s) :=
  holds_ite (raise_holds (holds_update (onlyIf_holds (holds_update hs rfl) fun _ ht => emit_holds ht) rfl))
    (holds_update (onlyIf_holds (holds_update hs rfl) fun _ ht => emit_holds ht) rfl)

theorem countUe_holds {s : State} (hs : law.Holds s) : law.Holds (countUe s) := holds_update hs rfl

theorem loseCommand_holds {id : Nat} {s : State} (hs : law.Holds s) : law.Holds (loseCommand id s) := by
  unfold loseCommand
  split
  · exact hs
  · refine holds_ite ?_ (finishCmd_holds hs)
    split
    · exact cutWrite_holds (modCmd_holds hs fun _ e => e)
    · exact hs
    · exact endWrite_holds hs

theorem loseBlock_holds {id b : Nat} {s : State} (hs : law.Holds s) : law.Holds (loseBlock id b s) := by
  unfold loseBlock
  split
  · exact hs
  · next c hc =>
    have hid : (lostBlocks [b] c).id = id := (lostBlocks_id ..).trans (cmdOf_id hc)
    exact holds_ite hs (tickLong_holds (deliver_holds (modCmd_holds hs fun _ _ => hid)))

theorem dataLost_holds {r : DramReq} {s : State} (hs : law.Holds s) : law.Holds (dataLost r s) := by
  unfold dataLost
  dsimp only
  split
  · split
    · exact holds_ite (loseBlock_holds (raise_holds hs)) (loseCommand_holds (raise_holds hs))
    · exact raise_holds hs
  · exact loseCommand_holds (raise_holds hs)
  · exact raise_holds hs

theorem stagedLost_holds {r : DramReq} {n : Nat} {s : State} (hs : law.Holds s) : law.Holds (stagedLost r n s) := by
  unfold stagedLost
  split
  · exact hs
  · exact holds_ite (onlyIf_holds hs fun _ ht => emit_holds ht)
      (dataLost_holds (modEntry_holds (onlyIf_holds hs fun _ ht => emit_holds ht)))

theorem copyLost_holds {r : DramReq} {k : Nat × Nat × Word16} {s : State} (hs : law.Holds s) :
    law.Holds (copyLost r k s) :=
  dataLost_holds (holds_update hs rfl)

theorem deliverLine_holds {k : Nat} {r : DramReq} {s : State} (hs : law.Holds s) : law.Holds (deliverLine k r s) := by
  unfold deliverLine
  refine holds_ite ?_ (emit_holds (onlyIf_holds hs fun _ ht => correctLine_holds ht))
  dsimp only
  split
  · exact stagedLost_holds (emit_holds (countUe_holds hs))
  · split
    · exact copyLost_holds (emit_holds (countUe_holds hs))
    · exact holds_ite (emit_holds (countUe_holds hs)) (dataLost_holds (emit_holds (countUe_holds hs)))

theorem storeLine_holds {r : DramReq} {s : State} (hs : law.Holds s) : law.Holds (storeLine r s) :=
  emit_holds (hs.of_tables { hs.same with dram := wf_cellsWrite _ _ _ })

theorem issueOne_holds {k : Nat} {r : DramReq} {s : State} (hs : law.Holds s) : law.Holds (issueOne k r s) :=
  holds_ite (storeLine_holds (modQueue_holds (holds_ite hs (activate_holds hs))))
    (deliverLine_holds (modQueue_holds (holds_ite hs (activate_holds hs))))

theorem serveQueue_holds {k low n : Nat} {s : State} (hs : law.Holds s) : law.Holds (serveQueue k low n s) := by
  induction n generalizing s with
  | zero => exact hs
  | succ n ih =>
    unfold serveQueue
    dsimp only
    split
    · exact modQueue_holds hs
    · exact ih (issueOne_holds (modQueue_holds hs))

theorem issueOwed_holds {c : Nat} {s : State} (hs : law.Holds s) : law.Holds (issueOwed c s) := by
  refine forEach_holds hs fun i t ht => holds_ite (forEach_holds (prechargeAll_holds ?_) fun _ _ hu => emit_holds hu) ht
  exact ht.of_tables { ht.same with owed := tabWf_tabPut _ _ _ }

theorem requestEffect_holds {r : DramReq} {s : State} (hs : law.Holds s) : law.Holds (requestEffect r s) :=
  holds_ite hs (serveQueue_holds (onlyIf_holds (modQueue_holds (issueOwed_holds hs)) fun _ ht => holds_update ht rfl))

theorem refreshEffect_holds {c r : Nat} {readsWaiting : Bool} {s : State} (hs : law.Holds s) :
    law.Holds (refreshEffect c r readsWaiting s) := by
  have owed_holds : ∀ n, law.Holds { s with drc := { s.drc with owed := tabPut 0 (4 * c + r) n s.drc.owed } } :=
    fun n =>
    hs.of_tables { hs.same with owed := tabWf_tabPut _ _ _ }
  exact holds_ite hs (holds_ite (owed_holds _) (forEach_holds (prechargeAll_holds (owed_holds _)) fun _ _ ht =>
    emit_holds ht))

theorem changeBand_holds {c k : Nat} {s : State} (hs : law.Holds s) : law.Holds (changeBand c k s) := by
  unfold changeBand
  extract_lets _ t
  have ht : law.Holds t := hs.of_tables { hs.same with bands := tabWf_tabPut _ _ _ }
  exact holds_ite hs (holds_ite ht (emit_holds (prechargeAll_holds ht)))

theorem noteHot_holds {c : Nat} {t : Int} {s : State} (hs : law.Holds s) : law.Holds (noteHot c t s) :=
  holds_ite (holds_ite hs (raise_holds (holds_update hs rfl))) (holds_update hs rfl)

theorem channelReading_holds {c : Nat} {t : Option Int} {s : State} (hs : law.Holds s) :
    law.Holds (channelReading c t s) := by
  unfold channelReading
  split
  · refine changeBand_holds (noteHot_holds (hs.of_tables ?_))
    exact { hs.same with temps := tabWf_tabPut _ _ _, missed := tabWf_tabPut _ _ _ }
  · extract_lets m _ u
    have hu : law.Holds u := hs.of_tables { hs.same with missed := tabWf_tabPut _ _ _ }
    exact holds_ite (raise_holds (changeBand_holds hu)) hu

theorem tempEffect_holds {l : List (Option Int)} {s : State} (hs : law.Holds s) : law.Holds (tempEffect l s) :=
  holds_ite hs (forEach_holds hs fun _ _ ht => channelReading_holds ht)

theorem scrubLine_holds {n : Nat} {s : State} (hs : law.Holds s) :
    law.Holds { s with drc := { s.drc with scrubLine := n } } := holds_update hs rfl

/-- What a scrub reads: an uncorrectable line is poisoned, a correctable one is corrected. -/
theorem scrubRead_holds {o : Output} {k line : Nat} {ecc : Fin 3} {c : Prop} [Decidable c] {s : State}
    (hs : law.Holds s) :
    law.Holds (if c then emit o (countUe { s with drc := { s.drc with poisoned := insertNat line s.drc.poisoned } })
      else onlyIf (ecc == 1) (correctLine k line) s) :=
  holds_ite (emit_holds (countUe_holds (holds_update hs rfl))) (onlyIf_holds hs fun _ ht => correctLine_holds ht)

theorem scrubEffect_holds {line : Nat} {ecc : Fin 3} {s : State} (hs : law.Holds s) :
    law.Holds (scrubEffect line ecc s) :=
  holds_ite hs (scrubRead_holds (scrubLine_holds hs))

theorem enterSelfRefresh_holds {s : State} (hs : law.Holds s) : law.Holds (enterSelfRefresh s) := by
  unfold enterSelfRefresh
  extract_lets t u
  have ht : law.Holds t := forEach_holds hs fun _ _ hv => serveQueue_holds (modQueue_holds hv)
  clear_value t
  have hu : law.Holds u := forEach_holds ht fun _ _ hv => prechargeAll_holds hv
  clear_value u
  exact holds_update hu rfl

theorem leaveSelfRefresh_holds {s : State} (hs : law.Holds s) : law.Holds (leaveSelfRefresh s) :=
  holds_ite (forEach_holds (holds_update hs rfl) fun _ _ ht => emit_holds ht) hs

/-! ### Machine/HqeQueues.lean -/

theorem noteClk_holds {before s : State} (hs : law.Holds s) : law.Holds (noteClk before s) := raiseIf_holds hs

theorem wake_holds {s : State} (hs : law.Holds s) : law.Holds (wake s) :=
  holds_ite (noteClk_holds (leaveSelfRefresh_holds (holds_update hs rfl))) (holds_ite (holds_update hs rfl) hs)

theorem doorbellWake_holds {s : State} (hs : law.Holds s) : law.Holds (doorbellWake s) := holds_ite (wake_holds hs) hs

theorem dropDoorbell_holds {p : Fin 2} {s : State} (hs : law.Holds s) : law.Holds (dropDoorbell p s) := modPort_holds hs

theorem bar2Write_holds {f : FnId} {act : State → State} {s : State} (hs : law.Holds s)
    (hact : ∀ t, law.Holds t → law.Holds (act t)) :
    law.Holds (bar2Write f act s) :=
  holds_ite hs (holds_ite (hact _ hs) (dropDoorbell_holds hs))

theorem putAdmin_holds {a : AdminRegs} {s : State} (hs : law.Holds s) : law.Holds (putAdmin a s) := holds_update hs rfl

theorem adminEnable_holds {f : FnId} {cfg : Word32} {s : State} (hs : law.Holds s) :
    law.Holds (adminEnable f cfg s) := by
  unfold adminEnable
  refine holds_ite (putAdmin_holds hs) (holds_ite (putAdmin_holds hs) ?_)
  split
  · exact putAdmin_holds hs
  · exact holds_update (tick_holds (putAdmin_holds hs)) rfl

theorem dropQps_holds {p : Qp → Bool} {s : State} (hs : law.Holds s) : law.Holds (dropQps p s) := holds_update hs rfl

theorem adminDisable_holds {f : FnId} {cfg : Word32} {s : State} (hs : law.Holds s) :
    law.Holds (adminDisable f cfg s) := by
  unfold adminDisable
  extract_lets k _ t l
  have ht : law.Holds t := putAdmin_holds hs
  have hl : law.Holds { t with hqe := { t.hqe with cmds := l } } := by
    refine ht.of_tables { ht.same with fresh := fun hc c hm => ?_ }
    obtain ⟨d, hd, rfl⟩ := List.mem_map.1 hm
    have := hc d hd
    split <;> exact this
  exact dropQps_holds (hl.congr rfl)

theorem flushEntries_holds {k : QKey} {n : Nat} {b : Bytes} {s : State} (hs : law.Holds s) :
    law.Holds (flushEntries k n b s) := by
  induction n generalizing b s with
  | zero => exact hs
  | succ n ih =>
    unfold flushEntries
    split
    · exact hs
    · exact holds_ite hs (ih (postCqe_holds (modQp_holds hs)))

theorem restartQueue_holds {k : QKey} {flush : Bool} {entries : Bytes} {s : State} (hs : law.Holds s) :
    law.Holds (restartQueue k flush entries s) :=
  holds_ite (flushEntries_holds (modQp_holds hs)) (modQp_holds hs)

theorem adminRestart_holds {f : FnId} {cfg : Word32} {entries : Bytes} {s : State} (hs : law.Holds s) :
    law.Holds (adminRestart f cfg entries s) := by
  unfold adminRestart
  dsimp only
  split
  · exact hs
  · exact holds_ite (restartQueue_holds (putAdmin_holds hs)) hs

theorem sqTail_holds {k : QKey} {value : Word32} {s : State} (hs : law.Holds s) : law.Holds (sqTail k value s) := by
  unfold sqTail
  split
  · exact hs
  · exact holds_ite (freezeQueue_holds (doorbellWake_holds hs)) (modQp_holds (doorbellWake_holds hs))

theorem cqHead_holds {k : QKey} {value : Word32} {s : State} (hs : law.Holds s) : law.Holds (cqHead k value s) := by
  unfold cqHead
  split
  · exact hs
  · exact holds_ite (postWaiting_holds (modQp_holds (doorbellWake_holds hs)))
      (freezeQueue_holds (doorbellWake_holds hs))

theorem cqTimer_holds {k : QKey} {s : State} (hs : law.Holds s) : law.Holds (cqTimer k s) := by
  unfold cqTimer
  split
  · exact hs
  · exact holds_ite hs (signal_holds (modQp_holds hs))

theorem freezeAtFetch_holds {k : QKey} {cause : Nat} {head : Bytes} {s : State} (hs : law.Holds s) :
    law.Holds (freezeAtFetch k cause head s) := by
  unfold freezeAtFetch
  split
  · exact hs
  · exact holds_ite (freezeQueue_holds (modQp_holds hs)) hs

theorem deleteQpSettledEffect_holds {k : QKey} {s : State} (hs : law.Holds s) :
    law.Holds (deleteQpSettledEffect k s) := by
  unfold deleteQpSettledEffect
  split
  · exact hs
  · split
    · exact holds_ite (finishCmd_holds (dropQps_holds hs)) hs
    · exact hs

/-! ### Machine/Keys.lean -/

theorem persistSlot_holds {n : Nat} {s : State} (hs : law.Holds s) : law.Holds (persistSlot n s) := by
  unfold persistSlot
  refine holds_ite hs ?_
  split
  · exact holds_update hs rfl
  · exact holds_update hs rfl
  · exact hs

theorem setSlot_holds {n : Nat} {k : Slot} {s : State} (hs : law.Holds s) : law.Holds (setSlot n k s) :=
  hs.of_tables { hs.same with slots := tabWf_tabPut _ _ _ }

theorem syncSlot_holds {n : Nat} {s : State} (hs : law.Holds s) : law.Holds (syncSlot n s) :=
  holds_ite (toPeer_holds hs) hs

theorem writeSlot_holds {n : Nat} {k : Slot} {s : State} (hs : law.Holds s) : law.Holds (writeSlot n k s) :=
  syncSlot_holds (persistSlot_holds (setSlot_holds hs))

theorem eraseSlot_holds {n : Nat} {s : State} (hs : law.Holds s) : law.Holds (eraseSlot n s) := writeSlot_holds hs

theorem refuse_holds {detail : Nat} {s : State} (hs : law.Holds s) : law.Holds (refuse detail s).2.2 := hs

theorem keyImportCmd_holds {c : HostCmd} {s : State} (hs : law.Holds s) : law.Holds (keyImportCmd c s).2.2 := by
  unfold keyImportCmd
  extract_lets n t owner cur blob wk
  refine done_ite_holds (refuse_holds hs) (done_ite_holds (refuse_holds hs) (done_ite_holds (refuse_holds hs)
    (done_ite_holds hs (done_ite_holds (refuse_holds hs) ?_))))
  split
  · exact refuse_holds hs
  · next m _ =>
    refine done_ite_holds (refuse_holds hs) (done_ite_holds (refuse_holds hs) ?_)
    extract_lets hasData k
    refine done_ite_holds (refuse_holds hs) (done_ite_holds (done_ite_holds (refuse_holds hs) ?_)
      (done_ite_holds hs ?_))
    · exact writeSlot_holds hs
    · exact writeSlot_holds hs

theorem drbgUse_holds {n : Nat} {s : State} (hs : law.Holds s) : law.Holds (drbgUse n s) := holds_update hs rfl

theorem drawKey_holds {n : Nat} {s : State} (hs : law.Holds s) : law.Holds (drawKey n s) := by
  induction n generalizing s with
  | zero => exact hs
  | succ n ih =>
    unfold drawKey
    exact holds_ite (ih (drbgUse_holds (tick_holds hs))) hs

theorem keyGenerateCmd_holds {c : HostCmd} {s : State} (hs : law.Holds s) : law.Holds (keyGenerateCmd c s).2.2 :=
  done_ite_holds (refuse_holds hs) (done_ite_holds (refuse_holds hs) (done_ite_holds (refuse_holds hs)
    (done_ite_holds (refuse_holds hs)
    (done_ite_holds hs (writeSlot_holds (drbgUse_holds (tick_holds (tick_holds (drawKey_holds hs)))))))))

theorem keyExportCmd_holds {c : HostCmd} {s : State} (hs : law.Holds s) : law.Holds (keyExportCmd c s).2.2 :=
  done_ite_holds (refuse_holds hs) (done_ite_holds hs (done_ite_holds (refuse_holds hs)
    (done_ite_holds (refuse_holds hs) (done_ite_holds hs (done_ite_holds (refuse_holds hs) (toHost_holds hs))))))

theorem keyEraseCmd_holds {c : HostCmd} {s : State} (hs : law.Holds s) : law.Holds (keyEraseCmd c s).2.2 :=
  done_ite_holds (refuse_holds hs) (done_ite_holds hs (eraseSlot_holds hs))

theorem keyInfoCmd_holds {c : HostCmd} {s : State} (hs : law.Holds s) : law.Holds (keyInfoCmd c s).2.2 :=
  toHost_holds hs

theorem keyAttachCmd_holds {c : HostCmd} {s : State} (hs : law.Holds s) : law.Holds (keyAttachCmd c s).2.2 := by
  unfold keyAttachCmd
  dsimp only
  split
  · exact refuse_holds hs
  · exact done_ite_holds (refuse_holds hs) (done_ite_holds hs (done_ite_holds (refuse_holds hs)
      (done_ite_holds hs (holds_update hs rfl))))

theorem keyCmacCmd_holds {c : HostCmd} {s : State} (hs : law.Holds s) : law.Holds (keyCmacCmd c s).2.2 :=
  done_ite_holds (refuse_holds hs) (done_ite_holds hs (done_ite_holds hs (toHost_holds hs)))

theorem adminNow_holds {f : HostCmd → State → AdminDone} {c : HostCmd} {q : Qp} {s : State} (hs : law.Holds s)
    (hf : ∀ y1 t, law.Holds t → law.Holds (f y1 t).2.2) :
    law.Holds (adminNow f c q s) :=
  answerCmd_holds (hf _ _ hs)

/-! ### Machine/HqeAdmin.lean -/

theorem createQpCmd_holds {c : HostCmd} {s : State} (hs : law.Holds s) : law.Holds (createQpCmd c s).2.2 := by
  unfold createQpCmd
  refine done_ite_holds hs (done_ite_holds hs ?_)
  split
  · exact hs
  · exact holds_update (tick_holds hs) rfl

theorem deleteQpStart_holds {c : HostCmd} {q : Qp} {s : State} (hs : law.Holds s) :
    law.Holds (deleteQpStart c q s) := by
  unfold deleteQpStart
  dsimp only
  split
  · exact answerCmd_holds hs
  · exact holds_ite (answerCmd_holds hs) (modQp_holds (addCmd_holds hs le_rfl))

theorem restartQpCmd_holds {c : HostCmd} {s : State} (hs : law.Holds s) : law.Holds (restartQpCmd c s).2.2 := by
  unfold restartQpCmd
  dsimp only
  split
  · exact hs
  · exact done_ite_holds hs (holds_ite (restartQueue_holds hs) hs)

theorem identifyCmd_holds {c : HostCmd} {q : Qp} {s : State} (hs : law.Holds s) : law.Holds (identifyCmd c q s).2.2 :=
  toHost_holds hs

theorem getLogCmd_holds {c : HostCmd} {q : Qp} {s : State} (hs : law.Holds s) : law.Holds (getLogCmd c q s).2.2 := by
  unfold getLogCmd
  refine done_ite_holds (toHost_holds hs) ?_
  dsimp only
  split
  · exact done_ite_holds hs (toHost_holds hs)
  · exact toHost_holds hs

theorem setPowerStart_holds {c : HostCmd} {q : Qp} {s : State} (hs : law.Holds s) : law.Holds (setPowerStart c q s) :=
  holds_ite (answerCmd_holds (wake_holds hs)) (holds_ite (answerCmd_holds hs)
    (addCmd_holds (holds_update hs rfl) le_rfl))

theorem powerReached_holds {s : State} (hs : law.Holds s) : law.Holds (powerReached s) := by
  unfold powerReached
  split
  · exact hs
  · exact holds_ite (holds_ite
      (wake_holds (finishCmd_holds (noteClk_holds (onlyIf_holds (holds_update hs rfl) fun _ ht =>
      enterSelfRefresh_holds ht)))) (finishCmd_holds (noteClk_holds (onlyIf_holds (holds_update hs rfl) fun _ ht =>
      enterSelfRefresh_holds ht)))) hs

theorem setPaceStart_holds {c : HostCmd} {q : Qp} {s : State} (hs : law.Holds s) : law.Holds (setPaceStart c q s) :=
  addCmd_holds (holds_update hs rfl) le_rfl

theorem applyPace_holds {p : Pace} {s : State} (hs : law.Holds s) : law.Holds (applyPace p s) :=
  noteClk_holds (noteOccupancy_holds (holds_update hs rfl))

theorem paceInForceEffect_holds {s : State} (hs : law.Holds s) : law.Holds (paceInForceEffect s) := by
  unfold paceInForceEffect
  split
  · exact hs
  · exact forEach_holds (applyPace_holds hs) fun _ _ ht => finishCmd_holds ht

theorem selectOverride_holds {sel : Nat} {clear : Bool} {s : State} (hs : law.Holds s) :
    law.Holds (selectOverride sel clear s) :=
  holds_update hs rfl

theorem selectProfileCmd_holds {c : HostCmd} {s : State} (hs : law.Holds s) : law.Holds (selectProfileCmd c s).2.2 :=
  selectOverride_holds hs

theorem chipResetCmd_holds {c : HostCmd} {s : State} (hs : law.Holds s) : law.Holds (chipResetCmd c s).2.2 :=
  holds_update hs rfl

theorem sendTenant_holds {args : List Nat} {s : State} (hs : law.Holds s) : law.Holds (sendTenant args s) :=
  forEach_holds hs fun _ _ ht => emit_holds ht

theorem syncTenant_holds {x : Tenant} {delete : Bool} {s : State} (hs : law.Holds s) :
    law.Holds (syncTenant x delete s) :=
  holds_ite (toPeer_holds hs) hs

theorem addTenant_holds {x : Tenant} {newDomain : Bool} {s : State} (hs : law.Holds s) :
    law.Holds (addTenant x newDomain s) :=
  holds_ite (writeSlot_holds (drbgUse_holds (tick_holds (tick_holds (holds_update (holds_update hs rfl) rfl)))))
    (holds_update hs rfl)

theorem createTenantCmd_holds {c : HostCmd} {s : State} (hs : law.Holds s) : law.Holds (createTenantCmd c s).2.2 := by
  unfold createTenantCmd
  refine done_ite_holds hs
    (done_ite_holds hs (done_ite_holds hs (done_ite_holds hs (done_ite_holds (tick_holds hs)
    (done_ite_holds (tick_holds hs) (done_ite_holds hs ?_))))))
  split
  · exact hs
  · exact syncTenant_holds (holds_ite (sendTenant_holds (addTenant_holds (tick_holds hs)))
      (addTenant_holds (tick_holds hs)))

theorem removeTenant_holds {x : Tenant} {s : State} (hs : law.Holds s) : law.Holds (removeTenant x s) :=
  holds_ite (holds_update hs rfl) (eraseSlot_holds (holds_update (holds_update hs rfl) rfl))

theorem deleteTenantCmd_holds {c : HostCmd} {s : State} (hs : law.Holds s) : law.Holds (deleteTenantCmd c s).2.2 := by
  unfold deleteTenantCmd
  split
  · exact hs
  · exact done_ite_holds hs (done_ite_holds (tick_holds hs)
      (syncTenant_holds (holds_ite (sendTenant_holds (removeTenant_holds (holds_ite (tick_holds hs) hs)))
      (removeTenant_holds (holds_ite (tick_holds hs) hs)))))

theorem assignFunctionCmd_holds {c : HostCmd} {s : State} (hs : law.Holds s) : law.Holds (assignFunctionCmd c s).2.2 :=
  done_ite_holds hs (done_ite_holds hs (holds_update hs rfl))

theorem drawDataKey_holds {d : Nat} {s : State} (hs : law.Holds s) : law.Holds (drawDataKey d s) :=
  writeSlot_holds (drbgUse_holds (tick_holds (tick_holds hs)))

theorem createNamespaceCmd_holds {c : HostCmd} {s : State} (hs : law.Holds s) :
    law.Holds (createNamespaceCmd c s).2.2 := by
  unfold createNamespaceCmd
  dsimp only
  split
  · exact hs
  · refine done_ite_holds hs (done_ite_holds hs (done_ite_holds hs ?_))
    split
    · exact hs
    · exact holds_update (holds_ite (drawDataKey_holds (tick_holds hs)) (tick_holds hs)) rfl

theorem dropRef_holds {no : Nat} {s : State} (hs : law.Holds s) : law.Holds (dropRef no s) :=
  holds_ite hs (holds_ite (toPeer_holds hs) (dirtyChunk_holds (holds_update hs rfl)))

theorem dropEntries_holds {l : List MapEntry} {s : State} (hs : law.Holds s) : law.Holds (dropEntries l s) :=
  forEach_holds hs fun _ _ ht => dropRef_holds (dropRef_holds ht)

theorem dropMaps_holds {n : Nat} {s : State} (hs : law.Holds s) : law.Holds (dropMaps n s) :=
  holds_update (dropEntries_holds hs) rfl

theorem discardStaging_holds {n : Nat} {s : State} (hs : law.Holds s) : law.Holds (discardStaging n s) :=
  holds_update (holds_ite (holds_update (forEach_holds hs fun _ _ ht => releaseEntry_holds ht) rfl)
    (forEach_holds hs fun _ _ ht => releaseEntry_holds ht)) rfl

theorem nsDiscard_holds {n id : Nat} {s : State} (hs : law.Holds s) : law.Holds (nsDiscard n id s) :=
  holds_ite hs (discardStaging_holds hs)

theorem endWaiting_holds {n : Nat} {s : State} (hs : law.Holds s) : law.Holds (endWaiting n s) :=
  forEach_holds (forEach_holds (holds_update hs rfl) fun _ _ ht => answerCmd_holds ht) fun _ _ ht => holds_ite
    (finishCmd_holds ht) (endWrite_holds ht)

theorem startSnapDelete_holds {n q : Nat} {s : State} (hs : law.Holds s) : law.Holds (startSnapDelete n q s) :=
  holds_update hs rfl

theorem deleteNamespaceStart_holds {c : HostCmd} {q : Qp} {s : State} (hs : law.Holds s) :
    law.Holds (deleteNamespaceStart c q s) := by
  unfold deleteNamespaceStart
  dsimp only
  split
  · exact answerCmd_holds hs
  · exact holds_ite (answerCmd_holds hs)
      (nsDiscard_holds (forEach_holds (holds_update (addCmd_holds (endWaiting_holds hs) le_rfl) rfl) fun _ _ ht =>
      startSnapDelete_holds ht))

/-- A number taken from every group, and the groups that are left without one, leaves a canonical table. -/
theorem tabWf_unlisted {n : Nat} {t : Tab (List Nat)} (h : tabWf [] t = true) :
    tabWf [] ((t.map fun g => (g.1, g.2.filter (· != n))).filter fun g => !g.2.isEmpty) = true := by
  rw [← tabWf_map_filter [] [] (fun l : List Nat => l.filter (· != n)) h]
  congr 2
  funext g
  cases hg : g.2 <;> simp

theorem deleteNamespaceDoneEffect_holds {n : Nat} {s : State} (hs : law.Holds s) :
    law.Holds (deleteNamespaceDoneEffect n s) := by
  unfold deleteNamespaceDoneEffect
  split
  · exact hs
  · next x _ =>
    split
    · exact hs
    · next id _ =>
      have ht : law.Holds (nsDiscard n id s) := nsDiscard_holds hs
      have hu : law.Holds (if x.exposed.isSome then nsDiscard n id s else dropMaps n (nsDiscard n id s)) :=
        holds_ite ht (dropMaps_holds ht)
      exact holds_ite ht (finishCmd_holds (hu.of_tables { hu.same with groups := tabWf_unlisted }))

theorem adminRow_holds {f : HostCmd → State → AdminDone} {c : HostCmd} {s : State} (hs : law.Holds s)
    (hf : ∀ y1 t, law.Holds t → law.Holds (f y1 t).2.2) :
    law.Holds (adminRow f c s) :=
  fetchRow_holds hs fun _ _ ht => holds_ite (holds_update ht rfl) (adminNow_holds ht hf)

theorem wakeDrbg_holds {s : State} (hs : law.Holds s) : law.Holds (wakeDrbg s) := by
  refine forEach_holds (holds_update hs rfl) fun w t ht => ?_
  dsimp only
  split
  · exact answerCmd_holds (createTenantCmd_holds ht)
  · split
    · exact answerCmd_holds (createNamespaceCmd_holds ht)
    · exact answerCmd_holds (keyGenerateCmd_holds ht)

/-! ### Machine/Ingest.lean -/

theorem dropStaleMirror_holds {s : State} (hs : law.Holds s) : law.Holds (dropStaleMirror s) :=
  holds_ite (holds_update hs rfl) hs

theorem startRun_holds {r : List StEntry} {s : State} (hs : law.Holds s) : law.Holds (startRun r s) := by
  unfold startRun
  split
  · exact hs
  · exact takeId_holds (holds_update hs rfl)

theorem startMirrorRun_holds {l : List MirEntry} {s : State} (hs : law.Holds s) : law.Holds (startMirrorRun l s) := by
  unfold startMirrorRun
  split
  · exact hs
  · exact takeId_holds (holds_update hs rfl)

theorem flushRunChosenEffect_holds {s : State} (hs : law.Holds s) : law.Holds (flushRunChosenEffect s) :=
  holds_ite hs (holds_ite (startMirrorRun_holds (dropStaleMirror_holds hs)) (forSome_holds (dropStaleMirror_holds hs)
    fun _ _ ht => startRun_holds ht))

theorem markIdle_holds {nsid lba : Nat} {s : State} (hs : law.Holds s) : law.Holds (markIdle nsid lba s) :=
  holds_update hs rfl

theorem markAged_holds {nsid lba : Nat} {s : State} (hs : law.Holds s) : law.Holds (markAged nsid lba s) :=
  holds_update hs rfl

theorem modRun_holds {id : Nat} {f : Run → Run} {s : State} (hs : law.Holds s) : law.Holds (modRun id f s) :=
  holds_update hs rfl

theorem modChunk_holds {id : Nat} {f : Chunk → Chunk} {s : State} (hs : law.Holds s) : law.Holds (modChunk id f s) :=
  holds_update hs rfl

theorem joinWindow_holds {nsid : Nat} {s : State} (hs : law.Holds s) : law.Holds (joinWindow nsid s).2 := by
  unfold joinWindow
  split
  · exact holds_update hs rfl
  · exact takeId_holds (holds_update hs rfl)

theorem startDueTest_holds {k : EngClass} {n : Nat} {s : State} (hs : law.Holds s) : law.Holds (startDueTest k n s) :=
  holds_ite hs (holds_update hs rfl)

theorem freeRunChunker_holds {id : Nat} {s : State} (hs : law.Holds s) : law.Holds (freeRunChunker id s) := by
  unfold freeRunChunker
  split
  · exact holds_ite (forSome_holds (modRun_holds hs) fun _ _ ht => startDueTest_holds ht) hs
  · exact hs

theorem chunkCutEffect_holds {id : Nat} {s : State} (hs : law.Holds s) : law.Holds (chunkCutEffect id s) := by
  unfold chunkCutEffect
  split
  · exact hs
  · exact holds_ite hs (holds_update (freeRunChunker_holds (modRun_holds (takeId_holds (joinWindow_holds hs)))) rfl)

theorem modEnt_holds {no : Nat} {f : ChunkEnt → ChunkEnt} {s : State} (hs : law.Holds s) : law.Holds (modEnt no f s) :=
  holds_ite (dirtyChunk_holds (holds_update hs rfl)) hs

theorem raiseRef_holds {no k : Nat} {s : State} (hs : law.Holds s) : law.Holds (raiseRef no k s) :=
  holds_ite (toPeer_holds hs) (modEnt_holds hs)

theorem dropRefs_holds {no k : Nat} {s : State} (hs : law.Holds s) : law.Holds (dropRefs no k s) := by
  induction k generalizing s with
  | zero => exact hs
  | succ k ih =>
    unfold dropRefs
    exact ih (dropRef_holds hs)

theorem modContainer_holds {no : Nat} {f : Container → Container} {s : State} (hs : law.Holds s) :
    law.Holds (modContainer no f s) :=
  holds_update hs rfl

theorem touchContainer_holds {no : Nat} {s : State} (hs : law.Holds s) : law.Holds (touchContainer no s) :=
  modContainer_holds (holds_update hs rfl)

theorem evict_holds {no : Nat} {s : State} (hs : law.Holds s) : law.Holds (evict no s) := modContainer_holds hs

theorem cacheRoom_holds {d : Nat} {force : Bool} {s t : State} (hs : law.Holds s)
    (h : cacheRoom d force s = some t) : law.Holds t := by
  unfold cacheRoom at h
  split at h
  · cases h; exact hs
  · split at h
    · cases h; exact evict_holds hs
    · split at h
      · split at h
        · cases h; exact evict_holds hs
        · cases h; exact hs
      · cases h

theorem openContainer_holds {nsid : Nat} {s : State} (hs : law.Holds s) : law.Holds (openContainer nsid s).2 := by
  unfold openContainer
  split
  · exact hs
  · cases hr : cacheRoom (nsDomain s nsid) true s with
    | none => exact holds_update hs rfl
    | some t => exact holds_update (cacheRoom_holds hs hr) rfl

theorem replaceHook_holds {h : Hook} {s : State} (hs : law.Holds s) : law.Holds (replaceHook h s) :=
  holds_ite (raise_holds (holds_update (holds_update hs rfl) rfl)) (holds_update hs rfl)

theorem insertHook_holds {fp : Bytes} {d container : Nat} {s : State} (hs : law.Holds s) :
    law.Holds (insertHook fp d container s) :=
  holds_ite (holds_update hs rfl) (replaceHook_holds hs)

theorem closeContainer_holds {no : Nat} {s : State} (hs : law.Holds s) : law.Holds (closeContainer no s) :=
  modContainer_holds hs

theorem appendEntry_holds {c : Chunk} {no : Nat} {s : State} (hs : law.Holds s) : law.Holds (appendEntry c no s) := by
  unfold appendEntry
  extract_lets p e t u
  have ht : law.Holds t := modContainer_holds (openContainer_holds hs)
  have hu : law.Holds u := holds_ite (insertHook_holds ht) ht
  exact holds_ite (closeContainer_holds hu) hu

theorem containerIdle_holds {nsid : Nat} {s : State} (hs : law.Holds s) : law.Holds (containerIdle nsid s) :=
  forEach_holds hs fun _ _ ht => closeContainer_holds ht

theorem resolveUnique_holds {id : Nat} {s : State} (hs : law.Holds s) : law.Holds (resolveUnique id s) := by
  unfold resolveUnique
  split
  · exact hs
  · exact holds_ite (modChunk_holds (dirtyChunk_holds (holds_update hs rfl)))
      (appendEntry_holds (modChunk_holds (dirtyChunk_holds (holds_update hs rfl))))

theorem countMatch_holds {c : Chunk} {s : State} (hs : law.Holds s) : law.Holds (countMatch c s) :=
  holds_ite (holds_update hs rfl) (holds_update hs rfl)

theorem startCompare_holds {chunk no : Nat} {s : State} (hs : law.Holds s) : law.Holds (startCompare chunk no s) := by
  unfold startCompare
  dsimp only
  split
  · exact holds_update hs rfl
  · exact hs

theorem resolveMatch_holds {c : Chunk} {k no : Nat} {s : State} (hs : law.Holds s) :
    law.Holds (resolveMatch c k no s) :=
  holds_ite (startCompare_holds (modChunk_holds (touchContainer_holds (raiseRef_holds hs))))
    (countMatch_holds (modChunk_holds (touchContainer_holds (raiseRef_holds hs))))

theorem windowCheck_holds {s : State} (hs : law.Holds s) : law.Holds (windowCheck s) :=
  holds_update (holds_update hs rfl) rfl

theorem fingerprintDoneEffect_holds {id : Nat} {s : State} (hs : law.Holds s) :
    law.Holds (fingerprintDoneEffect id s) := by
  unfold fingerprintDoneEffect
  split
  · exact hs
  · exact holds_ite hs (windowCheck_holds (holds_ite (resolveUnique_holds (modChunk_holds hs)) (modChunk_holds hs)))

theorem cacheMiss_holds {c : Chunk} {s : State} (hs : law.Holds s) : law.Holds (cacheMiss c s) :=
  holds_ite (modChunk_holds hs) (resolveUnique_holds hs)

theorem hookDone_holds {c : Chunk} {s : State} (hs : law.Holds s) : law.Holds (hookDone c s) := by
  unfold hookDone
  split
  · exact resolveUnique_holds hs
  · exact holds_ite (resolveUnique_holds hs) (modChunk_holds hs)

theorem lookupSearchDoneEffect_holds {id : Nat} {s : State} (hs : law.Holds s) :
    law.Holds (lookupSearchDoneEffect id s) := by
  unfold lookupSearchDoneEffect
  split
  · exact hs
  · split
    · refine windowCheck_holds ?_
      split
      · exact resolveMatch_holds hs
      · exact cacheMiss_holds hs
    · refine windowCheck_holds ?_
      split
      · exact resolveMatch_holds hs
      · exact cacheMiss_holds hs
    · exact windowCheck_holds (hookDone_holds hs)
    · exact hs

theorem loadLostHooks_holds {s : State} (hs : law.Holds s) : law.Holds (loadLostHooks s) :=
  tick_holds (holds_update hs rfl)

theorem cacheContainer_holds {k d : Nat} {entries : List (Bytes × Nat × Nat)} {s : State} (hs : law.Holds s) :
    law.Holds (cacheContainer k d entries s) :=
  holds_ite (touchContainer_holds (modContainer_holds hs)) (holds_update hs rfl)

theorem containerPullDoneEffect_holds {k : Nat} {entries : List (Bytes × Nat × Nat)} {d : Nat} {s : State}
    (hs : law.Holds s) :
    law.Holds (containerPullDoneEffect k entries d s) := by
  unfold containerPullDoneEffect
  split
  · dsimp only
    split
    · next hr => exact windowCheck_holds (holds_update (cacheContainer_holds (cacheRoom_holds hs hr)) rfl)
    · exact windowCheck_holds (holds_update hs rfl)
  · exact hs

theorem startWaiting_holds {s : State} (hs : law.Holds s) : law.Holds (startWaiting s) :=
  forEach_holds hs fun _ _ ht => startCompare_holds ht

theorem compareFailed_holds {c : Chunk} {s : State} (hs : law.Holds s) : law.Holds (compareFailed c s) :=
  resolveUnique_holds (modChunk_holds (holds_update (dropRefs_holds hs) rfl))

theorem verifyCompareDoneEffect_holds {id : Nat} {given : Option Bytes} {s : State} (hs : law.Holds s) :
    law.Holds (verifyCompareDoneEffect id given s) := by
  unfold verifyCompareDoneEffect
  split
  · exact hs
  · refine holds_ite hs (startWaiting_holds ?_)
    split
    · exact holds_ite (countMatch_holds (modChunk_holds (forEach_holds (holds_update hs rfl) fun _ _ ht =>
        startDueTest_holds ht)))
        (compareFailed_holds (raise_holds (holds_update (forEach_holds (holds_update hs rfl) fun _ _ ht =>
        startDueTest_holds ht) rfl)))
    · exact compareFailed_holds (raise_holds (forEach_holds (holds_update hs rfl) fun _ _ ht => startDueTest_holds ht))

theorem dropRunRefs_holds {id : Nat} {s : State} (hs : law.Holds s) : law.Holds (dropRunRefs id s) :=
  forEach_holds hs fun _ _ ht => holds_ite ht (dropRefs_holds ht)

theorem removeRun_holds {id : Nat} {s : State} (hs : law.Holds s) : law.Holds (removeRun id s) :=
  windowCheck_holds (holds_update hs rfl)

theorem restartRun_holds {id : Nat} {s : State} (hs : law.Holds s) : law.Holds (restartRun id s) :=
  windowCheck_holds (modRun_holds (holds_update (holds_update (dropRunRefs_holds hs) rfl) rfl))

end Sys2Proof.Machine
end

section
/-! SUPPORT. The laws through the roots, the read path, the media, the resets of queues, the flush, the roles and the jobs. -/

namespace Sys2Proof.Machine

variable {law : Law}

/-! ### Machine/Roots.lean -/

theorem rootPage_holds {n b page : Nat} {d : Bytes} {s : State} (hs : law.Holds s) :
    law.Holds (rootPage n b page d s) :=
  forEach_holds hs fun _ _ ht => farSend_holds (holds_ite (farSend_holds ht) ht)

theorem rootTo_holds {names turn : Bool} {n : Nat} {s : State} (hs : law.Holds s) : law.Holds (rootTo names turn n s) :=
  holds_update (rootPage_holds (holds_ite (rootPage_holds hs) hs)) rfl

theorem writeRoots_holds {s : State} (hs : law.Holds s) : law.Holds (writeRoots s) :=
  holds_ite hs (forEach_holds (holds_update hs rfl) fun _ _ ht => rootTo_holds ht)

theorem renewSuper_holds {n : Nat} {s : State} (hs : law.Holds s) : law.Holds (renewSuper n s) :=
  holds_ite (rootTo_holds (holds_update hs rfl)) hs

theorem reservedFailed_holds {n : Nat} {c : FarCmd} {s : State} (hs : law.Holds s) :
    law.Holds (reservedFailed n c s) := by
  unfold reservedFailed
  dsimp only
  split
  · exact hs
  · exact holds_ite hs (renewSuper_holds (holds_update hs rfl))

/-! ### Machine/ReadPath.lean -/

theorem takeSerial_holds {s : State} {p : Bytes × State} (hs : law.Holds s) (h : takeSerial s = some p) :
    law.Holds p.2 := by
  unfold takeSerial at h
  split at h
  · cases h
    exact holds_update hs rfl
  · cases h

theorem wantSerials_holds {s : State} (hs : law.Holds s) : law.Holds (wantSerials s) :=
  holds_ite hs (writeRoots_holds (holds_update hs rfl))

theorem finishChunk_holds {id : Nat} {s : State} (hs : law.Holds s) : law.Holds (finishChunk id s) := by
  unfold finishChunk
  split
  · exact hs
  · split
    · next hr => exact modChunk_holds (takeSerial_holds hs hr)
    · exact wantSerials_holds hs

theorem baleEncodeDoneEffect_holds {id : Nat} {s : State} (hs : law.Holds s) :
    law.Holds (baleEncodeDoneEffect id s) := by
  unfold baleEncodeDoneEffect
  split
  · exact hs
  · exact holds_ite hs (holds_ite (modChunk_holds (holds_update hs rfl))
      (finishChunk_holds (modChunk_holds (holds_update hs rfl))))

theorem xtsSealDoneEffect_holds {id : Nat} {s : State} (hs : law.Holds s) : law.Holds (xtsSealDoneEffect id s) := by
  unfold xtsSealDoneEffect
  split
  · exact hs
  · exact holds_ite hs (finishChunk_holds hs)

theorem modJob_holds {id : Nat} {f : ReadJob → ReadJob} {s : State} (hs : law.Holds s) : law.Holds (modJob id f s) :=
  holds_update hs rfl

theorem failJob_holds {j : ReadJob} {status : Word16} {rule n : Nat} {s : State} (hs : law.Holds s) :
    law.Holds (failJob j status rule n s) :=
  endJob_holds (raise_holds hs)

theorem wantRebuild_holds {id : Nat} {status : Word16} {s : State} (hs : law.Holds s) :
    law.Holds (wantRebuild id status s) :=
  modJob_holds hs

theorem countSealFailed_holds {s : State} (hs : law.Holds s) : law.Holds (countSealFailed s) := holds_update hs rfl

theorem sealCheckDoneEffect_holds {id : Nat} {stored waybill : Bytes} {s : State} (hs : law.Holds s) :
    law.Holds (sealCheckDoneEffect id stored waybill s) := by
  unfold sealCheckDoneEffect
  split
  · exact hs
  · split
    · exact endJob_holds hs
    · refine holds_ite hs (holds_ite (endJob_holds hs) ?_)
      dsimp only
      split
      · exact modJob_holds hs
      · exact holds_ite (failJob_holds (countSealFailed_holds hs)) (wantRebuild_holds hs)

theorem serveJob_holds {j : ReadJob} {orig : Bytes} {s : State} (hs : law.Holds s) : law.Holds (serveJob j orig s) := by
  unfold serveJob
  split
  · exact endJob_holds hs
  · exact endJob_holds (forEach_holds hs fun _ _ ht => deliver_holds ht)

theorem baleDecodeDoneEffect_holds {id : Nat} {s : State} (hs : law.Holds s) :
    law.Holds (baleDecodeDoneEffect id s) := by
  unfold baleDecodeDoneEffect
  split
  · exact hs
  · split
    · exact endJob_holds hs
    · exact holds_ite hs (holds_ite (endJob_holds hs) (holds_ite (serveJob_holds (holds_update hs rfl))
        (holds_ite (failJob_holds (holds_update hs rfl)) (wantRebuild_holds (holds_update hs rfl)))))

theorem feedDecoder_holds {n : Nat} {f : Decoder → Decoder} {s : State} (hs : law.Holds s) :
    law.Holds (feedDecoder n f s) := by
  unfold feedDecoder
  split
  · exact hs
  · dsimp only
    split <;> exact holds_update hs rfl

theorem putEngine_holds {e : Engine} {s : State} (hs : law.Holds s) : law.Holds (putEngine e s) := holds_update hs rfl

theorem decodeSuspendTimeoutEffect_holds {n : Nat} {s : State} (hs : law.Holds s) :
    law.Holds (decodeSuspendTimeoutEffect n s) := by
  unfold decodeSuspendTimeoutEffect
  split
  · exact hs
  · exact startWaiting_holds (startDueTest_holds (holds_update hs rfl))

theorem afterTest_holds {k : EngClass} {s : State} (hs : law.Holds s) : law.Holds (afterTest k s) := by
  unfold afterTest
  refine startWaiting_holds ?_
  split
  · exact startDueTest_holds hs
  · exact hs

theorem engineSelftestDueEffect_holds {k : EngClass} {n : Nat} {s : State} (hs : law.Holds s) :
    law.Holds (engineSelftestDueEffect k n s) :=
  holds_ite hs (holds_ite (putEngine_holds hs) (putEngine_holds hs))

theorem classLost_holds {k : EngClass} {s : State} (hs : law.Holds s) : law.Holds (classLost k s) :=
  holds_ite (raise_holds hs) hs

theorem engineSelftestDoneEffect_holds {k : EngClass} {n : Nat} {pass : Bool} {s : State} (hs : law.Holds s) :
    law.Holds (engineSelftestDoneEffect k n pass s) :=
  holds_ite hs (holds_ite (holds_ite (raise_holds (putEngine_holds hs)) (putEngine_holds hs))
    (holds_ite (putEngine_holds hs) (classLost_holds (raise_holds (putEngine_holds hs)))))

theorem engineRetestExpiryEffect_holds {k : EngClass} {n : Nat} {s : State} (hs : law.Holds s) :
    law.Holds (engineRetestExpiryEffect k n s) :=
  holds_ite (putEngine_holds hs) hs

/-! ### Machine/Media.lean -/

theorem freshPage_holds {nsid level page : Nat} {s : State} (hs : law.Holds s) :
    law.Holds (freshPage nsid level page s) :=
  holds_update hs rfl

theorem ownPage_holds {nsid page : Nat} {s : State} (hs : law.Holds s) : law.Holds (ownPage nsid page s) := by
  unfold ownPage
  split
  · exact freshPage_holds hs
  · exact holds_ite (freshPage_holds (forEach_holds hs fun _ _ ht => raiseRef_holds (raiseRef_holds ht)))
      (holds_ite (freshPage_holds hs) hs)

theorem putEntry_holds {m : MapEntry} {s : State} (hs : law.Holds s) : law.Holds (putEntry m s) := by
  unfold putEntry
  refine touchPage_holds (holds_update ?_ rfl)
  split
  · exact dropEntries_holds (ownPage_holds hs)
  · exact ownPage_holds hs

theorem releaseRun_holds {r : Run} {s : State} (hs : law.Holds s) : law.Holds (releaseRun r s) :=
  holds_ite (holds_update (forEach_holds hs fun _ _ ht => holds_ite (endVoid_holds ht) (releaseEntry_holds ht)) rfl)
    (forEach_holds hs fun _ _ ht => holds_ite (endVoid_holds ht) (releaseEntry_holds ht))

theorem publishBlock_holds {r : Run} {l : List Chunk} {i : Nat} {s : State} (hs : law.Holds s) :
    law.Holds (publishBlock r l i s) :=
  holds_ite (dropEntries_holds hs) (putEntry_holds hs)

theorem modSlot_holds {x : StreamId} {f : Layout → Layout} {s : State} (hs : law.Holds s) : law.Holds (modSlot x f s) :=
  holds_ite (holds_update hs rfl) (holds_ite (holds_update hs rfl) (holds_update hs rfl))

theorem noteSpace_holds {s : State} (hs : law.Holds s) : law.Holds (noteSpace s) :=
  forEach_holds (holds_update hs rfl) fun _ _ ht => holds_ite (raise_holds ht) (raise_holds ht)

theorem drainIfEmpty_holds {no : Nat} {s : State} (hs : law.Holds s) : law.Holds (drainIfEmpty no s) := by
  unfold drainIfEmpty
  split
  · exact holds_ite (modSeg_holds hs) hs
  · exact hs

theorem retireBlocks_holds {no : Nat} {ps : List Nat} {s : State} (hs : law.Holds s) :
    law.Holds (retireBlocks no ps s) :=
  holds_update (modSeg_holds hs) rfl

theorem freeAccs_holds {l : List Member} {s : State} (hs : law.Holds s) : law.Holds (freeAccs l s) :=
  holds_update hs rfl

theorem accumulate_holds {m : Member} {page : Nat} {d : Bytes} {s : State} (hs : law.Holds s) :
    law.Holds (accumulate m page d s) :=
  holds_update hs rfl

theorem programMember_holds {g : Seg} {k : Nat} {strip : Bytes} {m : Member} {s : State} (hs : law.Holds s) :
    law.Holds (programMember g k strip m s) :=
  forEach_holds hs fun _ _ ht => farSend_holds (holds_ite ht (accumulate_holds ht))

theorem closeStripe_holds {t : Stripe} {s : State} (hs : law.Holds s) : law.Holds (closeStripe t s) := by
  unfold closeStripe
  dsimp only
  split
  · exact holds_update hs rfl
  · exact forEach_holds (holds_update hs rfl) fun _ _ ht => programMember_holds ht

theorem stripeFor_holds {x : StreamId} {n : Nat} {s : State} (hs : law.Holds s) : law.Holds (stripeFor x n s).2 := by
  unfold stripeFor
  split
  · exact hs
  · dsimp only
    split
    · dsimp only
      split
      · exact holds_ite hs (closeStripe_holds hs)
      · exact hs
    · split
      · split
        · split
          · exact holds_update hs rfl
          · exact hs
        · split
          · exact holds_update (closeStripe_holds hs) rfl
          · exact closeStripe_holds hs
      · split
        · exact holds_update hs rfl
        · exact hs

theorem appendTo_holds {mark n : Nat} {t : Stripe} {s : State} (hs : law.Holds s) : law.Holds (appendTo mark n t s) :=
  holds_update hs rfl

theorem placeAt_holds {no n : Nat} {t : Stripe} {s : State} (hs : law.Holds s) : law.Holds (placeAt no n t s) :=
  modEnt_holds (appendTo_holds hs)

theorem baleAppendEffect_holds {id : Nat} {s : State} (hs : law.Holds s) : law.Holds (baleAppendEffect id s) := by
  unfold baleAppendEffect
  split
  · exact hs
  · refine holds_ite hs ?_
    dsimp only
    split
    · exact stripeFor_holds hs
    · exact modChunk_holds (modEnt_holds (placeAt_holds (stripeFor_holds hs)))

theorem startCopy_holds {e : ChunkEnt} {s : State} (hs : law.Holds s) : law.Holds (startCopy e s) := by
  unfold startCopy
  split
  · exact hs
  · refine holds_ite hs ?_
    dsimp only
    split
    · exact stripeFor_holds hs
    · exact holds_update (appendTo_holds (stripeFor_holds hs)) rfl

theorem startCopies_holds {s : State} (hs : law.Holds s) : law.Holds (startCopies s) :=
  forEach_holds hs fun _ _ ht => startCopy_holds ht

theorem alsoRelocate_holds {nos : List Nat} {seg : Nat} {s : State} (hs : law.Holds s) :
    law.Holds (alsoRelocate nos seg s) :=
  startCopies_holds (holds_update hs rfl)

theorem dropReloc_holds {no : Nat} {s : State} (hs : law.Holds s) : law.Holds (dropReloc no s) := holds_update hs rfl

theorem reclaimSeg_holds {no : Nat} {s : State} (hs : law.Holds s) : law.Holds (reclaimSeg no s) := by
  unfold reclaimSeg
  refine startCopies_holds (drainIfEmpty_holds (modSeg_holds ?_))
  split
  · exact freeAccs_holds hs
  · exact hs

theorem loseObjects_holds {p : Nat → Nat → Bool} {s : State} (hs : law.Holds s) : law.Holds (loseObjects p s) :=
  holds_update hs rfl

theorem setNode_holds {k : TreeKey} {level page obj : Nat} {s : State} (hs : law.Holds s) :
    law.Holds (setNode k level page obj s) := by
  unfold setNode
  dsimp only
  split <;> exact holds_update hs rfl

theorem placeObj_holds {x : StreamId} {o : ObjRec} {s : State} (hs : law.Holds s) : law.Holds (placeObj x o s).2 := by
  unfold placeObj
  dsimp only
  split
  · exact stripeFor_holds hs
  · exact holds_update (appendTo_holds (stripeFor_holds hs)) rfl

theorem whileRoom_holds {α : Type} {f : α → State → Bool × State} {l : List α} {a : Bool × State} (hs : law.Holds a.2)
    (hf : ∀ x t, law.Holds t → law.Holds (f x t).2) :
    law.Holds (whileRoom l f a).2 :=
  foldl_holds (fun p : Bool × State => p.2) hs fun p x hp => by
    split
    · exact hf _ _ hp
    · exact hp

theorem writeNode_holds {nsid level page obj : Nat} {body : Bytes} {s : State} (hs : law.Holds s) :
    law.Holds (writeNode nsid level page obj body s).2 := by
  unfold writeNode
  split
  · exact wantSerials_holds hs
  · next hr => exact placeObj_holds (takeSerial_holds hs hr)

theorem writeLeaf_holds {k : TreeKey} {p : PageObj} {s : State} (hs : law.Holds s) : law.Holds (writeLeaf k p s).2 := by
  unfold writeLeaf
  split
  · exact hs
  · exact writeNode_holds hs

theorem renewTable_holds {key page : Nat} {s : State} (hs : law.Holds s) : law.Holds (renewTable key page s) := by
  unfold renewTable
  split
  · exact holds_ite hs (freshPage_holds hs)
  · exact holds_ite (freshPage_holds hs) hs

theorem newObject_holds {key page : Nat} {keep : Nat → Bool} {body : Bytes} {s : State} (hs : law.Holds s) :
    law.Holds (newObject key page keep body s).2 :=
  writeNode_holds (freshPage_holds (holds_update hs rfl))

theorem writeDir_holds {k : TreeKey} {level page : Nat} {s : State} (hs : law.Holds s) :
    law.Holds (writeDir k level page s).2 := by
  unfold writeDir
  dsimp only
  split
  · exact setNode_holds hs
  · split
    · exact setNode_holds (writeNode_holds (holds_update hs rfl))
    · exact writeNode_holds (holds_update hs rfl)

theorem writeLevel_holds {l : List TreeKey} {level : Nat} {a : Bool × State} (hs : law.Holds a.2) :
    law.Holds (writeLevel l level a).2 := by
  unfold writeLevel
  refine whileRoom_holds hs fun _ _ ht => ?_
  split
  · exact ht
  · exact whileRoom_holds ht fun _ _ hu => writeDir_holds hu

theorem moveObj_holds {o : ObjRec} {s : State} (hs : law.Holds s) : law.Holds (moveObj o s).2 := by
  unfold moveObj
  dsimp only
  split
  · exact placeObj_holds (holds_update hs rfl)
  · exact hs

theorem dropTables_holds {s : State} (hs : law.Holds s) : law.Holds (dropTables s) := holds_update hs rfl

theorem renewKeys_holds {s : State} (hs : law.Holds s) : law.Holds (renewKeys s) :=
  holds_ite hs (forEach_holds hs fun _ _ ht => freshPage_holds ht)

theorem syncTables_holds {n : Nat} {s : State} (hs : law.Holds s) : law.Holds (syncTables n s) :=
  holds_ite (renewKeys_holds (forEach_holds (holds_update hs rfl) fun _ _ ht => renewTable_holds ht))
    (forEach_holds (holds_update hs rfl) fun _ _ ht => renewTable_holds ht)

theorem writeStage_holds {n : Nat} {a : Bool × State} (hs : law.Holds a.2) : law.Holds (writeStage n a).2 := by
  unfold writeStage
  split
  · exact hs
  · exact writeLevel_holds
      (writeLevel_holds (writeLevel_holds (writeLevel_holds (whileRoom_holds (syncTables_holds hs) fun _ _ ht =>
      whileRoom_holds ht fun _ _ hu => writeLeaf_holds hu))))

theorem writeTrees_holds {s : State} (hs : law.Holds s) : law.Holds (writeTrees s).2 := by
  unfold writeTrees
  dsimp only
  split
  · exact newObject_holds
      (writeStage_holds (writeStage_holds (writeStage_holds (whileRoom_holds (dropTables_holds hs) fun _ _ ht =>
      moveObj_holds ht))))
  · exact writeStage_holds (writeStage_holds (writeStage_holds (whileRoom_holds (dropTables_holds hs) fun _ _ ht =>
      moveObj_holds ht)))

theorem serveWriteBack_holds {s : State} (hs : law.Holds s) : law.Holds (serveWriteBack s) := by
  unfold serveWriteBack
  refine whileRoom_holds hs fun _ _ ht => ?_
  dsimp only
  split
  · split
    · split
      · exact holds_update (writeLeaf_holds (renewTable_holds ht)) rfl
      · exact writeLeaf_holds (renewTable_holds ht)
    · split
      · exact holds_update (writeLeaf_holds ht) rfl
      · exact writeLeaf_holds ht
  · exact holds_update (holds_ite (renewTable_holds ht) ht) rfl

theorem startCheckpoint_holds {s : State} (hs : law.Holds s) : law.Holds (startCheckpoint s) :=
  holds_ite hs (holds_ite (holds_update (writeTrees_holds (serveWriteBack_holds hs)) rfl)
    (holds_update (writeTrees_holds (serveWriteBack_holds hs)) rfl))

theorem sweepObjs_holds {s : State} (hs : law.Holds s) : law.Holds (sweepObjs s) :=
  forEach_holds (holds_update hs rfl) fun _ _ ht => drainIfEmpty_holds ht

theorem checkpointIfFull_holds {s : State} (hs : law.Holds s) : law.Holds (checkpointIfFull s) :=
  holds_ite (startCheckpoint_holds hs) hs

/-- The archive part may come from another state that satisfies the law. -/
theorem Law.Holds.with_til {s t : State} (ht : law.Holds t) (hs : law.Holds s) {u : Til}
    (hu : u.readFloor = s.til.readFloor) :
    law.Holds { t with til := u } := by
  cases law with
  | canonical =>
    have hfloor : tabWf 0 s.til.readFloor = true := by
      obtain ⟨-, -, -, -, -, -, -, -, -, hfloor, -⟩ := hs
      exact hfloor
    exact ht.of_tables { ht.same with floor := fun _ => hu ▸ hfloor }
  | fresh => exact ht

theorem mapUpdatePublishEffect_holds {id : Nat} {s : State} (hs : law.Holds s) :
    law.Holds (mapUpdatePublishEffect id s) := by
  unfold mapUpdatePublishEffect
  split
  · exact hs
  · next r _ =>
    have ht : law.Holds (forEach (List.range r.n) (publishBlock r (chunksOfRun s id)) s) :=
      forEach_holds hs fun _ _ hu => publishBlock_holds hu
    split
    · exact hs
    · refine checkpointIfFull_holds (dropStaleMirror_holds (removeRun_holds (releaseRun_holds ?_)))
      split
      · exact dropRunRefs_holds hs
      · exact ht.with_til hs rfl

theorem stripeIdleEffect_holds {x : StreamId} {s : State} (hs : law.Holds s) : law.Holds (stripeIdleEffect x s) :=
  forSome_holds hs fun _ _ ht => closeStripe_holds ht

theorem verifyReads_holds {g : Seg} {s : State} (hs : law.Holds s) : law.Holds (verifyReads g s) :=
  forEach_holds hs fun _ _ ht => forEach_holds ht fun _ _ hu => farSend_holds hu

theorem closeSeg_holds {g : Seg} {s : State} (hs : law.Holds s) : law.Holds (closeSeg g s) :=
  holds_ite (modSeg_holds hs) (verifyReads_holds (modSeg_holds hs))

theorem segFilled_holds {no : Nat} {s : State} (hs : law.Holds s) : law.Holds (segFilled no s) := by
  unfold segFilled
  split
  · exact holds_ite (closeSeg_holds hs) hs
  · exact hs

theorem placementFailed_holds {t : Stripe} {failed : List Nat} {s : State} (hs : law.Holds s) :
    law.Holds (placementFailed t failed s) :=
  reclaimSeg_holds (raise_holds
    (retireBlocks_holds (loseObjects_holds (holds_update (holds_update (forEach_holds hs fun _ _ ht => restartRun_holds
    ht) rfl) rfl))))

theorem stripeProgrammedEffect_holds {seg stripe : Nat} {failed : List Nat} {s : State} (hs : law.Holds s) :
    law.Holds (stripeProgrammedEffect seg stripe failed s) := by
  unfold stripeProgrammedEffect
  split
  · exact hs
  · exact holds_ite (placementFailed_holds hs)
      (serveWriteBack_holds
      (startCopies_holds (segFilled_holds (modSeg_holds (holds_update (holds_update hs rfl) rfl)))))

theorem formSeg_holds {x : StreamId} {slc : Bool} {lanes : List Nat} {s : State} (hs : law.Holds s) :
    law.Holds (formSeg x slc lanes s) :=
  holds_ite hs (holds_update hs rfl)

theorem eraseMembers_holds {g : Seg} {s : State} (hs : law.Holds s) : law.Holds (eraseMembers g s) :=
  forEach_holds hs fun _ _ ht => farSend_holds ht

theorem noteWear_holds {n : Nat} {s : State} (hs : law.Holds s) : law.Holds (noteWear n s) :=
  holds_update (raiseIf_holds hs) rfl

theorem reopenSeg_holds {x : StreamId} {slc : Bool} {g : Seg} {s : State} (hs : law.Holds s) :
    law.Holds (reopenSeg x slc g s) :=
  holds_ite (forEach_holds (modSeg_holds (holds_ite (eraseMembers_holds hs) hs)) fun _ _ ht => noteWear_holds ht)
    (modSeg_holds (holds_ite (eraseMembers_holds hs) hs))

theorem noteNarrow_holds {x : StreamId} {s : State} (hs : law.Holds s) : law.Holds (noteNarrow x s) :=
  raiseIf_holds (raiseIf_holds (modSlot_holds hs))

theorem segmentAllocateEffect_holds {x : StreamId} {s : State} (hs : law.Holds s) :
    law.Holds (segmentAllocateEffect x s) := by
  unfold segmentAllocateEffect
  refine holds_ite hs (holds_ite (noteNarrow_holds hs)
    (holds_ite (startCheckpoint_holds (serveWriteBack_holds (holds_ite (startCopies_holds ?_) ?_)))
    (serveWriteBack_holds (holds_ite (startCopies_holds ?_) ?_))))
  · split
    · exact noteSpace_holds (reopenSeg_holds (noteNarrow_holds hs))
    · exact holds_ite (noteNarrow_holds hs) (noteSpace_holds (formSeg_holds (noteNarrow_holds hs)))
  · split
    · exact noteSpace_holds (reopenSeg_holds (noteNarrow_holds hs))
    · exact holds_ite (noteNarrow_holds hs) (noteSpace_holds (formSeg_holds (noteNarrow_holds hs)))
  · split
    · exact noteSpace_holds (reopenSeg_holds (noteNarrow_holds hs))
    · exact holds_ite (noteNarrow_holds hs) (noteSpace_holds (formSeg_holds (noteNarrow_holds hs)))
  · split
    · exact noteSpace_holds (reopenSeg_holds (noteNarrow_holds hs))
    · exact holds_ite (noteNarrow_holds hs) (noteSpace_holds (formSeg_holds (noteNarrow_holds hs)))

theorem blockVerifyDoneEffect_holds {no p maxCorr : Nat} {bad : List Nat} {s : State} (hs : law.Holds s) :
    law.Holds (blockVerifyDoneEffect no p maxCorr bad s) := by
  unfold blockVerifyDoneEffect
  split
  · exact hs
  · exact holds_ite hs (holds_ite (holds_ite (modSeg_holds (freeAccs_holds (modSeg_holds hs)))
      (freeAccs_holds (modSeg_holds hs))) (reclaimSeg_holds (raise_holds (retireBlocks_holds hs))))

theorem countRefresh_holds {s : State} (hs : law.Holds s) : law.Holds (countRefresh s) := holds_update hs rfl

theorem reclaimVictimChosenEffect_holds {k : VictimKind} {s : State} (hs : law.Holds s) :
    law.Holds (reclaimVictimChosenEffect k s) := by
  unfold reclaimVictimChosenEffect
  refine holds_ite hs ?_
  dsimp only
  split
  · exact reclaimSeg_holds (forEach_holds hs fun _ _ ht => alsoRelocate_holds ht)
  · split
    · exact forEach_holds hs fun _ _ ht => alsoRelocate_holds ht
    · refine reclaimSeg_holds ?_
      split
      · exact countRefresh_holds (forEach_holds hs fun _ _ ht => alsoRelocate_holds ht)
      · exact forEach_holds hs fun _ _ ht => alsoRelocate_holds ht

theorem renameChunk_holds {a b : Nat} {s : State} (hs : law.Holds s) : law.Holds (renameChunk a b s) :=
  holds_update hs rfl

theorem buildBeside_holds {e : ChunkEnt} {s : State} (hs : law.Holds s) : law.Holds (buildBeside e s).2 :=
  holds_update (renameChunk_holds (modEnt_holds hs)) rfl

theorem replaceForeign_holds {e : ChunkEnt} {s : State} (hs : law.Holds s) : law.Holds (replaceForeign e s).2 :=
  toPeer_holds (holds_update (renameChunk_holds (holds_update hs rfl)) rfl)

theorem publishCopy_holds {e : ChunkEnt} {c : Copy} {s : State} (hs : law.Holds s) : law.Holds (publishCopy e c s) := by
  unfold publishCopy
  refine holds_ite (drainIfEmpty_holds (dropReloc_holds hs))
    (drainIfEmpty_holds (holds_ite (holds_update (holds_update (modEnt_holds ?_) rfl) rfl)
    (holds_update (modEnt_holds ?_) rfl)))
  · split
    · exact buildBeside_holds (dropReloc_holds hs)
    · split
      · exact replaceForeign_holds (dropReloc_holds hs)
      · exact dropReloc_holds hs
  · split
    · exact buildBeside_holds (dropReloc_holds hs)
    · split
      · exact replaceForeign_holds (dropReloc_holds hs)
      · exact dropReloc_holds hs

theorem relocationDoneEffect_holds {no : Nat} {s : State} (hs : law.Holds s) :
    law.Holds (relocationDoneEffect no s) := by
  unfold relocationDoneEffect
  split
  · exact holds_ite (drainIfEmpty_holds (dropReloc_holds hs)) (holds_ite hs (publishCopy_holds hs))
  · exact holds_ite (dropReloc_holds hs) (holds_ite hs (startCopy_holds hs))
  · exact dropReloc_holds hs

theorem drained_holds {g : Seg} {s : State} (hs : law.Holds s) : law.Holds (drained g s) := by
  unfold drained
  dsimp only
  split <;> exact modSeg_holds (holds_ite hs (holds_update (tick_holds hs) rfl))

theorem segmentDrainedEffect_holds {no : Nat} {s : State} (hs : law.Holds s) :
    law.Holds (segmentDrainedEffect no s) := by
  unfold segmentDrainedEffect
  split
  · exact hs
  · exact holds_ite (noteSpace_holds (drained_holds hs)) hs

theorem listScans_holds {s : State} (hs : law.Holds s) : law.Holds (listScans s) := holds_ite (holds_update hs rfl) hs

theorem segmentScanDueEffect_holds {no : Nat} {corr : List Nat} {bad : Bool} {s : State} (hs : law.Holds s) :
    law.Holds (segmentScanDueEffect no corr bad s) := by
  unfold segmentScanDueEffect
  split
  · exact hs
  · exact holds_ite hs (holds_ite (reclaimSeg_holds (countRefresh_holds (modSeg_holds (holds_update hs rfl))))
      (modSeg_holds (holds_update hs rfl)))

theorem nandMinRunEffect_holds {n d : Nat} {s : State} (hs : law.Holds s) : law.Holds (nandMinRunEffect n d s) := by
  unfold nandMinRunEffect
  dsimp only
  split
  · exact holds_ite (trySuspend_holds (modDieRun_holds hs)) (modDieRun_holds hs)
  · exact modDieRun_holds hs

theorem resumeDie_holds {n d : Nat} {s : State} (hs : law.Holds s) : law.Holds (resumeDie n d s) := by
  unfold resumeDie
  split
  · exact holds_ite (serveLane_holds (farUrgent_holds (modDieRun_holds hs))) hs
  · exact hs

/-! ### Machine/Resets.lean -/

theorem restat_holds {s : State} (hs : law.Holds s) : law.Holds (restat s) := holds_ite hs (holds_update hs rfl)

theorem lowerTag_holds {t : Nat} {g : Word64} {k : Nat} {s : State} (hs : law.Holds s) : law.Holds (lowerTag t g k s) :=
  holds_update hs rfl

theorem loseBlocks_holds {l : List MirEntry} {s : State} (hs : law.Holds s) : law.Holds (loseBlocks l s) :=
  forEach_holds (forEach_holds hs fun _ _ ht => lowerTag_holds ht) fun _ _ ht => raise_holds ht

theorem keepRecord_holds {r : FlushRec} {s : State} (hs : law.Holds s) : law.Holds (keepRecord r s) :=
  holds_update hs rfl

theorem stopFlush_holds {s : State} (hs : law.Holds s) : law.Holds (stopFlush s) := by
  unfold stopFlush
  split
  · exact hs
  · exact keepRecord_holds (tick_holds (holds_update hs rfl))

theorem rebuildMaps_holds {j : List MapEntry} {s : State} (hs : law.Holds s) : law.Holds (rebuildMaps j s) :=
  holds_update (dropEntries_holds (forEach_holds (forEach_holds hs fun _ _ ht => freshPage_holds ht) fun _ _ ht =>
    raiseRef_holds (raiseRef_holds ht))) rfl

theorem dropBatchRefs_holds {b : Batch} {s : State} (hs : law.Holds s) : law.Holds (dropBatchRefs b s) :=
  forEach_holds hs fun _ _ ht => dropRefs_holds ht

theorem dropVolatileRefs_holds {s : State} (hs : law.Holds s) : law.Holds (dropVolatileRefs s) :=
  forEach_holds (forEach_holds hs fun _ _ ht => dropRunRefs_holds ht) fun _ _ ht => forEach_holds ht fun _ _ hu =>
    dropBatchRefs_holds hu

/-! ### Machine/Flush.lean -/

theorem noteBudget_holds {s : State} (hs : law.Holds s) : law.Holds (noteBudget s) := holds_update hs rfl

theorem lowerOffer_holds {s : State} (hs : law.Holds s) : law.Holds (lowerOffer s) :=
  holds_ite hs (holds_ite (holds_update (raise_holds hs) rfl) (holds_update (raise_holds hs) rfl))

theorem sendLimit_holds {l : Option Nat} {s : State} (hs : law.Holds s) : law.Holds (sendLimit l s) := toPeer_holds hs

theorem setLimit_holds {l : Option Nat} {s : State} (hs : law.Holds s) : law.Holds (setLimit l s) :=
  holds_ite hs (sendLimit_holds (holds_update hs rfl))

theorem adjustLimit_holds {s : State} (hs : law.Holds s) : law.Holds (adjustLimit s) :=
  holds_ite (holds_ite (setLimit_holds hs) (setLimit_holds hs)) (raiseIf_holds (raise_holds (setLimit_holds hs)))

theorem holdupEffect_holds {s : State} (hs : law.Holds s) : law.Holds (holdupEffect s) :=
  holds_ite (noteBudget_holds hs) (noteBudget_holds (holds_ite (lowerOffer_holds hs) (adjustLimit_holds hs)))

theorem abandonErases_holds {s : State} (hs : law.Holds s) : law.Holds (abandonErases s) :=
  holds_update (forEach_holds hs fun _ _ ht => holds_ite ht (farUrgent_holds ht)) rfl

theorem beginFlush_holds {s : State} (hs : law.Holds s) : law.Holds (beginFlush s) :=
  holds_ite hs (restat_holds (abandonErases_holds (holds_update (toPeer_holds hs) rfl)))

theorem powerLoss_holds {s : State} (hs : law.Holds s) : law.Holds (powerLoss s) := by
  unfold powerLoss
  dsimp only
  split
  · exact holds_update (leaveSelfRefresh_holds (norPowerFail_holds (holds_update hs rfl))) rfl
  · exact leaveSelfRefresh_holds (norPowerFail_holds (holds_update hs rfl))
  · exact beginFlush_holds (leaveSelfRefresh_holds (norPowerFail_holds (holds_update hs rfl)))

theorem pwrFailEffect_holds {lowNs : Nat} {s : State} (hs : law.Holds s) : law.Holds (pwrFailEffect lowNs s) :=
  holds_ite hs (holds_ite (holds_update hs rfl) (powerLoss_holds (holds_update hs rfl)))

theorem modFlush_holds {f : Flush → Flush} {s : State} (hs : law.Holds s) : law.Holds (modFlush f s) :=
  holds_update hs rfl

theorem quiesceEffect_holds {s : State} (hs : law.Holds s) : law.Holds (quiesceEffect s) := by
  unfold quiesceEffect
  split
  · exact hs
  · refine holds_ite hs ?_
    extract_lets t u v
    have ht : law.Holds t := settleQueues_holds (holds_ite (wake_holds hs) hs)
    clear_value t
    have hu : law.Holds u := forEach_holds ht fun _ _ h => settleOne_holds h
    clear_value u
    have hv : law.Holds v := forEach_holds hu fun _ _ h => endWrite_holds h
    clear_value v
    exact modFlush_holds (holds_update hv rfl)

theorem classDoneEffect_holds {s : State} (hs : law.Holds s) : law.Holds (classDoneEffect s) := by
  unfold classDoneEffect
  split
  · exact hs
  · exact holds_ite hs (modFlush_holds hs)

theorem pwrReturnEffect_holds {s : State} (hs : law.Holds s) : law.Holds (pwrReturnEffect s) :=
  modFlush_holds (holds_update hs rfl)

theorem replayLog_holds {s : State} (hs : law.Holds s) : law.Holds (replayLog s) := by
  unfold replayLog
  dsimp only
  split
  · exact holds_update (holds_update hs rfl) rfl
  · exact holds_update hs rfl

theorem notePlf_holds {s : State} (hs : law.Holds s) : law.Holds (notePlf s) := by
  unfold notePlf
  split
  · exact holds_update hs rfl
  · exact hs

theorem replayLost_holds {s : State} (hs : law.Holds s) : law.Holds (replayLost s) :=
  forEach_holds hs fun _ _ ht => holds_ite ht (loseBlocks_holds ht)

theorem restage_holds {m : MirEntry} {s : State} (hs : law.Holds s) : law.Holds (restage m s) := by
  unfold restage
  refine holds_ite hs ?_
  split
  · exact hs
  · exact reachStaged_holds (noteOccupancy_holds (holds_update hs rfl))

theorem replayMaps_holds {s : State} (hs : law.Holds s) : law.Holds (replayMaps s) := by
  unfold replayMaps
  dsimp only
  split
  · exact holds_update (rebuildMaps_holds hs) rfl
  · exact rebuildMaps_holds hs

theorem flushReplayEffect_holds {s : State} (hs : law.Holds s) : law.Holds (flushReplayEffect s) := by
  unfold flushReplayEffect
  extract_lets _ _ t _ u _
  have ht : law.Holds t := by
    have hlost : law.Holds (replayLost (notePlf (replayMaps (replayLog s)))) :=
      replayLost_holds (notePlf_holds (replayMaps_holds (replayLog_holds hs)))
    exact holds_ite (holds_update hlost rfl) hs
  have hu : law.Holds u := forEach_holds ht fun _ _ h => restage_holds h
  clear_value u
  exact holds_ite hs (holds_ite (readmit_holds (holds_update hu rfl)) (readmit_holds hu))

/-! ### Machine/Roles.lean -/

theorem repack_holds {no : Nat} {s : State} (hs : law.Holds s) : law.Holds (repack no s) :=
  startCopies_holds (holds_update (loseObjects_holds hs) rfl)

theorem closeOpen_holds {no : Nat} {s : State} (hs : law.Holds s) : law.Holds (closeOpen no s) :=
  repack_holds (forSome_holds hs fun _ _ ht => closeSeg_holds ht)

theorem closeOpenWith_holds {p : Member → Bool} {s : State} (hs : law.Holds s) : law.Holds (closeOpenWith p s) :=
  forEach_holds hs fun _ _ ht => closeOpen_holds ht

theorem missMembers_holds {p : Member → Bool} {s : State} (hs : law.Holds s) : law.Holds (missMembers p s) :=
  holds_update (closeOpenWith_holds hs) rfl

theorem noteAlive_holds {s : State} (hs : law.Holds s) : law.Holds (noteAlive s) := holds_update hs rfl

theorem chainSend_holds {type : Nat} {args : List Nat} {s : State} (hs : law.Holds s) :
    law.Holds (chainSend type args s) :=
  onlyIf_holds hs fun _ ht => emit_holds ht

theorem tellEpoch_holds {s : State} (hs : law.Holds s) : law.Holds (tellEpoch s) :=
  onlyIf_holds hs fun _ ht => chainSend_holds ht

theorem setRole_holds {r : Role} {cause : Nat} {s : State} (hs : law.Holds s) : law.Holds (setRole r cause s) :=
  writeRoots_holds (restat_holds (noteAlive_holds (holds_update hs rfl)))

theorem letLanesGo_holds {s : State} (hs : law.Holds s) : law.Holds (letLanesGo s) :=
  forEach_holds (holds_update hs rfl) fun _ _ ht => modLane_holds ht

theorem dropPending_holds {s : State} (hs : law.Holds s) : law.Holds (dropPending s) :=
  forEach_holds (forEach_holds (forEach_holds (holds_update hs rfl) fun _ _ ht => finishCmd_holds ht) fun _ _ ht =>
    finishCmd_holds ht) fun _ _ ht => raise_holds ht

theorem letGo_holds {id : Nat} {s : State} (hs : law.Holds s) : law.Holds (letGo id s) := by
  unfold letGo
  split
  · exact hs
  · exact holds_ite (endWrite_holds hs) (finishCmd_holds (dropJobs_holds hs))

theorem letWorkGo_holds {s : State} (hs : law.Holds s) : law.Holds (letWorkGo s) :=
  letLanesGo_holds (holds_update
    (loseObjects_holds (holds_update (forEach_holds (pinEntries_holds (dropPending_holds (dropVolatileRefs_holds hs)))
    fun _ _ ht => letGo_holds ht) rfl)) rfl)

theorem enterService_holds {cause : Nat} {s : State} (hs : law.Holds s) : law.Holds (enterService cause s) :=
  wakeBehind_holds (setRole_holds (letWorkGo_holds hs))

theorem superseded_holds {s : State} (hs : law.Holds s) : law.Holds (superseded s) :=
  holds_ite hs (enterService_holds hs)

/-! ### Machine/Jobs.lean -/

theorem modJobOf_holds {id : Nat} {f : Job → Job} {s : State} (hs : law.Holds s) : law.Holds (modJobOf id f s) :=
  holds_update hs rfl

theorem writeCkpt_holds {id : Nat} {s : State} (hs : law.Holds s) : law.Holds (writeCkpt id s) := by
  unfold writeCkpt
  split
  · exact hs
  · exact holds_ite (toPeer_holds (modJobOf_holds (newObject_holds (holds_update hs rfl))))
      (modJobOf_holds (newObject_holds (holds_update hs rfl)))

theorem endTask_holds {id : Nat} {s : State} (hs : law.Holds s) : law.Holds (endTask id s) := by
  unfold endTask
  split
  · exact hs
  · exact holds_update (writeCkpt_holds hs) rfl

theorem addTask_holds {j : Job} {s : State} (hs : law.Holds s) : law.Holds (addTask j s) :=
  writeCkpt_holds (holds_update hs rfl)

theorem startRebuild_holds {n die : Nat} {s : State} (hs : law.Holds s) : law.Holds (startRebuild n die s) := by
  unfold startRebuild
  refine holds_ite hs (holds_ite (addTask_holds hs) ?_)
  split
  · exact hs
  · exact modJobOf_holds hs

theorem memberLost_holds {n die : Nat} {s : State} (hs : law.Holds s) : law.Holds (memberLost n die s) :=
  holds_ite (startRebuild_holds (missMembers_holds hs)) (missMembers_holds hs)

theorem jobsForMissing_holds {no : Nat} {s t : State} (hs : law.Holds t) : law.Holds (jobsForMissing no s t) := by
  unfold jobsForMissing
  split
  · exact holds_ite hs (forEach_holds hs fun _ _ ht => startRebuild_holds ht)
  · exact hs

theorem noteVacated_holds {s : State} (hs : law.Holds s) : law.Holds (noteVacated s) := holds_update hs rfl

end Sys2Proof.Machine
end

section
/-! SUPPORT. The laws through the lanes and their bridges, the parity, the tile tasks, the snapshots and the remote chips. -/

namespace Sys2Proof.Machine

variable {law : Law}

/-! ### Machine/Bridge.lean -/

theorem mem_tabPut {α : Type} [DecidableEq α] {d v : α} {n : Nat} {t : Tab α} {p : Nat × α} (h : p ∈ tabPut d n v t) :
    p ∈ t ∨ p = (n, v) := by
  induction t with
  | nil =>
    unfold tabPut at h
    split at h
    · exact .inl h
    · exact .inr (List.mem_singleton.1 h)
  | cons q t ih =>
    obtain ⟨k, w⟩ := q
    simp only [tabPut] at h
    split at h
    · split at h
      · exact .inl (List.mem_cons_of_mem _ h)
      · exact (List.mem_cons.1 h).symm.imp (List.mem_cons_of_mem _) id
    · split at h
      · split at h
        · exact .inl h
        · exact (List.mem_cons.1 h).symm
      · rcases List.mem_cons.1 h with rfl | h
        · exact .inl List.mem_cons_self
        · exact (ih h).imp_left (List.mem_cons_of_mem _)

/-- What a table gives for a key is listed or the default. -/
theorem tabGet_induct {α : Type} {P : α → Prop} {d : α} {t : Tab α} (hd : P d) (ht : ∀ p ∈ t, P p.2) (n : Nat) :
    P (tabGet d n t) := by
  induction t with
  | nil => exact hd
  | cons q t ih =>
    unfold tabGet
    split
    · exact ht _ List.mem_cons_self
    · exact ih fun p hp => ht p (List.mem_cons_of_mem _ hp)

theorem modBridge_holds {n : Nat} {f : Module → Module} {s : State} (hs : law.Holds s)
    (hf : ∀ m, tabWf {} m.dies = true → tabWf {} (f m).dies = true) :
    law.Holds (modBridge n f s) := by
  refine hs.of_tables { hs.same with modules := tabWf_tabMod _ _ _, dies := fun hd m hm => ?_ }
  obtain hm | rfl := mem_tabPut hm
  · exact hd m hm
  · exact hf _ (tabGet_induct (P := fun m : Module => tabWf {} m.dies = true) rfl hd n)

theorem modDie_holds {n d : Nat} {f : Die → Die} {s : State} (hs : law.Holds s) : law.Holds (modDie n d f s) :=
  modBridge_holds hs fun _ => tabWf_tabMod _ _ _

theorem modNand_holds {n k : Nat} {f : NandBlock → NandBlock} {s : State} (hs : law.Holds s) :
    law.Holds (modNand n k f s) :=
  modBridge_holds hs fun _ e => e

theorem freeCredits_holds {n : Nat} {p : Fin 2} {cmd data : Nat} {s : State} (hs : law.Holds s) :
    law.Holds (freeCredits n p cmd data s) :=
  modBridge_holds hs fun _ h => by
    split
    · exact h
    · exact h

theorem complete_holds {op : Byte} {f : FarFrame} {status : Word16} {aux corr busy : Nat} {data : Bytes} {s : State}
    (hs : law.Holds s) :
    law.Holds (complete op f status aux corr busy data s) :=
  emit_holds (holds_ite hs (freeCredits_holds hs))

theorem nandCommand_holds {op : Byte} {f : FarFrame} {act : State → State} {s : State} (hs : law.Holds s)
    (hact : ∀ t, law.Holds t → law.Holds (act t)) :
    law.Holds (nandCommand op f act s) := by
  unfold nandCommand
  refine holds_ite hs ?_
  split
  · exact complete_holds hs
  · exact hact _ hs

theorem startOp_holds {n d : Nat} {o : DieOp} {s : State} (hs : law.Holds s) : law.Holds (startOp n d o s) :=
  freeCredits_holds (modDie_holds hs)

theorem dieServe_holds {n d k : Nat} {s : State} (hs : law.Holds s) : law.Holds (dieServe n d k s) := by
  induction k generalizing s with
  | zero => exact hs
  | succ k ih =>
    unfold dieServe
    dsimp only
    refine holds_ite hs ?_
    split
    · split
      · exact startOp_holds (modDie_holds hs)
      · exact hs
    · split
      · exact hs
      · exact holds_ite (startOp_holds (modDie_holds hs)) (ih (complete_holds (modDie_holds hs)))

theorem serveDie_holds {n d : Nat} {s : State} (hs : law.Holds s) : law.Holds (serveDie n d s) := dieServe_holds hs

theorem joinDie_holds {op : Byte} {f : FarFrame} {s : State} (hs : law.Holds s) : law.Holds (joinDie op f s) :=
  holds_ite (complete_holds hs) (serveDie_holds (modDie_holds hs))

theorem suspendDie_holds {f : FarFrame} {s : State} (hs : law.Holds s) : law.Holds (suspendDie f s) := by
  unfold suspendDie
  dsimp only
  split
  · exact holds_ite (serveDie_holds (complete_holds (modDie_holds hs))) (complete_holds hs)
  · exact complete_holds hs

theorem resumeOp_holds {n d : Nat} {s : State} (hs : law.Holds s) : law.Holds (resumeOp n d s) := modDie_holds hs

theorem resumeCommand_holds {f : FarFrame} {s : State} (hs : law.Holds s) : law.Holds (resumeCommand f s) :=
  holds_ite (complete_holds hs) (resumeOp_holds (complete_holds hs))

theorem statusCommand_holds {f : FarFrame} {s : State} (hs : law.Holds s) : law.Holds (statusCommand f s) :=
  holds_ite (complete_holds hs) (holds_ite (complete_holds hs) (holds_ite (complete_holds hs) (complete_holds hs)))

theorem abortProgram_holds {o : DieOp} {s : State} (hs : law.Holds s) : law.Holds (abortProgram o s) :=
  holds_ite (forEach_holds hs fun _ _ ht => modNand_holds ht) hs

theorem resetDie_holds {f : FarFrame} {s : State} (hs : law.Holds s) : law.Holds (resetDie f s) :=
  serveDie_holds (complete_holds
    (tick_holds (modDie_holds (forSome_holds (forSome_holds hs fun _ _ ht => abortProgram_holds ht) fun _ _ ht =>
    abortProgram_holds ht))))

theorem getInfoEffect_holds {f : FarFrame} {s : State} (hs : law.Holds s) : law.Holds (getInfoEffect f s) :=
  holds_ite (complete_holds hs) (complete_holds hs)

theorem dropOldOwner_holds {n d : Nat} {linked : Bool} {s : State} (hs : law.Holds s) :
    law.Holds (dropOldOwner n d linked s) :=
  resumeOp_holds (modDie_holds (holds_ite (forEach_holds hs fun _ _ ht => complete_holds ht) hs))

theorem acceptClaim_holds {n : Nat} {p : Fin 2} {v : Word32} {s : State} (hs : law.Holds s) :
    law.Holds (acceptClaim n p v s) :=
  holds_ite (modBridge_holds hs fun _ e => e) (holds_ite (forEach_holds (modBridge_holds hs fun _ e => e) fun _ _ ht =>
    dropOldOwner_holds ht) (emit_holds (forEach_holds (modBridge_holds hs fun _ e => e) fun _ _ ht =>
    dropOldOwner_holds ht)))

theorem arbitrate_holds {f : FarFrame} {s : State} (hs : law.Holds s) : law.Holds (arbitrate f s) :=
  holds_ite (complete_holds hs) (holds_ite (complete_holds hs) (holds_ite (complete_holds (acceptClaim_holds hs))
    (complete_holds hs)))

theorem claimEffect_holds {f : FarFrame} {rival : Option FarFrame} {s : State} (hs : law.Holds s) :
    law.Holds (claimEffect f rival s) := by
  unfold claimEffect
  split
  · exact arbitrate_holds hs
  · exact holds_ite (arbitrate_holds (arbitrate_holds hs)) (arbitrate_holds (arbitrate_holds hs))

theorem takeParams_holds {n : Nat} {s : State} (hs : law.Holds s) : law.Holds (takeParams n s) :=
  holds_ite hs (forEach_holds (modBridge_holds hs fun _ e => e) fun _ _ ht => serveDie_holds ht)

theorem paramPushEffect_holds {f : FarFrame} {s : State} (hs : law.Holds s) : law.Holds (paramPushEffect f s) :=
  holds_ite (complete_holds hs) (holds_ite (complete_holds hs)
    (takeParams_holds (complete_holds (forEach_holds hs fun _ _ ht => modBridge_holds ht fun _ e => e))))

theorem dieOperationDoneEffect_holds {n d : Nat} {r : DieOutcome} {s : State} (hs : law.Holds s) :
    law.Holds (dieOperationDoneEffect n d r s) := by
  unfold dieOperationDoneEffect
  split
  · exact hs
  · next o _ =>
    extract_lets _ _ t _ u v
    have ht : law.Holds t := holds_ite (forEach_holds hs fun _ _ h => modNand_holds h)
      (holds_ite (abortProgram_holds hs) hs)
    have hu : law.Holds u := modDie_holds ht
    have hv : law.Holds v := holds_ite (freeCredits_holds hu) (complete_holds hu)
    exact holds_ite (takeParams_holds (holds_ite hv (emit_holds hv))) (takeParams_holds (serveDie_holds hv))

theorem linkGone_dies (p : Fin 2) {m : Module} (h : tabWf {} m.dies = true) : tabWf {} (linkGone p m).dies = true := by
  have hm : tabWf ({} : Die) (if p = 0 then { m with linkA := false } else { m with linkB := false }).dies = true :=
    by split <;> exact h
  exact tabWf_map_filter {} {} (portGone p) hm

theorem portDown_holds {n : Nat} {p : Fin 2} {s : State} (hs : law.Holds s) : law.Holds (portDown n p s) :=
  takeParams_holds (modBridge_holds hs fun _ => linkGone_dies p)

theorem portLearns_holds {n : Nat} {p : Fin 2} {other : Byte} {s : State} (hs : law.Holds s) :
    law.Holds (portLearns n p other s) :=
  modBridge_holds hs fun _ h => by
    split
    · exact h
    · exact h

theorem portUp_holds {n : Nat} {p : Fin 2} {s : State} (hs : law.Holds s) : law.Holds (portUp n p s) :=
  modBridge_holds hs fun _ h => by
    split
    · exact h
    · exact h

theorem freshModule_holds {n : Nat} {s : State} (hs : law.Holds s) : law.Holds (freshModule n s) :=
  modBridge_holds hs fun _ _ => rfl

/-! ### Machine/Farium.lean -/

theorem noteClock_holds {n : Nat} {s : State} (hs : law.Holds s) : law.Holds (noteClock n s) := holds_update hs rfl

theorem faultLane_holds {n : Nat} {cause : Fin 8} {s : State} (hs : law.Holds s) : law.Holds (faultLane n cause s) :=
  raiseIf_holds (memberLost_holds (modLane_holds hs))

theorem dieOut_holds {n d : Nat} {s : State} (hs : law.Holds s) : law.Holds (dieOut n d s) :=
  memberLost_holds (modLane_holds hs)

theorem sendTs2_holds {n : Nat} {s : State} (hs : law.Holds s) : law.Holds (sendTs2 n s) :=
  emit_holds (modLane_holds hs)

theorem signalEffect_holds {n : Nat} {s : State} (hs : law.Holds s) : law.Holds (signalEffect n s) :=
  holds_ite (emit_holds (modLane_holds hs)) hs

theorem ts1Effect_holds {n : Nat} {b : Bytes} {s : State} (hs : law.Holds s) : law.Holds (ts1Effect n b s) :=
  holds_ite hs (holds_ite (modLane_holds hs) (holds_ite (modLane_holds hs) (sendTs2_holds (modLane_holds hs))))

theorem laneActive_holds {n : Nat} {b : Bytes} {s : State} (hs : law.Holds s) : law.Holds (laneActive n b s) :=
  sendNow_holds (emit_holds (noteClock_holds (portUp_holds (holds_ite (freshModule_holds (modLane_holds hs))
    (modLane_holds hs)))))

theorem ts2Effect_holds {n : Nat} {b : Bytes} {s : State} (hs : law.Holds s) : law.Holds (ts2Effect n b s) :=
  holds_ite hs (holds_ite (sendTs2_holds (modLane_holds hs)) (holds_ite (sendTs2_holds (modLane_holds hs))
    (holds_ite (laneActive_holds (portLearns_holds hs))
    (raise_holds (faultLane_holds (modLane_holds (portLearns_holds hs)))))))

theorem trainTimeoutEffect_holds {n : Nat} {s : State} (hs : law.Holds s) : law.Holds (trainTimeoutEffect n s) :=
  holds_ite hs (holds_ite (closeOpenWith_holds (modLane_holds hs)) (raiseIf_holds (modLane_holds hs)))

theorem retryEffect_holds {n : Nat} {s : State} (hs : law.Holds s) : law.Holds (retryEffect n s) :=
  holds_ite (modLane_holds hs) hs

theorem onActive_holds {n : Nat} {f : State → State} {s : State} (hs : law.Holds s)
    (hf : ∀ t, law.Holds t → law.Holds (f t)) :
    law.Holds (onActive n f s) :=
  holds_ite (hf _ hs) hs

theorem linkDown_holds {n : Nat} {s : State} (hs : law.Holds s) : law.Holds (linkDown n s) :=
  holds_ite (noteClock_holds (portDown_holds (modLane_holds hs))) hs

theorem quietEffect_holds {n : Nat} {s : State} (hs : law.Holds s) : law.Holds (quietEffect n s) :=
  holds_ite (modLane_holds hs) (linkDown_holds hs)

theorem replayLane_holds {n : Nat} {s : State} (hs : law.Holds s) : law.Holds (replayLane n s) :=
  holds_ite hs (holds_ite (linkDown_holds hs) (forEach_holds (emit_holds (holds_update (modLane_holds hs) rfl))
    fun _ _ ht => emit_holds ht))

theorem sendLink_holds {n : Nat} {nak : Bool} {s : State} (hs : law.Holds s) : law.Holds (sendLink n nak s) :=
  emit_holds (modLane_holds hs)

theorem badFrame_holds {n : Nat} {l : FrameLink} {s : State} (hs : law.Holds s) : law.Holds (badFrame n l s) :=
  sendLink_holds (modLane_holds (holds_ite hs (holds_update hs rfl)))

theorem takeFrame_holds {n : Nat} {l : FrameLink} {f : State → State} {s : State} (hs : law.Holds s)
    (hf : ∀ t, law.Holds t → law.Holds (f t)) :
    law.Holds (takeFrame n l f s) :=
  holds_ite hs (holds_ite (badFrame_holds hs) (hf _ (holds_ite (sendLink_holds (modLane_holds hs)) (modLane_holds hs))))

theorem linkFrameEffect_holds {n : Nat} {f : LinkFrame} {s : State} (hs : law.Holds s) :
    law.Holds (linkFrameEffect n f s) :=
  holds_ite hs (holds_ite (badFrame_holds hs) (serveLane_holds (holds_ite (replayLane_holds (modLane_holds hs))
    (modLane_holds hs))))

theorem bridgeLinks_holds {n : Nat} {s : State} (hs : law.Holds s) : law.Holds (bridgeLinks n s) :=
  modBridge_holds (holds_ite (emit_holds (holds_ite (emit_holds hs) hs)) (holds_ite (emit_holds hs) hs)) fun _ e => e

theorem sendClaim_holds {n v : Nat} {s : State} (hs : law.Holds s) : law.Holds (sendClaim n v s) :=
  holds_ite hs (farUrgent_holds (modLane_holds hs))

theorem takeModule_holds {n : Nat} {s : State} (hs : law.Holds s) : law.Holds (takeModule n s) := sendClaim_holds hs

theorem seeClaim_holds {n : Nat} {v : Word32} {s : State} (hs : law.Holds s) : law.Holds (seeClaim n v s) :=
  modLane_holds hs

theorem placeModule_holds {n owner : Nat} {s : State} (hs : law.Holds s) : law.Holds (placeModule n owner s) :=
  holds_ite (sendClaim_holds hs) (holds_ite (takeModule_holds hs) (holds_ite (modLane_holds hs) hs))

theorem claimIdentified_holds {s : State} (hs : law.Holds s) : law.Holds (claimIdentified s) :=
  forEach_holds hs fun _ _ ht => holds_ite (placeModule_holds ht) ht

theorem claimPeerHeld_holds {s : State} (hs : law.Holds s) : law.Holds (claimPeerHeld s) :=
  forEach_holds hs fun _ _ ht => holds_ite (takeModule_holds ht) ht

theorem takeoverCheck_holds {s : State} (hs : law.Holds s) : law.Holds (takeoverCheck s) :=
  holds_ite (holds_update hs rfl) hs

theorem pushAll_holds {n : Nat} {s : State} (hs : law.Holds s) : law.Holds (pushAll n s) := farUrgent_holds hs

theorem dropOut_holds {n tag : Nat} {s : State} (hs : law.Holds s) : law.Holds (dropOut n tag s) := modLane_holds hs

theorem modOut_holds {n tag : Nat} {f : FarOut → FarOut} {s : State} (hs : law.Holds s) :
    law.Holds (modOut n tag f s) :=
  modLane_holds hs

theorem dieRunEnds_holds {n d : Nat} {s : State} (hs : law.Holds s) : law.Holds (dieRunEnds n d s) := by
  unfold dieRunEnds
  dsimp only
  split
  · exact noteDieRun_holds (holds_update hs rfl)
  · exact holds_update hs rfl

theorem resumeOut_holds {n : Nat} {s : State} (hs : law.Holds s) : law.Holds (resumeOut n s) :=
  forEach_holds (forEach_holds (modLane_holds hs) fun _ _ ht => farSend_holds ht) fun _ _ ht => farSend_holds ht

theorem identified_holds {n : Nat} {page : Bytes} {s : State} (hs : law.Holds s) : law.Holds (identified n page s) := by
  unfold identified
  extract_lets t u _ v
  have hu : law.Holds u := seeClaim_holds (modLane_holds hs)
  have hv : law.Holds v := modBridge_holds (holds_ite (modLane_holds (freshModule_holds hu)) hu) fun _ e => e
  exact holds_ite (raise_holds (faultLane_holds hs)) (holds_ite hv (placeModule_holds hv))

theorem claimWon_holds {n : Nat} {s : State} (hs : law.Holds s) : law.Holds (claimWon n s) :=
  takeoverCheck_holds (holds_ite (farUrgent_holds (pushAll_holds (modLane_holds (holds_update hs rfl))))
    (pushAll_holds (modLane_holds (holds_update hs rfl))))

theorem moduleHeld_holds {n : Nat} {s : State} (hs : law.Holds s) : law.Holds (moduleHeld n s) :=
  holds_ite (serveLane_holds (resumeOut_holds (modLane_holds hs))) hs

theorem moduleTaken_holds {n : Nat} {s : State} (hs : law.Holds s) : law.Holds (moduleTaken n s) :=
  holds_ite (modLane_holds hs) (superseded_holds (raise_holds (modLane_holds hs)))

theorem claimRefused_holds {n : Nat} {s : State} (hs : law.Holds s) : law.Holds (claimRefused n s) :=
  holds_ite (takeModule_holds (modLane_holds hs)) (takeoverCheck_holds (modLane_holds hs))

theorem protocolFault_holds {n : Nat} {status : Word16} {now : Nat} {s : State} (hs : law.Holds s) :
    law.Holds (protocolFault n status now s) :=
  holds_ite (faultLane_holds (raise_holds (modLane_holds hs))) (raise_holds (modLane_holds hs))

theorem eraseFailed_holds {n : Nat} {c : FarCmd} {s : State} (hs : law.Holds s) : law.Holds (eraseFailed n c s) := by
  unfold eraseFailed
  split
  · exact jobsForMissing_holds (retireBlocks_holds hs)
  · exact hs

theorem granuleRead_holds {n : Nat} {o : FarCmd} {data : Bytes} {s : State} (hs : law.Holds s) :
    law.Holds (granuleRead n o data s) :=
  holds_ite (toPeer_holds (holds_update hs rfl)) hs

theorem oldStatus_holds {n d : Nat} {r : Bytes} {s : State} (hs : law.Holds s) : law.Holds (oldStatus n d r s) :=
  holds_ite hs (holds_ite (eraseFailed_holds hs) (holds_ite (forSome_holds hs fun _ _ ht => jobsForMissing_holds
    (reclaimSeg_holds (raise_holds (retireBlocks_holds ht)))) hs))

theorem statusRead_holds {n : Nat} {o : FarCmd} {data : Bytes} {s : State} (hs : law.Holds s) :
    law.Holds (statusRead n o data s) :=
  holds_ite (forEach_holds hs fun _ _ ht => oldStatus_holds ht) hs

theorem completionAct_holds {c : FarCompletion} {o : FarOut} {s : State} (hs : law.Holds s) :
    law.Holds (completionAct c o s) :=
  holds_ite (holds_ite (identified_holds hs) (holds_ite (claimWon_holds hs) (holds_ite (moduleHeld_holds hs)
    (holds_ite (granuleRead_holds hs) (holds_ite (statusRead_holds hs) hs))))) (holds_ite (holds_update hs rfl)
    (holds_ite (holds_ite hs (raise_holds hs)) (holds_ite (holds_ite (reservedFailed_holds hs) hs)
    (holds_ite (holds_ite (reservedFailed_holds hs) (eraseFailed_holds hs)) (holds_ite (moduleTaken_holds hs)
    (holds_ite (claimRefused_holds hs) (holds_ite (holds_ite hs (modLane_holds (resend_holds (pushAll_holds hs))))
    (holds_ite (protocolFault_holds hs) (holds_ite (dieOut_holds hs) hs)))))))))

theorem completionEffect_holds {c : FarCompletion} {s : State} (hs : law.Holds s) :
    law.Holds (completionEffect c s) := by
  unfold completionEffect
  dsimp only
  split
  · exact seeClaim_holds hs
  · exact serveLane_holds (completionAct_holds (holds_ite (dieRunEnds_holds (dropOut_holds (seeClaim_holds hs)))
      (dropOut_holds (seeClaim_holds hs))))

theorem noticeEffect_holds {n : Nat} {code : Byte} {aux : Word32} {s : State} (hs : law.Holds s) :
    law.Holds (noticeEffect n code aux s) :=
  holds_ite (moduleTaken_holds (seeClaim_holds hs)) (holds_ite (dieOut_holds hs) (holds_ite (portDown_holds hs)
    (holds_ite (portUp_holds hs) hs)))

theorem commandTimeoutEffect_holds {n tag : Nat} {st : DieStatus} {s : State} (hs : law.Holds s) :
    law.Holds (commandTimeoutEffect n tag st s) := by
  unfold commandTimeoutEffect
  split
  · exact hs
  · extract_lets _ _ t
    have ht : law.Holds t := modOut_holds (holds_update hs rfl)
    have hdrop : law.Holds (dropOut n tag t) := dropOut_holds ht
    refine holds_ite (holds_ite (dieRunEnds_holds hdrop) ?_) (holds_ite (farUrgent_holds ht)
      (dieOut_holds (dieRunEnds_holds hdrop)))
    exact holds_ite (modOut_holds (resend_holds ht)) ht

theorem settleByStatus_holds {n : Nat} {st : DieStatus} {o : FarOut} {s : State} (hs : law.Holds s) :
    law.Holds (settleByStatus n st o s) :=
  holds_ite (farSend_holds hs) (holds_ite (holds_ite (reservedFailed_holds hs) (eraseFailed_holds hs))
    (holds_ite (reservedFailed_holds hs) hs))

theorem pollEffect_holds {n d : Nat} {st : DieStatus} {s : State} (hs : law.Holds s) :
    law.Holds (pollEffect n d st s) :=
  holds_ite (farSend_holds hs) (holds_ite (dieOut_holds (dieRunEnds_holds (modLane_holds hs)))
    (forEach_holds (dieRunEnds_holds (modLane_holds hs)) fun _ _ ht => settleByStatus_holds ht))

theorem claimResendEffect_holds {s : State} (hs : law.Holds s) : law.Holds (claimResendEffect s) :=
  holds_ite hs (forEach_holds (holds_update hs rfl) fun _ _ ht => takeModule_holds (modLane_holds ht))

theorem claimDeadlineEffect_holds {s : State} (hs : law.Holds s) : law.Holds (claimDeadlineEffect s) :=
  holds_ite hs (takeoverCheck_holds (forEach_holds hs fun _ _ ht => raise_holds (faultLane_holds ht)))

/-! ### Machine/Parity.lean -/

theorem lostExpiryEffect_holds {n : Nat} {s : State} (hs : law.Holds s) : law.Holds (lostExpiryEffect n s) :=
  holds_ite (noteVacated_holds (memberLost_holds (modLane_holds hs))) hs

theorem reconstructEffect_holds {id : Nat} {src : List (Nat × Option Bytes)} {s : State} (hs : law.Holds s) :
    law.Holds (reconstructEffect id src s) := by
  unfold reconstructEffect
  split
  · exact hs
  · split
    · exact endJob_holds hs
    · split
      · exact endJob_holds hs
      · refine holds_ite hs ?_
        split
        · exact endJob_holds hs
        · exact holds_ite (holds_update hs rfl) (modJob_holds (holds_update hs rfl))

theorem rebuildPassed_holds {j : ReadJob} {e : ChunkEnt} {a : Bytes × Bytes} {s : State} (hs : law.Holds s) :
    law.Holds (rebuildPassed j e a s) := by
  unfold rebuildPassed
  extract_lets _ t u _ v
  have hu : law.Holds u := alsoRelocate_holds (modEnt_holds (modJob_holds hs))
  clear_value u
  have hv : law.Holds v := holds_ite (holds_update hu rfl) hu
  exact holds_ite (raise_holds hv) (raise_holds hv)

theorem rebuildFailed_holds {j : ReadJob} {e : ChunkEnt} {l : List (Bytes × Bytes)} {s : State} (hs : law.Holds s) :
    law.Holds (rebuildFailed j e l s) :=
  failJob_holds (holds_ite (countSealFailed_holds (holds_update hs rfl)) (holds_update hs rfl))

theorem faultNewer_holds {e : ChunkEnt} {s : State} (hs : law.Holds s) : law.Holds (faultNewer e s) := by
  unfold faultNewer
  split
  · exact forSome_holds hs fun _ _ ht => raise_holds (faultLane_holds ht)
  · exact hs

theorem baleRebuildEffect_holds {id : Nat} {src : List (Nat × Option Bytes)} {w : Bytes} {s : State}
    (hs : law.Holds s) :
    law.Holds (baleRebuildEffect id src w s) := by
  unfold baleRebuildEffect
  split
  · exact hs
  · split
    · exact endJob_holds hs
    · refine holds_ite hs (holds_ite (endJob_holds hs) (holds_ite (rebuildFailed_holds (faultNewer_holds hs)) ?_))
      dsimp only
      split
      · exact rebuildPassed_holds hs
      · exact rebuildFailed_holds hs

theorem processed_holds {id no granules : Nat} {s : State} (hs : law.Holds s) :
    law.Holds (processed id no granules s) := by
  unfold processed
  dsimp only
  split
  · exact holds_ite (writeCkpt_holds (modJobOf_holds hs)) (modJobOf_holds hs)
  · exact modJobOf_holds hs

theorem nextPhase_holds {id : Nat} {s : State} (hs : law.Holds s) : law.Holds (nextPhase id s) :=
  writeCkpt_holds (modJobOf_holds (writeCkpt_holds hs))

theorem waitForRoom_holds {j : Job} {s : State} (hs : law.Holds s) : law.Holds (waitForRoom j s) :=
  raiseIf_holds (modJobOf_holds hs)

theorem rebuildStep_holds {j : Job} {s : State} (hs : law.Holds s) : law.Holds (rebuildStep j s) := by
  unfold rebuildStep
  refine holds_ite ?_ ?_
  · split
    · exact holds_ite (waitForRoom_holds hs) (processed_holds (reclaimSeg_holds (modJobOf_holds hs)))
    · exact holds_ite hs (nextPhase_holds (modJobOf_holds hs))
  · split
    · exact holds_ite (waitForRoom_holds hs) (processed_holds (alsoRelocate_holds (modJobOf_holds hs)))
    · exact holds_ite hs (noteVacated_holds (endTask_holds (modJobOf_holds hs)))

theorem reshapeStep_holds {j : Job} {s : State} (hs : law.Holds s) : law.Holds (reshapeStep j s) := by
  unfold reshapeStep
  refine holds_ite (modJobOf_holds hs) ?_
  dsimp only
  split
  · exact processed_holds (reclaimSeg_holds (modJobOf_holds hs))
  · exact noteVacated_holds (endTask_holds (modJobOf_holds hs))

theorem besideStep_holds {j : Job} {s : State} (hs : law.Holds s) : law.Holds (besideStep j s) := by
  unfold besideStep
  refine holds_ite hs ?_
  split
  · exact processed_holds (alsoRelocate_holds hs)
  · exact holds_ite hs (nextPhase_holds hs)

theorem jobStepEffect_holds {s : State} (hs : law.Holds s) : law.Holds (jobStepEffect s) := by
  unfold jobStepEffect
  refine holds_ite hs ?_
  split
  · exact hs
  · refine holds_ite hs ?_
    dsimp only
    split
    · exact rebuildStep_holds (tick_holds hs)
    · exact reshapeStep_holds (tick_holds hs)
    · exact besideStep_holds (tick_holds hs)

theorem ckptTimerEffect_holds {s : State} (hs : law.Holds s) : law.Holds (ckptTimerEffect s) :=
  holds_ite hs (forEach_holds hs fun _ _ ht => writeCkpt_holds ht)

theorem resumeTask_holds {c : JobCkpt} {s : State} (hs : law.Holds s) : law.Holds (resumeTask c s) :=
  addTask_holds (holds_update hs rfl)

theorem besideStartEffect_holds {s : State} (hs : law.Holds s) : law.Holds (besideStartEffect s) :=
  holds_ite hs (holds_ite (addTask_holds (holds_update hs rfl)) (holds_update hs rfl))

theorem besideSwitched_holds {s : State} (hs : law.Holds s) : law.Holds (besideSwitched s) := by
  unfold besideSwitched
  split
  · exact hs
  · exact endTask_holds (holds_update hs rfl)

theorem patrolBale_holds {f : PatrolFinding} {no : Nat} {s : State} (hs : law.Holds s) :
    law.Holds (patrolBale f no s) :=
  holds_ite (raise_holds (alsoRelocate_holds (holds_update hs rfl))) (raise_holds (holds_update hs rfl))

theorem patrolFound_holds {f : PatrolFinding} {s : State} (hs : law.Holds s) : law.Holds (patrolFound f s) := by
  unfold patrolFound
  extract_lets _ _ t _ u
  have ht : law.Holds t := forEach_holds hs fun _ _ h => patrolBale_holds h
  clear_value t
  have hu : law.Holds u := holds_ite (raise_holds (alsoRelocate_holds (holds_update ht rfl))) ht
  exact holds_ite (raise_holds (reclaimSeg_holds hu)) hu

theorem patrolEffect_holds {f : PatrolFinding} {s : State} (hs : law.Holds s) : law.Holds (patrolEffect f s) := by
  unfold patrolEffect
  split
  · exact hs
  · exact holds_ite hs (holds_ite (reclaimSeg_holds (countRefresh_holds (patrolFound_holds (holds_update hs rfl))))
      (patrolFound_holds (holds_update hs rfl)))

/-! ### Machine/Tilask.lean -/

theorem initArray_holds {s : State} (hs : law.Holds s) : law.Holds (initArray s) :=
  holds_ite (holds_update (holds_ite (tick_holds (holds_update hs rfl)) hs) rfl)
    (holds_ite (tick_holds (holds_update hs rfl)) hs)

theorem takeRoot_holds {root : Bytes} {s : State} (hs : law.Holds s) : law.Holds (takeRoot root s) := by
  unfold takeRoot
  dsimp only
  split
  · split
    · exact holds_update hs rfl
    · exact holds_update hs rfl
  · exact hs

theorem initModule_holds {n : Nat} {s : State} (hs : law.Holds s) : law.Holds (initModule n s) := by
  have ht : law.Holds (initArray s) := initArray_holds hs
  exact renewSuper_holds (ht.of_tables { ht.same with floor := tabWf_tabPut _ _ _ })

theorem takeSuper_holds {n : Nat} {b : Bytes} {block next : Nat} {root : Bytes} {s : State} (hs : law.Holds s) :
    law.Holds (takeSuper n b block next root s) :=
  takeRoot_holds (hs.of_tables { hs.same with floor := tabWf_tabPut _ _ _ })

theorem superblockEffect_holds {n : Nat} {b : Bytes} {block next : Nat} {root : Bytes} {s : State} (hs : law.Holds s) :
    law.Holds (superblockEffect n b block next root s) :=
  holds_ite hs (holds_ite (raise_holds (faultLane_holds hs)) (holds_ite (initModule_holds hs) (takeSuper_holds hs)))

theorem rootRecordedEffect_holds {lanes : List Nat} {s : State} (hs : law.Holds s) :
    law.Holds (rootRecordedEffect lanes s) :=
  holds_ite hs (holds_update hs rfl)

theorem rootsIfDue_holds {s : State} (hs : law.Holds s) : law.Holds (rootsIfDue s) := holds_ite (writeRoots_holds hs) hs

theorem raiseFloor_holds {s : State} (hs : law.Holds s) : law.Holds (raiseFloor s) :=
  forEach_holds hs fun _ _ ht =>
    holds_ite ht (holds_ite ht (renewSuper_holds (ht.of_tables { ht.same with floor := tabWf_tabPut _ _ _ })))

theorem checkpointCompleteEffect_holds {s : State} (hs : law.Holds s) : law.Holds (checkpointCompleteEffect s) :=
  holds_ite hs (raiseFloor_holds (besideSwitched_holds (sweepObjs_holds (holds_update hs rfl))))

theorem programGranule_holds {n : Nat} {b : Bytes} {s : State} (hs : law.Holds s) : law.Holds (programGranule n b s) :=
  holds_update (forEach_holds hs fun _ _ ht => farSend_holds ht) rfl

theorem sendGranule_holds {s : State} (hs : law.Holds s) : law.Holds (sendGranule s) :=
  holds_update (forEach_holds hs fun _ _ ht => programGranule_holds ht) rfl

theorem granuleWriteEffect_holds {s : State} (hs : law.Holds s) : law.Holds (granuleWriteEffect s) :=
  holds_ite hs (sendGranule_holds (holds_update hs rfl))

theorem programMark_holds {w : Nat} {p : Nat × Nat × Nat} {s : State} (hs : law.Holds s) :
    law.Holds (programMark w p s) :=
  holds_ite hs (writeNor_holds hs)

theorem granuleDoneEffect_holds {good : Bool} {s : State} (hs : law.Holds s) : law.Holds (granuleDoneEffect good s) :=
  holds_ite hs (holds_ite (sendGranule_holds hs) (holds_update (forEach_holds hs fun _ _ ht => programMark_holds
    ht) rfl))

theorem eraseArea_holds {s : State} (hs : law.Holds s) : law.Holds (eraseArea s) :=
  forEach_holds hs fun _ _ ht => holds_update (forEach_holds ht fun _ _ hu => farSend_holds hu) rfl

theorem objectWriteEffect_holds {s : State} (hs : law.Holds s) : law.Holds (objectWriteEffect s) :=
  holds_ite hs (holds_ite (holds_update (newObject_holds hs) rfl) (holds_update (newObject_holds hs) rfl))

theorem objectLanded_holds {s : State} (hs : law.Holds s) : law.Holds (objectLanded s) := by
  unfold objectLanded
  split
  · exact hs
  · split
    · exact holds_update hs rfl
    · exact holds_ite hs
        (holds_ite (eraseArea_holds (holds_update (forEach_holds hs fun _ _ ht => programMark_holds ht) rfl))
        (holds_update (forEach_holds hs fun _ _ ht => programMark_holds ht) rfl))

/-! ### Machine/Snap.lean -/

theorem modSnap_holds {n q : Nat} {f : Snap → Snap} {s : State} (hs : law.Holds s) : law.Holds (modSnap n q f s) :=
  holds_update hs rfl

theorem modSess_holds {n : Nat} {f : Sess → Sess} {s : State} (hs : law.Holds s) : law.Holds (modSess n f s) :=
  holds_update hs rfl

theorem plainDone_holds {d : AdminDone} (hs : law.Holds d.2.2) : law.Holds (plainDone d).2.2.2 := hs

theorem endSnap_holds {w : Waiter} {d : SnapDone} (hs : law.Holds d.2.2.2) : law.Holds (endSnap w d) :=
  answerTo_holds (holds_ite (toHost_holds hs) hs)

theorem relaySnap_holds {w : Waiter} {s : State} (hs : law.Holds s) : law.Holds (relaySnap w s) :=
  toPeer_holds (addCmd_holds hs le_rfl)

theorem snapCommand_holds {f : Waiter → State → State} {w : Waiter} {s : State} (hs : law.Holds s)
    (hf : ∀ y1 t, law.Holds t → law.Holds (f y1 t)) :
    law.Holds (snapCommand f w s) :=
  holds_ite (holds_ite (relaySnap_holds hs) (answerCmd_holds hs)) (hf _ _ hs)

theorem snapRow_holds {f : Waiter → State → State} {c : HostCmd} {s : State} (hs : law.Holds s)
    (hf : ∀ y1 t, law.Holds t → law.Holds (f y1 t)) :
    law.Holds (snapRow f c s) :=
  fetchRow_holds hs fun _ _ ht => snapCommand_holds ht hf

theorem snapNow_holds {f : HostCmd → State → SnapDone} {w : Waiter} {s : State} (hs : law.Holds s)
    (hf : ∀ c t, law.Holds t → law.Holds (f c t).2.2.2) :
    law.Holds (snapNow f w s) :=
  endSnap_holds (hf _ _ hs)

theorem cgSetCmd_holds {c : HostCmd} {s : State} (hs : law.Holds s) : law.Holds (cgSetCmd c s).2.2 := by
  unfold cgSetCmd
  dsimp only
  exact done_ite_holds hs (done_ite_holds hs (hs.of_tables { hs.same with groups := tabWf_tabPut _ _ _ }))

theorem cgSetDo_holds {x1 : Waiter} {x2 : State} (hs : law.Holds x2) : law.Holds (cgSetDo x1 x2) :=
  snapNow_holds hs fun _ _ ht => plainDone_holds (cgSetCmd_holds ht)

theorem snapCreateStart_holds {w : Waiter} {s : State} (hs : law.Holds s) : law.Holds (snapCreateStart w s) := by
  unfold snapCreateStart
  refine holds_ite (answerCmd_holds hs) ?_
  split
  · exact answerCmd_holds hs
  · exact holds_ite (answerCmd_holds hs) (holds_update (addCmd_holds hs le_rfl) rfl)

theorem recordCut_holds {id : Nat} {label : Bytes} {g : Option Nat} {l : List Nat} {s : State} (hs : law.Holds s) :
    law.Holds (recordCut id label g l s) :=
  holds_update hs rfl

theorem snapCutEffect_holds {id : Nat} {s : State} (hs : law.Holds s) : law.Holds (snapCutEffect id s) := by
  unfold snapCutEffect
  split
  · split
    · exact holds_ite (readmit_holds (recordCut_holds (forEach_holds hs fun _ _ ht => startRun_holds ht))) hs
    · exact hs
  · exact hs

theorem freezeRoot_holds {x : Snap} {s : State} (hs : law.Holds s) : law.Holds (freezeRoot x s) := modSnap_holds hs

theorem snapCompleteEffect_holds {id : Nat} {s : State} (hs : law.Holds s) : law.Holds (snapCompleteEffect id s) :=
  holds_ite hs (finishCmd_holds (forEach_holds hs fun _ _ ht => freezeRoot_holds ht))

theorem snapDeleteCmd_holds {c : HostCmd} {s : State} (hs : law.Holds s) : law.Holds (snapDeleteCmd c s).2.2 := by
  unfold snapDeleteCmd
  split
  · exact hs
  · split
    · exact hs
    · exact done_ite_holds hs (startSnapDelete_holds hs)

theorem snapDeleteDo_holds {x1 : Waiter} {x2 : State} (hs : law.Holds x2) : law.Holds (snapDeleteDo x1 x2) :=
  snapNow_holds hs fun _ _ ht => plainDone_holds (snapDeleteCmd_holds ht)

theorem walkEndEffect_holds {n q : Nat} {s : State} (hs : law.Holds s) : law.Holds (walkEndEffect n q s) := by
  unfold walkEndEffect
  split
  · exact hs
  · exact holds_ite hs (holds_update (dropEntries_holds hs) rfl)

theorem snapListCmd_holds {c : HostCmd} {s : State} (hs : law.Holds s) : law.Holds (snapListCmd c s).2.2.2 := by
  unfold snapListCmd
  split <;> exact hs

theorem snapExposeCmd_holds {c : HostCmd} {s : State} (hs : law.Holds s) : law.Holds (snapExposeCmd c s).2.2 := by
  unfold snapExposeCmd
  split
  · exact hs
  · exact hs
  · split
    · exact hs
    · refine done_ite_holds hs ?_
      split
      · exact hs
      · exact holds_update (modSnap_holds (tick_holds hs)) rfl

theorem snapExposeDo_holds {x1 : Waiter} {x2 : State} (hs : law.Holds x2) : law.Holds (snapExposeDo x1 x2) :=
  snapNow_holds hs fun _ _ ht => plainDone_holds (snapExposeCmd_holds ht)

theorem addSess_holds {x : Sess} {s : State} (hs : law.Holds s) : law.Holds (addSess x s) :=
  holds_ite (holds_update hs rfl) (holds_update (holds_update hs rfl) rfl)

theorem replPairCmd_holds {ids : List Word64} {sealed_ : Bool} {c : HostCmd} {s : State} (hs : law.Holds s) :
    law.Holds (replPairCmd ids sealed_ c s).2.2 := by
  unfold replPairCmd
  split
  · exact hs
  · exact hs
  · exact done_ite_holds hs (done_ite_holds hs (done_ite_holds (answered_holds (addSess_holds hs))
      (done_ite_holds hs (done_ite_holds hs (answered_holds (addSess_holds hs))))))

theorem ingestCmd_holds {c : HostCmd} {s : State} (hs : law.Holds s) : law.Holds (ingestCmd c s).2.2 := by
  unfold ingestCmd
  split
  · exact hs
  · exact done_ite_holds hs (done_ite_holds hs (done_ite_holds hs (answered_holds (addSess_holds hs))))

theorem discardBatch_holds {b : Batch} {s : State} (hs : law.Holds s) : law.Holds (discardBatch b s) :=
  holds_update (dropBatchRefs_holds hs) rfl

theorem discardBatches_holds {n : Nat} {s : State} (hs : law.Holds s) : law.Holds (discardBatches n s) := by
  unfold discardBatches
  split
  · exact hs
  · exact modSess_holds (holds_ite hs (forEach_holds hs fun _ _ ht => discardBatch_holds ht))

theorem suspendSess_holds {n : Nat} {s : State} (hs : law.Holds s) : law.Holds (suspendSess n s) :=
  discardBatches_holds (modSess_holds hs)

theorem endSess_holds {n : Nat} {s : State} (hs : law.Holds s) : law.Holds (endSess n s) :=
  holds_update (discardBatches_holds hs) rfl

theorem replStopCmd_holds {c : HostCmd} {s : State} (hs : law.Holds s) : law.Holds (replStopCmd c s).2.2 := by
  unfold replStopCmd
  split
  · exact hs
  · exact done_ite_holds hs (endSess_holds hs)

theorem replStopDo_holds {x1 : Waiter} {x2 : State} (hs : law.Holds x2) : law.Holds (replStopDo x1 x2) :=
  snapNow_holds hs fun _ _ ht => plainDone_holds (replStopCmd_holds ht)

theorem replStatusCmd_holds {c : HostCmd} {s : State} (hs : law.Holds s) : law.Holds (replStatusCmd c s).2.2.2 := by
  unfold replStatusCmd
  split <;> exact hs

/-! ### Machine/Rdma.lean -/

theorem modRc_holds {n : Nat} {f : RcQp → RcQp} {s : State} (hs : law.Holds s) : law.Holds (modRc n f s) :=
  holds_update hs rfl

theorem equip_holds {qpn : Nat} {s : State} (hs : law.Holds s) : law.Holds (equip qpn s) := by
  unfold equip
  split
  · exact hs
  · exact modRc_holds (holds_update hs rfl)

theorem idleCaravans_holds {qpn : Nat} {s : State} (hs : law.Holds s) : law.Holds (idleCaravans qpn s) :=
  forEach_holds (holds_update hs rfl) fun _ _ ht => emit_holds ht

theorem removeRc_holds {qpn : Nat} {s : State} (hs : law.Holds s) : law.Holds (removeRc qpn s) :=
  holds_update (idleCaravans_holds hs) rfl

theorem suspendOn_holds {q : RcQp} {s : State} (hs : law.Holds s) : law.Holds (suspendOn q s) := by
  unfold suspendOn
  refine holds_ite hs ?_
  split
  · exact suspendSess_holds hs
  · exact hs

theorem qpError_holds {qpn : Nat} {s : State} (hs : law.Holds s) : law.Holds (qpError qpn s) := by
  unfold qpError
  split
  · exact hs
  · exact suspendOn_holds (idleCaravans_holds (modRc_holds (holds_update hs rfl)))

theorem settleRules_holds {s : State} (hs : law.Holds s) : law.Holds (settleRules s) :=
  holds_ite (forEach_holds (holds_update hs rfl) fun _ _ ht => emit_holds ht) hs

theorem nakError_holds {q : RcQp} {psn cause : Nat} {s : State} (hs : law.Holds s) :
    law.Holds (nakError q psn cause s) :=
  settleRules_holds (qpError_holds (emit_holds hs))

theorem modPath_holds {a : Nat} {f : Path → Path} {s : State} (hs : law.Holds s) : law.Holds (modPath a f s) :=
  hs.of_tables { hs.same with paths := tabWf_tabMod _ _ _ }

theorem endRelay_holds {r : Relay} {status : Word16} {s : State} (hs : law.Holds s) : law.Holds (endRelay r status s) :=
  finishCmd_holds (holds_update hs rfl)

theorem settleLost_holds {s : State} (hs : law.Holds s) : law.Holds (settleLost s) :=
  forEach_holds hs fun _ _ ht => endRelay_holds ht

theorem movePort_holds {a p : Nat} {s : State} (hs : law.Holds s) : law.Holds (movePort a p s) := by
  unfold movePort
  split
  · exact hs
  · exact holds_update hs rfl

theorem dropPath_holds {a p : Nat} {s : State} (hs : law.Holds s) : law.Holds (dropPath a p s) :=
  settleLost_holds (movePort_holds (modPath_holds hs))

theorem retriesOut_holds {q : RcQp} {s : State} (hs : law.Holds s) : law.Holds (retriesOut q s) :=
  holds_ite (dropPath_holds (settleRules_holds (qpError_holds hs))) (settleRules_holds (qpError_holds hs))

theorem peerEpochSeen_holds {e : Word16} {s : State} (hs : law.Holds s) : law.Holds (peerEpochSeen e s) :=
  holds_ite (tellEpoch_holds (noteAlive_holds (holds_update (holds_ite hs (superseded_holds hs)) rfl))) hs

theorem settleStale_holds {a : Nat} {e : Word16} {s : State} (hs : law.Holds s) : law.Holds (settleStale a e s) :=
  forEach_holds hs fun _ _ ht => endRelay_holds ht

theorem supersedePath_holds {a : Nat} {e : Word16} {s : State} (hs : law.Holds s) : law.Holds (supersedePath a e s) :=
  holds_ite (modPath_holds hs) hs

theorem learnEpoch_holds {a : Nat} {e : Word16} {s : State} (hs : law.Holds s) : law.Holds (learnEpoch a e s) :=
  holds_ite (holds_ite hs (peerEpochSeen_holds hs))
    (holds_ite (settleStale_holds (modPath_holds (modPath_holds (supersedePath_holds hs)))) hs)

theorem refuseStale_holds {relayId dst : Nat} {s : State} (hs : law.Holds s) : law.Holds (refuseStale relayId dst s) :=
  emit_holds (holds_update hs rfl)

theorem countDiscard_holds {s : State} (hs : law.Holds s) : law.Holds (countDiscard s) := holds_update hs rfl

theorem tenantReject_holds {q : RcQp} {p : Packet} {s : State} (hs : law.Holds s) : law.Holds (tenantReject q p s) :=
  nakError_holds (raise_holds (holds_update hs rfl))

theorem packetRow_holds {p : Packet} {f : RcQp → State → State} {s : State} (hs : law.Holds s)
    (hf : ∀ y1 t, law.Holds t → law.Holds (f y1 t)) :
    law.Holds (packetRow p f s) := by
  unfold packetRow
  refine holds_ite hs (holds_ite (countDiscard_holds hs) ?_)
  split
  · exact hs
  · exact holds_ite (tenantReject_holds hs) (hf _ _ hs)

theorem sendAck_holds {q : RcQp} {p : Packet} {s : State} (hs : law.Holds s) : law.Holds (sendAck q p s) :=
  emit_holds hs

theorem repost_holds {qpn : Nat} {r : Nat × Nat × Option Nat} {s : State} (hs : law.Holds s) :
    law.Holds (repost qpn r s) :=
  tick_holds (holds_ite (modRc_holds hs) hs)

theorem deliverSend_holds {q : RcQp} {r : Nat × Nat × Option Nat} {p : Packet} {s : State} (hs : law.Holds s) :
    law.Holds (deliverSend q r p s) := by
  have ht : law.Holds (sendAck q p { s with dram := cellsWrite dramDefault p.bytes (r.1 + q.got) s.dram }) :=
    sendAck_holds (writeDram_holds hs)
  exact holds_ite (settleRules_holds (repost_holds (modRc_holds (holds_update ht rfl)))) (modRc_holds ht)

theorem sendArrives_holds {p : Packet} {q : RcQp} {s : State} (hs : law.Holds s) : law.Holds (sendArrives p q s) := by
  unfold sendArrives
  refine holds_ite ?_ (holds_ite (sendAck_holds hs) (emit_holds hs))
  split
  · exact emit_holds hs
  · exact holds_ite (nakError_holds hs) (holds_ite (nakError_holds hs) (deliverSend_holds hs))

theorem atomicArrives_holds {p : Packet} {region addr : Nat} {cas : Bool} {operand cmp : Word64} {q : RcQp} {s : State}
    (hs : law.Holds s) :
    law.Holds (atomicArrives p region addr cas operand cmp q s) :=
  holds_ite (nakError_holds (raiseIf_holds hs)) (holds_ite (nakError_holds hs) (holds_ite (nakError_holds hs)
    (emit_holds (modRc_holds (writeDram_holds hs)))))

theorem rnrEffect_holds {qpn : Nat} {s : State} (hs : law.Holds s) : law.Holds (rnrEffect qpn s) := by
  unfold rnrEffect
  split
  · exact hs
  · exact holds_ite hs (holds_ite (emit_holds (modRc_holds hs)) (retriesOut_holds hs))

theorem ackTimeoutEffect_holds {qpn : Nat} {s : State} (hs : law.Holds s) : law.Holds (ackTimeoutEffect qpn s) := by
  unfold ackTimeoutEffect
  split
  · exact hs
  · exact holds_ite (emit_holds (modRc_holds hs)) (retriesOut_holds hs)

theorem applyRule_holds {r : RdmaRule} {s : State} (hs : law.Holds s) : law.Holds (applyRule r s) := by
  unfold applyRule
  split <;> exact holds_update hs rfl

theorem ruleChangeEffect_holds {r : RdmaRule} {s : State} (hs : law.Holds s) : law.Holds (ruleChangeEffect r s) :=
  settleRules_holds (holds_update (applyRule_holds hs) rfl)

theorem ruleTimeoutEffect_holds {s : State} (hs : law.Holds s) : law.Holds (ruleTimeoutEffect s) := by
  unfold ruleTimeoutEffect
  refine settleRules_holds (forEach_holds hs fun _ _ ht => ?_)
  split
  · exact qpError_holds (emit_holds ht)
  · exact holds_update ht rfl

theorem sendConn_holds {type : Nat} {q : RcQp} {s : State} (hs : law.Holds s) : law.Holds (sendConn type q s) :=
  holds_ite (emit_holds hs) hs

theorem openRc_holds {purpose t : Nat} {session : Word64} {addr port : Nat} {s : State} (hs : law.Holds s) :
    law.Holds (openRc purpose t session addr port s) := by
  unfold openRc
  split
  · exact hs
  · exact sendConn_holds (tick_holds (holds_update hs rfl))

theorem fedConnect_holds {a : Nat} {s : State} (hs : law.Holds s) : law.Holds (fedConnect a s) :=
  holds_ite (forEach_holds (forEach_holds hs fun _ _ ht => removeRc_holds ht) fun _ _ ht => openRc_holds ht)
    (forEach_holds hs fun _ _ ht => removeRc_holds ht)

theorem connRow_holds {m : ConnMsg} {f : State → State} {s : State} (hs : law.Holds s)
    (hf : ∀ t, law.Holds t → law.Holds (f t)) :
    law.Holds (connRow m f s) :=
  holds_ite hs (holds_ite (holds_update hs rfl) (holds_ite (refuseStale_holds hs)
    (hf _ (holds_ite (learnEpoch_holds hs) hs))))

theorem connectEffect_holds {m : ConnMsg} {s : State} (hs : law.Holds s) : law.Holds (connectEffect m s) := by
  unfold connectEffect
  split
  · exact sendConn_holds hs
  · dsimp only
    split
    · exact sendConn_holds
        (equip_holds (tick_holds (holds_update (forEach_holds hs fun _ _ ht => removeRc_holds ht) rfl)))
    · exact sendConn_holds (tick_holds hs)

theorem acceptEffect_holds {m : ConnMsg} {s : State} (hs : law.Holds s) : law.Holds (acceptEffect m s) := by
  unfold acceptEffect
  split
  · exact hs
  · exact equip_holds (modRc_holds hs)

theorem rejectEffect_holds {m : ConnMsg} {s : State} (hs : law.Holds s) : law.Holds (rejectEffect m s) := by
  unfold rejectEffect
  split
  · exact hs
  · exact suspendOn_holds (removeRc_holds hs)

theorem modCaravan_holds {n : Nat} {f : Caravan → Caravan} {s : State} (hs : law.Holds s) :
    law.Holds (modCaravan n f s) :=
  holds_update hs rfl

theorem modElement_holds {n i : Nat} {f : Element → Element} {s : State} (hs : law.Holds s) :
    law.Holds (modElement n i f s) :=
  modCaravan_holds hs

theorem dropCaravan_holds {n : Nat} {s : State} (hs : law.Holds s) : law.Holds (dropCaravan n s) := holds_update hs rfl

theorem armCaravan_holds {c : Caravan} {s : State} (hs : law.Holds s) : law.Holds (armCaravan c s) :=
  holds_ite (holds_update hs rfl) hs

theorem sendBytes_holds {qpn : Nat} {b : Bytes} {s : State} (hs : law.Holds s) : law.Holds (sendBytes qpn b s) := by
  unfold sendBytes
  split
  · exact emit_holds (sentOn_holds hs)
  · exact hs

theorem sendGather_holds {c : Caravan} {e : Element} {s : State} (hs : law.Holds s) : law.Holds (sendGather c e s) :=
  forEach_holds hs fun _ _ ht => sendBytes_holds ht

theorem startElement_holds {c : Caravan} {i : Nat} {e : Element} {s : State} (hs : law.Holds s) :
    law.Holds (startElement c i e s) :=
  holds_ite (holds_ite (sendBytes_holds (modElement_holds hs)) (modElement_holds hs))
    (holds_ite (holds_ite (sendGather_holds (modElement_holds hs)) (modElement_holds hs)) (modElement_holds hs))

theorem visit_holds {id : Nat} {a : Bool × State} {i : Nat} (hs : law.Holds a.2) : law.Holds (visit id a i).2 := by
  unfold visit
  split
  · exact hs
  · split
    · exact hs
    · split
      · exact hs
      · split
        · exact modElement_holds hs
        · split
          · exact hs
          · split
            · split
              · exact modElement_holds hs
              · split
                · exact modElement_holds hs
                · exact startElement_holds hs
            · exact startElement_holds hs

theorem stepCaravan_holds {id : Nat} {s : State} (hs : law.Holds s) : law.Holds (stepCaravan id s) := by
  unfold stepCaravan
  split
  · exact hs
  · next c _ =>
    have ht : law.Holds ((List.range c.elements.length).foldl (visit id) (false, s)).2 :=
      foldl_holds (fun p : Bool × State => p.2) hs fun _ _ hp => visit_holds hp
    dsimp only
    split
    · exact holds_ite (emit_holds (dropCaravan_holds ht)) ht
    · exact ht

theorem releaseCaravan_holds {id qpn : Nat} {gate : List Nat} {s : State} (hs : law.Holds s) :
    law.Holds (releaseCaravan id qpn gate s) := by
  unfold releaseCaravan
  split
  · exact holds_ite (stepCaravan_holds (modCaravan_holds (holds_update hs rfl))) (holds_update hs rfl)
  · exact holds_update hs rfl

theorem endElement_holds {c : Caravan} {e : Element} {s : State} (hs : law.Holds s) : law.Holds (endElement c e s) :=
  holds_ite (modRc_holds hs) (holds_ite (writeDram_holds hs) (holds_ite (writeDram_holds hs) hs))

theorem elementDone_holds {id i : Nat} {failed : Option Nat} {s : State} (hs : law.Holds s) :
    law.Holds (elementDone id i failed s) := by
  unfold elementDone
  split
  · exact hs
  · split
    · exact hs
    · exact holds_ite hs (holds_ite (emit_holds (dropCaravan_holds hs))
        (stepCaravan_holds (modElement_holds (endElement_holds hs))))

theorem cancelEffect_holds {id : Nat} {s : State} (hs : law.Holds s) : law.Holds (cancelEffect id s) := by
  unfold cancelEffect
  split
  · exact holds_ite (emit_holds (dropCaravan_holds hs)) (emit_holds hs)
  · exact emit_holds hs

theorem announceEffect_holds {s : State} (hs : law.Holds s) : law.Holds (announceEffect s) :=
  holds_ite (holds_update (forEach_holds hs fun _ _ ht => emit_holds ht) rfl) hs

theorem enterIsolated_holds {s : State} (hs : law.Holds s) : law.Holds (enterIsolated s) := by
  unfold enterIsolated
  refine settleRules_holds (forEach_holds (forEach_holds (holds_update hs rfl) fun _ _ ht => ?_) fun _ _ ht =>
    endRelay_holds ht)
  split
  · exact suspendOn_holds (removeRc_holds ht)
  · exact ht

theorem markDuplicate_holds {a : Nat} {s : State} (hs : law.Holds s) : law.Holds (markDuplicate a s) :=
  forEach_holds (modPath_holds hs) fun _ _ ht => endRelay_holds ht

theorem duplicateSeen_holds {a : Nat} {x y : Word64} {s : State} (hs : law.Holds s) :
    law.Holds (duplicateSeen a x y s) :=
  holds_ite (enterIsolated_holds (markDuplicate_holds (chainSend_holds (raise_holds hs))))
    (markDuplicate_holds (chainSend_holds (raise_holds hs)))

theorem announceReceivedEffect_holds {x : Announce} {s : State} (hs : law.Holds s) :
    law.Holds (announceReceivedEffect x s) :=
  holds_ite hs (holds_ite (holds_update hs rfl) (holds_ite (holds_update hs rfl) (holds_ite (duplicateSeen_holds hs)
    (holds_ite hs (holds_ite hs
    (holds_ite hs (fedConnect_holds (learnEpoch_holds (settleLost_holds (modPath_holds hs))))))))))

theorem linkChangeEffect_holds {p : Nat} {up : Bool} {s : State} (hs : law.Holds s) :
    law.Holds (linkChangeEffect p up s) :=
  holds_ite (holds_update hs rfl) (forEach_holds (holds_update hs rfl) fun _ _ ht => dropPath_holds ht)

theorem answerFed_holds {src relayId : Nat} {c : HostCmd} {status : Word16} {s : State} (hs : law.Holds s) :
    law.Holds (answerFed src relayId c status s) :=
  answerTo_holds hs

theorem runRelayed_holds {src relayId tenant : Nat} {c : HostCmd} {data : Bytes} {s : State} (hs : law.Holds s) :
    law.Holds (runRelayed src relayId tenant c data s) :=
  holds_ite (answerFed_holds hs) (holds_ite (answerFed_holds hs) (holds_ite (answerFed_holds hs)
    (holds_ite (answerFed_holds hs) (holds_ite (holds_ite (holds_ite (startRelay_holds hs) (answerFed_holds hs))
    (admitQuery_holds hs)) (routeIo_holds hs)))))

theorem relayReqEffect_holds {src : Nat} {e target : Word16} {id tenant : Nat} {c : HostCmd} {data : Bytes} {s : State}
    (hs : law.Holds s) :
    law.Holds (relayReqEffect src e target id tenant c data s) :=
  holds_ite hs (holds_ite (refuseStale_holds hs) (holds_ite (refuseStale_holds (learnEpoch_holds hs))
    (runRelayed_holds (learnEpoch_holds hs))))

theorem relayData_holds {c : Cmd} {e : HostCmd} {data : Bytes} {s : State} (hs : law.Holds s) :
    law.Holds (relayData c e data s) :=
  holds_ite (toHost_holds hs) (holds_ite (forEach_holds hs fun _ _ ht => toHost_holds ht) hs)

theorem relayRspEffect_holds {e : Word16} {id : Nat} {status : Word16} {part : Bool} {count result : Nat}
    {data : Bytes} {s : State} (hs : law.Holds s) :
    law.Holds (relayRspEffect e id status part count result data s) := by
  unfold relayRspEffect
  split
  · exact hs
  · refine holds_ite hs (holds_ite (refuseStale_holds hs) ?_)
    split
    · exact hs
    · exact learnEpoch_holds (finishCmd_holds (relayData_holds (holds_update hs rfl)))

theorem resendRelay_holds {r : Relay} {serving : Nat} {s : State} (hs : law.Holds s) :
    law.Holds (resendRelay r serving s) := by
  unfold resendRelay
  split
  · exact hs
  · exact sendRelay_holds (holds_update hs rfl)

theorem relayRefuseEffect_holds {id : Nat} {reason e : Word16} {serving : Nat} {s : State} (hs : law.Holds s) :
    law.Holds (relayRefuseEffect id reason e serving s) := by
  unfold relayRefuseEffect
  refine holds_ite hs ?_
  dsimp only
  split
  · exact learnEpoch_holds (holds_ite (holds_update hs rfl) hs)
  · exact holds_ite (learnEpoch_holds (endRelay_holds (holds_ite (holds_update hs rfl) hs)))
      (resendRelay_holds (learnEpoch_holds (holds_update (holds_ite (holds_update hs rfl) hs) rfl)))

theorem relayTimeoutEffect_holds {id : Nat} {s : State} (hs : law.Holds s) : law.Holds (relayTimeoutEffect id s) := by
  unfold relayTimeoutEffect
  split
  · exact endRelay_holds hs
  · exact hs

theorem answerTenant_holds {dst : Nat} {status : Word16} {s : State} (hs : law.Holds s) :
    law.Holds (answerTenant dst status s) :=
  emit_holds hs

theorem tenantMsgEffect_holds {src : Nat} {m : TenantMsg} {s : State} (hs : law.Holds s) :
    law.Holds (tenantMsgEffect src m s) := by
  unfold tenantMsgEffect
  split
  · exact holds_ite (answerTenant_holds hs) (holds_ite (answerTenant_holds hs) (holds_ite (answerTenant_holds hs)
      (holds_ite (answerTenant_holds hs) (answerTenant_holds (syncTenant_holds (addTenant_holds hs))))))
  · split
    · exact answerTenant_holds hs
    · exact holds_ite (answerTenant_holds hs) (answerTenant_holds (syncTenant_holds (removeTenant_holds hs)))

end Sys2Proof.Machine
end

section
/-! SUPPORT. The laws through the replicas, the peer and the chain. -/

namespace Sys2Proof.Machine

variable {law : Law}

/-! ### Machine/Repl.lean -/

theorem sendRaw_holds {type : Byte} {k : Word64} {seq batch count : Nat} {body : Bytes} {s : State} (hs : law.Holds s) :
    law.Holds (sendRaw type k seq batch count body s) :=
  holds_ite hs (emit_holds (sentOn_holds hs))

theorem addBytes_holds {n k : Nat} {s : State} (hs : law.Holds s) : law.Holds (addBytes n k s) := modSess_holds hs

theorem sendSess_holds {type : Byte} {x : Sess} {batch count : Nat} {body : Bytes} {s : State} (hs : law.Holds s) :
    law.Holds (sendSess type x batch count body s) :=
  holds_ite hs (addBytes_holds (sendRaw_holds hs))

theorem sendRefuse_holds {k : Word64} {reason : Nat} {s : State} (hs : law.Holds s) :
    law.Holds (sendRefuse k reason s) :=
  sendRaw_holds hs

theorem connectSess_holds {x : Sess} {s : State} (hs : law.Holds s) : law.Holds (connectSess x s) :=
  holds_ite hs (openRc_holds (forEach_holds hs fun _ _ ht => removeRc_holds ht))

theorem offerOne_holds {n : Nat} {s : State} (hs : law.Holds s) : law.Holds (offerOne n s) := by
  unfold offerOne
  split
  · exact hs
  · split
    · exact hs
    · refine holds_ite hs ?_
      dsimp only
      split
      · exact modSess_holds hs
      · exact sendSess_holds (armCaravan_holds (modSess_holds hs))

theorem sendEnd_holds {n : Nat} {s : State} (hs : law.Holds s) : law.Holds (sendEnd n s) := by
  unfold sendEnd
  split
  · exact hs
  · exact holds_ite (sendSess_holds (modSess_holds hs)) hs

theorem pumpSource_holds {n : Nat} {s : State} (hs : law.Holds s) : law.Holds (pumpSource n s) :=
  sendEnd_holds (forEach_holds hs fun _ _ ht => offerOne_holds ht)

theorem pairThenConnect_holds {n : Nat} {s : State} (hs : law.Holds s) : law.Holds (pairThenConnect n s) := by
  unfold pairThenConnect
  split
  · exact holds_ite (connectSess_holds hs) hs
  · exact hs

theorem replPairDo_holds {ids : List Word64} {sealed_ : Bool} {x3 : Waiter} {x4 : State} (hs : law.Holds x4) :
    law.Holds (replPairDo ids sealed_ x3 x4) :=
  pairThenConnect_holds (snapNow_holds hs fun _ _ ht => plainDone_holds (replPairCmd_holds ht))

theorem ingestDo_holds {x1 : Waiter} {x2 : State} (hs : law.Holds x2) : law.Holds (ingestDo x1 x2) :=
  snapNow_holds hs fun _ _ ht => plainDone_holds (ingestCmd_holds ht)

theorem replSendCmd_holds {c : HostCmd} {s : State} (hs : law.Holds s) : law.Holds (replSendCmd c s).2.2 := by
  unfold replSendCmd
  split
  · exact hs
  · split
    · exact hs
    · exact done_ite_holds hs (done_ite_holds hs (modSess_holds hs))

theorem startSend_holds {n : Nat} {s : State} (hs : law.Holds s) : law.Holds (startSend n s) := by
  unfold startSend
  split
  · exact holds_ite (pumpSource_holds (connectSess_holds hs)) hs
  · exact hs

theorem replSendDo_holds {x1 : Waiter} {x2 : State} (hs : law.Holds x2) : law.Holds (replSendDo x1 x2) :=
  holds_ite (startSend_holds (endSnap_holds (plainDone_holds (replSendCmd_holds hs))))
    (endSnap_holds (plainDone_holds (replSendCmd_holds hs)))

theorem acceptedSession_holds {m : ConnMsg} {s : State} (hs : law.Holds s) : law.Holds (acceptedSession m s) := by
  unfold acceptedSession
  refine holds_ite hs ?_
  split
  · exact holds_ite (sendSess_holds hs) (holds_ite (pumpSource_holds hs) hs)
  · exact hs

theorem replRow_holds {source : Bool} {h : ReplHdr} {len : Nat} {f : Sess → State → State} {s : State}
    (hs : law.Holds s) (hf : ∀ y1 t, law.Holds t → law.Holds (f y1 t)) :
    law.Holds (replRow source h len f s) := by
  unfold replRow
  refine holds_ite hs ?_
  split
  · exact sendRefuse_holds hs
  · refine holds_ite (sendRefuse_holds hs) (holds_ite (refuseStale_holds hs) (holds_ite (sendRefuse_holds hs) ?_))
    dsimp only
    split
    · exact hf _ _ (wake_holds (modSess_holds hs))
    · exact wake_holds (modSess_holds hs)

theorem faultSess_holds {n rule k : Nat} {s : State} (hs : law.Holds s) : law.Holds (faultSess n rule k s) :=
  raise_holds (discardBatches_holds (modSess_holds hs))

theorem pullHook_holds {n : Nat} {fp : Bytes} {k : Nat} {s : State} (hs : law.Holds s) :
    law.Holds (pullHook n fp k s) := by
  unfold pullHook
  dsimp only
  refine holds_ite hs ?_
  split
  · exact hs
  · split
    · split
      · next hr => exact holds_update (touchContainer_holds (modContainer_holds (cacheRoom_holds hs hr))) rfl
      · exact hs
    · exact hs

theorem resolveRec_holds {x : Sess} {b : Batch} {i : Nat} {p : Batch × State} (hs : law.Holds p.2) :
    law.Holds (resolveRec x b i p).2 := by
  unfold resolveRec
  split
  · exact hs
  · dsimp only
    split
    · exact touchContainer_holds (raiseRef_holds hs)
    · exact hs

theorem resolveOffer_holds {x : Sess} {b : Batch} {s : State} (hs : law.Holds s) :
    law.Holds (resolveOffer x b s).2 := by
  refine foldl_holds (fun p : Batch × State => p.2) (forEach_holds hs fun i t ht => ?_) fun _ _ hp => resolveRec_holds
    hp
  split
  · exact holds_ite (pullHook_holds ht) ht
  · exact ht

theorem commitOne_holds {n : Nat} {s : State} (hs : law.Holds s) : law.Holds (commitOne n s) := by
  unfold commitOne
  split
  · exact hs
  · split
    · exact hs
    · exact holds_ite hs
        (sendSess_holds (modSess_holds (holds_update (forEach_holds hs fun _ _ ht => putEntry_holds ht) rfl)))

theorem commitBatches_holds {n : Nat} {s : State} (hs : law.Holds s) : law.Holds (commitBatches n s) :=
  forEach_holds hs fun _ _ ht => commitOne_holds ht

theorem commitAll_holds {s : State} (hs : law.Holds s) : law.Holds (commitAll s) :=
  forEach_holds hs fun _ _ ht => commitBatches_holds ht

theorem offerEffect_holds {h : ReplHdr} {first next : Nat} {chunks : List ChunkRec} {blocks : List BlockRec} {x : Sess}
    {s : State} (hs : law.Holds s) :
    law.Holds (offerEffect h first next chunks blocks x s) :=
  holds_ite (sendRefuse_holds hs)
    (holds_ite hs (holds_ite (sendRefuse_holds hs)
    (commitBatches_holds (sendSess_holds (modSess_holds (tick_holds (resolveOffer_holds hs)))))))

theorem takeBale_holds {x : Sess} {no : Nat} {b : Batch} {it : BaleItem} {s : State} (hs : law.Holds s) :
    law.Holds (takeBale x no b it s) :=
  modSess_holds (holds_ite (takeId_holds (holds_update hs rfl))
    (appendEntry_holds (takeId_holds (holds_update hs rfl))))

theorem baleArrives_holds {n no : Nat} {it : BaleItem} {s : State} (hs : law.Holds s) :
    law.Holds (baleArrives n no it s) := by
  unfold baleArrives
  split
  · exact holds_ite hs (holds_ite (takeBale_holds hs) (holds_ite (faultSess_holds hs)
      (sendSess_holds (modSess_holds hs))))
  · exact hs

theorem balesEffect_holds {h : ReplHdr} {items : List BaleItem} {x : Sess} {s : State} (hs : law.Holds s) :
    law.Holds (balesEffect h items x s) :=
  commitBatches_holds (forEach_holds hs fun _ _ ht => baleArrives_holds ht)

theorem takeReplica_holds {x : Sess} {h : ReplHdr} {label : Bytes} {seconds : Nat} {s : State} (hs : law.Holds s) :
    law.Holds (takeReplica x h label seconds s) :=
  holds_update hs rfl

theorem answerEnd_holds {x : Sess} {seq : Nat} {s : State} (hs : law.Holds s) : law.Holds (answerEnd x seq s) :=
  holds_ite (endSess_holds (sendSess_holds hs)) (modSess_holds (sendSess_holds hs))

theorem endEffect_holds {h : ReplHdr} {label : Bytes} {seconds : Nat} {x : Sess} {s : State} (hs : law.Holds s) :
    law.Holds (endEffect h label seconds x s) := by
  unfold endEffect
  split
  · exact sendSess_holds hs
  · exact holds_ite (sendRefuse_holds hs)
      (holds_ite (raise_holds (suspendSess_holds (sendRefuse_holds (modSess_holds hs))))
      (answerEnd_holds (takeReplica_holds hs)))

theorem needEffect.resendBales_holds {no : Nat} {bits : List Nat} {x : Sess} {q : RcQp} {s : State} (hs : law.Holds s) :
    law.Holds (needEffect.resendBales no bits x q s) := by
  unfold needEffect.resendBales
  split
  · exact hs
  · exact holds_ite hs (releaseCaravan_holds (armCaravan_holds hs))

theorem commitEffect_holds {h : ReplHdr} {x : Sess} {s : State} (hs : law.Holds s) :
    law.Holds (commitEffect h x s) := by
  unfold commitEffect
  split
  · exact holds_ite (pumpSource_holds (modSess_holds hs)) hs
  · exact hs

theorem endAckEffect_holds {h : ReplHdr} {x : Sess} {s : State} (hs : law.Holds s) : law.Holds (endAckEffect h x s) :=
  holds_ite (modSess_holds (holds_update hs rfl)) hs

theorem resumeEffect_holds {h : ReplHdr} {x : Sess} {s : State} (hs : law.Holds s) : law.Holds (resumeEffect h x s) :=
  sendSess_holds (modSess_holds (discardBatches_holds hs))

theorem resumeAtEffect_holds {batch lba : Nat} {x : Sess} {s : State} (hs : law.Holds s) :
    law.Holds (resumeAtEffect batch lba x s) :=
  holds_ite (pumpSource_holds (modSess_holds hs)) hs

theorem replRefuseEffect_holds {h : ReplHdr} {reason : Word16} {s : State} (hs : law.Holds s) :
    law.Holds (replRefuseEffect h reason s) := by
  unfold replRefuseEffect
  refine holds_ite hs ?_
  split
  · exact hs
  · exact holds_ite (endSess_holds hs) (suspendSess_holds hs)

theorem retrySess_holds {k : Word64} {s : State} (hs : law.Holds s) : law.Holds (retrySess k s) := by
  unfold retrySess
  split
  · exact holds_ite (sendSess_holds hs) (connectSess_holds hs)
  · exact hs

theorem needEffect_holds {h : ReplHdr} {bits : List Nat} {x : Sess} {s : State} (hs : law.Holds s) :
    law.Holds (needEffect h bits x s) := by
  unfold needEffect
  split
  · exact hs
  · dsimp only
    split
    · exact releaseCaravan_holds hs
    · exact needEffect.resendBales_holds hs

theorem readFailed_holds {id : Nat} {failed : Option Nat} {before s : State} (hs : law.Holds s) :
    law.Holds (readFailed id failed before s) := by
  unfold readFailed
  refine holds_ite ?_ hs
  split
  · exact faultSess_holds hs
  · exact hs

/-! ### Machine/Peer.lean -/

theorem toPeerTagged_holds {type : Nat} {args : List Nat} {data : Bytes} {s : State} (hs : law.Holds s) :
    law.Holds (toPeerTagged type args data s) :=
  holds_ite (toPeer_holds hs) hs

theorem countStale_holds {s : State} (hs : law.Holds s) : law.Holds (countStale s) := holds_update hs rfl

theorem peerRow_holds {h : PeerHdr} {f : State → State} {s : State} (hs : law.Holds s)
    (hf : ∀ t, law.Holds t → law.Holds (f t)) :
    law.Holds (peerRow h f s) :=
  holds_ite hs (holds_ite (toPeer_holds (countStale_holds hs)) (hf _ (peerEpochSeen_holds (holds_update hs rfl))))

theorem taggedRow_holds {type : Nat} {h : PeerHdr} {f : State → State} {s : State} (hs : law.Holds s)
    (hf : ∀ t, law.Holds t → law.Holds (f t)) :
    law.Holds (taggedRow type h f s) :=
  holds_ite hs (holds_ite (raise_holds hs) (peerRow_holds hs hf))

theorem laneLossEffect_holds {n : Nat} {s : State} (hs : law.Holds s) : law.Holds (laneLossEffect n s) :=
  holds_ite hs (holds_update hs rfl)

theorem replayTimeoutEffect_holds {s : State} (hs : law.Holds s) : law.Holds (replayTimeoutEffect s) :=
  holds_ite hs (holds_update hs rfl)

theorem adoptSettle_holds {e : Settle} {s : State} (hs : law.Holds s) : law.Holds (adoptSettle e s) :=
  holds_ite (raise_holds (holds_update hs rfl)) (holds_update (holds_update hs rfl) rfl)

theorem adoptLog_holds {s : State} (hs : law.Holds s) : law.Holds (adoptLog s) :=
  pinTrim_holds (forEach_holds hs fun _ _ ht => adoptSettle_holds ht)

theorem endPeerRelays_holds {s : State} (hs : law.Holds s) : law.Holds (endPeerRelays s) :=
  forEach_holds hs fun _ _ ht => finishCmd_holds ht

theorem signalPorts_holds {s : State} (hs : law.Holds s) : law.Holds (signalPorts s) :=
  forEach_holds hs fun _ _ ht => holds_ite (signal_holds ht) ht

theorem adoptJobs_holds {s : State} (hs : law.Holds s) : law.Holds (adoptJobs s) :=
  forEach_holds (holds_update hs rfl) fun _ _ ht => resumeTask_holds ht

theorem becomeSole_holds {cause : Nat} {s : State} (hs : law.Holds s) : law.Holds (becomeSole cause s) :=
  tellEpoch_holds (setRole_holds (holds_update hs rfl))

theorem takeoverClaims_holds {s : State} (hs : law.Holds s) : law.Holds (takeoverClaims s) :=
  takeoverCheck_holds (holds_ite hs (claimPeerHeld_holds (claimIdentified_holds hs)))

theorem loadHead_holds {h : Bool} {s : State} (hs : law.Holds s) : law.Holds (loadHead h s) :=
  tick_holds (holds_update hs rfl)

theorem loadLost_holds {s : State} (hs : law.Holds s) : law.Holds (loadLost s) :=
  holds_ite (loadHead_holds (loadHead_holds hs)) (holds_ite hs (loadHead_holds hs))

theorem enterSole_holds {cause : Nat} {s : State} (hs : law.Holds s) : law.Holds (enterSole cause s) :=
  takeoverClaims_holds
    (adoptJobs_holds (readmit_holds
    (loadLostHooks_holds
    (dropStaleMirror_holds
    (signalPorts_holds (endPeerRelays_holds (adoptLog_holds (forEach_holds (becomeSole_holds (loadLost_holds hs))
    fun _ _ ht => completeWrite_holds ht))))))))

theorem declareLoss_holds {cause : Nat} {s : State} (hs : law.Holds s) : law.Holds (declareLoss cause s) := by
  unfold declareLoss
  refine holds_ite hs ?_
  split
  · exact enterSole_holds hs
  · exact holds_ite (raise_holds (enterSole_holds hs)) hs
  · exact holds_update hs rfl

theorem stepDown_holds {cause : Nat} {s : State} (hs : law.Holds s) : law.Holds (stepDown cause s) :=
  tellEpoch_holds (enterService_holds (holds_update hs rfl))

theorem activationDone_holds {s : State} (hs : law.Holds s) : law.Holds (activationDone s) := by
  unfold activationDone
  dsimp only
  split
  · exact emit_holds (holds_update (holds_update hs rfl) rfl)
  · exact holds_update hs rfl

theorem handedOver_holds {s : State} (hs : law.Holds s) :
    law.Holds (if s.peer.role = .active then
        { stepDown 8 s with peer := { (stepDown 8 s).peer with linkUp := false, detect := .noPeer } }
      else { s with pair := { s.pair with swapWait := false } }) :=
  holds_ite (putPeer_holds (stepDown_holds hs)) (putPair_holds hs)

theorem sendHandover_holds {s : State} (hs : law.Holds s) : law.Holds (sendHandover s) :=
  holds_ite (activationDone_holds (handedOver_holds (toPeerTagged_holds hs))) (handedOver_holds (toPeerTagged_holds hs))

theorem swapStep_holds {s : State} (hs : law.Holds s) : law.Holds (swapStep s) :=
  holds_ite (onlyIf_holds hs fun _ ht => activationDone_holds ht) (holds_ite hs (holds_ite
    (putPair_holds (forEach_holds hs fun _ _ ht => startRun_holds ht)) (holds_ite (sendHandover_holds hs) hs)))

theorem handbackStep_holds {s : State} (hs : law.Holds s) : law.Holds (handbackStep s) := by
  unfold handbackStep
  refine holds_ite hs (holds_ite hs ?_)
  split
  · exact toPeerTagged_holds (modLane_holds (closeOpenWith_holds hs))
  · exact holds_ite (readmit_holds (toPeerTagged_holds (holds_update hs rfl))) (forEach_holds (holds_update hs rfl)
      fun _ _ ht => startRun_holds ht)

theorem beatTimerEffect_holds {s : State} (hs : law.Holds s) : law.Holds (beatTimerEffect s) :=
  holds_ite (handbackStep_holds (swapStep_holds (holds_ite (toPeer_holds hs) hs))) (holds_ite (toPeer_holds hs) hs)

theorem peerSeen_holds {s : State} (hs : law.Holds s) : law.Holds (peerSeen s) :=
  holds_ite (readmit_holds (holds_update hs rfl)) (holds_ite (holds_update hs rfl) hs)

theorem beatEffect_holds {role : Role} {service : Service} {fw : Word32} {occ secs : Nat} {s : State}
    (hs : law.Holds s) :
    law.Holds (beatEffect role service fw occ secs s) :=
  peerSeen_holds (holds_update hs rfl)

theorem heartbeatLossEffect_holds {s : State} (hs : law.Holds s) : law.Holds (heartbeatLossEffect s) :=
  holds_ite hs (chainSend_holds (holds_update hs rfl))

theorem confirmEffect_holds {a : Option Bool} {s : State} (hs : law.Holds s) : law.Holds (confirmEffect a s) :=
  holds_ite hs (holds_ite (holds_update (raise_holds (holds_update hs rfl)) rfl)
    (declareLoss_holds (raise_holds (holds_update hs rfl))))

theorem splitYieldEffect_holds {s : State} (hs : law.Holds s) : law.Holds (splitYieldEffect s) :=
  holds_ite (readmit_holds (putPeer_holds (stepDown_holds hs))) hs

theorem splitLossEffect_holds {s : State} (hs : law.Holds s) : law.Holds (splitLossEffect s) :=
  holds_ite (declareLoss_holds hs) hs

theorem aliveFallEffect_holds {lowNs : Nat} {s : State} (hs : law.Holds s) : law.Holds (aliveFallEffect lowNs s) := by
  have ht : law.Holds { s with peer := { s.peer with aliveIn := false } } := putPeer_holds hs
  exact holds_ite hs (holds_ite (holds_ite ht (declareLoss_holds ht))
    (holds_ite (holds_ite (declareLoss_holds ht) (raise_holds ht)) ht))

theorem startRole_holds {r : Role} {e : Word16} {s : State} (hs : law.Holds s) : law.Holds (startRole r e s) := by
  unfold startRole
  dsimp only
  split
  · exact claimPeerHeld_holds
      (claimIdentified_holds (holds_update (tellEpoch_holds (setRole_holds (holds_update hs rfl))) rfl))
  · exact claimIdentified_holds (tellEpoch_holds (setRole_holds (holds_update hs rfl)))
  · exact tellEpoch_holds (setRole_holds (holds_update hs rfl))

theorem sendHello_holds {s : State} (hs : law.Holds s) : law.Holds (sendHello s) := emit_holds hs

theorem askReturn_holds {s : State} (hs : law.Holds s) : law.Holds (askReturn s) :=
  holds_ite hs (toPeerTagged_holds (holds_update hs rfl))

theorem chooseRole_holds {e : Word16} {s : State} (hs : law.Holds s) : law.Holds (chooseRole e s) :=
  holds_ite hs (holds_ite (raise_holds (startRole_holds (holds_update hs rfl)))
    (holds_ite (askReturn_holds (startRole_holds hs)) (holds_ite (raise_holds (startRole_holds hs))
    (startRole_holds hs))))

theorem exchangeSize_holds {n : Nat} {s : State} (hs : law.Holds s) : law.Holds (exchangeSize n s) :=
  holds_ite (raise_holds (noteOccupancy_holds (holds_update hs rfl))) hs

theorem helloEffect_holds {h : PeerHdr} {serial : Word64} {head : Bool} {fw : Word32} {size : Nat} {keyId : Word64}
    {role : Role} {s : State} (hs : law.Holds s) :
    law.Holds (helloEffect h serial head fw size keyId role s) := by
  unfold helloEffect
  extract_lets _ _ _ t u v w _ x
  have hu : law.Holds u := exchangeSize_holds (holds_update hs rfl)
  have hv : law.Holds v := holds_ite (sendHello_holds hu) hu
  clear_value v
  have hw : law.Holds w := peerEpochSeen_holds hv
  clear_value w
  have hx : law.Holds x := holds_ite (wakeBehind_holds (putPair_holds hw)) hw
  exact holds_ite hs (holds_ite hv (holds_ite (chooseRole_holds hv) (holds_ite (holds_ite (askReturn_holds hx) hx) hv)))

theorem helloTimeoutEffect_holds {present lost sole : Bool} {s : State} (hs : law.Holds s) :
    law.Holds (helloTimeoutEffect present lost sole s) :=
  holds_ite hs (holds_ite (startRole_holds hs)
    (holds_ite (holds_ite (startRole_holds hs) (raise_holds (startRole_holds hs))) hs))

theorem mirrorEffect_holds {n lba : Nat} {g : Word16} {tenant : Nat} {tag : Option Word64} {block nblk : Nat}
    {data : Bytes} {s : State} (hs : law.Holds s) :
    law.Holds (mirrorEffect n lba g tenant tag block nblk data s) :=
  holds_ite hs (toPeer_holds (wake_holds (holds_update hs rfl)))

theorem mirrorAckEffect_holds {n lba : Nat} {g : Word16} {s : State} (hs : law.Holds s) :
    law.Holds (mirrorAckEffect n lba g s) := by
  unfold mirrorAckEffect
  dsimp only
  split
  · exact completeWrite_holds (modCmd_holds (holds_update hs rfl) fun _ e => e)
  · exact holds_update hs rfl

theorem releaseEffect_holds {n lba : Nat} {g : Word16} {s : State} (hs : law.Holds s) :
    law.Holds (releaseEffect n lba g s) :=
  holds_update hs rfl

theorem settleEffect_holds {t : Nat} {g : Word64} {n : Nat} {o : Fin 5} {k : Nat} {s : State} (hs : law.Holds s) :
    law.Holds (settleEffect t g n o k s) :=
  holds_update hs rfl

theorem relayedSnap_holds {w : Waiter} {s : State} (hs : law.Holds s) : law.Holds (relayedSnap w s) :=
  holds_ite (snapCommand_holds hs fun _ _ ht => cgSetDo_holds ht)
    (holds_ite (snapCommand_holds hs fun _ _ ht => snapCreateStart_holds ht)
    (holds_ite (snapCommand_holds hs fun _ _ ht => snapDeleteDo_holds ht)
    (holds_ite (snapCommand_holds hs fun _ _ ht => snapNow_holds ht fun _ _ hu => snapListCmd_holds hu)
    (holds_ite (snapCommand_holds hs fun _ _ ht => snapExposeDo_holds ht)
    (holds_ite (snapCommand_holds hs fun _ _ ht => replPairDo_holds ht)
    (holds_ite (snapCommand_holds hs fun _ _ ht => replSendDo_holds ht)
    (holds_ite (snapCommand_holds hs fun _ _ ht => replStopDo_holds ht)
    (holds_ite (snapCommand_holds hs fun _ _ ht => snapNow_holds ht fun _ _ hu => replStatusCmd_holds hu)
    (holds_ite (snapCommand_holds hs fun _ _ ht => ingestDo_holds ht) (answerCmd_holds hs))))))))))

theorem relayedHere_holds {c : HostCmd} {tenant : Option Nat} {s : State} (hs : law.Holds s) :
    law.Holds (relayedHere c tenant s) :=
  holds_ite (answerCmd_holds hs) (holds_ite (routeIo_holds hs) (holds_ite (admitQuery_holds hs) (relayedSnap_holds hs)))

theorem relayResult_holds {c : HostCmd} {status : Word16} {count result : Nat} {data : Bytes} {s : State}
    (hs : law.Holds s) :
    law.Holds (relayResult c status count result data s) := by
  unfold relayResult
  split
  · exact hs
  · exact finishCmd_holds (holds_ite (holds_ite hs (forEach_holds hs fun _ _ ht => toHost_holds ht))
      (modCmd_holds hs fun _ e => e))

theorem granuleEffect_holds {n die block page gran count : Nat} {s : State} (hs : law.Holds s) :
    law.Holds (granuleEffect n die block page gran count s) :=
  holds_ite hs (farSend_holds (holds_update hs rfl))

theorem refEffect_holds {no : Nat} {d : Int} {s : State} (hs : law.Holds s) : law.Holds (refEffect no d s) :=
  holds_ite (dropRefs_holds hs) (holds_ite (raiseRef_holds hs) hs)

theorem jobcopyEffect_holds {c : JobCkpt} {ack : Bool} {s : State} (hs : law.Holds s) :
    law.Holds (jobcopyEffect c ack s) :=
  holds_ite (holds_update hs rfl) (toPeer_holds (holds_update hs rfl))

theorem syncedSlot_holds {n : Nat} {k : Slot} {s : State} (hs : law.Holds s) : law.Holds (syncedSlot n k s) :=
  persistSlot_holds (setSlot_holds hs)

theorem syncEffect_holds {i : SyncItem} {s : State} (hs : law.Holds s) : law.Holds (syncEffect i s) := by
  unfold syncEffect
  split
  · exact holds_ite hs (syncedSlot_holds hs)
  · exact holds_ite hs (syncedSlot_holds hs)
  · exact holds_update hs rfl
  · split
    · exact hs
    · exact holds_ite (holds_update hs rfl) (syncedSlot_holds (holds_update (holds_update hs rfl) rfl))

theorem pairFaultEffect_holds {pair : Nat} {s : State} (hs : law.Holds s) : law.Holds (pairFaultEffect pair s) :=
  holds_ite (declareLoss_holds hs) hs

theorem allowClaims_holds {s : State} (hs : law.Holds s) : law.Holds (allowClaims s) :=
  holds_ite (takeoverClaims_holds (holds_update hs rfl)) hs

theorem syncAll_holds {s : State} (hs : law.Holds s) : law.Holds (syncAll s) :=
  forEach_holds (forEach_holds hs fun _ _ ht => toPeerTagged_holds ht) fun _ _ ht => toPeerTagged_holds ht

theorem grantReturn_holds {s : State} (hs : law.Holds s) : law.Holds (grantReturn s) :=
  tellEpoch_holds (setRole_holds (holds_update (toPeerTagged_holds (holds_update (syncAll_holds hs) rfl)) rfl))

theorem returnReqEffect_holds {fw : Word32} {s : State} (hs : law.Holds s) : law.Holds (returnReqEffect fw s) :=
  holds_ite hs (holds_ite (grantReturn_holds hs) (raise_holds hs))

theorem returnTimerEffect_holds {s : State} (hs : law.Holds s) : law.Holds (returnTimerEffect s) :=
  holds_ite (askReturn_holds hs) hs

theorem returnGrantEffect_holds {s : State} (hs : law.Holds s) : law.Holds (returnGrantEffect s) :=
  holds_ite hs (setRole_holds (holds_update hs rfl))

theorem moduleReleaseEffect_holds {n : Nat} {s : State} (hs : law.Holds s) : law.Holds (moduleReleaseEffect n s) :=
  holds_ite (takeModule_holds hs) hs

theorem handbackDoneEffect_holds {s : State} (hs : law.Holds s) : law.Holds (handbackDoneEffect s) :=
  holds_ite (readmit_holds (loadHead_holds (holds_update hs rfl))) hs

theorem modPair_holds {n : Nat} {f : CtrlPair → CtrlPair} {s : State} (hs : law.Holds s) : law.Holds (modPair n f s) :=
  holds_ite (holds_update hs rfl) (holds_ite (holds_update hs rfl) (holds_ite (holds_update hs rfl)
    (holds_update hs rfl)))

theorem handOver_holds {s : State} (hs : law.Holds s) : law.Holds (handOver s) := by
  have ht : law.Holds (if pair1Up s then toPeerTagged 0x21 [] [] s else s) := holds_ite (toPeerTagged_holds hs) hs
  exact holds_ite (putPeer_holds (stepDown_holds (putPair_holds ht))) hs

theorem pairHeld_holds {n : Nat} {s : State} (hs : law.Holds s) : law.Holds (pairHeld n s) :=
  holds_ite (holds_update hs rfl) (holds_ite (holds_update hs rfl) hs)

theorem pairOneBack_holds {s : State} (hs : law.Holds s) : law.Holds (pairOneBack s) :=
  holds_ite (chooseRole_holds hs) hs

theorem restartEffect_holds {n : Nat} {s : State} (hs : law.Holds s) : law.Holds (restartEffect n s) := by
  unfold restartEffect
  extract_lets t
  have ht : law.Holds t := modPair_holds hs
  clear_value t
  refine holds_ite hs (holds_ite (noteAlive_holds (holds_ite (pairOneBack_holds ht) (holds_ite ?_ (holds_ite ?_ ht))))
    (holds_ite ?_ ht))
  · exact claimPeerHeld_holds (claimIdentified_holds ht)
  · exact stepDown_holds (holds_update ht rfl)
  · exact holds_update ht rfl

theorem wdogWriteEffect_holds {v : Word32} {s : State} (hs : law.Holds s) : law.Holds (wdogWriteEffect v s) :=
  holds_ite (noteAlive_holds (holds_update hs rfl)) hs

theorem beginSwap_holds {reset : Bool} {s : State} (hs : law.Holds s) : law.Holds (beginSwap reset s) :=
  swapStep_holds (holds_update hs rfl)

theorem roleSwapEffect_holds {s : State} (hs : law.Holds s) : law.Holds (roleSwapEffect s) :=
  holds_ite hs (holds_ite (raise_holds hs) (holds_ite (beginSwap_holds (holds_update hs rfl))
    (holds_update (holds_update hs rfl) rfl)))

/-! ### Machine/Chain.lean -/

theorem modChain_holds {p : Fin 2} {f : ChainPort → ChainPort} {s : State} (hs : law.Holds s) :
    law.Holds (modChain p f s) :=
  holds_ite (holds_update hs rfl) (holds_update hs rfl)

theorem forward_holds {h : ChainHdr} {type : Nat} {args : List Nat} {s : State} (hs : law.Holds s) :
    law.Holds (forward h type args s) :=
  holds_ite hs (holds_ite (holds_update hs rfl) (emit_holds hs))

theorem pairFrame_holds {h : ChainHdr} {type : Nat} {args : List Nat} {f : State → State} {s : State}
    (hs : law.Holds s) (hf : ∀ t, law.Holds t → law.Holds (f t)) :
    law.Holds (pairFrame h type args f s) :=
  holds_ite hs (holds_ite (hf _ (forward_holds hs)) (forward_holds hs))

theorem breakPort_holds {p : Fin 2} {s : State} (hs : law.Holds s) : law.Holds (breakPort p s) :=
  raise_holds (modChain_holds hs)

theorem silentEffect_holds {p : Fin 2} {s : State} (hs : law.Holds s) : law.Holds (silentEffect p s) :=
  holds_ite hs (breakPort_holds hs)

theorem breakEffect_holds {p : Fin 2} {s : State} (hs : law.Holds s) : law.Holds (breakEffect p s) :=
  holds_ite hs (breakPort_holds hs)

theorem unwrapCheck_holds {p : Fin 2} {s : State} (hs : law.Holds s) : law.Holds (unwrapCheck p s) :=
  holds_ite (raise_holds (modChain_holds hs)) hs

theorem breakTimerEffect_holds {p : Fin 2} {s : State} (hs : law.Holds s) : law.Holds (breakTimerEffect p s) :=
  holds_ite hs (holds_ite (emit_holds hs) (holds_ite (unwrapCheck_holds (modChain_holds (emit_holds hs))) hs))

theorem qualifyEffect_holds {p : Fin 2} {s : State} (hs : law.Holds s) : law.Holds (qualifyEffect p s) :=
  holds_ite hs (modChain_holds hs)

theorem linkOkEffect_holds {p : Fin 2} {s : State} (hs : law.Holds s) : law.Holds (linkOkEffect p s) :=
  holds_ite hs (unwrapCheck_holds (modChain_holds hs))

theorem badFrameEffect_holds {p : Fin 2} {nowUs : Nat} {s : State} (hs : law.Holds s) :
    law.Holds (badFrameEffect p nowUs s) :=
  holds_ite hs (holds_ite (holds_update hs rfl) (holds_ite (breakPort_holds (holds_update hs rfl))
    (modChain_holds (holds_update hs rfl))))

theorem takeAddress_holds {a : Byte} {s : State} (hs : law.Holds s) : law.Holds (takeAddress a s) := holds_update hs rfl

theorem sendTable_holds {s : State} (hs : law.Holds s) : law.Holds (sendTable s) :=
  forEach_holds hs fun _ _ ht => chainSend_holds ht

theorem enumComplete_holds {s : State} (hs : law.Holds s) : law.Holds (enumComplete s) := by
  unfold enumComplete
  extract_lets l _ _ t u
  have ht : law.Holds t := by
    refine hs.of_tables { hs.same with paths := fun hw => ?_ }
    exact tabWf_map_filter ({} : Path) ({} : Path) (fun x => { x with state := 0, ports := [], seen := [] }) hw
  have hu : law.Holds u := holds_ite (modPath_holds ht) (raise_holds ht)
  exact settleLost_holds hu

theorem sendEnum_holds {s : State} (hs : law.Holds s) : law.Holds (sendEnum s) := chainSend_holds (holds_update hs rfl)

theorem startEnum_holds {s : State} (hs : law.Holds s) : law.Holds (startEnum s) := by
  unfold startEnum
  extract_lets a _ t
  have hu : law.Holds { s with
      mch := { s.mch with gen := s.mch.gen + 1, table := [], groups := [], fedId := ownFedId s, reenum := false } } :=
    hs.of_tables { hs.same with table := fun _ => rfl }
  have ht : law.Holds t := takeAddress_holds hu
  exact sendEnum_holds (ht.of_tables { ht.same with table := tabWf_tabPut _ _ _ })

theorem fillTable_holds {n a : Nat} {s : State} (hs : law.Holds s) : law.Holds (fillTable n a s) := by
  induction n generalizing a s with
  | zero => exact hs
  | succ n ih =>
    exact holds_ite (ih hs) (ih (tick_holds (hs.of_tables { hs.same with table := tabWf_tabPut _ _ _ })))

theorem enumBack_holds {next : Byte} {s : State} (hs : law.Holds s) : law.Holds (enumBack next s) :=
  sendTable_holds (enumComplete_holds (holds_update (fillTable_holds (holds_update hs rfl)) rfl))

theorem enumPass_holds {h : ChainHdr} {next : Byte} {lastHead : Bool} {gen : Word16} {fedId : Bytes}
    {lastSerial : Word64} {s : State} (hs : law.Holds s) :
    law.Holds (enumPass h next lastHead gen fedId lastSerial s) :=
  holds_ite (forward_holds (takeAddress_holds hs)) (forward_holds (takeAddress_holds hs))

theorem enumEffect_holds {h : ChainHdr} {next : Byte} {lastHead : Bool} {gen : Word16} {fedId : Bytes}
    {lastSerial : Word64} {s : State} (hs : law.Holds s) :
    law.Holds (enumEffect h next lastHead gen fedId lastSerial s) :=
  holds_ite hs (holds_ite (forward_holds hs) (holds_ite (holds_ite (enumBack_holds hs) hs) (enumPass_holds hs)))

theorem enumTimeoutEffect_holds {s : State} (hs : law.Holds s) : law.Holds (enumTimeoutEffect s) :=
  holds_ite (sendEnum_holds hs) hs

theorem takeGroup_holds {gen : Word16} {g : Fin 8} {fedId : Bytes} {serials : List Word64} {s : State}
    (hs : law.Holds s) :
    law.Holds (takeGroup gen g fedId serials s) := by
  unfold takeGroup
  extract_lets _ t was u _ v
  have ht : law.Holds t := holds_ite hs (hs.of_tables { hs.same with table := fun _ => rfl })
  have hu : law.Holds u := forEach_holds ht fun i x hx => hx.of_tables { hx.same with table := tabWf_tabPut _ _ _ }
  have hv : law.Holds v := holds_update hu rfl
  exact holds_ite (enumComplete_holds hv) hv

theorem rebroadcastEffect_holds {s : State} (hs : law.Holds s) : law.Holds (rebroadcastEffect s) :=
  holds_ite (sendTable_holds hs) hs

theorem joinEffect_holds {serial : Word64} {head : Bool} {peerSerial : Word64} {s : State} (hs : law.Holds s) :
    law.Holds (joinEffect serial head peerSerial s) := by
  unfold joinEffect
  refine holds_ite hs ?_
  split
  · exact chainSend_holds hs
  · have ht := fun a => hs.of_tables (t := { s with mch := { s.mch with table := tabPut 0 a serial s.mch.table } })
      { hs.same with table := tabWf_tabPut _ _ _ }
    exact holds_ite (chainSend_holds (ht _)) (sendTable_holds (chainSend_holds (ht _)))

theorem sendJoin_holds {s : State} (hs : law.Holds s) : law.Holds (sendJoin s) := chainSend_holds hs

theorem beginJoin_holds {s : State} (hs : law.Holds s) : law.Holds (beginJoin s) :=
  holds_ite (sendJoin_holds (holds_update hs rfl)) hs

theorem joinAckEffect_holds {a : Byte} {s : State} (hs : law.Holds s) : law.Holds (joinAckEffect a s) :=
  holds_ite (raise_holds (holds_update hs rfl)) (holds_ite (holds_update hs rfl)
    (modPath_holds (holds_update (takeAddress_holds (holds_update hs rfl)) rfl)))

theorem duplicateEffect_holds {a : Nat} {x y : Word64} {s : State} (hs : law.Holds s) :
    law.Holds (duplicateEffect a x y s) :=
  holds_ite (holds_update (holds_ite (enterIsolated_holds (markDuplicate_holds hs)) (markDuplicate_holds hs)) rfl)
    (holds_ite (enterIsolated_holds (markDuplicate_holds hs)) (markDuplicate_holds hs))

theorem reenumEffect_holds {s : State} (hs : law.Holds s) : law.Holds (reenumEffect s) :=
  holds_ite (startEnum_holds hs) hs

theorem becomeMaster_holds {s : State} (hs : law.Holds s) : law.Holds (becomeMaster s) :=
  holds_ite (startEnum_holds (holds_update hs rfl)) (holds_update hs rfl)

theorem electEffect_holds {h : ChainHdr} {gen : Word16} {headId : Bool} {s : State} (hs : law.Holds s) :
    law.Holds (electEffect h gen headId s) :=
  holds_ite hs (holds_ite (forward_holds hs) (holds_ite (becomeMaster_holds hs) (holds_ite (forward_holds hs) hs)))

theorem masterTimeoutEffect_holds {s : State} (hs : law.Holds s) : law.Holds (masterTimeoutEffect s) :=
  holds_ite (holds_update hs rfl) hs

theorem queryEffect_holds {h : ChainHdr} {reply : Bytes} {target : Word64} {s : State} (hs : law.Holds s) :
    law.Holds (queryEffect h reply target s) :=
  holds_ite hs (holds_ite (holds_update hs rfl) (forward_holds hs))

theorem timeEffect_holds {h : ChainHdr} {fedTime : Word64} {gen : Word16} {masterHead sameTable : Bool} {s : State}
    (hs : law.Holds s) :
    law.Holds (timeEffect h fedTime gen masterHead sameTable s) :=
  holds_ite (holds_ite (holds_update (holds_update hs rfl) rfl) (holds_ite hs (startEnum_holds hs)))
    (holds_update hs rfl)

theorem timeTimerEffect_holds {x : Word64} {s : State} (hs : law.Holds s) : law.Holds (timeTimerEffect x s) :=
  holds_ite (chainSend_holds (holds_update hs rfl)) hs

theorem heardRole_holds {a : Nat} {r : Role} {e : Word16} {s : State} (hs : law.Holds s) :
    law.Holds (heardRole a r e s) :=
  holds_ite hs (modPath_holds hs)

end Sys2Proof.Machine
end

section
/-! SUPPORT. The laws through the vault, the images, the settings, the caches, the ports, the service and the registers. -/

namespace Sys2Proof.Machine

variable {law : Law}

/-! ### Machine/Vault.lean -/

theorem modVault_holds {f : Vault → Vault} {s : State} (hs : law.Holds s) : law.Holds (modVault f s) :=
  holds_update hs rfl

theorem vaultSuspend_holds {s : State} (hs : law.Holds s) : law.Holds (vaultSuspend s) := by
  unfold vaultSuspend
  split
  · exact tick_holds (tick_holds (modVault_holds hs))
  · exact hs

theorem vaultRequestEffect_holds {r : VaultReq} {s : State} (hs : law.Holds s) : law.Holds (vaultRequestEffect r s) :=
  holds_ite hs (modVault_holds (holds_ite (vaultSuspend_holds (modVault_holds hs)) (modVault_holds hs)))

theorem keyServed_holds {c : HostCmd} {s : State} (hs : law.Holds s) : law.Holds (keyServed c s).2.2 :=
  done_ite_holds (keyImportCmd_holds hs) (done_ite_holds (keyExportCmd_holds hs) (keyCmacCmd_holds hs))

theorem keyRow_holds {f : HostCmd → State → AdminDone} {c : HostCmd} {s : State} (hs : law.Holds s)
    (hf : ∀ y1 t, law.Holds t → law.Holds (f y1 t).2.2) :
    law.Holds (keyRow f c s) := by
  unfold keyRow
  refine fetchRow_holds hs fun _ _ ht => holds_ite (answerCmd_holds ht) ?_
  split
  · exact vaultRequestEffect_holds (holds_update ht rfl)
  · exact holds_ite (holds_update ht rfl) (adminNow_holds ht hf)

theorem keyDone_holds {k : QKey × Word16} {s : State} (hs : law.Holds s) : law.Holds (keyDone k s) := by
  unfold keyDone
  split
  · exact hs
  · exact answerCmd_holds (keyServed_holds (holds_update hs rfl))

theorem vaultDoneEffect_holds {s : State} (hs : law.Holds s) : law.Holds (vaultDoneEffect s) := by
  unfold vaultDoneEffect
  split
  · exact hs
  · dsimp only
    split
    · exact keyDone_holds (modVault_holds hs)
    · exact emit_holds (modVault_holds hs)

theorem vaultOut_holds {n : Nat} {s : State} (hs : law.Holds s) : law.Holds (vaultOut n s) :=
  forEach_holds (holds_update (modVault_holds hs) rfl) fun _ _ ht => answerCmd_holds ht

theorem vaultTestDone_holds {pass : Bool} {s : State} (hs : law.Holds s) : law.Holds (vaultTestDone pass s) :=
  holds_ite hs (holds_ite (holds_ite (raise_holds (modVault_holds hs)) (raise_holds (vaultOut_holds hs)))
    (holds_ite (modVault_holds hs) (raise_holds (vaultOut_holds hs))))

/-! ### Machine/Rng.lean -/

theorem modRng_holds {f : Rng → Rng} {s : State} (hs : law.Holds s) : law.Holds (modRng f s) := holds_update hs rfl

/-- What an erase keeps: the lost keys below the device keys. -/
theorem lostSlots_eq (t : Tab Slot) : (t.map loseSlot).filter (fun p => p.2 != {}) =
    ((t.filter fun p => p.1 < 0x1FF0).map fun p => (p.1, (loseSlot (0, p.2)).2)).filter fun p => p.2 != {} := by
  induction t with
  | nil => rfl
  | cons p t ih =>
    by_cases hp : p.1 < 0x1FF0
    · simp only [List.map_cons, List.filter_cons, hp, decide_true, ↓reduceIte, ih]
      simp [loseSlot, hp]
    · simp only [List.map_cons, List.filter_cons, hp, decide_false, ih]
      simp [loseSlot, hp]

theorem eraseKeys_holds {s : State} (hs : law.Holds s) : law.Holds (eraseKeys s) := by
  unfold eraseKeys
  dsimp only
  refine hs.of_tables { hs.same with slots := fun hw => ?_, draws := fun hw => ?_ }
  · dsimp only
    rw [lostSlots_eq]
    exact tabWf_map_filter ({} : Slot) ({} : Slot) (fun k => (loseSlot (0, k)).2) (tabWf_filter _ _ hw)
  · dsimp only
    split
    · exact hw
    · rfl

theorem latchAlarm_holds {a : Alarm} {s : State} (hs : law.Holds s) : law.Holds (latchAlarm a s) := holds_update hs rfl

theorem alarm_holds {a : Alarm} {s : State} (hs : law.Holds s) : law.Holds (alarm a s) :=
  holds_ite (raise_holds (eraseKeys_holds (latchAlarm_holds (holds_update hs rfl))))
    (latchAlarm_holds (holds_update hs rfl))

theorem vwatchLostEffect_holds {s : State} (hs : law.Holds s) : law.Holds (vwatchLostEffect s) :=
  latchAlarm_holds (holds_update hs rfl)

theorem healthFail_holds {s : State} (hs : law.Holds s) : law.Holds (healthFail s) :=
  raiseIf_holds (raise_holds (wakeDrbg_holds (forEach_holds (modRng_holds hs) fun _ _ ht => emit_holds ht)))

theorem trngTests_holds {pass : Bool} {s : State} (hs : law.Holds s) : law.Holds (trngTests pass s) :=
  holds_ite (holds_ite (modRng_holds hs) (healthFail_holds hs)) hs

theorem generate_holds {n : Nat} {s : State} (hs : law.Holds s) : law.Holds (generate n s) :=
  drbgUse_holds (tickLong_holds (emit_holds hs))

theorem request_holds {n : Nat} {s : State} (hs : law.Holds s) : law.Holds (request n s) := by
  unfold request
  split
  · exact holds_ite (generate_holds hs) (modRng_holds hs)
  · exact modRng_holds hs
  · exact emit_holds hs

theorem serveWaiting_holds {s : State} (hs : law.Holds s) : law.Holds (serveWaiting s) :=
  forEach_holds (modRng_holds hs) fun _ _ ht => request_holds ht

theorem drbgUp_holds {s : State} (hs : law.Holds s) : law.Holds (drbgUp s) :=
  holds_ite (wakeDrbg_holds (serveWaiting_holds (modRng_holds hs))) hs

theorem healthTestFailEffect_holds {s : State} (hs : law.Holds s) : law.Holds (healthTestFailEffect s) :=
  holds_ite (healthFail_holds hs) hs

theorem reseedDone_holds {s : State} (hs : law.Holds s) : law.Holds (reseedDone s) :=
  holds_ite (wakeDrbg_holds (serveWaiting_holds (modRng_holds hs))) hs

theorem rowhammerReseedEffect_holds {s : State} (hs : law.Holds s) : law.Holds (rowhammerReseedEffect s) := by
  refine holds_ite (forEach_holds (drbgUse_holds (modRng_holds hs)) fun c t ht => ?_) hs
  exact ht.of_tables { ht.same with draws := tabWf_tabPut _ _ _ }

/-! ### Machine/Images.lean -/

theorem writeHeader_holds {second : Bool} {h : BootHeader} {s : State} (hs : law.Holds s) :
    law.Holds (writeHeader second h s) := by
  unfold writeHeader
  generalize buildHeader h = b
  exact holds_ite hs (writeNor_holds (clearNor_holds hs))

theorem setUnfinished_holds {b v : Bool} {s : State} (hs : law.Holds s) : law.Holds (setUnfinished b v s) :=
  holds_update hs rfl

theorem measExtend_holds {n : Nat} {data : Bytes} {s : State} (hs : law.Holds s) : law.Holds (measExtend n data s) :=
  holds_update hs rfl

/-! ### Machine/Settings.lean -/

theorem noteIgnored_holds {tag : Nat} {s : State} (hs : law.Holds s) : law.Holds (noteIgnored tag s) :=
  raise_holds (holds_update hs rfl)

theorem noteDefaulted_holds {tag : Nat} {s : State} (hs : law.Holds s) : law.Holds (noteDefaulted tag s) :=
  raise_holds (holds_update hs rfl)

theorem judgeTag_holds {l : List ProfRec} {tag : Nat} {s : State} (hs : law.Holds s) :
    law.Holds (judgeTag l tag s) := by
  unfold judgeTag
  dsimp only
  split
  · exact forEach_holds (forEach_holds hs fun _ _ ht => noteIgnored_holds ht) fun _ _ ht => noteDefaulted_holds ht
  · exact holds_ite (forEach_holds hs fun _ _ ht => noteIgnored_holds ht)
      (noteDefaulted_holds (forEach_holds hs fun _ _ ht => noteIgnored_holds ht))

theorem judgeUsed_holds {tag : Nat} {s : State} (hs : law.Holds s) : law.Holds (judgeUsed tag s) :=
  holds_ite (judgeTag_holds (forEach_holds hs fun _ _ ht => noteIgnored_holds ht))
    (noteDefaulted_holds (judgeTag_holds (forEach_holds hs fun _ _ ht => noteIgnored_holds ht)))

theorem judgeUnknown_holds {s : State} (hs : law.Holds s) : law.Holds (judgeUnknown s) :=
  forEach_holds hs fun _ _ ht => noteIgnored_holds ht

theorem earlySettings_holds {l : List ProfRec} {s : State} (hs : law.Holds s) : law.Holds (earlySettings l s) :=
  holds_update hs rfl

/-- A setting takes effect only where the profile holds it. -/
theorem setting_holds {o : Option Bytes} {f : Bytes → State} {t : State} (ht : law.Holds t)
    (hf : ∀ v, law.Holds (f v)) :
    law.Holds (match o with | some v => f v | none => t) := by
  cases o with
  | none => exact ht
  | some v => exact hf v

theorem applyFirst_holds {l : List ProfRec} {s : State} (hs : law.Holds s) : law.Holds (applyFirst l s) := by
  unfold applyFirst
  extract_lets _ a b _ c _ d _ e
  have ha : law.Holds a := setting_holds hs fun _ => raiseIf_holds (holds_update hs rfl)
  have hb : law.Holds b := setting_holds ha fun _ => applyPace_holds ha
  have hc : law.Holds c := setting_holds hb fun _ => hb.congr rfl
  have hd : law.Holds d := setting_holds hc fun _ => hc.congr rfl
  have he : law.Holds e := setting_holds hd fun _ => hd.congr rfl
  exact setting_holds he fun _ => he.congr rfl

theorem applySecond_holds {l : List ProfRec} {s : State} (hs : law.Holds s) : law.Holds (applySecond l s) := by
  unfold applySecond
  extract_lets _ a _ b _ c _ d _ e _ f
  have ha : law.Holds a := setting_holds hs fun _ => hs.congr rfl
  have hb : law.Holds b := setting_holds ha fun _ => ha.congr rfl
  have hc : law.Holds c := setting_holds hb fun _ => hb.congr rfl
  have hd : law.Holds d := setting_holds hc fun _ => hc.congr rfl
  have he : law.Holds e := setting_holds hd fun _ => hd.congr rfl
  have hf : law.Holds f := setting_holds he fun _ => he.congr rfl
  exact setting_holds hf fun _ => hf.congr rfl

theorem applySettings_holds {s : State} (hs : law.Holds s) : law.Holds (applySettings s) :=
  judgeUnknown_holds (forEach_holds (applySecond_holds (applyFirst_holds (earlySettings_holds hs))) fun _ _ ht =>
    judgeUsed_holds ht)

theorem applyDelays_holds {l : List ProfRec} {s : State} (hs : law.Holds s) : law.Holds (applyDelays l s) := by
  unfold applyDelays
  split
  · exact hs
  · exact onlyIf_holds (raiseIf_holds (holds_update hs rfl)) fun _ ht => tick_holds ht

theorem applyDramSettings_holds {s : State} (hs : law.Holds s) : law.Holds (applyDramSettings s) :=
  applyDelays_holds (forEach_holds hs fun _ _ ht => judgeTag_holds ht)

/-! ### Machine/Watch.lean -/

theorem wchCross_holds {p : WchPending} {s : State} (hs : law.Holds s) : law.Holds (wchCross p s) :=
  holds_ite (holds_update hs rfl) (holds_update hs rfl)

theorem wchRegisterWriteEffect_holds {w : WchWrite} {s : State} (hs : law.Holds s) :
    law.Holds (wchRegisterWriteEffect w s) := by
  unfold wchRegisterWriteEffect
  split
  · exact holds_update hs rfl
  · exact wchCross_holds hs
  · exact wchCross_holds hs

theorem wchRestoreWriteEffect_holds {upper : Word32} {s : State} (hs : law.Holds s) :
    law.Holds (wchRestoreWriteEffect upper s) :=
  holds_ite (holds_update hs rfl) (wchCross_holds hs)

theorem wchWriteTakenEffect_holds {s : State} (hs : law.Holds s) : law.Holds (wchWriteTakenEffect s) := by
  unfold wchWriteTakenEffect
  split
  · exact hs
  · exact holds_update hs rfl
  · exact holds_ite (holds_update hs rfl) (raiseListed_holds (holds_update hs rfl))

theorem opSecondsTickEffect_holds {s : State} (hs : law.Holds s) : law.Holds (opSecondsTickEffect s) :=
  holds_ite (holds_update hs rfl) hs

/-! ### Machine/Boot.lean -/

theorem sysResetEffect.lowPin_holds {t : State} (hs : law.Holds t) : law.Holds (sysResetEffect.lowPin t) :=
  holds_update hs rfl

theorem releaseReset_holds {head : Bool} {sel : BitVec 2} {s : State} (hs : law.Holds s) :
    law.Holds (releaseReset head sel s) :=
  holds_ite hs (restat_holds (holds_update hs rfl))

theorem reach_holds {n : Nat} {s : State} (hs : law.Holds s) : law.Holds (reach n s) := holds_update hs rfl

theorem enterHeld_holds {s : State} (hs : law.Holds s) : law.Holds (enterHeld s) := holds_update hs rfl

theorem octalEffect_holds {s : State} (hs : law.Holds s) : law.Holds (octalEffect s) := by
  unfold octalEffect
  split
  · exact hs
  · exact raiseIf_holds (reach_holds (holds_update hs rfl))

theorem useProfile_holds {sel : BitVec 2} {len : Nat} {l : List ProfRec} {s : State} (hs : law.Holds s) :
    law.Holds (useProfile sel len l s) :=
  reach_holds (earlySettings_holds (holds_update (measExtend_holds hs) rfl))

theorem firstBands_holds {temps : List Int} {s : State} (hs : law.Holds s) : law.Holds (firstBands temps s) := by
  refine forEach_holds hs fun c t ht => noteHot_holds ?_
  exact ht.of_tables { ht.same with temps := tabWf_tabPut _ _ _, bands := tabWf_tabPut _ _ _ }

theorem firmwareReadEffect_holds {s : State} (hs : law.Holds s) : law.Holds (firmwareReadEffect s) :=
  holds_ite (measExtend_holds (measExtend_holds (reach_holds (holds_update hs rfl))))
    (reach_holds (holds_update hs rfl))

theorem sizeAreas_holds {s : State} (hs : law.Holds s) : law.Holds (sizeAreas s) := by
  have areas_holds : ∀ (g : Ing) (m : MedAreas), law.Holds { s with ing := g, med := { s.med with areas := m } } :=
    fun _ _ =>
    holds_update hs rfl
  exact areas_holds _ _

theorem startLanes_holds {s : State} (hs : law.Holds s) : law.Holds (startLanes s) :=
  forEach_holds (holds_update hs rfl) fun _ _ ht => modLane_holds ht

theorem measureOther_holds {s : State} (hs : law.Holds s) : law.Holds (measureOther s) :=
  holds_ite (measExtend_holds hs) (tickLong_holds (measExtend_holds hs))

theorem coreReleaseEffect_holds {s : State} (hs : law.Holds s) : law.Holds (coreReleaseEffect s) :=
  sendHello_holds (startLanes_holds (measureOther_holds (sizeAreas_holds (applySettings_holds (holds_update hs rfl)))))

theorem restoreSlot_holds {swk : Bytes} {p : Nat × Bytes} {s : State} (hs : law.Holds s) :
    law.Holds (restoreSlot swk p s) := by
  unfold restoreSlot
  dsimp only
  split
  · exact setSlot_holds hs
  · exact raise_holds (holds_ite hs (setSlot_holds hs))

theorem swkCopied_holds {s : State} (hs : law.Holds s) : law.Holds (swkCopied s) := by
  unfold swkCopied
  split
  · exact setSlot_holds hs
  · exact hs

theorem restoreKeys_holds {s : State} (hs : law.Holds s) : law.Holds (restoreKeys s) := by
  unfold restoreKeys
  split
  · exact swkCopied_holds (forEach_holds hs fun _ _ ht => restoreSlot_holds ht)
  · exact swkCopied_holds (forEach_holds (drbgUse_holds (tick_holds (holds_update hs rfl))) fun _ _ ht => raise_holds
      (holds_ite ht (setSlot_holds ht)))

theorem rollback_holds {s : State} (hs : law.Holds s) : law.Holds (rollback s) := by
  unfold rollback
  split
  · exact hs
  · exact holds_ite hs (raiseListed_holds (writeHeader_holds hs))

theorem throttleEffect_holds {t : Int} {s : State} (hs : law.Holds s) : law.Holds (throttleEffect t s) :=
  holds_ite hs (noteClk_holds (holds_update hs rfl))

theorem thermalShutdown_holds {t : Int} {s : State} (hs : law.Holds s) : law.Holds (thermalShutdown t s) :=
  holds_ite hs (holds_update (powerLoss_holds (raise_holds (holds_update hs rfl))) rfl)

theorem junctionEffect_holds {temps : List Int} {s : State} (hs : law.Holds s) :
    law.Holds (junctionEffect temps s) := by
  unfold junctionEffect
  split
  · exact hs
  · exact holds_ite hs (thermalShutdown_holds (throttleEffect_holds (holds_update hs rfl)))

/-! ### Machine/Cache.lean -/

theorem modSlice_holds {n : Nat} {f : Slice → Slice} {s : State} (hs : law.Holds s) : law.Holds (modSlice n f s) :=
  hs.of_tables { hs.same with slices := tabWf_tabMod _ _ _ }

theorem drainLine_holds {n line : Nat} {s : State} (hs : law.Holds s) : law.Holds (drainLine n line s) :=
  forEach_holds (modSlice_holds (forEach_holds hs fun _ _ ht => writeDram_holds ht)) fun _ _ ht => emit_holds ht

theorem writeEffect_holds {n line off : Nat} {data : Bytes} {s : State} (hs : law.Holds s) :
    law.Holds (writeEffect n line off data s) :=
  holds_ite (holds_ite (modSlice_holds hs) (modSlice_holds hs))
    (drainLine_holds (tick_holds (holds_ite (modSlice_holds hs) (modSlice_holds hs))))

theorem missEffect_holds {n stream line : Nat} {s : State} (hs : law.Holds s) :
    law.Holds (missEffect n stream line s) :=
  modSlice_holds hs

theorem countRefetch_holds {s : State} (hs : law.Holds s) : law.Holds (countRefetch s) := holds_update hs rfl

theorem readLine_holds {n stream line : Nat} {parityError : Bool} {s : State} (hs : law.Holds s) :
    law.Holds (readLine n stream line parityError s) :=
  holds_ite hs (holds_ite (countRefetch_holds (modSlice_holds hs)) (holds_ite (emit_holds hs) (missEffect_holds hs)))

theorem keepWord_holds {addr : Nat} {s : State} (hs : law.Holds s) : law.Holds (keepWord addr s) :=
  holds_ite (tick_holds (holds_update hs rfl)) hs

theorem readScratch_holds {stream addr : Nat} {bits : Fin 3} {cmd : Option Nat} {s : State} (hs : law.Holds s) :
    law.Holds (readScratch stream addr bits cmd s) :=
  holds_ite (forSome_holds (raise_holds (holds_update hs rfl)) fun _ _ ht => loseCommand_holds ht)
    (keepWord_holds (emit_holds (holds_ite (holds_update hs rfl) hs)))

theorem releaseLine_holds {n line : Nat} {s : State} (hs : law.Holds s) : law.Holds (releaseLine n line s) :=
  forEach_holds (modSlice_holds hs) fun _ _ ht => emit_holds ht

theorem serveQueued_holds {n : Nat} {s : State} (hs : law.Holds s) : law.Holds (serveQueued n s) := by
  unfold serveQueued
  split
  · exact hs
  · exact holds_ite (emit_holds (modSlice_holds hs)) (modSlice_holds (modSlice_holds hs))

theorem nextQueued_holds {n : Nat} {s : State} (hs : law.Holds s) : law.Holds (nextQueued n s) :=
  forEach_holds hs fun _ _ ht => onlyIf_holds ht fun _ hu => serveQueued_holds hu

theorem retireLine_holds {n line : Nat} {s : State} (hs : law.Holds s) : law.Holds (retireLine n line s) :=
  raiseIf_holds (raise_holds (modSlice_holds hs))

theorem fillEffect_holds {n line : Nat} {parityError : Bool} {displaced : List Nat} {s : State} (hs : law.Holds s) :
    law.Holds (fillEffect n line parityError displaced s) :=
  holds_ite hs (holds_ite (countRefetch_holds (modSlice_holds hs))
    (nextQueued_holds (releaseLine_holds (holds_ite (retireLine_holds (modSlice_holds hs))
    (modSlice_holds (modSlice_holds hs))))))

/-! ### Machine/Digest.lean -/

theorem modDg_holds {f : Dg → Dg} {s : State} (hs : law.Holds s) : law.Holds (modDg f s) := holds_update hs rfl

theorem dgCtl_holds {ctl : Word32} {s : State} (hs : law.Holds s) : law.Holds (dgCtl ctl s) := modDg_holds hs

theorem digestDoneEffect_holds {s : State} (hs : law.Holds s) : law.Holds (digestDoneEffect s) :=
  holds_ite (modDg_holds hs) hs

/-! ### Machine/Hep.lean -/

theorem receiverDetect_holds {p : Fin 2} {partner : Fin 4} {width : Fin 6} {flit : Bool} {s : State}
    (hs : law.Holds s) :
    law.Holds (receiverDetect p partner width flit s) :=
  holds_ite (modPort_holds hs) hs

theorem cfgRequest_holds {f : FnId} {act : State → State} {s : State} (hs : law.Holds s)
    (hact : ∀ t, law.Holds t → law.Holds (act t)) :
    law.Holds (cfgRequest f act s) :=
  holds_ite (emit_holds hs) (holds_ite (emit_holds hs) (hact _ hs))

theorem clearFunctions_holds {p : FnId → Bool} {s : State} (hs : law.Holds s) : law.Holds (clearFunctions p s) :=
  holds_update (dropQps_holds (settleQueues_holds hs)) rfl

theorem portReset_holds {p : Fin 2} {s : State} (hs : law.Holds s) : law.Holds (portReset p s) := by
  unfold portReset
  exact modPort_holds (clearFunctions_holds hs)

theorem perstAssertEffect_holds {p : Fin 2} {lowNs : Nat} {s : State} (hs : law.Holds s) :
    law.Holds (perstAssertEffect p lowNs s) :=
  holds_ite (portReset_holds (modPort_holds hs)) hs

theorem linkReset_holds {p : Fin 2} {s : State} (hs : law.Holds s) : law.Holds (linkReset p s) :=
  holds_ite (portReset_holds hs) hs

theorem pf0FlrEffect_holds {p : Fin 2} {s : State} (hs : law.Holds s) : law.Holds (pf0FlrEffect p s) := by
  unfold pf0FlrEffect
  exact modPort_holds (clearFunctions_holds hs)

theorem vfFlrEffect_holds {f : FnId} {s : State} (hs : law.Holds s) : law.Holds (vfFlrEffect f s) :=
  holds_ite hs (modPort_holds (clearFunctions_holds hs))

theorem logHeader_holds {p : Fin 2} {s : State} (hs : law.Holds s) : law.Holds (logHeader p s) :=
  holds_ite (tick_holds (modPort_holds hs)) hs

theorem reportAer_holds {p : Fin 2} {bit : Nat} {s : State} (hs : law.Holds s) : law.Holds (reportAer p bit s) :=
  holds_ite (modPort_holds hs) (emit_holds (modPort_holds (logHeader_holds hs)))

theorem reportPoison_holds {p : Fin 2} {s : State} (hs : law.Holds s) : law.Holds (reportPoison p s) :=
  holds_ite (modPort_holds (logHeader_holds hs)) (emit_holds (modPort_holds (logHeader_holds hs)))

theorem freezePort_holds {p : Fin 2} {c : Fin 6} {s : State} (hs : law.Holds s) : law.Holds (freezePort p c s) := by
  have ht : law.Holds (reportAer p c.val s) := reportAer_holds hs
  unfold freezePort
  exact modPort_holds (holds_ite ht (forEach_holds (settleQueues_holds ht) fun _ _ hu => freezeQueue_holds hu))

theorem tlpErrorEffect_holds {p : Fin 2} {c : Fin 6} {s : State} (hs : law.Holds s) :
    law.Holds (tlpErrorEffect p c s) :=
  holds_ite (freezePort_holds hs) hs

theorem portReleaseEffect_holds {p : Fin 2} {s : State} (hs : law.Holds s) : law.Holds (portReleaseEffect p s) :=
  holds_ite (modPort_holds hs) hs

theorem poisonData_holds {p : Fin 2} {id : Nat} {s : State} (hs : law.Holds s) : law.Holds (poisonData p id s) := by
  unfold poisonData
  split
  · exact hs
  · refine holds_ite ?_ hs
    split
    · exact poisonWrite_holds hs
    · exact holds_ite (finishCmd_holds (holds_update hs rfl)) hs
    · exact hs

theorem poisonedEffect_holds {p : Fin 2} {k : PoisonKind} {s : State} (hs : law.Holds s) :
    law.Holds (poisonedEffect p k s) := by
  unfold poisonedEffect
  dsimp only
  split
  · exact poisonData_holds (reportPoison_holds hs)
  · exact holds_ite (freezeAtFetch_holds (reportPoison_holds hs)) (reportPoison_holds hs)
  · exact holds_ite (freezeAtFetch_holds (reportPoison_holds hs)) (reportPoison_holds hs)
  · exact dropDoorbell_holds (reportPoison_holds hs)
  · exact reportPoison_holds hs

theorem sendPending_holds {f : FnId} {v : Nat} {s : State} (hs : law.Holds s) : law.Holds (sendPending f v s) :=
  holds_ite (emit_holds (putVector_holds hs)) hs

theorem msixUnmaskEffect_holds {f : FnId} {v : Nat} {s : State} (hs : law.Holds s) :
    law.Holds (msixUnmaskEffect f v s) :=
  holds_ite (sendPending_holds (putVector_holds hs)) hs

theorem setD3_holds {f : FnId} {s : State} (hs : law.Holds s) : law.Holds (setD3 f s) := holds_update hs rfl

theorem clearD3_holds {f : FnId} {s : State} (hs : law.Holds s) : law.Holds (clearD3 f s) := holds_update hs rfl

/-! ### Machine/Svc.lean -/

theorem reply_holds {f : DwFrame} {status : Nat} {payload : Bytes} {s : State} (hs : law.Holds s) :
    law.Holds (reply f status payload s) :=
  emit_holds (holds_update hs rfl)

theorem replyAuth_holds {f : DwFrame} {s : State} (hs : law.Holds s) : law.Holds (replyAuth f s) :=
  reply_holds (holds_update hs rfl)

theorem checkKey_holds {f : DwFrame} {required : Bool} {body : State → State} {s : State} (hs : law.Holds s)
    (hbody : ∀ t, law.Holds t → law.Holds (body t)) :
    law.Holds (checkKey f required body s) :=
  holds_ite (hbody _ hs) (holds_ite (holds_ite (reply_holds hs) (holds_ite (hbody _ (holds_update hs rfl))
    (replyAuth_holds hs))) (holds_ite (replyAuth_holds hs) (hbody _ hs)))

theorem onceOnly_holds {f : DwFrame} {body : State → State} {s : State} (hs : law.Holds s)
    (hbody : ∀ t, law.Holds t → law.Holds (body t)) :
    law.Holds (onceOnly f body s) :=
  onceOnly_keeps hs (fun _ _ _ _ => emit_holds hs) (hbody s hs)

theorem svcRow_holds {f : DwFrame} {states : List Service} {required : Bool} {body : State → State} {s : State}
    (hs : law.Holds s) (hbody : ∀ t, law.Holds t → law.Holds (body t)) :
    law.Holds (svcRow f states required body s) :=
  onceOnly_holds hs fun _ ht => holds_ite (checkKey_holds ht hbody) (reply_holds ht)

theorem answerHello_holds {f : DwFrame} {s : State} (hs : law.Holds s) : law.Holds (answerHello f s) :=
  reply_holds (tick_holds (holds_update hs rfl))

theorem dweunoHelloEffect_holds {f : DwFrame} {s : State} (hs : law.Holds s) : law.Holds (dweunoHelloEffect f s) :=
  onceOnly_holds hs fun _ ht => holds_ite (checkKey_holds ht fun _ hu => answerHello_holds hu)
    (holds_ite (answerHello_holds (holds_update ht rfl)) (reply_holds ht))

theorem profileSelectBody_holds {f : DwFrame} {s : State} (hs : law.Holds s) : law.Holds (profileSelectBody f s) :=
  holds_ite (reply_holds hs) (reply_holds (selectOverride_holds hs))

theorem norRewrite_holds {a n : Nat} {data : Bytes} {s : State} (hs : law.Holds s) :
    law.Holds (norRewrite a n data s) :=
  holds_ite hs (writeNor_holds (clearNor_holds hs))

theorem profileWriteBody_holds {f : DwFrame} {s : State} (hs : law.Holds s) : law.Holds (profileWriteBody f s) :=
  holds_ite (reply_holds hs) (holds_ite (reply_holds hs) (holds_ite (reply_holds (holds_update hs rfl))
    (holds_ite (reply_holds (norRewrite_holds (holds_update hs rfl))) (reply_holds (holds_update hs rfl)))))

theorem stageBeginBody_holds {f : DwFrame} {s : State} (hs : law.Holds s) : law.Holds (stageBeginBody f s) :=
  holds_ite (reply_holds hs) (holds_ite (reply_holds hs)
    (reply_holds (norRewrite_holds (setUnfinished_holds (holds_update hs rfl)))))

theorem stageDataBody_holds {f : DwFrame} {s : State} (hs : law.Holds s) : law.Holds (stageDataBody f s) :=
  holds_ite (reply_holds hs) (holds_ite (reply_holds hs) (holds_ite (reply_holds (holds_update hs rfl))
    (reply_holds (holds_ite hs (writeNor_holds hs)))))

theorem badImage_holds {f : DwFrame} {b : Bool} {detail : Nat} {s : State} (hs : law.Holds s) :
    law.Holds (badImage f b detail s) :=
  reply_holds (raiseListed_holds hs)

theorem stageEndBody_holds {f : DwFrame} {s : State} (hs : law.Holds s) : law.Holds (stageEndBody f s) :=
  holds_ite (reply_holds hs) (holds_ite (badImage_holds (holds_update hs rfl))
    (reply_holds (raiseListed_holds (holds_update (setUnfinished_holds hs) rfl))))

theorem switchOver_holds {s : State} (hs : law.Holds s) : law.Holds (switchOver s) :=
  holds_ite hs (writeHeader_holds (writeHeader_holds hs))

theorem activateBody_holds {f : DwFrame} {s : State} (hs : law.Holds s) : law.Holds (activateBody f s) := by
  unfold activateBody
  extract_lets _ _ _ _ _ _ _ t u v _ w
  refine holds_ite (reply_holds hs) (holds_ite (reply_holds hs) (holds_ite (reply_holds hs)
    (holds_ite (reply_holds hs) ?_)))
  refine holds_ite (reply_holds hs) (holds_ite (badImage_holds (holds_update hs rfl)) ?_)
  have hv : law.Holds v := measExtend_holds (raiseListed_holds (switchOver_holds (holds_update hs rfl)))
  clear_value v
  have hw : law.Holds w := reply_holds hv
  clear_value w
  exact holds_ite (beginSwap_holds (holds_update hv rfl)) (holds_ite (holds_update hw rfl) hw)

theorem eventReadBody_holds {f : DwFrame} {media : List Bytes} {s : State} (hs : law.Holds s) :
    law.Holds (eventReadBody f media s) :=
  holds_ite (reply_holds hs) (holds_ite (reply_holds hs) (reply_holds hs))

theorem enrolKey_holds {n method : Nat} {k : Bytes} {s : State} (hs : law.Holds s) :
    law.Holds (enrolKey n method k s) :=
  raiseListed_holds (measExtend_holds (writeSlot_holds hs))

theorem keysetBody_holds {f : DwFrame} {s : State} (hs : law.Holds s) : law.Holds (keysetBody f s) := by
  unfold keysetBody
  refine holds_ite (reply_holds hs) (holds_ite (reply_holds hs) ?_)
  split
  · exact reply_holds hs
  · exact reply_holds (enrolKey_holds hs)

theorem keysetEffect_holds {f : DwFrame} {s : State} (hs : law.Holds s) : law.Holds (keysetEffect f s) :=
  svcRow_holds hs fun _ ht => keysetBody_holds ht

theorem setLayout_holds {n : Nat} {l : Layout} {s : State} (hs : law.Holds s) : law.Holds (setLayout n l s) :=
  holds_ite (holds_update hs rfl) (holds_ite (holds_update hs rfl) (holds_update hs rfl))

theorem reshapeBody_holds {f : DwFrame} {s : State} (hs : law.Holds s) : law.Holds (reshapeBody f s) :=
  holds_ite (reply_holds hs) (holds_ite (reply_holds hs) (holds_ite (reply_holds (raise_holds hs))
    (reply_holds (addTask_holds (setLayout_holds (holds_update hs rfl))))))

theorem reEnumerateBody_holds {f : DwFrame} {s : State} (hs : law.Holds s) : law.Holds (reEnumerateBody f s) :=
  holds_ite (startEnum_holds (reply_holds hs)) (reply_holds hs)

theorem testRefused_holds {f : DwFrame} {s : State} (hs : law.Holds s) : law.Holds (testRefused f s) :=
  reply_holds (raise_holds hs)

theorem clearChannel_holds {c : Nat} {s : State} (hs : law.Holds s) : law.Holds (clearChannel c s) :=
  hs.of_tables { hs.same with dram := tabWf_filter _ _ }

theorem sweepBody_holds {f : DwFrame} {maps : List Bytes} {s : State} (hs : law.Holds s) :
    law.Holds (sweepBody f maps s) :=
  holds_ite (reply_holds hs) (reply_holds (clearChannel_holds hs))

theorem unlistedEffect_holds {f : DwFrame} {s : State} (hs : law.Holds s) : law.Holds (unlistedEffect f s) :=
  onceOnly_holds hs fun _ ht => holds_ite ht (reply_holds ht)

/-! ### Machine/Regs.lean -/

theorem recordOutside_holds {p : Fin 2} {write : Bool} {o : Nat} {s : State} (hs : law.Holds s) :
    law.Holds (recordOutside p write o s) :=
  modPort_holds hs

theorem recordAccess_holds {q : Requester} {write : Bool} {o w : Nat} {s : State} (hs : law.Holds s) :
    law.Holds (recordAccess q write o w s) := by
  unfold recordAccess
  split
  · exact forEach_holds hs fun _ _ ht => recordOutside_holds ht
  · exact hs

theorem setLatch_holds {p : Fin 2} {l : List (Nat × Word32)} {s : State} (hs : law.Holds s) :
    law.Holds (setLatch p l s) :=
  holds_ite (holds_update hs rfl) (holds_update hs rfl)

theorem clearRc_holds {o : Nat} {s : State} (hs : law.Holds s) : law.Holds (clearRc o s) :=
  holds_ite (holds_update hs rfl) (holds_ite (modPort_holds hs) (holds_ite (modPort_holds hs)
    (holds_ite (holds_update hs rfl) (holds_ite (holds_update hs rfl) (holds_ite (holds_update hs rfl)
    (holds_ite (holds_update hs rfl) hs))))))

theorem earlyDigestRead_holds {o : Nat} {s : State} (hs : law.Holds s) : law.Holds (earlyDigestRead o s) :=
  holds_ite (modDg_holds hs) hs

theorem latchRead_holds {q : Requester} {o : Nat} {s : State} (hs : law.Holds s) : law.Holds (latchRead q o s) := by
  unfold latchRead
  split
  · exact holds_ite (setLatch_holds hs) (holds_ite (setLatch_holds hs) hs)
  · exact hs

theorem readEffect_holds {latch : Bool} {q : Requester} {o : Nat} {s : State} (hs : law.Holds s) :
    law.Holds (readEffect latch q o s) :=
  holds_ite hs (holds_ite (latchRead_holds (clearRc_holds (earlyDigestRead_holds hs)))
    (clearRc_holds (earlyDigestRead_holds hs)))

theorem regRead_holds {r : RegRead} {s : State} (hs : law.Holds s) : law.Holds (regRead r s) :=
  holds_ite (forEach_holds (emit_holds (recordAccess_holds hs)) fun _ _ ht => readEffect_holds ht)
    (emit_holds (recordAccess_holds hs))

theorem outsideEffect_holds {p : Fin 2} {o : BitVec 25} {w : Nat} {write : Bool} {s : State} (hs : law.Holds s) :
    law.Holds (outsideEffect p o w write s) :=
  holds_ite (recordAccess_holds hs) (regRead_holds hs)

theorem writeHep_holds {p : Fin 2} {o : Nat} {v : Word32} {s : State} (hs : law.Holds s) :
    law.Holds (writeHep p o v s) :=
  holds_ite (modPort_holds hs) (holds_ite (portReleaseEffect_holds hs) hs)

theorem writeSec_holds {o : Nat} {v : Word32} {s : State} (hs : law.Holds s) : law.Holds (writeSec o v s) :=
  holds_ite (dgCtl_holds hs) (holds_ite (modDg_holds hs) (holds_ite (modDg_holds hs) (holds_ite (modDg_holds hs)
    (holds_ite (modDg_holds hs) (holds_ite (modDg_holds hs) hs)))))

theorem writeEvr_holds {o : Nat} {v : Word32} {s : State} (hs : law.Holds s) : law.Holds (writeEvr o v s) :=
  holds_ite (holds_update hs rfl) (holds_ite (evrReadRequestEffect_holds hs) (holds_ite (holds_update hs rfl)
    (holds_ite (evrReadRequestEffect_holds hs) hs)))

theorem writeNvc_holds {o : Nat} {v : Word32} {s : State} (hs : law.Holds s) : law.Holds (writeNvc o v s) :=
  holds_ite (holds_update hs rfl) (holds_ite (holds_update hs rfl) hs)

theorem writeWch_holds {o : Nat} {v : Word32} {s : State} (hs : law.Holds s) : law.Holds (writeWch o v s) :=
  holds_ite (holds_update hs rfl) (holds_ite (holds_update hs rfl) (holds_ite (wchRestoreWriteEffect_holds hs) hs))

theorem writeWdog_holds {q : Requester} {v : Word32} {s : State} (hs : law.Holds s) : law.Holds (writeWdog q v s) := by
  unfold writeWdog
  split
  · exact wdogWriteEffect_holds hs
  · exact holds_update hs rfl

theorem wordWrite_holds {q : Requester} {o : Nat} {v : Word32} {s : State} (hs : law.Holds s) :
    law.Holds (wordWrite q o v s) :=
  holds_ite hs (holds_ite (writeHep_holds hs) (holds_ite (writeHep_holds hs)
    (holds_ite hs (holds_ite (writeSec_holds hs) (holds_ite (writeWdog_holds hs)
    (holds_ite hs (holds_ite (writeEvr_holds hs)
    (holds_ite hs (holds_ite (writeNvc_holds hs) (holds_ite (writeWch_holds hs) hs))))))))))

theorem controlWrite_holds {q : Requester} {o w : Nat} {v : Word64} {s : State} (hs : law.Holds s) :
    law.Holds (controlWrite q o w v s) :=
  holds_ite (forEach_holds (recordAccess_holds hs) fun _ _ ht => wordWrite_holds ht) (recordAccess_holds hs)

theorem baseWrite_holds {f : FnId} {o : Nat} {v : Word32} {s : State} (hs : law.Holds s) :
    law.Holds (baseWrite f o v s) :=
  holds_ite hs (holds_ite (putAdmin_holds hs) (holds_ite (putAdmin_holds hs) (holds_ite (putAdmin_holds hs)
    (holds_ite (putAdmin_holds hs) hs))))

theorem adminCfgWrite_holds {f : FnId} {v : Word32} {s : State} (hs : law.Holds s) : law.Holds (adminCfgWrite f v s) :=
  holds_ite (adminDisable_holds hs) (holds_ite (adminEnable_holds hs) (adminRestart_holds (tickLong_holds hs)))

theorem slotWord_holds {f : FnId} {o : Nat} {v : Word32} {s : State} (hs : law.Holds s) :
    law.Holds (slotWord f o v s) :=
  holds_ite (sqTail_holds hs) (holds_ite (cqHead_holds hs) (holds_ite (adminCfgWrite_holds hs) (baseWrite_holds hs)))

theorem slotWrite_holds {f : FnId} {o w : Nat} {v : Word64} {s : State} (hs : law.Holds s) :
    law.Holds (slotWrite f o w v s) :=
  bar2Write_holds hs fun _ ht => holds_ite (forEach_holds ht fun _ _ hu => slotWord_holds hu) ht

theorem msixWrite_holds {f : FnId} {o : Nat} {v : Word32} {s : State} (hs : law.Holds s) :
    law.Holds (msixWrite f o v s) :=
  holds_ite hs (holds_ite (putVector_holds hs) (holds_ite (putVector_holds hs) (holds_ite (putVector_holds hs)
    (holds_ite (putVector_holds hs) (sendPending_holds (putVector_holds hs))))))

theorem tableWrite_holds {f : FnId} {o w : Nat} {v : Word64} {s : State} (hs : law.Holds s) :
    law.Holds (tableWrite f o w v s) :=
  holds_ite (forEach_holds hs fun _ _ ht => msixWrite_holds ht) hs

theorem setNumVf_holds {p : Fin 2} {n : Nat} {s : State} (hs : law.Holds s) : law.Holds (setNumVf p n s) :=
  holds_ite hs (modPort_holds (holds_ite (clearFunctions_holds hs) hs))

theorem setFnMask_holds {f : FnId} {m : Bool} {s : State} (hs : law.Holds s) : law.Holds (setFnMask f m s) :=
  holds_ite (holds_update hs rfl) (forEach_holds (holds_update hs rfl) fun _ _ ht => sendPending_holds ht)

theorem modCfg_holds {f : FnId} {g : FnCfg → FnCfg} {s : State} (hs : law.Holds s) : law.Holds (modCfg f g s) :=
  holds_update hs rfl

theorem configWrite_holds {f : FnId} {o : Nat} {v : Word64} {s : State} (hs : law.Holds s) :
    law.Holds (configWrite f o v s) :=
  cfgRequest_holds hs fun _ ht => emit_holds (holds_ite (holds_ite (setNumVf_holds ht) ht)
    (holds_ite (setFnMask_holds ht) (holds_ite (holds_ite (modPort_holds ht) ht) (modCfg_holds ht))))

theorem registerWriteEffect_holds {w : RegWrite} {s : State} (hs : law.Holds s) :
    law.Holds (registerWriteEffect w s) := by
  unfold registerWriteEffect
  split
  · exact controlWrite_holds hs
  · exact slotWrite_holds hs
  · exact tableWrite_holds hs
  · exact configWrite_holds hs

theorem debugBody_holds {f : DwFrame} {s : State} (hs : law.Holds s) : law.Holds (debugBody f s) :=
  holds_ite (reply_holds hs) (holds_ite (reply_holds (controlWrite_holds hs)) (reply_holds (regRead_holds hs)))

theorem debugAccessEffect_holds {f : DwFrame} {s : State} (hs : law.Holds s) : law.Holds (debugAccessEffect f s) :=
  onceOnly_holds hs fun _ ht => holds_ite (reply_holds ht) (holds_ite (checkKey_holds ht fun _ hu => reply_holds hu)
    (holds_ite (checkKey_holds ht fun _ hu => debugBody_holds hu) (reply_holds ht)))

end Sys2Proof.Machine
end

section
/-! SUPPORT. The laws through the resets, START-UP, TEST ENTRY and the fuses, and so through every command. -/

namespace Sys2Proof.Machine

variable {law : Law}

/-! ### The resets, START-UP, TEST ENTRY and the fuses -/

theorem setService_holds {v : Service} {s : State} (hs : law.Holds s) : law.Holds (setService v s) :=
  restat_holds (holds_update hs rfl)

/-- A reset begins with canonical tables and no outstanding command (R33). -/
theorem clearedState_holds {c : ResetCause} {s : State} (hs : law.Holds s) : law.Holds (clearedState c s) := by
  refine hs.of_tables { hs.same with
    dram := fun _ => rfl, slots := fun _ => rfl, lanes := fun _ => rfl, paths := fun _ => rfl, table := fun _ => rfl
    floor := fun _ => rfl, queues := fun _ => rfl, owed := fun _ => rfl, temps := fun _ => rfl, missed := fun _ => rfl
    bands := fun _ => rfl, draws := fun _ => rfl, fresh := fun _ _ hc => absurd hc List.not_mem_nil
    modules := tabWf_map_filter ({} : Module) ({} : Module) (moduleKept s.glb.headId)
    dies := fun hd m hm => ?_
    slices := fun hw => ?_ }
  · unfold clearedState
    dsimp only
    split
    · exact tabWf_map_filter ({} : Slice) ({} : Slice) (fun x => { retired := x.retired }) hw
    · rfl
  · obtain ⟨p, hp, rfl⟩ := List.mem_map.mp (List.mem_filter.mp hm).1
    exact linkGone_dies _ (hd p hp)

theorem chipWideReset_holds {c : ResetCause} {s : State} (hs : law.Holds s) : law.Holds (chipWideReset c s) :=
  forEach_holds (loseBlocks_holds (clearedState_holds (dropVolatileRefs_holds (norReset_holds (stopFlush_holds hs)))))
    fun _ _ ht => raise_holds ht

theorem pinReset_holds {s : State} (hs : law.Holds s) : law.Holds (pinReset s) :=
  holds_ite hs (restat_holds (chipWideReset_holds hs))

theorem sysResetEffect_holds {n : Nat} {s : State} (hs : law.Holds s) : law.Holds (sysResetEffect n s) :=
  holds_ite hs (holds_ite (pinReset_holds (sysResetEffect.lowPin_holds hs)) (holds_ite (tick_holds hs)
    (pinReset_holds (sysResetEffect.lowPin_holds (tick_holds hs)))))

theorem testModeEffect_holds {s : State} (hs : law.Holds s) : law.Holds (testModeEffect s) :=
  holds_ite (holds_update (pinReset_holds hs) rfl) hs

theorem commandResetEffect_holds {s : State} (hs : law.Holds s) : law.Holds (commandResetEffect s) :=
  holds_ite (restat_holds (chipWideReset_holds hs)) hs

theorem watchdogEffect_holds {s : State} (hs : law.Holds s) : law.Holds (watchdogEffect s) :=
  holds_ite (restat_holds (chipWideReset_holds hs)) hs

theorem supplyFallEffect_holds {s : State} (hs : law.Holds s) : law.Holds (supplyFallEffect s) :=
  holds_ite hs (holds_update (chipWideReset_holds (holds_ite hs (alarm_holds hs))) rfl)

theorem powerOnEffect_holds {held high : Bool} {s : State} (hs : law.Holds s) :
    law.Holds (powerOnEffect held high s) := by
  unfold powerOnEffect
  extract_lets t _ _ _ u _ v _
  have ht : law.Holds t := holds_ite (chipWideReset_holds hs) hs
  clear_value t
  have hu : law.Holds u := holds_update ht rfl
  clear_value u
  have hv : law.Holds v := holds_ite hu
    (vwatchLostEffect_holds (tick_holds (tick_holds (tick_holds (holds_update hu rfl)))))
  clear_value v
  exact restat_holds (holds_update hv rfl)

theorem flushCompleteEffect_holds {s : State} (hs : law.Holds s) : law.Holds (flushCompleteEffect s) := by
  unfold flushCompleteEffect
  split
  · exact hs
  · extract_lets _ t _ u
    have ht : law.Holds t := toPeer_holds (keepRecord_holds hs)
    clear_value t
    have hu : law.Holds u := enterSelfRefresh_holds (holds_update ht rfl)
    exact holds_ite hs (holds_ite (chipWideReset_holds hu) (restat_holds hu))

theorem mismatchEffect_holds {n : Nat} {s : State} (hs : law.Holds s) : law.Holds (mismatchEffect n s) :=
  holds_ite hs (holds_ite (chipWideReset_holds hs)
    (holds_ite (handOver_holds (noteAlive_holds (pairHeld_holds (toPeer_holds (modPair_holds hs)))))
    (noteAlive_holds (pairHeld_holds (toPeer_holds (modPair_holds hs))))))

theorem enterRom_holds {c : Byte} {s : State} (hs : law.Holds s) : law.Holds (enterRom c s) :=
  holds_ite (wchCross_holds (setService_holds (holds_update hs rfl))) (setService_holds (holds_update hs rfl))

theorem startStep_holds {ready : Bool} {f : State → State} {s : State} (hs : law.Holds s)
    (hf : ∀ t, law.Holds t → law.Holds (f t)) :
    law.Holds (startStep ready f s) :=
  holds_ite hs (holds_ite (enterRom_holds hs) (hf _ hs))

theorem bootRomEffect_holds {s : State} (hs : law.Holds s) : law.Holds (bootRomEffect s) :=
  holds_ite (enterRom_holds (reach_holds (measExtend_holds (enterHeld_holds (holds_update hs rfl)))))
    (wchCross_holds (reach_holds (measExtend_holds (enterHeld_holds (holds_update hs rfl)))))

theorem headerEffect_holds {s : State} (hs : law.Holds s) : law.Holds (headerEffect s) := by
  unfold headerEffect
  split
  · exact enterRom_holds hs
  · exact reach_holds (measExtend_holds (holds_update hs rfl))

theorem profileEffect_holds {s : State} (hs : law.Holds s) : law.Holds (profileEffect s) := by
  unfold profileEffect
  refine holds_ite ?_ ?_
  · split
    · exact useProfile_holds hs
    · dsimp only
      split
      · exact useProfile_holds (raise_holds (holds_update hs rfl))
      · exact enterRom_holds (raise_holds (holds_update hs rfl))
  · dsimp only
    split
    · exact useProfile_holds hs
    · exact enterRom_holds hs

theorem dramInitEffect_holds {slots : List Spd} {temps : List Int} {s : State} (hs : law.Holds s) :
    law.Holds (dramInitEffect slots temps s) := by
  unfold dramInitEffect
  dsimp only
  split
  · exact reach_holds (forEach_holds (firstBands_holds (holds_update (applyDramSettings_holds hs) rfl)) fun _ _ ht =>
      emit_holds ht)
  · exact enterRom_holds (applyDramSettings_holds hs)

theorem verifyEffect_holds {s : State} (hs : law.Holds s) : law.Holds (verifyEffect s) :=
  holds_ite (reach_holds (holds_update hs rfl)) (holds_ite (enterRom_holds (holds_update (raiseListed_holds hs) rfl))
    (holds_update (raiseListed_holds hs) rfl))

theorem readyEffect_holds {s : State} (hs : law.Holds s) : law.Holds (readyEffect s) := by
  unfold readyEffect
  extract_lets _ r _ _ t u v w
  have hr : law.Holds r := restoreKeys_holds hs
  have ht : law.Holds t := tick_holds (holds_update hr rfl)
  have hu : law.Holds u := setService_holds (wchCross_holds (rollback_holds ht))
  have hv : law.Holds v := forEach_holds hu fun _ _ h => resumeTask_holds h
  have hw : law.Holds w := holds_ite (chooseRole_holds hv) hv
  exact beginJoin_holds (noteAlive_holds (listScans_holds hw))

theorem windowEffect_holds {s : State} (hs : law.Holds s) : law.Holds (windowEffect s) :=
  holds_ite hs (holds_ite (startStep_holds hs fun _ ht => reach_holds ht)
    (holds_update (startStep_holds hs fun _ ht => reach_holds ht) rfl))

theorem detectExitEffect_holds {s : State} (hs : law.Holds s) : law.Holds (detectExitEffect s) :=
  holds_ite (onlyIf_holds hs fun _ ht => holds_update ht rfl)
    (holds_ite (holds_update (startStep_holds hs fun _ ht => reach_holds (holds_update ht rfl)) rfl)
    (startStep_holds hs fun _ ht => reach_holds (holds_update ht rfl)))

theorem recoveryDoneEffect_holds {s : State} (hs : law.Holds s) : law.Holds (recoveryDoneEffect s) :=
  holds_ite (listScans_holds (setService_holds (holds_update hs rfl))) hs

theorem testEntryBody_holds {f : DwFrame} {s : State} (hs : law.Holds s) : law.Holds (testEntryBody f s) :=
  holds_ite (reply_holds hs) (holds_ite (testRefused_holds hs)
    (reply_holds (measExtend_holds (setService_holds (holds_update hs rfl)))))

theorem testEntryEffect_holds {f : DwFrame} {s : State} (hs : law.Holds s) : law.Holds (testEntryEffect f s) :=
  onceOnly_holds hs fun _ ht => holds_ite (checkKey_holds ht fun _ hu => testEntryBody_holds hu) (testRefused_holds ht)

theorem blownFuse_holds {n i : Nat} {s : State} (hs : law.Holds s) : law.Holds (blownFuse n i s) :=
  holds_ite (holds_update (raiseListed_holds hs) rfl) (holds_update (raiseListed_holds hs) rfl)

theorem fuseBody_holds {f : DwFrame} {s : State} (hs : law.Holds s) : law.Holds (fuseBody f s) :=
  holds_ite (reply_holds hs) (holds_ite (reply_holds hs) (reply_holds (blownFuse_holds hs)))

/-! ### Every command, and O58 -/

/-- A command that answers a next state had its effect on the quieted one. -/
theorem run_holds {i : Instr} {f : State → State} {s t : State} (h : exec i s = .next t) (hs : law.Holds s)
    (he : ∀ u, exec i u = run i f u) (hf : ∀ u, law.Holds u → law.Holds (f u)) : law.Holds t := by
  rw [he, run] at h
  split at h
  · cases h
    exact hf _ (holds_update hs rfl)
  · cases h

/-- One line for each command: which operation it runs. -/
theorem exec_holds {i : Instr} {s t : State} (h : exec i s = .next t) (hs : law.Holds s) : law.Holds t := by
  cases i <;> refine run_holds h hs (fun _ => by dsimp only [exec]; rfl) fun _ ht => ?_
  case registerWrite => exact registerWriteEffect_holds ht
  case outsideSubsetAccess => exact outsideEffect_holds ht
  case sramErrRead => exact regRead_holds ht
  case portLogRead => exact regRead_holds ht
  case decErrRead => exact regRead_holds ht
  case decCrcRead => exact regRead_holds ht
  case sealErrRead => exact regRead_holds ht
  case svcStatusRead => exact regRead_holds ht
  case evrLowWordRead => exact regRead_holds ht
  case dgResultRead => exact regRead_holds ht
  case cacheWrite => exact writeEffect_holds ht
  case lineWaitExpiry => exact drainLine_holds ht
  case cacheRead target _ =>
    cases target with
    | line => exact readLine_holds ht
    | scratch => exact readScratch_holds ht
  case lineFill => exact fillEffect_holds ht
  case powerOnReset => exact powerOnEffect_holds ht
  case sysResetAssert => exact sysResetEffect_holds ht
  case testModeAssert => exact testModeEffect_holds ht
  case chipCommandReset => exact commandResetEffect_holds ht
  case startUpWatchdogExpiry => exact watchdogEffect_holds ht
  case sysResetRelease => exact releaseReset_holds ht
  case norRstRelease => exact onlyIf_holds ht fun _ ht => holds_update ht rfl
  case pllLock => exact startStep_holds ht fun _ ht => reach_holds (holds_update ht rfl)
  case bootRomStart => exact startStep_holds ht fun _ ht => bootRomEffect_holds ht
  case listenWindowClose => exact windowEffect_holds ht
  case bootHeaderRead => exact startStep_holds ht fun _ ht => headerEffect_holds ht
  case norOctalSwitch => exact startStep_holds ht fun _ ht => octalEffect_holds ht
  case profileRead => exact startStep_holds ht fun _ ht => profileEffect_holds ht
  case pcieDetectExit => exact detectExitEffect_holds ht
  case dramInit => exact startStep_holds ht fun _ ht => dramInitEffect_holds ht
  case dramCheckDone => exact startStep_holds ht fun _ ht => holds_ite (reach_holds ht) (enterRom_holds ht)
  case firmwareReadDone => exact startStep_holds ht fun _ ht => firmwareReadEffect_holds ht
  case signatureVerifyDone => exact startStep_holds ht fun _ ht => verifyEffect_holds ht
  case coreRelease => exact startStep_holds ht fun _ ht => coreReleaseEffect_holds ht
  case firmwareReady => exact onlyIf_holds ht fun _ ht => readyEffect_holds ht
  case recoveryDone => exact recoveryDoneEffect_holds ht
  case norReadRequest => exact norReadRequestEffect_holds ht
  case nvcMinRunExpiry => exact nvcMinRunExpiryEffect_holds ht
  case nvcTsusExpiry => exact nvcTsusExpiryEffect_holds ht
  case nvcSuspendLimitExpiry => exact nvcSuspendLimitExpiryEffect_holds ht
  case norProgramRequest => exact norRequest_holds ht
  case norEraseRequest => exact norRequest_holds ht
  case norOperationDone => exact norOperationDoneEffect_holds ht
  case wchRegisterWrite => exact wchRegisterWriteEffect_holds ht
  case wchRestoreWrite => exact wchRestoreWriteEffect_holds ht
  case wchWriteTaken => exact wchWriteTakenEffect_holds ht
  case opSecondsTick => exact opSecondsTickEffect_holds ht
  case pcieReceiverDetect => exact receiverDetect_holds ht
  case perstAssert => exact perstAssertEffect_holds ht
  case perstRelease => exact modPort_holds ht
  case hotReset => exact linkReset_holds ht
  case pcieLinkDown => exact linkReset_holds ht
  case pf0Flr => exact cfgRequest_holds ht fun _ ht => pf0FlrEffect_holds ht
  case vfFlr => exact cfgRequest_holds ht fun _ ht => vfFlrEffect_holds ht
  case resetCleanupDone => exact modPort_holds ht
  case poisonedTlp => exact poisonedEffect_holds ht
  case tlpReceiveError => exact tlpErrorEffect_holds ht
  case pcieCompletionTimeout => exact tlpErrorEffect_holds ht
  case portRelease => exact portReleaseEffect_holds ht
  case msixUnmask => exact msixUnmaskEffect_holds ht
  case d3hotEntry => exact cfgRequest_holds ht fun _ ht => setD3_holds ht
  case d0Return => exact cfgRequest_holds ht fun _ ht => clearD3_holds ht
  case adminQueueEnable => exact bar2Write_holds ht fun _ ht => adminEnable_holds ht
  case adminQueueDisable => exact bar2Write_holds ht fun _ ht => adminDisable_holds ht
  case adminQueueRestart => exact bar2Write_holds ht fun _ ht => adminRestart_holds ht
  case sqTailDoorbell => exact bar2Write_holds ht fun _ ht => sqTail_holds ht
  case cqHeadDoorbell => exact bar2Write_holds ht fun _ ht => cqHead_holds ht
  case cqInterruptTimer => exact cqTimer_holds ht
  case createQp => exact adminRow_holds ht fun _ _ ht => createQpCmd_holds ht
  case deleteQp => exact fetchRow_holds ht fun _ _ ht => deleteQpStart_holds ht
  case deleteQpSettled => exact deleteQpSettledEffect_holds ht
  case restartQp => exact adminRow_holds ht fun _ _ ht => restartQpCmd_holds ht
  case identify => exact fetchRow_holds ht fun _ _ ht => adminNow_holds ht fun _ _ hu => identifyCmd_holds hu
  case getLog => exact fetchRow_holds ht fun _ _ ht => adminNow_holds ht fun _ _ hu => getLogCmd_holds hu
  case setPower => exact fetchRow_holds ht fun _ _ ht => setPowerStart_holds ht
  case powerStateReached => exact powerReached_holds ht
  case setPace => exact fetchRow_holds ht fun _ _ ht => setPaceStart_holds ht
  case paceInForce => exact paceInForceEffect_holds ht
  case selectProfile => exact adminRow_holds ht fun _ _ ht => selectProfileCmd_holds ht
  case chipReset => exact adminRow_holds ht fun _ _ ht => chipResetCmd_holds ht
  case createTenant => exact adminRow_holds ht fun _ _ ht => createTenantCmd_holds ht
  case deleteTenant => exact adminRow_holds ht fun _ _ ht => deleteTenantCmd_holds ht
  case assignFunction => exact adminRow_holds ht fun _ _ ht => assignFunctionCmd_holds ht
  case createNamespace => exact adminRow_holds ht fun _ _ ht => createNamespaceCmd_holds ht
  case deleteNamespace => exact fetchRow_holds ht fun _ _ ht => deleteNamespaceStart_holds ht
  case deleteNamespaceDone => exact deleteNamespaceDoneEffect_holds ht
  case read => exact ioRow_holds ht
  case write => exact ioRow_holds ht
  case deallocate => exact ioRow_holds ht
  case stateQuery => exact fetchRow_holds ht fun _ _ ht => routeQuery_holds ht
  case stateQueryWaitEnd => exact stateQueryWaitEndEffect_holds ht
  case creditGrant => exact readmit_holds ht
  case creditWaitTimeout => exact creditWaitTimeoutEffect_holds ht
  case writeDataArrived => exact blockArrived_holds ht
  case mapPageReadDone => exact mapPageReadDoneEffect_holds ht
  case flushIdleExpiry => exact markIdle_holds ht
  case flushAgeExpiry => exact markAged_holds ht
  case flushRunChosen => exact flushRunChosenEffect_holds ht
  case chunkCut => exact chunkCutEffect_holds ht
  case fingerprintDone => exact fingerprintDoneEffect_holds ht
  case lookupSearchDone => exact lookupSearchDoneEffect_holds ht
  case containerPullDone => exact containerPullDoneEffect_holds ht
  case containerIdleExpiry => exact containerIdle_holds ht
  case verifyCompareDone => exact verifyCompareDoneEffect_holds ht
  case engineSelftestDue => exact engineSelftestDueEffect_holds ht
  case engineSelftestDone => exact onlyIf_holds (engineSelftestDoneEffect_holds ht) fun _ ht => afterTest_holds ht
  case engineRetestExpiry => exact engineRetestExpiryEffect_holds ht
  case baleEncodeDone => exact baleEncodeDoneEffect_holds ht
  case xtsSealDone => exact xtsSealDoneEffect_holds ht
  case sealCheckDone => exact sealCheckDoneEffect_holds ht
  case baleDecodeDone => exact baleDecodeDoneEffect_holds ht
  case decodeOutputFragment => exact feedDecoder_holds ht
  case decodeInputFragment => exact feedDecoder_holds ht
  case decodeSuspendTimeout => exact decodeSuspendTimeoutEffect_holds ht
  case keyImport => exact keyRow_holds ht fun _ _ ht => keyImportCmd_holds ht
  case keyGenerate => exact keyRow_holds ht fun _ _ ht => keyGenerateCmd_holds ht
  case keyExport => exact keyRow_holds ht fun _ _ ht => keyExportCmd_holds ht
  case keyErase => exact keyRow_holds ht fun _ _ ht => keyEraseCmd_holds ht
  case keyInfo => exact keyRow_holds ht fun _ _ ht => keyInfoCmd_holds ht
  case keyAttach => exact keyRow_holds ht fun _ _ ht => keyAttachCmd_holds ht
  case keyCmac => exact keyRow_holds ht fun _ _ ht => keyCmacCmd_holds ht
  case vaultRequest => exact vaultRequestEffect_holds ht
  case vaultRequestDone => exact vaultDoneEffect_holds ht
  case vaultSelftestDue => exact modVault_holds ht
  case vaultSelftestDone => exact vaultTestDone_holds ht
  case vaultRetestExpiry => exact modVault_holds ht
  case dgStart => exact dgCtl_holds ht
  case dgAbort => exact dgCtl_holds ht
  case dgCmp => exact dgCtl_holds ht
  case dgDataWrite => exact modDg_holds ht
  case dgLastWrite => exact modDg_holds ht
  case digestDone => exact digestDoneEffect_holds ht
  case digestCompareDone => exact modDg_holds ht
  case tamperPin => exact onlyIf_holds ht fun _ ht => alarm_holds ht
  case voltAlarm => exact holds_ite (alarm_holds ht) ht
  case clockAlarm => exact onlyIf_holds ht fun _ ht => alarm_holds ht
  case tempAlarm => exact onlyIf_holds ht fun _ ht => alarm_holds ht
  case vwatchLost => exact vwatchLostEffect_holds ht
  case trngStartTestsDone => exact trngTests_holds ht
  case drbgInstantiated => exact drbgUp_holds ht
  case healthTestFail => exact healthTestFailEffect_holds ht
  case trngRestartExpiry => exact modRng_holds ht
  case drbgReseedTimer => exact modRng_holds ht
  case drbgReseedDone => exact reseedDone_holds ht
  case drbgGenerate => exact request_holds ht
  case rowhammerReseed => exact rowhammerReseedEffect_holds ht
  case mapUpdatePublish => exact mapUpdatePublishEffect_holds ht
  case baleAppend => exact baleAppendEffect_holds ht
  case stripeIdleExpiry => exact stripeIdleEffect_holds ht
  case stripeProgrammed =>
    exact commitAll_holds
      (rootsIfDue_holds (objectLanded_holds (jobsForMissing_holds (stripeProgrammedEffect_holds ht))))
  case slcFractionEval => exact holds_update ht rfl
  case blockVerifyDone => exact jobsForMissing_holds (blockVerifyDoneEffect_holds ht)
  case reclaimVictimChosen => exact reclaimVictimChosenEffect_holds ht
  case relocationDone => exact relocationDoneEffect_holds ht
  case segmentDrained => exact segmentDrainedEffect_holds ht
  case segmentAllocate => exact segmentAllocateEffect_holds ht
  case segmentScanDue => exact segmentScanDueEffect_holds ht
  case nandSuspend => exact trySuspend_holds ht
  case nandMinRunExpiry => exact nandMinRunEffect_holds ht
  case nandSuspendExpiry => exact resumeDie_holds ht
  case holdupBudgetEval => exact holdupEffect_holds ht
  case pwrFailAssert => exact pwrFailEffect_holds ht
  case quiesceDone => exact quiesceEffect_holds ht
  case flushClassDone => exact classDoneEffect_holds ht
  case flushComplete => exact flushCompleteEffect_holds ht
  case pwrFailDeassert => exact pwrReturnEffect_holds ht
  case flushReplay => exact flushReplayEffect_holds ht
  case laneSignalDetect => exact signalEffect_holds ht
  case ts1Received => exact ts1Effect_holds ht
  case ts2Received => exact ts2Effect_holds ht
  case laneTrainTimeout => exact trainTimeoutEffect_holds ht
  case laneRetryExpiry => exact retryEffect_holds ht
  case syncReceived => exact onActive_holds ht fun _ ht => modLane_holds ht
  case skipReceived => exact onActive_holds ht fun _ hu => hu
  case skipInterval => exact onActive_holds ht fun _ ht => emit_holds (modLane_holds ht)
  case quietReceived => exact onActive_holds ht fun _ ht => quietEffect_holds ht
  case mediaClockLaneLoss => exact holds_ite (linkDown_holds ht) ht
  case fariumLinkFrame => exact onActive_holds ht fun _ ht => linkFrameEffect_holds ht
  case fariumLinkTimer => exact onActive_holds ht fun _ ht => bridgeLinks_holds (sendLink_holds ht)
  case fariumReplayTimeout => exact onActive_holds ht fun _ ht => replayLane_holds ht
  case fariumRxSilence => exact linkDown_holds ht
  case fariumRead => exact nandCommand_holds ht fun _ ht => joinDie_holds ht
  case fariumProgram => exact nandCommand_holds ht fun _ ht => joinDie_holds ht
  case partialProgram => exact nandCommand_holds ht fun _ ht => joinDie_holds ht
  case fariumErase => exact nandCommand_holds ht fun _ ht => joinDie_holds ht
  case fariumSuspend => exact nandCommand_holds ht fun _ ht => suspendDie_holds ht
  case fariumResume => exact nandCommand_holds ht fun _ ht => resumeCommand_holds ht
  case fariumStatus => exact statusCommand_holds ht
  case dieReset => exact nandCommand_holds ht fun _ ht => resetDie_holds ht
  case paramPush => exact paramPushEffect_holds ht
  case getInfo => exact getInfoEffect_holds ht
  case claim => exact claimEffect_holds ht
  case dieOperationDone => exact dieOperationDoneEffect_holds ht
  case fariumCompletion => exact onActive_holds ht fun _ ht => takeFrame_holds ht fun _ hu => completionEffect_holds hu
  case fariumNotice => exact onActive_holds ht fun _ ht => takeFrame_holds ht fun _ hu => noticeEffect_holds hu
  case fariumCommandTimeout => exact commandTimeoutEffect_holds ht
  case dieStatusPoll => exact holds_ite (pollEffect_holds ht) ht
  case claimResendTimer => exact claimResendEffect_holds ht
  case takeoverClaimDeadline => exact claimDeadlineEffect_holds ht
  case moduleLostExpiry => exact lostExpiryEffect_holds ht
  case reconstructReadDone => exact reconstructEffect_holds ht
  case baleRebuildDone => exact baleRebuildEffect_holds ht
  case jobSegmentStep => exact jobStepEffect_holds ht
  case jobCheckpointTimer => exact ckptTimerEffect_holds ht
  case pair3PauseDeadline => exact holds_ite (handOver_holds ht) ht
  case buildBesideStart => exact besideStartEffect_holds ht
  case buildBesideDailyNotice => exact raiseIf_holds ht
  case patrolStep => exact patrolEffect_holds ht
  case patrolDailyNotice => exact raiseIf_holds ht
  case superblockRead => exact superblockEffect_holds ht
  case rootRecorded => exact rootRecordedEffect_holds ht
  case checkpointDue => exact rootsIfDue_holds (startCheckpoint_holds ht)
  case checkpointComplete => exact commitAll_holds (checkpointCompleteEffect_holds ht)
  case archiveObjectWrite => exact objectWriteEffect_holds ht
  case archiveGranuleWrite => exact granuleWriteEffect_holds ht
  case archiveGranuleDone => exact granuleDoneEffect_holds ht
  case cgSet => exact snapRow_holds ht fun _ _ ht => cgSetDo_holds ht
  case snapCreate => exact snapRow_holds ht fun _ _ ht => snapCreateStart_holds ht
  case snapCut => exact snapCutEffect_holds ht
  case snapComplete => exact commitAll_holds (snapCompleteEffect_holds ht)
  case snapDelete => exact snapRow_holds ht fun _ _ ht => snapDeleteDo_holds ht
  case snapDeleteWalkEnd => exact walkEndEffect_holds ht
  case snapList => exact snapRow_holds ht fun _ _ ht => snapNow_holds ht fun _ _ hu => snapListCmd_holds hu
  case snapExpose => exact snapRow_holds ht fun _ _ ht => snapExposeDo_holds ht
  case replPair => exact snapRow_holds ht fun _ _ ht => replPairDo_holds ht
  case replSend => exact snapRow_holds ht fun _ _ ht => replSendDo_holds ht
  case replStop => exact snapRow_holds ht fun _ _ ht => replStopDo_holds ht
  case replStatus => exact snapRow_holds ht fun _ _ ht => snapNow_holds ht fun _ _ hu => replStatusCmd_holds hu
  case ingest => exact snapRow_holds ht fun _ _ ht => ingestDo_holds ht
  case offer => exact replRow_holds ht fun _ _ ht => offerEffect_holds ht
  case need => exact replRow_holds ht fun _ _ ht => needEffect_holds ht
  case bales => exact replRow_holds ht fun _ _ ht => balesEffect_holds ht
  case commit => exact replRow_holds ht fun _ _ ht => commitEffect_holds ht
  case end_ => exact replRow_holds ht fun _ _ ht => endEffect_holds ht
  case endAck => exact replRow_holds ht fun _ _ ht => endAckEffect_holds ht
  case resume => exact replRow_holds ht fun _ _ ht => resumeEffect_holds ht
  case resumeAt => exact replRow_holds ht fun _ _ ht => resumeAtEffect_holds ht
  case replRefuse => exact replRefuseEffect_holds ht
  case replSessionTimeout =>
    split
    · exact holds_ite ht (suspendSess_holds ht)
    · exact ht
  case replRetryTimer => exact retrySess_holds ht
  case peerLaneLoss => exact laneLossEffect_holds ht
  case peerReplayTimeout => exact replayTimeoutEffect_holds ht
  case beatTimer => exact beatTimerEffect_holds ht
  case beat => exact peerRow_holds ht fun _ ht => beatEffect_holds ht
  case hello => exact helloEffect_holds ht
  case helloTimeout => exact helloTimeoutEffect_holds ht
  case mirror => exact peerRow_holds ht fun _ ht => mirrorEffect_holds ht
  case mirrorAck => exact peerRow_holds ht fun _ ht => mirrorAckEffect_holds ht
  case release => exact peerRow_holds ht fun _ ht => releaseEffect_holds ht
  case settle => exact peerRow_holds ht fun _ ht => settleEffect_holds ht
  case relay result _ =>
    cases result with
    | none => exact peerRow_holds ht fun _ hu => relayedHere_holds hu
    | some => exact peerRow_holds ht fun _ hu => relayResult_holds hu
  case granule => exact peerRow_holds ht fun _ ht => granuleEffect_holds ht
  case ref => exact peerRow_holds ht fun _ ht => refEffect_holds ht
  case jobcopy => exact peerRow_holds ht fun _ ht => jobcopyEffect_holds ht
  case sync => exact taggedRow_holds ht fun _ ht => syncEffect_holds ht
  case pairFault => exact peerRow_holds ht fun _ ht => pairFaultEffect_holds ht
  case handover => exact taggedRow_holds ht fun _ ht => declareLoss_holds ht
  case powerLoss => exact peerRow_holds ht fun _ ht => declareLoss_holds ht
  case flushDone => exact allowClaims_holds ht
  case powerLossClaimDeadline => exact allowClaims_holds ht
  case returnReq => exact taggedRow_holds ht fun _ ht => returnReqEffect_holds ht
  case returnReqTimer => exact returnTimerEffect_holds ht
  case returnGrant => exact taggedRow_holds ht fun _ ht => returnGrantEffect_holds ht
  case moduleRelease => exact taggedRow_holds ht fun _ ht => moduleReleaseEffect_holds ht
  case handbackDone => exact taggedRow_holds ht fun _ ht => handbackDoneEffect_holds ht
  case stale => exact peerRow_holds ht fun _ ht => peerEpochSeen_holds ht
  case heartbeatLoss => exact heartbeatLossEffect_holds ht
  case confirmDeadline => exact confirmEffect_holds ht
  case splitYield => exact splitYieldEffect_holds ht
  case splitLossDeadline => exact splitLossEffect_holds ht
  case peerAliveInFall => exact aliveFallEffect_holds ht
  case lockstepMismatch => exact mismatchEffect_holds ht
  case pairRestart => exact restartEffect_holds ht
  case pairReturnDeadline => exact holds_ite (handOver_holds ht) ht
  case wdogWrite => exact wdogWriteEffect_holds ht
  case wdogLapse => exact noteAlive_holds (holds_update ht rfl)
  case roleSwapDue => exact roleSwapEffect_holds ht
  case roceSendReceived => exact packetRow_holds ht fun _ _ ht => sendArrives_holds ht
  case roceAckReceived => exact holds_ite ht (modRc_holds ht)
  case rnrNakReceived => exact rnrEffect_holds ht
  case ackTimeout => exact ackTimeoutEffect_holds ht
  case roceReadWriteRequest => exact packetRow_holds ht fun _ _ ht => nakError_holds ht
  case atomicRequest =>
    exact holds_ite (onlyIf_holds ht fun _ ht => countDiscard_holds ht) (packetRow_holds ht fun _ _ ht =>
      atomicArrives_holds ht)
  case rdmaRuleChange => exact ruleChangeEffect_holds ht
  case ruleChangeTimeout => exact ruleTimeoutEffect_holds ht
  case rateIdleReset => exact modRc_holds ht
  case connect => exact connRow_holds ht fun _ ht => connectEffect_holds ht
  case accept => exact connRow_holds ht fun _ ht => acceptedSession_holds (acceptEffect_holds ht)
  case reject => exact connRow_holds ht fun _ ht => rejectEffect_holds ht
  case caravanRelease => exact holds_ite ht (releaseCaravan_holds ht)
  case caravanElementDone => exact readFailed_holds (elementDone_holds ht)
  case caravanCancel => exact cancelEffect_holds ht
  case announceTimer => exact announceEffect_holds ht
  case announceReceived => exact announceReceivedEffect_holds ht
  case pathExpiry => exact dropPath_holds ht
  case relayReq => exact relayReqEffect_holds ht
  case relayRsp => exact relayRspEffect_holds ht
  case relayRefuse => exact relayRefuseEffect_holds ht
  case relayTimeout => exact relayTimeoutEffect_holds ht
  case chainLinkSilent => exact silentEffect_holds ht
  case chainBreak => exact breakEffect_holds ht
  case chainBreakTimer => exact breakTimerEffect_holds ht
  case chainPortQualify => exact qualifyEffect_holds ht
  case chainLinkOk => exact linkOkEffect_holds ht
  case elect => exact electEffect_holds ht
  case electTimer => exact onlyIf_holds ht fun _ ht => chainSend_holds ht
  case masterTimeout => exact masterTimeoutEffect_holds ht
  case enum => exact enumEffect_holds ht
  case enumTimeout => exact enumTimeoutEffect_holds ht
  case table => exact pairFrame_holds ht fun _ ht => holds_ite ht (takeGroup_holds ht)
  case tableRebroadcastTimer => exact rebroadcastEffect_holds ht
  case join => exact pairFrame_holds ht fun _ ht => holds_ite ht (joinEffect_holds ht)
  case joinTimer => exact onlyIf_holds ht fun _ ht => sendJoin_holds ht
  case joinAck => exact pairFrame_holds ht fun _ ht => holds_ite (joinAckEffect_holds ht) ht
  case duplicate => exact pairFrame_holds ht fun _ ht => duplicateEffect_holds ht
  case reenumDelayExpiry => exact reenumEffect_holds ht
  case query => exact queryEffect_holds ht
  case time => exact pairFrame_holds ht fun _ ht => holds_ite ht (timeEffect_holds ht)
  case timeTimer => exact timeTimerEffect_holds ht
  case fedTimeInfoTimer => exact raiseIf_holds ht
  case epoch => exact pairFrame_holds ht fun _ ht => holds_ite ht (learnEpoch_holds (heardRole_holds ht))
  case epochTimer => exact onlyIf_holds ht fun _ ht => tellEpoch_holds ht
  case dramTempReading => exact tempEffect_holds ht
  case dramRequest => exact requestEffect_holds ht
  case refreshDue => exact refreshEffect_holds ht
  case scrubStep => exact scrubEffect_holds ht
  case eventOffered => exact offered_holds ht
  case secondBoundary => exact secondBoundaryEffect_holds ht
  case sequenceBaseSet => exact sequenceBaseSetEffect_holds ht
  case norRecordProgramDone => exact norRecordProgramDoneEffect_holds ht
  case evrReadRequest => exact evrReadRequestEffect_holds ht
  case dweunoHello => exact dweunoHelloEffect_holds ht
  case svcReset => exact svcRow_holds ht fun _ ht => reply_holds (holds_update ht rfl)
  case profileSelect => exact svcRow_holds ht fun _ ht => profileSelectBody_holds ht
  case profileWrite => exact svcRow_holds ht fun _ ht => profileWriteBody_holds ht
  case stageBegin => exact svcRow_holds ht fun _ ht => stageBeginBody_holds ht
  case stageData => exact svcRow_holds ht fun _ ht => stageDataBody_holds ht
  case stageEnd => exact svcRow_holds ht fun _ ht => stageEndBody_holds ht
  case activate => exact svcRow_holds ht fun _ ht => activateBody_holds ht
  case eventRead => exact svcRow_holds ht fun _ ht => eventReadBody_holds ht
  case keyset => exact keysetEffect_holds ht
  case tamperClear => exact svcRow_holds ht fun _ ht => reply_holds (wchCross_holds ht)
  case reshape => exact svcRow_holds ht fun _ ht => reshapeBody_holds ht
  case reEnumerate => exact svcRow_holds ht fun _ ht => reEnumerateBody_holds ht
  case testEntry => exact testEntryEffect_holds ht
  case debugAccess => exact debugAccessEffect_holds ht
  case dramSweep => exact svcRow_holds ht fun _ ht => sweepBody_holds ht
  case fuse => exact svcRow_holds ht fun _ ht => fuseBody_holds ht
  case junctionSensorRead => exact junctionEffect_holds ht
  case thermtripDeadline => exact onlyIf_holds ht fun _ ht => holds_update ht rfl
  case supplyFall => exact supplyFallEffect_holds ht
  case ethernetLinkChange => exact linkChangeEffect_holds ht
  case chainBadFrame => exact badFrameEffect_holds ht
  case dweunoUnlistedFrame => exact unlistedEffect_holds ht
  case svcRxLockChange => exact onlyIf_holds ht fun _ ht => holds_update ht rfl
  case peerStagingLimit => exact peerRow_holds ht fun _ ht => readmit_holds (holds_update ht rfl)
  case federatedTenantMessage =>
    exact holds_ite ht (holds_ite (refuseStale_holds ht) (tenantMsgEffect_holds (learnEpoch_holds ht)))
  case fetchUrCaCompletion => exact freezeAtFetch_holds ht

/-- With nothing waiting the block idles; otherwise it takes the front command. -/
theorem step_holds {s t : State} (hs : law.Holds s) (h : step s = .next t) : law.Holds t := by
  cases hp : s.pending with
  | nil =>
    simp only [step, hp, Host.Outcome.next.injEq] at h
    exact h ▸ hs
  | cons c rest =>
    simp only [step, hp] at h
    exact exec_holds h (hs.congr rfl)

/-- Settles O58: each law is carried through every operation of every command. -/
theorem stepsKeepTheForm : Obligations.StepsKeepTheForm := by
  unfold Obligations.StepsKeepTheForm
  exact ⟨fun s t hs h => step_holds (law := .canonical) hs h, fun s t hs h => step_holds (law := .fresh) hs h⟩

end Sys2Proof.Machine
end

section
/-! SUPPORT. Host commands: what the fetch of an entry and the posting of a completion entry change, and what they leave alone
(R78, R88, R91, R92). -/

namespace Sys2Proof.Machine

/-! ### One queue pair changed -/

theorem find?_modFirst_other {α : Type} {p r : α → Bool} {f : α → α} (hf : ∀ x, r (f x) = r x)
    (hr : ∀ x, p x = true → r x = false) (l : List α) : (modFirst p f l).find? r = l.find? r := by
  induction l with
  | nil => rfl
  | cons x l ih =>
    cases hx : p x
    · simp only [modFirst, hx, Bool.false_eq_true, if_false, List.find?_cons, ih]
    · simp only [modFirst, hx, if_true, List.find?_cons, hf, hr x hx]

theorem map_modFirst {α β : Type} {p : α → Bool} {f : α → α} {g : α → β} (hg : ∀ x, g (f x) = g x) (l : List α) :
    (modFirst p f l).map g = l.map g := by
  induction l with
  | nil => rfl
  | cons x l ih => cases hx : p x <;> simp [modFirst, hx, hg, ih]

theorem any_modFirst {α β : Type} {p : α → Bool} {f : α → α} {g : α → β} (hg : ∀ x, g (f x) = g x) (r : β → Bool) (l : List α) :
    ((modFirst p f l).any fun x => r (g x)) = l.any fun x => r (g x) := by
  have h := congrArg (fun m => m.any r) (map_modFirst (p := p) hg l)
  simpa only [List.any_map, Function.comp_def] using h

/-- Two changes of the first element that meets a test are one. -/
theorem modFirst_modFirst {α : Type} {p : α → Bool} {f g : α → α} (hf : ∀ x, p (f x) = p x) (l : List α) :
    modFirst p g (modFirst p f l) = modFirst p (fun x => g (f x)) l := by
  induction l with
  | nil => rfl
  | cons x l ih => cases hx : p x <;> simp [modFirst, hx, hf, ih]

theorem modFirst_id {α : Type} (p : α → Bool) (l : List α) : modFirst p (fun x => x) l = l := by
  induction l with
  | nil => rfl
  | cons x l ih => cases hx : p x <;> simp [modFirst, hx, ih]

theorem modQp_modQp {f : Qp → Qp} (hf : ∀ q, (f q).key = q.key) (g : Qp → Qp) (k : QKey) (s : State) :
    modQp k g (modQp k f s) = modQp k (fun x => g (f x)) s := by
  have hqps := modFirst_modFirst (p := fun q : Qp => q.key == k) (g := g) (fun x => by rw [hf]) s.hqe.qps
  simp only [modQp, hqps]

theorem modQp_id (k : QKey) (s : State) : modQp k (fun x => x) s = s := by
  rw [modQp, modFirst_id]

theorem qpOf_modQp_other {f : Qp → Qp} (hf : ∀ q, (f q).key = q.key) {j k : QKey} (h : j ≠ k) (s : State) :
    qpOf (modQp k f s) j = qpOf s j :=
  find?_modFirst_other (fun q => by rw [hf]) (fun q hq => by rw [eq_of_beq hq]; exact beq_false_of_ne h.symm) _

/-- A field that a change of a queue pair keeps is the same for every queue pair. -/
theorem qpOf_modQp_map {β : Type} {π : Qp → β} {f : Qp → Qp} (hf : ∀ q, (f q).key = q.key) (hπ : ∀ q, π (f q) = π q) (j k : QKey)
    (s : State) : (qpOf (modQp k f s) j).map π = (qpOf s j).map π := by
  by_cases h : j = k
  · rw [h, qpOf_modQp hf, Option.map_map]
    exact congrFun (congrArg _ (funext hπ)) _
  · rw [qpOf_modQp_other hf h]

theorem qpOf_key {s : State} {k : QKey} {q : Qp} (h : qpOf s k = some q) : q.key = k := by
  simpa using List.find?_some h

/-- A frame of fewer parts. -/
theorem Frame.widen {l m : List Part} {s t : State} (h : Frame l s t) (hs : l ⊆ m) : Frame m s t := h.mono fun _ hp => hs hp

theorem modQp_frame (k : QKey) (f : Qp → Qp) (s : State) : Frame [.hqe] s (modQp k f s) := frame_hqe s _

/-! ### The fetch of an entry -/

/-- A queue pair whose next entry has been fetched. -/
def advanced (q : Qp) : Qp := { q with fetch := (q.fetch + 1) % sqSize q }

/-- The state in which a fetched entry is checked and runs. -/
def fetched (c : HostCmd) (s : State) : State := modQp c.q advanced s.quiet

theorem qpOf_fetched {s : State} {c : HostCmd} {q : Qp} (h : qpOf s c.q = some q) : qpOf (fetched c s) c.q = some (advanced q) := by
  rw [fetched, qpOf_modQp (f := advanced) fun _ => rfl, show qpOf s.quiet c.q = some q from h, Option.map_some]

theorem qpOf_fetched_other {k : QKey} {c : HostCmd} (h : k ≠ c.q) (s : State) : qpOf (fetched c s) k = qpOf s k :=
  qpOf_modQp_other (f := advanced) (fun _ => rfl) h s.quiet

theorem qpOf_fetched_map {β : Type} {π : Qp → β} (hπ : ∀ q, π (advanced q) = π q) (c : HostCmd) (k : QKey) (s : State) :
    (qpOf (fetched c s) k).map π = (qpOf s k).map π :=
  qpOf_modQp_map (f := advanced) (fun _ => rfl) hπ k c.q s.quiet

theorem fetched_frame (c : HostCmd) (s : State) : Frame [.hqe] s (fetched c s) := (modQp_frame c.q advanced s.quiet).of_quiet

theorem fetchRow_checked {s : State} {c : HostCmd} {q : Qp} (hq : qpOf s c.q = some q) (hf : fetchable s q = true)
    (ho : c.ordered = false) (f : Qp → State → State) :
    fetchRow c f s.quiet = match entryCheck c q.admin q.tenant s.glb.service with
      | some st => answerCmd ⟨c, q.tenant, .host⟩ st 0 (fetched c s)
      | none => f q (fetched c s) := by
  have hgo : (fetchable s.quiet q && (!c.ordered || sqIdle s.quiet c.q)) = true := by
    rw [ho, Bool.not_false, Bool.true_or, Bool.and_true]
    exact hf
  rw [fetchRow, show qpOf s.quiet c.q = some q from hq]
  exact if_pos hgo

/-- An entry that passes its checks runs once it is fetched. -/
theorem Fetched.row {s : State} {c : HostCmd} {q : Qp} (h : Fetched s c q) (f : Qp → State → State) :
    fetchRow c f s.quiet = f q (fetched c s) := by
  obtain ⟨hq, hf, ho, -, -, hc⟩ := h
  rw [fetchRow_checked hq hf ho, hc]

theorem fetchable_port {s : State} {q : Qp} (h : fetchable s q = true) : (portOf s q.key.f.port).frozen = false := by
  simp only [fetchable, Bool.and_eq_true, Bool.not_eq_true'] at h
  obtain ⟨⟨⟨⟨⟨⟨⟨-, hport⟩, -⟩, -⟩, -⟩, -⟩, -⟩, -⟩ := h
  exact hport

theorem fetchable_frozen {s : State} {q : Qp} (h : fetchable s q = true) : q.frozen = none := by
  simp only [fetchable, Bool.and_eq_true, Option.isNone_iff_eq_none] at h
  obtain ⟨⟨⟨⟨⟨⟨⟨⟨⟨⟨⟨-, hfrozen⟩, -⟩, -⟩, -⟩, -⟩, -⟩, -⟩, -⟩, -⟩, -⟩, -⟩ := h
  exact hfrozen

/-! ### A completion entry is posted -/

/-- `t` is `s` after queue pair `k` changed by `g`, interrupts that became pending with it, and what went out. -/
def QueueStep (k : QKey) (g : Qp → Qp) (s t : State) : Prop :=
  ∃ m o, t = { modQp k g s with hep := { s.hep with msix := m }, out := s.out ++ o }

theorem queueStep_refl (k : QKey) (s : State) : QueueStep k (fun x => x) s s :=
  ⟨s.hep.msix, [], by rw [modQp_id, List.append_nil]⟩

section
variable {k : QKey} {f g : Qp → Qp} {s t u : State}

theorem queueStep_modQp (k : QKey) (g : Qp → Qp) (s : State) : QueueStep k g s (modQp k g s) :=
  ⟨s.hep.msix, [], by rw [List.append_nil]; rfl⟩

theorem QueueStep.trans (hf : ∀ q, (f q).key = q.key) (h : QueueStep k f s t) (h' : QueueStep k g t u) :
    QueueStep k (fun x => g (f x)) s u := by
  obtain ⟨m, o, rfl⟩ := h
  obtain ⟨m', o', rfl⟩ := h'
  refine ⟨m', o ++ o', ?_⟩
  rw [← modQp_modQp hf g k s, ← List.append_assoc]
  rfl

/-- A queue step changes queue pairs, pending interrupts and what goes out. -/
theorem QueueStep.eq (h : QueueStep k g s t) : t = { s with hqe := { s.hqe with qps := t.hqe.qps }, hep := t.hep, out := t.out } := by
  obtain ⟨m, o, rfl⟩ := h
  rfl

theorem QueueStep.out (h : QueueStep k g s t) {x : Output} (hx : x ∈ s.out) : x ∈ t.out := by
  obtain ⟨m, o, rfl⟩ := h
  exact List.mem_append_left _ hx

theorem QueueStep.frame (h : QueueStep k g s t) : Frame [.hqe, .hep] s t := by
  rw [h.eq]
  exact ((frame_hqe s _).append (frame_hep _ t.hep)).trans (frame_out _ _ _)

theorem QueueStep.portOf (h : QueueStep k g s t) (p : Fin 2) : portOf t p = portOf s p := by
  obtain ⟨m, o, rfl⟩ := h
  rfl

theorem QueueStep.qpOf (h : QueueStep k g s t) (hg : ∀ q, (g q).key = q.key) : qpOf t k = (qpOf s k).map g := by
  obtain ⟨m, o, rfl⟩ := h
  exact qpOf_modQp hg k s

theorem QueueStep.qpOf_other (h : QueueStep k g s t) (hg : ∀ q, (g q).key = q.key) {j : QKey} (hj : j ≠ k) :
    Machine.qpOf t j = Machine.qpOf s j := by
  obtain ⟨m, o, rfl⟩ := h
  exact qpOf_modQp_other hg hj s

end

/-- What posting an entry changes of its queue pair: the CQ's tail and phase, the entries that wait, and the unsignalled ones. -/
def CqMoves (g : Qp → Qp) : Prop := ∀ x, ∃ a b w u, g x = { x with cqTail := a, phase := b, waiting := w, unsig := u }

/-- A field of a queue pair that the posting of an entry keeps. -/
def CqKeeps {β : Type} (π : Qp → β) : Prop := ∀ x a b w u, π { x with cqTail := a, phase := b, waiting := w, unsig := u } = π x

theorem CqMoves.keep {g : Qp → Qp} (h : CqMoves g) {β : Type} {π : Qp → β} (hπ : CqKeeps π) (x : Qp) : π (g x) = π x := by
  obtain ⟨a, b, w, u, hx⟩ := h x
  rw [hx, hπ]

theorem CqMoves.key {g : Qp → Qp} (h : CqMoves g) (x : Qp) : (g x).key = x.key := h.keep (π := Qp.key) (fun _ _ _ _ _ => rfl) x

/-- `t` is `s` after an entry was posted at queue pair `k`. -/
def PostedAt (k : QKey) (s t : State) : Prop := ∃ g, CqMoves g ∧ QueueStep k g s t

section
variable {k : QKey} {s t : State}

theorem PostedAt.refl (k : QKey) (s : State) : PostedAt k s s :=
  ⟨fun x => x, fun x => ⟨x.cqTail, x.phase, x.waiting, x.unsig, rfl⟩, queueStep_refl k s⟩

theorem PostedAt.eq (h : PostedAt k s t) : t = { s with hqe := { s.hqe with qps := t.hqe.qps }, hep := t.hep, out := t.out } := by
  obtain ⟨g, -, h⟩ := h
  exact h.eq

theorem PostedAt.out (h : PostedAt k s t) {x : Output} (hx : x ∈ s.out) : x ∈ t.out := by
  obtain ⟨g, -, h⟩ := h
  exact h.out hx

theorem PostedAt.frame (h : PostedAt k s t) : Frame [.hqe, .hep] s t := by
  obtain ⟨g, -, h⟩ := h
  exact h.frame

theorem PostedAt.qpOf_other (h : PostedAt k s t) {j : QKey} (hj : j ≠ k) : qpOf t j = qpOf s j := by
  obtain ⟨g, hg, h⟩ := h
  exact h.qpOf_other hg.key hj

theorem PostedAt.qpOf_map (h : PostedAt k s t) {β : Type} {π : Qp → β} (hπ : CqKeeps π) (j : QKey) :
    (qpOf t j).map π = (qpOf s j).map π := by
  obtain ⟨g, hg, m, o, rfl⟩ := h
  exact qpOf_modQp_map hg.key (hg.keep hπ) j k s

theorem PostedAt.qpOf_none (h : PostedAt k s t) {j : QKey} (hj : qpOf s j = none) : qpOf t j = none := by
  have hmap := h.qpOf_map (π := Qp.key) (fun _ _ _ _ _ => rfl) j
  rw [hj] at hmap
  exact Option.map_eq_none_iff.1 hmap

end

theorem signal_step {k : QKey} {g : Qp → Qp} (f : FnId) (v : Nat) {s t : State} (h : QueueStep k g s t) :
    QueueStep k g s (signal f v t) := by
  obtain ⟨m, o, rfl⟩ := h
  unfold signal
  split
  · exact ⟨m, o, rfl⟩
  · split
    · exact ⟨_, o, rfl⟩
    · exact ⟨m, o ++ [.msix f v], by rw [← List.append_assoc]; rfl⟩

theorem emit_step (k : QKey) (g : Qp → Qp) (x : Output) (s : State) : QueueStep k g s (modQp k g (emit x s)) :=
  ⟨s.hep.msix, [x], rfl⟩

theorem postOne_posted (k : QKey) (e : Cqe) (s : State) : PostedAt k s (postOne k e s) := by
  unfold postOne
  split
  · exact PostedAt.refl k s
  · next q _ =>
    have hmove := emit_step k cqAdvance (.completion k q.cqTail q.phase q.fetch e) s
    have hcount := fun u : Qp → Nat =>
      QueueStep.trans (f := cqAdvance) (fun _ => rfl) hmove (queueStep_modQp k (fun x => { x with unsig := u x }) _)
    dsimp only
    split
    · exact ⟨_, fun x => ⟨_, _, x.waiting, x.unsig, rfl⟩, signal_step k.f 0 hmove⟩
    · split
      · exact ⟨_, fun x => ⟨_, _, x.waiting, _, rfl⟩, signal_step k.f q.vec (hcount fun _ => 0)⟩
      · exact ⟨_, fun x => ⟨_, _, x.waiting, _, rfl⟩, hcount fun x => x.unsig + 1⟩

/-- Where the port is frozen the entry is dropped; where the CQ is full it waits. -/
theorem postCqe_posted (k : QKey) (e : Cqe) (s : State) : PostedAt k s (postCqe k e s) := by
  unfold postCqe
  split
  · exact PostedAt.refl k s
  · split
    · exact PostedAt.refl k s
    · split
      · exact ⟨_, fun x => ⟨x.cqTail, x.phase, _, x.unsig, rfl⟩, queueStep_modQp k _ s⟩
      · exact postOne_posted k e s

/-! ### A fetched entry is answered (R91) -/

/-- A fetched entry can be answered at once: its queue pair has room in the CQ, and its port is not frozen. -/
def Answerable (c : HostCmd) (q : Qp) (s : State) : Prop :=
  qpOf s c.q = some (advanced q) ∧ (portOf s c.q.f.port).frozen = false ∧ cqFull q = false ∧ q.waiting = []

theorem Answerable.congr {c : HostCmd} {q : Qp} {s t : State} (h : Answerable c q s) (hqp : qpOf t c.q = qpOf s c.q)
    (hhep : t.hep = s.hep) : Answerable c q t := by
  simpa only [Answerable, hqp, portOf, hhep] using h

theorem answerable_fetched {s : State} {c : HostCmd} {q : Qp} (hq : qpOf s c.q = some q) (hf : fetchable s q = true)
    (hfull : cqFull q = false) (hwait : q.waiting = []) : Answerable c q (fetched c s) :=
  ⟨qpOf_fetched hq, qpOf_key hq ▸ fetchable_port hf, hfull, hwait⟩

theorem Fetched.answerable {s : State} {c : HostCmd} {q : Qp} (h : Fetched s c q) : Answerable c q (fetched c s) := by
  obtain ⟨hq, hf, -, hfull, hwait, -⟩ := h
  exact answerable_fetched hq hf hfull hwait

/-- `t` is `s` after a command of the host was answered: its entry is posted, and its queue pair has fetched it. -/
def AnsweredFrom (c : HostCmd) (q : Qp) (st : Word16) (r : Nat) (s t : State) : Prop := Answered c q st r t ∧ PostedAt c.q s t

theorem Answerable.answer {c : HostCmd} {q : Qp} {s : State} (h : Answerable c q s) (tn : Option Nat) (st : Word16) (r : Nat) :
    AnsweredFrom c q st r s (answerCmd ⟨c, tn, .host⟩ st r s) := by
  obtain ⟨hq, hport, hfull, hwait⟩ := h
  have hpart : isPartial st 0 0 = false := by simp [isPartial]
  have hpost : answerCmd ⟨c, tn, .host⟩ st r s = postOne c.q ⟨c.cid, st, false, 0, BitVec.ofNat 32 r⟩ s := by
    simp only [answerCmd, answerTo, hpart]
    exact postCqe_room hq hport hfull hwait _
  have hposted := postOne_posted c.q ⟨c.cid, st, false, 0, BitVec.ofNat 32 r⟩ s
  rw [hpost]
  refine ⟨⟨?_, ?_⟩, hposted⟩
  · obtain ⟨qps, hep, o, hone⟩ := postOne_change hq ⟨c.cid, st, false, 0, BitVec.ofNat 32 r⟩
    rw [hone]
    simp [advanced]
  · rw [hposted.qpOf_map fun _ _ _ _ _ => rfl, hq]
    rfl

/-- An entry that fails its checks is answered with their status, and changes nothing else (R92). -/
theorem completes_failed_check {s : State} {c : HostCmd} {q : Qp} {st : Word16} {i : Instr} {f : Qp → State → State}
    (he : exec i s = run i (fetchRow c f) s) (hw : i.wf = true) (hq : qpOf s c.q = some q) (hf : fetchable s q = true)
    (ho : c.ordered = false) (hfull : cqFull q = false) (hwait : q.waiting = [])
    (hc : entryCheck c q.admin q.tenant s.glb.service = some st) :
    Completes i s fun t => Answered c q st 0 t ∧ Frame [.hqe, .hep] s t := by
  refine completes_of_run he hw ?_
  obtain ⟨hans, hposted⟩ := (answerable_fetched hq hf hfull hwait).answer q.tenant st 0
  rw [fetchRow_checked hq hf ho, hc]
  exact ⟨hans, ((fetched_frame c s).widen (by decide)).trans hposted.frame⟩

/-- A command that answers at once: its operation runs in the fetched state, and its entry is posted. -/
theorem completes_answer {s u : State} {c : HostCmd} {q : Qp} {i : Instr} {f : Qp → State → State} {st : Word16} {r : Nat}
    {P : State → Prop} (h : Fetched s c q) (he : exec i s = run i (fetchRow c f) s) (hw : i.wf = true)
    (hf : f q (fetched c s) = answerCmd ⟨c, q.tenant, .host⟩ st r u) (hu : Answerable c q u)
    (hP : ∀ t, Answered c q st r t → PostedAt c.q u t → P t) : Completes i s P := by
  refine completes_of_run he hw ?_
  obtain ⟨hans, hposted⟩ := hu.answer q.tenant st r
  rw [h.row, hf]
  exact hP _ hans hposted

end Sys2Proof.Machine
end

section
/-! SUPPORT. The commands of the administrative queue: which entries run them, and what each leaves in the state. -/

namespace Sys2Proof.Machine

/-! ### The entry that runs a command (R92) -/

theorem opcodeRow_listed : ∀ op < 256, (opcodeRow op).isSome = true → op ∈ listedOpcodes := by decide +kernel

theorem opcodeCheck_listed {op : Nat} {admin : Bool} {f : FnId} {tn : Option Nat} (h : opcodeCheck op admin f tn = none) :
    (opcodeRow op).isSome = true := by
  unfold opcodeCheck at h
  split at h
  · cases h
  · next hrow => rw [hrow]; rfl

theorem entryCheck_opcode {c : HostCmd} {admin : Bool} {tn : Option Nat} {v : Service} (h : entryCheck c admin tn v = none) :
    opcodeCheck c.op admin c.q.f tn = none := by
  unfold entryCheck firstOf at h
  split at h
  · cases h
  · assumption

/-- A command that runs has the opcode of its row. -/
theorem Fetched.op {s : State} {c : HostCmd} {q : Qp} (h : Fetched s c q) {n : Nat} (hw : c.row n = true) : c.op = n := by
  obtain ⟨-, -, -, -, -, hc⟩ := h
  have hlisted := opcodeRow_listed c.op c.opcode.isLt (opcodeCheck_listed (entryCheck_opcode hc))
  have hcontains : listedOpcodes.contains c.opcode.toNat = true := List.contains_iff_mem.2 hlisted
  simp only [HostCmd.row, hcontains, Bool.not_true, Bool.or_false, Bool.and_eq_true, beq_iff_eq] at hw
  exact hw.1

theorem Fetched.fieldCheck {s : State} {c : HostCmd} {q : Qp} (h : Fetched s c q) : fieldCheck c = none := by
  obtain ⟨-, -, -, -, -, hc⟩ := h
  rw [entryCheck, entryCheck_opcode hc] at hc
  simp only [firstOf] at hc
  split at hc
  · cases hc
  · assumption

theorem Fetched.fieldValues {s : State} {c : HostCmd} {q : Qp} (h : Fetched s c q) :
    fieldValues c.op c (isPf c.q.f) = true := by
  have hfield := h.fieldCheck
  by_contra hbad
  rw [Machine.fieldCheck, if_pos (by simp [eq_false_of_ne_true hbad])] at hfield
  cases hfield

/-- A command that needs no random bits is not held back for them. -/
theorem waitsForRandom_other {c : HostCmd} (s : State) (h : c.op ≠ 0x10) (h' : c.op ≠ 0x14) (h'' : c.op ≠ 0x21) :
    waitsForRandom s c = false := by
  simp [waitsForRandom, h, h', h'']

/-- A command of the administrative queue runs at once where it waits for no random bits. -/
theorem completes_admin {s u : State} {c : HostCmd} {q : Qp} {i : Instr} {f : HostCmd → State → AdminDone} {st : Word16} {r : Nat}
    {P : State → Prop} (h : Fetched s c q) (he : exec i s = run i (adminRow f c) s) (hw : i.wf = true)
    (hwait : (waitsForRandom (fetched c s) c && !drawsNothing (fetched c s) c) = false) (hf : f c (fetched c s) = (st, r, u))
    (hu : Answerable c q u) (hP : ∀ t, Answered c q st r t → PostedAt c.q u t → P t) : Completes i s P := by
  refine completes_answer h (f := fun q t => if waitsForRandom t c && !drawsNothing t c then
      { t with hqe := { t.hqe with behind := t.hqe.behind ++ [⟨c, q.tenant, .host⟩] } } else adminNow f c q t) he hw ?_ hu hP
  rw [hwait, adminNow, hf]
  rfl

/-! ### CREATE QP, DELETE QP, RESTART QP (R81, R84, R86) -/

theorem freeQpId_fetched (c : HostCmd) (s : State) : freeQpId (fetched c s) = freeQpId s := by
  have hids : (fetched c s).hqe.qps.map (·.id) = s.hqe.qps.map (·.id) := map_modFirst (f := advanced) (fun _ => rfl) s.hqe.qps
  rw [freeQpId, hids]
  rfl

/-- The queue pair that a CREATE QP entry asks for. -/
def createdQp (s : State) (c : HostCmd) (i id : Nat) : Qp :=
  newQp ⟨c.q.f, BitVec.ofNat 16 i⟩ id false (if isPf c.q.f then some (c.d3C % 4096) else fnTenant s c.q.f) c.dptr0
    (BitVec.ofNat 64 c.q30) (bitsOf c.d7 27 24) (bitsOf c.d7 27 24) (bitsOf c.d38 10 0) (bitsOf c.d38 23 16) (bitsOf c.d38 31 24)

/-- A queue pair is added. -/
def withQp (n : Qp) (s : State) : State := { s with hqe := { s.hqe with qps := s.hqe.qps ++ [n] } }

theorem qpOf_withQp_of_some {s : State} {k : QKey} {q : Qp} (h : qpOf s k = some q) (n : Qp) : qpOf (withQp n s) k = qpOf s k := by
  rw [h]
  simp only [qpOf] at h
  simp [qpOf, withQp, List.find?_append, h]

theorem qpOf_withQp_of_none {s : State} {n : Qp} {k : QKey} (h : qpOf s k = none) (hn : n.key = k) :
    qpOf (withQp n s) k = some n := by
  simp only [qpOf] at h
  simp [qpOf, withQp, List.find?_append, h, hn]

theorem withQp_frame (n : Qp) (s : State) : Frame [.hqe] s (withQp n s) := frame_hqe s _

theorem tick_frame (s : State) : Frame [.freeCtr] s (tick s) := by
  intro p hp _
  cases p <;> simp_all [Part.same, tick]

theorem completes_createQp {s : State} {c : HostCmd} {q : Qp} {id i : Nat} (h : Fetched s c q) (hw : (Instr.createQp c).wf = true)
    (hi : i = bitsOf c.d7 15 0) (h0 : i ≠ 0) (hlim : i < indexLimit c.q.f) (hnone : qpOf s ⟨c.q.f, BitVec.ofNat 16 i⟩ = none)
    (htn : isPf c.q.f = true → (tenantOf s (c.d3C % 4096)).isSome = true) (hid : freeQpId s = some id) :
    Completes (.createQp c) s fun t =>
      Answered c q 0 id t
      ∧ (∃ n, qpOf t ⟨c.q.f, BitVec.ofNat 16 i⟩ = some n ∧ n.id = id ∧ n.admin = false
        ∧ n.tenant = (if isPf c.q.f then some (c.d3C % 4096) else fnTenant s c.q.f)
        ∧ n.sqBase = c.dptr0 ∧ n.cqBase.toNat = c.q30 ∧ n.sqLog2 = bitsOf c.d7 27 24 ∧ n.cqLog2 = bitsOf c.d7 27 24
        ∧ n.vec = bitsOf c.d38 10 0 ∧ n.agg = bitsOf c.d38 23 16 ∧ n.timeUs = bitsOf c.d38 31 24
        ∧ n.tail = 0 ∧ n.fetch = 0 ∧ n.phase = true ∧ n.frozen = none ∧ n.deleting = none)
      ∧ Frame [.hqe, .hep, .freeCtr] s t := by
  have hop : c.op = 0x01 := h.op hw
  have hne : (⟨c.q.f, BitVec.ofNat 16 i⟩ : QKey) ≠ c.q := by
    rintro hk
    rw [hk, h.1] at hnone
    cases hnone
  have hfree : qpOf (fetched c s) ⟨c.q.f, BitVec.ofNat 16 i⟩ = none := (qpOf_fetched_other hne s).trans hnone
  have hpf : (isPf c.q.f && (tenantOf (fetched c s) (c.d3C % 4096)).isNone) = false := by
    cases hp : isPf c.q.f
    · rfl
    · rw [show tenantOf (fetched c s) _ = tenantOf s _ from rfl, Option.isNone_eq_false_iff.2 (htn hp)]
      rfl
  have hcmd : createQpCmd c (fetched c s) = (0, id, withQp (createdQp s c i id) (tick (fetched c s))) := by
    unfold createQpCmd
    simp only [← hi, hfree, hpf, freeQpId_fetched, hid]
    rw [if_neg (by simp [h0, Nat.not_le.2 hlim]), if_neg (by simp)]
    rfl
  have hq30 : (BitVec.ofNat 64 c.q30).toNat = c.q30 := by
    have h30 := c.cdw12.isLt
    have h34 := c.cdw13.isLt
    simp only [BitVec.toNat_ofNat, HostCmd.q30, HostCmd.d30, HostCmd.d34]
    omega
  refine completes_admin h rfl hw (by rw [waitsForRandom_other _ (by omega) (by omega) (by omega)]; rfl) hcmd
    (h.answerable.congr (qpOf_withQp_of_some (qpOf_fetched h.1) _) rfl) fun t hans hposted => ⟨hans, ?_, ?_⟩
  · refine ⟨createdQp s c i id, ?_, rfl, rfl, rfl, rfl, hq30, rfl, rfl, rfl, rfl, rfl, rfl, rfl, rfl, rfl, rfl⟩
    rw [hposted.qpOf_other hne]
    exact qpOf_withQp_of_none hfree rfl
  · refine ((fetched_frame c s).widen (by decide)).trans (Frame.trans ?_ (hposted.frame.widen (by decide)))
    exact ((tick_frame _).widen (by decide)).trans ((withQp_frame _ _).widen (by decide))

/-- A command is listed under the next number. -/
def withCmd (d : Cmd) (s : State) : State :=
  { s with hqe := { s.hqe with cmds := s.hqe.cmds ++ [d], nextCmd := s.hqe.nextCmd + 1 } }

theorem addCmd_unordered {d : Cmd} (h : d.ordered = false) (s : State) : addCmd d s = withCmd d s := by
  simp [addCmd, withCmd, h]

theorem mem_cmds_withCmd (d : Cmd) (s : State) : d ∈ (withCmd d s).hqe.cmds := List.mem_append_right _ (List.mem_singleton_self d)

theorem withCmd_frame (d : Cmd) (s : State) : Frame [.hqe] s (withCmd d s) := frame_hqe s _

theorem Fetched.unordered {s : State} {c : HostCmd} {q : Qp} (h : Fetched s c q) : c.ordered = false := h.2.2.1

theorem deleteQpStart_deletes {s : State} {c : HostCmd} {q n : Qp} (hn : qpOf s ⟨c.q.f, BitVec.ofNat 16 c.d7⟩ = some n)
    (hdel : n.deleting = none) (hlim : c.d7 < indexLimit c.q.f) :
    deleteQpStart c q s = modQp ⟨c.q.f, BitVec.ofNat 16 c.d7⟩ (fun x => { x with deleting := some s.hqe.nextCmd })
      (addCmd (newCmd ⟨c, q.tenant, .host⟩ (.deleteQp ⟨c.q.f, BitVec.ofNat 16 c.d7⟩) s) s) := by
  unfold deleteQpStart
  simp only [hn]
  rw [if_neg (by simp [hdel, hlim])]
  rfl

theorem completes_deleteQp {s : State} {c : HostCmd} {q n : Qp} (h : Fetched s c q) (hw : (Instr.deleteQp c).wf = true)
    (hn : qpOf s ⟨c.q.f, BitVec.ofNat 16 c.d7⟩ = some n) (hdel : n.deleting = none) (hlim : c.d7 < indexLimit c.q.f) :
    Completes (.deleteQp c) s fun t =>
      (qpOf t ⟨c.q.f, BitVec.ofNat 16 c.d7⟩).map (·.deleting) = some (some s.hqe.nextCmd)
      ∧ (∃ d ∈ t.hqe.cmds, d.id = s.hqe.nextCmd ∧ d.cid = c.cid ∧ d.stage = .deleteQp ⟨c.q.f, BitVec.ofNat 16 c.d7⟩)
      ∧ t.out = [] ∧ Frame [.hqe] s t := by
  have hmap := qpOf_fetched_map (π := Qp.deleting) (fun _ => rfl) c ⟨c.q.f, BitVec.ofNat 16 c.d7⟩ s
  rw [hn] at hmap
  obtain ⟨m, hm, hmdel⟩ := Option.map_eq_some_iff.1 hmap
  refine completes_of_run (f := fetchRow c (deleteQpStart c)) rfl hw ?_
  rw [h.row, deleteQpStart_deletes hm (hmdel.trans hdel) hlim, addCmd_unordered h.unordered]
  refine ⟨?_, ⟨_, mem_cmds_withCmd _ _, rfl, rfl, rfl⟩, rfl, ?_⟩
  · rw [qpOf_modQp (f := fun x => { x with deleting := some (fetched c s).hqe.nextCmd }) fun _ => rfl]
    rw [show qpOf (withCmd _ (fetched c s)) _ = some m from hm]
    rfl
  · exact (fetched_frame c s).trans ((withCmd_frame _ _).trans (modQp_frame _ _ _))

/-- A queue pair that is dropped is gone. -/
theorem qpOf_dropQps_self (k : QKey) (s : State) : qpOf (dropQps (fun x => x.key == k) s) k = none :=
  find?_without (fun x : Qp => x.key == k) s.hqe.qps

theorem qpOf_dropQps_other {j k : QKey} (h : j ≠ k) (s : State) : qpOf (dropQps (fun x => x.key == k) s) j = qpOf s j := by
  have hkeep : ∀ x : Qp, (!(x.key == k) && x.key == j) = (x.key == j) := fun x => by
    by_cases hx : x.key = j
    · simp [hx, h]
    · simp [hx]
  simp only [qpOf, dropQps, List.find?_filter, Bool.decide_eq_true, Bool.decide_and, hkeep]

/-- The end of a command posts its entry where it came from. -/
theorem finishCmd_posted {s : State} {id : Nat} {d : Cmd} {q : Qp} (h : Outstanding s id d q) (st : Word16) (k r : Nat) :
    PostedAt d.q (modQp d.q (unordered id) (dropCmd id s)) (finishCmd id st k r s) := by
  obtain ⟨hc, ho, hs, -⟩ := h
  simp only [finishCmd, hc, hs, ho, answerTo]
  exact postCqe_posted _ _ _

theorem finishCmd_qpOf_none {s : State} {id : Nat} {d : Cmd} {q : Qp} (h : Outstanding s id d q) (st : Word16) (k r : Nat) {j : QKey}
    (hj : qpOf s j = none) : qpOf (finishCmd id st k r s) j = none := by
  have hmap := qpOf_modQp_map (unordered_key id) (unordered_key id) j d.q (dropCmd id s)
  exact (finishCmd_posted h st k r).qpOf_none (Option.map_eq_none_iff.1 (hmap.trans (Option.map_eq_none_iff.2 hj)))

theorem isPartial_zero (st : Word16) (n : Nat) : isPartial st 0 n = false := by simp [isPartial]

/-- A command that ends with nothing done is not partial. -/
theorem finishCmd_ended_whole {s : State} {id : Nat} {d : Cmd} {q : Qp} (h : Outstanding s id d q) (st : Word16) (r : Nat) :
    Ended d q st false 0 r (finishCmd id st 0 r s) := by
  simpa only [isPartial_zero, Bool.false_eq_true, if_false] using finishCmd_ended h st 0 r

theorem Outstanding.of_dropQps {s : State} {id : Nat} {d : Cmd} {q : Qp} (h : Outstanding s id d q) {k : QKey} (hk : d.q ≠ k) :
    Outstanding (dropQps (fun x => x.key == k) s) id d q := by
  obtain ⟨hc, ho, hs, hq, hport, hfull, hwait⟩ := h
  exact ⟨hc, ho, hs, (qpOf_dropQps_other hk s).trans hq, hport, hfull, hwait⟩

theorem Outstanding.quiet {s : State} {id : Nat} {d : Cmd} {q : Qp} (h : Outstanding s id d q) : Outstanding s.quiet id d q := h

theorem completes_deleteQpSettled {s : State} {k : QKey} {n q : Qp} {id : Nat} {d : Cmd} (hn : qpOf s k = some n)
    (hdel : n.deleting = some id) (hidle : qpSettled s k = true) (h : Outstanding s id d q) (hk : d.q ≠ k) :
    Completes (.deleteQpSettled k) s fun t => qpOf t k = none ∧ Ended d q 0 false 0 0 t ∧ Frame [.hqe, .hep] s t := by
  have hout := h.quiet.of_dropQps hk
  have heff : deleteQpSettledEffect k s.quiet = finishCmd id 0 0 0 (dropQps (fun x => x.key == k) s.quiet) := by
    rw [deleteQpSettledEffect, show qpOf s.quiet k = some n from hn]
    simp only [hdel]
    exact if_pos hidle
  refine completes_of_run (f := deleteQpSettledEffect k) rfl rfl ?_
  rw [heff]
  refine ⟨finishCmd_qpOf_none hout 0 0 0 (qpOf_dropQps_self k _), finishCmd_ended_whole hout 0 0, ?_⟩
  exact Frame.of_quiet (((frame_hqe s.quiet _).widen (by decide)).trans (finishCmd_frame hout 0 0 0))

/-- The distance from the next entry to the tail of an SQ. -/
def toFetch (q : Qp) : Nat := (q.tail + sqSize q - q.fetch) % sqSize q

theorem ring_distance_succ {f t n : Nat} (hf : f < n) (ht : t < n) (h : f ≠ t) :
    (t + n - (f + 1) % n) % n + 1 = (t + n - f) % n := by
  rcases Nat.lt_or_ge (f + 1) n with hlt | hge
  · rw [Nat.mod_eq_of_lt hlt]
    rcases Nat.lt_or_ge f t with hl | hl
    · rw [show t + n - (f + 1) = t - f - 1 + n by omega, show t + n - f = t - f + n by omega, Nat.add_mod_right,
        Nat.add_mod_right, Nat.mod_eq_of_lt (by omega), Nat.mod_eq_of_lt (by omega)]
      omega
    · rw [Nat.mod_eq_of_lt (by omega), Nat.mod_eq_of_lt (by omega)]
      omega
  · rw [show f + 1 = n by omega, Nat.mod_self, Nat.sub_zero, Nat.add_mod_right, Nat.mod_eq_of_lt ht, Nat.mod_eq_of_lt (by omega)]
    omega

theorem toFetch_advanced {q : Qp} (hf : q.fetch < sqSize q) (ht : q.tail < sqSize q) (h : q.fetch ≠ q.tail) :
    toFetch (advanced q) + 1 = toFetch q :=
  ring_distance_succ hf ht h

theorem toFetch_zero {q : Qp} (hf : q.fetch < sqSize q) (ht : q.tail < sqSize q) (h : toFetch q = 0) : q.fetch = q.tail := by
  by_contra hne
  have := toFetch_advanced hf ht hne
  omega

/-- Flushing drops every entry up to the tail, with a completion entry for each: FETCH ends at the tail. -/
theorem flushEntries_step {k : QKey} {n : Nat} {b : Bytes} {s : State} {x : Qp} (hx : qpOf s k = some x) (hf : x.fetch < sqSize x)
    (ht : x.tail < sqSize x) (hn : toFetch x ≤ n) :
    ∃ g, (∀ y, (g y).key = y.key) ∧ (g x).fetch = x.tail ∧ (g x).tail = x.tail ∧ (g x).frozen = x.frozen
      ∧ QueueStep k g s (flushEntries k n b s) := by
  induction n generalizing b s x with
  | zero => exact ⟨fun y => y, fun _ => rfl, toFetch_zero hf ht (Nat.le_zero.1 hn), rfl, rfl, queueStep_refl k s⟩
  | succ n ih =>
    unfold flushEntries
    simp only [hx]
    split
    · next hdone => exact ⟨fun y => y, fun _ => rfl, hdone, rfl, rfl, queueStep_refl k s⟩
    · next hmore =>
      obtain ⟨g, hg, hpost⟩ := postCqe_posted k ⟨BitVec.ofNat 16 (numAt b 2 2), 0x5002, false, 0, 0⟩ (modQp k advanced s)
      have hstep := QueueStep.trans (f := advanced) (fun _ => rfl) (queueStep_modQp k advanced s) hpost
      have hkey : ∀ y, (g (advanced y)).key = y.key := fun y => hg.key (advanced y)
      obtain ⟨a, c, w, u, hgx⟩ := hg (advanced x)
      have hnext : qpOf (postCqe k ⟨BitVec.ofNat 16 (numAt b 2 2), 0x5002, false, 0, 0⟩ (modQp k advanced s)) k
          = some (g (advanced x)) := by
        rw [hstep.qpOf hkey, hx]
        rfl
      have hdist := toFetch_advanced hf ht hmore
      obtain ⟨g', hkey', hfetch, htail, hfrozen, hrest⟩ := ih (b := b.drop 64) hnext
        (by rw [hgx]; exact Nat.mod_lt _ (Nat.two_pow_pos _)) (by rw [hgx]; exact ht)
        (by rw [show toFetch (g (advanced x)) = toFetch (advanced x) by rw [hgx]; rfl]; omega)
      refine ⟨fun y => g' (g (advanced y)), fun y => (hkey' _).trans (hkey y), ?_, ?_, ?_, hstep.trans hkey hrest⟩
      · rw [hfetch, hgx]
        rfl
      · rw [htail, hgx]
        rfl
      · rw [hfrozen, hgx]
        rfl

/-- A queue pair whose freeze is over. -/
def thawed (q : Qp) : Qp := { q with frozen := none, freezeIdx := 0 }

/-- The restart of a queue pair ends its freeze, at FETCH or, with FLUSH, at the tail. -/
theorem restartQueue_step {k : QKey} {flush : Bool} {b : Bytes} {s : State} {x : Qp} (hx : qpOf s k = some x)
    (hf : x.fetch < sqSize x) (ht : x.tail < sqSize x) (hlog : x.sqLog2 ≤ 14) :
    ∃ g, (∀ y, (g y).key = y.key) ∧ (g x).fetch = (if flush then x.tail else x.fetch) ∧ (g x).tail = x.tail ∧ (g x).frozen = none
      ∧ QueueStep k g s (restartQueue k flush b s) := by
  have hthaw := queueStep_modQp k thawed s
  cases flush
  · exact ⟨thawed, fun _ => rfl, rfl, rfl, rfl, hthaw⟩
  · have hx' : qpOf (modQp k thawed s) k = some (thawed x) := by
      rw [qpOf_modQp (f := thawed) fun _ => rfl, hx]
      rfl
    have hsize : sqSize x ≤ 16384 := Nat.pow_le_pow_right (by omega) hlog
    obtain ⟨g, hkey, hfetch, htail, hfrozen, hrest⟩ := flushEntries_step (n := 16384) (b := b) hx' hf ht
      (le_trans (Nat.le_of_lt (Nat.mod_lt _ (Nat.two_pow_pos _))) hsize)
    exact ⟨fun y => g (thawed y), fun y => hkey _, hfetch, htail, hfrozen, hthaw.trans (fun _ => rfl) hrest⟩

theorem completes_restartQp {s : State} {c : HostCmd} {q n : Qp} {k : QKey} (h : Fetched s c q) (hw : (Instr.restartQp c).wf = true)
    (hk : k = ⟨c.q.f, BitVec.ofNat 16 (bitsOf c.d7 15 0)⟩) (hn : qpOf s k = some n) (hfrozen : n.frozen.isSome = true)
    (hfetch : n.fetch < sqSize n) (htail : n.tail < sqSize n) (hlog : n.sqLog2 ≤ 14) :
    Completes (.restartQp c) s fun t =>
      Answered c q 0 (if bitOf c.d7 31 then n.tail else n.fetch) t
      ∧ (qpOf t k).map (·.frozen) = some none ∧ (qpOf t k).map (·.tail) = some n.tail
      ∧ (qpOf t k).map (·.fetch) = some (if bitOf c.d7 31 then n.tail else n.fetch) ∧ Frame [.hqe, .hep] s t := by
  have hop : c.op = 0x03 := h.op hw
  have hne : k ≠ c.q := by
    rintro rfl
    obtain ⟨hq, hf, -⟩ := h
    rw [hn] at hq
    cases hq
    rw [fetchable_frozen hf] at hfrozen
    cases hfrozen
  have hport := h.answerable.2.1
  obtain ⟨g, hkey, hgfetch, hgtail, hgfrozen, hstep⟩ := restartQueue_step (flush := bitOf c.d7 31) (b := c.buf)
    ((qpOf_fetched_other hne s).trans hn) hfetch htail hlog
  have hqk : qpOf (restartQueue k (bitOf c.d7 31) c.buf (fetched c s)) k = some (g n) := by
    rw [hstep.qpOf hkey, qpOf_fetched_other hne, hn]
    rfl
  have hcmd : restartQpCmd c (fetched c s) = (0, if bitOf c.d7 31 then n.tail else n.fetch,
      restartQueue k (bitOf c.d7 31) c.buf (fetched c s)) := by
    unfold restartQpCmd
    simp only [← hk, (qpOf_fetched_other hne s).trans hn, hport, hfrozen, if_true, hqk, hgfetch]
    rfl
  refine completes_admin h rfl hw (by rw [waitsForRandom_other _ (by omega) (by omega) (by omega)]; rfl) hcmd ?_
    fun t hans hposted => ⟨hans, ?_, ?_, ?_, ?_⟩
  · obtain ⟨hq, -, hfull, hwait⟩ := h.answerable
    exact ⟨(hstep.qpOf_other hkey hne.symm).trans hq, by rw [hstep.portOf]; exact hport, hfull, hwait⟩
  · rw [hposted.qpOf_other hne, hqk, Option.map_some, hgfrozen]
  · rw [hposted.qpOf_other hne, hqk, Option.map_some, hgtail]
  · rw [hposted.qpOf_other hne, hqk, Option.map_some, hgfetch]
  · exact ((fetched_frame c s).widen (by decide)).trans (hstep.frame.trans hposted.frame)

/-! ### IDENTIFY and GET LOG (R104, R460) -/

theorem length_filter_modFirst {α : Type} {p r : α → Bool} {f : α → α} (hr : ∀ x, r (f x) = r x) (l : List α) :
    ((modFirst p f l).filter r).length = (l.filter r).length := by
  induction l with
  | nil => rfl
  | cons x l ih =>
    cases hx : p x <;> cases hrx : r x <;> simp [modFirst, hx, hr, hrx, ih]

theorem length_qps_fetched (c : HostCmd) (s : State) : (fetched c s).hqe.qps.length = s.hqe.qps.length := by
  have hmap : (fetched c s).hqe.qps.map Qp.key = s.hqe.qps.map Qp.key := map_modFirst (f := advanced) (fun _ => rfl) s.hqe.qps
  simpa only [List.length_map] using congrArg List.length hmap

theorem devicePage_fetched (c : HostCmd) (s : State) (f : FnId) : devicePage (fetched c s) f = devicePage s f := by
  unfold devicePage
  rw [length_qps_fetched]
  rfl

theorem tenantPage_fetched (c : HostCmd) (s : State) (tn : Option Nat) : tenantPage (fetched c s) tn = tenantPage s tn := by
  have hcount := fun x : Tenant => length_filter_modFirst (p := fun q : Qp => q.key == c.q) (r := fun q => q.tenant == some x.id)
    (f := advanced) (fun _ => rfl) s.hqe.qps
  unfold tenantPage
  rw [show tenantOf (fetched c s) = tenantOf s from rfl]
  cases tn.bind fun n => tenantOf s n with
  | none => rfl
  | some x => exact congrArg (fun k => _ ++ leBytes 2 k ++ _) (hcount x)

/-- A command that hands data to the host writes it before its entry. -/
theorem completes_page {s : State} {c : HostCmd} {q : Qp} {i : Instr} {f : HostCmd → Qp → State → AdminDone} {r : Nat} {page : Bytes}
    (h : Fetched s c q) (he : exec i s = run i (fetchRow c fun q t => adminNow (fun x u => f x q u) c q t) s) (hw : i.wf = true)
    (hf : f c q (fetched c s) = (0, r, toHost c.q c.dptr0.toNat page (fetched c s))) :
    Completes i s fun t =>
      Output.hostWrite c.q.f.port c.dptr0 page ∈ t.out ∧ Answered c q 0 r t ∧ Frame [.hqe, .hep] s t := by
  have hsend : toHost c.q c.dptr0.toNat page (fetched c s) = emit (.hostWrite c.q.f.port c.dptr0 page) (fetched c s) := by
    rw [toHost, h.answerable.2.1, BitVec.ofNat_toNat, BitVec.setWidth_eq]
    rfl
  refine completes_answer h he hw (by rw [adminNow, hf]) (h.answerable.congr (by rw [hsend]; rfl) (by rw [hsend]; rfl))
    fun t hans hposted => ⟨hposted.out ?_, hans, ?_⟩
  · rw [hsend]
    exact List.mem_append_right _ (List.mem_singleton_self _)
  · rw [hsend] at hposted
    exact ((fetched_frame c s).widen (by decide)).trans ((frame_emit _ _ _).trans hposted.frame)

theorem completes_identify {s : State} {c : HostCmd} {q : Qp} (h : Fetched s c q) (hw : (Instr.identify c).wf = true) :
    Completes (.identify c) s fun t =>
      Output.hostWrite c.q.f.port c.dptr0 (padTo 4096 (if c.d7 = 0 then devicePage s c.q.f else tenantPage s q.tenant)) ∈ t.out
      ∧ Answered c q 0 0 t ∧ Frame [.hqe, .hep] s t := by
  refine completes_page (f := identifyCmd) h rfl hw ?_
  rw [identifyCmd, devicePage_fetched, tenantPage_fetched]

/-- GET LOG asks for one of its two pages. -/
theorem Fetched.log_page {s : State} {c : HostCmd} {q : Qp} (h : Fetched s c q) (hop : c.op = 0x05) : c.d7 = 1 ∨ c.d7 = 2 := by
  have hvalues := h.fieldValues
  rw [hop] at hvalues
  simpa [Machine.fieldValues] using hvalues

theorem getLogCmd_queue {c : HostCmd} (q : Qp) (s : State) (h : c.d7 = 1) : getLogCmd c q s = (0, 4096,
    toHost c.q c.dptr0.toNat (padTo 4096 ((s.hqe.errLog.filter fun r => r.f == c.q.f).flatMap qErrBytes)) s) := if_pos h

theorem getLogCmd_credits {c : HostCmd} {q : Qp} {s : State} {x : Tenant} (h : c.d7 = 2)
    (hx : (if q.admin && isPf c.q.f then some (c.d3C % 4096) else q.tenant).bind (fun n => tenantOf s n) = some x) :
    getLogCmd c q s
      = (0, 4096, toHost c.q c.dptr0.toNat (padTo 4096 (creditPage s x (q.admin && isPf c.q.f))) s) := by
  rw [getLogCmd, if_neg (by omega)]
  simp only [hx]

theorem completes_getLog {s : State} {c : HostCmd} {q : Qp} {page : Bytes} (h : Fetched s c q) (hw : (Instr.getLog c).wf = true)
    (hqueue : c.d7 = 1 → page = (s.hqe.errLog.filter fun r => r.f == c.q.f).flatMap qErrBytes)
    (hcredits : c.d7 = 2 → ∃ x, (if q.admin && isPf c.q.f then some (c.d3C % 4096) else q.tenant).bind (fun n => tenantOf s n) = some x
      ∧ page = creditPage s x (q.admin && isPf c.q.f)) :
    Completes (.getLog c) s fun t =>
      Output.hostWrite c.q.f.port c.dptr0 (padTo 4096 page) ∈ t.out ∧ Answered c q 0 4096 t ∧ Frame [.hqe, .hep] s t := by
  refine completes_page (f := getLogCmd) h rfl hw ?_
  rcases h.log_page (h.op hw) with h1 | h2
  · rw [hqueue h1]
    exact getLogCmd_queue q (fetched c s) h1
  · obtain ⟨x, hx, hpage⟩ := hcredits h2
    rw [hpage]
    exact getLogCmd_credits (s := fetched c s) h2 hx

/-- The commands that a queue pair's entry runs start with its fetch. -/
theorem exec_fetches {c : HostCmd} {i : Instr} (h : i ∈ [Instr.createQp c, .deleteQp c, .restartQp c, .identify c,
      .getLog c, .setPower c, .setPace c, .selectProfile c, .chipReset c, .createTenant c, .deleteTenant c, .assignFunction c,
      .createNamespace c, .deleteNamespace c, .read c, .write c, .deallocate c, .stateQuery c, .keyImport c, .keyGenerate c,
      .keyExport c, .keyErase c, .keyInfo c, .keyAttach c, .keyCmac c, .cgSet c, .snapCreate c, .snapDelete c, .snapList c,
      .snapExpose c, .replSend c, .replStop c, .replStatus c, .ingest c]) :
    ∃ f, ∀ s, exec i s = run i (fetchRow c f) s := by
  revert i
  simp only [List.forall_mem_cons, List.not_mem_nil, false_imp_iff, implies_true, and_true]
  refine ⟨?_, ?_, ?_, ?_, ?_, ?_, ?_, ?_, ?_, ?_, ?_, ?_, ?_, ?_, ?_, ?_, ?_, ?_, ?_, ?_, ?_, ?_, ?_, ?_, ?_, ?_, ?_, ?_, ?_, ?_, ?_,
    ?_, ?_, ?_⟩ <;> exact ⟨_, fun _ => rfl⟩

/-- Settles O15: an entry that fails its checks is answered with their status; a command that passes them runs in the state
in which its entry is fetched, and its completion entry is posted. -/
theorem adminCommands : Obligations.AdminCommands := by
  unfold Obligations.AdminCommands
  refine ⟨fun s c q st i hi hw hq hf ho hfull hwait hc => ?_, ⟨?_, ?_, ?_, ?_⟩, ?_, ?_⟩
  · obtain ⟨f, hexec⟩ := exec_fetches hi
    exact completes_failed_check (hexec s) hw hq hf ho hfull hwait hc
  · exact fun s c q id i h hw hi h0 hlim hnone htn hid => completes_createQp h hw hi h0 hlim hnone htn hid
  · exact fun s c q n h hw hn hdel hlim => completes_deleteQp h hw hn hdel hlim
  · exact fun s k n q id d hn hdel hidle h hk => completes_deleteQpSettled hn hdel hidle h hk
  · exact fun s c q n k h hw hk hn hfrozen hfetch htail hlog => completes_restartQp h hw hk hn hfrozen hfetch htail hlog
  · exact fun s c q h hw => completes_identify h hw
  · exact fun s c q page h hw hqueue hcredits => completes_getLog h hw hqueue hcredits

end Sys2Proof.Machine
end

section
/-! SUPPORT. Tenants and their domains, and the functions of tenants (R81, R83, R102, R127, R362). -/

namespace Sys2Proof.Machine

/-! ### What commands tell -/

/-- `t` is `s` with more going out. -/
def Told (s t : State) : Prop := ∃ o, t = { s with out := s.out ++ o }

theorem Told.refl (s : State) : Told s s := ⟨[], by rw [List.append_nil]⟩

theorem told_emit (x : Output) (s : State) : Told s (emit x s) := ⟨[x], rfl⟩

theorem Told.trans {s t u : State} (h : Told s t) (h' : Told t u) : Told s u := by
  obtain ⟨o, rfl⟩ := h
  obtain ⟨o', rfl⟩ := h'
  exact ⟨o ++ o', by rw [← List.append_assoc]⟩

theorem Told.out {s t : State} (h : Told s t) {x : Output} (hx : x ∈ s.out) : x ∈ t.out := by
  obtain ⟨o, rfl⟩ := h
  exact List.mem_append_left o hx

theorem Told.frame {s t : State} (h : Told s t) (l : List Part) : Frame l s t := by
  obtain ⟨o, rfl⟩ := h
  exact frame_out l s _

theorem Told.hqe {s t : State} (h : Told s t) : t.hqe = s.hqe := (h.frame []).hqe

theorem told_toPeer (type : Nat) (args : List Nat) (data : Bytes) (s : State) : Told s (toPeer type args data s) := by
  unfold toPeer
  split
  · exact told_emit _ s
  · exact Told.refl s

theorem told_syncTenant (x : Tenant) (delete : Bool) (s : State) : Told s (syncTenant x delete s) := by
  unfold syncTenant
  split
  · exact told_toPeer _ _ _ s
  · exact Told.refl s

theorem told_forEach_emit {α : Type} (f : α → Output) (l : List α) (s : State) :
    Told s (forEach l (fun a t => emit (f a) t) s) ∧ ∀ a ∈ l, f a ∈ (forEach l (fun a t => emit (f a) t) s).out := by
  induction l generalizing s with
  | nil => exact ⟨Told.refl s, fun _ h => absurd h List.not_mem_nil⟩
  | cons a l ih =>
    obtain ⟨htold, hmem⟩ := ih (emit (f a) s)
    refine ⟨(told_emit _ s).trans htold, fun b hb => ?_⟩
    rcases List.mem_cons.1 hb with rfl | hb
    · exact htold.out (List.mem_append_right _ (List.mem_singleton_self _))
    · exact hmem b hb

theorem Answerable.told {c : HostCmd} {q : Qp} {s t : State} (h : Answerable c q s) (ht : Told s t) : Answerable c q t :=
  h.congr (by rw [qpOf, qpOf, ht.hqe]) (ht.frame []).hep

theorem PostedAt.hqe {k : QKey} {s t : State} (h : PostedAt k s t) : t.hqe = { s.hqe with qps := t.hqe.qps } :=
  congrArg State.hqe h.eq

theorem PostedAt.tenantOf {k : QKey} {s t : State} (h : PostedAt k s t) (n : Nat) : tenantOf t n = tenantOf s n := by
  rw [Machine.tenantOf, h.hqe]
  rfl

theorem PostedAt.domainRec {k : QKey} {s t : State} (h : PostedAt k s t) (n : Nat) : domainRec t n = domainRec s n := by
  rw [Machine.domainRec, h.hqe]
  rfl

/-! ### Free numbers -/

theorem lowestFree_not_mem {used : List Nat} {n k id : Nat} (h : lowestFree used n k = some id) : id ∉ used := by
  induction n generalizing k with
  | zero => cases h
  | succ n ih =>
    by_cases hk : k ∈ used
    · exact ih (by simpa [lowestFree, hk] using h)
    · simp only [lowestFree, hk, if_false] at h
      cases h
      exact hk

/-- A number that is picked is free. -/
theorem pickId_not_mem {used : List Nat} {bound id : Nat} {s : State} (h : pickId used bound s = some id) : id ∉ used := by
  unfold pickId at h
  cases h1 : lowestFree used (bound - freePick bound s) (freePick bound s) with
  | some x =>
    simp only [h1, Option.orElse_some, Option.some.injEq] at h
    exact h ▸ lowestFree_not_mem h1
  | none =>
    simp only [h1, Option.orElse_none] at h
    exact lowestFree_not_mem h

theorem find?_append_new {α : Type} {p : α → Bool} {l : List α} {x : α} (h : l.find? p = none) (hx : p x = true) :
    (l ++ [x]).find? p = some x := by
  rw [List.find?_append, h]
  simp [hx]

/-- An element whose number no other has is found by it. -/
theorem find?_append_of_not_mem {α : Type} {g : α → Nat} {l : List α} {x : α} (h : g x ∉ l.map g) :
    (l ++ [x]).find? (fun y => g y == g x) = some x :=
  find?_append_new (List.find?_eq_none.2 fun y hy hyx => h (List.mem_map.2 ⟨y, hy, by simpa using hyx⟩)) (by simp)

/-! ### CREATE TENANT -/

theorem writeSlot_frame (n : Nat) (k : Slot) (s : State) : Frame [.sec] s (writeSlot n k s) :=
  frame_iff.2 (writeSlot_outside (by decide) n k s)

theorem drbgUse_frame (n : Nat) (s : State) : Frame [.sec] s (drbgUse n s) := by
  intro p hp _
  cases p <;> simp_all [Part.same, drbgUse]

/-- A new tenant, in a domain of its own or in its partner's. -/
theorem addTenant_hqe (x : Tenant) (new : Bool) (s : State) : (addTenant x new s).hqe
    = { s.hqe with tenants := s.hqe.tenants ++ [x], domains := if new then s.hqe.domains ++ [{ id := x.id }] else s.hqe.domains } := by
  cases new
  · rfl
  · exact (writeSlot_frame _ _ _).hqe

theorem addTenant_frame (x : Tenant) (new : Bool) (s : State) : Frame [.hqe, .sec, .freeCtr] s (addTenant x new s) := by
  cases new
  · exact (frame_hqe s _).widen (by decide)
  · have hdrawn : ∀ u, Frame [.hqe, .sec, .freeCtr] u (drbgUse 2 (tick (tick u))) := fun u =>
      ((tick_frame _).trans (tick_frame _)).widen (by decide) |>.trans ((drbgUse_frame 2 _).widen (by decide))
    have hlisted : ∀ h, Frame [.hqe, .sec, .freeCtr] s { s with hqe := h } := fun h => (frame_hqe s h).widen (by decide)
    exact (hlisted _).trans ((hdrawn _).trans ((writeSlot_frame _ _ _).widen (by decide)))

/-- A domain of its own gets a key. -/
theorem addTenant_slot (x : Tenant) (s : State) :
    (slotOf (addTenant x true s) x.id).state = .active ∧ (slotOf (addTenant x true s) x.id).type = typeDomain := by
  have hslots : ∃ m, (addTenant x true s).sec.slots = tabPut {} x.id (filledSlot typeDomain x.id true m false) s.sec.slots :=
    ⟨_, writeSlot_slots _ _ _⟩
  obtain ⟨m, hm⟩ := hslots
  have hslot : slotOf (addTenant x true s) x.id = filledSlot typeDomain x.id true m false := by
    rw [slotOf, hm]
    exact tabGet_tabPut_of_value (by simp [filledSlot]) x.id s.sec.slots
  rw [hslot]
  exact ⟨rfl, rfl⟩

/-- The tenant that a CREATE TENANT entry asks for. -/
def createdTenant (c : HostCmd) (id d : Nat) : Tenant :=
  { id := id, g := c.d7, c := c.d30, relay := bitOf c.d34 0, shared := bitOf c.d34 1, domain := d }

/-- What the entry leaves: the tenant is added, and the federation is told. -/
def tenantCreated (c : HostCmd) (id d : Nat) (s : State) : State :=
  let t := addTenant (createdTenant c id d) (!bitOf c.d34 1) (tick s)
  syncTenant (createdTenant c id d) false (if bitOf c.d34 0 then sendTenant [0, id, c.d7, c.d30] t else t)

theorem createTenantCmd_creates {s : State} {c : HostCmd} {id d : Nat}
    (hshared : bitOf c.d34 1 = true → bitOf c.d34 0 = false ∧ some d = (tenantOf s (c.d38 % 4096)).map (·.domain))
    (hown : bitOf c.d34 1 = false → d = id ∧ s.sec.rng.st = .seeded)
    (hrelay : bitOf c.d34 0 = true → (∀ a ∈ fedChips s, (pathOf s a).state = 1) ∧ fedAnswer s = 0)
    (hroom : s.hqe.tenants.length < 4096) (hg : 2 * (sumG s + c.d7) ≤ stagingLimit s)
    (hid : pickId (usedTenantIds s) 4096 s = some id) : createTenantCmd c s = (0, id, tenantCreated c id d s) := by
  have hchips : (bitOf c.d34 0 && (fedChips s).any fun a => (pathOf s a).state != 1) = false := by
    cases h : bitOf c.d34 0
    · rfl
    · simpa using (hrelay h).1
  have hanswer : ∀ n, n ≠ 0 → (bitOf c.d34 0 && decide (fedAnswer s = n)) = false := fun n hn => by
    cases h : bitOf c.d34 0
    · rfl
    · simp [(hrelay h).2, hn.symm]
  have hpartner : (bitOf c.d34 1 && bitOf c.d34 0 || bitOf c.d34 1 && (tenantOf s (c.d38 % 4096)).isNone) = false := by
    cases h : bitOf c.d34 1
    · rfl
    · obtain ⟨h0, hd⟩ := hshared h
      obtain ⟨p, hp, -⟩ := Option.map_eq_some_iff.1 hd.symm
      rw [h0, hp]
      rfl
  have hseeded : (!bitOf c.d34 1 && s.sec.rng.st != .seeded) = false := by
    cases h : bitOf c.d34 1
    · rw [(hown h).2]
      rfl
    · rfl
  unfold createTenantCmd
  dsimp only
  rw [if_neg (by simp [hpartner]), if_neg (by omega), if_neg (by omega), if_neg (by simp [hchips]), if_neg (by simp [hanswer 1]),
    if_neg (by simp [hanswer 2]), if_neg (by simp [hseeded])]
  simp only [hid]
  cases h : bitOf c.d34 1
  · obtain ⟨rfl, -⟩ := hown h
    split
    · simp only [tenantCreated, createdTenant, h]
      rfl
    · simp only [tenantCreated, createdTenant, h]
  · obtain ⟨p, hp, rfl⟩ := Option.map_eq_some_iff.1 (hshared h).2.symm
    simp only [hp, tenantCreated, createdTenant, h]
    rfl

theorem tenantCreated_told (c : HostCmd) (id d : Nat) (s : State) :
    Told (addTenant (createdTenant c id d) (!bitOf c.d34 1) (tick s)) (tenantCreated c id d s) := by
  unfold tenantCreated
  refine Told.trans ?_ (told_syncTenant _ _ _)
  split
  · exact (told_forEach_emit _ _ _).1
  · exact Told.refl _

theorem tenantCreated_hqe (c : HostCmd) (id d : Nat) (s : State) : (tenantCreated c id d s).hqe
    = { s.hqe with
        tenants := s.hqe.tenants ++ [createdTenant c id d]
        domains := if !bitOf c.d34 1 then s.hqe.domains ++ [{ id := id }] else s.hqe.domains } :=
  (tenantCreated_told c id d s).hqe.trans (addTenant_hqe _ _ (tick s))

theorem tenantCreated_frame (c : HostCmd) (id d : Nat) (s : State) : Frame [.hqe, .sec, .freeCtr] s (tenantCreated c id d s) :=
  ((tick_frame s).widen (by decide)).trans ((addTenant_frame _ _ (tick s)).trans ((tenantCreated_told c id d s).frame _))

/-- A relay tenant is announced to every chip of the federation (R362). -/
theorem tenantCreated_announced {c : HostCmd} (h : bitOf c.d34 0 = true) (id d : Nat) {s : State} {a : Nat} (ha : a ∈ fedChips s) :
    Output.ether 0 4 a [0, id, c.d7, c.d30] [] ∈ (tenantCreated c id d s).out := by
  have hadd := addTenant_frame (createdTenant c id d) (!bitOf c.d34 1) (tick s)
  have hchips : fedChips (addTenant (createdTenant c id d) (!bitOf c.d34 1) (tick s)) = fedChips s := by
    simp only [fedChips, pathOf, hadd.rdm, hadd.mch]
    rfl
  unfold tenantCreated
  simp only [h, if_true]
  exact (told_syncTenant _ _ _).out ((told_forEach_emit _ _ _).2 a (hchips ▸ ha))

theorem drawsNothing_shared {c : HostCmd} (hop : c.op = 0x10) (h : bitOf c.d34 1 = true) (s : State) : drawsNothing s c = true := by
  simp [drawsNothing, hop, h]

theorem completes_createTenant {s : State} {c : HostCmd} {q : Qp} {id : Nat} {d : Option Nat} (h : Fetched s c q)
    (hw : (Instr.createTenant c).wf = true)
    (hshared : bitOf c.d34 1 = true → bitOf c.d34 0 = false ∧ d = (tenantOf s (c.d38 % 4096)).map (·.domain) ∧ d.isSome = true)
    (hown : bitOf c.d34 1 = false → d = some id ∧ s.sec.rng.st = .seeded ∧ randomWaits s = false)
    (hrelay : bitOf c.d34 0 = true → (∀ a ∈ fedChips s, (pathOf s a).state = 1) ∧ fedAnswer s = 0)
    (hroom : s.hqe.tenants.length < 4096) (hg : 2 * (sumG s + c.d7) ≤ stagingLimit s)
    (hid : pickId (usedTenantIds s) 4096 s = some id) :
    Completes (.createTenant c) s fun t =>
      Answered c q 0 id t
      ∧ (∃ x, tenantOf t id = some x ∧ x.id = id ∧ x.g = c.d7 ∧ x.c = c.d30 ∧ x.relay = bitOf c.d34 0 ∧ x.shared = bitOf c.d34 1
        ∧ some x.domain = d ∧ x.gHeld = 0 ∧ x.pHeld = 0)
      ∧ (bitOf c.d34 1 = false → domainRec t id = some { id := id } ∧ (slotOf t id).state = .active ∧ (slotOf t id).type = typeDomain)
      ∧ (bitOf c.d34 1 = true → t.sec = s.sec ∧ t.hqe.domains = s.hqe.domains)
      ∧ (bitOf c.d34 0 = true → ∀ a ∈ fedChips s, Output.ether 0 4 a [0, id, c.d7, c.d30] [] ∈ t.out)
      ∧ Frame [.hqe, .hep, .sec, .freeCtr] s t := by
  have hop : c.op = 0x10 := h.op hw
  obtain ⟨e, rfl⟩ : ∃ e, d = some e := by
    cases hs : bitOf c.d34 1
    · exact ⟨id, (hown hs).1⟩
    · exact Option.isSome_iff_exists.1 (hshared hs).2.2
  have hwait : (waitsForRandom (fetched c s) c && !drawsNothing (fetched c s) c) = false := by
    cases hs : bitOf c.d34 1
    · rw [waitsForRandom, show randomWaits (fetched c s) = false from (hown hs).2.2]
      rfl
    · rw [drawsNothing_shared hop hs, Bool.not_true, Bool.and_false]
  have hcmd := createTenantCmd_creates (s := fetched c s) (c := c) (id := id) (d := e)
    (fun hs => ⟨(hshared hs).1, (hshared hs).2.1⟩) (fun hs => ⟨Option.some.inj (hown hs).1, (hown hs).2.1⟩) hrelay hroom hg hid
  have hhqe := tenantCreated_hqe c id e (fetched c s)
  have hfresh := pickId_not_mem hid
  simp only [usedTenantIds, List.mem_append, not_or] at hfresh
  refine completes_admin h rfl hw hwait hcmd
    (h.answerable.congr (by rw [qpOf, hhqe]; rfl) (tenantCreated_frame c id e _).hep) fun t hans hposted => ⟨hans, ?_, ?_, ?_, ?_, ?_⟩
  · refine ⟨createdTenant c id e, ?_, rfl, rfl, rfl, rfl, rfl, rfl, rfl, rfl⟩
    rw [hposted.tenantOf, tenantOf, hhqe]
    exact find?_append_of_not_mem (g := Tenant.id) (x := createdTenant c id e) hfresh.1
  · intro hs
    have hslot := addTenant_slot (createdTenant c id e) (tick (fetched c s))
    have hsec : t.sec = (addTenant (createdTenant c id e) true (tick (fetched c s))).sec := by
      have htold := tenantCreated_told c id e (fetched c s)
      rw [hs] at htold
      exact hposted.frame.sec.trans (htold.frame []).sec
    refine ⟨?_, ?_, ?_⟩
    · rw [hposted.domainRec, domainRec, hhqe, hs]
      exact find?_append_of_not_mem (g := Domain.id) (x := { id := id }) hfresh.2
    · rw [slotOf, hsec]
      exact hslot.1
    · rw [slotOf, hsec]
      exact hslot.2
  · intro hs
    have htold := tenantCreated_told c id e (fetched c s)
    rw [hs] at htold
    refine ⟨hposted.frame.sec.trans (htold.frame []).sec, ?_⟩
    rw [hposted.hqe]
    show (tenantCreated c id e (fetched c s)).hqe.domains = _
    rw [hhqe, hs]
    rfl
  · exact fun hr a ha => hposted.out (tenantCreated_announced hr id e ha)
  · exact ((fetched_frame c s).widen (by decide)).trans
      (((tenantCreated_frame c id e _).widen (by decide)).trans (hposted.frame.widen (by decide)))

/-! ### DELETE TENANT -/

/-- A slot that is erased is empty. -/
theorem slotOf_eraseSlot {s : State} (h : tabWf {} s.sec.slots = true) (n : Nat) : slotOf (eraseSlot n s) n = {} := by
  rw [slotOf, eraseSlot, writeSlot_slots]
  exact tabGet_tabPut _ _ n h

theorem find?_filter_ne {α : Type} (g : α → Nat) (n : Nat) (l : List α) :
    (l.filter fun y => g y != n).find? (fun y => g y == n) = none := by
  refine List.find?_eq_none.2 fun y hy hyn => ?_
  have := (List.mem_filter.1 hy).2
  simp_all

/-- Whether another tenant shares the domain of a tenant. -/
def sharesDomain (s : State) (x : Tenant) : Bool := s.hqe.tenants.any fun y => y.id != x.id && y.domain == x.domain

theorem removeTenant_shared {s : State} {x : Tenant} (h : sharesDomain s x = true) : removeTenant x s = { s with
    hqe := { s.hqe with
      tenants := s.hqe.tenants.filter fun y => y.id != x.id
      settle := modAll (fun e => e.tenant == x.id) (fun e => { e with pinned := false }) s.hqe.settle } } :=
  if_pos (by rw [List.any_filter]; exact h)

/-- The last tenant of a domain takes it and its key along. -/
theorem removeTenant_last {s : State} {x : Tenant} (h : sharesDomain s x = false) : removeTenant x s = eraseSlot x.domain { s with
    hqe := { s.hqe with
      tenants := s.hqe.tenants.filter fun y => y.id != x.id
      domains := s.hqe.domains.filter fun d => d.id != x.domain
      settle := modAll (fun e => e.tenant == x.id) (fun e => { e with pinned := false }) s.hqe.settle } } :=
  if_neg (by rw [List.any_filter]; exact Bool.not_eq_true _ ▸ h)

theorem eraseSlot_frame (n : Nat) (s : State) : Frame [.sec] s (eraseSlot n s) := writeSlot_frame n {} s

theorem removeTenant_frame (x : Tenant) (s : State) : Frame [.hqe, .sec] s (removeTenant x s) := by
  cases h : sharesDomain s x
  · rw [removeTenant_last h]
    exact ((frame_hqe s _).widen (by decide)).trans ((eraseSlot_frame _ _).widen (by decide))
  · rw [removeTenant_shared h]
    exact (frame_hqe s _).widen (by decide)

theorem removeTenant_tenants (x : Tenant) (s : State) :
    (removeTenant x s).hqe.tenants = (s.hqe.tenants.filter fun y => y.id != x.id) ∧ (removeTenant x s).hqe.qps = s.hqe.qps := by
  cases h : sharesDomain s x
  · rw [removeTenant_last h, (eraseSlot_frame _ _).hqe]
    exact ⟨rfl, rfl⟩
  · rw [removeTenant_shared h]
    exact ⟨rfl, rfl⟩

/-- What a DELETE TENANT entry leaves: the tenant is removed, and a relay tenant's federation is told. -/
def tenantDeleted (x : Tenant) (s : State) : State :=
  let t := removeTenant x (if x.relay then tick s else s)
  syncTenant x true (if x.relay then sendTenant [1, x.id] t else t)

theorem deleteTenantCmd_deletes {s : State} {c : HostCmd} {x : Tenant} (hx : tenantOf s c.d3C = some x)
    (huse : tenantInUse s x.id = false) (hrelay : x.relay = true → fedAnswer s = 0) :
    deleteTenantCmd c s = (0, 0, tenantDeleted x s) := by
  have hanswer : (x.relay && fedAnswer s != 0) = false := by
    cases h : x.relay
    · rfl
    · rw [hrelay h]
      rfl
  unfold deleteTenantCmd
  simp only [hx, huse, hanswer]
  rfl

theorem tenantDeleted_told (x : Tenant) (s : State) :
    Told (removeTenant x (if x.relay then tick s else s)) (tenantDeleted x s) := by
  unfold tenantDeleted
  refine Told.trans ?_ (told_syncTenant _ _ _)
  split
  · exact (told_forEach_emit _ _ _).1
  · exact Told.refl _

theorem ticked_frame (b : Bool) (s : State) : Frame [.freeCtr] s (if b then tick s else s) := by
  cases b
  · exact Frame.refl _ s
  · exact tick_frame s

theorem tenantDeleted_frame (x : Tenant) (s : State) : Frame [.hqe, .sec, .freeCtr] s (tenantDeleted x s) :=
  ((ticked_frame _ s).widen (by decide)).trans
    (((removeTenant_frame x _).widen (by decide)).trans ((tenantDeleted_told x s).frame _))

theorem tenantInUse_fetched (c : HostCmd) (s : State) (id : Nat) : tenantInUse (fetched c s) id = tenantInUse s id := by
  have hany : ((fetched c s).hqe.qps.any fun q => q.tenant == some id) = s.hqe.qps.any fun q => q.tenant == some id :=
    any_modFirst (f := advanced) (g := Qp.tenant) (fun _ => rfl) (fun n => n == some id) s.hqe.qps
  rw [tenantInUse, hany]
  rfl

theorem completes_deleteTenant {s : State} {c : HostCmd} {q : Qp} {x : Tenant} (h : Fetched s c q)
    (hw : (Instr.deleteTenant c).wf = true) (hx : tenantOf s c.d3C = some x) (huse : tenantInUse s x.id = false)
    (hrelay : x.relay = true → fedAnswer s = 0) (hslots : tabWf {} s.sec.slots = true) :
    Completes (.deleteTenant c) s fun t =>
      Answered c q 0 0 t ∧ tenantOf t c.d3C = none
      ∧ (sharesDomain s x = true → t.sec = s.sec ∧ t.hqe.domains = s.hqe.domains)
      ∧ (sharesDomain s x = false → domainRec t x.domain = none ∧ slotOf t x.domain = {})
      ∧ Frame [.hqe, .hep, .sec, .freeCtr] s t := by
  have hop : c.op = 0x11 := h.op hw
  have hid : x.id = c.d3C := by simpa using List.find?_some hx
  have hcmd := deleteTenantCmd_deletes (s := fetched c s) hx ((tenantInUse_fetched c s x.id).trans huse) hrelay
  have htold := tenantDeleted_told x (fetched c s)
  have hticked := ticked_frame x.relay (fetched c s)
  obtain ⟨htenants, hqps⟩ := removeTenant_tenants x (if x.relay then tick (fetched c s) else fetched c s)
  rw [hticked.hqe] at htenants hqps
  have hshare : sharesDomain (if x.relay then tick (fetched c s) else fetched c s) x = sharesDomain s x := by
    rw [sharesDomain, hticked.hqe]
    rfl
  refine completes_admin h rfl hw (by rw [waitsForRandom_other _ (by omega) (by omega) (by omega)]; rfl) hcmd
    (h.answerable.congr (by rw [qpOf, htold.hqe, hqps]; rfl) (tenantDeleted_frame x _).hep) fun t hans hposted => ⟨hans, ?_, ?_, ?_, ?_⟩
  · rw [hposted.tenantOf, tenantOf, htold.hqe, htenants, hid]
    exact find?_filter_ne Tenant.id c.d3C _
  · intro hs
    rw [removeTenant_shared (hshare.trans hs)] at htold
    refine ⟨hposted.frame.sec.trans ((htold.frame []).sec.trans hticked.sec), ?_⟩
    rw [hposted.hqe]
    show (tenantDeleted x (fetched c s)).hqe.domains = _
    rw [htold.hqe]
    show (if x.relay then tick (fetched c s) else fetched c s).hqe.domains = _
    rw [hticked.hqe]
    rfl
  · intro hs
    rw [removeTenant_last (hshare.trans hs)] at htold
    refine ⟨?_, ?_⟩
    · rw [hposted.domainRec, domainRec, htold.hqe, (eraseSlot_frame _ _).hqe]
      exact find?_filter_ne Domain.id x.domain _
    · rw [slotOf, hposted.frame.sec, (htold.frame []).sec]
      refine slotOf_eraseSlot ?_ x.domain
      show tabWf {} (if x.relay then tick (fetched c s) else fetched c s).sec.slots = true
      rw [hticked.sec]
      exact hslots
  · exact ((fetched_frame c s).widen (by decide)).trans
      (((tenantDeleted_frame x _).widen (by decide)).trans (hposted.frame.widen (by decide)))

end Sys2Proof.Machine
end

section
/-! SUPPORT. ASSIGN FUNCTION and CREATE NAMESPACE (R81, R184, R185): what each leaves in the state. -/

namespace Sys2Proof.Machine

/-! ### ASSIGN FUNCTION (R81) -/

theorem find?_modAll_other {α : Type} {p r : α → Bool} {f : α → α} (hr : ∀ x, p x = true → r (f x) = r x)
    (hr' : ∀ x, p x = true → r x = false) (l : List α) : (modAll p f l).find? r = l.find? r := by
  induction l with
  | nil => rfl
  | cons x l ih =>
    rw [modAll, List.map_cons, List.find?_cons, List.find?_cons]
    rw [modAll] at ih
    cases hx : p x
    · simp only [Bool.false_eq_true, if_false, ih]
    · simp only [if_true, hr x hx, hr' x hx, ih]

theorem Fetched.onPf {s : State} {c : HostCmd} {q : Qp} (h : Fetched s c q) {k : QueueKind} (hk : opcodeRow c.op = some (k, true)) :
    isPf c.q.f = true := by
  obtain ⟨-, -, -, -, -, hc⟩ := h
  have hop := entryCheck_opcode hc
  rw [opcodeCheck, hk] at hop
  by_contra hpf
  dsimp only at hop
  split at hop
  · cases hop
  · rw [if_pos (by simp [eq_false_of_ne_true hpf])] at hop
    cases hop

/-- The state after ASSIGN FUNCTION: the function's queue pairs and its row follow the command. -/
def assigned (f : FnId) (tn : Option Nat) (s : State) : State := { s with hqe := { s.hqe with
  fnTenant := (s.hqe.fnTenant.filter fun p => !(p.1 == f)) ++ (tn.map fun id => (f, id)).toList
  qps := modAll (fun q => q.key.f == f) (fun q => { q with tenant := tn }) s.hqe.qps } }

theorem assigned_frame (f : FnId) (tn : Option Nat) (s : State) : Frame [.hqe] s (assigned f tn s) := frame_hqe s _

theorem fnTenant_assigned_same (f : FnId) (tn : Option Nat) (s : State) : fnTenant (assigned f tn s) f = tn := by
  have hnone : (s.hqe.fnTenant.filter fun p => !(p.1 == f)).find? (fun p => p.1 == f) = none := by
    simp
  rw [fnTenant, assigned, List.find?_append, hnone]
  cases tn <;> simp

theorem fnTenant_assigned_other {f g : FnId} (h : g ≠ f) (tn : Option Nat) (s : State) :
    fnTenant (assigned f tn s) g = fnTenant s g := by
  have hkeep : (s.hqe.fnTenant.filter fun p => !(p.1 == f)).find? (fun p => p.1 == g) = s.hqe.fnTenant.find? fun p => p.1 == g := by
    rw [List.find?_filter]
    refine congrArg (fun r => s.hqe.fnTenant.find? r) (funext fun p => ?_)
    by_cases hp : p.1 = g <;> simp [hp, h]
  have hlast : (tn.map fun id => (f, id)).toList.find? (fun p => p.1 == g) = none := by
    cases tn <;> simp [Ne.symm h]
  rw [fnTenant, assigned, List.find?_append, hkeep, hlast, Option.or_none]
  rfl

theorem qpOf_assigned_other {f : FnId} {k : QKey} (h : k.f ≠ f) (tn : Option Nat) (s : State) :
    qpOf (assigned f tn s) k = qpOf s k :=
  find?_modAll_other (r := fun q : Qp => q.key == k) (f := fun q : Qp => { q with tenant := tn }) (fun _ _ => rfl)
    (fun _ hx => beq_false_of_ne fun hk => h ((congrArg QKey.f hk).symm.trans (eq_of_beq hx))) s.hqe.qps

theorem assignFunctionCmd_assigns {s : State} {c : HostCmd} {f : FnId} (hf : f = ⟨c.q.f.port, BitVec.ofNat 8 (bitsOf c.d7 7 0)⟩)
    (htn : bitOf c.d7 31 = false → (tenantOf s (bitsOf c.d7 27 16)).isSome = true)
    (hfree : (s.hqe.qps.any fun x => x.key.f == f && x.tenant.isSome) = false) :
    assignFunctionCmd c s = (0, 0, assigned f (if bitOf c.d7 31 then none else some (bitsOf c.d7 27 16)) s) := by
  subst hf
  cases hb : bitOf c.d7 31
  · have hsome := Option.isNone_eq_false_iff.2 (htn hb)
    simp [assignFunctionCmd, assigned, hb, hsome, hfree]
  · simp [assignFunctionCmd, assigned, hb, hfree]

theorem completes_assignFunction {s : State} {c : HostCmd} {q : Qp} {f : FnId} (h : Fetched s c q)
    (hw : (Instr.assignFunction c).wf = true) (hf : f = ⟨c.q.f.port, BitVec.ofNat 8 (bitsOf c.d7 7 0)⟩)
    (htn : bitOf c.d7 31 = false → (tenantOf s (bitsOf c.d7 27 16)).isSome = true)
    (hfree : (s.hqe.qps.any fun x => x.key.f == f && x.tenant.isSome) = false) :
    Completes (.assignFunction c) s fun t =>
      Answered c q 0 0 t ∧ fnTenant t f = (if bitOf c.d7 31 then none else some (bitsOf c.d7 27 16))
      ∧ (∀ g : FnId, g ≠ f → fnTenant t g = fnTenant s g) ∧ Frame [.hqe, .hep] s t := by
  have hop : c.op = 0x12 := h.op hw
  have hne : c.q.f ≠ f := by
    have hpf : c.q.f.fn = 0 := eq_of_beq (h.onPf (k := .admin) (by rw [hop]; rfl))
    have hfn := h.fieldValues
    rw [hop] at hfn
    have hlt : bitsOf c.d7 7 0 < 256 := Nat.mod_lt _ (by decide)
    have hpos : 1 ≤ bitsOf c.d7 7 0 := by simpa [Machine.fieldValues] using hfn
    intro heq
    have hz := congrArg (fun g : FnId => g.fn.toNat) (heq.trans hf)
    simp only [hpf, BitVec.toNat_ofNat, Nat.mod_eq_of_lt hlt] at hz
    have hzero : (0 : Byte).toNat = 0 := rfl
    omega
  have hfree' : ((fetched c s).hqe.qps.any fun x => x.key.f == f && x.tenant.isSome) = false :=
    (any_modFirst (f := advanced) (g := fun x => (x.key, x.tenant)) (fun _ => rfl) (fun y => y.1.f == f && y.2.isSome) _).trans hfree
  refine completes_admin h rfl hw (by rw [waitsForRandom_other _ (by omega) (by omega) (by omega)]; rfl)
    (assignFunctionCmd_assigns hf htn hfree') (h.answerable.congr (qpOf_assigned_other hne _ _) rfl)
    fun t hans hposted => ⟨hans, ?_, ?_, ?_⟩
  · rw [fnTenant, hposted.hqe]
    exact fnTenant_assigned_same f _ _
  · intro g hg
    rw [fnTenant, hposted.hqe]
    exact fnTenant_assigned_other hg _ _
  · exact ((fetched_frame c s).widen (by decide)).trans (((assigned_frame _ _ _).widen (by decide)).trans hposted.frame)

/-! ### CREATE NAMESPACE (R184, R185) -/

/-- The record of a new namespace: this head owns it. -/
def createdNs (c : HostCmd) (x : Tenant) (id : Nat) (s : State) : Ns :=
  { id := id, tenant := x.id, size := c.start, mode := c.cdw7, owner := s.glb.headId,
    keySlot := if bitOf c.d7 5 then some x.domain else none }

/-- The state after the data key of a first encrypted namespace has been drawn, where it is needed. -/
def dataKeyDrawn (enc : Bool) (d : Nat) (s : State) : State :=
  if enc && (slotOf (tick s) d).idData = 0 then drawDataKey d (tick s) else tick s

/-- The state after CREATE NAMESPACE. -/
def nsCreated (c : HostCmd) (x : Tenant) (id : Nat) (s : State) : State :=
  { dataKeyDrawn (bitOf c.d7 5) x.domain s with hqe := { s.hqe with
    nss := s.hqe.nss ++ [createdNs c x id s]
    domains := modFirst (fun r => r.id == x.domain) (fun r => { r with sealFixed := true, seals := bitOf c.d7 6 }) s.hqe.domains } }

theorem drawDataKey_frame (d : Nat) (s : State) : Frame [.sec, .freeCtr] s (drawDataKey d s) := by
  rw [drawDataKey]
  exact ((tick_frame s).widen (by decide)).trans (((tick_frame _).widen (by decide)).trans
    (((drbgUse_frame 2 _).widen (by decide)).trans ((writeSlot_frame d _ _).widen (by decide))))

theorem dataKeyDrawn_frame (enc : Bool) (d : Nat) (s : State) : Frame [.sec, .freeCtr] s (dataKeyDrawn enc d s) := by
  rw [dataKeyDrawn]
  split
  · exact ((tick_frame s).widen (by decide)).trans (drawDataKey_frame d _)
  · exact (tick_frame s).widen (by decide)

theorem dataKeyDrawn_sec {enc : Bool} {d : Nat} {s : State} (h : enc = false ∨ (slotOf s d).idData ≠ 0) :
    (dataKeyDrawn enc d s).sec = s.sec := by
  have hno : ¬(enc && decide ((slotOf (tick s) d).idData = 0)) = true := by
    rw [show slotOf (tick s) d = slotOf s d from rfl]
    rcases h with h | h
    · rw [h]
      exact Bool.false_ne_true
    · rw [decide_eq_false h, Bool.and_false]
      exact Bool.false_ne_true
  rw [dataKeyDrawn, if_neg hno, (tick_frame s).sec]

theorem nsCreated_frame (c : HostCmd) (x : Tenant) (id : Nat) (s : State) : Frame [.hqe, .sec, .freeCtr] s (nsCreated c x id s) :=
  ((dataKeyDrawn_frame _ _ s).widen (by decide)).trans ((frame_hqe _ _).widen (by decide))

theorem createNamespaceCmd_creates {s : State} {c : HostCmd} {x : Tenant} {id : Nat} (hx : tenantOf s c.d3C = some x)
    (hid : pickId (usedNsids s) 16384 s = some id)
    (hseal : domainUsed s x.domain = true → ∀ r, domainRec s x.domain = some r → r.sealFixed = true → r.seals = bitOf c.d7 6)
    (hkey : bitOf c.d7 5 = true → (slotOf s x.domain).idData = 0 → (slotOf s x.domain).state = .active ∧ s.sec.rng.st = .seeded) :
    createNamespaceCmd c s = (0, id, nsCreated c x id s) := by
  have hsealed : ¬(domainUsed s x.domain && (domainRec s x.domain).any fun r => r.sealFixed && r.seals != bitOf c.d7 6) = true := by
    simp only [Bool.and_eq_true, Option.any_eq_true, bne_iff_ne]
    rintro ⟨hused, r, hr, hfixed, hne⟩
    exact hne (hseal hused r hr hfixed)
  have hactive : ¬(bitOf c.d7 5 && decide ((slotOf s x.domain).idData = 0) && (slotOf s x.domain).state != .active) = true := by
    simp only [Bool.and_eq_true, decide_eq_true_eq, bne_iff_ne]
    rintro ⟨⟨henc, hdata⟩, hne⟩
    exact hne (hkey henc hdata).1
  have hseeded : ¬(bitOf c.d7 5 && decide ((slotOf s x.domain).idData = 0) && s.sec.rng.st != .seeded) = true := by
    simp only [Bool.and_eq_true, decide_eq_true_eq, bne_iff_ne]
    rintro ⟨⟨henc, hdata⟩, hne⟩
    exact hne (hkey henc hdata).2
  have hdrawn := (dataKeyDrawn_frame (bitOf c.d7 5) x.domain s).hqe
  simp only [createNamespaceCmd, hx, if_neg hsealed, if_neg hactive, if_neg hseeded, hid]
  refine congrArg (fun u => ((0 : Word16), id, u)) ?_
  simp only [nsCreated, ← hdrawn]
  rfl

theorem drawsNothing_keyed {s : State} {c : HostCmd} {x : Tenant} (hop : c.op = 0x14) (hx : tenantOf s c.d3C = some x)
    (h : bitOf c.d7 5 = false ∨ (slotOf s x.domain).idData ≠ 0) : drawsNothing s c = true := by
  have hdomain : domainOf s c.d3C = x.domain := by rw [domainOf, hx]
  rw [drawsNothing, hop, hdomain]
  rcases h with h | h
  · rw [h]
    rfl
  · rw [bne_iff_ne.2 h, Bool.or_true]
    rfl

theorem PostedAt.nsOf {k : QKey} {s t : State} (h : PostedAt k s t) (n : Nat) : nsOf t n = nsOf s n := by
  rw [Machine.nsOf, h.hqe]
  rfl

theorem completes_createNamespace {s : State} {c : HostCmd} {q : Qp} {id : Nat} {x : Tenant} (h : Fetched s c q)
    (hw : (Instr.createNamespace c).wf = true) (hx : tenantOf s c.d3C = some x) (hid : pickId (usedNsids s) 16384 s = some id)
    (hseal : domainUsed s x.domain = true → ∀ r, domainRec s x.domain = some r → r.sealFixed = true → r.seals = bitOf c.d7 6)
    (hkey : bitOf c.d7 5 = true → (slotOf s x.domain).idData = 0 →
      (slotOf s x.domain).state = .active ∧ s.sec.rng.st = .seeded ∧ randomWaits s = false) :
    Completes (.createNamespace c) s fun t =>
      Answered c q 0 id t
      ∧ nsOf t id = some (createdNs c x id s)
      ∧ (∀ r, domainRec s x.domain = some r → domainRec t x.domain = some { r with sealFixed := true, seals := bitOf c.d7 6 })
      ∧ (bitOf c.d7 5 = false ∨ (slotOf s x.domain).idData ≠ 0 → t.sec = s.sec) ∧ Frame [.hqe, .hep, .sec, .freeCtr] s t := by
  have hop : c.op = 0x14 := h.op hw
  have hwait : (waitsForRandom (fetched c s) c && !drawsNothing (fetched c s) c) = false := by
    by_cases hneed : bitOf c.d7 5 = false ∨ (slotOf s x.domain).idData ≠ 0
    · rw [drawsNothing_keyed (s := fetched c s) hop hx hneed, Bool.not_true, Bool.and_false]
    · simp only [not_or, Bool.not_eq_false, not_not] at hneed
      rw [waitsForRandom, show randomWaits (fetched c s) = false from (hkey hneed.1 hneed.2).2.2]
      rfl
  have hcmd := createNamespaceCmd_creates (s := fetched c s) hx hid hseal
    fun henc hdata => ⟨(hkey henc hdata).1, (hkey henc hdata).2.1⟩
  have hfresh := pickId_not_mem hid
  simp only [usedNsids, List.mem_append, not_or] at hfresh
  have hframe := nsCreated_frame c x id (fetched c s)
  refine completes_admin h rfl hw hwait hcmd (h.answerable.congr rfl hframe.hep) fun t hans hposted => ⟨hans, ?_, ?_, ?_, ?_⟩
  · rw [hposted.nsOf]
    exact find?_append_of_not_mem (g := Ns.id) (x := createdNs c x id s) hfresh.1
  · intro r hr
    rw [hposted.domainRec]
    have hmod := find?_modFirst (f := fun r : Domain => { r with sealFixed := true, seals := bitOf c.d7 6 })
      (p := fun r => r.id == x.domain) (fun _ => rfl) s.hqe.domains
    rw [domainRec] at hr
    rw [hr] at hmod
    exact hmod
  · exact fun hkept => hposted.frame.sec.trans (dataKeyDrawn_sec (s := fetched c s) hkept)
  · exact ((fetched_frame c s).widen (by decide)).trans ((hframe.widen (by decide)).trans (hposted.frame.widen (by decide)))

end Sys2Proof.Machine
end

section
/-! SUPPORT. DELETE NAMESPACE (R428, R459): what its start and its end leave in the state. -/

namespace Sys2Proof.Machine

/-! ### Commands only end -/

/-- From `s` to `t` no command and no namespace comes or changes: commands may end, and be answered. -/
def OnlyEnds (s t : State) : Prop :=
  t.hqe.nss = s.hqe.nss ∧ t.hqe.nextCmd = s.hqe.nextCmd ∧ t.hqe.cmds ⊆ s.hqe.cmds ∧ Frame [.hqe, .hep, .ing] s t

theorem OnlyEnds.refl (s : State) : OnlyEnds s s := ⟨rfl, rfl, List.Subset.refl _, Frame.refl _ s⟩

theorem OnlyEnds.trans {s t u : State} (h : OnlyEnds s t) (h' : OnlyEnds t u) : OnlyEnds s u := by
  obtain ⟨hnss, hnext, hcmds, hframe⟩ := h
  obtain ⟨hnss', hnext', hcmds', hframe'⟩ := h'
  exact ⟨hnss'.trans hnss, hnext'.trans hnext, List.Subset.trans hcmds' hcmds, hframe.trans hframe'⟩

theorem onlyEnds_forEach {α : Type} {f : α → State → State} (h : ∀ x t, OnlyEnds t (f x t)) (l : List α) (s : State) :
    OnlyEnds s (forEach l f s) :=
  forEach_induct (OnlyEnds s) f (fun x t ht => ht.trans (h x t)) l s (OnlyEnds.refl s)

theorem Told.onlyEnds {s t : State} (h : Told s t) : OnlyEnds s t := by
  rw [OnlyEnds, h.hqe]
  exact ⟨rfl, rfl, List.Subset.refl _, h.frame _⟩

theorem PostedAt.onlyEnds {k : QKey} {s t : State} (h : PostedAt k s t) : OnlyEnds s t := by
  rw [OnlyEnds, h.hqe]
  exact ⟨rfl, rfl, List.Subset.refl _, h.frame.widen (by decide)⟩

theorem answerTo_onlyEnds (o : Origin) (k : QKey) (cid st : Word16) (n m r : Nat) (data : Bytes) (s : State) :
    OnlyEnds s (answerTo o k cid st n m r data s) := by
  cases o with
  | host => exact (postCqe_posted k _ s).onlyEnds
  | peer => exact (told_toPeer _ _ _ s).onlyEnds
  | fed src id =>
    simp only [answerTo]
    split
    · exact OnlyEnds.refl s
    · exact (told_emit _ s).onlyEnds

theorem finishCmd_onlyEnds (id : Nat) (st : Word16) (n r : Nat) (s : State) : OnlyEnds s (finishCmd id st n r s) := by
  unfold finishCmd
  split
  · exact OnlyEnds.refl s
  · next c _ =>
    have hdrop : OnlyEnds s (modQp c.q (fun q => if q.ordered = some id then { q with ordered := none } else q) (dropCmd id s)) :=
      ⟨rfl, rfl, List.filter_subset_self _, (frame_hqe s _).widen (by decide)⟩
    dsimp only
    split
    · exact hdrop
    · exact hdrop.trans (answerTo_onlyEnds _ _ _ _ _ _ _ _ _)

theorem endWrite_onlyEnds (c : Cmd) (k : Nat) (st : Word16) (s : State) : OnlyEnds s (endWrite c k st s) := by
  obtain ⟨l, o, hend⟩ := endWrite_eq c k st s
  rw [hend]
  have hsettled : OnlyEnds s (writeSettled c.id l o s) :=
    ⟨rfl, rfl, List.Subset.refl _, (writeSettled_frame c.id l o s).widen (by decide)⟩
  exact hsettled.trans (finishCmd_onlyEnds c.id st k 0 _)

/-- The commands that wait for a namespace end when it is deleted, and no other thing of the queues changes. -/
theorem endWaiting_onlyEnds (n : Nat) (s : State) : OnlyEnds s (endWaiting n s) := by
  have hbehind : OnlyEnds s { s with hqe := { s.hqe with behind := s.hqe.behind.filter fun w =>
      !(w.c.ns == n && decide (128 ≤ w.c.op) && w.c.op != 0x88) } } :=
    ⟨rfl, rfl, List.Subset.refl _, (frame_hqe s _).widen (by decide)⟩
  refine (hbehind.trans (onlyEnds_forEach (fun (w : Waiter) t => answerTo_onlyEnds w.origin w.c.q w.c.cid 0x2001 0 0 0 [] t) _ _)).trans
    (onlyEnds_forEach (fun c t => ?_) _ _)
  split
  · exact finishCmd_onlyEnds _ _ _ _ t
  · exact endWrite_onlyEnds _ _ _ t

/-! ### The snapshots of the namespace (R428) -/

theorem snapOf_startSnapDelete_same (n k : Nat) (s : State) :
    snapOf (startSnapDelete n k s) n k = (snapOf s n k).map fun x => { x with st := .deleting } :=
  find?_modFirst (f := fun x : Snap => { x with st := .deleting }) (fun _ => rfl) s.snp.snaps

theorem snapOf_startSnapDelete_other {j k : Nat} (h : j ≠ k) (n : Nat) (s : State) : snapOf (startSnapDelete n k s) n j = snapOf s n j :=
  find?_modFirst_other (r := fun y : Snap => y.nsid == n && y.seq == j) (f := fun x : Snap => { x with st := .deleting })
    (fun _ => rfl) (fun x hx => by
      have hk : x.seq = k := by
        simp only [Bool.and_eq_true, beq_iff_eq] at hx
        exact hx.2
      simp [hk, Ne.symm h]) s.snp.snaps

/-- A snapshot that is being deleted stays so. -/
theorem startSnapDelete_keeps {n j k : Nat} {s : State} (h : ∀ y, snapOf s n j = some y → y.st = .deleting) :
    ∀ y, snapOf (startSnapDelete n k s) n j = some y → y.st = .deleting := by
  by_cases hj : j = k
  · subst hj
    rw [snapOf_startSnapDelete_same]
    intro y hy
    obtain ⟨x, -, rfl⟩ := Option.map_eq_some_iff.1 hy
    rfl
  · rw [snapOf_startSnapDelete_other hj]
    exact h

/-- The state once the snapshots of a list are being deleted. -/
def snapsDeleting (n : Nat) (l : List Snap) (s : State) : State := forEach l (fun x u => startSnapDelete n x.seq u) s

theorem snapsDeleting_listed {n k : Nat} {l : List Snap} (h : ∃ x ∈ l, x.seq = k) (s : State) :
    ∀ y, snapOf (snapsDeleting n l s) n k = some y → y.st = .deleting := by
  induction l generalizing s with
  | nil => exact absurd h (by simp)
  | cons x l ih =>
    by_cases hx : x.seq = k
    · refine forEach_induct (fun u => ∀ y, snapOf u n k = some y → y.st = .deleting) _ (fun _ _ => startSnapDelete_keeps) l _ ?_
      dsimp only
      rw [hx, snapOf_startSnapDelete_same]
      intro y hy
      obtain ⟨z, -, rfl⟩ := Option.map_eq_some_iff.1 hy
      rfl
    · exact ih (by simpa [hx] using h) _

theorem snapsDeleting_none {n k : Nat} {s : State} (h : snapOf s n k = none) (l : List Snap) : snapOf (snapsDeleting n l s) n k = none := by
  refine forEach_induct (fun u => snapOf u n k = none) _ (fun x u hu => ?_) l s h
  by_cases hk : k = x.seq
  · rw [hk] at hu ⊢
    rw [snapOf_startSnapDelete_same, hu]
    rfl
  · rw [snapOf_startSnapDelete_other hk, hu]

/-- Every snapshot of a namespace is being deleted once all of them were marked. -/
theorem snapsDeleting_all (n : Nat) (s : State) (k : Nat) (y : Snap)
    (h : snapOf (snapsDeleting n (s.snp.snaps.filter fun x => x.nsid == n) s) n k = some y) : y.st = .deleting := by
  cases hk : snapOf s n k with
  | none => rw [snapsDeleting_none hk] at h; cases h
  | some x =>
    have hx := List.find?_some hk
    simp only [Bool.and_eq_true, beq_iff_eq] at hx
    refine snapsDeleting_listed ⟨x, List.mem_filter.2 ⟨List.mem_of_find?_eq_some hk, ?_⟩, hx.2⟩ s y h
    simp [hx.1]

theorem snapsDeleting_frame (n : Nat) (l : List Snap) (s : State) : Frame [.snp] s (snapsDeleting n l s) :=
  forEach_frame (fun x u => frame_iff.2 (by simp [startSnapDelete])) l s

/-! ### The discard of what is staged (R428) -/

/-- From `s` to `t` staged entries may go, and the credits of their tenants come back. -/
def Releases (s t : State) : Prop :=
  t.hqe = { s.hqe with tenants := t.hqe.tenants } ∧ t.ing.staging ⊆ s.ing.staging ∧ Frame [.hqe, .ing] s t

theorem Releases.refl (s : State) : Releases s s := ⟨rfl, List.Subset.refl _, Frame.refl _ s⟩

theorem Releases.trans {s t u : State} (h : Releases s t) (h' : Releases t u) : Releases s u := by
  obtain ⟨hhqe, hsub, hframe⟩ := h
  obtain ⟨hhqe', hsub', hframe'⟩ := h'
  exact ⟨hhqe'.trans (by rw [hhqe]), List.Subset.trans hsub' hsub, hframe.trans hframe'⟩

theorem returnCredit_hqe (tn : Option Nat) (s : State) :
    (returnCredit tn s).hqe = { s.hqe with tenants := (returnCredit tn s).hqe.tenants } := by
  cases tn <;> rfl

theorem returnCredit_frame (tn : Option Nat) (s : State) : Frame [.hqe] s (returnCredit tn s) := by
  cases tn with
  | none => exact Frame.refl _ s
  | some n => exact frame_hqe s _

theorem releaseEntry_told (e : StEntry) (s : State) : Told (freeEntry e s) (releaseEntry e s) := by
  unfold releaseEntry sendRelease
  split
  · exact told_toPeer _ _ _ _
  · exact Told.refl _

theorem releaseEntry_staging (e : StEntry) (s : State) :
    (releaseEntry e s).ing.staging = s.ing.staging.filter fun x => !(x.slot == e.slot) := by
  rw [((releaseEntry_told e s).frame []).ing, freeEntry, noteOccupancy]
  exact congrArg Ing.staging (returnCredit_frame e.tenant _).ing

theorem releaseEntry_releases (e : StEntry) (s : State) : Releases s (releaseEntry e s) := by
  refine ⟨?_, ?_, ?_⟩
  · rw [(releaseEntry_told e s).hqe]
    exact returnCredit_hqe e.tenant _
  · rw [releaseEntry_staging]
    exact List.filter_subset_self _
  · refine Frame.trans ?_ ((releaseEntry_told e s).frame _)
    exact ((frame_ing s _).widen (by decide)).trans (((returnCredit_frame e.tenant _).widen (by decide)).trans
      ((frame_ing _ _).widen (by decide)))

theorem releaseAll_releases (l : List StEntry) (s : State) : Releases s (forEach l releaseEntry s) :=
  forEach_induct (Releases s) _ (fun e t ht => ht.trans (releaseEntry_releases e t)) l s (Releases.refl s)

/-- The entries of a list are gone once they are released. -/
theorem releaseAll_slots (l : List StEntry) (s : State) : ∀ e ∈ (forEach l releaseEntry s).ing.staging, ∀ x ∈ l, e.slot ≠ x.slot := by
  induction l generalizing s with
  | nil => exact fun _ _ _ hx => absurd hx List.not_mem_nil
  | cons y l ih =>
    intro e he x hx
    rcases List.mem_cons.1 hx with rfl | hx
    · obtain ⟨-, hsub, -⟩ := releaseAll_releases l (releaseEntry x s)
      have hmem := hsub he
      rw [releaseEntry_staging] at hmem
      simpa using (List.mem_filter.1 hmem).2
    · exact ih _ e he x hx

/-- What is left of a discard once the staged entries are released: the mirror's copies and the runs. -/
theorem discardStaging_eq (n : Nat) (s : State) : ∃ m r,
    m ⊆ (forEach (s.ing.staging.filter fun e => e.nsid == n && e.st == .staged) releaseEntry s).ing.mirror ∧
    discardStaging n s = { forEach (s.ing.staging.filter fun e => e.nsid == n && e.st == .staged) releaseEntry s with
      ing := { (forEach (s.ing.staging.filter fun e => e.nsid == n && e.st == .staged) releaseEntry s).ing with
        mirror := m, runs := r } } := by
  unfold discardStaging
  dsimp only
  split
  · exact ⟨_, _, List.filter_subset_self _, rfl⟩
  · exact ⟨_, _, List.Subset.refl _, rfl⟩

theorem discardStaging_releases (n : Nat) (s : State) : Releases s (discardStaging n s) := by
  obtain ⟨m, r, -, heq⟩ := discardStaging_eq n s
  rw [heq]
  exact (releaseAll_releases _ s).trans ⟨rfl, List.Subset.refl _, (frame_ing _ _).widen (by decide)⟩

/-- A discard leaves nothing of the namespace STAGED. -/
theorem discardStaging_none (n : Nat) (s : State) : ∀ e ∈ (discardStaging n s).ing.staging, e.nsid = n → e.st ≠ .staged := by
  obtain ⟨m, r, -, heq⟩ := discardStaging_eq n s
  rw [heq]
  intro e he hn hst
  obtain ⟨-, hsub, -⟩ := releaseAll_releases (s.ing.staging.filter fun e => e.nsid == n && e.st == .staged) s
  exact releaseAll_slots _ s e he e (List.mem_filter.2 ⟨hsub he, by simp [hn, hst]⟩) rfl

theorem nsDiscard_releases (n id : Nat) (s : State) : Releases s (nsDiscard n id s) := by
  unfold nsDiscard
  split
  · exact Releases.refl s
  · exact discardStaging_releases n s

/-! ### DELETE NAMESPACE starts -/

/-- The command of DELETE NAMESPACE, and the state in which it is under way and the namespace holds off new commands. -/
def deletingCmd (c : HostCmd) (q : Qp) (n : Nat) (s : State) : Cmd := { newCmd ⟨c, q.tenant, .host⟩ .deleteNs s with nsid := n }

def nsDeleting (d : Cmd) (s : State) : State :=
  { withCmd d s with hqe := { (withCmd d s).hqe with
    nss := modFirst (fun x => x.id == d.nsid) (fun x => { x with deleting := some d.id }) s.hqe.nss } }

/-- The state after the start of DELETE NAMESPACE, and that before the discard. -/
def nsMarked (c : HostCmd) (q : Qp) (n : Nat) (s : State) : State :=
  let t := nsDeleting (deletingCmd c q n (endWaiting n s)) (endWaiting n s)
  snapsDeleting n (t.snp.snaps.filter fun x => x.nsid == n) t

theorem deleteNamespaceStart_deletes {s : State} {c : HostCmd} {n : Ns} (q : Qp) (ho : c.ordered = false) (hn : nsOf s c.ns = some n)
    (hdel : n.deleting = none) (hexp : (s.snp.snaps.any fun x => x.nsid == n.id && x.exposed.isSome) = false)
    (hses : (s.snp.sessions.any fun x => x.nsid == n.id) = false) :
    deleteNamespaceStart c q s = nsDiscard n.id (endWaiting n.id s).hqe.nextCmd (nsMarked c q n.id s) := by
  simp only [deleteNamespaceStart, hn, hdel, hexp, hses, Option.isSome_none, Bool.or_false, Bool.false_eq_true, if_false]
  rw [addCmd_unordered (d := { newCmd ⟨c, q.tenant, .host⟩ .deleteNs (endWaiting n.id s) with nsid := n.id }) ho]
  rfl

theorem nsMarked_hqe (c : HostCmd) (q : Qp) (n : Nat) (s : State) :
    (nsMarked c q n s).hqe = (nsDeleting (deletingCmd c q n (endWaiting n s)) (endWaiting n s)).hqe :=
  (snapsDeleting_frame n _ _).hqe

theorem nsMarked_frame (c : HostCmd) (q : Qp) (n : Nat) (s : State) : Frame [.hqe, .hep, .ing, .snp] s (nsMarked c q n s) := by
  obtain ⟨-, -, -, hframe⟩ := endWaiting_onlyEnds n s
  exact (hframe.widen (by decide)).trans (((frame_hqe _ _).widen (by decide)).trans ((snapsDeleting_frame n _ _).widen (by decide)))

/-- Nothing of the namespace runs but its own deletion, where only commands of other kinds named it. -/
theorem nsBusy_nsMarked {s : State} {n : Nat} (h : ∀ d ∈ s.hqe.cmds, d.nsid = n → d.op.toNat < 128) (c : HostCmd) (q : Qp) :
    nsBusy (nsMarked c q n s) n (endWaiting n s).hqe.nextCmd = false := by
  obtain ⟨-, -, hcmds, -⟩ := endWaiting_onlyEnds n s
  rw [nsBusy, nsMarked_hqe, List.any_eq_false]
  intro d hd
  rcases List.mem_append.1 hd with hd | hd
  · by_cases hn : d.nsid = n
    · have hop := h d (hcmds hd) hn
      simp [Nat.not_le.2 hop]
    · simp [hn]
  · rw [List.mem_singleton.1 hd]
    simp [deletingCmd, newCmd]

theorem completes_deleteNamespace {s : State} {c : HostCmd} {q : Qp} {n : Ns} (h : Fetched s c q)
    (hw : (Instr.deleteNamespace c).wf = true) (hn : nsOf s c.ns = some n) (hdel : n.deleting = none)
    (hexp : (s.snp.snaps.any fun x => x.nsid == n.id && x.exposed.isSome) = false)
    (hses : (s.snp.sessions.any fun x => x.nsid == n.id) = false) :
    Completes (.deleteNamespace c) s fun t =>
      (nsOf t c.ns).map (·.deleting) = some (some s.hqe.nextCmd)
      ∧ (∃ d ∈ t.hqe.cmds, d.id = s.hqe.nextCmd ∧ d.cid = c.cid ∧ d.stage = .deleteNs)
      ∧ (∀ k x, snapOf t c.ns k = some x → x.st = .deleting)
      ∧ ((∀ d ∈ s.hqe.cmds, d.nsid = c.ns → d.op.toNat < 128) → ∀ e ∈ t.ing.staging, e.nsid = c.ns → e.st ≠ .staged)
      ∧ Frame [.hqe, .hep, .ing, .snp] s t := by
  have hid : n.id = c.ns := by simpa using List.find?_some hn
  obtain ⟨hnss, hnext, -, -⟩ := endWaiting_onlyEnds c.ns (fetched c s)
  have hnext' : (endWaiting c.ns (fetched c s)).hqe.nextCmd = s.hqe.nextCmd := hnext
  have hrel := nsDiscard_releases c.ns (endWaiting c.ns (fetched c s)).hqe.nextCmd (nsMarked c q c.ns (fetched c s))
  obtain ⟨hhqe, -, hframe⟩ := hrel
  refine completes_of_run (f := fetchRow c (deleteNamespaceStart c)) rfl hw ?_
  rw [h.row, deleteNamespaceStart_deletes (s := fetched c s) q h.unordered hn hdel hexp hses, hid]
  refine ⟨?_, ?_, ?_, ?_, ?_⟩
  · rw [nsOf, hhqe, nsMarked_hqe]
    have hmod := find?_modFirst (p := fun x : Ns => x.id == c.ns)
      (f := fun x => { x with deleting := some (endWaiting c.ns (fetched c s)).hqe.nextCmd }) (fun _ => rfl)
      (endWaiting c.ns (fetched c s)).hqe.nss
    rw [hnss, show (fetched c s).hqe.nss.find? _ = some n from hn] at hmod
    refine (congrArg (Option.map Ns.deleting) ((congrArg (fun l => List.find? _ (modFirst _ _ l)) hnss).trans hmod)).trans ?_
    rw [hnext']
    rfl
  · refine ⟨deletingCmd c q c.ns (endWaiting c.ns (fetched c s)), ?_, hnext', rfl, rfl⟩
    rw [hhqe, nsMarked_hqe]
    exact mem_cmds_withCmd _ _
  · intro k x hx
    rw [snapOf, hframe.snp] at hx
    exact snapsDeleting_all c.ns _ k x hx
  · intro hidle
    rw [nsDiscard, if_neg (by rw [nsBusy_nsMarked (s := fetched c s) hidle]; exact Bool.false_ne_true)]
    exact discardStaging_none c.ns _
  · exact ((fetched_frame c s).widen (by decide)).trans ((nsMarked_frame c q c.ns _).trans (hframe.widen (by decide)))

/-! ### DELETE NAMESPACE ends -/

/-- The state with other copies in the mirror and other runs. -/
def remirrored (m : List MirEntry) (r : List Run) (s : State) : State := { s with ing := { s.ing with mirror := m, runs := r } }

/-- Where nothing of the namespace is staged a discard changes the mirror's copies and the runs only. -/
theorem discardStaging_unstaged {n : Nat} {s : State} (h : ∀ e ∈ s.ing.staging, e.nsid ≠ n) :
    ∃ m r, m ⊆ s.ing.mirror ∧ discardStaging n s = remirrored m r s := by
  have heq := discardStaging_eq n s
  have hnil : (s.ing.staging.filter fun e => e.nsid == n && e.st == .staged) = [] :=
    List.filter_eq_nil_iff.2 fun e he => by simp [h e he]
  rw [hnil] at heq
  exact heq

/-- The state without the maps of a namespace, unless a snapshot lent them. -/
def mapsGone (n : Nat) (x : Ns) (s : State) : State := if x.exposed.isSome then s else dropMaps n s

/-- The snapshots once a namespace that exposed one is gone. -/
def unexposed (x : Ns) (l : List Snap) : List Snap :=
  match x.exposed with
  | some (o, q) => modFirst (fun y => y.nsid == o && y.seq == q) (fun y => { y with exposed := none }) l
  | none => l

/-- The state without a namespace, before its deletion completes. -/
def nsGone (n : Nat) (x : Ns) (s : State) : State := { mapsGone n x s with
  hqe := { (mapsGone n x s).hqe with nss := (mapsGone n x s).hqe.nss.filter fun y => y.id != n }
  snp := { (mapsGone n x s).snp with
    snaps := unexposed x (mapsGone n x s).snp.snaps, nextSeq := tabPut 0 n 0 (mapsGone n x s).snp.nextSeq
    groups := ((mapsGone n x s).snp.groups.map fun g => (g.1, g.2.filter (· != n))).filter fun g => !g.2.isEmpty } }

theorem dropMaps_frame (n : Nat) (s : State) : Frame [.ing, .med, .til] s (dropMaps n s) := frame_iff.2 (by simp [dropMaps])

theorem mapsGone_frame (n : Nat) (x : Ns) (s : State) : Frame [.ing, .med, .til] s (mapsGone n x s) := by
  unfold mapsGone
  split
  · exact Frame.refl _ s
  · exact dropMaps_frame n s

theorem nsGone_frame (n : Nat) (x : Ns) (s : State) : Frame [.hqe, .ing, .med, .snp, .til] s (nsGone n x s) :=
  ((mapsGone_frame n x s).widen (by decide)).trans (frame_iff.2 (by simp [nsGone]))

theorem nsGone_hqe (n : Nat) (x : Ns) (s : State) :
    (nsGone n x s).hqe = { s.hqe with nss := s.hqe.nss.filter fun y => y.id != n } := by
  rw [← (mapsGone_frame n x s).hqe]
  rfl

/-- A namespace that exposed no snapshot leaves no map behind. -/
theorem nsGone_maps {x : Ns} (h : x.exposed = none) (n : Nat) (s : State) : ∀ m ∈ (nsGone n x s).med.maps, m.nsid ≠ n := by
  have hmed : (nsGone n x s).med = (dropMaps n s).med := by
    show (mapsGone n x s).med = _
    rw [mapsGone, h]
    rfl
  rw [hmed]
  intro m hm
  simpa using (List.mem_filter.1 hm).2

/-- One that exposed a snapshot leaves the snapshot's maps as they are. -/
theorem nsGone_med {x : Ns} (h : x.exposed ≠ none) (n : Nat) (s : State) : (nsGone n x s).med = s.med := by
  show (mapsGone n x s).med = _
  rw [mapsGone, if_pos (Option.isSome_iff_ne_none.2 h)]

theorem deleteNamespaceDoneEffect_ends {s : State} {n id : Nat} {x : Ns} (hx : nsOf s n = some x) (hdel : x.deleting = some id)
    (hbusy : nsBusy s n id = false) (hstaged : ∀ e ∈ s.ing.staging, e.nsid ≠ n) (hmirror : ∀ m ∈ s.ing.mirror, m.nsid ≠ n) :
    ∃ m r, deleteNamespaceDoneEffect n s = finishCmd id 0 0 0 (nsGone n x (remirrored m r s)) := by
  obtain ⟨m, r, hsub, heq⟩ := discardStaging_unstaged hstaged
  refine ⟨m, r, ?_⟩
  have hstaged' : ((remirrored m r s).ing.staging.any fun e => e.nsid == n) = false :=
    List.any_eq_false.2 fun e he => by simp [hstaged e he]
  have hmirror' : ((remirrored m r s).ing.mirror.any fun e => e.nsid == n) = false :=
    List.any_eq_false.2 fun e he => by simp [hmirror e (hsub he)]
  have hbusy' : nsBusy (remirrored m r s) n id = false := hbusy
  simp only [deleteNamespaceDoneEffect, hx, hdel, nsDiscard, hbusy, Bool.false_eq_true, if_false, heq, hbusy', hstaged', hmirror',
    Bool.or_false]
  rfl

theorem completes_deleteNamespaceDone {s : State} {n : BitVec 14} {x : Ns} {id : Nat} {d : Cmd} {q : Qp}
    (hx : nsOf s n.toNat = some x) (hdel : x.deleting = some id) (hbusy : nsBusy s n.toNat id = false)
    (hstaged : ∀ e ∈ s.ing.staging, e.nsid ≠ n.toNat) (hmirror : ∀ m ∈ s.ing.mirror, m.nsid ≠ n.toNat)
    (hout : Outstanding s id d q) :
    Completes (.deleteNamespaceDone n) s fun t =>
      nsOf t n.toNat = none ∧ Ended d q 0 false 0 0 t
      ∧ (x.exposed = none → ∀ m ∈ t.med.maps, m.nsid ≠ n.toNat) ∧ (x.exposed ≠ none → t.med = s.med)
      ∧ Frame [.hqe, .hep, .ing, .med, .snp, .til] s t := by
  obtain ⟨m, r, heff⟩ := deleteNamespaceDoneEffect_ends (s := s.quiet) hx hdel hbusy hstaged hmirror
  have hhqe := nsGone_hqe n.toNat x (remirrored m r s.quiet)
  have hframe := nsGone_frame n.toNat x (remirrored m r s.quiet)
  have hout' : Outstanding (nsGone n.toNat x (remirrored m r s.quiet)) id d q :=
    hout.quiet.congr (by rw [hhqe]; rfl) (by rw [hhqe]; rfl) hframe.hep
  have hfinish := finishCmd_frame hout' 0 0 0
  obtain ⟨hnss, -⟩ := finishCmd_onlyEnds id 0 0 0 (nsGone n.toNat x (remirrored m r s.quiet))
  refine completes_of_run (f := deleteNamespaceDoneEffect n.toNat) rfl rfl ?_
  rw [heff]
  refine ⟨?_, finishCmd_ended_whole hout' 0 0, ?_, ?_, ?_⟩
  · rw [nsOf, hnss, hhqe]
    exact find?_filter_ne Ns.id n.toNat _
  · intro hexp
    rw [hfinish.med]
    exact nsGone_maps hexp _ _
  · intro hexp
    rw [hfinish.med]
    exact nsGone_med hexp _ _
  · exact Frame.trans (((frame_ing s.quiet _).of_quiet).widen (by decide))
      ((hframe.widen (by decide)).trans (hfinish.widen (by decide)))

/-! ### The obligation -/

/-- Settles O16: each command in turn, an equation for what it computes and the frame of each of its parts. -/
theorem tenantsAndNamespaces : Obligations.TenantsAndNamespaces := by
  unfold Obligations.TenantsAndNamespaces
  refine ⟨⟨?_, ?_, ?_⟩, ?_, ?_, ?_⟩
  · exact fun s c q id d h hw hshared hown hrelay hroom hg hid => completes_createTenant h hw hshared hown hrelay hroom hg hid
  · exact fun s c q x h hw hx huse hrelay hslots => completes_deleteTenant h hw hx huse hrelay hslots
  · exact fun s c q f h hw hf htn hfree => completes_assignFunction h hw hf htn hfree
  · exact fun s c q id x h hw hx hid hseal hkey => completes_createNamespace h hw hx hid hseal hkey
  · exact fun s c q n h hw hn hdel hexp hses => completes_deleteNamespace h hw hn hdel hexp hses
  · exact fun s n x id d q hx hdel hbusy hstaged hmirror hout => completes_deleteNamespaceDone hx hdel hbusy hstaged hmirror hout

end Sys2Proof.Machine
end

section
/-! SUPPORT. I/O commands before admission, and STATE QUERY: where an entry goes, and what its answer leaves in the state. -/

namespace Sys2Proof.Machine

/-! ### An I/O command is refused or held behind (R91, R92, R94, R363) -/

theorem exec_io {i : Instr} {c : HostCmd} (hi : i = .read c ∨ i = .write c ∨ i = .deallocate c) (s : State) :
    exec i s = run i (fetchRow c fun q t => routeIo ⟨c, q.tenant, .host⟩ t) s := by
  rcases hi with rfl | rfl | rfl <;> rfl

theorem routeIo_unreached {w : Waiter} {s : State} (hr : w.c.remote = true) (ht : relayTarget s (w.c.fed.toNat % 64) = none) :
    routeIo w s = answerCmd w 0x6003 0 s := by
  simp only [routeIo, hr, ht, if_true]

theorem routeIo_admits {w : Waiter} {s : State} (hr : w.c.remote = false) (hw : s.pair.swapWait = false) (hp : s.peer.role ≠ .service) :
    routeIo w s = admitIo w s := by
  simp only [routeIo, hr, hw, hp, Bool.and_false, Bool.false_eq_true, if_false]

theorem routeIo_unlinked {w : Waiter} {s : State} (hr : w.c.remote = false) (hw : s.pair.swapWait = false) (hp : s.peer.role = .service)
    (hlink : s.peer.linkUp = false) : routeIo w s = answerCmd w 0x6002 0 s := by
  simp only [routeIo, hr, hw, hp, hlink, Bool.and_false, Bool.false_and, Bool.false_eq_true, if_false, if_true]

theorem routeIo_relays {w : Waiter} {s : State} (hr : w.c.remote = false) (hw : s.pair.swapWait = false) (hp : s.peer.role = .service)
    (hlink : s.peer.linkUp = true) (ho : w.origin = .host) : routeIo w s = relayOrWait w peerDst s := by
  have hhost : (Origin.host != Origin.peer) = true := rfl
  simp only [routeIo, hr, hw, hp, hlink, ho, hhost, Bool.and_false, Bool.and_true, Bool.false_eq_true, if_false, if_true]

/-- The state in which an entry is held behind those before it. -/
def heldBehind (w : Waiter) (s : State) : State := { s with hqe := { s.hqe with behind := s.hqe.behind ++ [w] } }

/-- An entry that fails after its fetch changes nothing but the queues. -/
theorem completes_refused {s : State} {c : HostCmd} {q : Qp} {i : Instr} {f : Qp → State → State} {st : Word16} (h : Fetched s c q)
    (he : exec i s = run i (fetchRow c f) s) (hw : i.wf = true)
    (hf : f q (fetched c s) = answerCmd ⟨c, q.tenant, .host⟩ st 0 (fetched c s)) :
    Completes i s fun t => Answered c q st 0 t ∧ Frame [.hqe, .hep] s t :=
  completes_answer h he hw hf h.answerable fun _ hans hposted => ⟨hans, ((fetched_frame c s).widen (by decide)).trans hposted.frame⟩

theorem completes_behind {s : State} {c : HostCmd} {q : Qp} {i : Instr} {f : Qp → State → State} (h : Fetched s c q)
    (he : exec i s = run i (fetchRow c f) s) (hw : i.wf = true)
    (hf : f q (fetched c s) = heldBehind ⟨c, q.tenant, .host⟩ (fetched c s)) :
    Completes i s fun t => t.hqe.behind = s.hqe.behind ++ [⟨c, q.tenant, .host⟩] ∧ t.out = [] ∧ Frame [.hqe] s t := by
  refine completes_of_run he hw ?_
  rw [h.row, hf]
  exact ⟨rfl, rfl, (fetched_frame c s).trans (frame_hqe _ _)⟩

theorem relayOrWait_waits {w : Waiter} {s : State} (h : relayWaits s w = true) (dst : Nat) : relayOrWait w dst s = heldBehind w s := by
  rw [relayOrWait, if_pos h]
  rfl

theorem relayOrWait_starts {w : Waiter} {s : State} (h : relayWaits s w = false) (dst : Nat) :
    relayOrWait w dst s = startRelay w dst s := by
  rw [relayOrWait, if_neg (ne_true_of_eq_false h)]

/-! The fetch of an entry decides nothing of its route: the checks read no queue pair. -/

theorem nsOf_fetched (c : HostCmd) (s : State) (n : Nat) : nsOf (fetched c s) n = nsOf s n := rfl

theorem tenantOf_fetched (c : HostCmd) (s : State) (n : Nat) : tenantOf (fetched c s) n = tenantOf s n := rfl

theorem peerOwns_fetched (c : HostCmd) (s : State) (n : Ns) : peerOwns (fetched c s) n = peerOwns s n := rfl

theorem peer_fetched (c : HostCmd) (s : State) : (fetched c s).peer = s.peer := rfl

theorem nsCheck_fetched (c : HostCmd) (w : Waiter) (s : State) : nsCheck (fetched c s) w = nsCheck s w := by
  rw [nsCheck, nsCheck, nsOf_fetched]
  cases nsOf s w.c.ns with
  | none => rfl
  | some n => simp only [tenantOf_fetched, peerOwns_fetched, peer_fetched] <;> rfl

theorem cmds_fetched (c : HostCmd) (s : State) : (fetched c s).hqe.cmds = s.hqe.cmds := rfl

theorem behind_fetched (c : HostCmd) (s : State) : (fetched c s).hqe.behind = s.hqe.behind := rfl

theorem suspectNow_fetched (c : HostCmd) (s : State) : suspectNow (fetched c s) = suspectNow s := rfl

theorem writesHeld_fetched (c : HostCmd) (s : State) (n : Nat) : writesHeld (fetched c s) n = writesHeld s n := by
  rw [writesHeld, writesHeld, nsOf_fetched]
  rfl

theorem swapWait_fetched (c : HostCmd) (s : State) : (fetched c s).pair.swapWait = s.pair.swapWait := rfl

theorem logReplayed_fetched (c : HostCmd) (s : State) : logReplayed (fetched c s) = logReplayed s := rfl

theorem glb_fetched (c : HostCmd) (s : State) : (fetched c s).glb = s.glb := rfl

theorem mustWait_fetched (c : HostCmd) (w : Waiter) (s : State) : mustWait (fetched c s) w = mustWait s w := by
  simp only [mustWait, cmds_fetched, behind_fetched, suspectNow_fetched, writesHeld_fetched, swapWait_fetched, logReplayed_fetched,
    glb_fetched]

theorem relayWaits_fetched (c : HostCmd) (w : Waiter) (s : State) : relayWaits (fetched c s) w = relayWaits s w := by
  rw [relayWaits, relayWaits, cmds_fetched, behind_fetched]

theorem relayTarget_fetched (c : HostCmd) (a : Nat) (s : State) : relayTarget (fetched c s) a = relayTarget s a := rfl

theorem admitIo_fails {w : Waiter} {s : State} {st : Word16} (h : nsCheck s w = .fails st) : admitIo w s = answerCmd w st 0 s := by
  simp only [admitIo, h]

theorem admitIo_waits {w : Waiter} {s : State} {n : Ns} (h : nsCheck s w = .ok n) (hwait : mustWait s w = true) :
    admitIo w s = heldBehind w s := by
  simp only [admitIo, h, hwait, if_true]
  rfl

/-! ### An I/O command goes to the peer (R95) -/

/-- The command that stands for a relayed entry. -/
def relayedCmd (w : Waiter) (s : State) : Cmd :=
  { newCmd w (.relayed peerDst) s with
    gathered := if w.c.op = 0x88 then [(0, padTo (8 * w.c.d38) w.c.buf)] else (newCmd w (.relayed peerDst) s).gathered }

theorem startRelay_peer {w : Waiter} {s : State} (ho : w.c.ordered = false) (hh : w.origin = .host) :
    startRelay w peerDst s =
      if w.c.op = 0x81 then
        forEach w.c.bufs (fun b u => emit (.hostRead w.c.q.f.port (BitVec.ofNat 64 b.1) b.2) u) (withCmd (relayedCmd w s) s)
      else sendRelay (relayedCmd w s) peerDst (withCmd (relayedCmd w s) s) := by
  rw [← addCmd_unordered (d := relayedCmd w s) ho]
  simp only [startRelay, hh, if_true, beq_self_eq_true, Bool.and_true, decide_eq_true_eq]
  rfl

/-- A command that brings no data is sent to the peer at once. -/
theorem sendRelay_peer {w : Waiter} {s t : State} (hh : w.origin = .host) (hop : w.c.op ≠ 0x88) (hlink : t.peer.linkUp = true) :
    sendRelay (relayedCmd w s) peerDst t = emit (.peerMsg 0x14 t.peer.epoch (0 :: relayArgs (relayedCmd w s)) []) t := by
  have hdata : gatheredBytes (relayedCmd w s).gathered = [] := by
    rw [relayedCmd, if_neg hop]
    simp [newCmd, hh, gatheredBytes, sortBy]
  rw [sendRelay, hdata, if_pos rfl, toPeer_linkUp hlink]
  rfl

/-- What a relayed command leaves: it is outstanding, its data is asked for, or it is told to the peer. -/
theorem startRelay_relays {w : Waiter} {s : State} (ho : w.c.ordered = false) (hh : w.origin = .host) (hop : w.c.op ≠ 0x88)
    (hlink : s.peer.linkUp = true) :
    Told (withCmd (relayedCmd w s) s) (startRelay w peerDst s)
      ∧ (w.c.op = 0x81 → ∀ b ∈ w.c.bufs, Output.hostRead w.c.q.f.port (BitVec.ofNat 64 b.1) b.2 ∈ (startRelay w peerDst s).out)
      ∧ (w.c.op ≠ 0x81 → ∃ a, Output.peerMsg 0x14 s.peer.epoch a [] ∈ (startRelay w peerDst s).out) := by
  rw [startRelay_peer ho hh]
  by_cases hwrite : w.c.op = 0x81
  · rw [if_pos hwrite]
    obtain ⟨htold, hmem⟩ := told_forEach_emit (fun b : Nat × Nat => Output.hostRead w.c.q.f.port (BitVec.ofNat 64 b.1) b.2) w.c.bufs
      (withCmd (relayedCmd w s) s)
    exact ⟨htold, fun _ => hmem, fun h => absurd hwrite h⟩
  · rw [if_neg hwrite, sendRelay_peer hh hop (t := withCmd (relayedCmd w s) s) hlink]
    exact ⟨told_emit _ _, fun h => absurd h hwrite, fun _ => ⟨_, List.mem_append_right _ (List.mem_singleton_self _)⟩⟩

theorem completes_relayed {s : State} {c : HostCmd} {q : Qp} {i : Instr} (hi : i = .read c ∨ i = .write c ∨ i = .deallocate c)
    (hw : i.wf = true) (h : Fetched s c q) (hr : c.remote = false) (hswap : s.pair.swapWait = false) (hp : s.peer.role = .service)
    (hlink : s.peer.linkUp = true) (hwait : relayWaits s ⟨c, q.tenant, .host⟩ = false) :
    Completes i s fun t =>
      (∃ d ∈ t.hqe.cmds, d.id = s.hqe.nextCmd ∧ d.cid = c.cid ∧ d.stage = .relayed peerDst)
      ∧ (i = .write c → ∀ b ∈ c.bufs, Output.hostRead c.q.f.port (BitVec.ofNat 64 b.1) b.2 ∈ t.out)
      ∧ (i ≠ .write c → ∃ a, Output.peerMsg 0x14 s.peer.epoch a [] ∈ t.out) ∧ Frame [.hqe] s t := by
  have hop : c.op ≠ 0x88 ∧ (i = .write c → c.op = 0x81) ∧ (i ≠ .write c → c.op ≠ 0x81) := by
    rcases hi with rfl | rfl | rfl
    · have hop : c.op = 0x80 := h.op hw
      exact ⟨by omega, nofun, fun _ => by omega⟩
    · have hop : c.op = 0x81 := h.op hw
      exact ⟨by omega, fun _ => hop, fun hx => absurd rfl hx⟩
    · have hop : c.op = 0x82 := h.op hw
      exact ⟨by omega, nofun, fun _ => by omega⟩
  obtain ⟨hquery, hwrite, hother⟩ := hop
  have hroute : routeIo ⟨c, q.tenant, .host⟩ (fetched c s) = startRelay ⟨c, q.tenant, .host⟩ peerDst (fetched c s) :=
    (routeIo_relays (s := fetched c s) hr hswap hp hlink rfl).trans
      (relayOrWait_starts ((relayWaits_fetched c _ s).trans hwait) peerDst)
  obtain ⟨htold, hreads, hsent⟩ := startRelay_relays (w := ⟨c, q.tenant, .host⟩) (s := fetched c s) h.unordered rfl hquery hlink
  refine completes_of_run (exec_io hi s) hw ?_
  rw [h.row, hroute]
  refine ⟨⟨relayedCmd ⟨c, q.tenant, .host⟩ (fetched c s), ?_, rfl, rfl, rfl⟩, fun hx => hreads (hwrite hx), fun hx => hsent (hother hx), ?_⟩
  · rw [htold.hqe]
    exact mem_cmds_withCmd _ _
  · exact (fetched_frame c s).trans ((withCmd_frame _ _).trans (htold.frame _))

/-! ### STATE QUERY is answered (R106, R108) -/

theorem releaseTags_frame (tn : Option Nat) (tags : List Word64) (s : State) : Frame [.hqe] s (releaseTags tn tags s) := by
  cases tn with
  | none => exact Frame.refl _ s
  | some n => exact frame_hqe s _

theorem releaseTags_hqe (tn : Option Nat) (tags : List Word64) (s : State) :
    (releaseTags tn tags s).hqe = { s.hqe with settle := (releaseTags tn tags s).hqe.settle } := by
  cases tn <;> rfl

/-- An entry whose tag was released is not pinned. -/
theorem settleFind_releaseTags {tn : Nat} {g : Word64} {tags : List Word64} (hg : g ∈ tags) {s : State} {e : Settle}
    (h : settleFind (releaseTags (some tn) tags s) tn g = some e) : e.pinned = false := by
  have htag := List.find?_some h
  refine forall_mem_modAll (P := fun e : Settle => isTag tn g e = true → e.pinned = false) (fun x _ => ?_) e
    (List.mem_of_find?_eq_some h) htag
  split
  · exact fun _ => rfl
  · next hno => exact fun hx => absurd (List.any_eq_true.2 ⟨g, hg, hx⟩) hno

/-- The state in which the results of a query were written, and the entries that were read unpinned where it said so. -/
def querySent (d : Cmd) (tags : List Word64) (tn : Option Nat) (rel : Bool) (addr : Nat) (s : State) : State :=
  let t := emit (.hostWrite d.q.f.port (BitVec.ofNat 64 addr) (tags.flatMap (queryEntry s tn))) s
  if rel then releaseTags tn tags t else t

section
variable {s : State} {d : Cmd} {tags : List Word64} {tn : Option Nat} {rel : Bool} {addr : Nat}

theorem querySent_hqe : (querySent d tags tn rel addr s).hqe
    = { s.hqe with settle := (querySent d tags tn rel addr s).hqe.settle } := by
  unfold querySent
  cases rel
  · rfl
  · exact releaseTags_hqe tn tags _

theorem querySent_frame : Frame [.hqe] s (querySent d tags tn rel addr s) := by
  unfold querySent
  cases rel
  · exact frame_emit _ _ _
  · exact (frame_emit _ _ _).trans (releaseTags_frame tn tags _)

theorem querySent_out : Output.hostWrite d.q.f.port (BitVec.ofNat 64 addr) (tags.flatMap (queryEntry s tn))
    ∈ (querySent d tags tn rel addr s).out := by
  unfold querySent
  cases rel
  · exact List.mem_append_right _ (List.mem_singleton_self _)
  · cases tn <;> exact List.mem_append_right _ (List.mem_singleton_self _)

theorem querySent_pinned {n : Nat} {g : Word64} (hg : g ∈ tags) {e : Settle}
    (h : settleFind (querySent d tags (some n) true addr s) n g = some e) : e.pinned = false := settleFind_releaseTags hg h

theorem Outstanding.querySent {id : Nat} {q : Qp} (h : Outstanding s id d q) :
    Outstanding (querySent d tags tn rel addr s) id d q :=
  h.congr (by rw [querySent_hqe]) (by rw [querySent_hqe]) querySent_frame.hep

theorem answerQuery_answers {id : Nat} {q : Qp} (h : Outstanding s id d q) (hst : d.stage = .query tags tn rel addr) :
    answerQuery id s = finishCmd id 0 0 tags.length (querySent d tags tn rel addr s) := by
  obtain ⟨hc, ho, -, -, hport, -⟩ := h
  simp only [answerQuery, hc, hst, ho, toHost, hport, beq_self_eq_true, Bool.false_eq_true, if_true, if_false]
  rfl

end

theorem completes_stateQueryWaitEnd {s : State} {id : Nat} {timedOut : Bool} {d : Cmd} {q : Qp} {tags : List Word64} {tn : Option Nat}
    {rel : Bool} {addr : Nat} (h : Outstanding s id d q) (hst : d.stage = .query tags tn rel addr)
    (hend : timedOut = true ∨ queryPending s tn tags = false) :
    Completes (.stateQueryWaitEnd id timedOut) s fun t =>
      Output.hostWrite d.q.f.port (BitVec.ofNat 64 addr) (tags.flatMap (queryEntry s tn)) ∈ t.out
      ∧ Ended d q 0 false 0 tags.length t ∧ Frame [.hqe, .hep] s t := by
  have hsent : Outstanding (querySent d tags tn rel addr s.quiet) id d q := h.quiet.querySent
  have hdone : (timedOut || !queryPending s.quiet tn tags) = true := by
    rcases hend with rfl | hp
    · rfl
    · rw [show queryPending s.quiet tn tags = false from hp, Bool.not_false, Bool.or_true]
  refine completes_of_run (f := stateQueryWaitEndEffect id timedOut) rfl rfl ?_
  have heff : stateQueryWaitEndEffect id timedOut s.quiet = answerQuery id s.quiet := by
    simp only [stateQueryWaitEndEffect, h.quiet.1, hst, hdone, if_true]
  rw [heff, answerQuery_answers h.quiet hst]
  refine ⟨(finishCmd_posted hsent 0 0 _).out querySent_out, finishCmd_ended_whole hsent 0 _, ?_⟩
  exact ((querySent_frame.of_quiet).widen (by decide)).trans (finishCmd_frame hsent 0 0 _)

/-! ### STATE QUERY on its queue (R91, R108) -/

/-- The command of a fetched STATE QUERY. -/
def queryCmd (c : HostCmd) (q : Qp) (s : State) : Cmd :=
  { newCmd ⟨c, queryTenant c q, .host⟩ (.query (queryTags c) (queryTenant c q) (bitOf c.d3C 31) c.q30) s with
    bufs := [], nblk := 0, good := 0 }

/-- The state in which a STATE QUERY is outstanding. -/
def queried (c : HostCmd) (q : Qp) (s : State) : State := withCmd (queryCmd c q s) s

theorem routeQuery_admits {s : State} {c : HostCmd} {q : Qp} (hop : c.op = 0x88) (ho : c.ordered = false) (hr : c.remote = false)
    (htn : q.admin = true → isPf c.q.f = true → (tenantOf s (c.d3C % 4096)).isSome = true)
    (hlog : s.glb.service = .recovery → logReplayed s = true) :
    routeQuery q c s = if bitOf c.d3C 30 && queryPending s (queryTenant c q) (queryTags c) then
      queried c q s
    else answerQuery s.hqe.nextCmd (queried c q s) := by
  have hknown : ¬(q.admin && isPf c.q.f && (tenantOf s (c.d3C % 4096)).isNone) = true := by
    simp only [Bool.and_eq_true, Option.isNone_iff_eq_none]
    rintro ⟨⟨ha, hpf⟩, hnone⟩
    have hsome := htn ha hpf
    rw [hnone] at hsome
    cases hsome
  have hready : mustWait s ⟨c, queryTenant c q, .host⟩ = false := by
    have hlog' : (s.glb.service == .recovery && !logReplayed s) = false := by
      by_cases hv : s.glb.service = .recovery
      · rw [hlog hv, Bool.not_true, Bool.and_false]
      · rw [beq_false_of_ne hv, Bool.false_and]
    simpa [mustWait, hop] using hlog'
  rw [queried, ← addCmd_unordered (d := queryCmd c q s) ho]
  simp only [routeQuery, hr, if_neg hknown, admitQuery, hready, Bool.false_eq_true, if_false]
  rfl

theorem cmdOf_withCmd {s : State} {d : Cmd} (h : cmdOf s d.id = none) : cmdOf (withCmd d s) d.id = some d :=
  find?_append_new h (by simp)

/-- The end of a command leaves the settlement log as it was. -/
theorem finishCmd_settle {s : State} {id : Nat} {d : Cmd} {q : Qp} (h : Outstanding s id d q) (st : Word16) (k r : Nat) :
    (finishCmd id st k r s).hqe.settle = s.hqe.settle := by
  rw [(finishCmd_posted h st k r).hqe]
  rfl

/-- A command just added is outstanding, and its end answers the entry that brought it. -/
theorem Fetched.outstanding {s : State} {c : HostCmd} {q : Qp} (h : Fetched s c q) {d : Cmd} (hid : cmdOf s d.id = none)
    (hq : d.q = c.q) (ho : d.origin = .host) (hs : d.silent = false) : Outstanding (withCmd d (fetched c s)) d.id d (advanced q) := by
  obtain ⟨hqp, hport, hfull, hwait⟩ := h.answerable
  exact ⟨cmdOf_withCmd (s := fetched c s) hid, ho, hs, hq ▸ hqp, hq ▸ hport, hfull, hwait⟩

theorem finishCmd_answered {s : State} {id : Nat} {d : Cmd} {c : HostCmd} {q : Qp} (h : Outstanding s id d (advanced q)) (hq : d.q = c.q)
    (hcid : d.cid = c.cid) (r : Nat) : Answered c q 0 r (finishCmd id 0 0 r s) := by
  have hended := finishCmd_ended_whole h 0 r
  have hposted := finishCmd_posted h 0 0 r
  obtain ⟨-, -, -, hqp, -⟩ := h
  rw [Ended, hq, hcid] at hended
  refine ⟨hended.1, ?_⟩
  have hfetch : ∀ x, (unordered id x).fetch = x.fetch := fun x => by
    obtain ⟨o, hx⟩ := unordered_eq id x
    rw [hx]
  rw [← hq, hposted.qpOf_map (fun _ _ _ _ _ => rfl), qpOf_modQp_map (unordered_key id) hfetch,
    show qpOf (dropCmd id s) d.q = some (advanced q) from hqp]
  rfl

theorem length_queryTags (c : HostCmd) : (queryTags c).length = c.d38 := by
  rw [queryTags, List.length_map, List.length_range]

section
variable {s : State} {c : HostCmd} {q : Qp} (h : Fetched s c q) (hw : (Instr.stateQuery c).wf = true) (hr : c.remote = false)
  (htn : q.admin = true → isPf c.q.f = true → (tenantOf s (c.d3C % 4096)).isSome = true)
  (hlog : s.glb.service = .recovery → logReplayed s = true) (hnew : cmdOf s s.hqe.nextCmd = none)
include h hw hr htn hlog hnew

theorem completes_stateQuery (hready : bitOf c.d3C 30 = false ∨ queryPending s (queryTenant c q) (queryTags c) = false) :
    Completes (.stateQuery c) s fun t =>
      Output.hostWrite c.q.f.port (BitVec.ofNat 64 c.q30) ((queryTags c).flatMap (queryEntry s (queryTenant c q))) ∈ t.out
      ∧ Answered c q 0 c.d38 t
      ∧ (∀ tn g e, bitOf c.d3C 31 = true → queryTenant c q = some tn → g ∈ queryTags c → settleFind t tn g = some e →
          e.pinned = false)
      ∧ (bitOf c.d3C 31 = false → t.hqe.settle = s.hqe.settle) ∧ Frame [.hqe, .hep] s t := by
  have hout : Outstanding (queried c q (fetched c s)) s.hqe.nextCmd (queryCmd c q (fetched c s)) (advanced q) :=
    h.outstanding (d := queryCmd c q (fetched c s)) hnew rfl rfl rfl
  have hsent : Outstanding (querySent (queryCmd c q (fetched c s)) (queryTags c) (queryTenant c q) (bitOf c.d3C 31) c.q30
      (queried c q (fetched c s))) s.hqe.nextCmd (queryCmd c q (fetched c s)) (advanced q) := hout.querySent
  have hgo : ¬(bitOf c.d3C 30 && queryPending s (queryTenant c q) (queryTags c)) = true := by
    rcases hready with hb | hb <;> simp [hb]
  have hsettle := finishCmd_settle hsent 0 0 (queryTags c).length
  refine completes_of_run (f := fetchRow c fun q t => routeQuery q c t) rfl hw ?_
  have hroute : routeQuery q c (fetched c s) = answerQuery s.hqe.nextCmd (queried c q (fetched c s)) :=
    (routeQuery_admits (s := fetched c s) (h.op hw) h.unordered hr htn hlog).trans (if_neg hgo)
  rw [h.row, hroute, answerQuery_answers hout rfl]
  refine ⟨(finishCmd_posted hsent 0 0 _).out querySent_out, ?_, ?_, ?_, ?_⟩
  · rw [length_queryTags]
    exact finishCmd_answered hsent rfl rfl _
  · intro tn g e hrel htag hg he
    rw [settleFind, hsettle, hrel, htag] at he
    exact querySent_pinned hg he
  · intro hrel
    rw [hsettle, hrel]
    rfl
  · exact ((fetched_frame c s).widen (by decide)).trans (((withCmd_frame _ _).widen (by decide)).trans
      ((querySent_frame.widen (by decide)).trans (finishCmd_frame hsent 0 0 _)))

theorem completes_stateQuery_waits (hwait : bitOf c.d3C 30 = true)
    (hpending : queryPending s (queryTenant c q) (queryTags c) = true) :
    Completes (.stateQuery c) s fun t =>
      (∃ d, cmdOf t s.hqe.nextCmd = some d
        ∧ d.stage = .query (queryTags c) (queryTenant c q) (bitOf c.d3C 31) c.q30 ∧ d.cid = c.cid)
      ∧ t.out = [] ∧ Frame [.hqe] s t := by
  have hstay : (bitOf c.d3C 30 && queryPending s (queryTenant c q) (queryTags c)) = true := by rw [hwait, hpending]; rfl
  refine completes_of_run (f := fetchRow c fun q t => routeQuery q c t) rfl hw ?_
  have hroute : routeQuery q c (fetched c s) = queried c q (fetched c s) :=
    (routeQuery_admits (s := fetched c s) (h.op hw) h.unordered hr htn hlog).trans (if_pos hstay)
  rw [h.row, hroute]
  exact ⟨⟨_, cmdOf_withCmd (s := fetched c s) (d := queryCmd c q (fetched c s)) hnew, rfl, rfl⟩, rfl,
    (fetched_frame c s).trans (withCmd_frame _ _)⟩

end

/-! ### The obligation -/

/-- Settles O17: the route of an I/O command branch by branch, then STATE QUERY at its fetch and at the end of its wait. -/
theorem ioRoutingAndQueries : Obligations.IoRoutingAndQueries := by
  unfold Obligations.IoRoutingAndQueries
  refine ⟨fun s c q i hi hw h => ⟨?_, ?_, ?_, ?_, ?_, ?_⟩, fun s c q h hw hr htn hlog hnew => ⟨?_, ?_⟩, ?_⟩
  · exact fun hr ht => completes_refused h (exec_io hi s) hw (routeIo_unreached hr ((relayTarget_fetched c _ s).trans ht))
  · exact fun st hr hswap hp hns => completes_refused h (exec_io hi s) hw
      ((routeIo_admits (s := fetched c s) hr hswap hp).trans (admitIo_fails ((nsCheck_fetched c _ s).trans hns)))
  · exact fun n hr hswap hp hns hwait => completes_behind h (exec_io hi s) hw ((routeIo_admits (s := fetched c s) hr hswap hp).trans
      (admitIo_waits ((nsCheck_fetched c _ s).trans hns) ((mustWait_fetched c _ s).trans hwait)))
  · exact fun hr hswap hp hlink => completes_refused h (exec_io hi s) hw (routeIo_unlinked (s := fetched c s) hr hswap hp hlink)
  · exact fun hr hswap hp hlink hwait => completes_behind h (exec_io hi s) hw
      ((routeIo_relays (s := fetched c s) hr hswap hp hlink rfl).trans (relayOrWait_waits ((relayWaits_fetched c _ s).trans hwait) peerDst))
  · exact fun hr hswap hp hlink hwait => completes_relayed hi hw h hr hswap hp hlink hwait
  · exact completes_stateQuery h hw hr htn hlog hnew
  · exact completes_stateQuery_waits h hw hr htn hlog hnew
  · exact fun s id timedOut d q tags tn rel addr hout hst hend => completes_stateQueryWaitEnd hout hst hend

end Sys2Proof.Machine
end

section
/-! SUPPORT. How a chunk of a flush run is resolved (O24): what the caches, the reference counts and the windows change, then the
fingerprint, the searches, the pull of a container, the close of a namespace's containers, and the comparison of a match. -/

namespace Sys2Proof.Machine

/-! ### Changes that drive nothing outward -/

/-- From `s` to `t` only some parts change, and nothing is driven outward. -/
def Silently (l : List Part) (s t : State) : Prop := Frame l s t ∧ t.out = s.out

theorem Silently.trans {l : List Part} {s t u : State} (h : Silently l s t) (h' : Silently l t u) : Silently l s u :=
  ⟨h.1.trans h'.1, h'.2.trans h.2⟩

theorem Silently.widen {l m : List Part} {s t : State} (h : Silently l s t) (hs : l ⊆ m) : Silently m s t :=
  ⟨h.1.widen hs, h.2⟩

/-- A command begins with nothing driven outward, so a silent effect ends with nothing. -/
theorem Silently.completed {l : List Part} {s t : State} (h : Silently l s.quiet t) : t.out = [] ∧ Frame l s t :=
  ⟨h.2, h.1.of_quiet⟩

theorem silently_ing (s : State) (x : Ing) : Silently [.ing] s { s with ing := x } := ⟨frame_ing s x, rfl⟩

theorem silently_med (s : State) (x : Med) : Silently [.med] s { s with med := x } :=
  ⟨frame_iff.2 (by simp), rfl⟩

theorem silently_bal (s : State) (x : Bal) : Silently [.bal] s { s with bal := x } :=
  ⟨frame_iff.2 (by simp), rfl⟩

/-! ### One chunk of a run, and one entry of the chunk table -/

theorem chunkById_id {s : State} {id : Nat} {c : Chunk} (h : chunkById s id = some c) : c.id = id := by
  simpa using List.find?_some h

theorem chunkById_modChunk {s : State} {id : Nat} {c : Chunk} {f : Chunk → Chunk} (h : chunkById s id = some c)
    (hf : ∀ x, (f x).id = x.id) : chunkById (modChunk id f s) id = some (f c) :=
  (find?_modFirst (fun x => by rw [hf x]) s.ing.chunks).trans (congrArg (Option.map f) h)

theorem modChunk_silently (id : Nat) (f : Chunk → Chunk) (s : State) : Silently [.ing] s (modChunk id f s) := silently_ing s _

theorem length_modFirst {α : Type} (p : α → Bool) (f : α → α) (l : List α) : (modFirst p f l).length = l.length := by
  induction l with
  | nil => rfl
  | cons x l ih => cases hx : p x <;> simp [modFirst, hx, ih]

/-- The state with another chunk table. -/
def withChunks (l : List ChunkEnt) (s : State) : State := { s with med := { s.med with chunks := l } }

/-- From `s` to `t` only the page cache may change (R205). -/
def PagesTouched (s t : State) : Prop :=
  ∃ a b c, t = { s with med := { s.med with cached := a, dirty := b, writeBack := c } }

theorem touchPage_touches (p : Nat × Nat) (s : State) : PagesTouched s (touchPage p s) := by
  unfold touchPage
  split
  · exact ⟨_, _, _, rfl⟩
  · split
    · exact ⟨_, _, _, rfl⟩
    · split <;> exact ⟨_, _, _, rfl⟩

theorem dirtyChunk_touches (no : Nat) (s : State) : PagesTouched s (dirtyChunk no s) := by
  unfold dirtyChunk
  split
  · exact ⟨_, _, _, rfl⟩
  · obtain ⟨a, b, c, h⟩ := touchPage_touches (ctPage no) s
    rw [h]
    exact ⟨_, _, _, rfl⟩

theorem PagesTouched.silently {s t : State} (h : PagesTouched s t) : Silently [.med] s t := by
  obtain ⟨a, b, c, rfl⟩ := h
  exact silently_med s _

theorem PagesTouched.ing {s t : State} (h : PagesTouched s t) : t.ing = s.ing := h.silently.1.ing

theorem PagesTouched.chunks {s t : State} (h : PagesTouched s t) : t.med.chunks = s.med.chunks := by
  obtain ⟨a, b, c, rfl⟩ := h
  rfl

theorem PagesTouched.chunkNext {s t : State} (h : PagesTouched s t) : t.med.chunkNext = s.med.chunkNext := by
  obtain ⟨a, b, c, rfl⟩ := h
  rfl

/-! ### Reference counts of this head's own chunks (R139) -/

/-- An entry of the chunk table with `k` references more. -/
def moreRefs (k : Nat) (e : ChunkEnt) : ChunkEnt := { e with refs := e.refs + k }

theorem raiseRef_own {s : State} {no : Nat} {e : ChunkEnt} (hf : foreignChunk s no = false) (he : chunkOf s no = some e) (k : Nat) :
    chunkOf (raiseRef no k s) no = some (moreRefs k e) ∧ Silently [.med] s (raiseRef no k s) := by
  have hany : (s.med.chunks.any fun x => x.no == no) = true :=
    List.any_eq_true.2 ⟨e, List.mem_of_find?_eq_some he, List.find?_some (p := fun x : ChunkEnt => x.no == no) he⟩
  have heq : raiseRef no k s = dirtyChunk no (withChunks (modFirst (fun x => x.no == no) (moreRefs k) s.med.chunks) s) := by
    rw [raiseRef, hf, if_neg Bool.false_ne_true, modEnt, if_pos hany]
    rfl
  have hpages := dirtyChunk_touches no (withChunks (modFirst (fun x => x.no == no) (moreRefs k) s.med.chunks) s)
  rw [heq]
  refine ⟨?_, (silently_med s _).trans hpages.silently⟩
  rw [chunkOf, hpages.chunks]
  exact (find?_modFirst (f := moreRefs k) (fun _ => rfl) s.med.chunks).trans (congrArg (Option.map _) he)

/-- From `s` to `t` counts of chunks fall, and entries of containers may be marked dead; no entry of the chunk table
comes or goes. -/
def RefsDropped (s t : State) : Prop :=
  ∃ m cs, t = { s with med := m, ing := { s.ing with containers := cs } } ∧ m.chunks.length = s.med.chunks.length
    ∧ m.chunkNext = s.med.chunkNext

theorem RefsDropped.refl (s : State) : RefsDropped s s := ⟨_, _, rfl, rfl, rfl⟩

theorem RefsDropped.trans {s t u : State} (h : RefsDropped s t) (h' : RefsDropped t u) : RefsDropped s u := by
  obtain ⟨m, cs, rfl, hlen, hnext⟩ := h
  obtain ⟨m', cs', rfl, hlen', hnext'⟩ := h'
  exact ⟨m', cs', rfl, hlen'.trans hlen, hnext'.trans hnext⟩

theorem dropRef_drops {s : State} {no : Nat} (hf : foreignChunk s no = false) : RefsDropped s (dropRef no s) := by
  unfold dropRef
  split
  · exact RefsDropped.refl s
  · rw [hf, if_neg Bool.false_ne_true]
    dsimp only
    obtain ⟨a, b, c, h⟩ := dirtyChunk_touches no _
    rw [h]
    exact ⟨_, _, rfl, length_modFirst _ _ _, rfl⟩

theorem dropRefs_drops {s : State} {no : Nat} (hf : foreignChunk s no = false) (k : Nat) : RefsDropped s (dropRefs no k s) := by
  induction k generalizing s with
  | zero => exact RefsDropped.refl s
  | succ k ih =>
    have hdrop := dropRef_drops hf
    refine hdrop.trans (ih ?_)
    obtain ⟨m, cs, h, -⟩ := hdrop
    rw [h]
    exact hf

theorem RefsDropped.silently {s t : State} (h : RefsDropped s t) : Silently [.ing, .med] s t := by
  obtain ⟨m, cs, rfl, -⟩ := h
  exact ⟨frame_iff.2 (by simp), rfl⟩

/-! ### Containers and hooks (R130, R135, R137) -/

/-- From `s` to `t` only the containers and the hook table may change, and the recorder. -/
def Shelved (s t : State) : Prop :=
  ∃ cs hs hh n k e, t = { s with
    ing := { s.ing with containers := cs, hooks := hs, hookHour := hh, contNext := n, clock := k }, evr := e }

theorem Shelved.refl (s : State) : Shelved s s := ⟨_, _, _, _, _, _, rfl⟩

theorem Shelved.trans {s t u : State} (h : Shelved s t) (h' : Shelved t u) : Shelved s u := by
  obtain ⟨cs, hs, hh, n, k, e, rfl⟩ := h
  obtain ⟨cs', hs', hh', n', k', e', rfl⟩ := h'
  exact ⟨cs', hs', hh', n', k', e', rfl⟩

theorem Shelved.silently {s t : State} (h : Shelved s t) : Silently [.ing, .evr] s t := by
  obtain ⟨cs, hs, hh, n, k, e, rfl⟩ := h
  exact ⟨frame_iff.2 (by simp), rfl⟩

theorem modContainer_shelved (no : Nat) (f : Container → Container) (s : State) : Shelved s (modContainer no f s) :=
  ⟨_, _, _, _, _, _, rfl⟩

theorem cacheRoom_shelved {d : Nat} {force : Bool} {s t : State} (h : cacheRoom d force s = some t) : Shelved s t := by
  unfold cacheRoom at h
  (repeat' split at h) <;> cases h
  · exact Shelved.refl s
  · exact modContainer_shelved _ _ s
  · exact modContainer_shelved _ _ s
  · exact Shelved.refl s

theorem openContainer_shelved (nsid : Nat) (s : State) : Shelved s (openContainer nsid s).2 := by
  unfold openContainer
  split
  · exact Shelved.refl s
  · have hroom : Shelved s ((cacheRoom (nsDomain s nsid) true s).getD s) := by
      cases h : cacheRoom (nsDomain s nsid) true s with
      | none => exact Shelved.refl s
      | some t => exact cacheRoom_shelved h
    exact hroom.trans ⟨_, _, _, _, _, _, rfl⟩

theorem replaceHook_shelved (h : Hook) (s : State) : Shelved s (replaceHook h s) := by
  unfold replaceHook
  dsimp only
  split_ifs
  · obtain ⟨e, he⟩ := raise_evr .ing .notice 137 0 [] _
    rw [he]
    exact ⟨_, _, _, _, _, _, rfl⟩
  · exact ⟨_, _, _, _, _, _, rfl⟩

theorem insertHook_shelved (fp : Bytes) (d container : Nat) (s : State) : Shelved s (insertHook fp d container s) := by
  unfold insertHook
  dsimp only
  split
  · exact ⟨_, _, _, _, _, _, rfl⟩
  · exact replaceHook_shelved _ s

theorem appendEntry_shelved (c : Chunk) (no : Nat) (s : State) : Shelved s (appendEntry c no s) := by
  have happend := (openContainer_shelved c.nsid s).trans (modContainer_shelved (openContainer c.nsid s).1
    (fun k => { k with entries := k.entries ++ [⟨c.fp, no, nsKeyInfo s c.nsid, false⟩] }) (openContainer c.nsid s).2)
  have hhook := happend.trans (insertHook_shelved c.fp (nsDomain s c.nsid) (openContainer c.nsid s).1 _)
  unfold appendEntry
  dsimp only
  cases isHook c.fp
  · simp only [Bool.false_eq_true, if_false]
    split
    · exact happend.trans (modContainer_shelved _ _ _)
    · exact happend
  · simp only [if_true]
    split
    · exact hhook.trans (modContainer_shelved _ _ _)
    · exact hhook

/-! ### Windows (R132) -/

/-- The close of windows puts chunks that were fingerprinted to their search, and changes no other chunk. -/
theorem windowCheck_eq (s : State) : ∃ (ws : List Window) (l : List Nat), windowCheck s = { s with ing := { s.ing with
    windows := ws
    chunks := modAll (fun c => c.stage == .fingerprinted && decide (c.window ∈ l)) (fun c => { c with stage := .searching })
      s.ing.chunks } } := ⟨_, _, rfl⟩

theorem windowCheck_silently (s : State) : Silently [.ing] s (windowCheck s) := silently_ing s _

@[simp] theorem windowCheck_med (s : State) : (windowCheck s).med = s.med := (rfl)
@[simp] theorem windowCheck_containers (s : State) : (windowCheck s).ing.containers = s.ing.containers := (rfl)
@[simp] theorem windowCheck_pulls (s : State) : (windowCheck s).ing.pulls = s.ing.pulls := (rfl)
@[simp] theorem windowCheck_unique (s : State) : (windowCheck s).ing.unique = s.ing.unique := (rfl)

theorem chunkById_windowCheck_stage {s : State} {id : Nat} {c : Chunk} (h : chunkById s id = some c) :
    ∃ st, chunkById (windowCheck s) id = some { c with stage := st } ∧ (c.stage ≠ .fingerprinted → st = c.stage) := by
  obtain ⟨ws, l, heq⟩ := windowCheck_eq s
  have hid : ((fun x : Chunk => x.id == id) ∘ fun x => if (x.stage == .fingerprinted && decide (x.window ∈ l)) = true then
      { x with stage := .searching } else x) = fun x => x.id == id := by
    funext x
    simp only [Function.comp]
    split <;> rfl
  have hfound := congrArg (Option.map fun x : Chunk => if (x.stage == .fingerprinted && decide (x.window ∈ l)) = true then
      { x with stage := .searching } else x) (show s.ing.chunks.find? (fun x => x.id == id) = some c from h)
  rw [heq, chunkById]
  dsimp only
  rw [modAll, List.find?_map, hid, hfound]
  by_cases hc : (c.stage == .fingerprinted && decide (c.window ∈ l)) = true
  · exact ⟨.searching, by rw [Option.map_some, if_pos hc], fun hne => absurd (by simp_all) hne⟩
  · exact ⟨c.stage, by rw [Option.map_some, if_neg hc], fun _ => rfl⟩

theorem chunkById_windowCheck {s : State} {id : Nat} {c : Chunk} (h : chunkById s id = some c) (hst : c.stage ≠ .fingerprinted) :
    chunkById (windowCheck s) id = some c := by
  obtain ⟨st, hfound, hkept⟩ := chunkById_windowCheck_stage h
  rw [hfound, hkept hst]

/-! ### A chunk that is unique, and one that matches -/

/-- The state with one more chunk of this head's own, whose number is the next one. -/
def withNewChunk (c : Chunk) (s : State) : State := { s with
  med := { s.med with chunks := s.med.chunks ++ [newEnt c s], chunkNext := s.med.chunkNext + 1 }
  ing := { s.ing with unique := (s.ing.unique + 1) % 2 ^ 64 } }

/-- The state in which a chunk is unique, before its fingerprint goes to a container (R136). -/
def madeUnique (id : Nat) (c : Chunk) (s : State) : State :=
  modChunk id (fun x => { x with stage := .unique, no := newChunkNo s }) (dirtyChunk (newChunkNo s) (withNewChunk c s))

theorem resolveUnique_eq {s : State} {id : Nat} {c : Chunk} (h : chunkById s id = some c) :
    resolveUnique id s = if bitOf (modeOf s c.nsid) 3 then madeUnique id c s
      else appendEntry c (newChunkNo s) (madeUnique id c s) := by
  simp only [resolveUnique, h]
  rfl

/-- What resolution as unique leaves of a chunk, and of the counters (R130, R136, R139). -/
structure Uniquely (id : Nat) (c : Chunk) (s t : State) : Prop where
  chunk : chunkById t id = some { c with stage := .unique, no := newChunkNo s }
  chunks : t.med.chunks = s.med.chunks ++ [newEnt c s]
  unique : t.ing.unique = (s.ing.unique + 1) % 2 ^ 64
  verifyMiss : t.ing.verifyMiss = s.ing.verifyMiss

theorem madeUnique_uniquely {s : State} {id : Nat} {c : Chunk} (h : chunkById s id = some c) :
    Uniquely id c s (madeUnique id c s) ∧ Silently [.ing, .med] s (madeUnique id c s) := by
  have hpages := dirtyChunk_touches (newChunkNo s) (withNewChunk c s)
  have hfound : chunkById (dirtyChunk (newChunkNo s) (withNewChunk c s)) id = some c := by
    rw [chunkById, hpages.ing]
    exact h
  have hnew : Silently [.ing, .med] s (withNewChunk c s) := ⟨frame_iff.2 (by simp [withNewChunk]), rfl⟩
  exact ⟨⟨chunkById_modChunk hfound fun _ => rfl, hpages.chunks, (congrArg Ing.unique hpages.ing :),
    (congrArg Ing.verifyMiss hpages.ing :)⟩,
    hnew.trans ((hpages.silently.widen (by decide)).trans ((modChunk_silently _ _ _).widen (by decide)))⟩

theorem Uniquely.shelved {id : Nat} {c : Chunk} {s t u : State} (h : Uniquely id c s t) (h' : Shelved t u) : Uniquely id c s u := by
  obtain ⟨cs, hs, hh, n, k, e, rfl⟩ := h'
  exact ⟨h.chunk, h.chunks, h.unique, h.verifyMiss⟩

theorem resolveUnique_uniquely {s : State} {id : Nat} {c : Chunk} (h : chunkById s id = some c) :
    Uniquely id c s (resolveUnique id s) ∧ Silently [.ing, .med, .evr] s (resolveUnique id s) := by
  obtain ⟨hunique, hsilent⟩ := madeUnique_uniquely h
  have happend := appendEntry_shelved c (newChunkNo s) (madeUnique id c s)
  rw [resolveUnique_eq h]
  split
  · exact ⟨hunique, hsilent.widen (by decide)⟩
  · exact ⟨hunique.shelved happend, (hsilent.widen (by decide)).trans (happend.silently.widen (by decide))⟩

theorem countMatch_chunks (c : Chunk) (s : State) : (countMatch c s).ing.chunks = s.ing.chunks := by
  unfold countMatch
  split <;> rfl

theorem countMatch_silently (c : Chunk) (s : State) : Silently [.ing] s (countMatch c s) := by
  unfold countMatch
  split <;> exact silently_ing s _

theorem chunkById_countMatch (c : Chunk) (s : State) (id : Nat) : chunkById (countMatch c s) id = chunkById s id := by
  rw [chunkById, countMatch_chunks, chunkById]

/-- A match without verify-on-match stands at once, and its count is raised (R139). -/
theorem resolveMatch_stands {s : State} {c : Chunk} {no : Nat} {e : ChunkEnt} (hc : chunkById s c.id = some c)
    (he : chunkOf s no = some e) (hv : bitOf (modeOf s c.nsid) 4 = false) (hf : foreignChunk s no = false) (k : Nat) :
    chunkById (resolveMatch c k no s) c.id = some { c with stage := .live, no := no, matched := true }
    ∧ chunkOf (resolveMatch c k no s) no = some (moreRefs (namingBlocks c) e)
    ∧ Silently [.ing, .med] s (resolveMatch c k no s) := by
  obtain ⟨href, hraised⟩ := raiseRef_own hf he (namingBlocks c)
  have hkept : chunkById (touchContainer k (raiseRef no (namingBlocks c) s)) c.id = some c := by
    show (raiseRef no (namingBlocks c) s).ing.chunks.find? _ = _
    rw [hraised.1.ing]
    exact hc
  have htouch : Silently [.ing] (raiseRef no (namingBlocks c) s) (touchContainer k (raiseRef no (namingBlocks c) s)) :=
    silently_ing _ _
  have hmark := modChunk_silently c.id (fun x => { x with stage := .live, no := no, matched := true })
    (touchContainer k (raiseRef no (namingBlocks c) s))
  have hcount := countMatch_silently c (modChunk c.id (fun x => { x with stage := .live, no := no, matched := true })
    (touchContainer k (raiseRef no (namingBlocks c) s)))
  simp only [resolveMatch, hv, Bool.false_eq_true, if_false]
  refine ⟨?_, ?_, (hraised.widen (by decide)).trans (((htouch.trans hmark).trans hcount).widen (by decide))⟩
  · rw [chunkById_countMatch]
    exact chunkById_modChunk hkept fun _ => rfl
  · rw [chunkOf, hcount.1.med]
    exact href

/-! ### FINGERPRINT_DONE (R126, R136) -/

/-- The fingerprint of a chunk under its domain's K_fp (R126). -/
def fingerprintOf (s : State) (c : Chunk) : Bytes := hmacSha256 (keyAt (slotOf s (nsDomain s c.nsid)).material 0) c.data

/-- A chunk with its fingerprint: a hook is searched at once, and another waits for its window (R132). -/
def fingerprinted (fp : Bytes) (c : Chunk) : Chunk :=
  { c with fp := fp, stage := if isHook fp then .searching else .fingerprinted }

/-- The state in which a chunk has its fingerprint. -/
def withFingerprint (id : Nat) (c : Chunk) (s : State) : State := modChunk id (fingerprinted (fingerprintOf s c)) s

theorem fingerprintDoneEffect_eq {s : State} {id : Nat} {c : Chunk} (hc : chunkById s id = some c) (hst : c.stage = .cut)
    (ht : anyTakes s .fingerprint = true) (hk : (slotOf s (nsDomain s c.nsid)).state = .active) :
    fingerprintDoneEffect id s = windowCheck (if bitOf (modeOf s c.nsid) 3 then resolveUnique id (withFingerprint id c s)
      else withFingerprint id c s) := by
  simp [fingerprintDoneEffect, hc, hst, ht, hk]
  rfl

theorem completes_fingerprintDone {s : State} {id : Nat} {c : Chunk} (hc : chunkById s id = some c) (hst : c.stage = .cut)
    (ht : anyTakes s .fingerprint = true) (hk : (slotOf s (nsDomain s c.nsid)).state = .active) :
    Completes (.fingerprintDone id) s fun t =>
      (∃ d, chunkById t id = some d ∧ d.fp = fingerprintOf s c ∧ d.data = c.data
        ∧ (bitOf (modeOf s c.nsid) 3 = true → d.stage = .unique ∧ d.no = newChunkNo s)
        ∧ (bitOf (modeOf s c.nsid) 3 = false → isHook d.fp = true → d.stage = .searching))
      ∧ t.out = [] ∧ Frame [.ing, .med] s t := by
  have hmarked : chunkById (withFingerprint id c s.quiet) id = some (fingerprinted (fingerprintOf s c) c) :=
    chunkById_modChunk hc fun _ => rfl
  have hmark : Silently [.ing] s.quiet (withFingerprint id c s.quiet) := modChunk_silently _ _ _
  refine completes_of_run (f := fingerprintDoneEffect id) rfl rfl ?_
  rw [fingerprintDoneEffect_eq (s := s.quiet) hc hst ht hk]
  by_cases hdedup : bitOf (modeOf s c.nsid) 3 = true
  · obtain ⟨hunique, hsilent⟩ := madeUnique_uniquely hmarked
    have hresolved : resolveUnique id (withFingerprint id c s.quiet)
        = madeUnique id (fingerprinted (fingerprintOf s c) c) (withFingerprint id c s.quiet) :=
      (resolveUnique_eq hmarked).trans (if_pos hdedup)
    rw [if_pos (show bitOf (modeOf s.quiet c.nsid) 3 = true from hdedup), hresolved]
    refine ⟨⟨_, chunkById_windowCheck hunique.chunk (by simp), rfl, rfl, fun _ => ⟨rfl, rfl⟩,
      fun hno => absurd hdedup (by simp [hno])⟩, ?_⟩
    exact ((hmark.widen (by decide)).trans (hsilent.trans ((windowCheck_silently _).widen (by decide)))).completed
  · obtain ⟨st, hfound, hstage⟩ := chunkById_windowCheck_stage hmarked
    rw [if_neg (show ¬ bitOf (modeOf s.quiet c.nsid) 3 = true from hdedup)]
    refine ⟨⟨_, hfound, rfl, rfl, fun hyes => absurd hyes hdedup, fun _ hhook => ?_⟩, ?_⟩
    · have hsearch : (fingerprinted (fingerprintOf s c) c).stage = .searching := if_pos hhook
      exact (hstage (by simp [hsearch])).trans hsearch
    · exact ((hmark.trans (windowCheck_silently _)).widen (by decide)).completed

/-! ### LOOKUP_SEARCH_DONE (R131, R133, R139) -/

theorem completes_lookup_match {s : State} {id k no : Nat} {c : Chunk} {e : ChunkEnt} (hc : chunkById s id = some c)
    (hst : c.stage = .searching ∨ c.stage = .again) (hm : cacheMatch s c = some (k, no)) (he : chunkOf s no = some e)
    (hv : bitOf (modeOf s c.nsid) 4 = false) (hf : foreignChunk s no = false) :
    Completes (.lookupSearchDone id) s fun t =>
      chunkById t id = some { c with stage := .live, no := no, matched := true }
      ∧ chunkOf t no = some { e with refs := e.refs + namingBlocks c } ∧ t.out = [] ∧ Frame [.ing, .med] s t := by
  obtain rfl := chunkById_id hc
  obtain ⟨hchunk, href, hsilent⟩ := resolveMatch_stands (s := s.quiet) hc he hv hf k
  have heff : lookupSearchDoneEffect c.id s.quiet = windowCheck (resolveMatch c k no s.quiet) := by
    have hc' : chunkById s.quiet c.id = some c := hc
    have hm' : cacheMatch s.quiet c = some (k, no) := hm
    rcases hst with h | h <;> simp only [lookupSearchDoneEffect, hc', h, hm']
  refine completes_of_run (f := lookupSearchDoneEffect c.id) rfl rfl ?_
  rw [heff]
  exact ⟨chunkById_windowCheck hchunk (by simp), href, (hsilent.trans ((windowCheck_silently _).widen (by decide))).completed⟩

theorem completes_lookup_miss {s : State} {id : Nat} {c : Chunk} (hc : chunkById s id = some c) (hst : c.stage = .searching)
    (hm : cacheMatch s c = none) :
    Completes (.lookupSearchDone id) s fun t =>
      (isHook c.fp = true → chunkById t id = some { c with stage := .hookSearch })
      ∧ (isHook c.fp = false → chunkById t id = some { c with stage := .unique, no := newChunkNo s }
        ∧ t.med.chunks = s.med.chunks ++ [newEnt c s] ∧ t.ing.unique = (s.ing.unique + 1) % 2 ^ 64)
      ∧ t.out = [] ∧ Frame [.ing, .med, .evr] s t := by
  obtain rfl := chunkById_id hc
  have hc' : chunkById s.quiet c.id = some c := hc
  have heff : lookupSearchDoneEffect c.id s.quiet = windowCheck (cacheMiss c s.quiet) := by
    have hm' : cacheMatch s.quiet c = none := hm
    simp only [lookupSearchDoneEffect, hc', hst, hm']
  refine completes_of_run (f := lookupSearchDoneEffect c.id) rfl rfl ?_
  rw [heff]
  cases hhook : isHook c.fp
  · obtain ⟨hunique, hsilent⟩ := resolveUnique_uniquely hc'
    rw [show cacheMiss c s.quiet = resolveUnique c.id s.quiet by simp [cacheMiss, hhook]]
    exact ⟨fun h => absurd h Bool.false_ne_true,
      fun _ => ⟨chunkById_windowCheck hunique.chunk (by simp), hunique.chunks, hunique.unique⟩,
      (hsilent.trans ((windowCheck_silently _).widen (by decide))).completed⟩
  · rw [show cacheMiss c s.quiet = modChunk c.id (fun x => { x with stage := .hookSearch }) s.quiet by simp [cacheMiss, hhook, hst]]
    have hmarked : chunkById (modChunk c.id (fun x => { x with stage := .hookSearch }) s.quiet) c.id
        = some { c with stage := .hookSearch } := chunkById_modChunk hc' fun _ => rfl
    exact ⟨fun _ => chunkById_windowCheck hmarked (by simp), fun h => absurd h (by simp),
      (((modChunk_silently _ _ _).trans (windowCheck_silently _)).widen (by decide)).completed⟩

theorem completes_lookup_pull {s : State} {id k : Nat} {c : Chunk} (hc : chunkById s id = some c) (hst : c.stage = .hookSearch)
    (hm : hookMatch s c = some k) (hk : (s.ing.containers.any fun x => x.no == k && x.cached) = false) :
    Completes (.lookupSearchDone id) s fun t =>
      (chunkById t id).map (·.stage) = some (.pulling k) ∧ t.med = s.med ∧ t.out = [] ∧ Frame [.ing] s t := by
  obtain rfl := chunkById_id hc
  have hc' : chunkById s.quiet c.id = some c := hc
  have hpull : ∃ b, lookupSearchDoneEffect c.id s.quiet
      = windowCheck (modChunk c.id (fun x => { x with stage := .pulling k, started := b }) s.quiet) := by
    have hm' : hookMatch s.quiet c = some k := hm
    have hk' : (s.quiet.ing.containers.any fun x => x.no == k && x.cached) = false := hk
    exact ⟨_, by simp only [lookupSearchDoneEffect, hc', hst, hookDone, hm', hk', Bool.false_eq_true, if_false]; rfl⟩
  obtain ⟨b, heff⟩ := hpull
  have hmarked : chunkById (modChunk c.id (fun x => { x with stage := .pulling k, started := b }) s.quiet) c.id
      = some { c with stage := .pulling k, started := b } := chunkById_modChunk hc' fun _ => rfl
  refine completes_of_run (f := lookupSearchDoneEffect c.id) rfl rfl ?_
  rw [heff]
  exact ⟨by rw [chunkById_windowCheck hmarked (by simp), Option.map_some], rfl,
    ((modChunk_silently _ _ _).trans (windowCheck_silently _)).completed⟩

/-! ### CONTAINER_PULL_DONE (R131, R135) -/

/-- A container that is cached. -/
def inCache (k : Container) : Container := { k with cached := true }

/-- A pulled container is in the cache, and nothing but the containers changes. -/
theorem cacheContainer_cached (k d : Nat) (l : List (Bytes × Nat × Nat)) (s : State) :
    ∃ cs n, cacheContainer k d l s = { s with ing := { s.ing with containers := cs, clock := n } }
      ∧ (cs.find? fun x => x.no == k).map (·.cached) = some true := by
  unfold cacheContainer
  split
  · next h =>
    obtain ⟨x, hx⟩ := Option.isSome_iff_exists.1 (List.find?_isSome.2 (List.any_eq_true.1 h))
    have hcached : ((modFirst (fun x => x.no == k) inCache s.ing.containers).find? fun x => x.no == k) = some (inCache x) :=
      (find?_modFirst (f := inCache) (fun _ => rfl) _).trans (congrArg (Option.map _) hx)
    exact ⟨_, _, rfl, congrArg (Option.map _) ((find?_modFirst (f := fun y : Container => { y with touched := s.ing.clock })
      (fun _ => rfl) _).trans (congrArg (Option.map _) hcached))⟩
  · next h =>
    have hnone : s.ing.containers.find? (fun x => x.no == k) = none :=
      List.find?_eq_none.2 fun x hx hk => h (List.any_eq_true.2 ⟨x, hx, hk⟩)
    exact ⟨_, _, rfl, by rw [find?_append_new hnone (by simp), Option.map_some]⟩

/-- The searches that waited for a pull repeat (R131). -/
def searchAgain (k : Nat) (s : State) : State :=
  { s with ing := { s.ing with chunks := modAll (fun c => c.stage == .pulling k) (fun c => { c with stage := .again }) s.ing.chunks } }

theorem searchAgain_stage (k : Nat) (s : State) : ∀ c ∈ (searchAgain k s).ing.chunks, c.stage ≠ .pulling k := by
  refine forall_mem_modAll fun c _ => ?_
  split
  · simp
  · next h => simpa using h

theorem windowCheck_stage {s : State} {k : Nat} (h : ∀ c ∈ s.ing.chunks, c.stage ≠ .pulling k) :
    ∀ c ∈ (windowCheck s).ing.chunks, c.stage ≠ .pulling k := by
  obtain ⟨ws, l, heq⟩ := windowCheck_eq s
  rw [heq]
  refine forall_mem_modAll fun c hc => ?_
  split
  · simp
  · exact h c hc

theorem completes_containerPullDone {s : State} {k d : Nat} {l : List (Bytes × Nat × Nat)}
    (hw : (Instr.containerPullDone k l d).wf = true)
    (hk : (s.ing.chunks.any fun c => c.stage == .pulling k) = true) (hroom : cachedCount s < s.ing.ccSlots) :
    Completes (.containerPullDone k l d) s fun t =>
      (t.ing.containers.find? fun x => x.no == k).map (·.cached) = some true
      ∧ (∀ c ∈ t.ing.chunks, c.stage ≠ .pulling k) ∧ t.ing.pulls = (s.ing.pulls + 1) % 2 ^ 64
      ∧ t.out = [] ∧ Frame [.ing] s t := by
  obtain ⟨cs, n, hcache, hfound⟩ := cacheContainer_cached k d l s.quiet
  have heff : containerPullDoneEffect k l d s.quiet = windowCheck (searchAgain k { s.quiet with
      ing := { s.ing with containers := cs, clock := n, pulls := (s.ing.pulls + 1) % 2 ^ 64 } }) := by
    have hk' : (s.quiet.ing.chunks.any fun c => c.stage == .pulling k) = true := hk
    have hroom' : cacheRoom d false s.quiet = some s.quiet := if_pos hroom
    simp only [containerPullDoneEffect, hk', if_true, hroom', hcache]
    rfl
  refine completes_of_run (f := containerPullDoneEffect k l d) rfl hw ?_
  rw [heff]
  exact ⟨hfound, windowCheck_stage (searchAgain_stage k _), rfl,
    ((silently_ing s.quiet _).trans (windowCheck_silently _)).completed⟩

/-! ### CONTAINER_IDLE_EXPIRY (R130) -/

/-- A container that is closed. -/
def shut (k : Container) : Container := { k with isOpen := false }

theorem find?_closeContainer (m n : Nat) (s : State) : ((closeContainer m s).ing.containers.find? fun x => x.no == n)
    = (s.ing.containers.find? fun x => x.no == n).map fun x => if m = n then shut x else x := by
  by_cases h : m = n
  · subst h
    simp only [if_true]
    exact find?_modFirst (f := shut) (fun _ => rfl) _
  · have hother : ∀ x : Container, (x.no == m) = true → (x.no == n) = false := fun x hx => by
      rw [eq_of_beq hx]
      exact beq_false_of_ne h
    simp only [h, if_false, Option.map_id']
    exact find?_modFirst_other (f := shut) (fun _ => rfl) hother _

/-- Of the containers with one number, the first is closed once one with the number is. -/
theorem find?_closeContainers (l : List Container) (n : Nat) (s : State) :
    ((forEach l (fun k t => closeContainer k.no t) s).ing.containers.find? fun x => x.no == n)
      = (s.ing.containers.find? fun x => x.no == n).map fun x => if n ∈ l.map (·.no) then shut x else x := by
  induction l generalizing s with
  | nil => simp [forEach]
  | cons k l ih =>
    refine (ih (closeContainer k.no s)).trans ?_
    rw [find?_closeContainer, Option.map_map]
    congr 1
    funext x
    by_cases hk : k.no = n <;> by_cases hl : n ∈ l.map (·.no) <;> simp_all [Function.comp, shut, eq_comm]

theorem closeContainers_length (l : List Container) (s : State) :
    (forEach l (fun k t => closeContainer k.no t) s).ing.containers.length = s.ing.containers.length :=
  forEach_keeps (fun t => t.ing.containers.length) _ (fun _ t => length_modFirst _ _ t.ing.containers) l s

theorem containerIdle_silently (n : Nat) (s : State) : Silently [.ing] s (containerIdle n s) :=
  forEach_induct (Silently [.ing] s) _ (fun _ t ht => ht.trans (silently_ing t _)) _ s ⟨Frame.refl _ s, rfl⟩

theorem completes_containerIdleExpiry (s : State) (n : BitVec 14) :
    Completes (.containerIdleExpiry n) s fun t =>
      (∀ k ∈ s.ing.containers, k.isOpen = true → k.nsid = n.toNat →
        (t.ing.containers.find? fun x => x.no == k.no).map (·.isOpen) = some false)
      ∧ t.ing.containers.length = s.ing.containers.length ∧ t.out = [] ∧ Frame [.ing] s t := by
  refine completes_of_run (f := containerIdle n.toNat) rfl rfl ⟨fun k hk hopen hn => ?_, closeContainers_length _ s.quiet,
    (containerIdle_silently _ _).completed⟩
  have hlisted : k.no ∈ (s.quiet.ing.containers.filter fun k => k.isOpen && k.nsid == n.toNat).map (·.no) :=
    List.mem_map_of_mem (List.mem_filter.2 ⟨hk, by simp [hopen, hn]⟩)
  have hsome : (s.ing.containers.find? fun x => x.no == k.no).isSome = true :=
    List.find?_isSome.2 ⟨k, hk, by simp⟩
  obtain ⟨x, hx⟩ := Option.isSome_iff_exists.1 hsome
  rw [containerIdle, find?_closeContainers, show s.quiet.ing.containers.find? (fun x => x.no == k.no) = some x from hx,
    Option.map_some, if_pos hlisted]
  rfl

/-! ### VERIFY_COMPARE_DONE (R134) -/

/-- Comparisons that start change the decoders alone. -/
theorem startWaiting_bal (s : State) : ∃ b, startWaiting s = { s with bal := b } := by
  refine forEach_induct (fun t => ∃ b, t = { s with bal := b }) _ (fun c t ht => ?_) _ s ⟨s.bal, rfl⟩
  obtain ⟨b, rfl⟩ := ht
  dsimp only [startCompare]
  split
  · exact ⟨_, rfl⟩
  · exact ⟨_, rfl⟩

/-- What is compared of a chunk that no decoder holds is what the command gives. -/
theorem compareResult_given {s : State} {id : Nat} (h : (s.bal.decoders.find? fun d => d.chunk == id) = none) (got : Option Bytes) :
    compareResult s id got = got := by
  simp [compareResult, h]

/-- The outcome of a comparison of a chunk that no decoder holds. -/
def compared (id : Nat) (got : Option Bytes) (c : Chunk) (s : State) : State :=
  match got with
  | some b =>
    if b = c.data then countMatch c (modChunk id (fun x => { x with stage := .live }) s)
    else compareFailed c (raise .ing .critical 134 0 [c.no] { s with
      ing := { s.ing with containers := s.ing.containers.map (markDead c.no) } })
  | none => compareFailed c (raise .ing .fault 134 1 [c.no] s)

theorem verifyCompareDoneEffect_eq {s : State} {id : Nat} {c : Chunk} (hc : chunkById s id = some c) (hst : c.stage = .verifying)
    (hd : (s.bal.decoders.find? fun d => d.chunk == id) = none) (got : Option Bytes) :
    verifyCompareDoneEffect id got s = startWaiting (compared id got c s) := by
  have hnone : ∀ d ∈ s.bal.decoders, ¬ (d.chunk == id) = true := List.find?_eq_none.1 hd
  have hfilter : (s.bal.decoders.filter fun d => d.chunk == id) = [] := List.filter_eq_nil_iff.2 hnone
  have hwithout : without (fun d : Decoder => d.chunk == id) s.bal.decoders = s.bal.decoders :=
    List.filter_eq_self.2 fun d hmem => by simpa using hnone d hmem
  simp only [verifyCompareDoneEffect, hc, hst, bne_self_eq_false, Bool.false_eq_true, if_false, compareResult_given hd, hfilter,
    hwithout]
  rfl

/-- The state in which a match has been given back, with other counts and containers (R134). -/
def givenBack (c : Chunk) (m : Med) (cs : List Container) (s : State) : State :=
  modChunk c.id (fun x => { x with matched := false, no := 0 }) { s with
    med := m, ing := { s.ing with containers := cs, verifyMiss := (s.ing.verifyMiss + 1) % 2 ^ 64 } }

/-- A match given back: its chunk is unique, under a number of its own, and the miss is counted (R134, R139). -/
theorem compareFailed_unique {s : State} {c : Chunk} (hc : chunkById s c.id = some c) (hf : foreignChunk s c.no = false) :
    chunkById (compareFailed c s) c.id = some { c with stage := .unique, no := newChunkNo s, matched := false }
    ∧ (compareFailed c s).ing.verifyMiss = (s.ing.verifyMiss + 1) % 2 ^ 64
    ∧ (compareFailed c s).ing.unique = (s.ing.unique + 1) % 2 ^ 64
    ∧ (compareFailed c s).med.chunks.length = s.med.chunks.length + 1
    ∧ Silently [.ing, .med, .evr] s (compareFailed c s) := by
  obtain ⟨m, cs, hdropped, hlen, hnext⟩ := dropRefs_drops hf (namingBlocks c)
  have hback : chunkById (givenBack c m cs s) c.id = some { c with matched := false, no := 0 } :=
    chunkById_modChunk hc fun _ => rfl
  have hgiven : Silently [.ing, .med, .evr] s (givenBack c m cs s) := ⟨frame_iff.2 (by simp [givenBack, modChunk]), rfl⟩
  have hno : newChunkNo (givenBack c m cs s) = newChunkNo s := congrArg (_ + ·) hnext
  obtain ⟨hunique, hsilent⟩ := resolveUnique_uniquely hback
  have heq : compareFailed c s = resolveUnique c.id (givenBack c m cs s) := by
    simp only [compareFailed, hdropped]
    rfl
  rw [heq, ← hno]
  refine ⟨hunique.chunk, hunique.verifyMiss, hunique.unique, ?_, hgiven.trans hsilent⟩
  rw [hunique.chunks, List.length_append]
  exact congrArg (· + 1) hlen

/-- Whatever a failed comparison found, what it records besides is the containers and an event. -/
theorem compared_failed {s : State} {id : Nat} {got : Option Bytes} {c : Chunk} (h : got ≠ some c.data) :
    ∃ u, Shelved s u ∧ compared id got c s = compareFailed c u := by
  cases got with
  | none =>
    obtain ⟨e, he⟩ := raise_evr .ing .fault 134 1 [c.no] s
    exact ⟨_, he ▸ ⟨_, _, _, _, _, e, rfl⟩, rfl⟩
  | some b =>
    have hb : ¬ b = c.data := fun hb => h (by rw [hb])
    obtain ⟨e, he⟩ := raise_evr .ing .critical 134 0 [c.no] { s with
      ing := { s.ing with containers := s.ing.containers.map (markDead c.no) } }
    exact ⟨_, he ▸ ⟨_, _, _, _, _, e, rfl⟩, if_neg hb⟩

section
variable {s : State} {id : Nat} {c : Chunk} (hc : chunkById s id = some c) (hst : c.stage = .verifying)
  (hd : (s.bal.decoders.find? fun d => d.chunk == id) = none)
include hc hst hd

theorem completes_verify_same : Completes (.verifyCompareDone id (some c.data)) s fun t =>
    chunkById t id = some { c with stage := .live } ∧ t.med = s.med ∧ t.out = [] ∧ Frame [.ing, .bal] s t := by
  have hmark := modChunk_silently id (fun x => { x with stage := .live }) s.quiet
  have hsilent := hmark.trans (countMatch_silently c (modChunk id (fun x => { x with stage := .live }) s.quiet))
  obtain ⟨b, hwait⟩ := startWaiting_bal (countMatch c (modChunk id (fun x => { x with stage := .live }) s.quiet))
  have hmarked : chunkById (modChunk id (fun x => { x with stage := .live }) s.quiet) id = some { c with stage := .live } :=
    chunkById_modChunk hc fun _ => rfl
  refine completes_of_run (f := verifyCompareDoneEffect id (some c.data)) rfl rfl ?_
  rw [verifyCompareDoneEffect_eq (s := s.quiet) hc hst hd, show compared id (some c.data) c s.quiet = _ from if_pos rfl, hwait]
  exact ⟨(chunkById_countMatch c _ id).trans hmarked, hsilent.1.med,
    ((hsilent.widen (by decide)).trans ((silently_bal _ b).widen (by decide))).completed⟩

theorem completes_verify_other {got : Option Bytes} (hgot : got ≠ some c.data) (hf : foreignChunk s c.no = false) :
    Completes (.verifyCompareDone id got) s fun t =>
      chunkById t id = some { c with stage := .unique, no := newChunkNo s, matched := false }
      ∧ t.ing.verifyMiss = (s.ing.verifyMiss + 1) % 2 ^ 64 ∧ t.ing.unique = (s.ing.unique + 1) % 2 ^ 64
      ∧ t.med.chunks.length = s.med.chunks.length + 1 ∧ t.out = [] ∧ Frame [.ing, .bal, .med, .evr] s t := by
  obtain rfl := chunkById_id hc
  obtain ⟨u, hshelved, hcompared⟩ := compared_failed (s := s.quiet) (id := c.id) hgot
  have hbefore := hshelved.silently
  obtain ⟨cs, hs, hh, n, k, e, rfl⟩ := hshelved
  obtain ⟨hchunk, hmiss, hunique, hlen, hsilent⟩ := compareFailed_unique (s := { s.quiet with
    ing := { s.quiet.ing with containers := cs, hooks := hs, hookHour := hh, contNext := n, clock := k }, evr := e }) hc hf
  obtain ⟨b, hwait⟩ := startWaiting_bal (compared c.id got c s.quiet)
  refine completes_of_run (f := verifyCompareDoneEffect c.id got) rfl rfl ?_
  rw [verifyCompareDoneEffect_eq (s := s.quiet) hc hst hd, hwait, hcompared]
  exact ⟨hchunk, hmiss, hunique, hlen, ((hbefore.widen (by decide)).trans ((hsilent.widen (by decide)).trans
    ((silently_bal _ b).widen (by decide)))).completed⟩

end

/-! ### The obligation -/

/-- Settles O24: each search and comparison in turn; what they share is the chunk that becomes unique or takes its match. -/
theorem chunksResolve : Obligations.ChunksResolve := by
  unfold Obligations.ChunksResolve
  refine ⟨⟨?_, ?_, ?_, ?_, ?_, ?_⟩, fun s id got c hc _ hst hd => ⟨?_, ?_⟩⟩
  · exact fun s id c hc hst ht hk => completes_fingerprintDone hc hst ht hk
  · exact fun s id k no c e hc hst hm he hv hf => completes_lookup_match hc hst hm he hv hf
  · exact fun s id c hc _ hst hm => completes_lookup_miss hc hst hm
  · exact fun s id k c hc _ hst hm hk => completes_lookup_pull hc hst hm hk
  · exact fun s k d l hw hk hroom => completes_containerPullDone hw hk hroom
  · exact completes_containerIdleExpiry
  · rintro rfl
    exact completes_verify_same hc hst hd
  · exact completes_verify_other hc hst hd

end Sys2Proof.Machine
end

section
/-! SUPPORT. A run that ends with two staging entries of one slot (O26). The end of a run finds an entry that was taken back by its
slot (R72), so of two entries of one slot it finds the first one twice. -/

namespace Sys2Proof.Machine

/-- An entry of run 1 in slot 0 that a poisoned write took back: it holds the content that it had superseded. -/
def takenBackEntry (lba : Nat) : StEntry :=
  { slot := 0, nsid := 1, lba := lba, gen := 1, st := .flushing, mirrored := true, data := [], dealloc := true, cmd := 0, block := 0
    tenant := none, tag := none, nblk := 1, order := 0, idle := false, aged := false, run := some 1, old := none, void := some true }

/-- The run of two deallocated blocks that flushes both. -/
def deallocatedRun : Run :=
  { id := 1, nsid := 1, lba := 0, n := 2, pos := 0, dealloc := true, drop := false, fromMirror := false, gens := [1, 1], data := [] }

def twoEntriesOneSlot : State :=
  { State.reset with ing := { staging := [takenBackEntry 0, takenBackEntry 1], runs := [deallocatedRun] } }

/-- The first entry is STAGED again, twice over, and the second one stays in the run that has ended. -/
theorem mapUpdatePublish_leaves_entry :
    takenBackEntry 1 ∈ (mapUpdatePublishEffect 1 twoEntriesOneSlot.quiet).ing.staging := by decide +kernel

/-- Refutes O26: a run that is published need not leave the staging index. Of two taken-back entries of one slot, which the
statement does not exclude, the second one keeps the number of the run that has ended. -/
theorem not_mapsAndStripes : ¬ Obligations.MapsAndStripes := by
  unfold Obligations.MapsAndStripes
  rintro ⟨hpublish, -⟩
  obtain ⟨hends, -⟩ := hpublish twoEntriesOneSlot 1 deallocatedRun rfl
  obtain ⟨t, ht, -, -, hleft, -⟩ := hends rfl rfl rfl (by decide +kernel)
  have hrun := run_of_wf (i := .mapUpdatePublish 1) rfl (mapUpdatePublishEffect 1) twoEntriesOneSlot
  obtain rfl : mapUpdatePublishEffect 1 twoEntriesOneSlot.quiet = t := by injection hrun.symm.trans ht
  exact hleft _ mapUpdatePublish_leaves_entry rfl

end Sys2Proof.Machine
end

section
/-! SUPPORT. A REF for a chunk of the peer's own table (O39). Once the session is open both heads know which chunks are whose (R345);
the change of a count in the peer's table is sent on to the peer, whoever asked for it. -/

namespace Sys2Proof.Machine

/-- A REF that raises a count in the peer's table changes nothing here: it goes back to the peer. -/
theorem refEffect_foreign {s : State} {no k : Nat} (hf : foreignChunk s no = true) (hr : raisable s no k = true) :
    refEffect no k s = toPeer 0x16 [no, 0, k] [] s := by
  simp [refEffect, hr, raiseRef, hf]

/-- A chunk under a number of head 1, with one reference. -/
def chunkOfHead1 : ChunkEnt :=
  { no := 2 ^ 47, refs := 1, seg := 0, stripe := 0, strip := 0, gran := 0, granules := 1, len := 4096, st := .live, keyInfo := 0x1FFF
    domain := 0, nsid := 1, sealed_ := false, waybill := [], stored := [] }

/-- Head 0, ACTIVE with its session open, which holds that entry of the peer's table. -/
def holdsPeersChunk : State :=
  { State.reset with pins := { coresOut := true }, peer := { role := .active, linkUp := true }, med := { chunks := [chunkOfHead1] } }

/-- A message of the peer under the epoch in force. -/
def untagged : PeerHdr := ⟨0, false, false⟩

theorem fromPeer_holdsPeersChunk : FromPeer holdsPeersChunk untagged := ⟨rfl, rfl, rfl⟩

/-- The REF drives a REF of this head outward. -/
theorem exec_ref_holdsPeersChunk : ∃ t, exec (.ref untagged (2 ^ 47) 1) holdsPeersChunk = .next t ∧ t.out ≠ [] := by
  refine completes_fromPeer fromPeer_holdsPeersChunk (f := refEffect (2 ^ 47) 1) rfl rfl ?_
  have heff := refEffect_foreign (s := heard untagged holdsPeersChunk.quiet) (no := 2 ^ 47) (k := 1)
    (by decide +kernel) (by decide +kernel)
  rw [show ((1 : Int)) = ((1 : Nat) : Int) from rfl, heff, toPeer_linkUp rfl]
  simp [emit]

/-- Refutes O39: a REF that raises the count of a chunk of the peer's own table is not applied here. This head sends it to the peer
(R345), so something is driven outward, which the clause about a REF of a chunk that may be raised excludes. -/
theorem not_rolesAndCopies : ¬ Obligations.RolesAndCopies := by
  unfold Obligations.RolesAndCopies
  rintro ⟨-, hmessages, -⟩
  obtain ⟨-, href, -⟩ := hmessages holdsPeersChunk untagged fromPeer_holdsPeersChunk
  obtain ⟨t, ht, -, hout, -⟩ := href (2 ^ 47) chunkOfHead1 1 (by decide +kernel) (by decide +kernel)
  obtain ⟨u, hu, hsent⟩ := exec_ref_holdsPeersChunk
  obtain rfl : u = t := by injection hu.symm.trans ht
  exact hsent hout

end Sys2Proof.Machine
end

section
/-! SUPPORT. What finding places for Bales and metadata objects leaves (O34): copies and objects go into stripes, and stripes and root
records to the modules; every segment, every entry of the chunk table and what is to be relocated stand as they were. -/

namespace Sys2Proof.Machine

/-! ### A lane that stays LOST -/

/-- A lane that has been LOST for 10 s (R265). -/
def LongLost (s : State) (n : Nat) : Prop := (laneOf s n).longLost = true ∧ (laneOf s n).st = .lost

theorem longLost_congr {s t : State} {n : Nat} (h : t.far.lanes = s.far.lanes) (hs : LongLost s n) : LongLost t n := by
  rw [LongLost, laneOf, h]
  exact hs

/-- A change of another lane, or of what else a lane holds, leaves it so. -/
theorem longLost_modLane {s : State} {n : Nat} (hs : LongLost s n) (m : Nat) {f : Lane → Lane}
    (hf : ∀ l, (f l).longLost = l.longLost ∧ (f l).st = l.st) : LongLost (modLane m f s) n := by
  by_cases hn : n = m
  · subst hn
    obtain ⟨hlong, hst⟩ := hs
    obtain ⟨hkeepLong, hkeepSt⟩ := hf (laneOf s n)
    have hvalue : f (laneOf s n) ≠ {} := fun hd => by simp [hd, hlong] at hkeepLong
    have hlane : laneOf (modLane n f s) n = f (laneOf s n) := tabGet_tabPut_of_value hvalue n s.far.lanes
    exact ⟨by rw [hlane, hkeepLong, hlong], by rw [hlane, hkeepSt, hst]⟩
  · have hlane : laneOf (modLane m f s) n = laneOf s n := tabGet_tabPut_of_ne _ _ hn s.far.lanes
    rw [LongLost, hlane]
    exact hs

/-! ### The relation -/

/-- From `s` to `t` places may be taken and commands may go to the modules; which segments and chunks there are and what is to be
relocated stands, a lane that has been LOST for 10 s stays so, and what was driven outward before is not withdrawn. -/
structure Placed (s t : State) : Prop where
  segs : t.med.segs = s.med.segs
  chunks : t.med.chunks = s.med.chunks
  relocating : t.med.relocating = s.med.relocating
  lost : ∀ n, LongLost s n → LongLost t n
  told : s.out ⊆ t.out

theorem Placed.of_kept {s t : State}
    (h : (t.med.segs, t.med.chunks, t.med.relocating, t.far.lanes, t.out)
      = (s.med.segs, s.med.chunks, s.med.relocating, s.far.lanes, s.out)) : Placed s t := by
  simp only [Prod.mk.injEq] at h
  obtain ⟨hsegs, hchunks, hrel, hlanes, hout⟩ := h
  exact ⟨hsegs, hchunks, hrel, fun _ => longLost_congr hlanes, hout ▸ List.Subset.refl _⟩

theorem Placed.refl (s : State) : Placed s s := .of_kept rfl

theorem Placed.trans {s t u : State} (h : Placed s t) (h' : Placed t u) : Placed s u :=
  ⟨h'.segs.trans h.segs, h'.chunks.trans h.chunks, h'.relocating.trans h.relocating, fun n hn => h'.lost n (h.lost n hn),
    List.Subset.trans h.told h'.told⟩

theorem Placed.segOf {s t : State} (h : Placed s t) (no : Nat) : segOf t no = segOf s no := by
  rw [Machine.segOf, h.segs, Machine.segOf]

theorem Placed.chunkOf {s t : State} (h : Placed s t) (no : Nat) : chunkOf t no = chunkOf s no := by
  rw [Machine.chunkOf, h.chunks, Machine.chunkOf]

/-- The same with the second step named first, as the goal names it. -/
theorem Placed.after {s t u : State} (h' : Placed t u) (h : Placed s t) : Placed s u := h.trans h'

theorem forEach_placed {α : Type} {f : α → State → State} (h : ∀ x t, Placed t (f x t)) (xs : List α) (s : State) :
    Placed s (forEach xs f s) :=
  forEach_induct (Placed s) f (fun x t ht => ht.trans (h x t)) xs s (Placed.refl s)

/-! ### Commands to the modules (R240) -/

theorem emit_placed (o : Output) (s : State) : Placed s (emit o s) :=
  ⟨rfl, rfl, rfl, fun _ hn => hn, List.subset_append_left s.out [o]⟩

theorem toPeer_placed (type : Nat) (args : List Nat) (data : Bytes) (s : State) : Placed s (toPeer type args data s) := by
  unfold toPeer
  split
  · exact emit_placed _ s
  · exact Placed.refl s

theorem modLane_placed (n : Nat) {f : Lane → Lane} (s : State)
    (hf : ∀ l, (f l).longLost = l.longLost ∧ (f l).st = l.st := by exact fun _ => ⟨rfl, rfl⟩) : Placed s (modLane n f s) :=
  ⟨rfl, rfl, rfl, fun _ hn => longLost_modLane hn n hf, List.Subset.refl _⟩

theorem putFrame_placed (n tag : Nat) (c : FarCmd) (s : State) : Placed s (putFrame n tag c s) :=
  (emit_placed _ _).after (modLane_placed n s)

theorem noteDieRun_placed (n : Nat) (c : FarCmd) (s : State) : Placed s (noteDieRun n c s) := by
  unfold noteDieRun
  split <;> exact .of_kept rfl

theorem sendNow_placed (n : Nat) (c : FarCmd) (s : State) : Placed s (sendNow n c s) := by
  unfold sendNow
  extract_lets tag t
  have ht : Placed s t := (modLane_placed n _).after (putFrame_placed n tag c s)
  exact (noteDieRun_placed n c _).after (ht.trans (.of_kept rfl))

theorem farSend_placed (n : Nat) (c : FarCmd) (s : State) : Placed s (farSend n c s) := by
  unfold farSend
  split
  · exact sendNow_placed n c s
  · exact modLane_placed n s

/-! ### Stripes (R207, R208, R263) -/

theorem programMember_placed (g : Seg) (k : Nat) (strip : Bytes) (m : Member) (s : State) :
    Placed s (programMember g k strip m s) := by
  refine forEach_placed (fun j t => ?_) _ s
  dsimp only
  split
  · exact farSend_placed _ _ t
  · exact (farSend_placed _ _ _).after (.of_kept rfl)

theorem closeStripe_placed (t : Stripe) (s : State) : Placed s (closeStripe t s) := by
  unfold closeStripe
  dsimp only
  split
  · exact .of_kept rfl
  · exact (forEach_placed (fun _ _ => programMember_placed ..) _ _).after (.of_kept rfl)

theorem stripeFor_placed (x : StreamId) (n : Nat) (s : State) : Placed s (stripeFor x n s).2 := by
  unfold stripeFor
  split
  · exact Placed.refl s
  · next g _ =>
    extract_lets u
    have hu : Placed s u := by
      simp only [u]
      split
      · split
        · exact Placed.refl s
        · exact closeStripe_placed _ s
      · exact Placed.refl s
    clear_value u
    split
    · exact hu
    · split
      · exact hu.trans (.of_kept rfl)
      · exact hu

theorem startCopy_placed (e : ChunkEnt) (s : State) : Placed s (startCopy e s) := by
  unfold startCopy
  split
  · exact Placed.refl s
  · split
    · exact Placed.refl s
    · dsimp only
      split
      · exact stripeFor_placed ..
      · exact (stripeFor_placed ..).trans (.of_kept rfl)

theorem startCopies_placed (s : State) : Placed s (startCopies s) := forEach_placed startCopy_placed _ s

/-! ### Root records and metadata objects (R295, R298) -/

theorem rootPage_placed (n b page : Nat) (d : Bytes) (s : State) : Placed s (rootPage n b page d s) := by
  refine forEach_placed (fun die t => ?_) _ s
  dsimp only
  split
  · exact (farSend_placed ..).trans (farSend_placed ..)
  · exact farSend_placed ..

theorem rootTo_placed (names turn : Bool) (n : Nat) (s : State) : Placed s (rootTo names turn n s) := by
  unfold rootTo
  extract_lets p turn b k t u
  have ht : Placed s t := by
    simp only [t]
    split
    · exact rootPage_placed ..
    · exact Placed.refl s
  exact ht.trans ((rootPage_placed ..).trans (.of_kept rfl))

theorem writeRoots_placed (s : State) : Placed s (writeRoots s) := by
  unfold writeRoots
  split
  · exact Placed.refl s
  · exact (forEach_placed (fun _ _ => rootTo_placed ..) _ _).after (.of_kept rfl)

theorem wantSerials_placed (s : State) : Placed s (wantSerials s) := by
  unfold wantSerials
  split
  · exact Placed.refl s
  · exact (writeRoots_placed _).after (.of_kept rfl)

theorem takeSerial_placed {s : State} {p : Bytes × State} (h : takeSerial s = some p) : Placed s p.2 := by
  unfold takeSerial at h
  split at h <;> cases h
  exact .of_kept rfl

theorem placeObj_placed (x : StreamId) (o : ObjRec) (s : State) : Placed s (placeObj x o s).2 := by
  unfold placeObj
  dsimp only
  split
  · exact stripeFor_placed ..
  · exact (stripeFor_placed ..).trans (.of_kept rfl)

theorem writeNode_placed (nsid level page obj : Nat) (body : Bytes) (s : State) :
    Placed s (writeNode nsid level page obj body s).2 := by
  unfold writeNode
  split
  · exact wantSerials_placed s
  · next h => exact (takeSerial_placed h).trans (placeObj_placed ..)

theorem newObject_placed (key page : Nat) (keep : Nat → Bool) (body : Bytes) (s : State) :
    Placed s (newObject key page keep body s).2 :=
  (writeNode_placed ..).after (.of_kept rfl)

/-! ### What is relocated, and what is reclaimed (R213) -/

@[simp] theorem startCopy_outside {parts : List Part} (hl : .med ∈ parts ∧ .far ∈ parts) (e : ChunkEnt) (s : State) :
    (startCopy e s).outside parts = s.outside parts := by
  unfold startCopy
  split
  · rfl
  · dsimp only
    split
    · rfl
    · split <;> simp [hl]

@[simp] theorem startCopies_outside {parts : List Part} (hl : .med ∈ parts ∧ .far ∈ parts) (s : State) :
    (startCopies s).outside parts = s.outside parts := by simp [startCopies, hl]

@[simp] theorem alsoRelocate_outside {parts : List Part} (hl : .med ∈ parts ∧ .far ∈ parts) (nos : List Nat) (seg : Nat)
    (s : State) : (alsoRelocate nos seg s).outside parts = s.outside parts := by simp [alsoRelocate, hl]

@[simp] theorem drainIfEmpty_outside {parts : List Part} (hl : .med ∈ parts) (no : Nat) (s : State) :
    (drainIfEmpty no s).outside parts = s.outside parts := by
  unfold drainIfEmpty
  split <;> simp [hl]

@[simp] theorem freeAccs_outside {parts : List Part} (hl : .med ∈ parts) (l : List Member) (s : State) :
    (freeAccs l s).outside parts = s.outside parts := by simp [freeAccs, hl]

@[simp] theorem reclaimSeg_outside {parts : List Part} (hl : .med ∈ parts ∧ .far ∈ parts) (no : Nat) (s : State) :
    (reclaimSeg no s).outside parts = s.outside parts := by
  simp only [reclaimSeg]
  split <;> simp [hl]

theorem alsoRelocate_frame (nos : List Nat) (seg : Nat) (s : State) : Frame [.med, .far] s (alsoRelocate nos seg s) :=
  frame_iff.2 (alsoRelocate_outside (by decide) nos seg s)

theorem reclaimSeg_frame (no : Nat) (s : State) : Frame [.med, .far] s (reclaimSeg no s) :=
  frame_iff.2 (reclaimSeg_outside (by decide) no s)

/-- The numbers of a list join what is to be relocated out of a segment. -/
def relocatingWith (nos : List Nat) (seg : Nat) (l : List (Nat × Nat)) : List (Nat × Nat) :=
  nos.foldl (fun l n => if (n, seg) ∈ l then l else l ++ [(n, seg)]) l

theorem subset_relocatingWith (nos : List Nat) (seg : Nat) (l : List (Nat × Nat)) : l ⊆ relocatingWith nos seg l := by
  induction nos generalizing l with
  | nil => exact List.Subset.refl l
  | cons n nos ih =>
    refine List.Subset.trans ?_ (ih _)
    dsimp only
    split
    · exact List.Subset.refl l
    · exact List.subset_append_left l _

theorem mem_relocatingWith {nos : List Nat} {n : Nat} (h : n ∈ nos) (seg : Nat) (l : List (Nat × Nat)) :
    (n, seg) ∈ relocatingWith nos seg l := by
  induction nos generalizing l with
  | nil => cases h
  | cons m nos ih =>
    rcases List.mem_cons.1 h with rfl | h
    · refine subset_relocatingWith nos seg _ ?_
      dsimp only
      split
      · assumption
      · simp
    · exact ih h _

/-- What is given to relocation is to be relocated, and no segment and no chunk changes by it. -/
theorem alsoRelocate_relocates (nos : List Nat) (seg : Nat) (s : State) :
    (∀ n ∈ nos, (n, seg) ∈ (alsoRelocate nos seg s).med.relocating)
    ∧ (alsoRelocate nos seg s).med.segs = s.med.segs ∧ (alsoRelocate nos seg s).med.chunks = s.med.chunks := by
  have hplaced := startCopies_placed { s with med := { s.med with relocating := relocatingWith nos seg s.med.relocating } }
  exact ⟨fun n hn => hplaced.relocating ▸ mem_relocatingWith hn seg _, hplaced.segs, hplaced.chunks⟩

theorem segOf_modSeg {s : State} {no : Nat} {g : Seg} (h : segOf s no = some g) {f : Seg → Seg}
    (hf : ∀ x, (f x).no = x.no := by exact fun _ => rfl) : segOf (modSeg no f s) no = some (f g) :=
  (find?_modFirst (fun x => by rw [hf]) s.med.segs).trans (congrArg (Option.map f) h)

/-- A segment that is RECLAIMING or DRAINING. -/
def Leaving (s : State) (no : Nat) : Prop := ∃ g, segOf s no = some g ∧ (g.st = .reclaiming ∨ g.st = .draining)

theorem Leaving.placed {s t : State} {no : Nat} (h : Leaving s no) (hp : Placed s t) : Leaving t no := by
  rw [Leaving, hp.segOf]
  exact h

theorem drainIfEmpty_leaving {s : State} {no : Nat} (h : Leaving s no) : Leaving (drainIfEmpty no s) no := by
  obtain ⟨g, hg, hst⟩ := h
  unfold drainIfEmpty
  simp only [hg]
  split
  · exact ⟨_, segOf_modSeg hg, .inr rfl⟩
  · exact ⟨g, hg, hst⟩

/-- A segment that is given to reclamation leaves (R213, R214). -/
theorem reclaimSeg_leaving {s : State} {no : Nat} {g : Seg} (h : segOf s no = some g) : Leaving (reclaimSeg no s) no := by
  have hreclaim : Leaving (modSeg no (fun g => { g with st := .reclaiming }) (freeAccs g.members s)) no :=
    ⟨_, segOf_modSeg (s := freeAccs g.members s) h, .inl rfl⟩
  simp only [reclaimSeg, h]
  exact (drainIfEmpty_leaving hreclaim).placed (startCopies_placed _)

end Sys2Proof.Machine
end

section
/-! SUPPORT. Jobs and their checkpoints (O34): what a checkpoint changes of the jobs and the checkpoints on media, and what one step of
a job leaves of it (R271 to R274). -/

namespace Sys2Proof.Machine

/-! ### One job -/

/-- The first job of a number. -/
def taskOf (s : State) (id : Nat) : Option Job := s.par.jobs.find? fun j => j.id == id

theorem taskOf_id {s : State} {id : Nat} {j : Job} (h : taskOf s id = some j) : j.id = id := by
  simpa using List.find?_some h

theorem mem_of_taskOf {s : State} {id : Nat} {j : Job} (h : taskOf s id = some j) : j ∈ s.par.jobs :=
  List.mem_of_find?_eq_some h

theorem taskOf_congr {s t : State} (h : t.par.jobs = s.par.jobs) (id : Nat) : taskOf t id = taskOf s id := by
  rw [taskOf, h, taskOf]

theorem taskOf_modJobOf {s : State} {id : Nat} {j : Job} (h : taskOf s id = some j) {f : Job → Job}
    (hf : ∀ x, (f x).id = x.id := by exact fun _ => rfl) : taskOf (modJobOf id f s) id = some (f j) :=
  (find?_modFirst (fun x => by rw [hf]) s.par.jobs).trans (congrArg (Option.map f) h)

theorem modJobOf_placed (id : Nat) (f : Job → Job) (s : State) : Placed s (modJobOf id f s) := .of_kept rfl

theorem newObject_par (key page : Nat) (keep : Nat → Bool) (body : Bytes) (s : State) :
    (newObject key page keep body s).2.par = s.par := (newObject_frame key page keep body s).par

theorem newObject_peer (key page : Nat) (keep : Nat → Bool) (body : Bytes) (s : State) :
    (newObject key page keep body s).2.peer = s.peer := (newObject_frame key page keep body s).peer

/-! ### Checkpoints (R273, R274) -/

/-- Does a head tell its peer of a checkpoint? -/
def tellsCkpt (s : State) : Bool := s.peer.role = .active && s.peer.linkUp

/-- A job whose checkpoint has been written. -/
def checkpointed (s : State) (x : Job) : Job :=
  { x with sinceCkpt := 0, unacked := if tellsCkpt s then x.unacked + 1 else x.unacked }

/-- The parity block as a checkpoint of a job has been written: it takes the place of the job's last one. -/
def withCkpt (s : State) (j : Job) : Par :=
  { s.par with
    ckptSeq := s.par.ckptSeq + 1, ckpts := s.par.ckpts.filter (fun x => !sameJob x (ckptOf s j)) ++ [ckptOf s j],
    jobs := modFirst (fun x => x.id == j.id) (checkpointed s) s.par.jobs }

/-- What a checkpoint changes. -/
structure CkptWritten (s : State) (j : Job) (t : State) : Prop where
  par : t.par = withCkpt s j
  placed : Placed s t
  tells : tellsCkpt s = true → Output.peerMsg 0x17 s.peer.epoch [] (ckptBytes (ckptOf s j)) ∈ t.out

theorem writeCkpt_written {s : State} {id : Nat} {j : Job} (h : taskOf s id = some j) : CkptWritten s j (writeCkpt id s) := by
  obtain rfl := taskOf_id h
  unfold writeCkpt
  split
  · next hnone => cases h.symm.trans hnone
  next k hk =>
  obtain rfl : j = k := Option.some.inj (h.symm.trans hk)
  extract_lets c _ u v
  have hplaced : Placed s v := (newObject_placed _ _ _ _ u).after (.of_kept rfl)
  have hpar : v.par = u.par := newObject_par ..
  have hpeer : v.peer = s.peer := newObject_peer ..
  clear_value v
  split
  · next ht =>
    have ht : tellsCkpt s = true := ht
    have hlink : v.peer.linkUp = true := by rw [hpeer]; exact (Bool.and_eq_true_iff.1 ht).2
    rw [toPeer_linkUp (by exact hlink)]
    refine ⟨?_, (emit_placed ..).after (hplaced.trans (modJobOf_placed ..)), fun _ => ?_⟩
    · have hcounts : checkpointed s = fun x => { x with sinceCkpt := 0, unacked := x.unacked + 1 } := by
        funext x
        simp [checkpointed, ht]
      rw [emit_par, modJobOf, hpar, withCkpt, hcounts]
    · rw [modJobOf_peer, hpeer]
      exact List.mem_append_right _ (List.mem_singleton_self _)
  · next ht =>
    have ht : ¬tellsCkpt s = true := ht
    refine ⟨?_, hplaced.trans (modJobOf_placed ..), fun ht' => absurd ht' ht⟩
    have hcounts : checkpointed s = fun x => { x with sinceCkpt := 0 } := by
      funext x
      simp [checkpointed, ht]
    rw [modJobOf, hpar, withCkpt, hcounts]

theorem writeCkpt_none {s : State} {id : Nat} (h : taskOf s id = none) : writeCkpt id s = s := by
  have hfind : (s.par.jobs.find? fun x => x.id == id) = none := h
  simp only [writeCkpt, hfind]

theorem writeCkpt_placed (id : Nat) (s : State) : Placed s (writeCkpt id s) := by
  cases h : taskOf s id with
  | none => rw [writeCkpt_none h]; exact Placed.refl s
  | some j => exact (writeCkpt_written h).placed

/-- The job whose checkpoint was written stands, but for what it counts of its checkpoints. -/
theorem CkptWritten.task {s t : State} {j : Job} (h : CkptWritten s j t) (hj : taskOf s j.id = some j) :
    taskOf t j.id = some (checkpointed s j) := by
  have hjobs : t.par.jobs = modFirst (fun x => x.id == j.id) (checkpointed s) s.par.jobs := by rw [h.par]; rfl
  rw [taskOf, hjobs, find?_modFirst (f := checkpointed s) (fun _ => rfl)]
  exact congrArg (Option.map _) hj

/-- So does every job of another number. -/
theorem CkptWritten.other {s t : State} {j : Job} (h : CkptWritten s j t) {id : Nat} (hne : id ≠ j.id) :
    taskOf t id = taskOf s id := by
  have hjobs : t.par.jobs = modFirst (fun x => x.id == j.id) (checkpointed s) s.par.jobs := by rw [h.par]; rfl
  rw [taskOf, hjobs]
  exact find?_modFirst_other (f := checkpointed s) (fun _ => rfl) (fun x hx => by rw [eq_of_beq hx]; exact beq_false_of_ne hne.symm) _

/-! ### A segment has been processed, and a phase ends -/

/-- The job after a step: past a segment, which it counts. -/
def Advanced (no : Nat) (j k : Job) : Prop := k.id = j.id ∧ k.cursor = no + 1 ∧ k.done = j.done + 1 ∧ k.paused = j.paused

theorem processed_advances {s : State} {id : Nat} {j : Job} (h : taskOf s id = some j) (no n : Nat) :
    (∃ k ∈ (processed id no n s).par.jobs, Advanced no j k) ∧ Placed s (processed id no n s) := by
  obtain rfl := taskOf_id h
  unfold processed
  extract_lets t
  have htask : taskOf t j.id = some { j with
      cursor := no + 1, done := j.done + 1, granules := j.granules + n, sinceCkpt := j.sinceCkpt + 1 } := taskOf_modJobOf h
  have hplaced : Placed s t := modJobOf_placed ..
  clear_value t
  have hfind : (t.par.jobs.find? fun x => x.id == j.id) = _ := htask
  simp only [hfind]
  split
  · have hwritten := writeCkpt_written htask
    exact ⟨⟨_, mem_of_taskOf (hwritten.task htask), rfl, rfl, rfl, rfl⟩, hplaced.trans hwritten.placed⟩
  · exact ⟨⟨_, mem_of_taskOf htask, rfl, rfl, rfl, rfl⟩, hplaced⟩

@[simp] theorem processed_outside {parts : List Part}
    (hl : .sec ∈ parts ∧ .med ∈ parts ∧ .far ∈ parts ∧ .par ∈ parts ∧ .til ∈ parts) (id no n : Nat) (s : State) :
    (processed id no n s).outside parts = s.outside parts := by
  unfold processed
  dsimp only
  split
  · simp [hl]
  · simp [hl]

/-- A phase that ends writes two checkpoints, and the job begins the next from the first segment. -/
theorem nextPhase_begins {s : State} {id : Nat} {j : Job} (h : taskOf s id = some j) :
    (∃ k ∈ (nextPhase id s).par.jobs, k.id = j.id ∧ k.phase = j.phase + 1 ∧ k.cursor = 0)
    ∧ (nextPhase id s).par.ckptSeq = s.par.ckptSeq + 2 := by
  obtain rfl := taskOf_id h
  have hfirst := writeCkpt_written h
  have htask := taskOf_modJobOf (f := fun j => { j with phase := j.phase + 1, cursor := 0 }) (hfirst.task h)
  have hsecond := writeCkpt_written htask
  refine ⟨⟨_, mem_of_taskOf (hsecond.task htask), rfl, rfl, rfl⟩, ?_⟩
  show (writeCkpt j.id _).par.ckptSeq = _
  rw [hsecond.par]
  show (writeCkpt j.id s).par.ckptSeq + 1 = _
  rw [hfirst.par]
  rfl

@[simp] theorem nextPhase_outside {parts : List Part}
    (hl : .sec ∈ parts ∧ .med ∈ parts ∧ .far ∈ parts ∧ .par ∈ parts ∧ .til ∈ parts) (id : Nat) (s : State) :
    (nextPhase id s).outside parts = s.outside parts := by simp [nextPhase, hl]

/-! ### The end of a job, and its start -/

theorem endTask_ends (id : Nat) (s : State) : ∀ k ∈ (endTask id s).par.jobs, k.id ≠ id := by
  unfold endTask
  split
  · next h => exact fun k hk hid => List.find?_eq_none.1 h k hk (by simpa using hid)
  · intro k hk
    simpa using (List.mem_filter.1 hk).2

@[simp] theorem endTask_outside {parts : List Part}
    (hl : .sec ∈ parts ∧ .med ∈ parts ∧ .far ∈ parts ∧ .par ∈ parts ∧ .til ∈ parts) (id : Nat) (s : State) :
    (endTask id s).outside parts = s.outside parts := by
  unfold endTask
  split
  · rfl
  · simp [hl]

@[simp] theorem noteVacated_outside {parts : List Part} (hl : .par ∈ parts ∧ .freeCtr ∈ parts) (s : State) :
    (noteVacated s).outside parts = s.outside parts := by simp [noteVacated, hl]

/-- The job that a head starts, with its number. -/
def numbered (j : Job) (s : State) : Job := { j with id := s.par.nextJob }

/-- A new job runs, with one checkpoint more. -/
theorem addTask_runs (j : Job) (s : State) :
    (∃ k ∈ (addTask j s).par.jobs, k.kind = j.kind ∧ k.id = s.par.nextJob ∧ k.phase = j.phase ∧ k.done = j.done)
    ∧ (addTask j s).par.ckptSeq = s.par.ckptSeq + 1 ∧ (addTask j s).par.waiting = s.par.waiting ∧ Placed s (addTask j s) := by
  let t : State := { s with par := { s.par with jobs := s.par.jobs ++ [numbered j s], nextJob := s.par.nextJob + 1 } }
  have hmem : numbered j s ∈ t.par.jobs := List.mem_append_right _ (List.mem_singleton_self _)
  obtain ⟨x, hx⟩ : ∃ x, taskOf t s.par.nextJob = some x :=
    Option.isSome_iff_exists.1 (List.find?_isSome.2 ⟨_, hmem, by simp [numbered]⟩)
  have hid := taskOf_id hx
  have hwritten := writeCkpt_written hx
  have hadd : addTask j s = writeCkpt s.par.nextJob t := rfl
  rw [hadd]
  refine ⟨?_, by rw [hwritten.par]; rfl, by rw [hwritten.par]; rfl, hwritten.placed.after (.of_kept rfl)⟩
  rw [hwritten.par]
  rcases mem_modFirst (p := fun y : Job => y.id == x.id) (f := checkpointed t) hmem with h | h
  · exact ⟨_, h, rfl, rfl, rfl, rfl⟩
  · exact ⟨_, h, rfl, rfl, rfl, rfl⟩

/-! ### The checkpoints of several jobs (R274) -/

/-- Whether two checkpoints are of one job depends on the jobs alone. -/
theorem sameJob_ckptOf (s t : State) (a b : Job) : sameJob (ckptOf s a) (ckptOf t b) = sameJob (ckptOf s a) (ckptOf s b) := rfl

theorem sameJob_self (c : JobCkpt) : sameJob c c = true := by simp [sameJob]

/-- A checkpoint that stands for a job as it is. -/
def StandsFor (s : State) (j : Job) (c : JobCkpt) : Prop :=
  sameJob c (ckptOf s j) = true ∧ c.cursor = j.cursor ∧ c.phase = BitVec.ofNat 8 j.phase

/-- The checkpoints of a list of jobs, each a job of its own number and unlike the others, stand on media, and the peer is told. -/
theorem forEach_writeCkpt {l : List Job} {s : State} (hl : ∀ j ∈ l, taskOf s j.id = some j)
    (hd : l.Pairwise fun a b => a.id ≠ b.id ∧ sameJob (ckptOf s a) (ckptOf s b) = false) :
    (forEach l (fun j t => writeCkpt j.id t) s).par.ckptSeq = s.par.ckptSeq + l.length
    ∧ (∀ c ∈ s.par.ckpts, (∀ j ∈ l, sameJob c (ckptOf s j) = false) →
        c ∈ (forEach l (fun j t => writeCkpt j.id t) s).par.ckpts)
    ∧ (∀ j ∈ l, ∃ c ∈ (forEach l (fun j t => writeCkpt j.id t) s).par.ckpts, StandsFor s j c)
    ∧ (tellsCkpt s = true → ∀ j ∈ l, ∃ c, sameJob c (ckptOf s j) = true
        ∧ Output.peerMsg 0x17 s.peer.epoch [] (ckptBytes c) ∈ (forEach l (fun j t => writeCkpt j.id t) s).out)
    ∧ Placed s (forEach l (fun j t => writeCkpt j.id t) s) := by
  induction l generalizing s with
  | nil => exact ⟨rfl, fun c hc _ => hc, by simp, by simp, Placed.refl s⟩
  | cons j l ih =>
    obtain ⟨hfirst, hrest⟩ := List.pairwise_cons.1 hd
    have hwritten := writeCkpt_written (hl j (List.mem_cons_self ..))
    have hpeer : (writeCkpt j.id s).peer = s.peer :=
      (frame_iff.2 (writeCkpt_outside (parts := [.sec, .med, .far, .par, .til]) (by decide) j.id s) : Frame _ _ _).peer
    obtain ⟨hseq, hkept, hstand, htell, hplaced⟩ := ih (s := writeCkpt j.id s)
      (fun k hk => (hwritten.other (hfirst k hk).1.symm).trans (hl k (List.mem_cons_of_mem _ hk))) hrest
    have hckpts : (writeCkpt j.id s).par.ckpts = s.par.ckpts.filter (fun x => !sameJob x (ckptOf s j)) ++ [ckptOf s j] := by
      rw [hwritten.par]; rfl
    refine ⟨?_, fun c hc hother => ?_, fun k hk => ?_, fun ht k hk => ?_, hwritten.placed.trans hplaced⟩
    · refine hseq.trans ?_
      rw [hwritten.par, List.length_cons, Nat.add_comm l.length 1, ← Nat.add_assoc]
      rfl
    · refine hkept c ?_ fun k hk => hother k (List.mem_cons_of_mem _ hk)
      rw [hckpts]
      exact List.mem_append_left _ (List.mem_filter.2 ⟨hc, by simp [hother j (List.mem_cons_self ..)]⟩)
    · rcases List.mem_cons.1 hk with rfl | hk
      · refine ⟨ckptOf s k, hkept _ ?_ fun b hb => (hfirst b hb).2, sameJob_self _, rfl, rfl⟩
        rw [hckpts]
        exact List.mem_append_right _ (List.mem_singleton_self _)
      · exact hstand k hk
    · rcases List.mem_cons.1 hk with rfl | hk
      · exact ⟨ckptOf s k, sameJob_self _, hplaced.told (hwritten.tells ht)⟩
      · rw [← hpeer]
        exact htell (by rw [tellsCkpt, hpeer]; exact ht) k hk

end Sys2Proof.Machine
end

section
/-! SUPPORT. Members that go missing, the steps of jobs, and a build-beside (O34): what each leaves in the state (R265, R270 to R274,
R280 to R283). -/

namespace Sys2Proof.Machine

/-! ### A module has been LOST for 10 s (R265) -/

theorem mem_foldl_insertNat {i : Nat} (l a : List Nat) : i ∈ l.foldl (fun a i => insertNat i a) a ↔ i ∈ l ∨ i ∈ a := by
  induction l generalizing a with
  | nil => simp
  | cons x l ih => rw [List.foldl_cons, ih, mem_insertNat, List.mem_cons]; tauto

theorem mem_positionsOf {p : Member → Bool} {g : Seg} {i : Nat} {m : Member} (hm : g.members[i]? = some m) (hp : p m = true) :
    i ∈ positionsOf p g := by
  obtain ⟨hi, -⟩ := List.getElem?_eq_some_iff.1 hm
  exact List.mem_filter.2 ⟨List.mem_range.2 hi, by simp only [hm, hp]⟩

/-- The members that meet a test are missing in every segment with data. -/
def AllMissing (p : Member → Bool) (s : State) : Prop :=
  ∀ g ∈ s.med.segs, holdsData g = true → ∀ i m, g.members[i]? = some m → p m = true → i ∈ g.missing

theorem AllMissing.placed {p : Member → Bool} {s t : State} (h : AllMissing p s) (hp : Placed s t) : AllMissing p t := by
  rw [AllMissing, hp.segs]
  exact h

theorem missMembers_allMissing (p : Member → Bool) (s : State) : AllMissing p (missMembers p s) := by
  refine forall_mem_modAll fun g _ => ?_
  split
  · exact fun _ i m hm hp => (mem_foldl_insertNat ..).2 (.inl (mem_positionsOf hm hp))
  · next hdata => exact fun hdata' => absurd hdata' hdata

section
variable {n : Nat} {s : State} (h : LongLost s n)
include h

theorem closeSeg_longLost (g : Seg) : LongLost (closeSeg g s) n := by
  unfold closeSeg
  split
  · exact h
  · exact (forEach_placed (fun _ _ => forEach_placed (fun _ _ => farSend_placed ..) _ _) g.members _).lost n h

theorem closeOpen_longLost (no : Nat) : LongLost (closeOpen no s) n := by
  have hclosed : LongLost (forSome (segOf s no) closeSeg s) n := by
    cases segOf s no with
    | none => exact h
    | some g => exact closeSeg_longLost h g
  exact (startCopies_placed _).lost n hclosed

theorem missMembers_longLost (p : Member → Bool) : LongLost (missMembers p s) n :=
  forEach_induct (LongLost · n) _ (fun g _ ht => closeOpen_longLost ht g.no) _ s h

end

theorem startRebuild_placed (n die : Nat) (s : State) : Placed s (startRebuild n die s) := by
  unfold startRebuild
  split
  · exact Placed.refl s
  · split
    · exact (addTask_runs _ s).2.2.2
    · split
      · exact Placed.refl s
      · exact modJobOf_placed ..

/-- A lost module's members are missing, and it stays lost. -/
theorem memberLost_loses {n : Nat} {s : State} (h : LongLost s n) :
    LongLost (memberLost n 0xFFFF s) n ∧ AllMissing (fun m => m.lane == n) (memberLost n 0xFFFF s) := by
  have hmissing := missMembers_allMissing (fun m => m.lane == n && ((0xFFFF : Nat) == 0xFFFF || m.die == 0xFFFF)) s
  simp only [BEq.rfl, Bool.true_or, Bool.and_true] at hmissing
  have hlost := missMembers_longLost h (fun m => m.lane == n)
  simp only [memberLost, BEq.rfl, Bool.true_or, Bool.and_true]
  split
  · exact ⟨(startRebuild_placed ..).lost n hlost, hmissing.placed (startRebuild_placed ..)⟩
  · exact ⟨hlost, hmissing⟩

section
variable {parts : List Part}

@[simp] theorem verifyReads_outside (hl : .med ∈ parts ∧ .far ∈ parts) (g : Seg) (s : State) :
    (verifyReads g s).outside parts = s.outside parts :=
  forEach_outside (fun _ _ => forEach_outside (fun _ _ => farSend_outside hl ..) _ _) _ _

@[simp] theorem closeSeg_outside (hl : .med ∈ parts ∧ .far ∈ parts) (g : Seg) (s : State) :
    (closeSeg g s).outside parts = s.outside parts := by simp [closeSeg, hl]

@[simp] theorem closeOpen_outside (hl : .ing ∈ parts ∧ .med ∈ parts ∧ .far ∈ parts ∧ .til ∈ parts) (no : Nat) (s : State) :
    (closeOpen no s).outside parts = s.outside parts := by simp [closeOpen, repack, hl]

@[simp] theorem missMembers_outside (hl : .ing ∈ parts ∧ .med ∈ parts ∧ .far ∈ parts ∧ .til ∈ parts) (p : Member → Bool)
    (s : State) : (missMembers p s).outside parts = s.outside parts := by simp [missMembers, closeOpenWith, hl]

@[simp] theorem startRebuild_outside (hl : .sec ∈ parts ∧ .med ∈ parts ∧ .far ∈ parts ∧ .par ∈ parts ∧ .til ∈ parts)
    (n die : Nat) (s : State) : (startRebuild n die s).outside parts = s.outside parts := by
  unfold startRebuild
  split
  · rfl
  · split
    · simp [hl]
    · split <;> simp [hl]

@[simp] theorem memberLost_outside
    (hl : .sec ∈ parts ∧ .med ∈ parts ∧ .far ∈ parts ∧ .par ∈ parts ∧ .til ∈ parts ∧ .ing ∈ parts) (n die : Nat) (s : State) :
    (memberLost n die s).outside parts = s.outside parts := by simp [memberLost, hl]

end

theorem completes_moduleLostExpiry {s : State} {n : Fin 96} (hst : (laneOf s n.val).st = .lost)
    (hlong : (laneOf s n.val).longLost = false) :
    Completes (.moduleLostExpiry n) s fun t =>
      (laneOf t n.val).longLost = true ∧ (laneOf t n.val).st = .lost
      ∧ (∀ g ∈ t.med.segs, holdsData g = true → ∀ i m, g.members[i]? = some m → m.lane = n.val → i ∈ g.missing)
      ∧ Frame [.far, .med, .ing, .par, .til, .sec, .freeCtr] s t := by
  refine completes_of_run (f := lostExpiryEffect n.val) rfl rfl ?_
  have hmark : LongLost (modLane n.val (fun l => { l with longLost := true }) s.quiet) n.val := by
    have hlane : laneOf (modLane n.val (fun l => { l with longLost := true }) s.quiet) n.val
        = { laneOf s n.val with longLost := true } := tabGet_tabPut_of_value (by simp) n.val s.far.lanes
    exact ⟨by rw [hlane], by rw [hlane]; exact hst⟩
  have heffect : lostExpiryEffect n.val s.quiet
      = noteVacated (memberLost n.val 0xFFFF (modLane n.val (fun l => { l with longLost := true }) s.quiet)) :=
    if_pos (by show ((laneOf s n.val).st == .lost && !(laneOf s n.val).longLost) = true; simp [hst, hlong])
  rw [heffect]
  obtain ⟨⟨hstill, hlost⟩, hmissing⟩ := memberLost_loses hmark
  exact ⟨hstill, hlost, fun g hg hdata i m hm hlane => hmissing g hg hdata i m hm (beq_iff_eq.2 hlane),
    frame_iff.2 (by simp)⟩

/-! ### The job that makes the next step (R270 to R272) -/

/-- A job that makes the next step: the head may move data, and of the jobs this one is chosen. -/
structure MayStep (s : State) (j : Job) : Prop where
  awake : asleep s = false
  runs : s.peer.pair3.inReset = false
  serves : s.peer.role ≠ .service
  state : s.glb.service = .normal ∨ s.glb.service = .recovery
  chosen : nextTask s = some j
  task : taskOf s j.id = some j

section
variable {s : State} {j : Job} (h : MayStep s j)
include h

theorem MayStep.quiet : MayStep s.quiet j := ⟨h.awake, h.runs, h.serves, h.state, h.chosen, h.task⟩

theorem MayStep.goes : (asleep s || s.peer.pair3.inReset || s.peer.role == .service
    || !(s.glb.service == .normal || s.glb.service == .recovery)) = false := by
  have hstate : (s.glb.service == .normal || s.glb.service == .recovery) = true := by
    rcases h.state with hs | hs <;> simp [hs]
  simp [h.awake, h.runs, h.serves, hstate]

theorem MayStep.waits (hr : ckptRoom s j 1 = false) : jobStepEffect s = s := by
  simp [jobStepEffect, h.chosen, hr]

theorem MayStep.rebuild (hr : ckptRoom s j 1 = true) (hk : j.kind = .rebuild) : jobStepEffect s = rebuildStep j (tick s) := by
  simp only [jobStepEffect, h.goes, h.chosen, hr, hk, Bool.not_true, Bool.false_eq_true, if_false]

theorem MayStep.reshape (hr : ckptRoom s j 1 = true) (hk : j.kind = .reshape) : jobStepEffect s = reshapeStep j (tick s) := by
  simp only [jobStepEffect, h.goes, h.chosen, hr, hk, Bool.not_true, Bool.false_eq_true, if_false]

theorem MayStep.beside (hr : ckptRoom s j 1 = true) (hk : j.kind = .buildBeside) : jobStepEffect s = besideStep j (tick s) := by
  simp only [jobStepEffect, h.goes, h.chosen, hr, hk, Bool.not_true, Bool.false_eq_true, if_false]

end

/-! ### What a step leaves -/

/-- The state in which a job goes on. -/
def unpaused (id : Nat) (s : State) : State := modJobOf id (fun x => { x with paused := false }) s

@[simp] theorem unpaused_outside {parts : List Part} (hl : .par ∈ parts) (id : Nat) (s : State) :
    (unpaused id s).outside parts = s.outside parts := by simp [unpaused, hl]

theorem taskOf_unpaused {s : State} {id : Nat} {j : Job} (h : taskOf s id = some j) :
    taskOf (unpaused id s) id = some { j with paused := false } := taskOf_modJobOf h

/-- A segment is given to reclamation, and the job goes past it. -/
theorem reclaimed_step {s : State} {j : Job} {g : Seg} (hj : taskOf s j.id = some j) (hg : segOf s g.no = some g) (n : Nat) :
    Leaving (processed j.id g.no n (reclaimSeg g.no (unpaused j.id s))) g.no
    ∧ ∃ k ∈ (processed j.id g.no n (reclaimSeg g.no (unpaused j.id s))).par.jobs,
        k.id = j.id ∧ k.cursor = g.no + 1 ∧ k.done = j.done + 1 ∧ k.paused = false := by
  have htask : taskOf (reclaimSeg g.no (unpaused j.id s)) j.id = some { j with paused := false } :=
    (taskOf_congr (by rw [(reclaimSeg_frame g.no (unpaused j.id s)).par]) j.id).trans (taskOf_unpaused hj)
  obtain ⟨hadvanced, hplaced⟩ := processed_advances htask g.no n
  exact ⟨(reclaimSeg_leaving (s := unpaused j.id s) hg).placed hplaced, hadvanced⟩

/-- The Bales of a segment are given to relocation, the segment stays as it is, and the job goes past it. -/
theorem relocated_step {s : State} {j k : Job} (hj : taskOf s j.id = some k) (nos : List Nat) (no n : Nat) :
    (∀ m ∈ nos, (m, no) ∈ (processed j.id no n (alsoRelocate nos no s)).med.relocating)
    ∧ (processed j.id no n (alsoRelocate nos no s)).med.segs = s.med.segs
    ∧ ∃ x ∈ (processed j.id no n (alsoRelocate nos no s)).par.jobs, Advanced no k x := by
  have htask : taskOf (alsoRelocate nos no s) j.id = some k :=
    (taskOf_congr (by rw [(alsoRelocate_frame nos no s).par]) j.id).trans hj
  obtain ⟨hadvanced, hplaced⟩ := processed_advances htask no n
  obtain ⟨hrelocates, hsegs, -⟩ := alsoRelocate_relocates nos no s
  exact ⟨fun m hm => hplaced.relocating ▸ hrelocates m hm, hplaced.segs.trans hsegs, hadvanced⟩

/-- A job that finds no room waits (R271). -/
theorem waitForRoom_waits {s : State} {j : Job} (hj : taskOf s j.id = some j) :
    (∃ k ∈ (waitForRoom j s).par.jobs, k = { j with paused := true }) ∧ (waitForRoom j s).out = s.out := by
  obtain ⟨e, he⟩ := raiseIf_evr (!j.paused) .par .critical 271 0 [j.id] (modJobOf j.id (fun x => { x with paused := true }) s)
  rw [waitForRoom, he]
  exact ⟨⟨_, mem_of_taskOf (taskOf_modJobOf hj), rfl⟩, rfl⟩

@[simp] theorem waitForRoom_outside {parts : List Part} (hl : .par ∈ parts ∧ .evr ∈ parts) (j : Job) (s : State) :
    (waitForRoom j s).outside parts = s.outside parts := by simp [waitForRoom, hl]

/-! ### The steps by kind of job -/

section
variable {s : State} {j : Job} {g : Seg}

theorem rebuildStep_first (hp : j.phase = 1) (hg : firstInPass (s.med.segs.filter passOne) = some g) (hr : noRoomFor s g = false) :
    rebuildStep j s = processed j.id g.no (granulesIn (liveIn s g.no)) (reclaimSeg g.no (unpaused j.id s)) := by
  simp [rebuildStep, hp, hg, hr, unpaused]

theorem rebuildStep_firstDone (hp : j.phase = 1) (hg : firstInPass (s.med.segs.filter passOne) = none)
    (hw : passOneWork s = false) (hr : ckptRoom s j 2 = true) : rebuildStep j s = nextPhase j.id (unpaused j.id s) := by
  simp [rebuildStep, hp, hg, hw, hr, unpaused]

theorem rebuildStep_noRoom (hg : (j.phase = 1 ∧ firstInPass (s.med.segs.filter passOne) = some g)
      ∨ (j.phase ≠ 1 ∧ firstInPass (s.med.segs.filter (passTwo s)) = some g)) (hr : noRoomFor s g = true) :
    rebuildStep j s = waitForRoom j s := by
  rcases hg with ⟨hp, hg⟩ | ⟨hp, hg⟩ <;> simp [rebuildStep, hp, hg, hr]

theorem rebuildStep_second (hp : j.phase ≠ 1) (hg : firstInPass (s.med.segs.filter (passTwo s)) = some g)
    (hr : noRoomFor s g = false) :
    rebuildStep j s = processed j.id g.no (granulesIn (passTwoBales s g))
      (alsoRelocate ((passTwoBales s g).map (·.no)) g.no (unpaused j.id s)) := by
  simp [rebuildStep, hp, hg, hr, unpaused]

theorem rebuildStep_done (hp : j.phase ≠ 1) (hg : firstInPass (s.med.segs.filter (passTwo s)) = none)
    (hm : stillMoving s = false) : rebuildStep j s = noteVacated (endTask j.id (unpaused j.id s)) := by
  simp [rebuildStep, hp, hg, hm, unpaused]

/-- A reshape goes on while no pass 1 work exists and reclamation need not go ahead of it (R281). -/
theorem reshapeStep_goes (hw : passOneWork s = false) (hl : s.med.level = 0 ∨ reclaimWork s = false) :
    (passOneWork s || (1 ≤ s.med.level && reclaimWork s)) = false := by
  rcases hl with hl | hl <;> simp [hw, hl]

theorem reshapeStep_moves (hw : passOneWork s = false) (hl : s.med.level = 0 ∨ reclaimWork s = false)
    (hg : lowestSeg (s.med.segs.filter (reshapes j)) = some g) :
    reshapeStep j s = processed j.id g.no (granulesIn (liveIn s g.no)) (reclaimSeg g.no (unpaused j.id s)) := by
  simp [reshapeStep, reshapeStep_goes hw hl, hg, unpaused]

theorem reshapeStep_done (hw : passOneWork s = false) (hl : s.med.level = 0 ∨ reclaimWork s = false)
    (hg : lowestSeg (s.med.segs.filter (reshapes j)) = none) :
    reshapeStep j s = noteVacated (endTask j.id (unpaused j.id s)) := by
  simp [reshapeStep, reshapeStep_goes hw hl, hg, unpaused]

theorem besideStep_copies (hp : j.phase ≠ 2)
    (hg : lowestSeg (s.med.segs.filter fun g => g.oldVer && !(besideBales s g).isEmpty) = some g) :
    besideStep j s = processed j.id g.no (granulesIn (besideBales s g)) (alsoRelocate ((besideBales s g).map (·.no)) g.no s) := by
  simp [besideStep, hp, hg]

end

end Sys2Proof.Machine
end

section
/-! SUPPORT. The commands that start and move jobs (O34): JOB_SEGMENT_STEP, JOB_CHECKPOINT_TIMER, and the build-beside. -/

namespace Sys2Proof.Machine

/-! ### JOB_SEGMENT_STEP (R270 to R274, R280 to R283) -/

/-- The parts that a step of a job may change. -/
abbrev jobParts : List Part := [.par, .med, .far, .til, .sec, .freeCtr]

theorem completes_jobStep {s : State} {p : State → Prop} (hp : p (jobStepEffect s.quiet)) : Completes .jobSegmentStep s p :=
  completes_of_run (f := jobStepEffect) rfl rfl hp

section
variable {s : State} {j : Job} {g : Seg} (h : MayStep s j)
include h

theorem exec_jobSegmentStep_waits (ha : s.peer.role = .active) (hu : 2 ≤ j.unacked) : exec .jobSegmentStep s = .next s.quiet := by
  have hroom : ckptRoom s.quiet j 1 = false := by
    have hahead : ¬j.unacked + 1 ≤ 2 := by omega
    simp [ckptRoom, ha, hahead]
  exact (run_of_wf (i := .jobSegmentStep) rfl jobStepEffect s).trans (congrArg _ (h.quiet.waits hroom))

theorem completes_jobStep_reclaims (hr : ckptRoom s j 1 = true)
    (hg : (j.kind = .rebuild ∧ j.phase = 1 ∧ firstInPass (s.med.segs.filter passOne) = some g ∧ noRoomFor s g = false)
      ∨ (j.kind = .reshape ∧ passOneWork s = false ∧ (s.med.level = 0 ∨ reclaimWork s = false)
        ∧ lowestSeg (s.med.segs.filter (reshapes j)) = some g)) (hseg : segOf s g.no = some g) :
    Completes .jobSegmentStep s fun t =>
      (∃ h, segOf t g.no = some h ∧ (h.st = .reclaiming ∨ h.st = .draining))
      ∧ (∃ k ∈ t.par.jobs, k.id = j.id ∧ k.cursor = g.no + 1 ∧ k.done = j.done + 1 ∧ k.paused = false) ∧ Frame jobParts s t := by
  have heffect : jobStepEffect s.quiet = processed j.id g.no (granulesIn (liveIn (tick s.quiet) g.no))
      (reclaimSeg g.no (unpaused j.id (tick s.quiet))) := by
    rcases hg with ⟨hk, hp, hfirst, hroom⟩ | ⟨hk, hw, hl, hlowest⟩
    · exact (h.quiet.rebuild hr hk).trans (rebuildStep_first hp hfirst hroom)
    · exact (h.quiet.reshape hr hk).trans (reshapeStep_moves hw hl hlowest)
  refine completes_jobStep ?_
  rw [heffect]
  obtain ⟨hleaving, hadvanced⟩ := reclaimed_step (s := tick s.quiet) h.task hseg (granulesIn (liveIn (tick s.quiet) g.no))
  exact ⟨hleaving, hadvanced, frame_iff.2 (by simp)⟩

theorem completes_jobStep_nextPhase (hr : ckptRoom s j 2 = true) (hk : j.kind = .rebuild) (hp : j.phase = 1)
    (hw : passOneWork s = false) (hfirst : firstInPass (s.med.segs.filter passOne) = none) :
    Completes .jobSegmentStep s fun t =>
      (∃ k ∈ t.par.jobs, k.id = j.id ∧ k.phase = 2 ∧ k.cursor = 0) ∧ t.par.ckptSeq = s.par.ckptSeq + 2 ∧ Frame jobParts s t := by
  have hroom : ckptRoom s.quiet j 1 = true := by
    simp only [ckptRoom, Bool.or_eq_true, decide_eq_true_eq] at hr ⊢
    exact hr.imp id fun hahead => by omega
  have heffect : jobStepEffect s.quiet = nextPhase j.id (unpaused j.id (tick s.quiet)) :=
    (h.quiet.rebuild hroom hk).trans (rebuildStep_firstDone hp hfirst hw hr)
  refine completes_jobStep ?_
  rw [heffect]
  obtain ⟨⟨k, hmem, hid, hphase, hcursor⟩, hseq⟩ := nextPhase_begins (taskOf_unpaused (s := tick s.quiet) h.task)
  exact ⟨⟨k, hmem, hid, by rw [hphase]; exact congrArg (· + 1) hp, hcursor⟩, hseq, frame_iff.2 (by simp)⟩

theorem completes_jobStep_waits (hr : ckptRoom s j 1 = true) (hk : j.kind = .rebuild)
    (hg : (j.phase = 1 ∧ firstInPass (s.med.segs.filter passOne) = some g)
      ∨ (j.phase ≠ 1 ∧ firstInPass (s.med.segs.filter (passTwo s)) = some g)) (hroom : noRoomFor s g = true) :
    Completes .jobSegmentStep s fun t =>
      (∃ k ∈ t.par.jobs, k = { j with paused := true }) ∧ t.out = [] ∧ Frame [.par, .evr, .freeCtr] s t := by
  have heffect : jobStepEffect s.quiet = waitForRoom j (tick s.quiet) :=
    (h.quiet.rebuild hr hk).trans (rebuildStep_noRoom hg hroom)
  refine completes_jobStep ?_
  rw [heffect]
  obtain ⟨hpaused, hout⟩ := waitForRoom_waits (s := tick s.quiet) h.task
  exact ⟨hpaused, hout, frame_iff.2 (by simp)⟩

theorem completes_jobStep_relocates (hr : ckptRoom s j 1 = true) (hk : j.kind = .rebuild) (hp : j.phase ≠ 1)
    (hg : firstInPass (s.med.segs.filter (passTwo s)) = some g) (hroom : noRoomFor s g = false) :
    Completes .jobSegmentStep s fun t =>
      (∀ e ∈ passTwoBales s g, (e.no, g.no) ∈ t.med.relocating) ∧ t.med.segs = s.med.segs
      ∧ (∃ k ∈ t.par.jobs, k.id = j.id ∧ k.cursor = g.no + 1 ∧ k.done = j.done + 1) ∧ Frame jobParts s t := by
  have heffect : jobStepEffect s.quiet = processed j.id g.no (granulesIn (passTwoBales s g))
      (alsoRelocate ((passTwoBales s g).map (·.no)) g.no (unpaused j.id (tick s.quiet))) :=
    (h.quiet.rebuild hr hk).trans (rebuildStep_second hp hg hroom)
  refine completes_jobStep ?_
  rw [heffect]
  obtain ⟨hrelocates, hsegs, k, hmem, hid, hcursor, hdone, -⟩ := relocated_step (taskOf_unpaused (s := tick s.quiet) h.task)
    ((passTwoBales s g).map (·.no)) g.no (granulesIn (passTwoBales s g))
  exact ⟨fun e he => hrelocates e.no (List.mem_map_of_mem he), hsegs, ⟨k, hmem, hid, hcursor, hdone⟩, frame_iff.2 (by simp)⟩

theorem completes_jobStep_ends (hr : ckptRoom s j 1 = true)
    (hd : (j.kind = .rebuild ∧ j.phase ≠ 1 ∧ firstInPass (s.med.segs.filter (passTwo s)) = none ∧ stillMoving s = false)
      ∨ (j.kind = .reshape ∧ passOneWork s = false ∧ (s.med.level = 0 ∨ reclaimWork s = false)
        ∧ lowestSeg (s.med.segs.filter (reshapes j)) = none)) :
    Completes .jobSegmentStep s fun t => (∀ k ∈ t.par.jobs, k.id ≠ j.id) ∧ Frame jobParts s t := by
  have heffect : jobStepEffect s.quiet = noteVacated (endTask j.id (unpaused j.id (tick s.quiet))) := by
    rcases hd with ⟨hk, hp, hnone, hmoving⟩ | ⟨hk, hw, hl, hnone⟩
    · exact (h.quiet.rebuild hr hk).trans (rebuildStep_done hp hnone hmoving)
    · exact (h.quiet.reshape hr hk).trans (reshapeStep_done hw hl hnone)
  refine completes_jobStep ?_
  rw [heffect]
  exact ⟨endTask_ends j.id _, frame_iff.2 (by simp)⟩

theorem completes_jobStep_copies (hr : ckptRoom s j 1 = true) (hk : j.kind = .buildBeside) (hp : j.phase ≠ 2)
    (hg : lowestSeg (s.med.segs.filter fun g => g.oldVer && !(besideBales s g).isEmpty) = some g) :
    Completes .jobSegmentStep s fun t =>
      (∀ e ∈ besideBales s g, (e.no, g.no) ∈ t.med.relocating) ∧ t.med.segs = s.med.segs
      ∧ (∃ k ∈ t.par.jobs, k.id = j.id ∧ k.cursor = g.no + 1 ∧ k.done = j.done + 1) ∧ Frame jobParts s t := by
  have heffect : jobStepEffect s.quiet = processed j.id g.no (granulesIn (besideBales s g))
      (alsoRelocate ((besideBales s g).map (·.no)) g.no (tick s.quiet)) :=
    (h.quiet.beside hr hk).trans (besideStep_copies hp hg)
  refine completes_jobStep ?_
  rw [heffect]
  obtain ⟨hrelocates, hsegs, k, hmem, hid, hcursor, hdone, -⟩ := relocated_step (s := tick s.quiet) h.task
    ((besideBales s g).map (·.no)) g.no (granulesIn (besideBales s g))
  exact ⟨fun e he => hrelocates e.no (List.mem_map_of_mem he), hsegs, ⟨k, hmem, hid, hcursor, hdone⟩, frame_iff.2 (by simp)⟩

end

/-! ### JOB_CHECKPOINT_TIMER (R274) -/

theorem completes_jobCheckpointTimer {s : State} (hp : s.peer.pair3.inReset = false) (ha : asleep s = false)
    (hn : (s.par.jobs.map (·.id)).Nodup)
    (hu : ∀ a ∈ s.par.jobs, ∀ b ∈ s.par.jobs, sameJob (ckptOf s a) (ckptOf s b) = true → a = b) :
    Completes .jobCheckpointTimer s fun t =>
      t.par.ckptSeq = s.par.ckptSeq + (s.par.jobs.filter fun j => ckptRoom s j 1).length
      ∧ (∀ j ∈ s.par.jobs, ckptRoom s j 1 = true → ∃ c ∈ t.par.ckpts, StandsFor s j c)
      ∧ (s.peer.role = .active → s.peer.linkUp = true → ∀ j ∈ s.par.jobs, ckptRoom s j 1 = true → ∃ c, sameJob c (ckptOf s j) = true
          ∧ Output.peerMsg 0x17 s.peer.epoch [] (ckptBytes c) ∈ t.out)
      ∧ Frame [.par, .med, .far, .til, .sec] s t := by
  have heffect : ckptTimerEffect s.quiet
      = forEach (s.par.jobs.filter fun j => ckptRoom s j 1) (fun j t => writeCkpt j.id t) s.quiet :=
    if_neg (by show ¬(s.peer.pair3.inReset || asleep s) = true; simp [hp, ha])
  have hids : s.par.jobs.Pairwise fun a b => a.id ≠ b.id := List.pairwise_map.1 hn
  have hfound : ∀ j ∈ s.par.jobs.filter fun j => ckptRoom s j 1, taskOf s.quiet j.id = some j := by
    intro j hj
    obtain ⟨k, hk⟩ : ∃ k, taskOf s j.id = some k :=
      Option.isSome_iff_exists.1 (List.find?_isSome.2 ⟨j, List.mem_of_mem_filter hj, by simp⟩)
    rwa [List.inj_on_of_nodup_map hn (mem_of_taskOf hk) (List.mem_of_mem_filter hj) (taskOf_id hk)] at hk
  have hapart : s.par.jobs.Pairwise fun a b => a.id ≠ b.id ∧ sameJob (ckptOf s.quiet a) (ckptOf s.quiet b) = false :=
    hids.imp_of_mem fun {a b} hma hmb hne =>
      ⟨hne, Bool.eq_false_iff.2 fun hsame => hne (congrArg Job.id (hu a hma b hmb hsame))⟩
  refine completes_of_run (f := ckptTimerEffect) rfl rfl ?_
  rw [heffect]
  obtain ⟨hseq, -, hstand, htell, -⟩ := forEach_writeCkpt hfound (hapart.filter _)
  exact ⟨hseq, fun j hj hr => hstand j (List.mem_filter.2 ⟨hj, hr⟩),
    fun hactive hlink j hj hr => htell (by simp [tellsCkpt, hactive, hlink]) j (List.mem_filter.2 ⟨hj, hr⟩),
    frame_iff.2 (by simp)⟩

/-! ### A build-beside (R282, R283) -/

section
variable {s : State} (hold : s.par.old = true)
  (hnone : (s.par.jobs.any fun j => j.kind == .buildBeside || j.kind == .reshape) = false) (hserves : s.peer.role ≠ .service)
include hold hnone hserves

theorem besideStartEffect_eq : besideStartEffect s = if 105 * oldGranules s ≤ 100 * freeGranules s then
    addTask ⟨0, .buildBeside, 1, false, true, 0, 0, s.par.ordinary, [], 0xFFFF, 0, 0, 0, 0, 0⟩
      { s with par := { s.par with waiting := false } }
    else { s with par := { s.par with waiting := true } } := by
  have hgo : (!s.par.old || s.par.jobs.any (fun j => j.kind == .buildBeside || j.kind == .reshape) || s.peer.role == .service)
      = false := by simp only [hold, hnone, beq_false_of_ne hserves, Bool.not_true, Bool.or_false]
  simp only [besideStartEffect, hgo, Bool.false_eq_true, if_false]

theorem completes_buildBesideStart (hfits : 105 * oldGranules s ≤ 100 * freeGranules s) :
    Completes .buildBesideStart s fun t =>
      (∃ j ∈ t.par.jobs, j.kind = .buildBeside ∧ j.id = s.par.nextJob ∧ j.phase = 1 ∧ j.done = 0) ∧ t.par.waiting = false
      ∧ t.par.ckptSeq = s.par.ckptSeq + 1 ∧ Frame [.par, .med, .far, .til, .sec] s t := by
  refine completes_of_run (f := besideStartEffect) rfl rfl ?_
  rw [besideStartEffect_eq (s := s.quiet) hold hnone hserves, if_pos (by exact hfits)]
  obtain ⟨hjob, hseq, hwaiting, -⟩ := addTask_runs
    ⟨0, .buildBeside, 1, false, true, 0, 0, s.quiet.par.ordinary, [], 0xFFFF, 0, 0, 0, 0, 0⟩
    { s.quiet with par := { s.quiet.par with waiting := false } }
  exact ⟨hjob, hwaiting, hseq, frame_iff.2 (by simp)⟩

theorem completes_buildBesideStart_waits (hfull : 100 * freeGranules s < 105 * oldGranules s) :
    Completes .buildBesideStart s fun t => t.par = { s.par with waiting := true } ∧ t.out = [] ∧ Frame [.par] s t := by
  refine completes_of_run (f := besideStartEffect) rfl rfl ?_
  rw [besideStartEffect_eq (s := s.quiet) hold hnone hserves, if_neg (by exact Nat.not_le.2 hfull)]
  exact ⟨rfl, rfl, frame_iff.2 (by simp)⟩

end

/-! ### Daily notices (R276, R283) -/

theorem lostCheck_quiet (s : State) : lostCheck s.quiet = (lostCheck s).quiet := by
  unfold lostCheck
  rw [apply_ite State.quiet]
  rfl

theorem offerRec_quiet (e : EvRec) (s : State) : offerRec e s.quiet = (offerRec e s).quiet := by
  unfold offerRec
  rw [apply_ite State.quiet, apply_ite State.quiet, ← lostCheck_quiet]
  rfl

/-- An event does not depend on what was driven outward. -/
theorem raise_quiet (b : Blk) (v : Sev) (rule n : Nat) (args : List Nat) (s : State) :
    raise b v rule n args s.quiet = (raise b v rule n args s).quiet := offerRec_quiet _ s

/-- A notice that is due is recorded, and nothing else happens. -/
theorem completes_notice {i : Instr} {s : State} {c : State → Bool} {b : Blk} {v : Sev} {rule n : Nat} {args : List Nat}
    (he : exec i s = run i (fun t => raiseIf (c t) b v rule n args t) s) (hwf : i.wf = true) (hc : c s.quiet = true) :
    Completes i s fun t => t.evr = (raise b v rule n args s).evr ∧ t.out = [] ∧ Frame [.evr] s t := by
  refine completes_of_run he hwf ?_
  simp only [raiseIf, hc, if_true, raise_quiet]
  obtain ⟨e, he⟩ := raise_evr b v rule n args s
  exact ⟨rfl, rfl, frame_iff.2 (by simp)⟩

end Sys2Proof.Machine
end

section
/-! SUPPORT. Reads that reconstruct or rebuild what they read (O34): how a read job goes on or ends with its read (R157, R186, R267
to R269). -/

namespace Sys2Proof.Machine

/-! ### Read jobs -/

theorem jobOf_id {s : State} {id : Nat} {j : ReadJob} (h : jobOf s id = some j) : j.id = id := by
  simpa using List.find?_some h

theorem chunkOf_no {s : State} {no : Nat} {e : ChunkEnt} (h : chunkOf s no = some e) : e.no = no := by
  simpa using List.find?_some h

theorem jobOf_modJob {s : State} {id : Nat} {j : ReadJob} (h : jobOf s id = some j) {f : ReadJob → ReadJob}
    (hf : ∀ x, (f x).id = x.id := by exact fun _ => rfl) : jobOf (modJob id f s) id = some (f j) :=
  (find?_modFirst (fun x => by rw [hf]) s.bal.readJobs).trans (congrArg (Option.map f) h)

theorem chunkOf_modEnt {s : State} {no : Nat} {e : ChunkEnt} (h : chunkOf s no = some e) {f : ChunkEnt → ChunkEnt}
    (hf : ∀ x, (f x).no = x.no := by exact fun _ => rfl) : chunkOf (modEnt no f s) no = some (f e) := by
  have hany : (s.med.chunks.any fun x => x.no == no) = true :=
    List.any_eq_true.2 ⟨e, List.mem_of_find?_eq_some h, List.find?_some (p := fun x : ChunkEnt => x.no == no) h⟩
  rw [modEnt, if_pos hany, chunkOf, (dirtyChunk_touches no _).chunks]
  exact (find?_modFirst (fun x => by rw [hf]) s.med.chunks).trans (congrArg (Option.map f) h)

section
variable {parts : List Part}

@[simp] theorem modJob_outside (hl : .bal ∈ parts) (id : Nat) (f : ReadJob → ReadJob) (s : State) :
    (modJob id f s).outside parts = s.outside parts := by simp [modJob, hl]

@[simp] theorem endJob_outside (hl : .bal ∈ parts ∧ .med ∈ parts ∧ .hqe ∈ parts ∧ .hep ∈ parts) (j : ReadJob) (st : Word16)
    (s : State) : (endJob j st s).outside parts = s.outside parts := by simp [endJob, hl]

@[simp] theorem rebuildPassed_outside (hl : .bal ∈ parts ∧ .med ∈ parts ∧ .far ∈ parts ∧ .sec ∈ parts ∧ .evr ∈ parts)
    (j : ReadJob) (e : ChunkEnt) (a : Bytes × Bytes) (s : State) : (rebuildPassed j e a s).outside parts = s.outside parts := by
  simp [rebuildPassed, hl]

@[simp] theorem rebuildFailed_outside (hl : .bal ∈ parts ∧ .med ∈ parts ∧ .par ∈ parts ∧ .sec ∈ parts ∧ .hqe ∈ parts
    ∧ .hep ∈ parts ∧ .evr ∈ parts) (j : ReadJob) (e : ChunkEnt) (l : List (Bytes × Bytes)) (s : State) :
    (rebuildFailed j e l s).outside parts = s.outside parts := by simp [rebuildFailed, failJob, countSealFailed, hl]

end

/-! ### A read job ends -/

theorem endJob_frame (j : ReadJob) (st : Word16) (s : State) : Frame [.bal, .med, .hqe, .hep] s (endJob j st s) :=
  frame_iff.2 (endJob_outside (by decide) j st s)

theorem endRead_frame (id : Nat) (s : State) : Frame [.hqe, .hep] s (endRead id s) :=
  frame_iff.2 (endRead_outside (by decide) id s)

/-- A job that ends is outstanding no more. -/
theorem jobOf_endJob (j : ReadJob) (st : Word16) (s : State) : jobOf (endJob j st s) j.id = none := by
  unfold endJob
  extract_lets _ t first u
  have hu : jobOf u j.id = none := find?_without _ s.bal.readJobs
  clear_value u
  split
  · exact hu
  · rw [jobOf, (endRead_frame j.cmd u).bal]
    exact hu

/-- A read whose first failing block is `p`, if no block before it has failed. -/
def failedAt (st : Word16) (p : Nat) (c : Cmd) : Cmd :=
  if st != 0 && decide (p < c.good) then { c with good := p, status := st } else c

/-- A read hands back what was gathered of its good blocks. -/
def goodPart (c : Cmd) (x : Cmd) : Cmd := { x with gathered := x.gathered.filter fun g => decide (g.1 < c.good * 4096) }

theorem endRead_eq {s : State} {id : Nat} {c : Cmd} (h : cmdOf s id = some c) :
    endRead id s = finishCmd id c.status c.good 0 (modCmd id (goodPart c) s) := by
  simp only [endRead, h]
  rfl

/-- The last job of a read that fails at one block ends the read with its status there (R91). -/
theorem endJob_ended {s : State} {j : ReadJob} {d : Cmd} {q : Qp} {p : Nat} {st : Word16}
    (hlast : (s.bal.readJobs.filter fun x => x.cmd == j.cmd) = [j]) (ho : Outstanding s j.cmd d q) (hgood : d.good = d.nblk)
    (hparts : j.parts.map (·.1) = [p]) (hp : p < d.nblk) (hp' : p < 256) (hst : (st != 0) = true) :
    Ended d q st (decide (0 < p)) p 0 (endJob j st s) := by
  unfold endJob
  extract_lets _ t first u
  have hfirst : first = p := by simp only [first, hparts, List.foldl_cons, List.foldl_nil]; omega
  have hkept : ∀ c, (failedAt st p c).id = c.id := fun c => by unfold failedAt; split <;> rfl
  have hfailed : failedAt st p d = { d with good := p, status := st } := if_pos (by rw [hst, hgood, decide_eq_true hp]; rfl)
  have hu : Outstanding u j.cmd { d with good := p, status := st } q := by
    have hread := outstanding_modCmd (s := t) (f := failedAt st p) (ho.congr rfl rfl rfl) hkept (by rw [hfailed]; exact ⟨rfl, rfl, rfl⟩)
    rw [hfailed] at hread
    simp only [u, hfirst]
    exact hread
  have hnone : (u.bal.readJobs.any fun x => x.cmd == j.cmd) = false := by
    have hjobs : u.bal.readJobs = without (fun x => x.id == j.id) s.bal.readJobs := rfl
    rw [hjobs, List.any_eq_false]
    intro x hx hcmd
    obtain ⟨hmem, hid⟩ := List.mem_filter.1 hx
    have hxj : x ∈ s.bal.readJobs.filter fun x => x.cmd == j.cmd := List.mem_filter.2 ⟨hmem, hcmd⟩
    rw [hlast, List.mem_singleton] at hxj
    simp [hxj] at hid
  clear_value u
  rw [if_neg (by simp [hnone]), endRead_eq hu.1]
  have hend := finishCmd_ended (outstanding_modCmd hu (f := goodPart { d with good := p, status := st }) (fun _ => rfl)
    ⟨rfl, rfl, rfl⟩) st p 0
  have hpartial : isPartial st p d.nblk = decide (0 < p) := by rw [isPartial, hst, decide_eq_true hp, Bool.true_and, Bool.and_true]
  have hcount : (if isPartial st p d.nblk then p else 0) = p := by
    rw [hpartial]
    split
    · rfl
    · next h0 => simp at h0; omega
  have hblocks : (goodPart { d with good := p, status := st } { d with good := p, status := st }).nblk = d.nblk := rfl
  rw [hblocks, hcount, hpartial] at hend
  exact hend

/-! ### RECONSTRUCT_READ_DONE (R267, R268) -/

section
variable {s : State} {id : Nat} {src : List (Nat × Option Bytes)} {j : ReadJob} {e : ChunkEnt} {g : Seg}
  (hwf : (Instr.reconstructReadDone id src).wf = true) (hj : jobOf s id = some j) (he : chunkOf s j.chunk = some e)
  (hg : segOf s j.seg = some g) (hw : j.wanted = none) (hs : j.sealOk = false) (hr : j.rebuilt = false)
include hwf hj he hg hw hs hr

theorem completes_reconstructReadDone {b : Bytes} (hb : rebuildBale g e src = some b) (hl : lostPieces g e src ≠ []) :
    Completes (.reconstructReadDone id src) s fun t =>
      jobOf t id = some { j with found := b, rebuilt := true }
      ∧ t.par = { s.par with degReads := (s.par.degReads + (lostPieces g e src).length) % 2 ^ 64 } ∧ t.out = []
      ∧ Frame [.bal, .par] s t := by
  have heffect : reconstructEffect id src s.quiet = modJob id (fun x => { x with found := b, rebuilt := true }) { s.quiet with
      par := { s.par with degReads := (s.par.degReads + (lostPieces g e src).length) % 2 ^ 64 } } := by
    simp [reconstructEffect, show jobOf s.quiet id = some j from hj, show chunkOf s.quiet j.chunk = some e from he,
      show segOf s.quiet j.seg = some g from hg, hw, hs, hr, hb, hl]
  refine completes_of_run (f := reconstructEffect id src) rfl hwf ?_
  rw [heffect]
  exact ⟨jobOf_modJob (s := { s.quiet with par := _ }) hj, rfl, rfl, frame_iff.2 (by simp)⟩

theorem completes_reconstructReadDone_lost {d : Cmd} {q : Qp} {p : Nat} (hb : rebuildBale g e src = none)
    (hlast : (s.bal.readJobs.filter fun x => x.cmd == j.cmd) = [j]) (ho : Outstanding s j.cmd d q) (hgood : d.good = d.nblk)
    (hparts : j.parts.map (·.1) = [p]) (hp : p < d.nblk) (hp' : p < 256) :
    Completes (.reconstructReadDone id src) s fun t =>
      Ended d q 0x3020 (decide (0 < p)) p 0 t ∧ Frame [.bal, .med, .hqe, .hep] s t := by
  have heffect : reconstructEffect id src s.quiet = endJob j 0x3020 s.quiet := by
    simp [reconstructEffect, show jobOf s.quiet id = some j from hj, show chunkOf s.quiet j.chunk = some e from he,
      show segOf s.quiet j.seg = some g from hg, hw, hs, hr, hb]
  refine completes_of_run (f := reconstructEffect id src) rfl hwf ?_
  rw [heffect]
  exact ⟨endJob_ended hlast (ho.congr rfl rfl rfl) hgood hparts hp hp' (by decide), (endJob_frame j _ s.quiet).of_quiet⟩

end

/-! ### BALE_REBUILD_DONE (R157, R186, R187, R269) -/

/-- Can a Bale be opened: its keys are loaded, and an engine serves where one is needed (R187, R188)? -/
def openable (s : State) (e : ChunkEnt) : Bool :=
  keysLoaded s e && (!allOut s .xts || (!e.sealed_ && e.keyInfo == unencrypted))

theorem openable_iff {s : State} {e : ChunkEnt} :
    openable s e = true ↔ keysLoaded s e = true ∧ (allOut s .xts = false ∨ (e.sealed_ = false ∧ e.keyInfo = unencrypted)) := by
  simp [openable]

theorem not_openable_iff {s : State} {e : ChunkEnt} :
    openable s e = false
      ↔ keysLoaded s e = false ∨ (allOut s .xts = true ∧ (e.sealed_ = true ∨ e.keyInfo ≠ unencrypted)) := by
  rw [← Bool.not_eq_true, openable_iff, not_and_or, not_or, not_and_or, Bool.not_eq_true, Bool.not_eq_false, Bool.not_eq_false]

theorem opens_eq (s : State) (e : ChunkEnt) :
    (!keysLoaded s e || (allOut s .xts && (e.sealed_ || e.keyInfo != unencrypted))) = !openable s e := by
  simp [openable, Bool.not_or, bne]

/-- What the rebuild of an attempt that passes leaves. -/
theorem rebuildPassed_repairs {s : State} {j : ReadJob} {e : ChunkEnt} (hj : jobOf s j.id = some j) (he : chunkOf s e.no = some e)
    (a : Bytes × Bytes) :
    jobOf (rebuildPassed j e a s) j.id = some { j with
      found := a.1, waybill := a.2, bale := (openBale e a.1 a.2 s).getD [], rebuilt := true, wanted := none, sealOk := true }
    ∧ (e.no, e.seg) ∈ (rebuildPassed j e a s).med.relocating
    ∧ chunkOf (rebuildPassed j e a s) e.no = some { e with stored := a.1, waybill := a.2 }
    ∧ (j.wanted = some 0x3002 → (rebuildPassed j e a s).sec = { s.sec with repaired := min 0xFFFF (s.sec.repaired + 1) })
    ∧ (j.wanted ≠ some 0x3002 → (rebuildPassed j e a s).sec = s.sec) := by
  unfold rebuildPassed
  extract_lets bale t u _ v
  have ht : jobOf t j.id = some { j with
      found := a.1, waybill := a.2, bale := bale, rebuilt := true, wanted := none, sealOk := true } := jobOf_modJob hj
  have hframe : Frame [.med, .far] t u := frame_iff.2 (by simp [u])
  have hjob : jobOf u j.id = jobOf t j.id := by rw [jobOf, hframe.bal, jobOf]
  obtain ⟨hrelocates, -, hchunks⟩ := alsoRelocate_relocates [e.no] e.seg
    (modEnt e.no (fun x => { x with stored := a.1, waybill := a.2 }) t)
  have hmoves : (e.no, e.seg) ∈ u.med.relocating := hrelocates e.no (List.mem_singleton_self _)
  have hchunk : chunkOf u e.no = some { e with stored := a.1, waybill := a.2 } := by
    rw [chunkOf, hchunks]
    exact chunkOf_modEnt (s := t) he
  have hsec : u.sec = s.sec := hframe.sec
  clear_value u
  by_cases hw : j.wanted = some 0x3002
  · obtain ⟨ev, hev⟩ := raise_evr .sec .fault 186 1 [e.no] v
    have hv : v = { u with sec := { u.sec with repaired := satAdd 0xFFFF u.sec.repaired 1 } } := if_pos hw
    rw [if_pos hw, hev, hv]
    exact ⟨hjob.trans ht, hmoves, hchunk, fun _ => by rw [hsec, satAdd_eq_min], fun hw' => absurd hw hw'⟩
  · obtain ⟨ev, hev⟩ := raise_evr .bal .fault 157 1 [e.no] v
    have hv : v = u := if_neg hw
    rw [if_neg hw, hev, hv]
    exact ⟨hjob.trans ht, hmoves, hchunk, fun hw' => absurd hw' hw, fun _ => hsec⟩

/-- What a rebuild without a passing attempt leaves. -/
theorem rebuildFailed_fails (j : ReadJob) (e : ChunkEnt) (l : List (Bytes × Bytes)) (s : State) :
    jobOf (rebuildFailed j e l s) j.id = none
    ∧ (rebuildFailed j e l s).par = { s.par with unrepair := (s.par.unrepair + 1) % 2 ^ 64 }
    ∧ (failedStatus s e l = 0x3002 → (rebuildFailed j e l s).sec = { s.sec with failed := min 0xFFFF (s.sec.failed + 1) })
    ∧ (failedStatus s e l ≠ 0x3002 → (rebuildFailed j e l s).sec = s.sec) := by
  unfold rebuildFailed failJob
  extract_lets _ t u
  have hend := endJob_frame j (failedStatus s e l)
    (raise (if (if j.wanted = some 0x3002 then 186 else 157) = 157 then .bal else .sec) .critical
      (if j.wanted = some 0x3002 then 186 else 157) 0 [j.chunk] u)
  obtain ⟨ev, hev⟩ := raise_evr (if (if j.wanted = some 0x3002 then 186 else 157) = 157 then .bal else .sec) .critical
    (if j.wanted = some 0x3002 then 186 else 157) 0 [j.chunk] u
  have hpar : u.par = t.par := by
    simp only [u]
    split <;> rfl
  refine ⟨jobOf_endJob .., ?_, fun hst => ?_, fun hst => ?_⟩
  · rw [hend.par, hev]
    exact hpar
  · have hu : u = countSealFailed t := if_pos hst
    rw [hend.sec, hev, hu, countSealFailed]
    show { s.sec with failed := satAdd 0xFFFF s.sec.failed 1 } = _
    rw [satAdd_eq_min]
  · have hu : u = t := if_neg hst
    rw [hend.sec, hev, hu]

section
variable {s : State} {id : Nat} {src : List (Nat × Option Bytes)} {w : Bytes} {j : ReadJob} {e : ChunkEnt} {v : Word16} {g : Seg}
  (hj : jobOf s id = some j) (he : chunkOf s j.chunk = some e) (hv : j.wanted = some v) (hr : j.rebuilt = false)
include hj he hv hr

theorem baleRebuildEffect_unopened (ho : openable s e = false) : baleRebuildEffect id src w s = endJob j 0x7011 s := by
  simp [baleRebuildEffect, hj, he, hv, hr, opens_eq, ho]

section
variable (hg : segOf s j.seg = some g) (hold : newerFormat w = false)
include hg hold

theorem baleRebuildEffect_passes (ho : openable s e = true) {a : Bytes × Bytes}
    (ha : passing s e (rebuildAttempts g e src w) = some a) : baleRebuildEffect id src w s = rebuildPassed j e a s := by
  simp [baleRebuildEffect, hj, he, hv, hr, hg, hold, opens_eq, ho, ha]

theorem baleRebuildEffect_fails (ho : openable s e = true) (hn : passing s e (rebuildAttempts g e src w) = none) :
    baleRebuildEffect id src w s = rebuildFailed j e (rebuildAttempts g e src w) s := by
  simp [baleRebuildEffect, hj, he, hv, hr, hg, hold, opens_eq, ho, hn]

end

variable (hwf : (Instr.baleRebuildDone id ⟨src, w⟩).wf = true)
include hwf

theorem completes_baleRebuildDone_unopened (ho : openable s e = false) :
    Completes (.baleRebuildDone id ⟨src, w⟩) s fun t =>
      jobOf t id = none ∧ t.par = s.par ∧ t.sec = s.sec ∧ Frame [.bal, .med, .hqe, .hep] s t := by
  have heffect : baleRebuildEffect id src w s.quiet = endJob j 0x7011 s.quiet :=
    baleRebuildEffect_unopened (s := s.quiet) hj he hv hr ho
  refine completes_of_run (f := baleRebuildEffect id src w) rfl hwf ?_
  rw [heffect]
  have hframe : Frame [.bal, .med, .hqe, .hep] s (endJob j 0x7011 s.quiet) := (endJob_frame j _ s.quiet).of_quiet
  obtain rfl := jobOf_id hj
  exact ⟨jobOf_endJob .., hframe.par, hframe.sec, hframe⟩

variable (hg : segOf s j.seg = some g) (hold : newerFormat w = false)
include hg hold

theorem completes_baleRebuildDone {a : Bytes × Bytes} (ho : openable s e = true)
    (ha : passing s e (rebuildAttempts g e src w) = some a) :
    Completes (.baleRebuildDone id ⟨src, w⟩) s fun t =>
      jobOf t id = some { j with
        found := a.1, waybill := a.2, bale := (openBale e a.1 a.2 s).getD [], rebuilt := true, wanted := none, sealOk := true }
      ∧ (e.no, e.seg) ∈ t.med.relocating ∧ chunkOf t e.no = some { e with stored := a.1, waybill := a.2 }
      ∧ (v = 0x3002 → t.sec = { s.sec with repaired := min 0xFFFF (s.sec.repaired + 1) }) ∧ (v ≠ 0x3002 → t.sec = s.sec)
      ∧ Frame [.bal, .med, .sec, .evr, .far] s t := by
  have heffect : baleRebuildEffect id src w s.quiet = rebuildPassed j e a s.quiet :=
    baleRebuildEffect_passes (s := s.quiet) hj he hv hr hg hold ho ha
  refine completes_of_run (f := baleRebuildEffect id src w) rfl hwf ?_
  rw [heffect]
  obtain rfl := jobOf_id hj
  have hno := chunkOf_no he
  obtain ⟨hjob, hmoves, hchunk, hsealed, hother⟩ := rebuildPassed_repairs (s := s.quiet) hj (by rw [hno]; exact he) a
  exact ⟨hjob, hmoves, hchunk, fun h => hsealed (hv.trans (congrArg some h)),
    fun h => hother fun h' => h (Option.some.inj (hv.symm.trans h')), frame_iff.2 (by simp)⟩

theorem completes_baleRebuildDone_failed (ho : openable s e = true) (hn : passing s e (rebuildAttempts g e src w) = none) :
    Completes (.baleRebuildDone id ⟨src, w⟩) s fun t =>
      jobOf t id = none ∧ t.par = { s.par with unrepair := (s.par.unrepair + 1) % 2 ^ 64 }
      ∧ (failedStatus s e (rebuildAttempts g e src w) = 0x3002 → t.sec = { s.sec with failed := min 0xFFFF (s.sec.failed + 1) })
      ∧ (failedStatus s e (rebuildAttempts g e src w) ≠ 0x3002 → t.sec = s.sec)
      ∧ Frame [.bal, .med, .par, .sec, .hqe, .hep, .evr] s t := by
  have heffect : baleRebuildEffect id src w s.quiet = rebuildFailed j e (rebuildAttempts g e src w) s.quiet :=
    baleRebuildEffect_fails (s := s.quiet) hj he hv hr hg hold ho hn
  refine completes_of_run (f := baleRebuildEffect id src w) rfl hwf ?_
  rw [heffect]
  obtain rfl := jobOf_id hj
  obtain ⟨hjob, hpar, hsealed, hother⟩ := rebuildFailed_fails j e (rebuildAttempts g e src w) s.quiet
  exact ⟨hjob, hpar, hsealed, hother, frame_iff.2 (by simp)⟩

end

end Sys2Proof.Machine
end

section
/-! SUPPORT. Patrol (O34): what the findings of one stripe lead to (R219, R276 to R278). -/

namespace Sys2Proof.Machine

/-! ### What a finding may change -/

/-- The parts that patrol may change. -/
abbrev patrolParts : List Part := [.par, .med, .evr, .far]

section
variable {parts : List Part}

@[simp] theorem countRefresh_outside (hl : .med ∈ parts) (s : State) : (countRefresh s).outside parts = s.outside parts := by
  simp [countRefresh, hl]

@[simp] theorem patrolBale_outside (hl : .par ∈ parts ∧ .med ∈ parts ∧ .evr ∈ parts ∧ .far ∈ parts) (f : PatrolFinding) (no : Nat)
    (s : State) : (patrolBale f no s).outside parts = s.outside parts := by
  unfold patrolBale
  split <;> simp [hl]

@[simp] theorem patrolFound_outside (hl : .par ∈ parts ∧ .med ∈ parts ∧ .evr ∈ parts ∧ .far ∈ parts) (f : PatrolFinding)
    (s : State) : (patrolFound f s).outside parts = s.outside parts := by
  unfold patrolFound
  dsimp only
  split <;> split <;> simp [hl]

end

/-! ### Events -/

@[simp] theorem raise_med (b : Blk) (v : Sev) (rule n : Nat) (args : List Nat) (s : State) : (raise b v rule n args s).med = s.med := by
  obtain ⟨ev, hev⟩ := raise_evr b v rule n args s
  rw [hev]

@[simp] theorem raise_par (b : Blk) (v : Sev) (rule n : Nat) (args : List Nat) (s : State) : (raise b v rule n args s).par = s.par := by
  obtain ⟨ev, hev⟩ := raise_evr b v rule n args s
  rw [hev]

/-! ### A Bale that failed, and a parity that disagrees (R277) -/

section
variable {f : PatrolFinding} {no : Nat} {s : State}

theorem patrolBale_repairs (h : no ∈ f.rebuilt) :
    (no, f.seg) ∈ (patrolBale f no s).med.relocating ∧ (patrolBale f no s).med.segs = s.med.segs
    ∧ (patrolBale f no s).par = { s.par with repaired := (s.par.repaired + 1) % 2 ^ 64 } := by
  rw [patrolBale, if_pos h]
  obtain ⟨hmoves, hsegs, -⟩ := alsoRelocate_relocates [no] f.seg
    { s with par := { s.par with repaired := (s.par.repaired + 1) % 2 ^ 64 } }
  rw [raise_med, raise_par]
  exact ⟨hmoves no (List.mem_singleton_self no), hsegs, (alsoRelocate_frame [no] f.seg _).par⟩

theorem patrolBale_leaves (h : no ∉ f.rebuilt) :
    (patrolBale f no s).med = s.med ∧ (patrolBale f no s).par = { s.par with unrepair := (s.par.unrepair + 1) % 2 ^ 64 } := by
  rw [patrolBale, if_neg h, raise_med, raise_par]
  exact ⟨rfl, rfl⟩

theorem patrolBale_segs : (patrolBale f no s).med.segs = s.med.segs := by
  by_cases h : no ∈ f.rebuilt
  · obtain ⟨-, hsegs, -⟩ := patrolBale_repairs (s := s) h
    exact hsegs
  · rw [(patrolBale_leaves h).1]

theorem patrolBale_stripes : (patrolBale f no s).par.stripes = s.par.stripes := by
  by_cases h : no ∈ f.rebuilt
  · obtain ⟨-, -, hpar⟩ := patrolBale_repairs (s := s) h
    rw [hpar]
  · obtain ⟨-, hpar⟩ := patrolBale_leaves (s := s) h
    rw [hpar]

/-! ### The findings of a stripe (R276 to R278) -/

/-- Nothing is found. -/
theorem patrolFound_clean (hfailed : f.failed = []) (hbad : f.badMembers.length < 2) (hparity : f.parityAgrees = true) :
    patrolFound f s = s := by
  simp [patrolFound, hfailed, hparity, forEach, Nat.not_le.2 hbad]

/-- The parity disagrees: the stripe's LIVE Bales are relocated. -/
theorem patrolFound_disagrees (hfailed : f.failed = []) (hbad : f.badMembers.length < 2) (hparity : f.parityAgrees = false) :
    (∀ e ∈ stripeBales s f.seg f.stripe, (e.no, f.seg) ∈ (patrolFound f s).med.relocating)
    ∧ (patrolFound f s).med.segs = s.med.segs
    ∧ (patrolFound f s).par = { s.par with mismatch := (s.par.mismatch + 1) % 2 ^ 64 } := by
  have hrange : ¬2 ≤ f.badMembers.length := Nat.not_le.2 hbad
  obtain ⟨hmoves, hsegs, -⟩ := alsoRelocate_relocates ((stripeBales s f.seg f.stripe).map (·.no)) f.seg
    { s with par := { s.par with mismatch := (s.par.mismatch + 1) % 2 ^ 64 } }
  simp only [patrolFound, hfailed, hparity, List.filter_nil, forEach, List.foldl_nil, List.isEmpty_nil, Bool.not_false,
    decide_eq_true hbad, Bool.and_self, if_true, if_neg hrange, raise_med, raise_par]
  exact ⟨fun e he => hmoves e.no (List.mem_map_of_mem he), hsegs, (alsoRelocate_frame _ f.seg _).par⟩

/-- One LIVE Bale failed its check. -/
theorem patrolFound_failed (hfailed : f.failed = [no]) (hlive : no ∈ (stripeBales s f.seg f.stripe).map (·.no))
    (hbad : f.badMembers.length < 2) : patrolFound f s = patrolBale f no s := by
  have hone : [no].filter (fun n => decide (n ∈ (stripeBales s f.seg f.stripe).map (·.no))) = [no] := by
    rw [List.filter_singleton, decide_eq_true hlive]; rfl
  simp only [patrolFound, hfailed, hone, List.isEmpty_cons, Bool.false_and, Bool.false_eq_true, if_false,
    if_neg (Nat.not_le.2 hbad)]
  rfl

/-- Patrol without a second member with uncorrectable pages keeps every segment; with two, the segment leaves. The count of stripes is no
finding's. -/
theorem patrolFound_segs {g : Seg} (hg : segOf s f.seg = some g) :
    (patrolFound f s).par.stripes = s.par.stripes
    ∧ (f.badMembers.length < 2 → segOf (patrolFound f s) f.seg = some g)
    ∧ (2 ≤ f.badMembers.length → Leaving (patrolFound f s) f.seg) := by
  unfold patrolFound
  extract_lets live failed t _ u
  have ht : t.med.segs = s.med.segs ∧ t.par.stripes = s.par.stripes :=
    ⟨forEach_keeps (·.med.segs) _ (fun _ _ => patrolBale_segs) failed s,
      forEach_keeps (·.par.stripes) _ (fun _ _ => patrolBale_stripes) failed s⟩
  have hu : u.med.segs = t.med.segs ∧ u.par.stripes = t.par.stripes := by
    simp only [u]
    split
    · rw [raise_med, raise_par]
      obtain ⟨-, hsegs, -⟩ := alsoRelocate_relocates live f.seg
        { t with par := { t.par with mismatch := (t.par.mismatch + 1) % 2 ^ 64 } }
      exact ⟨hsegs, by rw [(alsoRelocate_frame live f.seg _).par]⟩
    · exact ⟨rfl, rfl⟩
  have hseg : segOf u f.seg = some g := by rw [segOf, hu.1, ht.1]; exact hg
  have hstripes : u.par.stripes = s.par.stripes := hu.2.trans ht.2
  clear_value u
  by_cases hbad : 2 ≤ f.badMembers.length
  · have hleaving : Leaving (reclaimSeg f.seg u) f.seg := reclaimSeg_leaving hseg
    rw [if_pos hbad, raise_par, Leaving, segOf, raise_med]
    exact ⟨by rw [(reclaimSeg_frame f.seg u).par]; exact hstripes, fun h => absurd hbad (Nat.not_le.2 h), fun _ => hleaving⟩
  · rw [if_neg hbad]
    exact ⟨hstripes, fun _ => hseg, fun h => absurd h hbad⟩

end

/-! ### PATROL_STEP (R219, R276 to R278) -/

/-- A stripe is counted, and patrol goes on at the next. -/
def patrolled (f : PatrolFinding) (s : State) : State :=
  { s with par := { s.par with stripes := (s.par.stripes + 1) % 2 ^ 64, cursor := (f.seg, f.stripe + 1) } }

section
variable {s : State} {f : PatrolFinding} {g : Seg} (hg : segOf s f.seg = some g) (hst : g.st = .closed) (hmiss : g.missing = [])
  (hk : f.stripe < g.stripes) (ha : asleep s = false)
include hg hst hmiss hk ha

theorem patrolEffect_eq : patrolEffect f s =
    if halfLimit s g f.corr && (segOf (patrolFound f (patrolled f s)) f.seg).any (fun x => x.st == .closed) then
      reclaimSeg f.seg (countRefresh (patrolFound f (patrolled f s)))
    else patrolFound f (patrolled f s) := by
  have hgo : (g.st != .closed || decide (g.missing ≠ []) || decide (g.stripes ≤ f.stripe) || asleep s) = false := by
    simp [hst, hmiss, ha, hk]
  simp only [patrolEffect, hg, hgo, Bool.false_eq_true, if_false]
  rfl

/-- A stripe whose pages are well below the correction limit: only its findings count. -/
theorem completes_patrolStep_found (hhalf : halfLimit s g f.corr = false) {p : State → Prop}
    (hp : p (patrolFound f (patrolled f s.quiet))) : Completes (.patrolStep f) s p := by
  refine completes_of_run (f := patrolEffect f) rfl rfl ?_
  rw [patrolEffect_eq (s := s.quiet) hg hst hmiss hk ha, show halfLimit s.quiet g f.corr = false from hhalf]
  exact hp

theorem completes_patrolStep (hfailed : f.failed = []) (hbad : f.badMembers.length < 2) (hhalf : halfLimit s g f.corr = false)
    (hparity : f.parityAgrees = true) :
    Completes (.patrolStep f) s fun t =>
      t.par = { s.par with stripes := (s.par.stripes + 1) % 2 ^ 64, cursor := (f.seg, f.stripe + 1) } ∧ t.out = []
      ∧ Frame [.par] s t := by
  refine completes_patrolStep_found hg hst hmiss hk ha hhalf ?_
  rw [patrolFound_clean hfailed hbad hparity]
  exact ⟨rfl, rfl, frame_iff.2 (by simp [patrolled])⟩

theorem completes_patrolStep_disagrees (hfailed : f.failed = []) (hbad : f.badMembers.length < 2)
    (hhalf : halfLimit s g f.corr = false) (hparity : f.parityAgrees = false) :
    Completes (.patrolStep f) s fun t =>
      (∀ e ∈ stripeBales s f.seg f.stripe, (e.no, f.seg) ∈ t.med.relocating) ∧ t.med.segs = s.med.segs
      ∧ t.par = { s.par with
        stripes := (s.par.stripes + 1) % 2 ^ 64, cursor := (f.seg, f.stripe + 1), mismatch := (s.par.mismatch + 1) % 2 ^ 64 }
      ∧ Frame patrolParts s t := by
  refine completes_patrolStep_found hg hst hmiss hk ha hhalf ?_
  obtain ⟨hmoves, hsegs, hpar⟩ := patrolFound_disagrees (s := patrolled f s.quiet) hfailed hbad hparity
  exact ⟨hmoves, hsegs, hpar, frame_iff.2 (by simp [patrolled])⟩

theorem completes_patrolStep_failed {no : Nat} (hfailed : f.failed = [no])
    (hlive : no ∈ (stripeBales s f.seg f.stripe).map (·.no)) (hbad : f.badMembers.length < 2)
    (hhalf : halfLimit s g f.corr = false) :
    Completes (.patrolStep f) s fun t =>
      (no ∈ f.rebuilt → (no, f.seg) ∈ t.med.relocating ∧ t.par = { s.par with
        stripes := (s.par.stripes + 1) % 2 ^ 64, cursor := (f.seg, f.stripe + 1), repaired := (s.par.repaired + 1) % 2 ^ 64 })
      ∧ (no ∉ f.rebuilt → t.med = s.med ∧ t.par = { s.par with
        stripes := (s.par.stripes + 1) % 2 ^ 64, cursor := (f.seg, f.stripe + 1), unrepair := (s.par.unrepair + 1) % 2 ^ 64 })
      ∧ t.med.segs = s.med.segs ∧ Frame patrolParts s t := by
  refine completes_patrolStep_found hg hst hmiss hk ha hhalf ?_
  rw [patrolFound_failed (s := patrolled f s.quiet) hfailed hlive hbad]
  refine ⟨fun h => ?_, fun h => patrolBale_leaves h, patrolBale_segs, frame_iff.2 (by simp [patrolled])⟩
  obtain ⟨hmoves, -, hpar⟩ := patrolBale_repairs (s := patrolled f s.quiet) h
  exact ⟨hmoves, hpar⟩

theorem completes_patrolStep_reclaims (hbad : 2 ≤ f.badMembers.length ∨ halfLimit s g f.corr = true) :
    Completes (.patrolStep f) s fun t =>
      (∃ h, segOf t f.seg = some h ∧ (h.st = .reclaiming ∨ h.st = .draining)) ∧ t.par.stripes = (s.par.stripes + 1) % 2 ^ 64
      ∧ Frame patrolParts s t := by
  refine completes_of_run (f := patrolEffect f) rfl rfl ?_
  rw [patrolEffect_eq (s := s.quiet) hg hst hmiss hk ha]
  obtain ⟨hstripes, hkept, hleaving⟩ := patrolFound_segs (s := patrolled f s.quiet) (f := f) hg
  have hframe : Frame patrolParts s (patrolFound f (patrolled f s.quiet)) := frame_iff.2 (by simp [patrolled])
  generalize patrolFound f (patrolled f s.quiet) = t at hstripes hkept hleaving hframe ⊢
  by_cases htwo : 2 ≤ f.badMembers.length
  · obtain ⟨h, hh, hgone⟩ := hleaving htwo
    have hopen : (segOf t f.seg).any (fun x => x.st == .closed) = false := by
      rw [hh]
      rcases hgone with hgone | hgone <;> simp [hgone]
    rw [hopen, Bool.and_false, if_neg Bool.false_ne_true]
    exact ⟨⟨h, hh, hgone⟩, hstripes, hframe⟩
  · have hseg := hkept (Nat.not_le.1 htwo)
    rw [show halfLimit s.quiet g f.corr = true from hbad.resolve_left htwo, hseg]
    simp only [Option.any_some, hst, beq_self_eq_true, Bool.and_self, if_true]
    refine ⟨reclaimSeg_leaving (s := countRefresh t) hseg, ?_, ?_⟩
    · rw [(reclaimSeg_frame f.seg _).par]
      exact hstripes
    · exact frame_iff.2 ((reclaimSeg_outside (by decide) ..).trans ((countRefresh_outside (by decide) t).trans (frame_iff.1 hframe)))

end

/-! ### PATROL_DAILY_NOTICE (R276) -/

theorem patrolBytes_quiet (s : State) (n : Nat) : patrolBytes s.quiet n = patrolBytes s n := rfl

theorem patrolBehind_quiet (s : State) : patrolBehind s.quiet = patrolBehind s := by
  simp only [patrolBehind, patrolBytes_quiet]
  rfl

theorem exec_patrolDailyNotice_quiet {s : State} (h : patrolBehind s = false) : exec .patrolDailyNotice s = .next s.quiet := by
  have hrun : exec .patrolDailyNotice s = .next (raiseIf (patrolBehind s.quiet) .par .notice 276 0 [] s.quiet) :=
    run_of_wf (i := .patrolDailyNotice) rfl (fun t => raiseIf (patrolBehind t) .par .notice 276 0 [] t) s
  rw [hrun, patrolBehind_quiet, h]
  rfl

end Sys2Proof.Machine
end

section
/-! O34: degraded reads, rebuild and reshape jobs, and the patrol. -/

namespace Sys2Proof.Machine

/-- Settles O34: a rebuilt range keeps its one rebuild and a job that cannot go on ends its read; the steps of jobs reclaim, relocate
or end as the segments that are left have it; patrol gives over what its findings name. -/
theorem parityJobs : Obligations.ParityJobs := by
  unfold Obligations.ParityJobs
  refine ⟨⟨?reconstruct, ?rebuild⟩, ⟨?longLost, ?jobStep, ?checkpoint, ?beside, ?besideNotice⟩, ⟨?patrol, ?behind, ?inTime⟩⟩
  case reconstruct =>
    intro s id src j e g hwf hj he hg hw hs hr
    exact ⟨fun b hb hl => completes_reconstructReadDone hwf hj he hg hw hs hr hb hl,
      fun d q p hb hlast ho hgood hparts hp hp' =>
        completes_reconstructReadDone_lost hwf hj he hg hw hs hr hb hlast ho hgood hparts hp hp'⟩
  case rebuild =>
    rintro s id src w j e v g _ hwf hj he hv hr hg rfl hold
    exact ⟨fun a hk hx ha => completes_baleRebuildDone hj he hv hr hwf hg hold (openable_iff.2 ⟨hk, hx⟩) ha,
      fun hshut => completes_baleRebuildDone_unopened hj he hv hr hwf (not_openable_iff.2 hshut),
      fun hk hx hn => completes_baleRebuildDone_failed hj he hv hr hwf hg hold (openable_iff.2 ⟨hk, hx⟩) hn⟩
  case longLost => exact fun s n hst hlong => completes_moduleLostExpiry hst hlong
  case jobStep =>
    intro s j hawake hruns hserves hstate hchosen hjob
    have h : MayStep s j := ⟨hawake, hruns, hserves, hstate, hchosen, hjob⟩
    exact ⟨exec_jobSegmentStep_waits h, fun g => completes_jobStep_reclaims h, completes_jobStep_nextPhase h,
      fun g => completes_jobStep_waits h, fun g => completes_jobStep_relocates h, completes_jobStep_ends h,
      fun g => completes_jobStep_copies h⟩
  case checkpoint => exact fun s hp ha hn hu => completes_jobCheckpointTimer hp ha hn hu
  case beside =>
    exact fun s hold hnone hserves =>
      ⟨completes_buildBesideStart hold hnone hserves, completes_buildBesideStart_waits hold hnone hserves⟩
  case besideNotice => exact fun s h => completes_notice (c := fun t => t.par.waiting) rfl rfl h
  case patrol =>
    intro s f g hg hst hmiss hk ha
    exact ⟨completes_patrolStep hg hst hmiss hk ha, completes_patrolStep_disagrees hg hst hmiss hk ha,
      fun no => completes_patrolStep_failed hg hst hmiss hk ha, completes_patrolStep_reclaims hg hst hmiss hk ha⟩
  case behind => exact fun s h => completes_notice (c := patrolBehind) rfl rfl ((patrolBehind_quiet s).trans h)
  case inTime => exact fun s h => exec_patrolDailyNotice_quiet h

end Sys2Proof.Machine
end
